-- ==== Sys2Proof/Word.lean ====
section
/-! DEFINITION. The word types of the model. -/

namespace Sys2Proof

/-- A byte. -/
abbrev Byte := BitVec 8
/-- A 32-bit register word (R10). -/
abbrev Word := BitVec 32
/-- A 64-bit quantity: a Damcon register, an address, a tick time. -/
abbrev DWord := BitVec 64

end Sys2Proof
end

