-- ==== Sys2Proof/Syntax.lean ====
section
/-! DEFINITION. Syntax: the commands of the block, one constructor for each row of spec/opcode_table.json. -/

namespace Sys2Proof

/-- An engine slot gg.ss (R6): its gallery and its slot 0 to 16. -/
structure EngId where
  g : BitVec 5
  slot : Fin 17
  deriving DecidableEq, Repr

/-- The fields of a Damcon instruction word beside its opcode (Table 3-4). -/
structure IW where
  rd : BitVec 5
  ra : BitVec 5
  rb : BitVec 5
  ss : BitVec 3
  md : BitVec 6
  imm : BitVec 32
  deriving DecidableEq, Repr

/-- An EVICT_ACK beat (Table 12-5): the transaction its ID names, and its CODE. -/
structure AckBeat where
  txn : Nat
  code : BitVec 3
  deriving DecidableEq, Repr

/-- The attributes of a register access on TP (Table 12-2, R447): security, owner, POSTED, LEN, NBYTES, BE,
and the low address bits (an access whose address is not a multiple of 4 breaks R10). -/
structure TpAttr where
  sec : Bool
  owner : Byte
  posted : Bool
  len : BitVec 2
  nbytes : BitVec 9
  be : BitVec 4
  low : BitVec 2
  id : Byte := 0
  cache : BitVec 2 := 0
  order : BitVec 2 := 0
  deriving DecidableEq, Repr

/-- A whole, naturally aligned 32-bit access (R10, R454). -/
def TpAttr.plain (sec : Bool) (owner : Byte) : TpAttr :=
  { sec := sec, owner := owner, posted := false, len := 0, nbytes := 4, be := 15, low := 0 }

/-- A training control block as received (Table 9-1): the sender's state code, its lane, the preset it asks for
(or 0xFF) and whether its receiver is adapted. -/
structure TsBlock where
  state : Byte
  lane : Byte
  eqReq : Byte
  adapted : Bool
  deriving DecidableEq, Repr

/-- A frame as received on a Stream Link (Tables 9-3 to 9-5). `crcOk` is the outcome of its CRC check and
`zerosOk` says that every field marked 0 is 0; `typeOk` that its TYPE is that of the row, and not a reserved code (R352). -/
structure Frame where
  crcOk : Bool
  zerosOk : Bool
  typeOk : Bool
  lane : Bool
  seq : BitVec 12
  len : BitVec 6
  tinfo : Word
  payload : List Byte
  ackSeq : BitVec 12
  ackV : Bool
  nak : Bool
  deriving DecidableEq, Repr

/-- An arbiter (Table 10-2): of a gallery, of a wing, or of a port or link by its INST code (Table 10-7). -/
inductive ArbId where
  | gal (g : BitVec 5)
  | wing (w : BitVec 2)
  | port (inst : BitVec 6)
  deriving DecidableEq, Repr

/-- A fault source FS000 to FS319. -/
abbrev SrcId := Fin 320

/-- A domain number of Table 18-1, 0 to 42. -/
abbrev DomId := Fin 43

/-- A supply of PCM.OPP: 0 VDD_CORE, 1 to 4 VDD_W0 to VDD_W3. -/
abbrev SupId := Fin 5

/-- What an assertion of a fault source carries: the channel, the slot, the class of detection (Table 16-13),
the address, and whether it was injected. -/
structure FaultInfo where
  ch : Option (BitVec 12)
  eng : Option EngId
  cls : BitVec 4
  addr : DWord
  inst : Byte
  inj : Bool
  deriving DecidableEq, Repr

/-- How a targeted test ended (R582): every step passed, a step failed and its rows were remapped and it then passed,
or the given step failed. -/
inductive TestOutcome where
  | passed
  | repaired
  | failed (step : BitVec 4)
  deriving DecidableEq, Repr

/-- The scrubbed arrays of Table 17-4. -/
inductive ScrubArray where
  | cat | cs | vit | key | ecache | ao | stg
  deriving DecidableEq, Repr

/-- What a scrub read found (R595, R596). `lastWord` says that the access ends its sweep. -/
structure ScrubOutcome where
  corrected : Bool
  bad : Bool
  lastWord : Bool
  deriving DecidableEq, Repr

/-- A PMI acknowledgement input (Table 13-4): a supply's vack (0 core, 1 to 4 w0 to w3, 5 to 8 sl0 to sl3),
or a clock's acknowledge (0 refclk, 1 to 4 slrefclk) at a level. -/
inductive PmiSig where
  | supply (x : Fin 9)
  | clock (c : Fin 5) (v : Bool)
  deriving DecidableEq, Repr

/-- Why an instruction could not be fetched (R132): it lies outside program space, or its fetch was answered with
a code other than OKAY. -/
inductive FetchFault where
  | range
  | bus (code : BitVec 3)
  deriving DecidableEq, Repr

/-- The commands of the block: one constructor for each row of the table. -/
inductive Instr where
  /-- B_COND (R185). Conditional branch taken when its condition on the psr flags holds. -/
  | bCond (e : EngId) (w : IW)
  /-- DBNZ (R186). Decrements the counter register and branches when the result is not zero. -/
  | dbnz (e : EngId) (w : IW)
  /-- CALL (R187). Writes the return offset to g30 and branches relative to the instruction. -/
  | call (e : EngId) (w : IW)
  /-- JR (R187). Jumps to the 8-byte aligned target held in ra. -/
  | jr (e : EngId) (w : IW)
  /-- CALLR (R187). Jumps to the target held in ra after writing the return offset to g30. -/
  | callr (e : EngId) (w : IW)
  /-- RET (R187). Returns to the offset held in g30. -/
  | ret (e : EngId) (w : IW)
  /-- TRAP (R188). Raises exception cause TRAP with INFO set to imm32. -/
  | trap (e : EngId) (w : IW)
  /-- ERET (R124). Restores pc, psr, g1 and g2 from the exception frame and pops the frame. -/
  | eret (e : EngId) (w : IW)
  /-- SYNC_I (R183). Discards the prefetch buffer and refills it from the Vitrine. -/
  | syncI (e : EngId) (w : IW)
  /-- FENCE (R181). Stalls until every earlier data write of the work order is acknowledged. -/
  | fence (e : EngId) (w : IW)
  /-- FENCE_G (R182). Does what FENCE does and also waits until the hub has released the channel's handed-over effects. -/
  | fenceG (e : EngId) (w : IW)
  /-- SDEF (R157). Defines a stream cursor from a descriptor, at position 0, after checking the descriptor. -/
  | sdef (e : EngId) (w : IW)
  /-- SSEEK (R158). Sets the position of a stream. -/
  | sseek (e : EngId) (w : IW)
  /-- SPOS (R159). Reads the position or the length of a stream into a register. -/
  | spos (e : EngId) (w : IW)
  /-- MOVE (R161). Moves bytes from a source stream to a destination stream in bursts. -/
  | move (e : EngId) (w : IW)
  /-- MOVEX (R162). Moves bytes through a chain of up to three transform stages. -/
  | movex (e : EngId) (w : IW)
  /-- FUNNEL (R165). Writes whole 64-byte blocks to the destination and keeps the remainder as a residue. -/
  | funnel (e : EngId) (w : IW)
  /-- FILL (R169). Writes a position-tied 8-byte pattern to a destination stream. -/
  | fill (e : EngId) (w : IW)
  /-- CAPT_READ (R170). Read capture: moves bytes from a non-replayable source through an Alcove buffer in checkpointed capture bursts. -/
  | captRead (e : EngId) (w : IW)
  /-- CAPT_WRITE (R170). Write capture: moves bytes to a non-replayable destination in checkpointed capture bursts. -/
  | captWrite (e : EngId) (w : IW)
  /-- NOTIFY (R173). Creates a PROGRAM notice, reserving a notice slot, and places it in the effect buffer. -/
  | notify (e : EngId) (w : IW)
  /-- WAIT_TIME (R176). Checkpoints and waits until the time base reaches an absolute anchor, applying the late policy. -/
  | waitTime (e : EngId) (w : IW)
  /-- WAIT_ANGLE (R176). Checkpoints and waits until an angular anchor is reached, applying the late policy. -/
  | waitAngle (e : EngId) (w : IW)
  /-- WAIT_DELAY (R177). Checkpoints and waits for a delay whose anchor is fixed once when the instruction executes. -/
  | waitDelay (e : EngId) (w : IW)
  /-- WAIT_EVENT (R206). Checkpoints and waits for a pending event on a subscription, then consumes it. -/
  | waitEvent (e : EngId) (w : IW)
  /-- YIELD (R175). Flushes the residue, takes a checkpoint and releases the engine. -/
  | yield (e : EngId) (w : IW)
  /-- CKPT (R174). Flushes the residue and takes a checkpoint, then continues. -/
  | ckpt (e : EngId) (w : IW)
  /-- DONE (R180). Takes the final checkpoint, completes the work order and releases the engine. -/
  | done (e : EngId) (w : IW)
  /-- ADD (R194). Adds two operands and sets the flags. -/
  | add (e : EngId) (w : IW)
  /-- SUB (R194). Subtracts two operands and sets the flags. -/
  | sub (e : EngId) (w : IW)
  /-- AND (R190). Bitwise AND of two operands. -/
  | and_ (e : EngId) (w : IW)
  /-- OR (R190). Bitwise OR of two operands. -/
  | or_ (e : EngId) (w : IW)
  /-- XOR (R190). Bitwise exclusive OR of two operands. -/
  | xor_ (e : EngId) (w : IW)
  /-- NEG (R129). Negates an operand. -/
  | neg (e : EngId) (w : IW)
  /-- CMP (R194). Sets the flags of a subtraction without writing a result. -/
  | cmp (e : EngId) (w : IW)
  /-- TST (R190). Sets Z and N from a bitwise AND without writing a result. -/
  | tst (e : EngId) (w : IW)
  /-- LI (R190). Loads an immediate into the low word sign-extended or into the high word. -/
  | li (e : EngId) (w : IW)
  /-- SLL (R195). Logical shift left by an unmasked count. -/
  | sll (e : EngId) (w : IW)
  /-- SRL (R195). Logical shift right by an unmasked count. -/
  | srl (e : EngId) (w : IW)
  /-- SRA (R195). Arithmetic shift right by an unmasked count. -/
  | sra (e : EngId) (w : IW)
  /-- ROT (R195). Rotates toward bit 0 by the count modulo the word size. -/
  | rot (e : EngId) (w : IW)
  /-- MULS (R197). Low 64 bits of the signed product. -/
  | muls (e : EngId) (w : IW)
  /-- MULU (R197). Low 64 bits of the unsigned product. -/
  | mulu (e : EngId) (w : IW)
  /-- MULHS (R197). High 64 bits of the signed product. -/
  | mulhs (e : EngId) (w : IW)
  /-- MULHU (R197). High 64 bits of the unsigned product. -/
  | mulhu (e : EngId) (w : IW)
  /-- DIVS (R197). Signed quotient truncated toward zero. -/
  | divs (e : EngId) (w : IW)
  /-- DIVU (R197). Unsigned quotient. -/
  | divu (e : EngId) (w : IW)
  /-- REMS (R197). Signed remainder with the sign of the dividend. -/
  | rems (e : EngId) (w : IW)
  /-- REMU (R197). Unsigned remainder. -/
  | remu (e : EngId) (w : IW)
  /-- EXT (R196). Extracts a bit field zero-extended. -/
  | ext (e : EngId) (w : IW)
  /-- EXTS (R196). Extracts a bit field sign-extended. -/
  | exts (e : EngId) (w : IW)
  /-- INS (R196). Inserts a bit field into rd. -/
  | ins (e : EngId) (w : IW)
  /-- CLZ (R196). Counts leading zero bits. -/
  | clz (e : EngId) (w : IW)
  /-- CTZ (R196). Counts trailing zero bits. -/
  | ctz (e : EngId) (w : IW)
  /-- POPC (R195). Counts one bits. -/
  | popc (e : EngId) (w : IW)
  /-- BSWAP (R195). Reverses the bytes of an 8-, 4- or 2-byte operand. -/
  | bswap (e : EngId) (w : IW)
  /-- LD (R198). Loads bytes from the Alcove into a register. -/
  | ld (e : EngId) (w : IW)
  /-- ST (R198). Stores bytes of a register into the Alcove. -/
  | st (e : EngId) (w : IW)
  /-- LDV (R199). Reads an aligned unit of program space through the Vitrine. -/
  | ldv (e : EngId) (w : IW)
  /-- TCLD (R201). Reads a template counter, including this engine's held value. -/
  | tcld (e : EngId) (w : IW)
  /-- SIGNAL (R203). Places one signal to an event channel in the effect buffer. -/
  | signal (e : EngId) (w : IW)
  /-- EVTST (R205). Reads the pending and overrun state of a subscription without consuming. -/
  | evtst (e : EngId) (w : IW)
  /-- TNOW (R208). Reads the tick time. -/
  | tnow (e : EngId) (w : IW)
  /-- ANOW (R292). Reads the current angular position. -/
  | anow (e : EngId) (w : IW)
  /-- A2T (R209). Predicts the tick time of an angular word. -/
  | a2t (e : EngId) (w : IW)
  /-- T2A (R209). Predicts the angular position at a tick time. -/
  | t2a (e : EngId) (w : IW)
  /-- AADD (R210). Advances an angular word by a signed number of wedges. -/
  | aadd (e : EngId) (w : IW)
  /-- XSET (R218). Binds a transform binding to a descriptor and key slot after checks. -/
  | xset (e : EngId) (w : IW)
  /-- XFOLD (R220). Feeds register bytes into the running state of a CRC or checksum binding. -/
  | xfold (e : EngId) (w : IW)
  /-- XGET (R221). Reads the finalised value of a binding. -/
  | xget (e : EngId) (w : IW)
  /-- XRST (R222). Resets the running state of a binding. -/
  | xrst (e : EngId) (w : IW)
  /-- EMIT (R224). Writes bytes produced from a template to a stream, holding any counter increments as one effect. -/
  | emit (e : EngId) (w : IW)
  /-- PATCH (R229). Overwrites already written stream bytes after earlier writes are acknowledged. -/
  | patch (e : EngId) (w : IW)
  /-- RDSR (R233). Reads a special register. -/
  | rdsr (e : EngId) (w : IW)
  /-- WRSR (R233). Writes the psr. -/
  | wrsr (e : EngId) (w : IW)
  /-- UNHANDLED_EXCEPTION_END (R674). After every write of a trapped work order is answered, hands its held effects to the hub and ends it. -/
  | unhandledExceptionEnd (e : EngId)
  /-- RESIDUE_FORCED_FLUSH (R168). Flushes the residue at a burst boundary once an automatic checkpoint has been overdue for its interval. -/
  | residueForcedFlush (e : EngId)
  /-- CKPT_BYTE_INTERVAL_EXPIRY (R111). The byte interval expires, making an automatic checkpoint due at the next eligible boundary. -/
  | ckptByteIntervalExpiry (e : EngId)
  /-- CKPT_TIME_INTERVAL_EXPIRY (R111). The time interval expires, making an automatic checkpoint due at the next eligible boundary. -/
  | ckptTimeIntervalExpiry (e : EngId)
  /-- CHECKPOINT_COMMIT (R113). Once the interval's writes are acknowledged, commits carried state, hands effects to the hub and releases link data. -/
  | checkpointCommit (e : EngId)
  /-- DISPATCH_DECISION (R385). A wing's per-cycle decision pairs a ready channel with a free engine or asks for a gallery wake. -/
  | dispatchDecision (wing : BitVec 2)
  /-- WR_TAIL_WRITE (R70). A doorbell write of WR_TAIL posts entries if accepted, else sets DB_ERR. -/
  | wrTailWrite (a : TpAttr) (ch : BitVec 12) (d : Word)
  /-- NT_HEAD_WRITE (R71). A doorbell write of NT_HEAD returns notice slots to Tilzu if accepted. -/
  | ntHeadWrite (a : TpAttr) (ch : BitVec 12) (d : Word)
  /-- INVALIDATE (R84). Discards the channel's prefetched unstarted entries and sets WR_FETCH to WR_START. -/
  | invalidate (a : TpAttr) (ch : BitVec 12) (d : Word)
  /-- PAUSE (R417). Command that holds the channel's work order at its next instruction or burst boundary. -/
  | pause (a : TpAttr) (ch : BitVec 12) (d : Word)
  /-- STOP (R421). Command that completes captured unstarted entries with STOPPED after the current work order and halts. -/
  | stop (a : TpAttr) (ch : BitVec 12) (d : Word)
  /-- ABORT (R422). Command that ends the current work order with ABORTED at its next boundary. -/
  | abort (a : TpAttr) (ch : BitVec 12) (d : Word)
  /-- KILL (R423). Command that stops the work order at once, tearing bursts, and halts the channel. -/
  | kill (a : TpAttr) (ch : BitVec 12) (d : Word)
  /-- RESUME (R86). Command that continues a paused or halted channel, or settles a ring error. -/
  | resume (a : TpAttr) (ch : BitVec 12) (d : Word)
  /-- PAUSE_STOP_POINT (R418). The pause takes effect at its boundary and the channel becomes PAUSED once issued writes are acknowledged. -/
  | pauseStopPoint (ch : BitVec 12)
  /-- ABORT_STOP_POINT (R422). At its boundary the abort discards held state, waits for writes and completes the work order ABORTED. -/
  | abortStopPoint (ch : BitVec 12)
  /-- KILL_STOP_POINT (R423). Within 4 cycles the kill withdraws bursts, discards state and completes the work order KILLED once writes are answered. -/
  | killStopPoint (ch : BitVec 12)
  /-- STOP_WORK_ORDER_BOUNDARY (R421). At the work-order boundary, captured entries complete STOPPED and the channel halts. -/
  | stopWorkOrderBoundary (ch : BitVec 12)
  /-- CH_ALLOCATE (R50). A write of CH_CTRL.ALLOC = 1 moves a FREE channel to CONFIGURED or ARMED. -/
  | chAllocate (a : TpAttr) (i : BitVec 2) (d : Word)
  /-- CH_FREE (R50). A write of ALLOC = 0 frees a CONFIGURED channel and resets its context. -/
  | chFree (a : TpAttr) (i : BitVec 2) (d : Word)
  /-- CH_ENABLE (R49). A write of CH_CTRL.EN = 1 arms the channel if a populated home gallery exists. -/
  | chEnable (a : TpAttr) (i : BitVec 2) (d : Word)
  /-- CH_DISABLE (R90). A write of CH_CTRL.EN = 0 starts draining the channel. -/
  | chDisable (a : TpAttr) (i : BitVec 2) (d : Word)
  /-- RING_CONFIG_WRITE (R46). A change of ring base or size resets that ring's indices. -/
  | ringConfigWrite (a : TpAttr) (i : BitVec 2) (off : BitVec 8) (d : Word)
  /-- CAT_SEL_WRITE (R40). Selects the channel shown in a Catalogue window and clears its holding registers. -/
  | catSelWrite (a : TpAttr) (i : BitVec 2) (d : Word)
  /-- CH_CK_PC_READ (R660). Reading CH_CK_PC through a window snapshots the checkpoint and schedule area. -/
  | chCkPcRead (a : TpAttr) (i : BitVec 2)
  /-- LO_HALF_READ (R657). A read of a _LO register loads the pair's holding register with the _HI half. -/
  | loHalfRead (a : TpAttr) (addr : BitVec 20)
  /-- RC_FIELD_READ (R15). A read answered OKAY clears the RC fields it returns. -/
  | rcFieldRead (a : TpAttr) (addr : BitVec 20)
  /-- ENTRY_FETCH (R81). The entry cache issues a 64-byte read of a posted work entry. -/
  | entryFetch (ch : BitVec 12)
  /-- ENTRY_FETCH_COMPLETE (R79). An entry read returns; an error completes the entry with a bus status. -/
  | entryFetchComplete (ch : BitVec 12)
  /-- ENTRY_MALFORMED (R56). An entry reaching its start completes MALFORMED without running. -/
  | entryMalformed (ch : BitVec 12)
  /-- MARKER_ENTRY (R55). WQM writes a MARKER notice and completes the entry with OK. -/
  | markerEntry (ch : BitVec 12)
  /-- BARRIER_COMPLETE (R54). A BARRIER completes once every named channel has passed its named index. -/
  | barrierComplete (ch : BitVec 12)
  /-- EFFECT_RELEASE (R409). The hub releases the next handed-over effect of a channel once the previous one is complete. -/
  | effectRelease (ch : BitVec 12)
  /-- RESULT_PUBLICATION (R74). After the entry's writes and notice are acknowledged, WR_DONE advances past the entry. -/
  | resultPublication (ch : BitVec 12)
  /-- RING_ERROR (R673). An error response to a result, notice or mirror write halts the channel and holds its releases. -/
  | ringError (ch : BitVec 12)
  /-- POOL_LOAD (R303). Loads the earliest pending channel anchors into the pool comparator pairs. -/
  | poolLoad
  /-- ANCHOR_FIRE (R306). A comparator pair fires, readying the channel or raising the software comparator's producer. -/
  | anchorFire (n : BitVec 6)
  /-- SC_CTRL_WRITE (R309). Arms or disarms a software comparator. -/
  | scCtrlWrite (a : TpAttr) (n : BitVec 5) (d : Word)
  /-- WEDGE_STROBE (R283). An accepted wedge strobe starts the next wedge and may advance lock and epoch counts. -/
  | wedgeStrobe (index : Bool) (phase : BitVec 16)
  /-- INDEX_WITHOUT_STROBE (R284). An index sampled without a strobe is ignored and counted as a tolerance failure. -/
  | indexWithoutStrobe
  /-- TOLERANCE_WINDOW_EXPIRY (R290). A tolerance window ends without an accepted strobe, entering or extending HOLDOVER. -/
  | toleranceWindowExpiry
  /-- SPIN_VALID_CHANGE (R290). A change of tbi_spin_valid moves angular time to or from UNLOCKED. -/
  | spinValidChange (v : Bool)
  /-- SYNTH_STROBE (R290). In SYNTH mode, TBS generates a strobe every synthetic period. -/
  | synthStrobe
  /-- EPOCH_TIME_N (R294). A TIME_N epoch boundary occurs at each multiple of its period. -/
  | epochTimeN
  /-- EPOCH_STROBE (R294). A write of EP_STROBE.GO produces one STROBE epoch boundary. -/
  | epochStrobe (a : TpAttr) (d : Word)
  /-- DELAY_PARITY_ERROR (R310). A parity error in one delay register copy is corrected from the other. -/
  | delayParityError (n : BitVec 6) (shadow : Bool)
  /-- DELAY_REGISTER_LOST (R311). Both copies of a delay register fail and a reload from the authoritative copy starts. -/
  | delayRegisterLost (n : BitVec 6)
  /-- DELAY_REGISTER_RELOAD (R33). The reload of a delay register completes and re-evaluates the anchor. -/
  | delayRegisterReload (n : BitVec 6) (authOk : Bool)
  /-- COMPARATOR_DISAGREEMENT (R312). One comparator of a pair asserts without the other; the action is held. -/
  | comparatorDisagreement (n : BitVec 6)
  /-- SLOW_CHECK_REEVALUATION (R312). Docent's slow checker re-evaluates a held anchor and re-arms or applies the late policy. -/
  | slowCheckReevaluation (n : BitVec 6)
  /-- SLOW_CHECK_SWEEP (R313). Once per microsecond the slow checker reads every armed pair for missed fires. -/
  | slowCheckSweep
  /-- REQUEST_LINE_CHANGE (R317). A synchronised change of a request line input. -/
  | requestLineChange (n : BitVec 7) (lvl last : Bool)
  /-- HOLDOFF_EXPIRY (R318). In LEVEL mode, the holdoff after an acknowledge expires and the line is sampled again. -/
  | holdoffExpiry (n : BitVec 7)
  /-- AO_REQUEST_LATCH (R323). While CORE is not ON, a rising edge sets the AO latch and raises a wake. -/
  | aoRequestLatch (n : BitVec 7)
  /-- SW_RAISE (R326). A write of SW_RAISE raises software producers. -/
  | swRaise (a : TpAttr) (d : Word)
  /-- SUB_WRITE (R332). A write of a subscription, checked and clearing PEND and OVR on a change. -/
  | subWrite (a : TpAttr) (j : BitVec 10) (d : Word)
  /-- HALT_Q_READ (R327). A secure read of HALT_Q pops the oldest halted channel. -/
  | haltQRead (a : TpAttr)
  /-- EVO_PULSE_END (R338). The high or minimum low time of a PULSE event output ends. -/
  | evoPulseEnd (m : BitVec 6)
  /-- IRQ_COAL_TIMEOUT (R339). The coalescing timer of an interrupt line expires and sets PEND. -/
  | irqCoalTimeout (i : BitVec 5)
  /-- IRQ_PEND_CLEAR (R339). A write of 1 to an IRQ_PEND bit clears it, its count and its timer. -/
  | irqPendClear (a : TpAttr) (d : Word)
  /-- LINK_ENABLE (R346). A write of LINK_CTRL.EN = 1 starts training from DETECT. -/
  | linkEnable (a : TpAttr) (l : BitVec 5) (d : Word)
  /-- LINK_DISABLE (R346). A write of LINK_CTRL.EN = 0 sends the link to DISABLED at once. -/
  | linkDisable (a : TpAttr) (l : BitVec 5) (d : Word)
  /-- RETRAIN (R376). A write of LINK_CTRL.RETRAIN sends the link to DETECT and clears failed-lane marks. -/
  | retrain (a : TpAttr) (l : BitVec 5) (d : Word)
  /-- BLOCK_LOCK_ACQUIRED (R345). Block lock is gained on a receive lane. -/
  | blockLockAcquired (l : BitVec 5) (lane : Bool)
  /-- BLOCK_LOCK_LOST (R348). Block lock is lost on the active lane, making it failing. -/
  | blockLockLost (l : BitVec 5) (lane : Bool)
  /-- TS (R347). A training control block is received with state, lane and equalization fields. -/
  | ts (l : BitVec 5) (t : TsBlock)
  /-- LSW (R348). A lane switch control block moves reception to the named lane. -/
  | lsw (l : BitVec 5) (lane : Bool) (seq : BitVec 12)
  /-- TRAIN_TIMEOUT (R346). TRAIN has not completed within 4 ms and the link fails. -/
  | trainTimeout (l : BitVec 5)
  /-- CONFIG_TIMEOUT (R346). CONFIG has not completed within 100 µs and the link fails. -/
  | configTimeout (l : BitVec 5)
  /-- RECOVERY_TIMEOUT (R346). RECOVERY has not completed within 500 µs and the link fails. -/
  | recoveryTimeout (l : BitVec 5)
  /-- STREAM_DATA (R359). A received STREAM_DATA frame delivers sector tag and user bytes to the receive buffer. -/
  | streamData (l : BitVec 5) (f : Frame)
  /-- STREAM_STATUS (R361). A received STREAM_STATUS takes a status queue entry and may retire an active read. -/
  | streamStatus (l : BitVec 5) (f : Frame)
  /-- MARK (R361). A received MARK takes a status queue entry. -/
  | mark (l : BitVec 5) (f : Frame)
  /-- ACK (R352). A received ACK control frame acts on its trailer acknowledgement. -/
  | ack (l : BitVec 5) (f : Frame)
  /-- CREDIT (R355). A received CREDIT frame updates the cumulative transmit limits. -/
  | credit (l : BitVec 5) (f : Frame)
  /-- CAP (R373). A received CAP frame negotiates version, MAXLEN and features. -/
  | cap (l : BitVec 5) (f : Frame)
  /-- LINK_REPLAY_TIMEOUT (R353). No acknowledgement advance within the replay timeout triggers a replay. -/
  | linkReplayTimeout (l : BitVec 5)
  /-- ACK_FRAME_SEND (R352). With no other frame waiting, an ACK control frame is sent within 1 µs of accepting a frame. -/
  | ackFrameSend (l : BitVec 5)
  /-- RX_FLUSH (R368). A write of RX_CMD.FLUSH discards received bytes, active reads and the status queue. -/
  | rxFlush (a : TpAttr) (l : BitVec 5) (d : Word)
  /-- RX_CFG_WRITE (R369). Changes the link owner or sector size, refused while the owner is busy or a read is active. -/
  | rxCfgWrite (a : TpAttr) (l : BitVec 5) (d : Word)
  /-- STQ_HDR_READ (R378). Pops the oldest status queue entry into the holding registers and returns a credit. -/
  | stqHdrRead (a : TpAttr) (l : BitVec 5)
  /-- ARBITER_GRANT_POINT (R391). An arbiter grants a burst by forced win, wheel slot or background ranking. -/
  | arbiterGrantPoint (arb : ArbId)
  /-- GRANT_WATCHDOG_BITE (R399). The grant watchdog bites, completing the burst without byte enables and cordoning the grantee. -/
  | grantWatchdogBite (arb : ArbId)
  /-- READ_RESPONSE (R449). A read response is received on a manager port. -/
  | readResponse (t : Nat) (codes : List (BitVec 3)) (data : List Byte) (grantE : Bool)
  /-- WRITE_RESPONSE (R403). A write response is received, acknowledging the write. -/
  | writeResponse (t : Nat) (code : BitVec 3)
  /-- RETRY_REISSUE (R452). After the RETRY gap, the port reissues the transaction or exhausts RETRY_MAX. -/
  | retryReissue (t : Nat)
  /-- SNP_SHARED (R464). A SnpShared snoop is answered against the line state. -/
  | snpShared (cp : Bool) (line : BitVec 58)
  /-- SNP_INVALID (R464). A SnpInvalid snoop is answered and the line dropped. -/
  | snpInvalid (cp : Bool) (line : BitVec 58)
  /-- EVICT_ACK (R466). An EVICT_ACK is received, releasing held reads of the line. -/
  | evictAck (t : AckBeat)
  /-- WB_ACK (R466). A WriteBack acknowledgement is received, releasing held reads of the line. -/
  | wbAck (t : Nat) (code : BitVec 3)
  /-- COHERENT_REISSUE (R467). A failed ReadUnique or WriteBack is reissued every 1 µs. -/
  | coherentReissue (t : Nat)
  /-- REGISTER_WRITE (R656). A TP or SBP write to a register with no row of its own, judged in order and applied. -/
  | registerWrite (a : TpAttr) (addr : BitVec 20) (d : Word)
  /-- ATTENDANT_ACCESS (R488). The Attendant answers a TP access while CORE does not serve TP. -/
  | attendantAccess (a : TpAttr) (addr : BitVec 20) (wr : Bool) (d : Word)
  /-- TP_HANDSHAKE_VIOLATION (R638). A TP manager changes a beat before transfer; counted and answered SLVERR. -/
  | tpHandshakeViolation (a : TpAttr)
  /-- STAGING_WRITE (R503). A write to an RWS register checks, clamps and stores staging copies, logging clamps. -/
  | stagingWrite (a : TpAttr) (addr : BitVec 20) (d : Word)
  /-- COMMIT (R509). Accepts a commit of named sets, locks them and starts the checks. -/
  | commit (a : TpAttr) (d : Word)
  /-- CANCEL (R512). Cancels a checking or pending commit. -/
  | cancel (a : TpAttr) (d : Word)
  /-- REVERT (R512). Copies applied values into the staging copies of unlocked named sets. -/
  | revert (a : TpAttr) (d : Word)
  /-- COMMIT_CHECK_DONE (R509). The consistency checks end, entering PENDING or REJECTED. -/
  | commitCheckDone
  /-- COMMIT_BOUNDARY (R510). At the first boundary of the source, live checks run and the sets apply in one cycle. -/
  | commitBoundary
  /-- COMMIT_EXPIRY (R514). The commit timeout expires without a boundary and nothing applies. -/
  | commitExpiry
  /-- CLAMP_LOG_CLEAR (R503). A write of CLAMP_STAT.CLR clears every clamp log entry and OVF. -/
  | clampLogClear (a : TpAttr) (d : Word)
  /-- LOAD_GO (R525). Starts a control store load and its first reading. -/
  | loadGo (a : TpAttr) (d : Word)
  /-- LOAD_CANCEL (R528). Cancels the load in progress. -/
  | loadCancel (a : TpAttr) (d : Word)
  /-- LOAD_VERIFY_DONE (R525). The first reading's checks end, failing the load or starting the second reading. What was
read is in the read job, so the operand holds nothing. -/
  | loadVerifyDone (x : Unit)
  /-- LOAD_WRITE_DONE (R527). The second reading ends; the banks become VALID or INVALID on digest comparison. Its operand
holds nothing (see LOAD_VERIFY_DONE). -/
  | loadWriteDone (x : Unit)
  /-- BANK_SWAP (R531). A write of CS_CTRL.SWAP makes the other bank active. -/
  | bankSwap (a : TpAttr) (g : BitVec 5) (d : Word)
  /-- BANK_RELOAD (R532). A bank reload after wake or uncorrectable error completes and is checked against its digest. Its
last operand holds nothing (see LOAD_VERIFY_DONE). -/
  | bankReload (g : BitVec 5) (b : Bool) (x : Unit)
  /-- SVN_MIN_WRITE (R523). Raises the lowest accepted security version; a lower value is ignored. -/
  | svnMinWrite (a : TpAttr) (d : Word)
  /-- FAULT_ASSERTION (R557). A fault source asserts; FCR records it and the reaction of its source follows. -/
  | faultAssertion (n : SrcId) (i : FaultInfo)
  /-- RAIL_FAULT (R544). Both wires of a source show one level for 3 cycles; the source is marked stuck. -/
  | railFault (n : SrcId)
  /-- STUCK_SOURCE_CLEAR (R544). A stuck source shows a valid pair for 1,024 cycles and is no longer stuck. -/
  | stuckSourceClear (n : SrcId)
  /-- ENGINE_FAULT (R542). An engine detects an error, stops issuing and cordons its slot. -/
  | engineFault (e : EngId)
  /-- REPLAY_READY (R558). Once the faulted engine's writes are answered, the channel is made ready for replay. -/
  | replayReady (e : EngId)
  /-- FLT_PULSE_END (R553). The FLT_N pulse timer expires. -/
  | fltPulseEnd
  /-- FLT_RELEASE (R554). A write of FLT_CTRL.RELEASE clears the level latch and stops the pulse. -/
  | fltRelease (a : TpAttr) (d : Word)
  /-- FAULT_QUIET_END (R555). The quiet period ends and FCR leaves the fault state. -/
  | faultQuietEnd
  /-- INJECTION_GO (R573). Arms a fault injection into the selected checker. -/
  | injectionGo (a : TpAttr) (d : Word)
  /-- INJECTION_SEEN (R575). The targeted checker sees the inverted bits and the injected assertion follows. -/
  | injectionSeen
  /-- TEST_START (R582). Docent starts the targeted test of a cordoned unit from its queue. -/
  | testStart (i : BitVec 2)
  /-- TEST_VERDICT (R582). A test ends with a transient or lasting verdict and the slot remap follows. -/
  | testVerdict (i : BitVec 2) (o : TestOutcome)
  /-- TEST_LIMIT_EXPIRY (R583). A test reaches its limit, giving a lasting verdict and asserting DOC_TMO. -/
  | testLimitExpiry (i : BitVec 2)
  /-- DOC_TEST (R602). DOC.CMD TEST runs an engine test of a SPARE or RETIRED slot. -/
  | docTest (a : TpAttr) (d : Word)
  /-- DOC_RETIRE (R602). DOC.CMD RETIRE retires a slot, draining it first if in service. -/
  | docRetire (a : TpAttr) (d : Word)
  /-- DOC_ROTATE (R602). DOC.CMD ROTATE makes a gallery's rotation due at once. -/
  | docRotate (a : TpAttr) (d : Word)
  /-- ROTATION_DUE (R590). A gallery's rotation period passes and its rotation falls due. -/
  | rotationDue (g : BitVec 5)
  /-- ROTATION_START (R591). When every condition holds, the next spare is tested and the most worn slot drains. -/
  | rotationStart (g : BitVec 5) (pass : Bool)
  /-- ROTATION_SWAP (R591). The draining slot releases its channel and becomes SPARE while the spare enters SERVICE. -/
  | rotationSwap (g : BitVec 5)
  /-- ROTATION_ABANDON (R593). The drain exceeds DRAIN_MAX and the rotation is abandoned. -/
  | rotationAbandon (g : BitVec 5)
  /-- PERIODIC_SPARE_TEST (R588). A SPARE slot is tested once per SPARE_TEST interval. -/
  | periodicSpareTest (e : EngId) (pass : Bool)
  /-- PERIODIC_COMPARATOR_TEST (R588). An idle unreserved comparator pair is tested once per second. -/
  | periodicComparatorTest (n : BitVec 6) (pass : Bool)
  /-- PERIODIC_AES_TEST (R588). A known-answer burst runs through each AES pipeline once per second. -/
  | periodicAesTest (g : BitVec 5) (p pass : Bool)
  /-- SCRUB_ACCESS (R595). Docent reads and corrects the next word of an array's scrub sweep. -/
  | scrubAccess (arr : ScrubArray) (idx : Nat) (o : ScrubOutcome)
  /-- INTERPOLATOR_CALIBRATION (R598). Every 10 ms the TCLK interpolator phase spacings are trimmed. -/
  | interpolatorCalibration
  /-- LINK_CALIBRATION (R598). Periodic reading of eye margin and trimming of link transmit impedance and swing. -/
  | linkCalibration (l : BitVec 5)
  /-- ATCLK_CALIBRATION (R598). Every second ATCLK is measured against TCLK and PCM and FCR timers corrected. -/
  | atclkCalibration
  /-- SENSOR_SAMPLE (R654). Sensors of a domain are sampled and a threshold crossing writes THERMAL. -/
  | sensorSample (dm : DomId) (temp volt : BitVec 12)
  /-- AGEING_SAMPLE (R598). Every second the ageing monitor frequency of each gallery is sampled. -/
  | ageingSample (g : BitVec 5) (freq : BitVec 20)
  /-- IDLE_DLY_EXPIRY (R611). A domain's idle timer expires and its entry into RET or OFF begins. -/
  | idleDlyExpiry (dm : DomId)
  /-- DOMAIN_DRAIN_COMPLETE (R613). A closing domain's work and transactions are drained, and save, isolate and cut follow. -/
  | domainDrainComplete (dm : DomId)
  /-- ENTRY_ABANDON (R614). A wake reaching a domain during entry takes effect at the next abort point. -/
  | entryAbandon (dm : DomId)
  /-- WAKE_START (R621). A wake source raises a domain and its missing dependencies. -/
  | wakeStart (dm : DomId) (src : BitVec 4) (detail : BitVec 13)
  /-- WAKE_RAIL_DONE (R626). The Rail delay of a waking domain ends and its clock starts. -/
  | wakeRailDone (dm : DomId)
  /-- WAKE_CLOCK_DONE (R626). The Clock delay of a waking domain ends and Settle begins. -/
  | wakeClockDone (dm : DomId)
  /-- WAKE_SETTLE_DONE (R626). Isolation is released, the domain is restored and becomes ON. -/
  | wakeSettleDone (dm : DomId)
  /-- DOM_CTRL_WRITE (R610). A write of DOM_CTRL.REQ requests AUTO, ON, RET or OFF for a domain. -/
  | domCtrlWrite (a : TpAttr) (dm : DomId) (d : Word)
  /-- HOLD_RELEASE (R628). A write releases the port hold of a woken domain. -/
  | holdRelease (a : TpAttr) (hi : Bool) (d : Word)
  /-- ALARM_FIRE (R625). Tick time reaches the armed alarm, which raises an ALARM wake. -/
  | alarmFire
  /-- OPP_CLOCK_RESTART (R630). The clock stop of an operating point frequency change ends. -/
  | oppClockRestart (sup : SupId)
  /-- PMI_ACK (R479). A synchronised supply or clock acknowledgement arrives on the PMI. -/
  | pmiAck (p : PmiSig)
  /-- PMI_ACK_TIMEOUT (R480). No PMI acknowledgement within 1 ms raises the PCM fault source. -/
  | pmiAckTimeout (p : PmiSig)
  /-- SBP_ADDRESS_MATCH (R623). The AO matcher sees WAKE_ADDR, stretches SCL and wakes CORE. -/
  | sbpAddressMatch
  /-- SBP_STRETCH_TIMEOUT (R623). CORE is not ready within 2 ms; SCL is released unacknowledged and FS282 asserts. -/
  | sbpStretchTimeout
  /-- SBP_IDLE_TIMEOUT (R642). SCL high for 25 ms without a STOP ends the SBP transfer. -/
  | sbpIdleTimeout
  /-- INFO (R639). SBP command returning ID, VERSION and GSTAT. -/
  | info
  /-- ADDR (R640). SBP command setting the TP address for RD and WR. -/
  | addr (d : Word) (pec : Option Byte)
  /-- RD (R640). SBP command reading the register at ADDR. -/
  | rd
  /-- WR (R640). SBP command writing the register at ADDR. -/
  | wr (d : Word) (pec : Option Byte)
  /-- WR_RESP (R639). SBP command returning the code of the last WR. -/
  | wrResp
  /-- LG_HEAD (R639). SBP command returning LG_HEAD and LG_STAT. -/
  | lgHead
  /-- LG_SEQ (R639). SBP command selecting the Ledger record to read. -/
  | lgSeq (d : Word) (pec : Option Byte)
  /-- LG_READ (R649). SBP command snapshotting and returning the selected Ledger record. -/
  | lgRead
  /-- TM_IDX (R639). SBP command selecting a telemetry counter. -/
  | tmIdx (b : Byte) (pec : Option Byte)
  /-- TM_READ (R639). SBP command returning the selected telemetry counter. -/
  | tmRead
  /-- LG_DATA_READ (R649). A read of LG_DATA(0) snapshots the selected Ledger slot. -/
  | lgDataRead (a : TpAttr)
  /-- LG_SW_CODE_WRITE (R650). A write of LG_SW_CODE creates a software Ledger record. -/
  | lgSwCodeWrite (a : TpAttr) (d : Word)
  /-- LG_CLEAR (R651). A secure write of LG_CTRL.CLEAR empties the Ledger and writes CLEARED. -/
  | lgClear (a : TpAttr) (d : Word)
  /-- LG_SEED_OPT_WRITE (R645). One secure write adds a seed to OP_TIME and writes SEEDED. -/
  | lgSeedOptWrite (a : TpAttr) (d : Word)
  /-- LG_SEED_PWR_WRITE (R645). One secure write adds a seed to PWR_CYC and writes SEEDED. -/
  | lgSeedPwrWrite (a : TpAttr) (d : Word)
  /-- LEDGER_RECORD_WRITE (R648). The Ledger writer writes the next queued record into its slot. -/
  | ledgerRecordWrite
  /-- LEDGER_WINDOW_CLOSE (R647). A rate-limit window closes, writing SUPPRESSED if records were suppressed. -/
  | ledgerWindowClose (code : BitVec 16)
  /-- OP_TIME_TICK (R645). OP_TIME advances by one whole second of ACLK time. -/
  | opTimeTick
  /-- TM_TAKE (R653). A write of TM_CTRL.TAKE snapshots every telemetry counter. -/
  | tmTake (a : TpAttr) (d : Word)
  /-- ENG_STAT_TAKE (R661). A write of ENG_CTRL.TAKE snapshots the 17 ENG_STAT values. -/
  | engStatTake (a : TpAttr) (g : BitVec 5) (d : Word)
  /-- NS_DENY_WRITE (R636). Sets the non-secure write denials and, once LOCK is set, freezes them until reset. -/
  | nsDenyWrite (a : TpAttr) (d : Word)
  /-- KEY_LOAD (R262). KEY_CMD LOAD copies the window's data into the selected key slot atomically. -/
  | keyLoad (a : TpAttr) (i : BitVec 2) (d : Word)
  /-- KEY_CLEAR (R262). KEY_CMD CLEAR sets the selected key slot EMPTY. -/
  | keyClear (a : TpAttr) (i : BitVec 2) (d : Word)
  /-- KEY_DATA_WRITE (R261). Writes a key data word, setting NS_DATA for a non-secure write. -/
  | keyDataWrite (a : TpAttr) (i : BitVec 2) (k : BitVec 4) (d : Word)
  /-- RST_AO_RELEASE (R481). Release of rst_ao_n resets the AO domain and starts the Ledger. -/
  | rstAoRelease
  /-- RST_N_ASSERT (R483). Assertion of rst_n takes every domain except AO OFF at once. -/
  | rstNAssert
  /-- RST_N_RELEASE (R482). Release of rst_n latches straps and starts the reset sequence. -/
  | rstNRelease (str : Word)
  /-- RESET_SEQUENCE_COMPLETE (R482). CORE reaches ON and initialises; READY is set and the boot load begins. -/
  | resetSequenceComplete
  /-- TAP_RESET (R481). Assertion of tst_trst_n resets the test access port. -/
  | tapReset
  /-- SHELL_ISO_CHANGE (R491). shell_iso changes, clamping or releasing Tilzu's outputs. -/
  | shellIsoChange (v : Bool)
  /-- TEST_MODE_ENTRY (R498). Entry into test operation empties the key slots and the Cloakroom before the first scan shift. -/
  | testModeEntry
  /-- DBG_HALT (R497). dbg_halt stops dispatch and admitted engines at their next boundary. -/
  | dbgHalt (v : Bool)
  /-- DBG_STEP (R497). A rising edge of dbg_step lets each stopped engine execute one instruction. -/
  | dbgStep
  /-- ILLEGAL_OPCODE (R104). An instruction word with an unassigned opcode, or a PROG word reached by execution, raises ILLEGAL when it would execute. -/
  | illegalOpcode (e : EngId) (w : BitVec 64)
  /-- INSTRUCTION_FETCH_FAULT (R132). An instruction whose fetch failed or lies outside program space raises FETCH_RANGE or its bus cause when it would execute. -/
  | instructionFetchFault (e : EngId) (k : FetchFault)
  /-- RST_AO_ASSERT (R481). Assertion of rst_ao_n resets the AO domain, the Ledger, the Cloakroom and the discard count, and ends test operation. -/
  | rstAoAssert
  /-- BEAT_TRANSFER (R436). A subordinate accepts a REQ or WDAT beat, ending the grant and starting the transaction's outstanding count. -/
  | beatTransfer (t : Nat)
  /-- EQ_ADAPTED (R347). Tilzu's receiver finishes its preset search and adaptation in TRAIN, reports adapted and may move the link to CONFIG. -/
  | eqAdapted (l : BitVec 5)
  /-- FAULT_SOURCE_QUIET (R557). A PLL, PMI or isolation fault source returns to quiet, and the domain it held resumes its transition. -/
  | faultSourceQuiet (n : SrcId)
  /-- WEAR_HOUR_TICK (R594). A slot's WEAR counter advances by one whole hour of in-service tick time. -/
  | wearHourTick (e : EngId)
  /-- OPP_RAISE_DELAY_EXPIRY (R630). The 1 µs wait after a raised voltage's acknowledgement expires, and PCM changes FCLK. -/
  | oppRaiseDelayExpiry (sup : SupId)
  /-- RESTORE_COMPLETE (R626). The Cloakroom restore of a domain waking from OFF completes, and the domain becomes ON. -/
  | restoreComplete (dm : DomId) (bad : Bool)
  /-- CUT_COMPLETE (R613). The save, isolate and cut of an entry complete, and the domain reaches RET or OFF. -/
  | cutComplete (dm : DomId)
  /-- SBP_STOP (R642). An I2C STOP condition ends the SBP transfer and its hold on CORE. -/
  | sbpStop
  deriving DecidableEq, Repr

end Sys2Proof
end

