-- ==== Sys2Proof/Decode.lean ====
section
/-! DEFINITION. Decode: the command that a word of the opcode table spells, and the instruction that a Damcon word spells. -/

namespace Sys2Proof

/-- The table gives no row bits: the commands come from the pins and units and not from words, so no word spells one. -/
def decodeTableWord (_nbits _w : Nat) : Option Instr := none

/-! ## Damcon words (R103) -/

/-- The fields of an instruction word below its opcode (Table 3-4). -/
def IW.ofWord (w : BitVec 64) : IW :=
  { rd := w.extractLsb' 51 5, ra := w.extractLsb' 46 5, rb := w.extractLsb' 41 5, ss := w.extractLsb' 38 3,
    md := w.extractLsb' 32 6, imm := w.extractLsb' 0 32 }

/-- The opcode of an instruction word (Table 3-4). -/
def wordOp (w : BitVec 64) : Nat := (w.extractLsb' 56 8).toNat

/-- The instruction of a 64-bit word on engine `e` (R103, R236, Tables 3-4 and 5-11): the rows of one opcode are told apart by the
modifier bits that name the form; none for an unassigned opcode and for PROG, which raise ILLEGAL (R101, R104). -/
def decodeInsn (e : EngId) (v : BitVec 64) : Option Instr :=
  let w := IW.ofWord v
  match wordOp v with
  | 0x02 => some (.bCond e w)
  | 0x03 => some (.dbnz e w)
  | 0x04 => some (.call e w)
  | 0x05 => some (.jr e w)
  | 0x06 => some (.callr e w)
  | 0x07 => some (.ret e w)
  | 0x08 => some (.trap e w)
  | 0x09 => some (.eret e w)
  | 0x0A => some (.syncI e w)
  | 0x0B => some (if w.md.getLsbD 0 then .fenceG e w else .fence e w)
  | 0x10 => some (.sdef e w)
  | 0x11 => some (.sseek e w)
  | 0x12 => some (.spos e w)
  | 0x14 => some (.move e w)
  | 0x15 => some (.movex e w)
  | 0x16 => some (.funnel e w)
  | 0x17 => some (.fill e w)
  | 0x18 => some (if w.md.getLsbD 0 then .captWrite e w else .captRead e w)
  | 0x19 => some (.notify e w)
  | 0x20 => some (match (w.md.extractLsb' 0 2).toNat with
      | 0 => .waitTime e w
      | 1 => .waitAngle e w
      | 2 => .waitDelay e w
      | _ => .waitEvent e w)
  | 0x21 => some (.yield e w)
  | 0x22 => some (.ckpt e w)
  | 0x23 => some (.done e w)
  | 0x24 => some (.signal e w)
  | 0x25 => some (.evtst e w)
  | 0x30 => some (.add e w)
  | 0x31 => some (.sub e w)
  | 0x32 => some (.and_ e w)
  | 0x33 => some (.or_ e w)
  | 0x34 => some (.xor_ e w)
  | 0x35 => some (.neg e w)
  | 0x36 => some (.cmp e w)
  | 0x37 => some (.tst e w)
  | 0x38 => some (.li e w)
  | 0x40 => some (.sll e w)
  | 0x41 => some (.srl e w)
  | 0x42 => some (.sra e w)
  | 0x43 => some (.rot e w)
  | 0x48 => some (.muls e w)
  | 0x49 => some (.mulu e w)
  | 0x4A => some (.mulhs e w)
  | 0x4B => some (.mulhu e w)
  | 0x4C => some (.divs e w)
  | 0x4D => some (.divu e w)
  | 0x4E => some (.rems e w)
  | 0x4F => some (.remu e w)
  | 0x50 => some (.ext e w)
  | 0x51 => some (.exts e w)
  | 0x52 => some (.ins e w)
  | 0x53 => some (.clz e w)
  | 0x54 => some (.ctz e w)
  | 0x55 => some (.popc e w)
  | 0x56 => some (.bswap e w)
  | 0x60 => some (.ld e w)
  | 0x61 => some (.st e w)
  | 0x62 => some (.ldv e w)
  | 0x63 => some (.tcld e w)
  | 0x70 => some (.tnow e w)
  | 0x71 => some (.anow e w)
  | 0x72 => some (.a2t e w)
  | 0x73 => some (.t2a e w)
  | 0x74 => some (.aadd e w)
  | 0x80 => some (.xset e w)
  | 0x81 => some (.xfold e w)
  | 0x82 => some (.xget e w)
  | 0x83 => some (.xrst e w)
  | 0x84 => some (.emit e w)
  | 0x85 => some (.patch e w)
  | 0x90 => some (.rdsr e w)
  | 0x91 => some (.wrsr e w)
  | _ => none

end Sys2Proof
end

