-- ==== Sys2Proof/Config.lean ====
section
/-! DEFINITION. Config: what the spec leaves open, as constants without a body. A claim holds whatever they are. -/

namespace Sys2Proof

/-- A free value: what the spec does not fix, drawn afresh for each count of draws (log entry 3). -/
opaque Config.free : Nat → DWord

/-- SHA-384 digest of the Kryivo public key held in the die (R523), which the manual does not print: its 48 bytes
(log entry 23). -/
opaque Config.kryivoDigest : Nat → Byte

/-- The eight check bits of 64 bits of a microword under the SEC-DED code, which R518 does not name (log entry 43). -/
opaque Config.secDed : BitVec 64 → Byte

end Sys2Proof
end

