-- ==== Sys2Proof/Machine/Parts.lean ====
section
/-! DEFINITION. Parts: the pieces of the machine's state, one structure for each unit the spec describes, each with
its reset values as field defaults. Sparse tables list only what differs from the reset value. -/

namespace Sys2Proof.Machine

/-- A sparse table: keys strictly rising, no entry equal to the table's default. -/
abbrev Tbl (α : Type) := List (Nat × α)

/-! ## Channels (02) -/

/-- Channel states (Table 2-6). -/
inductive ChState where
  | free | configured | armed | running | waiting | paused | draining | halted
  deriving DecidableEq, Repr

/-- WAIT_REASON (Table 2-8). -/
inductive WaitReason where
  | none | anchor | event | time | noticeSpace | barrier | ready | waking
  deriving DecidableEq, Repr

/-- The commands that stay pending (Table 2-11c, PEND_CMD). -/
inductive Cmd where
  | pause | stop | abort | kill
  deriving DecidableEq, Repr

/-- One release of the hub (Table 11-1); the first four are what an effect buffer holds. -/
inductive Release where
  /-- A notice of TYPE `ty` with result flags `flags`; it holds a reserved slot (R65). TIME is sampled as its write is first issued,
  and a repeat of that write carries it again (R673, Table 2-11a). -/
  | notice (ty flags : Byte) (payload : List Byte) (time : Option DWord := none)
  | signal (ec : Byte)
  /-- The counter updates of one EMIT: program-space offset and produced value (R278). -/
  | counters (l : List (Nat × DWord))
  /-- Entry `k` of the channel's transform record (R214). -/
  | xrec (k : BitVec 2) (bytes : List Byte)
  /-- A result's publication (Table 11-1): ring index, STATUS, FLAGS, BYTES, TAG. -/
  | publish (idx : BitVec 16) (status flags : Byte) (bytes : BitVec 48) (tag : BitVec 16)
  deriving DecidableEq, Repr

/-- A prefetched work entry (R81, R82), or the status of a fetch that failed (R79). -/
structure CEntry where
  idx : BitVec 16
  bytes : List Byte
  err : Option Byte := none
  deriving DecidableEq, Repr

/-- A stream cursor (Table 3-8): descriptor offset divided by 32, 0 meaning undefined, and position. -/
structure Cursor where
  desc : BitVec 24 := 0
  pos : BitVec 40 := 0
  deriving DecidableEq, Repr

/-- The condition kept in the wait area (Table 7-10): KIND 0 none, 1 RUN_AT, 2 WAIT TIME, 3 WAIT ANGLE,
4 WAIT DELAY, 5 WAIT EVENT. -/
structure Sched where
  anchor : DWord := 0
  armed : Bool := false
  angular : Bool := false
  policy : BitVec 2 := 0
  kind : BitVec 3 := 0
  held : Bool := false
  ec : Byte := 0
  nrMoves : Byte := 0
  fired : Bool := false
  fire : Word := 0
  /-- Nothing waits on the area any more; it keeps what was written last (R307). -/
  ended : Bool := false
  deriving DecidableEq, Repr

/-- The kind of the anchor or wait in force; 0 none. -/
def Sched.act (d : Sched) : BitVec 3 := if d.ended then 0 else d.kind

/-- The checkpoint area's carried state (Table 3-8): pc, psr, BYTES, CK_SEQ, REPLAYED, LATE, g1 to g4 and the
cursors. -/
structure Ckpt where
  pc : BitVec 32 := 0
  psr : Word := 0
  bytes : BitVec 48 := 0
  seq : Byte := 0
  replayed : Bool := false
  late : Bool := false
  g : Tbl DWord := []
  s : Tbl Cursor := []
  deriving DecidableEq, Repr

/-- A channel: its context (Table 2-1), its indices, its state word (Table 2-8) and what WQM and the hub keep
for it. -/
structure Chan where
  ctrl : Word := 0
  home : Word := 0
  wrBase : DWord := 0
  ntBase : DWord := 0
  mir : DWord := 0
  ringCfg : Word := 0x00040004
  stk : Word := 0x20001000
  ckptCfg : Word := 0x00C80010
  trap : Word := 0
  wrTail : BitVec 16 := 0
  wrDone : BitVec 16 := 0
  wrFetch : BitVec 16 := 0
  wrStart : BitVec 16 := 0
  ntHead : BitVec 16 := 0
  ntTail : BitVec 16 := 0
  mirSeq : Word := 0
  ck : Ckpt := {}
  sched : Sched := {}
  st : ChState := .free
  wait : WaitReason := .none
  lastStatus : Byte := 0
  dbErr : Bool := false
  ringErr : Bool := false
  cmdRej : Bool := false
  pend : Option Cmd := none
  /-- The state before a PAUSE of a channel without an engine. -/
  preWait : WaitReason := .none
  preSt : ChState := .configured
  /-- Notice sequence count of the ring (R46, Table 2-11a). -/
  ntSeq : Word := 0
  /-- Notice slots reserved and not yet passed by NT_TAIL (R65). -/
  reserved : Nat := 0
  cache : List CEntry := []
  /-- The entry of the work order in progress (R82): ring index and 48 order bytes. -/
  order : Option CEntry := none
  /-- A work order (or BARRIER, MARKER) is in progress (R87). -/
  inOrder : Bool := false
  /-- Nothing of the work order has committed yet: it starts from its order and not from a checkpoint. -/
  fresh : Bool := true
  /-- A completion that waits for a notice slot (R66): its publication. -/
  stalledDone : Option Release := none
  /-- Entry fetches outstanding or answered, in index order (R81): transaction, index, entry once answered. -/
  fet : List (Nat × BitVec 16 × Option CEntry) := []
  /-- The anchor of the entry to start was late and its policy let it run (Table 7-9). -/
  runLate : Bool := false
  /-- A halting status whose publication halts the channel (R64): cause and status. -/
  haltWith : Option (Byte × Byte) := none
  /-- The WR_TAIL captured by a STOP (R421). -/
  stopTail : Option (BitVec 16) := none
  rel : List Release := []
  relTxn : Option Nat := none
  /-- The write of the release in progress has been answered: its code. -/
  relAck : Option (BitVec 3) := none
  /-- A mirror write was answered with an error (R79). -/
  mirErr : Bool := false
  /-- A ring error holds the releases (R673). -/
  relHeld : Bool := false
  /-- A ring error has been answered and has not yet halted the channel (R79, R673). -/
  ringDue : Bool := false
  /-- END_TIME sampled for the publication in progress (Table 2-10). -/
  endTime : Option Word := none
  mirPend : Bool := false
  /-- Transform record entries V bits as last handed over (R214), for AES_REQ and the load of R215. -/
  recAes : Bool := false
  /-- The work order met a gallery without an AES pipeline in service: it needs one (R25, R249). -/
  needAes : Bool := false
  /-- HANDLER, MINOR and FEAT recorded at the start (R100, R536). -/
  handler : BitVec 32 := 0
  minor : BitVec 5 := 0
  feat : BitVec 6 := 0
  /-- The work order has passed the checks of R102: HANDLER, MINOR and FEAT are those of its header. -/
  hdrOk : Bool := false
  /-- Replays in succession without a commit (R560). -/
  replays : Nat := 0
  /-- Ready through R558: dispatched even while a command is pending (R675). -/
  replay : Bool := false
  /-- Tick time at which the channel last became ready, while it is ready (R384). -/
  readyAt : Option DWord := none
  /-- A gallery wake has been asked for on its behalf (R385). -/
  wakeAsked : Bool := false
  /-- The channel holds this engine (gallery × 17 + slot). -/
  eng : Option EngId := none
  /-- An anchored RUN_AT entry at WR_START has been evaluated, and the entry is held for its start. -/
  runAtFor : Option (BitVec 16) := none
  /-- The anchor of the entry to start, or of the WAIT at the last checkpoint, was late under TRAP: lateness for the LATE cause,
  which every start from there raises (R119, R126). -/
  lateTrap : Option Word := none
  /-- A STOP that halted the channel at once still owes its HALT notice (R413, R421). -/
  stopNotice : Bool := false
  /-- A RESUME with EN = 0 has abandoned the ring and its writes are still open (R673). -/
  abandoned : Bool := false
  /-- Ports that the streams at the last commit name, by stream: INST + 1 (R400). -/
  ports : Tbl Nat := []
  deriving DecidableEq, Repr

/-- A Catalogue window (R40): channel shown, holding registers by the offset of the _LO word, snapshot of
offsets 0x80 to 0xFF (R660). -/
structure CatWin where
  sel : BitVec 12 := 0
  hold : Tbl Word := []
  snap : Option (Tbl Word) := none
  deriving DecidableEq, Repr

/-! ## Engines (03 to 06) -/

/-- A transform binding X0 to X3 (R211): key slot, running state, the 32 descriptor bytes, the descriptor offset
divided by 32, and whether its key slot's ownership is still to be checked (R216). -/
structure Bind where
  bound : Bool := false
  desc : BitVec 24 := 0
  bytes : List Byte := []
  ks : BitVec 10 := 0
  run : DWord := 0
  recheck : Bool := false
  changed : Bool := false
  /-- Place in the crypt map (R256): entry index, stage offset of its first byte, protected bytes of the sample before
  it, and the IV of the current sample. -/
  mIdx : Nat := 0
  mOff : Nat := 0
  mSamp : Nat := 0
  mIv : List Byte := []
  /-- The CBC chain value before the next block of the range (R253). -/
  chain : List Byte := []
  deriving DecidableEq, Repr

/-- A read an engine waits for or holds: what it is for, its address, and the bytes once answered. -/
structure EngRead where
  what : Nat
  addr : DWord
  n : Nat
  bytes : Option (List Byte) := none
  /-- The transaction that carries it, for reads outside the Vitrine; a Stream Link's bytes stay in its receive buffer until the
  burst that fetches them has been granted. -/
  t : Option Nat := none
  /-- It was answered other than OKAY; the exception waits until the engine executes (R132, R152, R418, R497). -/
  err : Option (BitVec 3) := none
  deriving DecidableEq, Repr

/-- Place of a walk through a scatter/gather list (R140): the head it began at, the element held, its first stream
position, its address and size, whether it is the END element, the address of the next element, and whether an element
failed its checks. -/
structure SgWalk where
  head : DWord := 0
  start : Nat := 0
  addr : DWord := 0
  size : Nat := 0
  last : Bool := false
  next : DWord := 0
  bad : Bool := false
  deriving DecidableEq, Repr

/-- What follows a checkpoint of Table 3-7 once it commits. -/
inductive AfterCk where
  /-- Execution goes on at the recorded pc. -/
  | go
  | yield
  | done
  /-- A WAIT whose condition stands in the schedule area: continue if met, else release the engine (R176). -/
  | wait
  /-- DROP of a late WAIT ends the work order with DROPPED_LATE (R176). -/
  | drop
  /-- TRAP of a late WAIT raises LATE with this INFO (R176). -/
  | trap (info : Word)
  /-- NOTIFY without a free slot: WAITING with reason NOTICE_SPACE (R66). -/
  | space
  deriving DecidableEq, Repr

/-- What an engine is doing. -/
inductive EPhase where
  | idle
  /-- The engine has been given its channel; the header, or the transform record, is still to be read (R102, R215). -/
  | starting
  | run
  /-- A checkpoint waits for acknowledgements (R113); `auto` says that it is not taken at an instruction. -/
  | commit (pc : BitVec 32) (k : AfterCk)
  /-- An unhandled exception waits for the work order's writes (R674): its status. -/
  | ending (status : Byte)
  /-- ABORT or KILL has reached its stop point and waits for answers (R422, R423): its status. -/
  | stopping (status : Byte)
  /-- The engine has detected an error (R542) and waits for its writes (R558). -/
  | faulted
  deriving DecidableEq, Repr

/-- FUNNEL residue (R167): destination and source stream, and the bytes held. -/
structure Residue where
  dst : BitVec 3
  src : BitVec 3
  bytes : List Byte
  deriving DecidableEq, Repr

/-- A move-class instruction in progress: its word, and the bases and lengths sampled when it started (R138). -/
structure Cur where
  w : IW
  srcBase : DWord := 0
  srcLen : Nat := 0
  dstBase : DWord := 0
  dstLen : Nat := 0
  mapBase : DWord := 0
  /-- The bytes of the instruction that have completed (EMIT: bytes written). -/
  doneBytes : Nat := 0
  /-- Bytes still to be written: EMIT's output, a capture burst, PATCH's value; FILL's pattern (R226, R118, R229). -/
  out : List Byte := []
  /-- EMIT's counter updates (R278). -/
  ctr : List (Nat × DWord) := []
  /-- The boundary after the last destination burst is eligible for a checkpoint but for a residue (Table 4-5). -/
  elig : Bool := false
  /-- A command whose source bytes were read found no credit: it waits for credit before it reads again, and a READ for a free
  active read too (R151, R358). -/
  needCredit : Bool := false
  needPlace : Bool := false
  /-- The stream's place in its list before SSEEK or PATCH walked it; it returns where the instruction leaves the position as it
  was (R158, R230). -/
  walk0 : Option SgWalk := none
  deriving DecidableEq, Repr

/-- An engine slot's state (Table 1-1, Table 3-1). -/
structure Engine where
  phase : EPhase := .idle
  ch : BitVec 12 := 0
  /-- Bank held (R530): true B. -/
  bank : Bool := false
  pc : BitVec 32 := 0
  /-- The branch that set pc had its target outside the 32-bit offsets (R184). -/
  pcOut : Bool := false
  psr : Word := 0
  g : Tbl DWord := []
  s : Tbl Cursor := []
  /-- Descriptor bytes of the streams as last checked (R144); none until SDEF or the first use after a resumption. -/
  sd : Tbl (List Byte) := []
  /-- Walks of the scatter/gather streams. -/
  walk : Tbl SgWalk := []
  alc : Tbl Byte := []
  x : Tbl Bind := []
  effects : List Release := []
  /-- The counter values this engine has produced since the last commit (R201). -/
  counters : Tbl (Option DWord) := []
  residue : Option Residue := none
  cur : Option Cur := none
  /-- The instruction decoded and not yet complete: its opcode and word (R133, R426). -/
  busy : Option (Nat × IW) := none
  reads : List EngRead := []
  /-- Bytes issued to counted destinations in this work order, and bytes acknowledged (R154, R233). -/
  issued : Nat := 0
  acked : Nat := 0
  late : Bool := false
  replayed : Bool := false
  ckSeq : Byte := 0
  /-- A commit has happened in this work order (R214). -/
  committed : Bool := false
  /-- Destination bytes since the last commit (R148), and tick time of the last commit or start (R112). -/
  bytesSince : Nat := 0
  ckAt : DWord := 0
  /-- An automatic checkpoint is due, and since when (R111, R168). -/
  due : Option DWord := none
  /-- Earliest failed data write since the last commit (R113): issue number, code, address. -/
  wErr : Option (Nat × BitVec 3 × DWord) := none
  /-- A capture burst is between its two checkpoints (R118). -/
  capturing : Bool := false
  /-- The AES pipeline claimed for the burst under way, and the key it read at the claim (R246 to R248). -/
  pipe : Option (Bool × List Byte) := none
  /-- The engine waits for a pipeline (R246). -/
  pipeAsk : Bool := false
  /-- Prefetch buffer (R130, R131): the words it holds, each with its program-space offset. -/
  buf : List (BitVec 32 × DWord) := []
  paused : Bool := false
  dbgStopped : Bool := false
  dbgStep : Bool := false
  /-- Glovebox words GB0 to GB7 and GB_STAT (Table 3-11). -/
  gb : List DWord := [0, 0, 0, 0, 0, 0, 0, 0]
  gbValid : Bool := false
  gbOvf : Bool := false
  gbCh : BitVec 12 := 0
  /-- Tick time at which the engine last became free (R385). -/
  freeAt : DWord := 0
  deriving DecidableEq, Repr

/-! ## Fabric (10, 12) -/

/-- Where a transaction stands on its way (R27, R37, R431). -/
inductive TStage where
  | atGal | atWing | atPort
  /-- Granted at the last arbiter and waiting in the port's buffer. -/
  | granted
  /-- Its REQ beat has transferred; it is outstanding. -/
  | sent
  /-- Answered RETRY and waiting for its gap (R452). -/
  | retry
  /-- A failed coherent request waits for its reissue (R467). -/
  | again
  deriving DecidableEq, Repr

/-- What a transaction is for. -/
inductive Purpose where
  /-- A read of engine `e`, filed in its reads. -/
  | engRead (e : EngId) (what : Nat)
  /-- A data write of engine `e` to stream `ss`; `counted` as R154; `cap` a capture destination. -/
  | data (e : EngId) (ss : BitVec 3) (counted : Bool)
  | entry (ch : BitVec 12) (idx : BitVec 16)
  /-- The write of the channel's release in progress: a notice or a result. -/
  | release (ch : BitVec 12)
  /-- A HALT notice written at once (R673). -/
  | haltNotice (ch : BitVec 12)
  | mirror (ch : BitVec 12)
  /-- ReadShared for a slice; ReadUnique for a release of a channel. -/
  | fill (wing : BitVec 2)
  | unique (wing : BitVec 2)
  | evict
  | writeBack
  /-- A read of the control store loader for reading `key` (R526). -/
  | loader (key : Nat)
  /-- A burst of the test that unit `unit` runs: the gallery at whose arbiter it enters, if it does, and the arbiter stage behind
  which it turns back; `granted` for one that leaves on an MP port (R27, R585, R672). -/
  | docent (unit : BitVec 2) (g : Option (BitVec 5)) (last : TStage)
  deriving DecidableEq, Repr

/-- A transaction. `port` is an INST code (Table 10-7), `op` as Table 12-2. -/
structure Txn where
  id : Nat
  port : BitVec 6
  op : BitVec 3
  addr : DWord
  n : Nat
  data : List Byte
  sec : Bool
  owner : Byte
  cache : BitVec 2
  order : BitVec 2
  stage : TStage
  wing : Option (BitVec 2)
  gal : Option EngId
  purpose : Purpose
  /-- The stream of the work order that the burst belongs to (Table 12-4). -/
  strm : Option (BitVec 3) := none
  /-- Tick time at which it came to its present arbiter (R392). -/
  since : DWord := 0
  /-- ID of its REQ beat, and the place of that beat among all REQ beats (R437, R439, R445). -/
  rid : BitVec 9 := 0
  ord : Nat := 0
  /-- Write beats whose transfer is still to come; from `torn` on they carry no byte enables (R399, R423). -/
  beats : Nat := 1
  torn : Bool := false
  /-- The response is to be discarded (R399, R423). -/
  discard : Bool := false
  retries : Nat := 0
  failed : Bool := false
  /-- The fabric answers it itself with this code, without presenting it (R26, R618). -/
  forced : Option (BitVec 3) := none
  deriving DecidableEq, Repr

/-- An arbiter's dynamic state (R391 to R395, Table 10-6). -/
structure Arb where
  ptr : BitVec 6 := 0
  starve : Bool := false
  bite : Bool := false
  lastForced : BitVec 5 := 0
  waitMax : Byte := 0
  waits : Tbl Nat := []
  credits : Tbl Int := []
  /-- The transaction that holds the grant, and its requester. -/
  grant : Option (Nat × Nat) := none
  /-- The watchdog's count since the latest grant, in FCLK MHz times ticks: 1,600 of them are one FCLK cycle (R399). -/
  wdog : Nat := 0
  /-- The tick in which each requester's last waiting burst was granted: one that asks again within it has not stopped
  requesting (R392). -/
  leftAt : Tbl (Option DWord) := []
  /-- Requesters whose path is cordoned (Table 10-8). -/
  cordoned : List Nat := []
  /-- Grant points that Docent's background work still lets pass (R599). -/
  docGap : Byte := 0
  deriving DecidableEq, Repr

/-- A manager port's counters and error record (Tables 12-10 to 12-12). -/
structure Port where
  retryCnt : BitVec 16 := 0
  errCnt : Byte := 0
  retryExh : Bool := false
  err : Bool := false
  errAddr : DWord := 0
  errInfo : Word := 0
  deriving DecidableEq, Repr

/-- Line states of the Vitrine (Table 12-13). -/
inductive LineSt where
  | I | S | E | M
  deriving DecidableEq, Repr

/-- A line as Tilzu holds it: its state toward the home, the slices that hold it, its 64 bytes. -/
structure VLine where
  st : LineSt := .I
  slices : BitVec 4 := 0
  data : List Byte := []
  deriving DecidableEq, Repr

/-! ## Time base (07) -/

/-- Lock states (Table 7-2). -/
inductive Lock where
  | unlocked | acquiring | locked | holdover | synth
  deriving DecidableEq, Repr

/-- A comparator pair with its delay register (R302): what it is armed for, and its faults. -/
structure Pair where
  /-- The channel whose anchor is loaded, or none. -/
  ch : Option (BitVec 12) := none
  loadedAt : DWord := 0
  /-- The pair's comparators disagreed and the action is held (R312). -/
  dis : Bool := false
  cordoned : Bool := false
  /-- Times both copies were lost, with the tick time of the last (Table 16-5, DLY). -/
  lostAt : Option DWord := none
  deriving DecidableEq, Repr

/-- A software comparator's hardware bits (Table 7-11); its anchor word is a register. -/
structure SwCmp where
  arm : Bool := false
  angular : Bool := false
  policy : BitVec 2 := 0
  held : Bool := false
  dropped : Bool := false
  late : Bool := false
  fired : Bool := false
  deriving DecidableEq, Repr

/-- The time base (07). -/
structure Tbs where
  time : DWord := 0
  lock : Lock := .unlocked
  spin : Bool := false
  /-- `tbi_spin_valid` as it stands, and the ticks it has stood at a level that `spin` does not show yet (Table 13-13). -/
  spinPin : Bool := false
  spinTicks : Nat := 0
  rev : BitVec 32 := 0
  wedge : Nat := 0
  phase : BitVec 22 := 0
  /-- Angular time has reached LOCKED or SYNTH before (R291), and the highest revolution held before a loss. -/
  everLocked : Bool := false
  lastRev : BitVec 32 := 0
  lastIndexAt : DWord := 0
  /-- REV_PERIOD before the loss (R291). -/
  lastPeriod : Word := 0
  /-- Acquisition: complete revolutions, strobes since the index, sum and number of the intervals accepted. -/
  acqRevs : Nat := 0
  acqStrobes : Nat := 0
  acqSum : Nat := 0
  acqN : Nat := 0
  lastStrobe : DWord := 0
  /-- Phase loaded at that strobe, and the phase of the wedge before it, accepted or predicted, when it ended. -/
  phase0 : BitVec 22 := 0
  lastPhase : BitVec 22 := 0
  /-- The last 8 accepted wedge intervals, newest first. -/
  intervals : List Nat := []
  wedgePeriod : Word := 0
  revPeriod : Word := 0
  indexAt : DWord := 0
  missed : Byte := 0
  loss : Bool := false
  crowd : Bool := false
  cmpDis : Bool := false
  dlyLost : Bool := false
  epoch : Tbl Word := []
  synthNext : DWord := 0
  pairs : Tbl Pair := []
  sc : Tbl SwCmp := []
  /-- A delay register whose reload waits for CORE (R33). -/
  reload : List Nat := []
  deriving DecidableEq, Repr

/-! ## Concourse (08) -/

/-- A request line's dynamic state (Table 8-3). -/
structure RqLine where
  req : Bool := false
  ack : Bool := false
  outst : Bool := false
  lost : Bool := false
  cnt : BitVec 16 := 0
  /-- LEVEL mode: the holdoff since the last acknowledge has not expired. -/
  holdoff : Bool := false
  last : Bool := false
  /-- The AO latch (R323) and the copy of the applied MODE kept in AO (R624). -/
  latch : Bool := false
  deriving DecidableEq, Repr

/-- A subscription (Table 8-8): V, GATE, CH, EC, PEND, OVR. -/
structure Sub where
  v : Bool := false
  gate : Bool := false
  ch : BitVec 12 := 0
  ec : Byte := 0
  pend : Bool := false
  ovr : Bool := false
  deriving DecidableEq, Repr

/-- An event output line (R338): its level, whether it is in its high time or minimum low time, merged events. -/
structure Evo where
  level : Bool := false
  low : Bool := false
  merged : BitVec 16 := 0
  deriving DecidableEq, Repr

/-- An interrupt line (Table 8-10): CNT and the tick time at which its timer started. -/
structure Irq where
  pend : Bool := false
  cnt : Byte := 0
  timer : Option DWord := none
  deriving DecidableEq, Repr

/-- The Concourse (08). -/
structure Evc where
  rq : Tbl RqLine := []
  ecCnt : Tbl Word := []
  subs : Tbl Sub := []
  evo : Tbl Evo := []
  irq : Tbl Irq := []
  haltQ : List (BitVec 12) := []
  haltOvf : Bool := false
  /-- What waits for CORE's clock, stopped for a frequency change: producers, by cycle, and channels whose anchor fired (R631). -/
  late : List (List Nat) := []
  lateCh : List (BitVec 12) := []
  deriving DecidableEq, Repr

/-! ## Stream Links (09) -/

/-- Training states (Table 9-2). -/
inductive LinkSt where
  | disabled | detect | train | config | active | recovery | failed
  deriving DecidableEq, Repr

/-- A sector of the receive buffer (R359, R363): LBA of its tag, the active read it belongs to, whether its tag word
arrived, its user bytes so far, and whether it is open, bad. -/
structure Sector where
  ctag : BitVec 16
  lba : BitVec 48
  size : Nat
  tagged : Bool
  bytes : List Byte
  isOpen : Bool
  bad : Bool
  deriving DecidableEq, Repr

/-- An active read (R357): CTAG, next LBA, sectors still to come. -/
structure ActRead where
  ctag : BitVec 16
  lba : BitVec 48
  left : Nat
  size : Nat
  deriving DecidableEq, Repr

/-- A status queue entry (R361): MARK or STREAM_STATUS, CODE, CTAG, RX_RCVD at arrival, payload words. -/
structure StqEntry where
  mark : Bool
  code : Byte
  ctag : BitVec 16
  rcvd : Word
  words : List Word
  deriving DecidableEq, Repr

/-- A frame in the replay buffer (R353): TYPE, TINFO, payload. Its SEQ follows from its place. -/
structure TxFrame where
  ty : Byte
  seq : BitVec 12
  tinfo : Word
  payload : List Byte
  tries : Nat
  deriving DecidableEq, Repr

/-- A Stream Link (09). -/
structure Link where
  st : LinkSt := .disabled
  ver : BitVec 4 := 0
  txLane : Bool := false
  rxLane : Bool := false
  /-- Lanes that have failed since the last DETECT (R349). -/
  txBad : BitVec 2 := 0
  rxBad : BitVec 2 := 0
  failCause : BitVec 4 := 0
  retrainCnt : BitVec 16 := 0
  lockLane0 : Bool := false
  lockLane1 : Bool := false
  /-- TRAIN: Tilzu's receiver adapted, the far receiver adapted, the preset the far side asked of Tilzu's
  transmitter. -/
  adapted : Bool := false
  farAdapted : Bool := false
  txPreset : BitVec 3 := 4
  /-- TRAIN: presets that Tilzu's receiver has tried, and the EQ request byte of its own TS blocks (R347). -/
  eqTried : Nat := 0
  eqReq : Byte := 0xFF
  /-- CONFIG: the far CAP and the first CREDIT have arrived; negotiated MAXLEN and FEAT. -/
  capRx : Bool := false
  credRx : Bool := false
  maxLen : Nat := 16
  feat : BitVec 2 := 0
  /-- Entries into RECOVERY: their tick times within the last 1 ms (Table 9-2). -/
  recoveries : List DWord := []
  /-- Link layer: receive sequence, NAK outstanding, transmit sequence, replay buffer. -/
  expected : BitVec 12 := 0
  rxAny : Bool := false
  nakOut : Bool := false
  ackDue : Bool := false
  nextSeq : BitVec 12 := 0
  replayBuf : List TxFrame := []
  /-- Tick time since which frames are unacknowledged without an advance of ACK_SEQ (R353). -/
  ackAdvAt : DWord := 0
  /-- CRC failures within the last 1 ms: their tick times per receive lane (R348). -/
  crcWin0 : List DWord := []
  crcWin1 : List DWord := []
  /-- NAKs of the far side within the last 1 ms, by which Tilzu judges its active transmit lane (R348, log entry 62). -/
  nakWin : List DWord := []
  /-- The last LSW that Tilzu sent: the new lane, and SEQ of the first frame on it (Table 9-1). -/
  lswOut : Option (Bool × BitVec 12) := none
  /-- Flow control (R355): limits from the die, words and messages sent, words and messages received. -/
  dataLim : BitVec 16 := 0
  msgLim : Byte := 0
  sentWords : BitVec 16 := 0
  sentMsgs : Byte := 0
  rcvWords : BitVec 16 := 0
  rcvMsgs : Byte := 0
  /-- Words and messages released, cumulative: the limits Tilzu grants are these plus 16,384 and 16. -/
  relWords : BitVec 16 := 0
  relMsgs : Byte := 0
  /-- Transactions (R357 to R366). -/
  active : List ActRead := []
  rx : List Sector := []
  /-- Stream position of the first byte of the oldest retained sector; positions consumed and released. -/
  basePos : Nat := 0
  cons : Nat := 0
  rel : Nat := 0
  rcvd : Word := 0
  stq : List StqEntry := []
  stqPos : Word := 0
  stqData : List Word := []
  /-- Command state (R370, R372). -/
  ctagNext : BitVec 16 := 0
  ctagCk : BitVec 16 := 0
  cmdRec : List (BitVec 16 × Word) := []
  cmdPos : Nat := 0
  txSince : Nat := 0
  txSkip : Nat := 0
  crcCnt : Byte := 0
  nakCnt : Byte := 0
  replayCnt : Byte := 0
  tagCnt : Byte := 0
  /-- Received user bytes not consumed were at or above RDY_LVL (R367). -/
  rdy : Bool := false
  deriving DecidableEq, Repr

/-! ## Control store (15) -/

/-- Bank states (Table 15-9). -/
inductive BankSt where
  | invalid | loading | valid | reloading
  deriving DecidableEq, Repr

/-- A microword as a bank holds it, with the check bits that Tilzu computed as it wrote it: a SEC-DED code over each half (R518). -/
structure MWord where
  w : BitVec 128 := 0
  chkHi : Byte := 0
  chkLo : Byte := 0
  deriving DecidableEq, Repr

/-- A control store bank: its state, its image's IMG_ID and FEAT, CORR, the record of R532, and the image's microwords; the
words after them are EXC words with cause ILLEGAL (Table 15-3). -/
structure Bank where
  st : BankSt := .invalid
  imgId : Word := 0
  feat : BitVec 6 := 0
  corr : Byte := 0
  srcPort : BitVec 4 := 0
  srcAddr : DWord := 0
  digest : List Byte := []
  words : List MWord := []
  deriving DecidableEq, Repr

/-- A gallery: banks A and B, active bank, cordons, ENG_CTRL snapshot, rotation state. -/
structure Gal where
  act : Bool := false
  bankA : Bank := {}
  bankB : Bank := {}
  /-- Units whose recoveries or lasting verdicts cordon the gallery: source × 256 + instance (Table 16-5). -/
  cordonedBy : List Nat := []
  pipe0 : Bool := false
  pipe1 : Bool := false
  /-- The slot served last by an AES pipeline (R246). -/
  pipeLast : Fin 17 := 0
  /-- The ENG_STAT snapshot taken last (R661). -/
  snap : List Word := []
  rotDue : Bool := false
  rotLast : DWord := 0
  rotFirst : Bool := true
  rotOut : Option (Fin 17) := none
  rotIn : Option (Fin 17) := none
  /-- Tick time at which the drain of the rotation began (R593). -/
  rotAt : DWord := 0
  /-- A SERVICE slot that DOC.CMD RETIRE drains (R602). -/
  retiring : List (Fin 17) := []
  deriving DecidableEq, Repr

/-- LOAD_STAT.STATE (Table 15-7). -/
inductive LoadSt where
  | idle | verify | write | done | failed | cancelled
  deriving DecidableEq, Repr

/-- A reading of an image (R525 to R527, R532): the port, the address, the bytes it is to fetch and those fetched, whether
certificate and signature follow the microwords, the outstanding read, and whether one was answered other than OKAY. -/
structure ReadJob where
  port : BitVec 6
  addr : DWord
  len : Nat
  sig : Bool := false
  buf : List Byte := []
  t : Option Nat := none
  err : Bool := false
  deriving DecidableEq, Repr

/-- The loader (Tables 15-6, 15-7). -/
structure Loader where
  st : LoadSt := .idle
  reason : Byte := 0
  ok : Word := 0
  targets : Word := 0
  src : BitVec 4 := 0
  bank : Bool := false
  addr : DWord := 0
  digest : List Byte := []
  /-- WORDS of the image read first. -/
  words : Nat := 0
  /-- Readings under way: 0 the load's, 1 + 2g + b the reload of bank b of gallery g. -/
  jobs : Tbl (Option ReadJob) := []
  deriving DecidableEq, Repr

/-! ## Key cabinet (06) -/

/-- A key slot (R261). -/
structure KeySlot where
  st : BitVec 2 := 0
  owner : Byte := 0
  sec : Bool := false
  kind : Bool := false
  key : List Byte := []
  deriving DecidableEq, Repr

/-- A key load window (Tables 6-7 to 6-9). -/
structure KeyWin where
  data : Tbl Word := []
  nsData : Bool := false
  rej : Bool := false
  deriving DecidableEq, Repr

/-! ## Slots and Docent (17) -/

/-- Slot states (Table 17-1). -/
inductive SlotSt where
  | service | spare | draining | cordoned | retired
  deriving DecidableEq, Repr

/-- A slot of the remap (Table 17-7). -/
structure Slot where
  st : SlotSt := .service
  tests : Byte := 0
  wear : BitVec 20 := 0
  deriving DecidableEq, Repr

/-- A recovery (16), or a test that Docent runs: its source, its instance, the slot it cordons if it is one, whether it is a test
that DOC.CMD asked for, and of a slot that was RETIRED (R602), whether it is a test of a unit that no fault cordons (R588, R591),
whether a row was replaced (R582), its step, 0 before the test starts, and the tick time of its start, moved on by the time that
counts toward no limit (R583). -/
structure Recovery where
  src : SrcId
  inst : Byte
  eng : Option EngId
  spareTest : Bool := false
  wasRetired : Bool := false
  bg : Bool := false
  repaired : Bool := false
  step : BitVec 4 := 0
  startAt : DWord := 0
  deriving DecidableEq, Repr

/-- Docent (17). -/
structure Doc where
  lockOk : Bool := true
  cmdRej : Bool := false
  /-- Test units 0 to 3. -/
  units : Tbl (Option Recovery) := []
  queue : List Recovery := []
  lastV : Bool := false
  lastVerdict : BitVec 3 := 0
  lastStep : BitVec 4 := 0
  lastSrc : BitVec 9 := 0
  lastInst : Byte := 0
  lastElapsed : BitVec 7 := 0
  rotDone : BitVec 16 := 0
  rotAbandoned : BitVec 16 := 0
  sweeps : BitVec 16 := 0
  corr : BitVec 16 := 0
  /-- Units returned to service: source, instance, tick time (R563). -/
  returned : List (Nat × Nat × DWord) := []
  /-- Tick time of the last interpolator calibration, and of the last link and ATCLK calibrations (R598). -/
  interpAt : Option DWord := none
  atclkAt : Option DWord := none
  linkAt : Tbl (Option DWord) := []
  /-- Where each sweep stands: by 64 × the array's place in Table 17-4 + the gallery or wing that holds the array (R597). -/
  scrubPos : Tbl Nat := []
  /-- Redundant rows in use: of slots by engine number, of Vitrine slices from 1,024 on; and the Catalogue rows replaced (Tables 17-2,
  17-3). -/
  rows : Tbl Nat := []
  catRows : List Nat := []
  /-- Tick time of the last test of R588: of a slot by engine number, of a comparator pair from 1,024 on, of an AES pipeline from
  2,048 on. -/
  bgAt : Tbl DWord := []
  deriving DecidableEq, Repr

/-! ## FCR (16) -/

/-- The fault collector (Tables 16-4, 16-8 to 16-10). -/
structure Fcr where
  pend : Tbl Bool := []
  cnt : Tbl (BitVec 16) := []
  stuck : Tbl Bool := []
  asserted : Tbl Bool := []
  feV : Bool := false
  feOvf : Bool := false
  feInj : Bool := false
  feRail : Bool := false
  feSev : BitVec 3 := 0
  feSrc : BitVec 9 := 0
  feOvfCnt : BitVec 16 := 0
  feInfo : Word := 0
  feAddr : DWord := 0
  feTime : DWord := 0
  active : Bool := false
  unguarded : Bool := false
  qovf : Bool := false
  latch : Bool := false
  pulse : Bool := false
  /-- Tick time of the later of the last assertion at MASK or above and the end of the last recovery (R555). -/
  quietFrom : DWord := 0
  exits : BitVec 12 := 0
  lasting : BitVec 10 := 0
  transient : BitVec 10 := 0
  injBusy : Bool := false
  injSrc : BitVec 9 := 0
  injInst : Byte := 0
  injMode : BitVec 2 := 0
  /-- Core units that have a repeat in progress, with the channel whose operation it is (R565). -/
  repeating : List (Nat × Option (BitVec 12)) := []
  deriving DecidableEq, Repr

/-! ## Power (18) -/

/-- Domain states (Table 18-4). -/
inductive DomSt where
  | off | ret | on
  deriving DecidableEq, Repr

/-- The step of an entry (R613) or a wake (R626) in progress. -/
inductive DomStep where
  | none
  /-- Closing and draining, before abort point A. -/
  | drain
  /-- Saving, before abort point B; isolated, before abort point C and the cut. -/
  | save | iso
  /-- Waking: waiting for the supply, the rail, the clock, the settle delay, the restore. -/
  | supply | rail | clock | settle | restore
  deriving DecidableEq, Repr

/-- A power domain (Table 18-4). -/
structure Dom where
  st : DomSt := .off
  step : DomStep := .none
  target : DomSt := .off
  hold : Bool := false
  lastAbort : BitVec 2 := 0
  wakes : BitVec 12 := 0
  /-- A HOLD_RELEASE waits for the end of the wake (R628). -/
  relWaits : Bool := false
  /-- A wake reached the domain during its entry (R614), and its source and DETAIL where it is to be recorded (R622). -/
  abort : Bool := false
  abortWhy : Option (Nat × Nat) := none
  /-- A request of PCM itself to leave ON for this state (R632). -/
  leave : Option DomSt := none
  /-- The domain's Cloakroom region is valid (R619). While the domain is OFF, the saved items of Table 18-6 stand in
  their own places in the state, and this flag says whether the wake restores them or resets them (R620). -/
  saved : Bool := false
  /-- The wake in progress is the one that the wake record names (R622). -/
  logged : Bool := false
  /-- POL as it was when the entry or wake in progress began (Table 18-12). -/
  polAt : Word := 0
  deriving DecidableEq, Repr

/-- A supply on the PMI (Tables 13-4, 18-11): the request in force, the one outstanding, voltage and frequency. -/
structure Supply where
  vreq : BitVec 3 := 0
  vtog : Bool := false
  vack : Bool := false
  /-- OPP whose voltage was last acknowledged, OPP of the FCLK in force (Table 18-11). -/
  v : BitVec 3 := 0
  f : BitVec 3 := 0
  /-- OPP of the FCLK that the clock stop in progress changes to (R630). -/
  fTo : BitVec 3 := 0
  busy : Bool := false
  maskWait : Bool := false
  /-- A frequency change holds the clock stopped, or the 1 µs wait after a raise runs (R630). -/
  clkStop : Bool := false
  raiseWait : Bool := false
  /-- 1 ms have passed without an acknowledgement (R480). -/
  overdue : Bool := false
  deriving DecidableEq, Repr

/-- A clock request of the PMI. -/
structure ClkReq where
  req : Bool := false
  ack : Bool := false
  deriving DecidableEq, Repr

/-- PCM (18). -/
structure Pcm where
  sup : Tbl Supply := []
  clk : Tbl ClkReq := []
  wakeSrc : BitVec 4 := 0
  wakeDom : BitVec 6 := 0
  wakeDetail : BitVec 13 := 0
  gWakeSrc : BitVec 4 := 0
  wakeTime : Word := 0
  alarmArm : Bool := false
  alarmFired : Bool := false
  cpCoh : Bool := false
  /-- Tick count saved when TBS left ON, and ACLK periods counted since (R281). -/
  savedTick : DWord := 0
  aclk : Nat := 0
  deriving DecidableEq, Repr

/-! ## Staging (14) -/

/-- COMMIT_STATUS.STATE (Table 14-6). -/
inductive CommitSt where
  | idle | checking | pending | applied | rejected | cancelled | expired
  deriving DecidableEq, Repr

/-- A clamp log entry (Table 14-3). -/
structure Clamp where
  v : Bool := false
  sec : Bool := false
  addr : BitVec 20 := 0
  lsb : BitVec 5 := 0
  wid : BitVec 6 := 0
  wr : Word := 0
  apl : Word := 0
  deriving DecidableEq, Repr

/-- The staging machinery (Tables 14-2 to 14-7). -/
structure Staging where
  /-- Staging and applied copies of the RWS words by TP address, where they differ from their reset values. -/
  stg : Tbl Word := []
  app : Tbl Word := []
  sect : BitVec 16 := 0
  lock : BitVec 16 := 0
  seq : Byte := 0
  st : CommitSt := .idle
  stage : Bool := false
  denied : Bool := false
  src : BitVec 2 := 0
  reason : Byte := 0
  epoch : BitVec 16 := 0
  sets : BitVec 16 := 0
  tmo : BitVec 4 := 0
  /-- The commit's write was secure (Table 14-8, SECURITY). -/
  secWr : Bool := false
  pendAt : DWord := 0
  /-- The pending commit's source has a boundary that the core has not yet taken (R510). -/
  boundary : Bool := false
  /-- Producers of that boundary's cycle, which are judged against the new sources (Table 8-11). -/
  late : List Nat := []
  /-- EPOCH_CNT of that source at the boundary (Table 14-6). -/
  epochAt : BitVec 16 := 0
  clamps : Tbl Clamp := []
  clampTotal : BitVec 16 := 0
  clampOvf : Bool := false
  clampNext : BitVec 4 := 0
  deriving DecidableEq, Repr

/-! ## Management (19) -/

/-- A Ledger record (Table 19-6); `seq` 0 is an empty slot. -/
structure LgRec where
  seq : Word := 0
  code : BitVec 16 := 0
  flags : Byte := 0
  time : DWord := 0
  opTime : Word := 0
  pwrCyc : Word := 0
  dataLo : Word := 0
  dataHi : Word := 0
  deriving DecidableEq, Repr

/-- A rate-limit window (R647): code, start, records written and suppressed. -/
structure LgWin where
  t0 : Nat
  n : Nat
  m : Nat
  deriving DecidableEq, Repr

/-- The Ledger (19). -/
structure Ledger where
  head : Word := 1
  recs : Tbl LgRec := []
  queue : List LgRec := []
  supp : BitVec 16 := 0
  drop : BitVec 16 := 0
  /-- Records dropped since the last DROPPED record (R648). -/
  dropDue : Nat := 0
  wins : Tbl (Option LgWin) := []
  snap : LgRec := {}
  opTime : Word := 0
  pwrCyc : Word := 0
  /-- Eighths of a tick since the release of `rst_ao_n`, by which the windows of R647 are timed. -/
  up : Nat := 0
  seededOpt : Bool := false
  seededPwr : Bool := false
  deriving DecidableEq, Repr

/-- SBP (R639 to R643). -/
structure Sbp where
  active : Bool := false
  /-- The matcher stretches SCL while CORE wakes (R623). -/
  stretch : Bool := false
  addr : BitVec 20 := 0
  wrResp : BitVec 3 := 0
  lgSel : Word := 0
  tmIdx : BitVec 6 := 0
  /-- The last byte or command was acknowledged. -/
  acked : Bool := false
  out : List Byte := []
  deriving DecidableEq, Repr

/-- A sampled sensor (Table 19-10). -/
structure Sns where
  temp : BitVec 12 := 0
  volt : BitVec 12 := 0
  valid : Bool := false
  deriving DecidableEq, Repr

/-- Management (13, 19, 20): TP counters, telemetry, sensors, debug. -/
structure Mst where
  disc : BitVec 16 := 0
  viol : BitVec 16 := 0
  discAddr : BitVec 20 := 0
  aoDisc : BitVec 16 := 0
  trcDrop : BitVec 16 := 0
  tm : Tbl DWord := []
  tmSnap : Tbl DWord := []
  /-- Parts of a microsecond not yet counted in counters 31 to 33, in ticks (Table 19-9). -/
  tmAcc : Nat × Nat × Nat := (0, 0, 0)
  sns : Tbl Sns := []
  age : Tbl (BitVec 20) := []
  tempOver : Bool := false
  tempDom : BitVec 6 := 0
  starveV : Bool := false
  starveOvf : Bool := false
  starveLevel : BitVec 2 := 0
  starveInst : BitVec 6 := 0
  starveReq : BitVec 5 := 0
  starveCnt : BitVec 16 := 0
  deriving DecidableEq, Repr

/-- Dispatch status per channel (Table 10-10). -/
structure Dsp where
  rehomed : Bool := false
  nohome : Bool := false
  lastG : BitVec 5 := 0
  deriving DecidableEq, Repr

/-- Resets, straps and the debug and test pins (13). -/
structure Boot where
  rstAo : Bool := false
  rstN : Bool := true
  straps : Word := 0
  strapErr : Bool := false
  ready : Bool := false
  shellIso : Bool := false
  tstMode : Bool := false
  tapReset : Bool := false
  dbgHalt : Bool := false
  dbgSecEn : Bool := false
  trcReady : Bool := true
  deriving DecidableEq, Repr

/-- An answer on SNPRSP (Table 12-15): coherent port, RESP and DATA. -/
structure SnpRsp where
  cp : Bool
  code : BitVec 3
  data : List Byte := []
  deriving DecidableEq, Repr

/-- An answer on TP: response code (Table 12-6) and read data. -/
structure Resp where
  code : BitVec 3
  data : Word
  /-- ID of the access answered, and KIND: 0 READ_DATA, 1 WRITE_RESP (R448). -/
  id : Byte := 0
  kind : BitVec 2 := 0
  deriving DecidableEq, Repr

end Sys2Proof.Machine
end

