-- ==== Sys2Proof/Machine/Bits.lean ====
section
/-! DEFINITION. Bits: bit fields, byte order (R19), and the sparse tables. -/

namespace Sys2Proof.Machine

/-- The field of width `wid` at `lsb` of a word, as a number. -/
def fld {n : Nat} (w : BitVec n) (lsb wid : Nat) : Nat := (w.toNat >>> lsb) % 2 ^ wid

/-- Bit `i` of a word. -/
def bit {n : Nat} (w : BitVec n) (i : Nat) : Bool := w.getLsbD i

/-- A word with the field of width `wid` at `lsb` replaced. -/
def setFld {n : Nat} (w : BitVec n) (lsb wid v : Nat) : BitVec n :=
  BitVec.ofNat n (w.toNat - fld w lsb wid * 2 ^ lsb + (v % 2 ^ wid) * 2 ^ lsb)

/-- A flag as a one-bit number. -/
def b2n (b : Bool) : Nat := if b then 1 else 0

/-- A word built from (lsb, value) pairs of fields that do not overlap. -/
def packW : List (Nat × Nat) → Word
  | [] => 0
  | (l, v) :: r => packW r + BitVec.ofNat 32 (v * 2 ^ l)

/-- The `n` little-endian bytes of a number (R19). -/
def toLe : Nat → Nat → List Byte
  | 0, _ => []
  | n + 1, v => BitVec.ofNat 8 v :: toLe n (v / 256)

/-- The number whose little-endian bytes are given (R19). -/
def ofLe : List Byte → Nat
  | [] => 0
  | b :: r => b.toNat + 256 * ofLe r

/-- The `n` big-endian bytes of a number. -/
def toBe (n v : Nat) : List Byte := (toLe n v).reverse

/-- The number whose big-endian bytes are given. -/
def ofBe (l : List Byte) : Nat := ofLe l.reverse

/-- Bytes `i` to `i + n - 1` of a list; missing bytes read 0. -/
def slice (l : List Byte) (i n : Nat) : List Byte :=
  let r := (l.drop i).take n
  r ++ List.replicate (n - r.length) 0

/-- The little-endian number in bytes `i` to `i + n - 1`. -/
def leAt (l : List Byte) (i n : Nat) : Nat := ofLe (slice l i n)

/-- Byte `i` of a list as a number. -/
def byteAt (l : List Byte) (i : Nat) : Nat := (l.getD i 0).toNat

/-- A saturating sum of a counter of width `n`. -/
def satAdd {n : Nat} (c : BitVec n) (k : Nat) : BitVec n := BitVec.ofNat n (min (c.toNat + k) (2 ^ n - 1))

/-- The entry of key `k`, or the table's default. -/
def Tbl.get {α : Type} (d : α) : Tbl α → Nat → α
  | [], _ => d
  | (k', v) :: r, k => if k = k' then v else Tbl.get d r k

/-- The table without key `k`. -/
def Tbl.del {α : Type} (t : Tbl α) (k : Nat) : Tbl α := t.filter (fun e => e.1 != k)

/-- The table with a pair placed before the first greater key. -/
def Tbl.ins {α : Type} (k : Nat) (v : α) : Tbl α → Tbl α
  | [] => [(k, v)]
  | (k', v') :: r => if k < k' then (k, v) :: (k', v') :: r else (k', v') :: Tbl.ins k v r

/-- The table with the entry of key `k` set; setting the default removes the entry. -/
def Tbl.put {α : Type} [DecidableEq α] (d : α) (t : Tbl α) (k : Nat) (v : α) : Tbl α :=
  if v = d then Tbl.del t k else Tbl.ins k v (Tbl.del t k)

/-- Keys strictly rising from above `lo`, and no default entry: the canonical form of a sparse table. -/
def Tbl.wfFrom {α : Type} [DecidableEq α] (d : α) : Option Nat → Tbl α → Bool
  | _, [] => true
  | lo, (k, v) :: r => (match lo with | none => true | some l => decide (l < k)) && decide (v ≠ d) && Tbl.wfFrom d (some k) r

/-- The canonical form of a sparse table. -/
def Tbl.wf {α : Type} [DecidableEq α] (d : α) (t : Tbl α) : Bool := Tbl.wfFrom d none t

/-- The rows whose keys pass a test. -/
def Tbl.keep {α : Type} (p : Nat → Bool) (t : Tbl α) : Tbl α := t.filter (fun e => p e.1)

/-- Whether some listed entry meets a test. -/
def Tbl.hasAny {α : Type} (p : Nat → α → Bool) (t : Tbl α) : Bool := t.any (fun e => p e.1 e.2)

/-- Numbers 0 to n - 1. -/
def upTo (n : Nat) : List Nat := List.range n

/-- Fold a state transformer over a list. -/
def foldS {α σ : Type} (l : List α) (f : α → σ → σ) (s : σ) : σ := l.foldl (fun s a => f a s) s

end Sys2Proof.Machine
end

