-- ==== Sys2Proof/Machine/RegMap.lean ====
section
/-! DEFINITION. RegMap: the registers of the TP window and their decoding (R655, Tables 20-1 and 20-3 to 20-9). -/

namespace Sys2Proof.Machine

/-- A register of the TP window, by its name and index. -/
inductive Reg where
  | id | version | gstat | strapsR | feat0 | tpCfg | tpStat | tpDiscAddr | aoDisc | sbpCfg | nsDeny | dbgCfg | commit | commitStatus | commitInfo | stgDirty | stgLock | clampStat | tmCtrl | tempLim | tempStat | lgHead | lgStat | lgSel | lgRate | lgCtrl | lgOpt | lgPwr | lgSeedOpt | lgSeedPwr
  | lgSwCode | lgSwLo | lgSwHi | dspCfg | dspSel | dspStat | dspEhome | starveLog | swRaise | swSec | haltQ | irqPend | irqMask | irqSec | timeLo | timeHi | angleLo | angleHi | tbCfg | tbStat | synthPeriod | lateMargin | wedgePeriod | revPeriod | epCfg | epStrobe | scRsv | psBaseLo | psBaseHi | psSize | xrecBase | tscr | cpCfg | loadAddrLo | loadAddrHi | loadGal | loadCtrl | loadStat | loadOk | svnMin
  | imgN | imgNew | feStat | feInfo | feAddrLo | feAddrHi | feTimeLo | feTimeHi | fcrStat | fltCtrl | rcvCfg | rcvCnt | capStat | injSel | injCtrl | docCfg | docStat | docLast | docCmd | rotCfg | rotStat | scrubCfg | scrubStat | scrLo | scrHi | wakeLog | wakeTime | alarmLo | alarmHi | alarmCtrl
  | avSel (i : Nat)
  | avData (i : Nat)
  | clampAddr (i : Nat)
  | clampFld (i : Nat)
  | clampWr (i : Nat)
  | clampApl (i : Nat)
  | tmLo (i : Nat)
  | tmHi (i : Nat)
  | sns (i : Nat)
  | age (i : Nat)
  | lgData (i : Nat)
  | catSel (i : Nat)
  | rqCfg (i : Nat)
  | rqStat (i : Nat)
  | irqCoal (i : Nat)
  | irqCnt (i : Nat)
  | evoCfg (i : Nat)
  | evoMrg (i : Nat)
  | ecSrc (i : Nat)
  | ecCtrl (i : Nat)
  | ecCnt (i : Nat)
  | subR (i : Nat)
  | subStat (i : Nat)
  | epochCnt (i : Nat)
  | scCtrl (i : Nat)
  | scAnchLo (i : Nat)
  | scAnchHi (i : Nat)
  | keySel (i : Nat)
  | keyCmd (i : Nat)
  | keyStat (i : Nat)
  | fcrPend (i : Nat)
  | sev (i : Nat)
  | srcCnt (i : Nat)
  | docTest (i : Nat)
  | holdRelease (i : Nat)
  | wakeTab (i : Nat)
  | oppR (i : Nat)
  | oppStat (i : Nat)
  | pol (i : Nat)
  | domCtrl (i : Nat)
  | domStat (i : Nat)
  | keyData (i w : Nat)
  /-- Word `off` of the context shown by Catalogue window `i` (Table 2-1). -/
  | catWin (i off : Nat)
  /-- Word `k` of a channel's doorbell block (Table 2-11b). -/
  | doorbell (ch k : Nat)
  /-- Registers of the port with INST code `p` (Table 20-8). -/
  | portCfg (p : Nat) | portOutst (p : Nat) | portStat (p : Nat) | errAddrLo (p : Nat) | errAddrHi (p : Nat) | errInfo (p : Nat)
  /-- The arbiter group of arbiter `a` (0 to 31 galleries, 32 to 35 wings, 64 + INST ports and links). -/
  | arbCfg (a : Nat) | arbStat (a : Nat) | arbPrio (a k : Nat) | arbWheel (a k : Nat)
  /-- Registers of link `l` (Table 20-8). -/
  | linkCtrl (l : Nat) | linkStatus (l : Nat) | rxCfg (l : Nat) | rxCmd (l : Nat) | rxLevel (l : Nat) | rxRcvd (l : Nat) | slErrCnt (l : Nat) | stqHdr (l : Nat) | stqPos (l : Nat) | stqData (l w : Nat)
  /-- Registers of gallery `g` (Table 20-9). -/
  | csCtrl (g : Nat) | csId (g b : Nat) | csInfo (g b : Nat) | engCtrl (g : Nat) | slotMap (g : Nat)
  | slotR (g k : Nat) | gbStat (g k : Nat) | engStat (g k : Nat) | gbLo (g k w : Nat) | gbHi (g k w : Nat)
  deriving DecidableEq, Repr

/-- The index of address `a` in a row of `n` registers at `base` with the given stride. -/
def rowIdx (a base stride n : Nat) : Option Nat :=
  if base ≤ a ∧ (a - base) % stride = 0 ∧ (a - base) / stride < n then some ((a - base) / stride) else none

/-- The first row that names the address. -/
def firstRow : List (Option Reg) → Option Reg
  | [] => none
  | some r :: _ => some r
  | none :: t => firstRow t

/-- The arbiter group at block offset `o` of arbiter `a` with `np` ARB_PRIO words (Table 20-8). -/
def decArb (a o np : Nat) : Option Reg :=
  if o = 0x20 then some (.arbCfg a) else if o = 0x24 then some (.arbStat a)
  else firstRow [(rowIdx o 0x28 4 np).map (Reg.arbPrio a), (rowIdx o 0x40 4 16).map (Reg.arbWheel a)]

/-- Whether INST names a port or link (R655). -/
def instOk (p : Nat) : Bool := p < 14 || (16 ≤ p && p < 24) || (32 ≤ p && p < 64)

/-- Whether INST names a memory port of a wing that is not populated (R26). -/
def instAbsent (wings p : Nat) : Bool := p < 8 && wings ≤ p / 2

/-- A port or link block (Table 20-8). -/
def decPort (wings p o : Nat) : Option Reg :=
  if !instOk p || instAbsent wings p then none
  else match decArb (64 + p) o 1 with
    | some r => some r
    | none =>
      if p < 32 then
        (match o with
        | 0x0 => some (.portCfg p)
        | 0x4 => some (.portOutst p)
        | 0x8 => some (.portStat p)
        | 0xc => some (.errAddrLo p)
        | 0x10 => some (.errAddrHi p)
        | 0x14 => some (.errInfo p)
        | _ => none)
      else
        (match o with
        | 0x80 => some (.linkCtrl (p - 32))
        | 0x84 => some (.linkStatus (p - 32))
        | 0x88 => some (.rxCfg (p - 32))
        | 0x8c => some (.rxCmd (p - 32))
        | 0x90 => some (.rxLevel (p - 32))
        | 0x94 => some (.rxRcvd (p - 32))
        | 0x98 => some (.slErrCnt (p - 32))
        | 0x9c => some (.stqHdr (p - 32))
        | 0xa0 => some (.stqPos (p - 32))
        | _ => (rowIdx o 0xC0 4 8).map (Reg.stqData (p - 32)))

/-- A gallery block (Table 20-9). -/
def decGal (g o : Nat) : Option Reg :=
  match decArb g o 3 with
  | some r => some r
  | none => firstRow [
      if o = 0 then some (.csCtrl g) else none,
      (rowIdx o 0x008 4 2).map (Reg.csId g), (rowIdx o 0x010 4 2).map (Reg.csInfo g),
      if o = 0x018 then some (.engCtrl g) else none,
      if o = 0x080 then some (.slotMap g) else none,
      (rowIdx o 0x100 4 17).map (Reg.slotR g), (rowIdx o 0x180 4 17).map (Reg.gbStat g),
      (rowIdx o 0x200 4 17).map (Reg.engStat g),
      if 0x400 ≤ o ∧ o < 0x400 + 0x40 * 17 ∧ o % 8 = 0 then
        some (.gbLo g ((o - 0x400) / 0x40) ((o - 0x400) % 0x40 / 8)) else none,
      if 0x400 ≤ o ∧ o < 0x400 + 0x40 * 17 ∧ o % 8 = 4 then
        some (.gbHi g ((o - 0x400) / 0x40) ((o - 0x400) % 0x40 / 8)) else none ]

/-- The core blocks' registers without an index (Tables 20-3 to 20-7). -/
def decCore (a : Nat) : Option Reg :=
  match a with
  | 0x0 => some .id
  | 0x4 => some .version
  | 0x8 => some .gstat
  | 0xc => some .strapsR
  | 0x10 => some .feat0
  | 0x20 => some .tpCfg
  | 0x24 => some .tpStat
  | 0x28 => some .tpDiscAddr
  | 0x2c => some .aoDisc
  | 0x30 => some .sbpCfg
  | 0x34 => some .nsDeny
  | 0x38 => some .dbgCfg
  | 0x100 => some .commit
  | 0x104 => some .commitStatus
  | 0x108 => some .commitInfo
  | 0x10c => some .stgDirty
  | 0x110 => some .stgLock
  | 0x114 => some .clampStat
  | 0x400 => some .tmCtrl
  | 0x404 => some .tempLim
  | 0x408 => some .tempStat
  | 0x1000 => some .lgHead
  | 0x1004 => some .lgStat
  | 0x1008 => some .lgSel
  | 0x100c => some .lgRate
  | 0x1010 => some .lgCtrl
  | 0x1014 => some .lgOpt
  | 0x1018 => some .lgPwr
  | 0x101c => some .lgSeedOpt
  | 0x1020 => some .lgSeedPwr
  | 0x1024 => some .lgSwCode
  | 0x1028 => some .lgSwLo
  | 0x102c => some .lgSwHi
  | 0x3000 => some .dspCfg
  | 0x3004 => some .dspSel
  | 0x3008 => some .dspStat
  | 0x300c => some .dspEhome
  | 0x3010 => some .starveLog
  | 0x4400 => some .swRaise
  | 0x4404 => some .swSec
  | 0x4408 => some .haltQ
  | 0x4410 => some .irqPend
  | 0x4414 => some .irqMask
  | 0x4418 => some .irqSec
  | 0x8000 => some .timeLo
  | 0x8004 => some .timeHi
  | 0x8008 => some .angleLo
  | 0x800c => some .angleHi
  | 0x8010 => some .tbCfg
  | 0x8014 => some .tbStat
  | 0x8018 => some .synthPeriod
  | 0x801c => some .lateMargin
  | 0x8020 => some .wedgePeriod
  | 0x8024 => some .revPeriod
  | 0x8040 => some .epCfg
  | 0x8044 => some .epStrobe
  | 0x8048 => some .scRsv
  | 0xa000 => some .psBaseLo
  | 0xa004 => some .psBaseHi
  | 0xa008 => some .psSize
  | 0xa00c => some .xrecBase
  | 0xa010 => some .tscr
  | 0xa014 => some .cpCfg
  | 0xb000 => some .loadAddrLo
  | 0xb004 => some .loadAddrHi
  | 0xb008 => some .loadGal
  | 0xb00c => some .loadCtrl
  | 0xb010 => some .loadStat
  | 0xb014 => some .loadOk
  | 0xb018 => some .svnMin
  | 0xb01c => some .imgN
  | 0xb020 => some .imgNew
  | 0xc000 => some .feStat
  | 0xc004 => some .feInfo
  | 0xc008 => some .feAddrLo
  | 0xc00c => some .feAddrHi
  | 0xc010 => some .feTimeLo
  | 0xc014 => some .feTimeHi
  | 0xc018 => some .fcrStat
  | 0xc01c => some .fltCtrl
  | 0xc020 => some .rcvCfg
  | 0xc024 => some .rcvCnt
  | 0xc028 => some .capStat
  | 0xc02c => some .injSel
  | 0xc030 => some .injCtrl
  | 0xd000 => some .docCfg
  | 0xd004 => some .docStat
  | 0xd008 => some .docLast
  | 0xd00c => some .docCmd
  | 0xd020 => some .rotCfg
  | 0xd024 => some .rotStat
  | 0xd028 => some .scrubCfg
  | 0xd02c => some .scrubStat
  | 0xd030 => some .scrLo
  | 0xd034 => some .scrHi
  | 0xe000 => some .wakeLog
  | 0xe004 => some .wakeTime
  | 0xe008 => some .alarmLo
  | 0xe00c => some .alarmHi
  | 0xe010 => some .alarmCtrl
  | _ => none

/-- The core blocks' registers with an index (Tables 20-3 to 20-7). -/
def decIdx (a : Nat) : Option Reg :=
  firstRow [
    (rowIdx a 0x140 0x8 4).map Reg.avSel,
    (rowIdx a 0x144 0x8 4).map Reg.avData,
    (rowIdx a 0x200 0x10 16).map Reg.clampAddr,
    (rowIdx a 0x204 0x10 16).map Reg.clampFld,
    (rowIdx a 0x208 0x10 16).map Reg.clampWr,
    (rowIdx a 0x20c 0x10 16).map Reg.clampApl,
    (rowIdx a 0x500 0x8 64).map Reg.tmLo,
    (rowIdx a 0x504 0x8 64).map Reg.tmHi,
    (rowIdx a 0x708 0x4 41).map (fun i => Reg.sns (2 + i)),
    (rowIdx a 0x800 0x4 32).map Reg.age,
    (rowIdx a 0x1040 0x4 8).map Reg.lgData,
    (rowIdx a 0x2000 0x4 4).map Reg.catSel,
    (rowIdx a 0x4000 0x4 128).map Reg.rqCfg,
    (rowIdx a 0x4200 0x4 128).map Reg.rqStat,
    (rowIdx a 0x4500 0x4 32).map Reg.irqCoal,
    (rowIdx a 0x4580 0x4 32).map Reg.irqCnt,
    (rowIdx a 0x4600 0x4 64).map Reg.evoCfg,
    (rowIdx a 0x4700 0x4 64).map Reg.evoMrg,
    (rowIdx a 0x4800 0x10 256).map Reg.ecSrc,
    (rowIdx a 0x4804 0x10 256).map Reg.ecCtrl,
    (rowIdx a 0x4808 0x10 256).map Reg.ecCnt,
    (rowIdx a 0x6000 0x8 1024).map Reg.subR,
    (rowIdx a 0x6004 0x8 1024).map Reg.subStat,
    (rowIdx a 0x8030 0x4 4).map Reg.epochCnt,
    (rowIdx a 0x8400 0x10 32).map (fun i => Reg.scCtrl (32 + i)),
    (rowIdx a 0x8404 0x10 32).map (fun i => Reg.scAnchLo (32 + i)),
    (rowIdx a 0x8408 0x10 32).map (fun i => Reg.scAnchHi (32 + i)),
    (rowIdx a 0x9000 0x100 4).map Reg.keySel,
    (rowIdx a 0x9004 0x100 4).map Reg.keyCmd,
    (rowIdx a 0x9008 0x100 4).map Reg.keyStat,
    (rowIdx a 0xc080 0x4 10).map Reg.fcrPend,
    (rowIdx a 0xc100 0x4 40).map Reg.sev,
    (rowIdx a 0xc400 0x4 320).map Reg.srcCnt,
    (rowIdx a 0xd010 0x4 4).map Reg.docTest,
    (rowIdx a 0xe018 0x4 2).map Reg.holdRelease,
    (rowIdx a 0xe040 0x4 10).map Reg.wakeTab,
    (rowIdx a 0xe080 0x8 5).map Reg.oppR,
    (rowIdx a 0xe084 0x8 5).map Reg.oppStat,
    (rowIdx a 0xe104 0x4 42).map (fun i => Reg.pol (1 + i)),
    (rowIdx a 0xe204 0x4 42).map (fun i => Reg.domCtrl (1 + i)),
    (rowIdx a 0xe300 0x4 43).map Reg.domStat,
    if 0x9040 ≤ a ∧ a < 0x9400 ∧ (a - 0x9000) % 0x100 / 4 ≥ 16 ∧ (a - 0x9000) % 0x100 < 0x80 ∧ a % 4 = 0 then
      some (.keyData ((a - 0x9000) / 0x100) (((a - 0x9000) % 0x100 - 0x40) / 4)) else none,
    if 0x2100 ≤ a ∧ a < 0x2500 ∧ a % 4 = 0 then some (.catWin ((a - 0x2100) / 0x100) ((a - 0x2100) % 0x100)) else none ]

/-- The register at a word address, for the given number of populated wings; none is answered DECERR (R655, R26). -/
def decodeReg (wings a : Nat) : Option Reg :=
  if a < 0x10000 then
    (match decCore a with
     | some r => some r
     | none => decIdx a)
  else if a < 0x14000 then decPort wings ((a - 0x10000) / 0x100) (a % 0x100)
  else if a < 0x14400 then
    (if (a - 0x14000) / 0x100 < wings then decArb (32 + (a - 0x14000) / 0x100) (a % 0x100) 2 else none)
  else if 0x80000 ≤ a ∧ a < 0x90000 ∧ a % 4 = 0 then some (.doorbell ((a - 0x80000) / 16) (a % 16 / 4))
  else if 0xA0000 ≤ a ∧ a < 0xC0000 then
    (if (a - 0xA0000) / 0x8000 < wings then decGal ((a - 0xA0000) / 0x1000) (a % 0x1000) else none)
  else none

/-- The TP address of a core register (Tables 20-3 to 20-7), for the copies kept by address. -/
def Reg.addr : Reg → Nat
  | .id => 0x0
  | .version => 0x4
  | .gstat => 0x8
  | .strapsR => 0xc
  | .feat0 => 0x10
  | .tpCfg => 0x20
  | .tpStat => 0x24
  | .tpDiscAddr => 0x28
  | .aoDisc => 0x2c
  | .sbpCfg => 0x30
  | .nsDeny => 0x34
  | .dbgCfg => 0x38
  | .commit => 0x100
  | .commitStatus => 0x104
  | .commitInfo => 0x108
  | .stgDirty => 0x10c
  | .stgLock => 0x110
  | .clampStat => 0x114
  | .tmCtrl => 0x400
  | .tempLim => 0x404
  | .tempStat => 0x408
  | .lgHead => 0x1000
  | .lgStat => 0x1004
  | .lgSel => 0x1008
  | .lgRate => 0x100c
  | .lgCtrl => 0x1010
  | .lgOpt => 0x1014
  | .lgPwr => 0x1018
  | .lgSeedOpt => 0x101c
  | .lgSeedPwr => 0x1020
  | .lgSwCode => 0x1024
  | .lgSwLo => 0x1028
  | .lgSwHi => 0x102c
  | .dspCfg => 0x3000
  | .dspSel => 0x3004
  | .dspStat => 0x3008
  | .dspEhome => 0x300c
  | .starveLog => 0x3010
  | .swRaise => 0x4400
  | .swSec => 0x4404
  | .haltQ => 0x4408
  | .irqPend => 0x4410
  | .irqMask => 0x4414
  | .irqSec => 0x4418
  | .timeLo => 0x8000
  | .timeHi => 0x8004
  | .angleLo => 0x8008
  | .angleHi => 0x800c
  | .tbCfg => 0x8010
  | .tbStat => 0x8014
  | .synthPeriod => 0x8018
  | .lateMargin => 0x801c
  | .wedgePeriod => 0x8020
  | .revPeriod => 0x8024
  | .epCfg => 0x8040
  | .epStrobe => 0x8044
  | .scRsv => 0x8048
  | .psBaseLo => 0xa000
  | .psBaseHi => 0xa004
  | .psSize => 0xa008
  | .xrecBase => 0xa00c
  | .tscr => 0xa010
  | .cpCfg => 0xa014
  | .loadAddrLo => 0xb000
  | .loadAddrHi => 0xb004
  | .loadGal => 0xb008
  | .loadCtrl => 0xb00c
  | .loadStat => 0xb010
  | .loadOk => 0xb014
  | .svnMin => 0xb018
  | .imgN => 0xb01c
  | .imgNew => 0xb020
  | .feStat => 0xc000
  | .feInfo => 0xc004
  | .feAddrLo => 0xc008
  | .feAddrHi => 0xc00c
  | .feTimeLo => 0xc010
  | .feTimeHi => 0xc014
  | .fcrStat => 0xc018
  | .fltCtrl => 0xc01c
  | .rcvCfg => 0xc020
  | .rcvCnt => 0xc024
  | .capStat => 0xc028
  | .injSel => 0xc02c
  | .injCtrl => 0xc030
  | .docCfg => 0xd000
  | .docStat => 0xd004
  | .docLast => 0xd008
  | .docCmd => 0xd00c
  | .rotCfg => 0xd020
  | .rotStat => 0xd024
  | .scrubCfg => 0xd028
  | .scrubStat => 0xd02c
  | .scrLo => 0xd030
  | .scrHi => 0xd034
  | .wakeLog => 0xe000
  | .wakeTime => 0xe004
  | .alarmLo => 0xe008
  | .alarmHi => 0xe00c
  | .alarmCtrl => 0xe010
  | .avSel i => 0x140 + 0x8 * i
  | .avData i => 0x144 + 0x8 * i
  | .clampAddr i => 0x200 + 0x10 * i
  | .clampFld i => 0x204 + 0x10 * i
  | .clampWr i => 0x208 + 0x10 * i
  | .clampApl i => 0x20c + 0x10 * i
  | .tmLo i => 0x500 + 0x8 * i
  | .tmHi i => 0x504 + 0x8 * i
  | .sns i => 0x708 + 0x4 * (i - 2)
  | .age i => 0x800 + 0x4 * i
  | .lgData i => 0x1040 + 0x4 * i
  | .catSel i => 0x2000 + 0x4 * i
  | .rqCfg i => 0x4000 + 0x4 * i
  | .rqStat i => 0x4200 + 0x4 * i
  | .irqCoal i => 0x4500 + 0x4 * i
  | .irqCnt i => 0x4580 + 0x4 * i
  | .evoCfg i => 0x4600 + 0x4 * i
  | .evoMrg i => 0x4700 + 0x4 * i
  | .ecSrc i => 0x4800 + 0x10 * i
  | .ecCtrl i => 0x4804 + 0x10 * i
  | .ecCnt i => 0x4808 + 0x10 * i
  | .subR i => 0x6000 + 0x8 * i
  | .subStat i => 0x6004 + 0x8 * i
  | .epochCnt i => 0x8030 + 0x4 * i
  | .scCtrl i => 0x8400 + 0x10 * (i - 32)
  | .scAnchLo i => 0x8404 + 0x10 * (i - 32)
  | .scAnchHi i => 0x8408 + 0x10 * (i - 32)
  | .keySel i => 0x9000 + 0x100 * i
  | .keyCmd i => 0x9004 + 0x100 * i
  | .keyStat i => 0x9008 + 0x100 * i
  | .fcrPend i => 0xc080 + 0x4 * i
  | .sev i => 0xc100 + 0x4 * i
  | .srcCnt i => 0xc400 + 0x4 * i
  | .docTest i => 0xd010 + 0x4 * i
  | .holdRelease i => 0xe018 + 0x4 * i
  | .wakeTab i => 0xe040 + 0x4 * i
  | .oppR i => 0xe080 + 0x8 * i
  | .oppStat i => 0xe084 + 0x8 * i
  | .pol i => 0xe104 + 0x4 * (i - 1)
  | .domCtrl i => 0xe204 + 0x4 * (i - 1)
  | .domStat i => 0xe300 + 0x4 * i
  | .keyData i w => 0x9040 + 0x100 * i + 4 * w
  | .catWin i off => 0x2100 + 0x100 * i + off
  | .doorbell ch k => 0x80000 + 16 * ch + 4 * k
  | .portCfg p => 0x10000 + 0x100 * p + 0x0
  | .portOutst p => 0x10000 + 0x100 * p + 0x4
  | .portStat p => 0x10000 + 0x100 * p + 0x8
  | .errAddrLo p => 0x10000 + 0x100 * p + 0xc
  | .errAddrHi p => 0x10000 + 0x100 * p + 0x10
  | .errInfo p => 0x10000 + 0x100 * p + 0x14
  | .arbCfg a => arbBase a + 0x20
  | .arbStat a => arbBase a + 0x24
  | .arbPrio a k => arbBase a + 0x28 + 4 * k
  | .arbWheel a k => arbBase a + 0x40 + 4 * k
  | .linkCtrl l => 0x12000 + 0x100 * l + 0x80
  | .linkStatus l => 0x12000 + 0x100 * l + 0x84
  | .rxCfg l => 0x12000 + 0x100 * l + 0x88
  | .rxCmd l => 0x12000 + 0x100 * l + 0x8c
  | .rxLevel l => 0x12000 + 0x100 * l + 0x90
  | .rxRcvd l => 0x12000 + 0x100 * l + 0x94
  | .slErrCnt l => 0x12000 + 0x100 * l + 0x98
  | .stqHdr l => 0x12000 + 0x100 * l + 0x9c
  | .stqPos l => 0x12000 + 0x100 * l + 0xa0
  | .stqData l w => 0x120C0 + 0x100 * l + 4 * w
  | .csCtrl g => 0xA0000 + 0x1000 * g
  | .csId g b => 0xA0008 + 0x1000 * g + 4 * b
  | .csInfo g b => 0xA0010 + 0x1000 * g + 4 * b
  | .engCtrl g => 0xA0018 + 0x1000 * g
  | .slotMap g => 0xA0080 + 0x1000 * g
  | .slotR g k => 0xA0100 + 0x1000 * g + 4 * k
  | .gbStat g k => 0xA0180 + 0x1000 * g + 4 * k
  | .engStat g k => 0xA0200 + 0x1000 * g + 4 * k
  | .gbLo g k w => 0xA0400 + 0x1000 * g + 0x40 * k + 8 * w
  | .gbHi g k w => 0xA0404 + 0x1000 * g + 0x40 * k + 8 * w
where
  /-- The base of an arbiter's block: gallery, wing, or port and link. -/
  arbBase (a : Nat) : Nat :=
    if a < 32 then 0xA0000 + 0x1000 * a else if a < 64 then 0x14000 + 0x100 * (a - 32) else 0x10000 + 0x100 * (a - 64)

end Sys2Proof.Machine
end

