-- ==== Sys2Proof/Machine/Fields.lean ====
section
/-! DEFINITION. Fields: the writable fields of the RW and RWS registers with their checks, their reset values, the
security class and the domain of each register. -/

namespace Sys2Proof.Machine

/-- How a written field value is checked (R43, R503): kept, clamped to a range, refused above a highest code, or the
two fields with a replacement of their own (Table 10-3, Table 9-9). -/
inductive Chk where
  | any
  | range (lo hi : Nat)
  | upTo (m : Nat)
  /-- A wheel slot of an arbiter with `n` requesters: a code naming an absent index stores 0x00. -/
  | wheel (n : Nat)
  /-- LINK_CTRL.MAXVER: 1 or 2; other values store 2. -/
  | maxver
  deriving DecidableEq, Repr

/-- A writable field. -/
structure Fld where
  lsb : Nat
  wid : Nat
  chk : Chk := .any
  deriving DecidableEq, Repr

/-- The value stored for a field: `old` is what it holds (R43, R503). DESIGN CHOICE (log entry 46): of a wheel slot code, Table 10-3
says [6:5] are 0 and not what a write of other values stores; with V = 1 it counts as naming an absent index, and with V = 0 the two
bits are dropped. -/
def Fld.stored (f : Fld) (old v : Nat) : Nat :=
  match f.chk with
  | .any => v
  | .range lo hi => max lo (min hi v)
  | .upTo m => if v ≤ m then v else old
  | .wheel n => if v < 128 then v % 32 else if v % 32 < n ∧ v / 32 % 4 = 0 then v else 0
  | .maxver => if v = 1 then 1 else 2

/-- The fields of a wheel word. -/
def wheelFlds (n : Nat) : List Fld := [⟨0, 8, .wheel n⟩, ⟨8, 8, .wheel n⟩, ⟨16, 8, .wheel n⟩, ⟨24, 8, .wheel n⟩]

/-- Eight 4-bit fields. -/
def nibbles (n : Nat) (c : Chk) : List Fld := (upTo n).map (fun i => ⟨4 * i, 4, c⟩)

/-- Requesters of arbiter `a` (Table 10-2). -/
def arbReqs (a : Nat) : Nat := if a < 32 then 18 else if a < 64 then 11 else 7

/-- Whether a register is RWS, and its staged set (Table 14-1). -/
def Reg.stagedSet : Reg → Option Nat
  | .psBaseLo | .psBaseHi | .psSize | .xrecBase | .tscr | .cpCfg => some 0
  | .tbCfg | .synthPeriod | .epCfg | .scRsv => some 1
  | .rqCfg _ | .swSec => some 2
  | .ecSrc _ | .ecCtrl _ | .evoCfg _ | .irqSec => some 3
  | .arbWheel a _ | .arbCfg a => some (if a < 32 then 4 else if a < 64 then 5 else 6)
  | .dspCfg => some 7
  | .sev _ | .rcvCfg => some 8
  | .pol _ => some 9
  | .oppR _ => some 10
  | _ => none

/-- The RWS or plain RW fields of a register, lowest first. -/
def Reg.flds : Reg → List Fld
  -- RWS
  | .psBaseLo => [⟨16, 16, .any⟩]
  | .psBaseHi => [⟨0, 32, .any⟩]
  | .psSize => [⟨0, 17, .range 0 65536⟩]
  | .xrecBase => [⟨0, 1, .any⟩, ⟨18, 14, .any⟩]
  | .tscr => [⟨0, 4, .range 0 8⟩, ⟨16, 16, .any⟩]
  | .cpCfg => [⟨0, 1, .any⟩, ⟨1, 1, .any⟩]
  | .tbCfg => [⟨0, 8, .range 1 64⟩, ⟨8, 4, .range 1 15⟩, ⟨12, 4, .range 1 15⟩, ⟨16, 11, .range 16 1024⟩, ⟨31, 1, .any⟩]
  | .synthPeriod => [⟨0, 22, .range 1024 0x3FFFFE⟩]
  | .epCfg => [⟨0, 11, .range 1 1024⟩, ⟨16, 16, .range 1 65535⟩]
  | .scRsv => [⟨0, 6, .range 0 32⟩]
  | .rqCfg _ => [⟨0, 2, .any⟩, ⟨2, 1, .any⟩, ⟨3, 1, .any⟩, ⟨4, 8, .any⟩, ⟨14, 10, .any⟩]
  | .swSec => [⟨0, 16, .any⟩]
  | .ecSrc _ => [⟨0, 8, .any⟩, ⟨8, 8, .any⟩, ⟨16, 8, .any⟩, ⟨24, 8, .any⟩]
  | .ecCtrl _ => [⟨0, 4, .any⟩, ⟨8, 5, .any⟩, ⟨13, 1, .any⟩, ⟨14, 6, .any⟩, ⟨20, 1, .any⟩, ⟨21, 1, .any⟩, ⟨22, 1, .any⟩,
      ⟨23, 1, .any⟩, ⟨24, 8, .any⟩]
  | .evoCfg _ => [⟨0, 2, .upTo 2⟩, ⟨2, 8, .any⟩]
  | .irqSec => [⟨0, 32, .any⟩]
  | .arbWheel a _ => wheelFlds (arbReqs a)
  | .arbCfg _ => [⟨16, 8, .range 8 255⟩, ⟨24, 8, .range 4 255⟩]
  | .dspCfg => [⟨0, 1, .any⟩, ⟨1, 1, .any⟩, ⟨16, 16, .any⟩]
  | .sev _ => nibbles 8 (.upTo 4)
  | .rcvCfg => [⟨12, 4, .range 2 15⟩, ⟨16, 8, .any⟩, ⟨24, 8, .range 1 255⟩]
  | .pol _ => [⟨16, 8, .any⟩, ⟨28, 1, .any⟩, ⟨29, 1, .any⟩, ⟨30, 2, .upTo 2⟩]
  | .oppR s => (if s = 0 then [] else [⟨8, 8, .any⟩]) ++ [⟨16, 3, .upTo 4⟩]
  -- RW
  | .catSel _ | .dspSel => [⟨0, 12, .any⟩]
  | .avSel _ => [⟨2, 18, .any⟩]
  | .lateMargin => [⟨0, 16, .range 64 65535⟩]
  | .scAnchLo _ | .scAnchHi _ | .irqMask | .lgSel | .lgSwLo | .lgSwHi | .loadAddrHi | .loadGal | .imgN | .imgNew
  | .scrHi | .alarmLo | .alarmHi => [⟨0, 32, .any⟩]
  | .irqCoal _ => [⟨0, 8, .range 1 255⟩, ⟨16, 16, .any⟩]
  | .keySel _ => [⟨0, 10, .any⟩]
  | .tpCfg => [⟨0, 4, .any⟩, ⟨4, 4, .any⟩]
  | .sbpCfg => [⟨0, 1, .any⟩, ⟨1, 1, .any⟩, ⟨2, 1, .any⟩]
  | .nsDeny => [⟨0, 8, .any⟩, ⟨31, 1, .any⟩]
  | .dbgCfg => [⟨31, 1, .any⟩]
  | .tmCtrl => [⟨0, 1, .any⟩]
  | .tempLim => [⟨0, 12, .any⟩]
  | .lgRate => [⟨0, 16, .range 1 65535⟩, ⟨16, 8, .range 1 255⟩, ⟨24, 8, .range 1 255⟩]
  | .loadAddrLo => [⟨8, 24, .any⟩]
  | .loadCtrl => [⟨0, 1, .any⟩, ⟨24, 4, .upTo 9⟩]
  | .svnMin => [⟨0, 16, .any⟩]
  | .docCfg => [⟨8, 8, .any⟩, ⟨28, 1, .any⟩, ⟨29, 1, .any⟩, ⟨30, 1, .any⟩, ⟨31, 1, .any⟩]
  | .rotCfg => [⟨8, 8, .any⟩, ⟨16, 8, .range 1 255⟩, ⟨24, 8, .any⟩]
  | .scrubCfg => [⟨0, 4, .any⟩, ⟨4, 4, .any⟩, ⟨12, 4, .any⟩, ⟨16, 4, .any⟩, ⟨20, 4, .any⟩, ⟨24, 4, .any⟩, ⟨28, 4, .any⟩]
  | .scrLo => [⟨0, 4, .upTo 7⟩, ⟨4, 1, .any⟩, ⟨13, 19, .any⟩]
  | .fltCtrl => [⟨0, 2, .any⟩, ⟨2, 1, .any⟩]
  | .injSel => [⟨8, 8, .any⟩, ⟨16, 9, .any⟩]
  | .injCtrl => [⟨28, 2, .any⟩]
  | .domCtrl _ => [⟨30, 2, .any⟩]
  | .engCtrl _ => [⟨0, 1, .any⟩]
  | .portCfg p => [⟨0, 10, .range 1 (if p < 8 then 512 else if p < 12 then 256 else if p < 14 then 64 else 128)⟩,
      ⟨16, 8, .range 1 255⟩, ⟨24, 8, .range 1 255⟩]
  | .arbPrio a k => nibbles (min 8 (arbReqs a - 8 * k)) .any
  | .linkCtrl _ => [⟨8, 8, .range 4 255⟩, ⟨16, 8, .range 1 255⟩, ⟨28, 2, .maxver⟩, ⟨31, 1, .any⟩]
  | .rxCfg _ => [⟨0, 1, .any⟩, ⟨8, 8, .any⟩, ⟨16, 12, .any⟩, ⟨31, 1, .any⟩]
  | _ => []

/-- The word stored when `v` is written over `old`: every field checked, every other bit kept (R13, R43, R503). -/
def storeFlds (fs : List Fld) (old v : Word) : Word :=
  fs.foldl (fun w f => setFld w f.lsb f.wid (f.stored (fld old f.lsb f.wid) (fld v f.lsb f.wid))) old

/-! ## Straps (Table 13-6) -/

def Straps.wings (s : Word) : Nat := fld s 0 2 + 1
def Straps.wakeAddr (s : Word) : Nat := fld s 2 7
def Straps.csBoot (s : Word) : Nat := if fld s 9 2 = 3 then 0 else fld s 9 2
def Straps.bootBase (s : Word) : Nat := fld s 11 8
def Straps.secDef (s : Word) : Bool := bit s 19
def Straps.oppDef (s : Word) : Nat := fld s 20 2
def Straps.tbMode (s : Word) : Bool := bit s 22
def Straps.fltMode (s : Word) : Nat := fld s 23 2
def Straps.sevProfile (s : Word) : Nat := fld s 25 2

/-- STRAP_ERR (R484). -/
def Straps.err (s : Word) : Bool :=
  fld s 27 5 ≠ 0 || Straps.wakeAddr s < 8 || 0x78 ≤ Straps.wakeAddr s || fld s 9 2 = 3

/-- Table 16-1: the severity of a source under profile 0, 1, 2, 3 (codes of Table 16-2: S 0, N 1, M 2, A 3, F 4). -/
def sevRow (n : Nat) : List Nat :=
  if n < 128 then [2, 1, 3, 3]            -- ENG, CS, XU, GARB
  else if n < 160 then [1, 0, 1, 1]       -- GCE
  else if n < 164 then [3, 2, 3, 3]       -- WARB
  else if n < 168 then [2, 1, 3, 3]       -- VIT
  else if n < 172 then [1, 0, 2, 3]       -- ECACHE
  else if n < 176 then [1, 0, 1, 1]       -- WCE
  else if n < 198 then [3, 3, 3, 3]       -- MP, HP, PP, CP
  else if n < 230 then [3, 2, 3, 3]       -- SL
  else if n < 234 then [1, 0, 2, 3]       -- SLG
  else if n < 242 then [2, 1, 3, 3]       -- SCMP
  else if n < 250 then [1, 0, 2, 3]       -- DLY
  else if n = 250 then [3, 3, 3, 3]       -- TPLL
  else if n = 251 then [1, 0, 1, 3]       -- TBI
  else if n = 252 then [1, 0, 1, 1]       -- CAT_CE
  else if n < 257 then [4, 4, 4, 4]       -- CAT_UE, WQM, WQM_BITE, EVC
  else if n = 257 then [3, 3, 4, 4]       -- KEY
  else if n = 258 then [1, 0, 1, 1]       -- KEY_CE
  else if n < 264 then [4, 4, 4, 4]       -- HUB_REQ, HUB_RSP, HUB_REL, FCR, DOC
  else if n = 264 then [3, 2, 3, 3]       -- DOC_TMO
  else if n = 265 then [3, 3, 3, 3]       -- PMI
  else if n = 266 then [4, 4, 4, 4]       -- PCM_SEQ
  else if n = 267 then [3, 3, 4, 4]       -- CLOAK_UE
  else if n = 268 then [1, 0, 1, 1]       -- CLOAK_CE
  else if n = 269 then [1, 0, 1, 3]       -- LEDGER
  else if n = 270 then [4, 4, 4, 4]       -- STG
  else if n < 281 then [3, 3, 3, 3]       -- CPLL, WPLL, SPLL, LOADER
  else if n < 283 then [1, 0, 1, 3]       -- TP, SBP
  else [3, 3, 3, 3]                       -- ISO

/-- The reset severity of a source (R545). -/
def sevReset (straps : Word) (n : Nat) : Nat := (sevRow n).getD (Straps.sevProfile straps) 0

/-- Reset values of PCM.WAKE_TAB (Table 18-10). -/
def wakeTabReset (c : Nat) : Word :=
  [0x14780A00, 0x32780A02, 0x28640C00, 0x64640C2E, 0x0A500600, 0x1E500602, 0x05010300, 0x14010301, 0x0AC80B00,
   0x28C80B01].getD c 0

/-- The reset value of a register's RW and RWS fields. -/
def Reg.rst (straps : Word) : Reg → Word
  | .tbCfg => packW [(31, b2n (Straps.tbMode straps)), (16, 0x200), (12, 4), (8, 2), (0, 8)]
  | .synthPeriod => 0x56CE
  | .epCfg => 0x00010001
  | .rqCfg _ => 0x100
  | .ecCtrl _ => packW [(23, b2n (Straps.secDef straps))]
  | .evoCfg _ => 0xC
  | .irqSec => if Straps.secDef straps then 0xFFFFFFFF else 0
  | .cpCfg => packW [(1, b2n (Straps.secDef straps))]
  | .arbWheel a k => if k = 15 then (if a < 32 then 0x91000000 else if a < 64 then 0x8A000000 else 0x85000000) else 0
  | .arbCfg _ => 0x40400000
  | .dspCfg => 0x00640001
  | .sev k => packW ((upTo 8).map (fun i => (4 * i, sevReset straps (8 * k + i))))
  | .rcvCfg => 0x643C4000
  | .pol d => if d < 3 then 0x30640000 else if d < 7 then 0x70140000 else if d < 39 then 0x70020000 else 0x70640000
  | .oppR s => packW ([(16, Straps.oppDef straps)] ++ (if s = 0 then [] else [(8, 0x0F)]))
  | .lateMargin => 0x40
  | .irqCoal _ => 1
  | .sbpCfg => 1
  | .tempLim => 0x1E0
  | .lgRate => 0x041003E8
  | .docCfg => 0xF0003F00
  | .rotCfg => 0x18643C00
  | .scrubCfg => 0xA7A7AADA
  | .fltCtrl => packW [(0, Straps.fltMode straps)]
  | .portCfg p => packW [(24, 0x10), (16, 8), (0, if p < 8 then 512 else if p < 12 then 256 else if p < 14 then 64 else 128)]
  | .linkCtrl _ => 0x20101400
  | .rxCfg _ => 0x00000801
  | _ => 0

/-- Security classes (Table 19-1). -/
inductive SecCls where
  | nsRead | open_ | secure
  deriving DecidableEq, Repr

/-- The security class of a register (Table 19-1, R661). -/
def Reg.cls : Reg → SecCls
  | .id | .version | .gstat | .strapsR | .feat0 => .nsRead
  | .tpCfg | .sbpCfg | .nsDeny | .dbgCfg | .lgCtrl | .lgSeedOpt | .lgSeedPwr => .secure
  | .lgHead | .lgStat | .lgSel | .lgRate | .lgOpt | .lgPwr | .lgData _ => .nsRead
  | .tmCtrl | .tempLim | .tempStat | .tmLo _ | .tmHi _ | .sns _ | .age _ => .nsRead
  | .tpStat | .tpDiscAddr | .aoDisc => .nsRead
  | .loadAddrLo | .loadAddrHi | .loadGal | .loadCtrl | .loadStat | .loadOk | .svnMin | .imgN | .imgNew => .nsRead
  | .csCtrl _ | .csId _ _ | .csInfo _ _ => .nsRead
  | .slotMap _ | .slotR _ _ => .nsRead
  | .feStat | .feInfo | .feAddrLo | .feAddrHi | .feTimeLo | .feTimeHi | .fcrStat | .fltCtrl | .rcvCfg | .rcvCnt
  | .capStat | .injSel | .injCtrl | .fcrPend _ | .sev _ | .srcCnt _ => .nsRead
  | .docCfg | .docStat | .docLast | .docCmd | .docTest _ | .rotCfg | .rotStat | .scrubCfg | .scrubStat | .scrLo
  | .scrHi => .nsRead
  | _ => .open_

/-- The NS_DENY group of a register (Table 19-2). -/
def Reg.denyGroup : Reg → Option Nat
  | .dspCfg | .dspSel | .dspStat | .dspEhome | .arbCfg _ | .arbStat _ | .arbPrio _ _ | .arbWheel _ _ => some 0
  | .timeLo | .timeHi | .angleLo | .angleHi | .tbCfg | .tbStat | .synthPeriod | .lateMargin | .wedgePeriod | .revPeriod
  | .epochCnt _ | .epCfg | .epStrobe | .scRsv | .scCtrl _ | .scAnchLo _ | .scAnchHi _ => some 1
  | .rqCfg _ | .rqStat _ | .swRaise | .swSec | .haltQ | .irqPend | .irqMask | .irqSec | .irqCoal _ | .irqCnt _
  | .evoCfg _ | .evoMrg _ | .ecSrc _ | .ecCtrl _ | .ecCnt _ | .subR _ | .subStat _ => some 2
  | .linkCtrl _ | .linkStatus _ | .rxCfg _ | .rxCmd _ | .rxLevel _ | .rxRcvd _ | .slErrCnt _ | .stqHdr _ | .stqPos _
  | .stqData _ _ => some 3
  | .portCfg _ | .portOutst _ | .portStat _ | .errAddrLo _ | .errAddrHi _ | .errInfo _ => some 4
  | .commit | .clampStat | .avSel _ => some 5
  | .psBaseLo | .psBaseHi | .psSize | .xrecBase | .tscr | .cpCfg => some 6
  | .pol _ | .oppR _ => some 7
  | _ => none

/-- The domain judged at step 5 of Table 20-2: TBS, a wing, a gallery or an SLG domain (Table 18-1). -/
def Reg.dom : Reg → Option Nat
  | .timeLo | .timeHi | .angleLo | .angleHi | .tbCfg | .tbStat | .synthPeriod | .lateMargin | .wedgePeriod | .revPeriod
  | .epochCnt _ | .epCfg | .epStrobe | .scRsv | .scCtrl _ | .scAnchLo _ | .scAnchHi _ => some 1
  | .portCfg p | .portOutst p | .portStat p | .errAddrLo p | .errAddrHi p | .errInfo p =>
    if p < 8 then some (3 + p / 2) else none
  | .arbCfg a | .arbStat a | .arbPrio a _ | .arbWheel a _ =>
    if a < 32 then some (7 + a) else if a < 64 then some (3 + (a - 32))
    else if a < 72 then some (3 + (a - 64) / 2) else if 96 ≤ a then some (39 + (a - 96) / 8) else none
  | .linkCtrl l | .linkStatus l | .rxCfg l | .rxCmd l | .rxLevel l | .rxRcvd l | .slErrCnt l | .stqHdr l | .stqPos l
  | .stqData l _ => some (39 + l / 8)
  | .csCtrl g | .csId g _ | .csInfo g _ | .engCtrl g | .slotMap g | .slotR g _ | .gbStat g _ | .engStat g _
  | .gbLo g _ _ | .gbHi g _ _ => some (7 + g)
  | _ => none

end Sys2Proof.Machine
end

