-- ==== Sys2Proof/Machine/State.lean ====
section
/-! DEFINITION. State: everything the spec gives the block, as plain data, with the queue of waiting commands. -/

namespace Sys2Proof.Machine

/-- The machine. Tables are keyed by instance number: channels 0 to 4095, engines by gallery × 17 + slot, arbiters by
`ArbId` code, ports and links by INST or link number, lines by address divided by 64, domains by Table 18-1, registers
by TP address. -/
structure State where
  /-- Resets, straps, debug and test pins (13). -/
  boot : Boot := {}
  /-- The time base (07). -/
  tbs : Tbs := {}
  /-- The Catalogue's channels (02). -/
  chans : Tbl Chan := []
  /-- Catalogue windows (R40, R660). -/
  wins : Tbl CatWin := []
  /-- Engine slots (03 to 06). -/
  engs : Tbl Engine := []
  /-- Galleries (15, 17). -/
  gals : Tbl Gal := []
  /-- The remap (17). -/
  slots : Tbl Slot := []
  /-- The Concourse (08). -/
  evc : Evc := {}
  /-- Stream Links (09). -/
  links : Tbl Link := []
  /-- Arbiters (10). -/
  arbs : Tbl Arb := []
  /-- Manager ports (12). -/
  ports : Tbl Port := []
  /-- Transactions that hold a pool entry or wait at their first arbiter (R37), oldest first. -/
  txns : List Txn := []
  /-- Number of the next transaction. -/
  nextTxn : Nat := 0
  /-- Lines the Vitrine holds (12), by address divided by 64. -/
  lines : Tbl VLine := []
  /-- The coherent ports evict every line before new settings serve (R461). -/
  vitFlush : Bool := false
  /-- CP_CFG as it was before those settings, while the evictions run (R461). -/
  vitOld : Word := 0
  /-- Vitrine slices and engine-array units FCR has cordoned: wing slices (Table 16-5). -/
  sliceCord : Tbl Bool := []
  /-- Dispatch status (10). -/
  dsp : Tbl Dsp := []
  /-- Plain RW registers by TP address, where they differ from their reset values. -/
  rw : Tbl Word := []
  /-- Holding registers of the _LO/_HI pairs by the address of _LO (R657). -/
  hold : Tbl Word := []
  /-- Staging and applied copies, COMMIT, the clamp log (14). -/
  stage : Staging := {}
  /-- The control store loader (15). -/
  loader : Loader := {}
  /-- Key slots and key load windows (06). -/
  keys : Tbl KeySlot := []
  keyWins : Tbl KeyWin := []
  /-- FCR (16), Docent (17), domains and PCM (18). -/
  fcr : Fcr := {}
  doc : Doc := {}
  doms : Tbl Dom := []
  pcm : Pcm := {}
  /-- The Ledger, SBP, telemetry and the rest of MST (19, 20). -/
  ledger : Ledger := {}
  sbp : Sbp := {}
  mst : Mst := {}
  /-- The last answers given on TP and on SNPRSP, and the last trace word emitted on DBG (R496). -/
  resp : Option Resp := none
  snpRsp : Option SnpRsp := none
  trace : Option DWord := none
  /-- The model's own: how many free values have been drawn. -/
  fresh : Nat := 0
  /-- Commands waiting, first in, first out. -/
  pending : List Instr := []
  deriving DecidableEq, Repr

/-- Why the machine stops with a fault. -/
inductive Fault where
  /-- Raised by a meaning whose spec text gives no effect at all: functional behaviour while `tst_mode` is high is
  undefined (R498). Safe. -/
  | testOperation
  deriving DecidableEq, Repr

/-- Why the machine has no meaning for a command. -/
inductive Refusal where
  /-- The command has no meaning in the model yet. Safe. -/
  | notModelled (mnemonic : String)
  deriving DecidableEq, Repr

/-- The machine right after `rst_ao_n` has been released and while `rst_n` is still asserted (R481, R482, R644):
every register at the value its reset column gives, straps not yet latched, the Ledger holding LEDGER_START as SEQ 1, its TIME projected because TBS is not ON. -/
def State.reset : State :=
  { ledger := { head := 1, recs := [(0, { seq := 1, code := 0x0001, flags := 0x10 })] },
    doms := [(0, { st := .on, target := .on })],
    slots := [] }

end Sys2Proof.Machine
end

