-- ==== Sys2Proof/Machine/Ops.lean ====
section
/-! DEFINITION. Ops: the named reads and updates of the state that every meaning uses. -/

namespace Sys2Proof.Machine

/-- The answer of a meaning: functional behaviour while `tst_mode` is high is undefined (R498). -/
def act (s t : State) : Host.Outcome State Fault Refusal :=
  if s.boot.tstMode then .fault .testOperation else .next t

/-- Ticks in a microsecond (R22). -/
def ticksUs : Nat := 1600

/-- Ticks in 1 ms. -/
def ticksMs : Nat := 1000 * ticksUs

/-! ## Instances -/

/-- A channel context at its reset values (R47): SEC takes the strap. -/
def chanRst (straps : Word) : Chan := { ctrl := if Straps.secDef straps then 0x00400000 else 0 }

/-- Channel `n`. -/
def State.chan (s : State) (n : BitVec 12) : Chan := Tbl.get (chanRst s.boot.straps) s.chans n.toNat

/-- Set channel `n`. -/
def State.setChan (s : State) (n : BitVec 12) (c : Chan) : State :=
  { s with chans := Tbl.put (chanRst s.boot.straps) s.chans n.toNat c }

/-- Change channel `n`. -/
def State.modChan (s : State) (n : BitVec 12) (f : Chan → Chan) : State := s.setChan n (f (s.chan n))

/-- Key of an engine slot. -/
def engIdx (e : EngId) : Nat := e.g.toNat * 17 + e.slot.val

/-- The engine slot of a key. -/
def engOf (k : Nat) : EngId := { g := BitVec.ofNat 5 (k / 17), slot := ⟨k % 17, Nat.mod_lt _ (by decide)⟩ }

/-- Engine slot `e`. -/
def State.eng (s : State) (e : EngId) : Engine := Tbl.get {} s.engs (engIdx e)

/-- Set engine slot `e`. -/
def State.setEng (s : State) (e : EngId) (x : Engine) : State := { s with engs := Tbl.put {} s.engs (engIdx e) x }

/-- Change engine slot `e`. -/
def State.modEng (s : State) (e : EngId) (f : Engine → Engine) : State := s.setEng e (f (s.eng e))

/-- Gallery `g`. -/
def State.gal (s : State) (g : Nat) : Gal := Tbl.get {} s.gals g

/-- Change gallery `g`. -/
def State.modGal (s : State) (g : Nat) (f : Gal → Gal) : State := { s with gals := Tbl.put {} s.gals g (f (s.gal g)) }

/-- A slot of the remap at reset: slot 16 is the spare (Table 17-7). -/
def slotRst (k : Nat) : Slot := if k % 17 = 16 then { st := .spare } else {}

/-- Remap entry of slot `e`. -/
def State.slot (s : State) (e : EngId) : Slot := Tbl.get (slotRst (engIdx e)) s.slots (engIdx e)

/-- Change the remap entry of slot `e`. -/
def State.modSlot (s : State) (e : EngId) (f : Slot → Slot) : State :=
  { s with slots := Tbl.put (slotRst (engIdx e)) s.slots (engIdx e) (f (s.slot e)) }

/-- Link `l`. -/
def State.link (s : State) (l : BitVec 5) : Link := Tbl.get {} s.links l.toNat

/-- Set link `l`. -/
def State.setLink (s : State) (l : BitVec 5) (x : Link) : State := { s with links := Tbl.put {} s.links l.toNat x }

/-- Change link `l`. -/
def State.modLink (s : State) (l : BitVec 5) (f : Link → Link) : State := s.setLink l (f (s.link l))

/-- Key of an arbiter: 0 to 31 galleries, 32 to 35 wings, 64 + INST ports and links. -/
def arbIdx : ArbId → Nat
  | .gal g => g.toNat
  | .wing w => 32 + w.toNat
  | .port p => 64 + p.toNat

/-- Arbiter of key `a`. -/
def State.arb (s : State) (a : Nat) : Arb := Tbl.get {} s.arbs a

/-- Change the arbiter of key `a`. -/
def State.modArb (s : State) (a : Nat) (f : Arb → Arb) : State := { s with arbs := Tbl.put {} s.arbs a (f (s.arb a)) }

/-- Port with INST code `p`. -/
def State.port (s : State) (p : Nat) : Port := Tbl.get {} s.ports p

/-- Change port `p`. -/
def State.modPort (s : State) (p : Nat) (f : Port → Port) : State := { s with ports := Tbl.put {} s.ports p (f (s.port p)) }

/-- Domain `d`. -/
def State.dom (s : State) (d : Nat) : Dom := Tbl.get {} s.doms d

/-- Change domain `d`. -/
def State.modDom (s : State) (d : Nat) (f : Dom → Dom) : State := { s with doms := Tbl.put {} s.doms d (f (s.dom d)) }

/-- Whether domain `d` is ON (R606). -/
def State.domOn (s : State) (d : Nat) : Bool := (s.dom d).st == .on

/-- Whether CORE is ON. -/
def State.coreOn (s : State) : Bool := s.domOn 2

/-- Comparator pair `n`. -/
def State.pair (s : State) (n : Nat) : Pair := Tbl.get {} s.tbs.pairs n

/-- Change comparator pair `n`. -/
def State.modPair (s : State) (n : Nat) (f : Pair → Pair) : State :=
  { s with tbs := { s.tbs with pairs := Tbl.put {} s.tbs.pairs n (f (s.pair n)) } }

/-- Software comparator `n`. -/
def State.sc (s : State) (n : Nat) : SwCmp := Tbl.get {} s.tbs.sc n

/-- Change software comparator `n`. -/
def State.modSc (s : State) (n : Nat) (f : SwCmp → SwCmp) : State :=
  { s with tbs := { s.tbs with sc := Tbl.put {} s.tbs.sc n (f (s.sc n)) } }

/-- Request line `n`. -/
def State.rq (s : State) (n : Nat) : RqLine := Tbl.get {} s.evc.rq n

/-- Change request line `n`. -/
def State.modRq (s : State) (n : Nat) (f : RqLine → RqLine) : State :=
  { s with evc := { s.evc with rq := Tbl.put {} s.evc.rq n (f (s.rq n)) } }

/-- Subscription `j`. -/
def State.sub (s : State) (j : Nat) : Sub := Tbl.get {} s.evc.subs j

/-- Change subscription `j`. -/
def State.modSub (s : State) (j : Nat) (f : Sub → Sub) : State :=
  { s with evc := { s.evc with subs := Tbl.put {} s.evc.subs j (f (s.sub j)) } }

/-- Event output line `m`. -/
def State.evo (s : State) (m : Nat) : Evo := Tbl.get {} s.evc.evo m

/-- Change event output line `m`. -/
def State.modEvo (s : State) (m : Nat) (f : Evo → Evo) : State :=
  { s with evc := { s.evc with evo := Tbl.put {} s.evc.evo m (f (s.evo m)) } }

/-- Interrupt line `i`. -/
def State.irq (s : State) (i : Nat) : Irq := Tbl.get {} s.evc.irq i

/-- Change interrupt line `i`. -/
def State.modIrq (s : State) (i : Nat) (f : Irq → Irq) : State :=
  { s with evc := { s.evc with irq := Tbl.put {} s.evc.irq i (f (s.irq i)) } }

/-- The Vitrine's line of address × 1/64. -/
def State.line (s : State) (l : Nat) : VLine := Tbl.get {} s.lines l

/-- Change a line. -/
def State.modLine (s : State) (l : Nat) (f : VLine → VLine) : State :=
  { s with lines := Tbl.put {} s.lines l (f (s.line l)) }

/-- Dispatch status of channel `n`. -/
def State.dspOf (s : State) (n : BitVec 12) : Dsp := Tbl.get {} s.dsp n.toNat

/-- Change the dispatch status of channel `n`. -/
def State.modDsp (s : State) (n : BitVec 12) (f : Dsp → Dsp) : State :=
  { s with dsp := Tbl.put {} s.dsp n.toNat (f (s.dspOf n)) }

/-- Supply `x`: 0 core, 1 to 4 wings, 5 to 8 Stream Link groups. -/
def State.sup (s : State) (x : Nat) : Supply := Tbl.get {} s.pcm.sup x

/-- Change supply `x`. -/
def State.modSup (s : State) (x : Nat) (f : Supply → Supply) : State :=
  { s with pcm := { s.pcm with sup := Tbl.put {} s.pcm.sup x (f (s.sup x)) } }

/-- Clock request `c`. -/
def State.clk (s : State) (c : Nat) : ClkReq := Tbl.get {} s.pcm.clk c

/-- Change clock request `c`. -/
def State.modClk (s : State) (c : Nat) (f : ClkReq → ClkReq) : State :=
  { s with pcm := { s.pcm with clk := Tbl.put {} s.pcm.clk c (f (s.clk c)) } }

/-- Key slot `k`. -/
def State.key (s : State) (k : Nat) : KeySlot := Tbl.get {} s.keys k

/-- Set key slot `k`. -/
def State.setKey (s : State) (k : Nat) (x : KeySlot) : State := { s with keys := Tbl.put {} s.keys k x }

/-- Key load window `i`. -/
def State.keyWin (s : State) (i : Nat) : KeyWin := Tbl.get {} s.keyWins i

/-- Change key load window `i`. -/
def State.modKeyWin (s : State) (i : Nat) (f : KeyWin → KeyWin) : State :=
  { s with keyWins := Tbl.put {} s.keyWins i (f (s.keyWin i)) }

/-- Catalogue window `i`. -/
def State.win (s : State) (i : Nat) : CatWin := Tbl.get {} s.wins i

/-- Change Catalogue window `i`. -/
def State.modWin (s : State) (i : Nat) (f : CatWin → CatWin) : State :=
  { s with wins := Tbl.put {} s.wins i (f (s.win i)) }

/-! ## Register copies -/

/-- The applied copy of an RWS register (R500). -/
def State.app (s : State) (r : Reg) : Word := Tbl.get (r.rst s.boot.straps) s.stage.app r.addr

/-- The staging copy of an RWS register. -/
def State.stg (s : State) (r : Reg) : Word := Tbl.get (r.rst s.boot.straps) s.stage.stg r.addr

/-- Set the applied copy. -/
def State.setApp (s : State) (r : Reg) (v : Word) : State :=
  { s with stage := { s.stage with app := Tbl.put (r.rst s.boot.straps) s.stage.app r.addr v } }

/-- Set the staging copy. -/
def State.setStg (s : State) (r : Reg) (v : Word) : State :=
  { s with stage := { s.stage with stg := Tbl.put (r.rst s.boot.straps) s.stage.stg r.addr v } }

/-- A plain RW register. -/
def State.reg (s : State) (r : Reg) : Word := Tbl.get (r.rst s.boot.straps) s.rw r.addr

/-- Set a plain RW register. -/
def State.setReg (s : State) (r : Reg) (v : Word) : State :=
  { s with rw := Tbl.put (r.rst s.boot.straps) s.rw r.addr v }

/-! ## Fault sources (R544) -/

/-- Source `n` is stuck. -/
def srcStuck (s : State) (n : Nat) : Bool := Tbl.get false s.fcr.stuck n

/-- Comparator pair `n` is cordoned: by a verdict still to come, or by a stuck SCMP or DLY source. -/
def pairCordoned (s : State) (n : Nat) : Bool := (s.pair n).cordoned || srcStuck s (234 + n / 8) || srcStuck s (242 + n / 8)

/-- Vitrine slice `w` is cordoned. -/
def sliceCorded (s : State) (w : Nat) : Bool := Tbl.get false s.sliceCord w || srcStuck s (164 + w)

/-- Wing `w`'s arbiter is out: by a cordon, or by a stuck WARB source (R544, Table 10-8). -/
def wingOut (s : State) (w : Nat) : Bool := !(s.arb (32 + w)).cordoned.isEmpty || srcStuck s (160 + w)

/-- The slots of gallery `g` that count toward its 16 (R578). -/
def inService (s : State) (g : Nat) : Nat :=
  ((upTo 17).filter (fun k =>
    let t := (s.slot (engOf (g * 17 + k))).st
    t == .service || t == .draining)).length

/-- Gallery `g` is cordoned: by FCR, by a stuck source, or because no engine is in service (R544, R564). -/
def galCordoned (s : State) (g : Nat) : Bool :=
  !(s.gal g).cordonedBy.isEmpty || srcStuck s g || srcStuck s (64 + g) || srcStuck s (96 + g) || inService s g == 0

/-- Engines in service: those of the populated galleries that are not cordoned (R572). -/
def engsInService (s : State) : Nat :=
  (((upTo 32).filter (fun g => decide (g / 8 < Straps.wings s.boot.straps) && !galCordoned s g)).map (inService s)).sum

/-- Populated galleries that are cordoned. -/
def galsCordoned (s : State) : Nat :=
  ((upTo 32).filter (fun g => decide (g / 8 < Straps.wings s.boot.straps) && galCordoned s g)).length

/-- AES pipeline `p` of gallery `g` is in service. -/
def pipeOk (s : State) (g : Nat) (p : Bool) : Bool := !(if p then (s.gal g).pipe1 else (s.gal g).pipe0)

/-! ## Channel words (Tables 2-1 to 2-5) -/

def Chan.alloc (c : Chan) : Bool := bit c.ctrl 0
def Chan.en (c : Chan) : Bool := bit c.ctrl 1
def Chan.haltOnErr (c : Chan) : Bool := bit c.ctrl 3
def Chan.ntErr (c : Chan) : Bool := bit c.ctrl 4
def Chan.prio (c : Chan) : Nat := fld c.ctrl 12 4
def Chan.imgClass (c : Chan) : Nat := fld c.ctrl 20 2
def Chan.sec (c : Chan) : Bool := bit c.ctrl 22
def Chan.ownChk (c : Chan) : Bool := bit c.ctrl 23
def Chan.owner (c : Chan) : Byte := BitVec.ofNat 8 (fld c.ctrl 24 8)
def Chan.wrSize (c : Chan) : Nat := fld c.ringCfg 0 4
def Chan.wrPort (c : Chan) : Nat := fld c.ringCfg 4 4
def Chan.ntSize (c : Chan) : Nat := fld c.ringCfg 16 4
def Chan.ntPort (c : Chan) : Nat := fld c.ringCfg 20 4
def Chan.mirPort (c : Chan) : Nat := fld c.ringCfg 24 4
def Chan.mirEn (c : Chan) : Bool := bit c.mir 0
def Chan.stkLo (c : Chan) : Nat := fld c.stk 0 16
def Chan.stkHi (c : Chan) : Nat := fld c.stk 16 16
/-- Ticks of the automatic checkpoint interval (Table 3-7). -/
def Chan.ckTicks (c : Chan) : Nat := fld c.ckptCfg 16 16 * 16
/-- Bytes of the automatic checkpoint interval. -/
def Chan.ckBytes (c : Chan) : Nat := fld c.ckptCfg 0 8 * 256

/-- A notice slot is free (R65). -/
def Chan.slotFree (c : Chan) : Bool := decide ((c.ntTail.toNat + c.reserved + 65536 - c.ntHead.toNat) % 65536 < 2 ^ c.ntSize)

/-- The state after a resumption or a completion (Table 2-7): ARMED, or DRAINING if EN = 0. -/
def Chan.armedOr (c : Chan) : ChState := if c.en then .armed else .draining

/-! ## Topology (R7, R26, Table 18-1) -/

/-- Populated wings. -/
def State.wings (s : State) : Nat := Straps.wings s.boot.straps

/-- Whether gallery `g` is populated. -/
def State.galPop (s : State) (g : Nat) : Bool := decide (g / 8 < s.wings)

/-- Populated galleries a home set selects. -/
def homeSet (s : State) (home : Word) : List Nat := (upTo 32).filter (fun g => bit home g && s.galPop g)

/-- Program space (R98). -/
def State.psBase (s : State) : DWord := BitVec.ofNat 64 ((s.app .psBaseHi).toNat * 2 ^ 32 + fld (s.app .psBaseLo) 16 16 * 65536)
def State.psSize (s : State) : Nat := fld (s.app .psSize) 0 17 * 65536

/-- The template scratch area (R272): offset and size. -/
def State.tscrBase (s : State) : Nat := fld (s.app .tscr) 16 16 * 65536
def State.tscrSize (s : State) : Nat := fld (s.app .tscr) 0 4 * 65536

/-- Tick time now. -/
def State.now (s : State) : DWord := s.tbs.time

/-- Draw a free value. -/
def State.draw (s : State) : DWord × State := (Config.free s.fresh, { s with fresh := s.fresh + 1 })

/-- Bytes of free value (log entry 3). -/
def drawBytes : Nat → State → List Byte × State
  | 0, s => ([], s)
  | n + 1, s =>
    let (v, s1) := s.draw
    let (l, s2) := drawBytes n s1
    (BitVec.ofNat 8 v.toNat :: l, s2)

/-! ## Telemetry, trace, tick time -/

/-- Add `n` to telemetry counter `k`, which CORE keeps; nothing counts while CORE is OFF (R652). -/
def tmAdd (k n : Nat) (s : State) : State :=
  if (s.dom 2).st = .off then s
  else { s with mst := { s.mst with tm := Tbl.put 0 s.mst.tm k (Tbl.get 0 s.mst.tm k + BitVec.ofNat 64 n) } }

/-- Happenings are traced: `sec` says that the happening is of a secure channel. The shell, or the hold values at CORE's boundary, keep
`dbg_trc_valid` low (R486, R491, R496, R628). -/
def traceOn (s : State) (sec : Bool) : Bool :=
  bit (s.reg .dbgCfg) 31 && (!sec || s.boot.dbgSecEn) && !s.boot.shellIso && !(s.dom 2).hold

/-- Emit or drop a trace word (R496). -/
def traceWord (kind : Nat) (ch : BitVec 12) (e : EngId) (sec : Bool) (s : State) : State :=
  if traceOn s sec then
    (if s.boot.trcReady then
      { s with trace := some (BitVec.ofNat 64 (kind * 2 ^ 56 + (if kind = 5 then 0 else ch.toNat) * 2 ^ 44
          + (e.g.toNat * 32 + e.slot.val) * 2 ^ 34 + s.now.toNat % 2 ^ 32)) }
    else { s with mst := { s.mst with trcDrop := satAdd s.mst.trcDrop 1 } })
  else s

/-- The trace word of a happening whose unit is no engine slot, in gallery `g` if it is in one: the rest of ENG is a free value (log
entry 3). -/
def traceAny (kind : Nat) (ch : BitVec 12) (g : Option Nat) (sec : Bool) (s : State) : State :=
  if traceOn s sec then
    (let (v, t) := s.draw
     traceWord kind ch (engOf (g.getD (v.toNat / 17 % 32) * 17 + v.toNat % 17)) sec t)
  else s

/-- Tick time as PCM projects it while TBS is not ON (R281). -/
def State.projTime (s : State) : DWord :=
  if s.domOn 1 then s.now else s.pcm.savedTick + BitVec.ofNat 64 ((s.pcm.aclk * 390625 + 7) / 8)

/-! ## The Ledger writer's queue (R646 to R648) -/

/-- Exempt from the rate limit (R647). -/
def lgExempt (code : Nat) (sev : Nat) : Bool := (1 ≤ code && code ≤ 6) || sev == 4

/-- The rate-limit key of a code: all software codes share one. -/
def lgKey (code : Nat) : Nat := if 0x8000 ≤ code then 0x8000 else code

/-- A record among those of the queue, newest first: behind the records of its own cycle with greater codes, which are those of its
own tick time (R648, log entry 66). -/
def lgInsert (r : LgRec) : List LgRec → List LgRec
  | [] => [r]
  | x :: q => if x.time = r.time ∧ r.code.toNat < x.code.toNat then x :: lgInsert r q else r :: x :: q

/-- A record enters the queue; where 16 stand in it, the last is dropped (R648). -/
def lgEnqueue (code sev : Nat) (inj : Bool) (lo hi : Word) (s : State) : State :=
  let lg := s.ledger
  let r : LgRec := {
    code := BitVec.ofNat 16 code, flags := BitVec.ofNat 8 (sev + 8 * b2n inj + 16 * b2n (!s.domOn 1)),
    time := s.projTime, opTime := lg.opTime, pwrCyc := lg.pwrCyc, dataLo := lo, dataHi := hi }
  let q := (lgInsert r lg.queue.reverse).reverse
  if lg.queue.length < 16 then { s with ledger := { lg with queue := q } }
  else { s with ledger := { lg with queue := q.take 16, drop := satAdd lg.drop 1, dropDue := lg.dropDue + 1 } }

/-- The window's time has passed (R647), by the Ledger's own time: the windows outlive `rst_n`, with which tick time starts again. -/
def lgWinOver (s : State) (w : LgWin) : Bool :=
  decide (fld (s.reg .lgRate) 0 16 * 1000 * ticksUs * 8 ≤ s.ledger.up - w.t0)

/-- The code that a SUPPRESSED record names: for the one window that all software codes share, the spec names none, so a free
value stands for it (log entry 3). -/
def lgSuppCode (k : Nat) (s : State) : Nat × State :=
  if k = 0x8000 then (fld s.draw.1 0 16, s.draw.2) else (k, s)

/-- A rate-limit window closes: SUPPRESSED if it suppressed anything (R647). -/
def lgClose (k : Nat) (m : Nat) (s : State) : State :=
  let t := { s with ledger := { s.ledger with wins := Tbl.put none s.ledger.wins k none } }
  if m = 0 then t
  else let c := lgSuppCode k t; lgEnqueue 3 0 false (BitVec.ofNat 32 c.1) (BitVec.ofNat 32 m) c.2

/-- A window opens with the record that opens it (R647). -/
def lgOpen (k code sev : Nat) (inj : Bool) (lo hi : Word) (s : State) : State :=
  lgEnqueue code sev inj lo hi
    { s with ledger := { s.ledger with wins := Tbl.put none s.ledger.wins k (some { t0 := s.ledger.up, n := 1, m := 0 }) } }

/-- A happening that the Ledger records, through the rate limit of its code; a window whose time has passed closes before it
(R647). -/
def lgRecord (code sev : Nat) (inj : Bool) (lo hi : Word) (s : State) : State :=
  if lgExempt code sev then lgEnqueue code sev inj lo hi s
  else
    let k := lgKey code
    let burst := if k = 0x8000 then fld (s.reg .lgRate) 16 8 else fld (s.reg .lgRate) 24 8
    match Tbl.get none s.ledger.wins k with
    | none => lgOpen k code sev inj lo hi s
    | some w =>
      if lgWinOver s w then lgOpen k code sev inj lo hi (lgClose k w.m s)
      else if w.n < burst then
        lgEnqueue code sev inj lo hi
          { s with ledger := { s.ledger with wins := Tbl.put none s.ledger.wins k (some { w with n := w.n + 1 }) } }
      else
        { s with ledger := { s.ledger with wins := Tbl.put none s.ledger.wins k (some { w with m := w.m + 1 }),
                                           supp := satAdd s.ledger.supp 1 } }

/-! ## The Concourse (R325 to R339) -/

/-- A subscription takes an event (R334). -/
def subTake (x : Sub) : Sub := if x.pend then { x with ovr := true } else { x with pend := true }

/-- Listed subscriptions as (number, subscription). -/
def State.subList (s : State) : List (Nat × Sub) := s.evc.subs

/-- PEND of an interrupt line whose count has reached COUNT (R339, R340). -/
def irqCheck (i : Nat) (s : State) : State :=
  if fld (s.reg (.irqCoal i)) 0 8 ≤ (s.irq i).cnt.toNat then s.modIrq i (fun q => { q with pend := true }) else s

/-- An event reaches interrupt line `i` (R339). -/
def irqEvent (i : Nat) (s : State) : State :=
  irqCheck i (s.modIrq i (fun q =>
    { q with cnt := satAdd q.cnt 1, timer := if q.cnt = 0 then some s.now else q.timer }))

/-- An event reaches output line `m` (R337, R338). -/
def evoEvent (m : Nat) (s : State) : State :=
  match fld (s.app (.evoCfg m)) 0 2 with
  | 1 => s.modEvo m (fun v =>
      if v.level || v.low then { v with merged := satAdd v.merged 1 } else { v with level := true })
  | 2 => s.modEvo m (fun v => { v with level := !v.level })
  | _ => s

/-- Event channel `e` takes an event: count, subscriptions, interrupt route (R328, R334, R339). -/
def ecTake (e : Nat) (s : State) : State :=
  let s1 := { s with evc := { s.evc with ecCnt := Tbl.put 0 s.evc.ecCnt e (Tbl.get 0 s.evc.ecCnt e + 1) } }
  let s2 := foldS (s.subList.filter (fun p => p.2.v && p.2.ec.toNat == e)) (fun p t => t.modSub p.1 subTake) s1
  let c := s.app (.ecCtrl e)
  if bit c 13 then irqEvent (fld c 8 5) s2 else s2

/-- The output lines that a set of event channels drives, each once (R337). -/
def evoLines (s : State) (es : List Nat) : List Nat :=
  ((es.filter (fun e => bit (s.app (.ecCtrl e)) 20)).map (fun e => fld (s.app (.ecCtrl e)) 14 6)).eraseDups

/-- A set of event channels takes one event each in one cycle (R328, R338). -/
def ecTakeAll (es : List Nat) (s : State) : State :=
  foldS (evoLines s es) evoEvent (foldS es ecTake s)

/-- Event channels with an enabled source among the given producers. -/
def ecsOf (s : State) (ps : List Nat) : List Nat :=
  (upTo 256).filter (fun e =>
    let c := s.app (.ecCtrl e)
    let r := s.app (.ecSrc e)
    (upTo 4).any (fun i => bit c i && ps.contains (fld r (8 * i) 8)))

/-- Producers emit in one cycle (R325, R328). -/
def emitAll (ps : List Nat) (s : State) : State := ecTakeAll (ecsOf s ps) s

/-- A producer emits. -/
def emit (p : Nat) (s : State) : State := emitAll [p] s

/-- Whether a channel is admitted to an event channel with the given EC_CTRL (R329). -/
def admitted (c : Chan) (ctrl : Word) : Bool :=
  (bit ctrl 22 || fld ctrl 24 8 == c.owner.toNat) && (!bit ctrl 23 || c.sec)

/-- The valid subscription of channel `ch` to event channel `e`. -/
def subOf (s : State) (ch : BitVec 12) (e : Nat) : Option Nat :=
  (s.subList.find? (fun p => p.2.v && p.2.ch == ch && p.2.ec.toNat == e)).map Prod.fst

/-- The valid GATE subscription of channel `ch` (R336). -/
def gateOf (s : State) (ch : BitVec 12) : Option Nat :=
  (s.subList.find? (fun p => p.2.v && p.2.gate && p.2.ch == ch)).map Prod.fst

/-! ## Request-line acknowledges (R319, R320) -/

/-- The `rq_ack` of line `n` acknowledges: toggles in EDGE and LEVEL; in HANDSHAKE it rises, for a line already low until the
next tick (Table 8-2, R321). -/
def rqAckNow (n : Nat) (s : State) : State :=
  let m := fld (s.app (.rqCfg n)) 0 2
  s.modRq n (fun q => { q with outst := false, holdoff := m == 2, ack := m == 3 || !q.ack })

/-- Producer `p` is an enabled source of event channel `e`. -/
def ecSelects (s : State) (e p : Nat) : Bool :=
  (upTo 4).any (fun i => bit (s.app (.ecCtrl e)) i && fld (s.app (.ecSrc e)) (8 * i) 8 == p)

/-- Line `n` acknowledges as under ACCEPT (R319, R320). -/
def rqAccepts (s : State) (n : Nat) : Bool :=
  let c := s.app (.rqCfg n)
  let j := s.sub (fld c 14 10)
  !bit c 2 || !j.v || !ecSelects s j.ec.toNat n

/-- Lines whose acknowledge no consumption will give any more acknowledge at once (R320, Table 8-11). -/
def rqRecheck (s : State) : State :=
  foldS (upTo 128) (fun n t => if (t.rq n).outst && rqAccepts t n then rqAckNow n t else t) s

/-- A consumption of subscription `j`: PEND clears, and each line it paces is acknowledged (R319, R335). -/
def consume (j : Nat) (s : State) : State :=
  let s1 := s.modSub j (fun x => { x with pend := false })
  foldS (upTo 128) (fun n t =>
    let c := s.app (.rqCfg n)
    if bit c 2 && fld c 14 10 == j && (t.rq n).outst then rqAckNow n t else t) s1

end Sys2Proof.Machine
end

