-- ==== Sys2Proof/Machine/Hub.lean ====
section
/-! DEFINITION. Hub: what the work queue manager, the hub and the schedule unit do with a channel: readiness, anchors,
completions, hand-over of effects and publication. -/

namespace Sys2Proof.Machine

/-! ## Stream Link release (R363 to R366) -/

/-- Buffer words of a sector's first `n` user bytes; its tag word goes with its last byte (R364). -/
def secWords (k : Sector) (n : Nat) : Nat := n / 8 + b2n (k.tagged && n == k.size)

/-- Stream positions of a sector: SECT_SZ, whatever arrives for it (R359). -/
def secSpan (k : Sector) : Nat := k.size

/-- Buffer words consumed below stream position `pos`, from sectors that begin at `base`. -/
def wordsTo (pos : Nat) : Nat → List Sector → Nat
  | _, [] => 0
  | base, k :: r => secWords k (min k.bytes.length (pos - base)) + wordsTo pos (base + secSpan k) r

/-- Drop the sectors that lie wholly below REL. -/
def trimRx (rel : Nat) : Nat → List Sector → Nat × List Sector
  | base, [] => (base, [])
  | base, k :: r =>
    if base + secSpan k ≤ rel && !k.isOpen then trimRx rel (base + secSpan k) r else (base, k :: r)

/-- A checkpoint of the owner commits: REL := CONS, and the command record is cleared (R364, R370). SL_TX bytes that a replay has yet
to repeat stay to be discarded, and count as sent since this commit (R372). -/
def linkCommit (x : Link) : Link :=
  let gained := wordsTo x.cons x.basePos x.rx - wordsTo x.rel x.basePos x.rx
  let (b, rx) := trimRx x.cons x.basePos x.rx
  { x with rel := x.cons, relWords := x.relWords + BitVec.ofNat 16 gained, basePos := b, rx := rx,
           ctagCk := x.ctagNext, cmdRec := [], cmdPos := 0, txSince := x.txSkip }

/-- A work order of the owner ends: as at a commit, and the count of SL_TX bytes restarts at 0 (R366). -/
def linkRelease (x : Link) : Link := { linkCommit x with txSince := 0, txSkip := 0 }

/-- CONS := REL, the command state returns to the last commit, and replayed SL_TX bytes will be discarded (R365,
R370, R372). -/
def linkRewind (x : Link) : Link :=
  { x with cons := x.rel, ctagNext := x.ctagCk, cmdPos := 0, txSkip := x.txSince, txSince := x.txSince }

/-- User bytes from position `pos` onward, in sectors that begin at `base`. -/
def bytesFrom (pos : Nat) : Nat → List Sector → Nat
  | _, [] => 0
  | base, k :: r => (k.bytes.length - (pos - base)) + bytesFrom pos (base + secSpan k) r

/-- Received user bytes not consumed (R367). -/
def Link.ready (x : Link) : Nat := bytesFrom x.cons x.basePos x.rx

/-- Whether the unconsumed bytes reach RDY_LVL (R367). -/
def rdyNow (s : State) (l : Nat) (x : Link) : Bool := decide (fld (s.reg (.rxCfg l)) 8 8 * 512 ≤ x.ready)

/-- Whether channel `ch` owns link `l` (R369). -/
def ownsLink (s : State) (ch : BitVec 12) (l : Nat) : Bool :=
  let r := s.reg (.rxCfg l)
  bit r 31 && fld r 16 12 == ch.toNat

/-- Apply a change to every link that a channel owns. -/
def modOwned (ch : BitVec 12) (f : Link → Link) (s : State) : State :=
  foldS (upTo 32) (fun l t => if ownsLink t ch l then t.modLink (BitVec.ofNat 5 l) f else t) s

/-! ## Transactions of a channel -/

/-- Whether a transaction belongs to channel `ch`'s rings, mirror or running engine. -/
def Txn.ofChan (s : State) (ch : BitVec 12) (t : Txn) : Bool :=
  match t.purpose with
  | .entry c _ | .release c | .haltNotice c | .mirror c => c == ch
  | .engRead e _ | .data e _ _ => (s.eng e).ch == ch && (s.eng e).phase != .idle
  | _ => false

/-- IDLE of the state word (Table 2-8); a mirror write that failed still pends until RESUME repeats it (R673). -/
def chanIdle (s : State) (ch : BitVec 12) : Bool :=
  let c := s.chan ch
  c.eng.isNone && c.cache.isEmpty && c.fet.isEmpty && c.rel.isEmpty && !c.mirPend && !c.mirErr && !c.ringDue && !s.txns.any (Txn.ofChan s ch)

/-! ## Angular prediction (R286, R292, R298; log entry 11) -/

/-- Wedges per revolution in force. -/
def State.wpr (s : State) : Nat := fld (s.app .tbCfg) 16 11

/-- Angular time shows no angle (R292). -/
def noAngle (s : State) : Bool := s.tbs.lock == .unlocked || s.tbs.lock == .acquiring

/-- The wedge period in 1/16 ticks that a prediction uses. -/
def per16 (s : State) : Nat :=
  if s.tbs.lock = .synth then fld (s.app .synthPeriod) 0 22 * 16 else s.tbs.wedgePeriod.toNat

def angRev (w : DWord) : Nat := fld w 32 32
def angWedge (w : DWord) : Nat := fld w 22 10
def angPhase (w : DWord) : Nat := fld w 0 22

/-- An angular word from its parts (Table 7-1). -/
def angWord (rev wedge phase : Nat) : DWord :=
  BitVec.ofNat 64 (rev % 2 ^ 32 * 2 ^ 32 + wedge % 1024 * 2 ^ 22 + phase % 2 ^ 22)

/-- A valid angular word (R286). -/
def angValid (s : State) (w : DWord) : Bool := decide (angWedge w < s.wpr) && decide (angPhase w ≤ 0x3FFFFE)

/-- A quotient rounded up. -/
def cdiv (a : Int) (b : Nat) : Int := -((-a) / (b : Int))

/-- Ticks since the start of the wedge that the strobes began last: in HOLDOVER counted on past its end, so that the wedges which
follow are predicted from the period estimate (R292, Table 7-2). -/
def phaseNow (s : State) : Nat :=
  if s.tbs.lock = .holdover then s.tbs.phase0.toNat + (s.now - s.tbs.lastStrobe).toNat else s.tbs.phase.toNat

/-- The tick at which a valid angular word occurs, by linear prediction from angular time now. -/
def angInstant (s : State) (w : DWord) : Int :=
  let wedges : Int := ((angRev w : Int) - (s.tbs.rev.toNat : Int)) * (s.wpr : Int) + ((angWedge w : Int) - (s.tbs.wedge : Int))
  let ph : Nat := min (angPhase w) ((per16 s + 15) / 16)
  (s.now.toNat : Int) + cdiv (wedges * (per16 s : Int)) 16 + ((ph : Int) - (phaseNow s : Int))

/-- The angular word predicted for a tick time. -/
def angAt (s : State) (t : Int) : DWord :=
  let p16 := per16 s
  if p16 = 0 ∨ s.wpr = 0 then angWord s.tbs.rev.toNat s.tbs.wedge (min (phaseNow s) 0x3FFFFE)
  else
    let off : Int := (t - (s.now.toNat : Int) + (phaseNow s : Int)) * 16
    let k : Int := off / (p16 : Int)
    let rest : Nat := ((off % (p16 : Int)) / 16).toNat
    let tot : Int := (s.tbs.rev.toNat : Int) * (s.wpr : Int) + (s.tbs.wedge : Int) + k
    let rev : Int := (tot / (s.wpr : Int)) % (2 ^ 32 : Int)
    angWord rev.toNat (tot % (s.wpr : Int)).toNat (min rest 0x3FFFFE)

/-- LATE_MARGIN in ticks. -/
def lateMargin (s : State) : Nat := fld (s.reg .lateMargin) 0 16

/-- The instant of an anchor. -/
def instantOf (s : State) (w : DWord) (ang : Bool) : Int := if ang then angInstant s w else (w.toNat : Int)

/-- Ticks since angular time that comes from strobes reached a valid word or passed it; none for a word of a later wedge. A word
that a strobe passed was reached at that strobe (R286, Table 7-2). -/
def strobeAgo (s : State) (w : DWord) : Option Int :=
  let t := s.tbs
  let cur : Nat := t.rev.toNat * s.wpr + t.wedge
  let at_ : Nat := angRev w * s.wpr + angWedge w
  let since : Nat := (s.now - t.lastStrobe).toNat
  if cur = at_ then
    some (if angPhase w ≤ t.phase0.toNat then (since : Int) else (t.phase.toNat : Int) - (angPhase w : Int))
  else if at_ + 1 = cur then some ((since + (t.lastPhase.toNat - angPhase w) : Nat) : Int)
  else if at_ < cur then some ((since + (t.lastPhase.toNat + (cur - 1 - at_) * per16 s / 16 - min (angPhase w) (per16 s / 16)) : Nat) : Int)
  else none

/-- The instant of a valid angular word lies `d` ticks or more before now, while angular time comes from strobes. -/
def strobePast (s : State) (w : DWord) (d : Int) : Bool :=
  match strobeAgo s w with
  | some a => decide (d ≤ a)
  | none => false

/-- The instant of an anchor lies `d` ticks or more before now: an angular one against angular time in LOCKED and SYNTH, and
against the prediction in HOLDOVER (R301, R304). -/
def anchorPast (s : State) (w : DWord) (ang : Bool) (d : Int) : Bool :=
  if ang && (s.tbs.lock == .locked || s.tbs.lock == .synth) then strobePast s w d
  else decide (instantOf s w ang + d ≤ (s.now.toNat : Int))

/-- Whether an anchor is late now, and INFO of the LATE cause (R298, Table 7-9). -/
def lateInfo (s : State) (w : DWord) (ang : Bool) : Option Word :=
  if ang && !angValid s w then some 0xFFFFFFFF
  else
    let i := instantOf s w ang
    let t : Int := (s.now.toNat : Int)
    if i < t + (lateMargin s : Int) then some (BitVec.ofNat 32 (min (t - i).toNat 0xFFFFFFFF)) else none

/-- The outcome of an evaluation (R297 to R300, Table 7-9). -/
inductive Judged where
  | armed (w : DWord) (moves : Nat) (late : Bool)
  | held
  | fired
  | drop
  | trap (info : Word)
  deriving DecidableEq, Repr

/-- An angular word `k` revolutions later. -/
def revLater (w : DWord) (k : Nat) : DWord := angWord (angRev w + k) (angWedge w) (angPhase w)

/-- NEXTREV: revolutions to add, the smallest number from 1 at which the moved anchor is not late (R299). -/
def nextrevMoves (s : State) (w : DWord) : Nat :=
  let need : Int := (s.now.toNat : Int) + (lateMargin s : Int) - angInstant s w
  let rv : Nat := s.wpr * per16 s
  let k0 := if rv = 0 then 1 else (cdiv (need * 16) rv).toNat
  (([1, k0 - 2, k0 - 1, k0, k0 + 1].filter (fun k => 1 ≤ k && (lateInfo s (revLater w k) true).isNone)).head?).getD (max 1 (k0 + 1))

/-- Judge an anchor (R297 to R300). -/
def judge (s : State) (w : DWord) (ang : Bool) (policy : BitVec 2) : Judged :=
  if ang && noAngle s then .held
  else match lateInfo s w ang with
    | none => .armed w 0 false
    | some info =>
      if policy = 0 then .fired
      else if policy = 1 then
        (if ang && angValid s w then
          let k := nextrevMoves s w
          .armed (revLater w k) k true
        else .fired)
      else if policy = 2 then .drop else .trap info

/-- Telemetry of an evaluation: anchors found late, and of those the ones that their policy fires at once (R300, Table 19-9). -/
def judgeCount (j : Judged) (s : State) : State :=
  match j with
  | .armed _ _ false | .held => s
  | .fired => tmAdd 28 1 (tmAdd 29 1 s)
  | _ => tmAdd 29 1 s

/-- The schedule area after an evaluation; `fire` is the time of the last fire or late decision for this anchor (R307,
Table 7-10). -/
def schedAfter (s : State) (j : Judged) (w : DWord) (ang : Bool) (policy : BitVec 2) (kind : BitVec 3) (nr : Byte) (fire : Word) :
    Sched :=
  let b : Sched := { anchor := w, angular := ang, policy := policy, kind := kind, nrMoves := nr, fire := fire }
  match j with
  | .armed w' k l => { b with anchor := w', armed := true, nrMoves := satAdd nr k, fire := if l then s.now.truncate 32 else fire }
  | .held => { b with held := true }
  | .fired => { b with fired := true, fire := s.now.truncate 32 }
  | .drop | .trap _ => { b with fire := s.now.truncate 32 }

/-! ## Work entries (R52 to R57) -/

def entType (b : List Byte) : Nat := byteAt b 0
def entFlags (b : List Byte) : Nat := byteAt b 1
def entTag (b : List Byte) : BitVec 16 := BitVec.ofNat 16 (leAt b 2 2)
def entProg (b : List Byte) : Nat := leAt b 4 4
def entAnchor (b : List Byte) : DWord := BitVec.ofNat 64 (leAt b 8 8)

/-- NT_DONE of a RUN or RUN_AT entry (R63, Table 2-9). -/
def entNtDone (b : List Byte) : Bool := decide (1 ≤ entType b ∧ entType b ≤ 2) && bit (BitVec.ofNat 8 (entFlags b)) 0

/-- The pairs of a BARRIER entry (R52): channel number and index. -/
def barrierPairs (b : List Byte) : List (Nat × Nat) :=
  (upTo (entFlags b % 16)).map (fun i => (leAt b (8 + 4 * i) 2, leAt b (10 + 4 * i) 2))

/-- An entry fails R56 on channel `ch`. -/
def malformed (s : State) (ch : BitVec 12) (b : List Byte) : Bool :=
  match entType b with
  | 1 => decide (entFlags b ≥ 2)
  | 2 => decide (entFlags b ≥ 16)
  | 3 => decide (entFlags b = 0 ∨ entFlags b > 8) ||
      (barrierPairs b).any (fun p => decide (p.1 > 4095) || p.1 == ch.toNat ||
        (let c := s.chan (BitVec.ofNat 12 p.1)
         c.st == .free || (!(s.chan ch).sec && c.sec)))
  | 4 => decide (entFlags b ≠ 0)
  | _ => true

/-- The pairs of a BARRIER are satisfied (R54). DESIGN CHOICE (log entry 67): the pairs are tested against the state now, so that a pair
met by a channel that was FREE is open again where that channel is allocated before the others are met. -/
def barrierMet (s : State) (b : List Byte) : Bool :=
  (barrierPairs b).all (fun p =>
    let c := s.chan (BitVec.ofNat 12 p.1)
    c.st == .free || decide ((c.wrDone.toNat + 65536 - p.2) % 65536 < 32768))

/-- The entry at WR_START, if the entry cache holds it (R82). -/
def headEntry (c : Chan) : Option CEntry :=
  match c.cache with
  | e :: _ => if e.idx = c.wrStart then some e else none
  | [] => none

/-- A whole RUN or RUN_AT entry at WR_START that has not started. -/
def headRun (s : State) (ch : BitVec 12) : Option CEntry :=
  let c := s.chan ch
  if c.inOrder || c.stalledDone.isSome then none
  else match headEntry c with
    | some e => if e.err.isNone && !malformed s ch e.bytes && decide (entType e.bytes ≤ 2) then some e else none
    | none => none

/-- The entry at WR_START has not started but counts as a work order in progress: its anchor or its event is, or was,
waited for (R87); behind an entry whose halting result is on its way nothing is. -/
def headWaits (c : Chan) : Bool :=
  !c.inOrder && c.stalledDone.isNone && c.haltWith.isNone &&
    (c.st == .waiting || c.preSt == .waiting || (c.st == .draining && (c.runAtFor.isSome || c.wait == .event)))

/-- The RUN_AT entry at WR_START waits for its anchor no longer: it fired, or was late under TRAP (R126). -/
def runAtOver (c : Chan) : Bool := c.sched.fired || c.lateTrap.isSome

/-! ## Readiness (R380, R675; a pending STOP lets the work order in progress run, R421) -/

/-- The GATE subscription of the channel, if any, has PEND = 1 (R336). -/
def gateOpen (s : State) (ch : BitVec 12) : Bool :=
  match gateOf s ch with
  | some j => (s.sub j).pend
  | none => true

/-- A channel is ready (R380, R675). -/
def ready (s : State) (ch : BitVec 12) : Bool :=
  let c := s.chan ch
  if c.eng.isSome || c.relHeld || c.haltWith.isSome then false
  else if c.replay && c.inOrder && c.st != .paused && c.st != .halted then c.pend != some .kill
  else if c.pend.isSome && !(c.pend == some .stop && (c.inOrder || headWaits c)) then false
  else if c.inOrder then
    (c.st == .waiting || c.st == .draining) &&
      (c.wait == .ready || (c.wait == .event && c.sched.act == 5 &&
        (match subOf s ch c.sched.ec.toNat with | some j => (s.sub j).pend | none => false)))
  else
    (c.st == .armed || c.st == .draining || c.st == .waiting) &&
      (match headRun s ch with
       | some e => (entType e.bytes == 1 || (c.runAtFor == some e.idx && runAtOver c)) && gateOpen s ch
       | none => false)

/-- WAIT_REASON as the state word shows it (Table 2-8, R380). -/
def waitCode (s : State) (ch : BitVec 12) : Nat :=
  let c := s.chan ch
  if ready s ch then (if c.wakeAsked then 7 else 6)
  else match c.wait with
    | .none => 0 | .anchor => 1 | .event => 2 | .time => 3 | .noticeSpace => 4 | .barrier => 5 | .ready => 6 | .waking => 7

/-- Note when the channel became ready (R384). -/
def touch (ch : BitVec 12) (s : State) : State :=
  if ready s ch then
    (if (s.chan ch).readyAt.isNone then s.modChan ch (fun c => { c with readyAt := some s.now }) else s)
  else s.modChan ch (fun c => { c with readyAt := none, wakeAsked := false })

/-- Producers emit, and the channels of their subscriptions may become ready. -/
def emitT (ps : List Nat) (s : State) : State :=
  let t := emitAll ps s
  foldS (t.subList.filter (fun p => p.2.v)) (fun p u => touch p.2.ch u) t

/-- CORE's clock stands still for a frequency change: what reaches it waits (R631). -/
def coreStopped (s : State) : Bool := s.coreOn && (s.sup 0).clkStop

/-- Producers of a unit outside CORE emit; the Concourse takes nothing while CORE is not ON (R342), and takes it once CORE's
clock runs again where a frequency change has stopped that (R631). -/
def emitUp (ps : List Nat) (s : State) : State :=
  if !s.coreOn then s
  else if coreStopped s then { s with evc := { s.evc with late := s.evc.late ++ [ps] } }
  else emitT ps s

/-- A SIGNAL is released to event channel `e` (R328, R409). -/
def signalTake (e : Nat) (s : State) : State :=
  let t := ecTakeAll [e] s
  foldS (t.subList.filter (fun p => p.2.v && p.2.ec.toNat == e)) (fun p u => touch p.2.ch u) t

/-- Every link of channel `ch` goes back to its last commit; unconsumed bytes that rise to RDY_LVL are data ready (R365, R367). -/
def rewindOwned (ch : BitVec 12) (s : State) : State :=
  let t := modOwned ch linkRewind s
  let up := (upTo 32).filter (fun l =>
    let x := t.link (BitVec.ofNat 5 l)
    ownsLink t ch l && !x.rdy && rdyNow t l x)
  emitUp (up.map (fun l => 160 + l)) (foldS up (fun l u => u.modLink (BitVec.ofNat 5 l) (fun x => { x with rdy := true })) t)

/-! ## Halting (R64, R327) -/

/-- Push a halted channel onto HALT_Q and raise WQM_HALT (R327, Table 8-5). -/
def haltPush (ch : BitVec 12) (s : State) : State :=
  let v := s.evc
  emitT [233] { s with evc := if v.haltQ.length < 64 then { v with haltQ := v.haltQ ++ [ch] } else { v with haltOvf := true } }

/-- The payload of a HALT notice (Table 2-11a). -/
def haltPayload (c : Chan) (cause status : Byte) : List Byte :=
  [status, cause] ++ toLe 2 c.wrDone.toNat ++ List.replicate 12 0

/-- The channel enters HALTED: its HALT notice is created when a slot is free (R64, R66). -/
def enterHalted (ch : BitVec 12) (cause status : Byte) (s : State) : State :=
  let c := s.chan ch
  let keep := c.pend == some .stop
  let c1 := { c with st := .halted, wait := .none, pend := if keep then some .stop else none,
                     stopTail := if keep then c.stopTail else none, haltWith := none, readyAt := none,
                     wakeAsked := false, replay := false, preSt := .configured, preWait := .none }
  let c2 := if c.slotFree then { c1 with reserved := c1.reserved + 1, rel := c1.rel ++ [.notice 4 0 (haltPayload c cause status)] }
            else c1
  haltPush ch (s.setChan ch c2)

/-! ## Anchors of a channel -/

/-- Disarm the channel's anchor: no pair holds it (R315). -/
def disarm (ch : BitVec 12) (s : State) : State :=
  foldS (s.tbs.pairs.filter (fun p => p.2.ch == some ch)) (fun p t => t.modPair p.1 (fun x => { x with ch := none }))
    (s.modChan ch (fun c => { c with sched := { c.sched with armed := false, held := false } }))

/-! ## Completions (R59 to R66, R74, R93) -/

/-- A status that leaves the channel HALTED (Table 2-12). -/
def halts (c : Chan) (st : Byte) : Bool :=
  [0x2F, 0x31, 0x32, 0x7F].contains st.toNat ||
  (c.haltOnErr && [0x10, 0x11, 0x12, 0x20, 0x21, 0x22, 0x23, 0x28, 0x29, 0x38, 0x40, 0x41].contains st.toNat)

/-- A COMPLETION notice is due (R63, R80): `ntDone` is the entry's flag, none when the order was never read. -/
def wantNotice (c : Chan) (ntDone : Option Bool) (st : Byte) : Bool :=
  ntDone == some true || (c.ntErr && decide (st ≠ 0 ∧ st ≠ 1))

/-- The result enters the hub's queue behind the effects already handed over; with its COMPLETION notice, whose slot
is reserved now (R65, R66, R409). -/
def queueResult (ch : BitVec 12) (want : Bool) (p : Release) (flags : Byte) (s : State) : State :=
  s.modChan ch (fun c =>
    if want then
      (if c.slotFree then
        { c with reserved := c.reserved + 1, rel := c.rel ++ [.notice 2 flags [], p], stalledDone := none }
      else
        let st : ChState := if c.st = .armed ∨ c.st = .running then .waiting else c.st
        { c with stalledDone := some p, wait := .noticeSpace, st := st })
    else { c with rel := c.rel ++ [p] })

/-- The entry's work is over: nothing of it is in progress any more. -/
def orderOver (c : Chan) : Chan :=
  { c with inOrder := false, order := none, eng := none, wait := .none, replay := false, fresh := true, replays := 0,
           runLate := false, lateTrap := none, runAtFor := none, readyAt := none, wakeAsked := false,
           recAes := false, needAes := false, hdrOk := false, sched := { c.sched with armed := false, held := false, ended := true } }

/-- Whether STATE stays as it is while a halting status is on its way to publication (log entry 14). -/
def stAfter (c : Chan) (halting : Bool) : ChState :=
  if c.st = .paused ∨ c.st = .halted ∨ c.st = .configured then c.st
  else if halting then c.st else c.armedOr

/-- The pending command after a completion: ABORT and KILL are discarded with the work order they met, and PAUSE when
the channel halts (R89, Table 2-11e). -/
def pendAfter (c : Chan) (halting : Bool) : Option Cmd :=
  match c.pend with
  | some .abort | some .kill => none
  | some .pause => if halting then none else some .pause
  | p => p

/-- Complete entry `idx` of the channel with a status: result flags, bytes, tag (R74, R93). -/
def completeWith (ch : BitVec 12) (idx : BitVec 16) (ntDone : Option Bool) (status flags : Byte) (bytes : BitVec 48)
    (tag : BitVec 16) (s : State) : State :=
  let c := s.chan ch
  let h := halts c status
  let want := wantNotice c ntDone status
  let c1 := orderOver c
  let c2 := { c1 with st := stAfter c h, haltWith := if h then some (if status = 0x32 then 1 else 0, status) else c1.haltWith,
                      pend := pendAfter c h, preSt := .configured, preWait := .none }
  queueResult ch want (.publish idx status flags bytes tag) flags (disarm ch (s.setChan ch c2))

/-- FLAGS of a result (Table 2-10). -/
def resFlags (late replayed : Bool) : Byte := BitVec.ofNat 8 (b2n late + 2 * b2n replayed)

/-- Complete the work order in progress (its entry is WR_START − 1, R82); its links release what it consumed (R366). -/
def completeOrder (ch : BitVec 12) (status : Byte) (bytes : BitVec 48) (late replayed : Bool) (s : State) : State :=
  let c := s.chan ch
  let b := (c.order.map CEntry.bytes).getD []
  tmAdd 24 1 (completeWith ch (c.wrStart - 1) (some (entNtDone b))
    status (resFlags late replayed) bytes (entTag b) (modOwned ch linkRelease s))

/-- Complete a work order in progress that holds no engine (R496). -/
def completeFree (ch : BitVec 12) (status : Byte) (bytes : BitVec 48) (late replayed : Bool) (s : State) : State :=
  traceAny 3 ch none (s.chan ch).sec (completeOrder ch status bytes late replayed s)

/-- Complete an entry that stands at WR_START without starting it: WR_START passes it (R82). -/
def completeUnstarted (ch : BitVec 12) (e : CEntry) (status flags : Byte) (s : State) : State :=
  let c := s.chan ch
  let s1 := s.setChan ch { c with wrStart := c.wrStart + 1, cache := c.cache.filter (fun x => x.idx != e.idx) }
  traceAny 3 ch none c.sec (match e.err with
    | some _ => completeWith ch e.idx none status 0 0 0 s1
    | none => completeWith ch e.idx (some (entNtDone e.bytes)) status flags 0 (entTag e.bytes) s1)

/-- A channel that drained is CONFIGURED (Table 2-7). -/
def settle (ch : BitVec 12) (s : State) : State :=
  let c := s.chan ch
  if c.abandoned then
    (if chanIdle s ch then s.setChan ch { c with abandoned := false, st := .configured, wait := .none } else s)
  else if c.st = .draining ∧ c.stopTail.isNone ∧ c.wrDone = c.wrTail ∧ !c.inOrder ∧ c.stalledDone.isNone ∧ c.haltWith.isNone ∧ chanIdle s ch then
    s.setChan ch { c with st := .configured, wait := .none }
  else s

/-! ## The entry at WR_START -/

/-- Start a BARRIER: it waits without an engine (R54, Table 2-7). -/
def startBarrier (ch : BitVec 12) (e : CEntry) (s : State) : State :=
  s.modChan ch (fun c =>
    { c with wrStart := c.wrStart + 1, cache := c.cache.filter (fun x => x.idx != e.idx), order := some e, inOrder := true,
             wait := .barrier, st := if c.st = .armed then .waiting else c.st })

/-- Evaluate the anchor of a RUN_AT entry at WR_START (R297, Table 7-9). -/
def evalRunAt (ch : BitVec 12) (e : CEntry) (s : State) : State :=
  let ang := bit (BitVec.ofNat 8 (entFlags e.bytes)) 1
  let pol := BitVec.ofNat 2 (entFlags e.bytes / 4)
  let w := entAnchor e.bytes
  let j := judge s w ang pol
  let s1 := judgeCount j (s.modChan ch (fun c => { c with runAtFor := some e.idx, sched := schedAfter s j w ang pol 1 0 0 }))
  match j with
  | .armed _ _ l => s1.modChan ch (fun c => { c with runLate := l, wait := .anchor })
  | .held => s1.modChan ch (fun c => { c with wait := .anchor })
  | .fired => s1.modChan ch (fun c => { c with runLate := true })
  | .drop => completeUnstarted ch e 0x38 0 s1
  | .trap info => s1.modChan ch (fun c => { c with lateTrap := some info })

/-- The entry at WR_START of an ARMED or DRAINING channel that has nothing in progress. -/
def headFree (c : Chan) : Bool :=
  (c.st == .armed || c.st == .draining) && !c.inOrder && c.stalledDone.isNone && c.haltWith.isNone

/-- What an ARMED or DRAINING channel does with the entry at WR_START: a BARRIER starts, a RUN_AT anchor is evaluated,
a gated entry waits for its event (R54, R297, R336). -/
def considerOnce (ch : BitVec 12) (s : State) : State :=
  let c := s.chan ch
  if headFree c ∧ c.pend ≠ some .stop then
    match headEntry c with
    | none => touch ch s
    | some e =>
      if e.err.isSome || malformed s ch e.bytes || entType e.bytes == 4 then touch ch s
      else if entType e.bytes = 3 then touch ch (startBarrier ch e s)
      else
        let s1 := if entType e.bytes = 2 ∧ c.runAtFor ≠ some e.idx then evalRunAt ch e s else s
        let c1 := s1.chan ch
        let same := headEntry c1 == some e && !c1.inOrder
        let fired := entType e.bytes == 1 || runAtOver c1
        if same && (c1.st == .armed || c1.st == .draining) then
          (if !fired then touch ch (s1.modChan ch (fun c => { c with st := if c.st = .armed then .waiting else c.st }))
          else if !gateOpen s1 ch then
            touch ch (s1.modChan ch (fun c => { c with wait := .event, st := if c.st = .armed then .waiting else c.st }))
          else touch ch s1)
        else touch ch s1
  else touch ch s

/-- The entries from WR_START on, `n` at most: one whose read failed completes with its bus status (R79, R80), and where an
entry is dropped the next is considered. -/
def considerN (ch : BitVec 12) : Nat → State → State
  | 0, s => touch ch s
  | n + 1, s =>
    let c := s.chan ch
    match headEntry c with
    | none => considerOnce ch s
    | some e =>
      match e.err with
      | some st => if headFree c ∧ c.pend.isNone then considerN ch n (completeUnstarted ch e st 0 s) else touch ch s
      | none =>
        let t := considerOnce ch s
        if (t.chan ch).wrStart = c.wrStart then t else considerN ch n t

/-- What an ARMED or DRAINING channel does with the entries at WR_START; the entry cache holds at most 8 (R81). -/
def considerHead (ch : BitVec 12) (s : State) : State := considerN ch 9 s

/-! ## Mirror writes (R77, R78) -/

/-- Ask for a mirror write after an index update; updates not yet issued merge. -/
def mirrorDue (ch : BitVec 12) (s : State) : State :=
  s.modChan ch (fun c => if c.mirEn then { c with mirPend := true } else c)

/-! ## Hand-over (R114) -/

/-- The engine's effects reach the hub in program order. -/
def handOver (ch : BitVec 12) (l : List Release) (s : State) : State :=
  s.modChan ch (fun c => { c with rel := c.rel ++ l })

end Sys2Proof.Machine
end

