-- ==== Sys2Proof/Machine/Wake.lean ====
section
/-! DEFINITION. Wake: supplies and clocks as PCM requests them, and how a wake of a domain begins (18). -/

namespace Sys2Proof.Machine

/-- The supply that feeds domain `d` (Table 18-1): 0 core, 1 to 4 wings, 5 to 8 Stream Link groups; AO has none. -/
def supOf (d : Nat) : Option Nat :=
  if d = 0 then none else if d ≤ 2 then some 0 else if d ≤ 6 then some (d - 2) else if d ≤ 38 then some (1 + (d - 7) / 8)
  else some (5 + (d - 39))

/-- Domains a supply feeds. -/
def domsOf (x : Nat) : List Nat := (upTo 43).filter (fun d => supOf d == some x)

/-- Keys under which `Fcr.asserted` keeps FS265, by the acknowledgement that its instance names (Table 16-11): those of domain
`d`'s supply and clock. -/
def pmiKeys (d : Nat) : List Nat :=
  (match supOf d with | some x => [400 + x] | none => []) ++
    (if 1 ≤ d ∧ d ≤ 6 then [409] else if 39 ≤ d then [409 + (d - 38)] else [])

/-- Sources whose assertion holds domain `d` in its state (Table 16-5): a PLL, PMI or isolation source, FS283 kept by domain. -/
def holders (d : Nat) : List Nat :=
  (if d = 0 then [] else if d = 1 then [250, 321] else if d = 2 then [271, 322] else if d ≤ 6 then [269 + d, 313 + d]
   else if d ≤ 38 then [277 + d] else [237 + d, 320 + d]) ++ pmiKeys d

/-- Domain `d` is held until its sources are quiet (R557). -/
def domHeld (s : State) (d : Nat) : Bool := (holders d).any (Tbl.get false s.fcr.asserted)

/-- Dependencies of a domain, in the order PCM raises them (R608). -/
def depsOf (d : Nat) : List Nat :=
  if d ≤ 1 then [] else if d = 2 then [1] else if d ≤ 6 then [1, 2]
  else if d ≤ 38 then [1, 2, 3 + (d - 7) / 8] else [1, 2]

/-- Whether domain `d` exists in this strap configuration (R26). -/
def domPresent (s : State) (d : Nat) : Bool :=
  if d < 3 then true else if d ≤ 6 then decide (d - 3 < s.wings) else if d ≤ 38 then s.galPop (d - 7) else decide (d ≤ 42)

/-- A wake of the domain is in progress (R626). -/
def Dom.waking (x : Dom) : Bool :=
  x.step == .supply || x.step == .rail || x.step == .clock || x.step == .settle || x.step == .restore

/-- An entry into RET or OFF is in progress (R613). -/
def Dom.entering (x : Dom) : Bool := x.step == .drain || x.step == .save || x.step == .iso

/-- A domain that needs its supply and clock: ON, RET or waking (R609). -/
def Dom.needs (x : Dom) : Bool := x.st != .off || x.waking

/-- A supply is needed (R609). -/
def supNeeded (s : State) (x : Nat) : Bool := (domsOf x).any (fun d => (s.dom d).needs)

/-- A supply is up: requested and acknowledged. -/
def supUp (s : State) (x : Nat) : Bool := let p := s.sup x; decide (p.vreq ≠ 0) && p.vtog == p.vack

/-- Drive a new request on a supply: `vtog` inverts with it; PWR_CYC counts a change of the core request from 0 (R479,
R645). -/
def supRequest (x : Nat) (v : BitVec 3) (s : State) : State :=
  let p := s.sup x
  if p.vtog = p.vack ∧ p.vreq ≠ v then
    let s1 := s.modSup x (fun q => { q with vreq := v, vtog := !q.vtog, overdue := false })
    if x = 0 ∧ p.vreq = 0 then { s1 with ledger := { s1.ledger with pwrCyc := s1.ledger.pwrCyc + 1 } } else s1
  else s

/-- The request code of a supply that is needed: its applied OPP, or ON for a Stream Link group (Table 13-4). -/
def supCode (s : State) (x : Nat) : BitVec 3 :=
  if 5 ≤ x then 1 else BitVec.ofNat 3 (fld (s.app (.oppR x)) 16 3 + 1)

/-- Request a supply that is OFF and needed, or OFF for one that no domain needs (R609). -/
def supPolicy (x : Nat) (s : State) : State :=
  if supNeeded s x then
    (if (s.sup x).vreq = 0 then
      (supRequest x (supCode s x) s).modSup x (fun q => { q with f := supCode s x - 1 })
    else s)
  else supRequest x 0 s

/-- Clock request `c` is needed: 0 `refclk`, 1 to 4 `sl_refclk` (R609). -/
def clkNeeded (s : State) (c : Nat) : Bool :=
  if c = 0 then [1, 2, 3, 4, 5, 6].any (fun d => (s.dom d).st == .on || (s.dom d).waking)
  else (s.dom (38 + c)).st == .on || (s.dom (38 + c)).waking

/-- Drive a clock request; it changes only while the acknowledgement equals it (R479). -/
def clkPolicy (c : Nat) (s : State) : State :=
  let q := s.clk c
  if q.req = q.ack then s.modClk c (fun x => { x with req := clkNeeded s c }) else s

/-- Every supply and clock follows the domains. -/
def pmiPolicy (s : State) : State := foldS (upTo 5) clkPolicy (foldS (upTo 9) supPolicy s)

/-- The policy of domain `d` now: during an entry or a wake, the one in force when it began (Table 18-12). -/
def polNow (s : State) (d : Nat) : Word := if (s.dom d).step = .none then s.app (.pol d) else (s.dom d).polAt

/-- AUTO_WAKE of a domain's policy (Table 18-3). -/
def autoWake (s : State) (d : Nat) : Bool := bit (polNow s d) 29

/-- The state that a request in force asks domain `d` to leave ON for: software's, else one of PCM itself, which asks a domain
that software keeps ON too (R610, R612, R632). -/
def leaveAsked (s : State) (d : Nat) : Option DomSt :=
  match fld (s.reg (.domCtrl d)) 30 2 with
  | 2 => some .ret | 3 => some .off
  | _ => (s.dom d).leave

/-- The supply of domain `d` is up; AO needs none. -/
def domSupplyUp (s : State) (d : Nat) : Bool := match supOf d with | some p => supUp s p | none => true

/-- The domains that `d` needs are ON and none of them is on its way out of ON (R29, R608). -/
def depsUp (s : State) (d : Nat) : Bool := (depsOf d).all (fun k => s.domOn k && !(s.dom k).entering)

/-- A waking domain closes its main switch once its dependencies are ON and its supply is up (R608, R626). -/
def wakeAdvance (s : State) : State :=
  foldS (upTo 43) (fun d t =>
    if (t.dom d).step = .supply ∧ !domHeld t d ∧ depsUp t d ∧ domSupplyUp t d then t.modDom d (fun q => { q with step := .rail }) else t) s

/-- PCM writes the wake record (R622). -/
def wakeRecord (d : Nat) (why : Option (Nat × Nat)) (s : State) : State :=
  match why with
  | some (src, det) =>
    { s with pcm := { s.pcm with wakeSrc := BitVec.ofNat 4 src, wakeDom := BitVec.ofNat 6 d, wakeDetail := BitVec.ofNat 13 det,
                                 gWakeSrc := BitVec.ofNat 4 src } }
  | none => s

/-- A wake reaches domain `d`: it is recorded and begins for a domain that is RET or OFF, and meets an entry in progress at
its next abort point (R614, R622, R626). -/
def startWake (d : Nat) (why : Option (Nat × Nat)) (s : State) : State :=
  let x := s.dom d
  if x.entering then
    s.modDom d (fun q => if q.abort then q else { q with abort := true, abortWhy := why })
  else if x.st = .on ∨ x.waking then s
  else
    wakeAdvance (pmiPolicy ((wakeRecord d why s).modDom d (fun q =>
      { q with step := .supply, polAt := s.app (.pol d), target := .on, abort := false, leave := none, logged := why.isSome })))

/-- A wake source reaches domain `d` (R621): its missing dependencies are raised first, and not recorded (R622). -/
def beginWake (d src detail : Nat) (s : State) : State :=
  if s.boot.rstN || s.boot.rstAo || !domPresent s d || d = 0 then s
  else if (src = 6 || src = 7) && !autoWake s d then s
  else startWake d (some (src, detail)) (foldS (depsOf d) (fun k t => startWake k none t) s)

/-- CORE works: ON, its clock neither stopped for an entry nor for a frequency change, and held by no fault source
(R475, R613, R631). -/
def coreUp (s : State) : Bool :=
  s.coreOn && (s.dom 2).step != .iso && !domHeld s 2 && !(s.sup 0).clkStop

end Sys2Proof.Machine
end

