-- ==== Sys2Proof/Machine/Txns.lean ====
section
/-! DEFINITION. Txns: how a transaction comes into being (10, 12), and program space through the Vitrine (12). -/

namespace Sys2Proof.Machine

/-! ## Ports (Table 12-9) -/

/-- Maximum burst of a port by INST code. -/
def burstMax (p : Nat) : Nat := if p < 12 then 256 else if p < 14 then 64 else if p < 24 then 128 else 256

/-- Beat width of a port. -/
def beatWidth (p : Nat) : Nat := if 16 ≤ p ∧ p < 24 then 32 else 64

/-- Beats of a transaction (R440). -/
def beatsOf (p : Nat) (addr : DWord) (n : Nat) : Nat :=
  let w := beatWidth p
  (addr.toNat + n - 1) / w - addr.toNat / w + 1

/-- The domain of a port: an MP port's wing, CORE, or an SLG domain (Table 20-1). -/
def portDom (p : Nat) : Nat := if p < 8 then 3 + p / 2 else if p < 32 then 2 else 39 + (p - 32) / 8

/-- A domain takes requests: ON and not closing. -/
def domOpen (s : State) (d : Nat) : Bool := let x := s.dom d; x.st == .on && !x.entering

/-- The answer the fabric gives by itself: DECERR for an absent port, POWERED_OFF for a domain that is not ON and does
not wake for traffic (R26, R618). -/
def fabricAnswer (s : State) (p : Nat) : Option (BitVec 3) :=
  if instAbsent s.wings p then some 2
  else if !domOpen s (portDom p) && !autoWake s (portDom p) then some 4
  else none

/-- Port `p`'s clock stands still for a frequency change (R475). -/
def portStopped (s : State) (p : Nat) : Bool :=
  match supOf (portDom p) with | some x => (s.sup x).clkStop | none => false

/-- The port transfers beats: its domain is ON, not held (R557, R628), its clock runs, and the shell does not clamp it (R491). -/
def portRuns (s : State) (p : Nat) : Bool :=
  let d := s.dom (portDom p)
  d.st == .on && !d.hold && !domHeld s (portDom p) && !portStopped s p && !s.boot.shellIso

/-- Transactions outstanding on port `p` (R37, R452): from the transfer of the REQ beat to the response. -/
def outst (s : State) (p : Nat) : Nat :=
  (s.txns.filter (fun t => t.port.toNat == p && t.forced.isNone && (t.stage == .sent || t.stage == .retry))).length

/-- The port is below OUT_LIM, or has none: a Stream Link is no memory port. -/
def belowLim (s : State) (p : Nat) : Bool := decide (32 ≤ p) || decide (outst s p < fld (s.reg (.portCfg p)) 0 10)

/-- The port may present a REQ beat (R37, R456). -/
def portPresents (s : State) (p : Nat) : Bool := portRuns s p && belowLim s p

/-- A transaction is issued: numbered, and placed at its first arbiter; one that the fabric is to answer waits there for its grant and
its pool entry like any other (R37). Traffic toward a domain that is not ON wakes it (R618, R672). -/
def issue (t : Txn) (s : State) : State :=
  let f := fabricAnswer s t.port.toNat
  let t1 := { t with id := s.nextTxn, beats := if t.op == 1 || t.op == 5 then beatsOf t.port.toNat t.addr t.n else 0,
                     forced := f, since := s.now }
  let s1 := { s with txns := s.txns ++ [t1], nextTxn := s.nextTxn + 1 }
  if f.isNone && !domOpen s (portDom t.port.toNat) then beginWake (portDom t.port.toNat) 7 0 s1
  else s1

/-- Transaction `t`, if it exists. -/
def State.txn (s : State) (t : Nat) : Option Txn := s.txns.find? (fun x => x.id == t)

/-- Change transaction `t`. -/
def State.modTxn (s : State) (t : Nat) (f : Txn → Txn) : State :=
  { s with txns := s.txns.map (fun x => if x.id = t then f x else x) }

/-- Transaction `t` is over: its pool entry returns (R37). -/
def State.dropTxn (s : State) (t : Nat) : State := { s with txns := s.txns.filter (fun x => x.id != t) }

/-- The port's arbiter is free again once the burst has left. -/
def endGrant (t : Txn) (s : State) : State :=
  s.modArb (64 + t.port.toNat) (fun a => match a.grant with
    | some (i, _) => if i = t.id then { a with grant := none } else a
    | none => a)

/-- The arbiter at which a transaction waits, and its requester index there (Table 10-2, R672). -/
def Txn.waitsAt (t : Txn) : Option (Nat × Nat) :=
  match t.stage with
  | .atGal => (match t.gal, t.purpose with
    | some e, _ => some (e.g.toNat, e.slot.val)
    | none, .docent _ (some g) _ => some (g.toNat, 17)
    | _, _ => none)
  | .atWing => t.wing.map (fun w => (32 + w.toNat, match t.gal, t.purpose with
    | some e, _ => e.g.toNat % 8
    | none, .entry .. => 8
    | none, .docent _ (some g) _ => g.toNat % 8
    | none, .docent _ none _ => 10
    | none, _ => 9))
  | .atPort => some (64 + t.port.toNat, match t.wing, t.purpose with
    | some w, _ => w.toNat
    | none, .loader _ => 6
    | none, .docent .. => 5
    | none, _ => 4)
  | _ => none

/-- Requester `r` has a burst that waits at arbiter `a`. -/
def waitsHere (s : State) (a r : Nat) : Bool := s.txns.any (fun t => t.waitsAt == some (a, r))

/-- A burst is withdrawn; a requester that no longer requests loses its credit (R392). -/
def withdrawTxn (t : Txn) (s : State) : State :=
  let u := endGrant t (s.dropTxn t.id)
  match t.waitsAt with
  | some (a, r) => if waitsHere u a r then u else u.modArb a (fun x => { x with credits := Tbl.put 0 x.credits r 0 })
  | none => u

/-- Withdraw the bursts that `f` names. -/
def withdrawAll (f : Txn → Bool) (s : State) : State := foldS (s.txns.filter f) withdrawTxn s

/-- The burst's REQ beat has been presented: it is out, or its port presents it now (R423). -/
def burstOut (s : State) (t : Txn) : Bool :=
  t.stage == .sent || t.stage == .retry || t.stage == .again || (t.stage == .granted && portPresents s t.port.toNat)

/-! ## Engine transactions -/

/-- A transaction of engine `e`. -/
def Txn.ofEng (e : EngId) (t : Txn) : Bool :=
  match t.purpose with
  | .engRead x _ | .data x _ _ => x == e
  | _ => false

/-- A data write of engine `e` still unanswered. -/
def Txn.dataOf (e : EngId) (t : Txn) : Bool :=
  match t.purpose with
  | .data x _ _ => x == e
  | _ => false

/-- Some data write of engine `e` is unanswered (R113). -/
def writesOpen (s : State) (e : EngId) : Bool := s.txns.any (Txn.dataOf e)

/-- Two byte ranges overlap. -/
def overlaps (a : DWord) (n : Nat) (b : DWord) (m : Nat) : Bool := decide (a.toNat < b.toNat + m) && decide (b.toNat < a.toNat + n)

/-- A burst must not be issued yet (R405, Table 12-4). -/
def burstHeld (s : State) (e : EngId) (port : Nat) (order : Nat) (addr : DWord) (n : Nat) (write : Bool) : Bool :=
  let mine := s.txns.filter (fun t => Txn.ofEng e t && !t.discard)
  (write && mine.any (fun t => Txn.dataOf e t && t.port.toNat == port && overlaps t.addr t.n addr n)) ||
  (order == 2 && mine.any (fun t => t.port.toNat == port)) || (order == 3 && !mine.isEmpty)

/-- A transaction of engine `e`, at its gallery arbiter (R27). -/
def engTxn (e : EngId) (port : Nat) (op : BitVec 3) (addr : DWord) (n : Nat) (data : List Byte) (sec : Bool) (owner : Byte)
    (cache order : BitVec 2) (strm : Option (BitVec 3)) (p : Purpose) : Txn :=
  { id := 0, strm := strm, port := BitVec.ofNat 6 port, op := op, addr := addr, n := n, data := data, sec := sec, owner := owner,
    cache := cache, order := order, stage := .atGal, wing := some (BitVec.ofNat 2 (e.g.toNat / 8)), gal := some e, purpose := p }

/-- A ring transaction of channel `ch`: its attributes are those of R444. -/
def ringTxn (s : State) (ch : BitVec 12) (port : Nat) (op : BitVec 3) (addr : DWord) (n : Nat) (data : List Byte)
    (st : TStage) (wing : Option (BitVec 2)) (p : Purpose) : Txn :=
  let c := s.chan ch
  { id := 0, port := BitVec.ofNat 6 port, op := op, addr := addr, n := n, data := data, sec := c.sec, owner := c.owner,
    cache := 1, order := 1, stage := st, wing := wing, gal := none, purpose := p }

/-! ## Vitrine lines (R457 to R470) -/

/-- Address × 1/64 of a program-space offset (R459). -/
def psLine (s : State) (off : Nat) : Nat := (s.psBase + BitVec.ofNat 64 off).toNat / 64

/-- CP_CFG in force: the old settings while the lines held under them are evicted (R461). -/
def cpCfgNow (s : State) : Word := if s.vitFlush then s.vitOld else s.app .cpCfg

/-- The coherent port of a line (R459). -/
def linePort (s : State) (l : Nat) : Nat := if bit (cpCfgNow s) 0 then 12 + l / 64 % 2 else 12

/-- A coherent transaction of a line (R460). -/
def cohTxn (s : State) (w : BitVec 2) (op : BitVec 3) (l : Nat) (data : List Byte) (p : Purpose) : Txn :=
  { id := 0, port := BitVec.ofNat 6 (linePort s l), op := op, addr := BitVec.ofNat 64 (l * 64), n := 64, data := data,
    sec := bit (cpCfgNow s) 1, owner := 0, cache := 3, order := 0, stage := .atWing, wing := some w, gal := none,
    purpose := p }

/-- A coherent transaction of the line is outstanding. -/
def lineBusy (s : State) (l : Nat) : Bool :=
  s.txns.any (fun t => decide (2 ≤ t.op.toNat) && t.addr.toNat == l * 64)

/-- The slice that serves a wing: its own, or the next populated one that is not cordoned (R470); one whose wing is not ON, or
leaves ON, serves only where no other can (R617). -/
def sliceOf (s : State) (w : Nat) : Nat :=
  let l := ([0, 1, 2, 3].map (fun i => (w + i) % 4)).filter (fun k => decide (k < s.wings) && !sliceCorded s k)
  ((l.find? (fun k => domOpen s (3 + k))).or l.head?).getD w

/-- Whether slice `k` holds the line. -/
def inSlice (v : VLine) (k : Nat) : Bool := bit v.slices k

/-- A slice gives up a line; the last copy leaves by Evict or WriteBack (Table 12-15). -/
def evictFrom (k l : Nat) (s : State) : State :=
  let v := s.line l
  let rest := setFld v.slices k 1 0
  if rest ≠ 0 then s.modLine l (fun x => { x with slices := rest })
  else
    let s1 := s.modLine l (fun _ => {})
    match v.st with
    | .M => issue (cohTxn s (BitVec.ofNat 2 k) 5 l v.data .writeBack) s1
    | .S | .E => issue (cohTxn s (BitVec.ofNat 2 k) 4 l [] .evict) s1
    | .I => s1

/-- Lines a slice holds. -/
def sliceLines (s : State) (k : Nat) : List Nat := (s.lines.filter (fun p => inSlice p.2 k)).map Prod.fst

/-- Places a slice uses: a line in M takes two ways (R470). -/
def sliceUsed (s : State) (k : Nat) : Nat :=
  ((s.lines.filter (fun p => inSlice p.2 k)).map (fun p => if p.2.st = .M then 2 else 1)).sum

/-- Make `n` places in slice `k` for line `l`: which other line a full slice replaces is a free value (log entry 3). -/
def makeRoom (k l : Nat) : Nat → State → State
  | 0, s => s
  | n + 1, s =>
    let s0 := makeRoom k l n s
    let ls := (sliceLines s0 k).filter (fun x => x != l)
    if sliceUsed s0 k + n < 4096 then s0
    else
      let (r, s1) := s0.draw
      evictFrom k (ls.getD (r.toNat % ls.length) 0) s1

/-- Slice `k` obtains a line that the agent holds: E and M lines move, S lines are copied (R458, Table 12-13). -/
def obtain_ (k l : Nat) (s : State) : State :=
  if inSlice (s.line l) k then s
  else (makeRoom k l (if (s.line l).st = .M then 2 else 1) s).modLine l (fun v =>
    match v.st with
    | .E | .M => { v with slices := BitVec.ofNat 4 (2 ^ k) }
    | _ => { v with slices := v.slices ||| BitVec.ofNat 4 (2 ^ k) })

/-- A read of program space: the bytes, or the state in which the engine waits for a line. -/
inductive Got where
  | ok (b : List Byte) (s : State)
  | wait (s : State)
  deriving DecidableEq, Repr

/-- What follows a read that has its bytes; one that waits leaves the state it left. -/
def Got.run (g : Got) (f : List Byte → State → State) : State :=
  match g with
  | .ok b s => f b s
  | .wait s => s

/-- A read that follows a read. -/
def Got.bind (g : Got) (f : List Byte → State → Got) : Got :=
  match g with
  | .ok b s => f b s
  | .wait s => .wait s

/-- Read the line of fabric address `a` for engine `e` through its wing's slice; a miss of the whole agent sends a ReadShared
(R458, R466). `what` names the kind of read, whose bus exception carries INFO accordingly. -/
def lineRead (e : EngId) (what a : Nat) (s : State) : Got :=
  let l := a / 64
  let w := e.g.toNat / 8
  let k := sliceOf s w
  let v := s.line l
  if s.vitFlush then .wait s
  else if v.st ≠ .I then .ok v.data (obtain_ k l s)
  else
    let s1 := s.modEng e (fun x =>
      if x.reads.any (fun r => r.what == what && r.addr.toNat / 64 == l) then x
      else { x with reads := x.reads ++ [{ what := what, addr := BitVec.ofNat 64 a, n := 64 }] })
    if lineBusy s l then .wait s1
    else .wait (issue (cohTxn s (BitVec.ofNat 2 k) 2 l [] (.fill (BitVec.ofNat 2 k))) s1)

/-- Read consecutive lines from the one of address `a` on. -/
def linesRead (e : EngId) (what : Nat) : Nat → Nat → State → Got
  | 0, _, s => .ok [] s
  | n + 1, a, s =>
    (lineRead e what a s).bind fun b t => (linesRead e what n ((a / 64 + 1) * 64) t).bind fun c u => .ok (b ++ c) u

/-- Read `n` bytes of program space at `off` for engine `e` (R458). -/
def psRead (e : EngId) (what off n : Nat) (s : State) : Got :=
  let a := (s.psBase + BitVec.ofNat 64 off).toNat
  (linesRead e what ((a + n - 1) / 64 - a / 64 + 1) a s).bind fun b t => .ok (slice b (a % 64) n) t

/-- Bytes of a line replaced from offset `o`. -/
def patchBytes (d : List Byte) (o : Nat) (b : List Byte) : List Byte :=
  slice d 0 o ++ b ++ d.drop (o + b.length)

/-- The hub writes bytes into a line for a release: the line must be E or M; otherwise a ReadUnique is sent and the
release waits (R457, R458, R466). -/
def lineWrite (w : BitVec 2) (l o : Nat) (b : List Byte) (s : State) : Bool × State :=
  let v := s.line l
  if s.vitFlush then (false, s)
  else if v.st = .E ∨ v.st = .M then
    (true, (if v.st = .E then makeRoom ((upTo 4).find? (inSlice v) |>.getD 0) l 1 s else s).modLine l (fun x =>
      { x with st := .M, data := patchBytes x.data o b }))
  else if lineBusy s l then (false, s)
  else if !domOpen s (3 + w.toNat) then (false, beginWake (3 + w.toNat) 7 0 s)
  else (false, issue (cohTxn s w 3 l [] (.unique w)) s)

end Sys2Proof.Machine
end

