-- ==== Sys2Proof/Machine/Loads.lean ====
section
/-! DEFINITION. Loads: how the control store loader reads an image (R525 to R527, R532, R664). -/

namespace Sys2Proof.Machine

/-- Reading `k` of the loader. -/
def jobOf (s : State) (k : Nat) : Option ReadJob := Tbl.get none s.loader.jobs k

/-- Set reading `k`. -/
def setJob (k : Nat) (j : Option ReadJob) (s : State) : State :=
  { s with loader := { s.loader with jobs := Tbl.put none s.loader.jobs k j } }

/-- Key of the reload of bank `b` of gallery `g`. -/
def reloadKey (g : Nat) (b : Bool) : Nat := 1 + 2 * g + b2n b

/-- INST code of a SRC code (Table 15-6). -/
def srcInst (src : Nat) : Nat := if src < 8 then src else 12 + (src - 8)

/-- Nothing of the reading is left to fetch: it is complete, or it has failed. -/
def ReadJob.over (j : ReadJob) : Bool := j.err || decide (j.len ≤ j.buf.length)

/-- Bytes arrive. Once the header is there, WORDS tells how far the image reaches (Table 15-3). -/
def ReadJob.filed (j : ReadJob) (b : List Byte) : ReadJob :=
  let buf := j.buf ++ b
  let w := leAt buf 0x10 2
  { j with buf := buf, t := none,
           len := if j.len = 256 ∧ j.buf.length < 256 ∧ 256 ≤ buf.length ∧ 256 ≤ w ∧ w ≤ 4096 then
                    256 + 16 * w + (if j.sig then 96 else 0)
                  else j.len }

/-- A read of an MP port by the loader: the attributes of its transactions are free values (R526, log entry 3). -/
def loaderTxn (v : DWord) (port : BitVec 6) (a : DWord) (n key : Nat) : Txn :=
  { id := 0, port := port, op := 0, addr := a, n := n, data := [], sec := bit (v.truncate 32) 0, owner := BitVec.ofNat 8 (fld (v.truncate 32) 8 8),
    cache := BitVec.ofNat 2 (fld (v.truncate 32) 1 2), order := BitVec.ofNat 2 (fld (v.truncate 32) 3 2), stage := .atPort, wing := none, gal := none,
    purpose := .loader key }

/-- Reading `key` goes on: the wing of its MP port is raised first (R664); a CP port is read line by line through the slice that
serves W0, from the Vitrine where it holds the line (R526). `fuel` bounds the lines taken at once. -/
def readNext (key : Nat) : Nat → State → State
  | 0, s => s
  | fuel + 1, s =>
    match jobOf s key with
    | none => s
    | some j =>
      if j.t.isSome || j.over then s
      else
        let a := j.addr + BitVec.ofNat 64 j.buf.length
        let p := j.port.toNat
        if p < 12 then
          (if !instAbsent s.wings p && !domOpen s (portDom p) then beginWake (portDom p) 9 0 s
          else
            let (v, t) := s.draw
            issue (loaderTxn v j.port a (min 256 (j.len - j.buf.length)) key) (setJob key (some { j with t := some t.nextTxn }) t))
        else
          let l := a.toNat / 64
          let w := BitVec.ofNat 2 (sliceOf s 0)
          if s.vitFlush then s
          else if (s.line l).st ≠ .I then readNext key fuel (setJob key (some (j.filed (s.line l).data)) s)
          else if lineBusy s l then s
          else if !domOpen s (3 + w.toNat) then beginWake (3 + w.toNat) 9 0 s
          else issue { cohTxn s w 2 l [] (.loader key) with port := j.port } (setJob key (some { j with t := some s.nextTxn }) s)

/-- The most lines of an image. -/
def imageLines : Nat := 1030

/-- Every reading under way goes on where it can. -/
def pumpLoads (s : State) : State := foldS (s.loader.jobs.map Prod.fst) (fun k t => readNext k imageLines t) s

/-- A read of the loader is answered: OKAY files its bytes, anything else fails the reading (Table 15-5). A line that a CP port
delivered is given up at once, since the loader keeps none (R526). -/
def loaderAnswered (x : Txn) (key : Nat) (code : BitVec 3) (data : List Byte) (s : State) : State :=
  let s1 := if x.op = 2 ∧ code = 0 then
      issue { cohTxn s (x.wing.getD 0) 4 (x.addr.toNat / 64) [] .evict with port := x.port } s
    else s
  match jobOf s1 key with
  | none => s1
  | some j =>
    if j.t ≠ some x.id then s1
    else setJob key (some (if code = 0 then j.filed (slice data 0 x.n) else { j with t := none, err := true })) s1

/-- Reading `key` begins: `len` bytes, or the header first where that is 256. -/
def startRead (key : Nat) (port : Nat) (a : DWord) (len : Nat) (sig : Bool) (s : State) : State :=
  readNext key imageLines (setJob key (some { port := BitVec.ofNat 6 port, addr := a, len := len, sig := sig }) s)

/-- The loader reloads the banks of a gallery that are RELOADING: the active one first, the other after it (R532, R534). -/
def startReloads (g : Nat) (s : State) : State :=
  let x := s.gal g
  let st (b : Bool) : Bank := if b then x.bankB else x.bankA
  if (jobOf s (reloadKey g false)).isSome || (jobOf s (reloadKey g true)).isSome then s
  else match [x.act, !x.act].find? (fun b => (st b).st == .reloading) with
    | some b => startRead (reloadKey g b) (srcInst (st b).srcPort.toNat) (st b).srcAddr 256 false s
    | none => s

end Sys2Proof.Machine
end

