-- ==== Sys2Proof/Machine/Operands.lean ====
section
/-! DEFINITION. Operands: Damcon registers, instruction fields and operand forms (R103 to R105, R155, R190 to R192,
R234), and stream descriptors with their addresses and bursts (R135 to R145). -/

namespace Sys2Proof.Machine

/-! ## Registers -/

/-- Register `r`: g0 reads 0 (Table 3-1). -/
def Engine.rg (x : Engine) (r : BitVec 5) : DWord := if r = 0 then 0 else Tbl.get 0 x.g r.toNat

/-- Write register `r`: a write to g0 is discarded (R193). -/
def Engine.setRg (x : Engine) (r : BitVec 5) (v : DWord) : Engine :=
  if r = 0 then x else { x with g := Tbl.put 0 x.g r.toNat v }

/-- The cursor of stream `i`. -/
def Engine.cur_ (x : Engine) (i : BitVec 3) : Cursor := Tbl.get {} x.s i.toNat

/-- Set the position of stream `i`. -/
def Engine.setPos (x : Engine) (i : BitVec 3) (p : Nat) : Engine :=
  { x with s := Tbl.put {} x.s i.toNat { x.cur_ i with pos := BitVec.ofNat 40 p } }

/-- Binding `k`. -/
def Engine.bnd (x : Engine) (k : Nat) : Bind := Tbl.get {} x.x k

/-- Set binding `k`. -/
def Engine.setBnd (x : Engine) (k : Nat) (b : Bind) : Engine := { x with x := Tbl.put {} x.x k b }

/-- A byte of the Alcove. -/
def Engine.alcByte (x : Engine) (a : Nat) : Byte := Tbl.get 0 x.alc a

/-- `n` bytes of the Alcove. -/
def Engine.alcRead (x : Engine) (a n : Nat) : List Byte := (upTo n).map (fun i => x.alcByte (a + i))

/-- Write bytes into the Alcove. -/
def Engine.alcWrite (x : Engine) (a : Nat) (b : List Byte) : Engine :=
  { x with alc := (b.zipIdx).foldl (fun t p => Tbl.put 0 t (a + p.2) p.1) x.alc }

/-! ## Instruction fields -/

/-- Bits [63:32] of an instruction word, INFO of ILLEGAL (Table 3-9). -/
def hiWord (op : Nat) (w : IW) : Word :=
  packW [(24, op), (19, w.rd.toNat), (14, w.ra.toNat), (9, w.rb.toNat), (6, w.ss.toNat), (0, w.md.toNat)]

/-- The fields that an instruction defines as 0 hold 0 (R104): which of rd, ra, rb and ss it uses, and the bits of
mod and imm32 it uses. -/
def fieldsOk (w : IW) (rd ra rb ss : Bool) (md : Nat) (imm : Nat) : Bool :=
  (rd || w.rd == 0) && (ra || w.ra == 0) && (rb || w.rb == 0) && (ss || w.ss == 0) &&
  w.md &&& ~~~(BitVec.ofNat 6 md) == 0 && w.imm &&& ~~~(BitVec.ofNat 32 imm) == 0

/-- The word with the bits of mod that name the row's form at the value the row fixes. -/
def rowForm (w : IW) (mask val : BitVec 6) : IW := { w with md := w.md &&& ~~~mask ||| val }

/-- The I bit: the second operand is the immediate (R190). -/
def immI (w : IW) : Bool := bit w.md 4

/-- The W bit (R105, R191). -/
def formW (w : IW) : Bool := bit w.md 5

/-- The field form of the ALU, shift, multiply and divide groups (R190, Table 5-9); `imm` masks the immediate. -/
def aluOk (w : IW) (rd : Bool) (imm : Nat) : Bool :=
  if immI w then fieldsOk w rd true false false 0x30 imm else fieldsOk w rd true true false 0x30 0

/-- imm32 sign-extended. -/
def sxImm (w : IW) : DWord := w.imm.signExtend 64

/-- The second operand *b* (R190). -/
def opB (x : Engine) (w : IW) : DWord := if immI w then sxImm w else x.rg w.rb

/-- Operation width: 32 for a ".w" form (R105). -/
def opWidth (w : IW) : Nat := if formW w then 32 else 64

/-! ## Stream descriptors (Table 4-1) -/

/-- A decoded stream descriptor. -/
structure Desc where
  kind : Nat
  dir : Bool
  nr : Bool
  sec : Bool
  bb : Bool
  bl : Bool
  port : Nat
  breg : BitVec 5
  lreg : BitVec 5
  cache : BitVec 2
  order : BitVec 2
  base : DWord
  len : Nat
  elem : Nat
  stride : Nat
  deriving DecidableEq, Repr

/-- Decode 32 bytes (Table 4-1). -/
def decDesc (b : List Byte) : Desc :=
  let f := byteAt b 1
  let a := byteAt b 3
  { kind := byteAt b 0, dir := f % 2 == 1, nr := f / 2 % 2 == 1, sec := f / 4 % 2 == 1, bb := f / 8 % 2 == 1,
    bl := f / 16 % 2 == 1, port := byteAt b 2, breg := BitVec.ofNat 5 (1 + a % 4), lreg := BitVec.ofNat 5 (1 + a / 4 % 4),
    cache := BitVec.ofNat 2 (a / 16), order := BitVec.ofNat 2 (a / 64), base := BitVec.ofNat 64 (leAt b 8 8),
    len := leAt b 16 5, elem := leAt b 24 4, stride := leAt b 28 4 }

/-- A memory kind: LINEAR, STRIDED or SGLIST (Table 4-2). -/
def Desc.mem (d : Desc) : Bool := d.kind == 1 || d.kind == 2 || d.kind == 3

/-- A link kind. -/
def Desc.sl (d : Desc) : Bool := d.kind == 4 || d.kind == 5 || d.kind == 6

/-- The checks of R144 on the descriptor bytes, for a channel; `owns` says that it owns the link named. -/
def descOk (b : List Byte) (sec : Bool) (owns : Nat → Bool) : Bool :=
  let d := decDesc b
  let f := byteAt b 1
  decide (1 ≤ d.kind ∧ d.kind ≤ 7) && f / 32 == 0 && leAt b 4 4 == 0 && leAt b 21 3 == 0 &&
  (!d.bb || d.base == 0) && (!d.bl || d.len == 0) &&
  (d.kind == 2 || (d.elem == 0 && d.stride == 0)) &&
  (if d.mem then decide (d.port ≤ 11) || decide (16 ≤ d.port ∧ d.port ≤ 23)
   else if d.sl then decide (d.port ≤ 31) else d.port == 0) &&
  (d.kind != 4 || !d.dir) && (d.kind != 5 || d.dir) && (d.kind != 6 || d.dir) &&
  (!d.nr || d.kind == 1 || d.kind == 2) && ((!d.bb && !d.bl) || d.mem) && (!d.sl || d.base == 0) &&
  (!d.sec || sec) && (d.kind != 2 || (decide (d.elem ≠ 0) && (d.stride == 0 || decide (d.elem ≤ d.stride)))) &&
  (d.kind != 3 || d.bb || d.base.toNat % 16 == 0) &&
  (d.kind != 7 || (decide (d.base.toNat < 0x2000) && decide (d.base.toNat + d.len ≤ 0x2000))) &&
  (d.kind != 6 || d.len == 32) && (!d.sl || owns d.port)

/-- INST code of the port or link that the descriptor names (Table 10-7); ALCOVE names none. -/
def Desc.inst (d : Desc) : Option Nat := if d.kind = 7 then none else if d.sl then some (32 + d.port) else some d.port

/-- The base in force: bound or literal (R138). -/
def Desc.baseOf (d : Desc) (x : Engine) : DWord := if d.bb then x.rg d.breg else d.base

/-- The length in force, without walking a list (R138, R139). -/
def Desc.lenOf (d : Desc) (x : Engine) : Nat := if d.bl then (x.rg d.lreg).toNat % 2 ^ 40 else d.len

/-- The count register is bound by the stream (R160). -/
def Desc.binds (d : Desc) (r : BitVec 5) : Bool := (d.bb && d.breg == r) || (d.bl && d.lreg == r)

/-- The address of stream byte `p` for LINEAR, STRIDED and ALCOVE (R137). -/
def Desc.addrAt (d : Desc) (base : DWord) (p : Nat) : DWord :=
  if d.kind = 2 then base + BitVec.ofNat 64 (p / d.elem * d.stride + p % d.elem) else base + BitVec.ofNat 64 p

/-- Burst maximum of a stream: its port's, 256 for links and the Alcove split (R145). -/
def Desc.maxBurst (d : Desc) : Nat := if d.mem then burstMax d.port else 256

/-- Bytes to the next boundary aligned to `m`. -/
def toBoundary (a m : Nat) : Nat := m - a % m

/-- The largest burst at stream position `p` whose byte lies at `addr` (R145): `room` is what remains of the element of
a list stream. -/
def Desc.burstAt (d : Desc) (addr : DWord) (p room : Nat) : Nat :=
  if d.sl then 256
  else
    let b := toBoundary addr.toNat d.maxBurst
    if d.kind = 2 then min b (d.elem - p % d.elem) else if d.kind = 3 then min b room else b

end Sys2Proof.Machine
end

