-- ==== Sys2Proof/Machine/Flags.lean ====
section
/-! DEFINITION. Flags: the psr (Table 3-5) and the flag rules of the arithmetic instructions (R105, R106, R129, R194 to
R197). -/

namespace Sys2Proof.Machine

def psrZ (p : Word) : Bool := bit p 0
def psrN (p : Word) : Bool := bit p 1
def psrC (p : Word) : Bool := bit p 2
def psrV (p : Word) : Bool := bit p 3
def psrTeDz (p : Word) : Bool := bit p 8
def psrTeOv (p : Word) : Bool := bit p 9
def psrExl (p : Word) : Bool := bit p 16

/-- Set flag `i` of the psr. -/
def psrSet (p : Word) (i : Nat) (v : Bool) : Word := setFld p i 1 (b2n v)

/-- Z and N of an `n`-bit result. -/
def psrZN (n r : Nat) (p : Word) : Word := psrSet (psrSet p 0 (r % 2 ^ n == 0)) 1 (r / 2 ^ (n - 1) % 2 == 1)

/-- A flag that an instruction may define. -/
def psrOpt (p : Word) (i : Nat) : Option Bool → Word
  | none => p
  | some v => psrSet p i v

/-- What an arithmetic instruction yields: the result at its width, C, V, and whether it divided by zero. -/
structure Alu where
  r : Nat
  c : Option Bool := none
  v : Option Bool := none
  dz : Bool := false
  deriving DecidableEq, Repr

/-- The low `n` bits of an operand. -/
def lowN (n : Nat) (v : DWord) : Nat := v.toNat % 2 ^ n

/-- The signed value of an `n`-bit number. -/
def sgn (n a : Nat) : Int := if a < 2 ^ (n - 1) then (a : Int) else (a : Int) - (2 ^ n : Nat)

/-- An integer modulo 2^n. -/
def modN (n : Nat) (z : Int) : Nat := (z % ((2 ^ n : Nat) : Int)).toNat

/-- A signed value fits in `n` bits. -/
def fitsN (n : Nat) (z : Int) : Bool := decide (-((2 ^ (n - 1) : Nat) : Int) ≤ z) && decide (z < ((2 ^ (n - 1) : Nat) : Int))

/-- An `n`-bit result as rd takes it: sign-extended from 32 bits in a ".w" form (R105). -/
def wideN (n r : Nat) : DWord := if n = 32 then (BitVec.ofNat 32 r).signExtend 64 else BitVec.ofNat 64 r

def aluAdd (n a b : Nat) : Alu :=
  { r := (a + b) % 2 ^ n, c := some (decide (2 ^ n ≤ a + b)), v := some (!fitsN n (sgn n a + sgn n b)) }

def aluSub (n a b : Nat) : Alu :=
  { r := modN n ((a : Int) - (b : Int)), c := some (decide (a < b)), v := some (!fitsN n (sgn n a - sgn n b)) }

def aluAnd (_ a b : Nat) : Alu := { r := a &&& b }
def aluOr (_ a b : Nat) : Alu := { r := a ||| b }
def aluXor (_ a b : Nat) : Alu := { r := a ^^^ b }

/-- SLL by an unmasked count (Table 3-12). -/
def aluSll (n a k : Nat) : Alu :=
  { r := a * 2 ^ k % 2 ^ n, c := some (decide (1 ≤ k ∧ k ≤ n) && a / 2 ^ (n - k) % 2 == 1) }

/-- SRL by an unmasked count. -/
def aluSrl (n a k : Nat) : Alu := { r := a / 2 ^ k, c := some (decide (1 ≤ k ∧ k ≤ n) && a / 2 ^ (k - 1) % 2 == 1) }

/-- SRA by an unmasked count: beyond the width every bit is the sign, and so is C. -/
def aluSra (n a k : Nat) : Alu :=
  { r := modN n (sgn n a / ((2 ^ k : Nat) : Int)),
    c := some (decide (1 ≤ k) && (if k ≤ n then a / 2 ^ (k - 1) % 2 == 1 else a / 2 ^ (n - 1) % 2 == 1)) }

/-- ROT toward bit 0 by the count modulo the width; C unchanged. -/
def aluRot (n a k : Nat) : Alu := { r := (a / 2 ^ (k % n) + a * 2 ^ (n - k % n)) % 2 ^ n }

def aluMuls (n a b : Nat) : Alu :=
  let z := sgn n a * sgn n b
  { r := modN n z, v := some (!fitsN n z) }

def aluMulu (n a b : Nat) : Alu := { r := a * b % 2 ^ n, c := some (decide (2 ^ n ≤ a * b)) }
def aluMulhs (n a b : Nat) : Alu := { r := modN n (sgn n a * sgn n b / ((2 ^ n : Nat) : Int)) }
def aluMulhu (n a b : Nat) : Alu := { r := a * b / 2 ^ n }

/-- DIVS, truncated toward zero (Table 3-12). -/
def aluDivs (n a b : Nat) : Alu :=
  if b = 0 then { r := 0, v := some false, dz := true }
  else let z := (sgn n a).tdiv (sgn n b); { r := modN n z, v := some (!fitsN n z) }

def aluDivu (_ a b : Nat) : Alu := if b = 0 then { r := 0, dz := true } else { r := a / b }

/-- REMS, with the sign of the dividend; the most negative value by −1 sets V (R197). -/
def aluRems (n a b : Nat) : Alu :=
  if b = 0 then { r := a, v := some false, dz := true }
  else { r := modN n ((sgn n a).tmod (sgn n b)), v := some (!fitsN n ((sgn n a).tdiv (sgn n b))) }

def aluRemu (_ a b : Nat) : Alu := if b = 0 then { r := a, dz := true } else { r := a % b }

/-- The psr after an arithmetic instruction: sticky OV with V, sticky DZ (Table 3-5). -/
def aluPsr (n : Nat) (o : Alu) (p : Word) : Word :=
  let p1 := psrOpt (psrOpt (psrZN n o.r p) 2 o.c) 3 o.v
  let p2 := if o.v = some true then psrSet p1 5 true else p1
  if o.dz then psrSet p2 4 true else p2

/-- The trap that an arithmetic instruction takes instead: DIVZERO 0x08 or OVERFLOW 0x09 (R129, R194). -/
def aluTrap (o : Alu) (p : Word) : Option Nat :=
  if o.dz && psrTeDz p then some 0x08 else if o.v = some true ∧ psrTeOv p then some 0x09 else none

/-- Branch condition (Table 4-9); 0xF has none. -/
def condHolds (c : Nat) (p : Word) : Option Bool :=
  match c with
  | 0x0 => some (psrZ p)
  | 0x1 => some (!psrZ p)
  | 0x2 => some (psrC p)
  | 0x3 => some (!psrC p)
  | 0x4 => some (psrN p)
  | 0x5 => some (!psrN p)
  | 0x6 => some (psrV p)
  | 0x7 => some (!psrV p)
  | 0x8 => some (!psrC p && !psrZ p)
  | 0x9 => some (psrC p || psrZ p)
  | 0xA => some (psrN p == psrV p)
  | 0xB => some (psrN p != psrV p)
  | 0xC => some (!psrZ p && psrN p == psrV p)
  | 0xD => some (psrZ p || psrN p != psrV p)
  | 0xE => some true
  | _ => none

end Sys2Proof.Machine
end

