-- ==== Sys2Proof/Machine/Engine.lean ====
section
/-! DEFINITION. Engine: what every Damcon instruction does through the engine: guards, exceptions (R121 to R127),
effects, checkpoints and the residue (R111, R167). -/

namespace Sys2Proof.Machine

/-- Opcodes whose destination bursts have boundaries between them: MOVE, FILL, FUNNEL, CAPT, MOVEX and EMIT. -/
def burstOp (op : Nat) : Bool := [0x14, 0x15, 0x16, 0x17, 0x18, 0x84].contains op

/-- The engine stands at an instruction boundary or a burst boundary: no instruction is executing, or one between two of its
destination bursts; a capture burst that has begun and its checkpoint are one burst (R417, R422). -/
def atStop (x : Engine) : Bool :=
  !(x.capturing && (!x.reads.isEmpty || (x.cur.map Cur.out).getD [] != [])) &&
    (match x.busy with | some (op, _) => burstOp op | none => true)

/-- A debug halt holds the engine: it has been asked to stop and stands at such a boundary (R497). -/
def dbgHeld (x : Engine) : Bool := x.dbgStopped && atStop x

/-- The engine executes: it runs a channel and is neither paused nor stopped for debug (R418, R497). -/
def canRun (x : Engine) : Bool := x.phase == .run && !x.paused && (!dbgHeld x || x.dbgStep)

/-- The walks of the streams, with the one that an instruction under way made for itself taken back (R158, R230). -/
def Engine.walks (x : Engine) : Tbl SgWalk :=
  match x.cur with
  | some c => (match c.walk0 with | some w => Tbl.put {} x.walk c.w.ss.toNat w | none => x.walk)
  | none => x.walk

/-- The instruction is over, and the one at `pc` comes next in sequence (R130). -/
def Engine.seqTo (x : Engine) (pc : BitVec 32) : Engine :=
  { x with pc := pc, pcOut := false, walk := x.walks, cur := none, busy := none, reads := [], capturing := false, pipe := none,
           pipeAsk := false, dbgStep := false }

/-- The instruction is over with the next pc given, from a prefetch buffer to be refilled (R130). -/
def Engine.goto (x : Engine) (pc : BitVec 32) : Engine := { x.seqTo pc with buf := [] }

/-- The instruction retires to its successor. -/
def Engine.retire (x : Engine) : Engine := x.seqTo (x.pc + 8)

/-- The channel an engine runs. -/
def chanOf (s : State) (e : EngId) : Chan := s.chan (s.eng e).ch

/-! ## Data writes and the residue -/

/-- A data write of engine `e` is issued to stream `ss`; `counted` as R154 says. -/
def dataWrite (e : EngId) (ss : BitVec 3) (d : Desc) (addr : DWord) (b : List Byte) (counted : Bool) (s : State) : State :=
  let n := b.length
  let s1 := s.modEng e (fun x => { x with bytesSince := x.bytesSince + n, issued := if counted then x.issued + n else x.issued })
  issue (engTxn e d.port 1 addr n b d.sec (chanOf s e).owner d.cache d.order (some ss) (.data e ss counted)) s1

/-- Bytes of stream `ss` from address `a` on, as bursts that cross no boundary aligned to the port's maximum (R145, R440); `fuel`
bounds their number. -/
def dataBursts (e : EngId) (ss : BitVec 3) (d : Desc) : Nat → DWord → List Byte → State → State
  | 0, _, _, s => s
  | fuel + 1, a, b, s =>
    if b.isEmpty then s
    else
      let k := min b.length (toBoundary a.toNat d.maxBurst)
      dataBursts e ss d fuel (a + BitVec.ofNat 64 k) (b.drop k) (dataWrite e ss d a (b.take k) true s)

/-- Write the residue at the destination position (R166, R167); it waits at the gallery arbiter for the writes
that R405 and R445 put before it. DESIGN CHOICE (log entry 59): the base of a bound stream is the register's value at the flush, not
the value that FUNNEL sampled. -/
def flush (e : EngId) (s : State) : State :=
  let x := s.eng e
  match x.residue with
  | none => s
  | some r =>
    let d := decDesc (Tbl.get [] x.sd r.dst.toNat)
    let p := (x.cur_ r.dst).pos.toNat
    let a := d.addrAt (d.baseOf x) p
    let s1 := s.modEng e (fun y => { y.setPos r.dst (p + r.bytes.length) with residue := none })
    dataBursts e r.dst d 64 a r.bytes s1

/-! ## Exceptions -/

/-- Status of an exception that ends the work order (Table 3-9). -/
def causeStatus (cause : Nat) : Byte :=
  if cause = 0x08 ∨ cause = 0x09 then 0x28
  else if cause = 0x18 then 0x20 else if cause = 0x19 then 0x21 else if cause = 0x1A then 0x22 else if cause = 0x1B then 0x23
  else if cause = 0x30 then 0x40 else 0x29

/-- Bus cause of a response code (Table 3-9); a reserved code counts as SLVERR (R450). -/
def busCause (code : BitVec 3) : Nat := if code = 2 then 0x19 else if code = 3 then 0x1A else if code = 4 then 0x1B else 0x18

/-- Status of a response code (R79, R102). -/
def busStatus (code : BitVec 3) : Byte := causeStatus (busCause code)

/-- A valid stack pointer (R110). -/
def spValid (c : Chan) (sp : DWord) : Bool :=
  sp.toNat % 64 == 0 && decide (c.stkLo + 64 ≤ sp.toNat) && decide (sp.toNat ≤ c.stkHi) && decide (c.stkLo < c.stkHi)

/-- ESTRM (Table 3-10). -/
def estrm (x : Engine) (strm : Option (BitVec 3)) : DWord :=
  match strm with
  | none => 0
  | some i => BitVec.ofNat 64 (i.toNat + 8 + (x.cur_ i).pos.toNat * 2 ^ 16)

/-- The words of the exception frame (Table 3-10). -/
def excFrame (x : Engine) (cause : Nat) (info : Word) (epc : BitVec 32) (eaddr : DWord) (strm : Option (BitVec 3)) : List DWord :=
  [BitVec.ofNat 64 epc.toNat, BitVec.ofNat 64 x.psr.toNat, BitVec.ofNat 64 (cause + info.toNat * 2 ^ 32), eaddr,
   x.rg 1, x.rg 2, estrm x strm, 0]

/-- The work order ends once its writes are answered (R674). -/
def beginEnd (status : Byte) (x : Engine) : Engine :=
  { x with phase := .ending status, cur := none, busy := none, reads := [], capturing := false, pipe := none, pipeAsk := false }

/-- The frame of a STACK_INVALID exception goes to the Glovebox, unless it still holds one (R127). -/
def glovebox (f : List DWord) (x : Engine) : Engine :=
  if x.gbValid then { x with gbOvf := true }
  else { x with gb := f.take 7 ++ [x.rg 31], gbValid := true, gbCh := x.ch }

/-- Take an exception (R122, R127): the residue is written first (R167). -/
def takeExc (e : EngId) (cause : Nat) (info : Word) (epc : BitVec 32) (eaddr : DWord) (strm : Option (BitVec 3)) (s : State) :
    State :=
  let s1 := flush e s
  let x := s1.eng e
  let c := chanOf s1 e
  let sp := x.rg 31
  let f := excFrame x cause info epc eaddr strm
  if !spValid c sp then s1.setEng e (beginEnd 0x2F (glovebox f x))
  else
    let y := (x.alcWrite (sp.toNat - 64) (f.flatMap (fun v => toLe 8 v.toNat))).setRg 31 (sp - 64)
    if psrExl y.psr || c.handler == 0 then s1.setEng e (beginEnd (causeStatus cause) y)
    else
      let z := (y.setRg 1 (f.getD 2 0)).setRg 2 (f.getD 3 0)
      s1.setEng e { (z.goto c.handler) with psr := psrSet z.psr 16 true }

/-- An exception at the instruction executing (EPC: the instruction). -/
def excAt (e : EngId) (cause : Nat) (info : Word) (eaddr : DWord) (strm : Option (BitVec 3)) (s : State) : State :=
  takeExc e cause info (s.eng e).pc eaddr strm s

/-- ILLEGAL (R104). -/
def illegal (e : EngId) (op : Nat) (w : IW) (s : State) : State := excAt e 0x01 (hiWord op w) 0 none s

/-- A stream exception: INFO is the stream index. -/
def strmExc (e : EngId) (cause : Nat) (i : BitVec 3) (s : State) : State :=
  excAt e cause (BitVec.ofNat 32 i.toNat) 0 (some i) s

/-- DESC_INVALID: INFO is the descriptor offset. -/
def descExc (e : EngId) (i : BitVec 3) (s : State) : State :=
  excAt e 0x13 (BitVec.ofNat 32 (((s.eng e).cur_ i).desc.toNat * 32)) 0 (some i) s

/-- TRANSFORM with a sub-cause and binding (R271). -/
def xformExc (e : EngId) (sub bnd : Nat) (s : State) : State := excAt e 0x30 (packW [(0, sub), (8, bnd % 4)]) 0 none s

/-- A read of the engine that was answered other than OKAY and has not yet raised its exception; one of an instruction word raises
it by INSTRUCTION_FETCH_FAULT (R132). -/
def failedRead (x : Engine) : Option EngRead := x.reads.find? (fun r => r.err.isSome && r.what != 5)

/-- The instruction word with these fields (Table 3-4). -/
def insnWord (op : Nat) (w : IW) : DWord := BitVec.ofNat 64 ((hiWord op w).toNat * 2 ^ 32 + w.imm.toNat)

/-- The word at pc, if the prefetch buffer holds it (R130). -/
def fetched (x : Engine) : Option DWord := (x.buf.find? (fun p => p.1 == x.pc)).map Prod.snd

/-- The engine executes this instruction: it is the one that has begun, which completes as it was decoded (R133), or the word at pc
in the prefetch buffer (R130). A read that failed comes first, and nothing executes outside the 32-bit offsets (R184). -/
def admits (x : Engine) (op : Nat) (w : IW) : Bool :=
  !x.pcOut && (failedRead x).isNone && (match x.busy with
    | some b => b == (op, w)
    | none => fetched x == some (insnWord op w))

/-- The bank that engine `e` holds (R530). -/
def heldBank (s : State) (e : EngId) : Bank := if (s.eng e).bank then (s.gal e.g.toNat).bankB else (s.gal e.g.toNat).bankA

/-- The Damcon minor version of an image (Table 15-3). -/
def imgMinor (id : Word) : Nat := fld id 16 8

/-- The engine stands still: its clock is stopped for a frequency change, its gallery or wing is held by a fault source, or its bank is
reloading and it stands at an instruction or burst boundary (R475, R534, R557). -/
def engHeld (s : State) (e : EngId) : Bool :=
  (s.sup (1 + e.g.toNat / 8)).clkStop || domHeld s (7 + e.g.toNat) || domHeld s (3 + e.g.toNat / 8) ||
  ((heldBank s e).st == .reloading && atStop (s.eng e))

/-- Features that an instruction needs of the image, as bits of FEAT (Table 15-4). -/
def opFeat (op : Nat) : Nat :=
  match op with
  | 0x63 | 0x84 | 0x85 => 4
  | 0x18 => 8
  | 0x71 | 0x72 | 0x73 | 0x74 => 16
  | _ => 0

/-- The least Damcon minor version that assigns an instruction form (Table 15-13). -/
def opMinor (op : Nat) (w : IW) : Nat :=
  match op with
  | 0x74 => 1
  | 0x84 | 0x0B => fld w.md 0 1
  | _ => 0

/-- The image of the bank that the engine holds provides features and a minor version (R522, R537). -/
def imgGives (s : State) (e : EngId) (feat minor : Nat) : Bool :=
  BitVec.ofNat 6 feat &&& ~~~(heldBank s e).feat == 0 && decide (minor ≤ imgMinor (heldBank s e).imgId)

/-- A read that failed raises its bus exception at the instruction (R152), with INFO[1] for one that counts as a fetch (R200), as
soon as the engine executes. DESIGN CHOICE (log entry 50): R200 says so of LDV alone; TCLD's counter read and EMIT's template
read set INFO[1] likewise. -/
def raiseRead (e : EngId) (s : State) : State :=
  if canRun (s.eng e) && !engHeld s e then
    (match failedRead (s.eng e) with
     | some q =>
       excAt e (busCause (q.err.getD 1)) (if q.t.isNone && q.what == 1 then 2 else 0) q.addr none
         (s.modEng e (fun y => { y with reads := [] }))
     | none => s)
  else s

/-- The words from offset `o` on that slice `k` holds, at most `n` (R131); what lies outside program space is no word. -/
def bufWords (s : State) (k : Nat) : Nat → Nat → List (BitVec 32 × DWord)
  | 0, _ => []
  | n + 1, o =>
    let a := (s.psBase + BitVec.ofNat 64 o).toNat
    let v := s.line (a / 64)
    if o < s.psSize ∧ v.st ≠ .I ∧ inSlice v k then
      (BitVec.ofNat 32 o, BitVec.ofNat 64 (ofLe (slice v.data (a % 64) 8))) :: bufWords s k n (o + 8)
    else []

/-- The engine fetches the instruction at pc: one that the prefetch buffer does not hold is read from the Vitrine, and the buffer
takes the word and those after it that the slice holds, 16 at most; how many is a free value (R130, R131, log entry 3). -/
def fetch (e : EngId) (s : State) : State :=
  let x := s.eng e
  if x.busy.isSome || x.pcOut || decide (x.pc.toNat < 0x40) || decide (s.psSize ≤ x.pc.toNat) || (fetched x).isSome ||
      x.reads.any (fun r => r.what == 5 && r.err.isSome) then s
  else (psRead e 5 x.pc.toNat 8 s).run fun _ t =>
    let (v, u) := t.draw
    u.modEng e (fun y => { y with buf := bufWords u (sliceOf u (e.g.toNat / 8)) (1 + v.toNat % 16) x.pc.toNat })

/-- The cause that an instruction's entry word raises, where the bank's image has an EXC word there (R519, Table 15-2). -/
def entryExc (s : State) (e : EngId) (op : Nat) : Option Nat :=
  match (heldBank s e).words[op]? with
  | some m => if fld m.w 113 3 = 5 then some (fld m.w 0 8) else none
  | none => none

/-- An EXC entry word raises its cause (R519, R122); INFO is that of Table 3-9 for ILLEGAL, and a free value for a cause whose INFO
speaks of something else (log entry 3). -/
def entryRaises (e : EngId) (op : Nat) (w : IW) (cause : Nat) (s : State) : State :=
  if cause = 1 then illegal e op w s else let (v, t) := s.draw; excAt e cause (v.truncate 32) 0 none t

/-- One instruction: nothing while the engine does not execute, or executes another word than this (R131); ILLEGAL when a field check
fails (R104) or the image that the engine runs does not provide it (R522, R537). It starts at the entry word of its opcode
(R519). -/
def insn (e : EngId) (op : Nat) (w : IW) (ok : Bool) (body : State → State) (s : State) : State :=
  if canRun (s.eng e) && !engHeld s e then
    (if (failedRead (s.eng e)).isSome then raiseRead e s
    else
      let t := fetch e s
      if admits (t.eng e) op w then
        (match entryExc t e op with
         | some c => entryRaises e op w c t
         | none => if ok && imgGives t e (opFeat op) (opMinor op w) then body t else illegal e op w t)
      else t)
  else s

/-- An instruction that may stall: it is held as decoded until it completes (R133, R417). -/
def insnB (e : EngId) (op : Nat) (w : IW) (ok : Bool) (body : State → State) (s : State) : State :=
  insn e op w ok (fun t => body (t.modEng e (fun x => { x with busy := some (op, w) }))) s

/-- A register-only instruction: the engine changes and retires. -/
def regInsn (e : EngId) (op : Nat) (w : IW) (ok : Bool) (f : Engine → Engine) (s : State) : State :=
  insn e op w ok (fun t => t.modEng e (fun x => (f x).retire)) s

/-! ## Checkpoints -/

/-- A checkpoint begins: it commits once the interval's writes are acknowledged (R113, Table 4-6). -/
def startCkpt (e : EngId) (pc : BitVec 32) (k : AfterCk) (s : State) : State :=
  s.modEng e (fun x => { x with phase := .commit pc k, dbgStep := false })

/-- A checkpoint at an instruction: the residue is written first (R167). -/
def ckptAt (e : EngId) (pc : BitVec 32) (k : AfterCk) (s : State) : State :=
  startCkpt e pc k (flush e s)

/-- An instruction that places an effect: a full effect buffer takes a checkpoint first, at the instruction
(Table 3-7). -/
def withEffect (e : EngId) (body : State → State) (s : State) : State :=
  if (s.eng e).effects.length < 16 then body s else ckptAt e (s.eng e).pc .go s

/-- The gallery of the engine closes under a power-down request (R616), or its slot drains (R592). -/
def engClosing (s : State) (e : EngId) : Bool :=
  (s.dom (7 + e.g.toNat)).entering || (s.slot e).st == .draining

/-- A checkpoint has been due for CKPT_TIME × 16 ticks without an eligible boundary (R168). -/
def overdue (s : State) (e : EngId) : Bool :=
  match (s.eng e).due with
  | some t => decide ((chanOf s e).ckTicks ≤ (s.now - t).toNat)
  | none => false

/-- An automatic checkpoint is due at an eligible boundary (Table 3-7). -/
def ckptDue (s : State) (e : EngId) : Bool :=
  let x := s.eng e
  let c := chanOf s e
  x.due.isSome || (s.dom (7 + e.g.toNat)).entering || (decide (0 < c.ckBytes) && decide (c.ckBytes ≤ x.bytesSince)) ||
  (decide (0 < c.ckTicks) && decide (c.ckTicks ≤ (s.now - x.ckAt).toNat))

/-- Ask for an automatic checkpoint (R111). -/
def markDue (e : EngId) (s : State) : State :=
  s.modEng e (fun x => { x with due := match x.due with | some t => some t | none => some s.now })

/-- Carried count registers are g1 to g4 (Table 4-5). -/
def carriedReg (r : BitVec 5) : Bool := decide (1 ≤ r.toNat ∧ r.toNat ≤ 4)

end Sys2Proof.Machine
end

