-- ==== Sys2Proof/Machine/Orders.lean ====
section
/-! DEFINITION. Orders: how a work order commits a checkpoint, leaves its engine and ends (R97, R111 to R115, R175 to
R180, R214, R592, R616, R674). -/

namespace Sys2Proof.Machine

/-- REPLAYED of a work order without an engine: it has replayed since its last commit, or before it (Table 2-10). -/
def heldReplayed (c : Chan) : Bool := c.replays != 0 || (!c.fresh && c.ck.replayed)

/-! ## Leaving the engine -/

/-- An engine that holds no channel: the Glovebox and the bank stay (R128, R426). -/
def Engine.freed (x : Engine) (t : DWord) : Engine :=
  { bank := x.bank, gb := x.gb, gbValid := x.gbValid, gbOvf := x.gbOvf, gbCh := x.gbCh, freeAt := t }

/-- The engine is released. -/
def freeEng (e : EngId) (s : State) : State := s.modEng e (fun x => x.freed s.now)

/-- Reservations of the notices among effects that are discarded (R66). -/
def unreserve (l : List Release) (c : Chan) : Chan :=
  let n := (l.filter (fun r => match r with | .notice .. => true | _ => false)).length
  { c with reserved := c.reserved - n }

/-- The engine's held effects are discarded with their reservations (R34, R66, R422). -/
def dropEffects (e : EngId) (s : State) : State :=
  let x := s.eng e
  (s.modChan x.ch (unreserve x.effects)).modEng e (fun y => { y with effects := [], counters := [], residue := none })

/-- The channel gives up its engine and waits with a reason (Table 2-7); one that a ring error has HALTED meanwhile waits from
its RESUME on (R673). -/
def releaseTo (e : EngId) (r : WaitReason) (s : State) : State :=
  let ch := (s.eng e).ch
  touch ch ((freeEng e s).modChan ch (fun c =>
    if c.st = .halted then { c with eng := none, preWait := r }
    else { c with eng := none, wait := r, st := if c.st = .running then .waiting else c.st }))

/-- Complete the work order on engine `e`, which is released; the next entry is considered (R180, R408). -/
def endOrder (e : EngId) (status : Byte) (bytes : Nat) (s : State) : State :=
  let x := s.eng e
  let ch := x.ch
  let c := s.chan ch
  let t := completeOrder ch status (BitVec.ofNat 48 bytes) x.late x.replayed (freeEng e s)
  considerHead ch (traceWord 3 ch e c.sec t)

/-! ## Fires -/

/-- What a RUN_AT entry whose anchor is over waits for: its GATE event, or an engine (R336). -/
def runAtNext (s : State) (ch : BitVec 12) : WaitReason := if gateOpen s ch then .ready else .event

/-- The action of a fire: the channel is ready if it waits on its anchor (R306). -/
def fireActs (ch : BitVec 12) (s : State) : State :=
  touch ch (s.modChan ch (fun c =>
    { c with wait := if c.wait = .anchor ∨ c.wait = .time then (if c.sched.act = 1 then runAtNext s ch else .ready) else c.wait }))

/-- The channel's anchor fires: FIRED, the time of the fire, and its action, which waits while CORE's clock stands still (R306,
R307, R631). -/
def fireChan (ch : BitVec 12) (s : State) : State :=
  let t := (tmAdd 28 1 (disarm ch s)).modChan ch (fun c => { c with sched := { c.sched with fired := true, fire := s.now.truncate 32 } })
  if coreStopped s then { t with evc := { t.evc with lateCh := t.evc.lateCh ++ [ch] } } else fireActs ch t

/-- CORE's clock runs again: the actions that waited for it are taken, in their order (R631). -/
def lateActions (s : State) : State :=
  let t := { s with evc := { s.evc with late := [], lateCh := [] } }
  foldS s.evc.lateCh fireActs (foldS s.evc.late emitT t)

/-- The condition of a WAIT at its checkpoint: an anchor that fired or has passed, or a pending event (R176, R177). -/
def waitMet (s : State) (ch : BitVec 12) : Bool :=
  let d := (s.chan ch).sched
  if d.act = 5 then (match subOf s ch d.ec.toNat with | some j => (s.sub j).pend | none => false)
  else d.fired || (d.armed && anchorPast s d.anchor d.angular 0)

/-- WAIT_REASON of a WAIT (Table 4-8). -/
def waitReason (d : Sched) : WaitReason := if d.act = 5 then .event else if d.act = 4 then .time else .anchor

/-- A WAIT whose condition is met consumes its event, or its anchor has fired (R206, R306). -/
def waitTake (ch : BitVec 12) (s : State) : State :=
  let d := (s.chan ch).sched
  if d.act = 5 then (match subOf s ch d.ec.toNat with | some j => consume j s | none => s)
  else if d.fired then s else fireChan ch s

/-! ## The commit (R113, R214) -/

/-- A transform record entry (Table 5-6). -/
def xrecBytes (b : Bind) : List Byte :=
  if b.bound then toLe 4 (b.desc.toNat * 256 + 1) ++ toLe 2 b.ks.toNat ++ [0, 0] ++ toLe 8 b.run.toNat
  else List.replicate 16 0

/-- The record entries a checkpoint hands over, ahead of the effects: all four the first time, later those that changed
(R214); none without a record area. -/
def xrecEffects (s : State) (x : Engine) : List Release :=
  if bit (s.app .xrecBase) 0 then
    ((upTo 4).filter (fun k => !x.committed || (x.bnd k).changed)).map (fun k => .xrec (BitVec.ofNat 2 k) (xrecBytes (x.bnd k)))
  else []

/-- The checkpoint area after a commit at `pc` (Table 3-8). -/
def ckptOf (x : Engine) (pc : BitVec 32) : Ckpt :=
  { pc := pc, psr := x.psr, bytes := BitVec.ofNat 48 x.acked, seq := x.ckSeq + 1, replayed := x.replayed, late := x.late,
    g := Tbl.keep (fun k => decide (1 ≤ k ∧ k ≤ 4)) x.g, s := x.s }

/-- After a commit inside CAPT the engine stands between two checkpoints of a capture burst (R118). -/
def Engine.captures (x : Engine) (pc : BitVec 32) : Bool := pc == x.pc && (match x.busy with | some (op, _) => op == 0x18 | none => false)

/-- The engine after a commit: effects handed over, both intervals restarted (R112, R113). -/
def Engine.committedAt (x : Engine) (pc : BitVec 32) (t : DWord) : Engine :=
  { x with ckSeq := x.ckSeq + 1, effects := [], counters := [], bytesSince := 0, ckAt := t, due := none, wErr := none,
           committed := true, capturing := x.captures pc,
           x := x.x.map (fun p => (p.1, { p.2 with changed := false })) }

/-- The ports that the defined streams name, each stream's descriptor as last checked (R400). -/
def portsOf (x : Engine) (old : Tbl Nat) : Tbl Nat :=
  foldS (upTo 8) (fun i t =>
    if (Tbl.get {} x.s i).desc = 0 then Tbl.put 0 t i 0
    else match Tbl.get [] x.sd i with
      | [] => t
      | b => Tbl.put 0 t i (match (decDesc b).inst with | some p => p + 1 | none => 0)) old

/-- The engine holds an AES binding: modes XTS, CTR and CBCP (Table 6-2). -/
def holdsAes (x : Engine) : Bool :=
  (upTo 4).any (fun k => (x.bnd k).bound && decide (1 ≤ byteAt (x.bnd k).bytes 0 ∧ byteAt (x.bnd k).bytes 0 ≤ 3))

/-- The transform record as handed over holds an AES binding (R249, Table 10-10). -/
def recHoldsAes (s : State) (x : Engine) : Bool := bit (s.app .xrecBase) 0 && holdsAes x

/-- The atomic step of a commit (R113): carried state to the checkpoint area, effects to the hub, link data released. -/
def commitStep (e : EngId) (pc : BitVec 32) (s : State) : State :=
  let x := s.eng e
  let ch := x.ch
  let s1 := (s.modChan ch (fun c =>
      { c with ck := ckptOf x pc, ports := portsOf x c.ports, fresh := false, replays := 0, lateTrap := none, recAes := recHoldsAes s x,
               rel := c.rel ++ xrecEffects s x ++ x.effects }))
  let s2 := modOwned ch linkCommit (s1.setEng e (x.committedAt pc s.now))
  traceWord 2 ch e (s.chan ch).sec (tmAdd 25 1 s2)

/-- The channel leaves an engine that drains or whose gallery closes: a migration (R592, R616). -/
def migrate (e : EngId) (s : State) : State := releaseTo e .ready (tmAdd 27 1 s)

/-- What follows a commit at `pc`. An engine that drains or whose gallery closes gives its channel up, unless that is PAUSED; a
WAIT whose condition is met has then consumed its event, and a LATE that its policy traps is raised where the channel resumes
(R592, R616). -/
def afterCommit (e : EngId) (pc : BitVec 32) (k : AfterCk) (s : State) : State :=
  let ch := (s.eng e).ch
  let away := engClosing s e && (s.chan ch).st != .paused
  let run := s.modEng e (fun x =>
    if pc = x.pc then { x with phase := .run } else { x.seqTo pc with phase := .run })
  match k with
  | .go => if away then migrate e s else run
  | .yield => releaseTo e .ready s
  | .done => endOrder e (if (s.eng e).late then 1 else 0) (s.eng e).acked s
  | .wait =>
    if !waitMet s ch then releaseTo e (waitReason (s.chan ch).sched) s
    else if away then migrate e (waitTake ch s)
    else waitTake ch run
  | .drop => endOrder e 0x38 0 s
  | .trap info =>
    let late (t : State) := t.modChan ch (fun c => { c with lateTrap := some info })
    if away then migrate e (late s) else takeExc e 0x20 info pc 0 none (late run)
  | .space => releaseTo e (if (s.chan ch).slotFree then .ready else .noticeSpace) s

/-- A failed data write raises its exception, imprecise, at the instruction executing; no later checkpoint raises it
again (R113, R181). -/
def raiseImprecise (e : EngId) (s : State) : State :=
  match (s.eng e).wErr with
  | none => s
  | some (_, code, addr) =>
    takeExc e (busCause code) 1 (s.eng e).pc addr none (s.modEng e (fun x => { x with phase := .run, wErr := none }))

end Sys2Proof.Machine
end

