-- ==== Sys2Proof/Machine/FaultOps.lean ====
section
/-! DEFINITION. FaultOps: what an assertion of a fault source does: recording, reactions, recoveries and verdicts (16, 17,
Table 10-8). -/

namespace Sys2Proof.Machine

/-- Change FCR. -/
def State.modFcr (s : State) (f : Fcr → Fcr) : State := { s with fcr := f s.fcr }

/-- Change Docent. -/
def State.modDoc (s : State) (f : Doc → Doc) : State := { s with doc := f s.doc }

/-- FCR takes assertions: CORE is ON and out of reset. -/
def fcrOn (s : State) : Bool := s.coreOn && !s.boot.rstN && !s.boot.rstAo

/-- Docent works: CORE is up and Tilzu is not in unguarded operation (R568). -/
def docUp (s : State) : Bool := fcrOn s && coreUp s && !s.fcr.unguarded

/-- R588's tests run. -/
def perOn (s : State) : Bool := docUp s && bit (s.reg .docCfg) 28

/-- Rotation is enabled. -/
def rotOn (s : State) : Bool := bit (s.reg .docCfg) 30 && fld (s.reg .rotCfg) 24 8 != 0

/-! ## Recording (R549 to R555, R676) -/

/-- FE_INFO of an assertion (Table 16-8). -/
def feWord (i : FaultInfo) : Word :=
  packW ([(4, i.cls.toNat)] ++ (match i.ch with | some c => [(20, c.toNat), (19, 1)] | none => []) ++
    (match i.eng with | some e => [(14, e.g.toNat), (9, e.slot.val), (8, 1)] | none => []))

/-- A source with a unit that can be cordoned (R544). -/
def cordonable (n : Nat) : Bool :=
  n < 32 || (64 ≤ n && n < 128) || (160 ≤ n && n < 168) || (234 ≤ n && n < 250)

/-- The effective severity of an assertion of source `n` now (R544, R547, R548, R569). -/
def sevOf (s : State) (n : Nat) : Nat :=
  let b := if n = 263 ∨ (srcStuck s n && !cordonable n) then 4 else fld (s.app (.sev (n / 8))) (4 * (n % 8)) 3
  if s.fcr.unguarded && b != 0 then 4 else b

/-- First-error capture, or an overflow of it (R550, R551). -/
def feCapture (n sev : Nat) (i : FaultInfo) (rail : Bool) (s : State) : State :=
  let f := s.fcr
  if f.feV then { s with fcr := { f with feOvf := true, feOvfCnt := satAdd f.feOvfCnt 1 } }
  else emitT [235] { s with fcr := { f with
    feV := true, feInj := i.inj, feRail := rail, feSev := BitVec.ofNat 3 sev, feSrc := BitVec.ofNat 9 n,
    feInfo := feWord i, feAddr := i.addr, feTime := s.now } }

/-- The level latch and the pulse (R553). -/
def fltAct (sev : Nat) (s : State) : State :=
  if sev = 4 ∨ (sev = 3 ∧ fld (s.reg .fltCtrl) 0 2 = 0) then s.modFcr (fun f => { f with latch := true })
  else if sev = 3 then s.modFcr (fun f => { f with pulse := true })
  else s

/-- One assertion is recorded (R549 to R555). -/
def recordFault (n : Nat) (i : FaultInfo) (rail : Bool) (s : State) : State :=
  let sev := sevOf s n
  let s1 := s.modFcr (fun f => { f with cnt := Tbl.put 0 f.cnt n (satAdd (Tbl.get 0 f.cnt n) 1) })
  let s2 := if 1 ≤ sev then
      lgRecord (0x100 + n) sev i.inj (feWord i) (i.addr.truncate 32)
        (s1.modFcr (fun f => { f with pend := Tbl.put false f.pend n true }))
    else s1
  if 2 ≤ sev then
    fltAct sev ((feCapture n sev i rail s2).modFcr (fun f => { f with active := true, quietFrom := s.now }))
  else s2

/-! ## Slots (R578 to R581, R591) -/

/-- The next spare of gallery `g`: the SPARE with the lowest WEAR, ties to the lowest slot (R578). -/
def spareOf (s : State) (g : Nat) : Option EngId :=
  ((upTo 17).map (fun k => engOf (g * 17 + k))).foldl (fun b e =>
    if (s.slot e).st = .spare then
      (match b with
       | some f => if (s.slot e).wear.toNat < (s.slot f).wear.toNat then some e else b
       | none => some e)
    else b) none

/-- The next spare enters SERVICE, where fewer than 16 slots serve (R578, R580). -/
def enterSpare (g : Nat) (s : State) : State :=
  if inService s g < 16 then
    (match spareOf s g with
     | some e => s.modSlot e (fun x => { x with st := .service })
     | none => s)
  else s

/-- The slot is RETIRED and the next spare replaces it (R580). -/
def retireSlot (e : EngId) (s : State) : State := enterSpare e.g.toNat (s.modSlot e (fun x => { x with st := .retired }))

/-- The slot returns: to SERVICE, or as a SPARE beside 16 others (R581). -/
def returnSlot (e : EngId) (s : State) : State :=
  s.modSlot e (fun x => { x with st := if inService s e.g.toNat < 16 then .service else .spare })

/-- A rotation of gallery `g` ends with its spare in SERVICE (R591, Table 19-7). -/
def rotationDone (g : Nat) (r x : Fin 17) (s : State) : State :=
  let s1 := s.modSlot { g := BitVec.ofNat 5 g, slot := x } (fun q => { q with st := .service })
  let s2 := s1.modGal g (fun y => { y with rotOut := none, rotIn := none, rotDue := false, rotLast := s.now, rotFirst := false })
  lgRecord 0x41 0 false (packW [(0, g), (8, r.val), (16, x.val)]) 0
    (s2.modDoc (fun d => { d with rotDone := d.rotDone + 1 }))

/-- FCR cordons a slot; a slot that drains under a rotation ends it with the next spare in SERVICE, or uncounted where none is left
(R558, Table 17-8). -/
def cordonSlot (e : EngId) (s : State) : State :=
  let g := e.g.toNat
  if (s.slot e).st = .retired then s
  else
    let s1 := traceWord 5 0 e false (s.modSlot e (fun x => { x with st := .cordoned }))
    match (s.gal g).rotOut, (s.gal g).rotIn with
    | some r, some _ =>
      if r ≠ e.slot then s1
      else match spareOf s1 g with
        | some x => rotationDone g r x.slot s1
        | none => s1.modGal g (fun y => { y with rotOut := none, rotIn := none })
    | none, some x => if x = e.slot then s1.modGal g (fun y => { y with rotIn := none }) else s1
    | _, _ => s1

/-! ## Engines and galleries -/

/-- An engine stops: its requests that no arbiter has granted are withdrawn (R542). An engine that waits at ABORT's stop
point stops as well, and its order replays (R558); one that KILL has stopped, or whose channel is no longer enabled, ends as it
was to end (Table 11-5). -/
def stopEngine (e : EngId) (s : State) : State :=
  let x := s.eng e
  let go : Bool := match x.phase with
    | .idle | .faulted => false
    | .stopping st => st == 0x30 && !(s.chan x.ch).abandoned
    | _ => true
  if go then withdrawAll (fun k => Txn.ofEng e k && k.stage == .atGal) (s.modEng e (fun y => { y with phase := .faulted, pipe := none, pipeAsk := false }))
  else s

/-- Engines of a gallery. -/
def galEngs (g : Nat) : List EngId := (upTo 17).map (fun k => engOf (g * 17 + k))

/-- Every engine of a gallery stops, for a replay elsewhere. -/
def stopGal (g : Nat) (s : State) : State := foldS (galEngs g) stopEngine s

/-- The gallery has an AES pipeline in service (R249). -/
def aesServes (s : State) (g : Nat) : Bool := pipeOk s g false || pipeOk s g true

/-- An engine that needs an AES pipeline where none is in service stops, for a replay elsewhere (R25, R249). -/
def rehomeAes (e : EngId) (s : State) : State :=
  stopEngine e (s.modChan (s.eng e).ch (fun c => { c with needAes := true }))

/-- A pipeline is cordoned; with both out the engines that hold an AES binding stop (R249). -/
def cordonPipe (g : Nat) (p : Bool) (s : State) : State :=
  let t := traceAny 5 0 (some g) false (s.modGal g (fun x => if p then { x with pipe1 := true } else { x with pipe0 := true }))
  if aesServes t g then t
  else foldS ((galEngs g).filter (fun e => (t.eng e).phase != .idle && holdsAes (t.eng e))) rehomeAes t

/-- Cordon a gallery for the unit `key`. -/
def cordonGal (g key : Nat) (s : State) : State :=
  stopGal g (traceAny 5 0 (some g) false (s.modGal g (fun x =>
    { x with cordonedBy := if x.cordonedBy.contains key then x.cordonedBy else x.cordonedBy ++ [key] })))

/-- Cordon a Vitrine slice: its lines are written back or dropped (R470). -/
def cordonSlice (w : Nat) (s : State) : State :=
  let t := traceAny 5 0 none false { s with sliceCord := Tbl.put false s.sliceCord w true }
  foldS (sliceLines t w) (evictFrom w) t

/-- Whether the engine's channel has a stream that names port `p`. -/
def engNames (s : State) (e : EngId) (p : Nat) : Bool :=
  let x := s.eng e
  x.phase != .idle && (portsOf x (s.chan x.ch).ports).any (fun q => q.2 == p + 1)

/-- Engines of a wing. -/
def wingEngs (w : Nat) : List EngId := (upTo 8).flatMap (fun k => galEngs (8 * w + k))

/-- Cordon wing `w`'s path to port `p`: channels that use the port replay (Table 10-8), and what engines had waiting on the
path is withdrawn. -/
def cordonPath (w p : Nat) (s : State) : State :=
  let t := foldS ((wingEngs w).filter (fun e => engNames s e p)) (fun e u =>
    let x := u.eng e
    stopEngine e (u.modChan x.ch (fun c => { c with ports := portsOf x c.ports }))) s
  let out (k : Txn) : Bool := k.gal.isSome && k.stage == .atPort && k.port.toNat == p && k.wing == some (BitVec.ofNat 2 w)
  traceAny 5 0 none false ((withdrawAll out t).modArb (64 + p) (fun a =>
    { a with cordoned := if a.cordoned.contains w then a.cordoned else a.cordoned ++ [w] }))

/-- A stream of engine `e`'s work order names a port whose path from its wing is cordoned: the channel replays in another wing
(Table 10-8). -/
def leavePath (e : EngId) (s : State) : State :=
  let x := s.eng e
  let ps := portsOf x (s.chan x.ch).ports
  if ps.any (fun q => decide (0 < q.2) && (s.arb (64 + (q.2 - 1))).cordoned.contains (e.g.toNat / 8)) then
    stopEngine e (s.modChan x.ch (fun c => { c with ports := ps }))
  else s

/-- What a wing's engines had waiting at its arbiter is withdrawn, and their channels replay (Table 10-8). -/
def stopWing (w : Nat) (s : State) : State :=
  let out (k : Txn) : Bool := k.gal.isSome && k.stage == .atWing && k.wing == some (BitVec.ofNat 2 w)
  foldS (upTo 8) (fun k t => stopGal (8 * w + k) t) (withdrawAll out s)

/-- Cordon a wing's path to every port: the wing arbiter itself is out (Table 17-2). -/
def cordonWing (w : Nat) (s : State) : State :=
  stopWing w (traceAny 5 0 none false (s.modArb (32 + w) (fun a => { a with cordoned := [0] })))

/-- Cordon a comparator pair; an anchor that it holds returns to the calendar, unless the slow checker is to judge it
(R302, R312). -/
def cordonPair (n : Nat) (s : State) : State :=
  traceAny 5 0 none false (s.modPair n (fun p => { p with cordoned := true, ch := if p.dis then p.ch else none }))

/-- The channel's work order ends with INTERNAL (Table 16-6): on its engine once its writes are answered, otherwise at once; an entry
at the head that waits for its anchor, gate or pairs counts as one in progress (R87). -/
def endInternalChan (ch : BitVec 12) (s : State) : State :=
  let c := s.chan ch
  if !c.inOrder then
    (match headEntry c with
     | some e => if headWaits c then considerHead ch (completeUnstarted ch e 0x7F 0 s) else s
     | none => s)
  else match c.eng with
    | some e => (dropEffects e s).modEng e (beginEnd 0x7F)
    | none =>
      considerHead ch (completeFree ch 0x7F (if c.fresh then 0 else c.ck.bytes) (if c.fresh then c.runLate else c.ck.late)
        (heldReplayed c) s)

/-! ## Catalogue errors (Table 16-6) -/

/-- The checkpoint area with the 8-byte word at context offset `o` at its reset value (Table 3-8). -/
def ckReset (k : Ckpt) (o : Nat) : Ckpt :=
  if o = 0x80 then { k with pc := 0, psr := 0 }
  else if o = 0x88 then { k with bytes := 0, seq := 0, replayed := false, late := false }
  else if o < 0x80 then k
  else if o < 0xB0 then { k with g := Tbl.put 0 k.g ((o - 0x90) / 8 + 1) 0 }
  else if o < 0xF0 then { k with s := Tbl.put {} k.s ((o - 0xB0) / 8) {} }
  else k

/-- The context with the 8-byte word at offset `o` at its reset value (Table 2-1). -/
def ctxReset (straps : Word) (c : Chan) (o : Nat) : Chan :=
  let r := chanRst straps
  match o with
  | 0x00 => { c with ctrl := r.ctrl, home := 0 }
  | 0x08 => { c with wrBase := 0 }
  | 0x10 => { c with ntBase := 0 }
  | 0x18 => { c with mir := 0 }
  | 0x20 => { c with ringCfg := r.ringCfg, stk := r.stk }
  | 0x28 => { c with ckptCfg := r.ckptCfg, trap := 0 }
  | 0x40 => { c with wrTail := 0, wrDone := 0, wrFetch := 0, wrStart := 0 }
  | 0x48 => { c with ntHead := 0, ntTail := 0, lastStatus := 0, dbErr := false, ringErr := false, cmdRej := false }
  | 0x50 => { c with mirSeq := 0 }
  | 0xF0 => { c with sched := { c.sched with anchor := 0 } }
  | 0xF8 => { c with sched := { c.sched with armed := false, angular := false, policy := 0, kind := 0, held := false, ec := 0,
                                             nrMoves := 0, fired := false, fire := 0 } }
  | o => { c with ck := ckReset c.ck o }

/-- An uncorrectable Catalogue error in a context: the word is reset, a work order ends with INTERNAL, and the channel
halts (Table 16-6). -/
def catUe (ch : BitVec 12) (o : Nat) (s : State) : State :=
  let c := s.chan ch
  let s1 := s.setChan ch (ctxReset s.boot.straps c (o / 8 * 8))
  if c.inOrder || (headWaits c && (headEntry c).isSome) then endInternalChan ch s1
  else if c.st = .free ∨ c.st = .halted then s1
  else enterHalted ch 0 0x7F (disarm ch s1)

/-! ## Recoveries and verdicts (R561 to R563, R569, R580, R581) -/

/-- INST code of a port source's port (Tables 10-7, 16-1). -/
def srcPort (n : Nat) : Nat :=
  if n < 184 then n - 176 else if n < 188 then n - 184 + 8 else if n < 196 then n - 188 + 16 else if n < 198 then n - 196 + 12
  else n - 198 + 32

/-- The fault source of a port by INST code. -/
def portSrc (p : Nat) : Nat :=
  if p < 8 then 176 + p else if p < 12 then 176 + p else if p < 16 then 184 + p else if p < 32 then 172 + p else 166 + p

/-- The engines that hold bank `b` of gallery `g`. -/
def bankEngs (s : State) (g : Nat) (b : Bool) : List EngId := (galEngs g).filter (fun e => (s.eng e).bank == b)

/-- Change bank `b` of gallery `g`. -/
def modBank (g : Nat) (b : Bool) (f : Bank → Bank) (s : State) : State :=
  s.modGal g (fun x => if b then { x with bankB := f x.bankB } else { x with bankA := f x.bankA })

/-- A bank without an image, in the state named; its count of corrected errors stays. -/
def Bank.emptied (st : BankSt) (b : Bank) : Bank := { st := st, corr := b.corr }

/-- A bank is lost: INVALID, and the channels of its engines replay elsewhere (R534, Table 16-5). -/
def loseBank (g : Nat) (b : Bool) (s : State) : State :=
  foldS (bankEngs s g b) stopEngine (modBank g b (Bank.emptied .invalid) s)

/-- Codes of LOAD_STAT.STATE (Table 15-7). -/
def LoadSt.code : LoadSt → Nat
  | .idle => 0 | .verify => 1 | .write => 2 | .done => 3 | .failed => 4 | .cancelled => 5

/-- CS.LOAD_STAT. -/
def loadStatWord (l : Loader) : Word := packW [(29, l.st.code), (16, l.reason.toNat)]

/-- A load ends FAILED; banks being written hold no image (R525). The record's IMG_ID is a free value where no header has been
read (log entry 3). -/
def loadFail (reason : Nat) (id : Option Word) (s : State) : State :=
  let l := s.loader
  let (v, t) := match id with | some w => (w, s) | none => ((s.draw).1.truncate 32, (s.draw).2)
  let u := setJob 0 none { t with loader := { t.loader with st := .failed, reason := BitVec.ofNat 8 reason } }
  let w := lgRecord 0x31 0 false v (loadStatWord u.loader) u
  if l.st = .write then foldS ((upTo 32).filter (bit l.targets)) (fun g u => modBank g l.bank (Bank.emptied .invalid) u) w else w

/-- A loader or digest unit check: the load ends FAILED, with a reason that the spec does not name (FS280, log entry 3). -/
def loaderFault (s : State) : State :=
  if s.loader.st = .verify ∨ s.loader.st = .write then (let (v, t) := s.draw; loadFail (v.toNat % 256) none t) else s

/-- A unit other than a slot returns to service. -/
def returnUnit (n inst : Nat) (s : State) : State :=
  let key := n * 256 + inst
  let gal (g : Nat) := s.modGal g (fun x => { x with cordonedBy := x.cordonedBy.filter (fun k => k != key) })
  if 64 ≤ n ∧ n < 96 then
    (if inst = 0 then s.modGal (n - 64) (fun x => { x with pipe0 := false })
    else if inst = 1 then s.modGal (n - 64) (fun x => { x with pipe1 := false })
    else gal (n - 64))
  else if 96 ≤ n ∧ n < 128 then gal (n - 96)
  else if 160 ≤ n ∧ n < 164 then
    (if inst < 8 then gal (8 * (n - 160) + inst)
    else if inst = 9 then { s with sliceCord := Tbl.put false s.sliceCord (n - 160) false }
    else s.modArb (32 + (n - 160)) (fun a => { a with cordoned := [] }))
  else if 164 ≤ n ∧ n < 168 then { s with sliceCord := Tbl.put false s.sliceCord (n - 164) false }
  else if 176 ≤ n ∧ n < 230 then
    (let t := s.modArb (64 + srcPort n) (fun a => { a with cordoned := a.cordoned.filter (fun k => k != inst) })
     if 196 ≤ n ∧ n < 198 then { t with sliceCord := Tbl.put false t.sliceCord inst false } else t)
  else if 234 ≤ n ∧ n < 242 then s.modPair (8 * (n - 234) + inst % 8) (fun p => { p with cordoned := false })
  else if 242 ≤ n ∧ n < 250 then s.modPair (8 * (n - 242) + inst % 8) (fun p => { p with cordoned := false, lostAt := none })
  else s

/-- What a verdict does to the unit (R562, R580, R581, Table 16-5); a slot that RETIRE drained is RETIRED either way, and a RETIRED
slot that passes becomes SPARE (R602). -/
def applyVerdict (r : Recovery) (lasting : Bool) (s : State) : State :=
  let n := r.src.val
  match r.eng with
  | some e =>
    let ret := (s.gal e.g.toNat).retiring.contains e.slot
    let s1 := s.modGal e.g.toNat (fun x => { x with retiring := x.retiring.filter (fun k => k != e.slot) })
    if lasting || ret then retireSlot e s1
    else if r.wasRetired then s1.modSlot e (fun x => { x with st := .spare }) else returnSlot e s1
  | none =>
    if lasting then (if 32 ≤ n ∧ n < 64 then loseBank (n - 32) (r.inst != 0) s else s)
    else returnUnit n r.inst.toNat s

/-- Counts of a verdict, and the end of its recovery (R555, R562). -/
def verdictCount (lasting : Bool) (s : State) : State :=
  s.modFcr (fun f => if lasting then { f with lasting := satAdd f.lasting 1, quietFrom := s.now }
                     else { f with transient := satAdd f.transient 1, quietFrom := s.now })

/-- DOC.LAST (Table 17-6). -/
def docLastWord (d : Doc) : Word :=
  packW [(31, b2n d.lastV), (28, d.lastVerdict.toNat), (24, d.lastStep.toNat), (15, d.lastSrc.toNat), (7, d.lastInst.toNat),
    (0, d.lastElapsed.toNat)]

/-- Docent gives a verdict (Table 17-6): codes 0 and 1 are transient. -/
def docVerdict (code step : Nat) (r : Recovery) (tested : Bool) (s : State) : State :=
  let lasting := decide (2 ≤ code)
  let s1 := verdictCount lasting (applyVerdict r lasting s)
  let s2 := s1.modDoc (fun d => { d with
    lastV := true, lastVerdict := BitVec.ofNat 3 code, lastStep := BitVec.ofNat 4 step, lastSrc := BitVec.ofNat 9 r.src.val,
    lastInst := r.inst, lastElapsed := if tested then BitVec.ofNat 7 (min 127 ((s.now - r.startAt).toNat / (4 * ticksUs))) else 0,
    returned := (d.returned.filter (fun q => !(q.1 == r.src.val && q.2.1 == r.inst.toNat))) ++
      (if lasting then [] else [(r.src.val, r.inst.toNat, s.now)]) })
  lgRecord 0x40 0 false (docLastWord s2.doc) 0 (if tested then tmAdd 37 1 s2 else s2)

/-- A lasting verdict without Docent (R569, Table 16-7). -/
def fcrVerdict (r : Recovery) (s : State) : State := verdictCount true (applyVerdict r true s)

/-- Test unit `i`. -/
def docUnit (s : State) (i : Nat) : Option Recovery := Tbl.get none s.doc.units i

/-- Set test unit `i`. -/
def setUnit (i : Nat) (r : Option Recovery) (s : State) : State := s.modDoc (fun d => { d with units := Tbl.put none d.units i r })

/-- Two recoveries of one unit. -/
def sameUnit (a b : Recovery) : Bool := a.src == b.src && a.inst == b.inst

/-- The unit returned to service within REPEAT_WIN (R563). -/
def repeated (s : State) (r : Recovery) : Bool :=
  s.doc.returned.any (fun q => q.1 == r.src.val && q.2.1 == r.inst.toNat &&
    decide ((s.now - q.2.2).toNat < fld (s.app .rcvCfg) 16 8 * 1000000 * ticksUs))

/-- A recovery opens, queues, or ends at once (R561, R563, R569). -/
def openRecovery (r : Recovery) (s : State) : State :=
  if s.fcr.unguarded then fcrVerdict r s
  else match (upTo 4).find? (fun i => match docUnit s i with | some q => sameUnit q r | none => false) with
    | some i => docVerdict 3 0 ((docUnit s i).getD r) true (setUnit i none s)
    | none =>
      if s.doc.queue.any (sameUnit r) then s
      else if !r.spareTest && repeated s r then docVerdict 3 0 r false s
      else match (upTo 4).find? (fun i => (docUnit s i).isNone && s.doc.queue.isEmpty) with
        | some i => setUnit i (some { r with startAt := s.now }) s
        | none =>
          if s.doc.queue.length < 32 then s.modDoc (fun d => { d with queue := d.queue ++ [r] })
          else docVerdict 5 0 r false (s.modFcr (fun f => { f with qovf := true }))

/-- A lockstep mismatch: unguarded operation; open and queued recoveries end lasting, draining slots return (R568,
Tables 16-7 and 17-8). -/
def docFault (s : State) : State :=
  let rs := ((upTo 4).filterMap (docUnit s) ++ s.doc.queue).filter (fun r => !r.bg || r.eng.isSome)
  let s1 := (s.modDoc (fun d => { d with lockOk := false, units := [], queue := [] })).modFcr (fun f => { f with unguarded := true })
  let s2 := foldS rs fcrVerdict s1
  foldS (upTo 32) (fun g t =>
    let u := foldS (galEngs g) (fun e v => if (v.slot e).st = .draining then v.modSlot e (fun x => { x with st := .service }) else v) t
    u.modGal g (fun x => { x with rotOut := none, rotIn := none, retiring := [] })) s2

/-- The operation of channel `ch` in core unit `n` repeats once; a second assertion for it ends the channel's work order with INTERNAL
(R565). -/
def coreReact (n : Nat) (ch : Option (BitVec 12)) (s : State) : State :=
  if s.fcr.repeating.contains (n, ch) then
    (let t := s.modFcr (fun f => { f with repeating := f.repeating.filter (fun k => k != (n, ch)) })
     match ch with
     | some c => endInternalChan c t
     | none => t)
  else s.modFcr (fun f => { f with repeating := f.repeating ++ [(n, ch)] })

/-- The operation of channel `ch` in these core units has completed: no repeat of it is in progress (R565). -/
def coreDone (ns : List Nat) (ch : BitVec 12) (s : State) : State :=
  s.modFcr (fun f => { f with repeating := f.repeating.filter (fun k => !(ns.contains k.1 && (k.2 == some ch || k.2.isNone))) })

/-! ## Reactions (Table 16-5) -/

/-- A recovery of source `n`, instance `inst`. -/
def recov (n inst : Nat) (e : Option EngId) : Recovery :=
  { src := ⟨n % 320, Nat.mod_lt _ (by decide)⟩, inst := BitVec.ofNat 8 inst, eng := e }

/-- A slot is out: its channel replays and its test is queued (R558). -/
def slotFault (n : Nat) (e : EngId) (s : State) : State :=
  openRecovery (recov n e.slot.val (some e)) (cordonSlot e (stopEngine e s))

/-- What the grantee of a bite meets (Table 10-8): `n` is the arbiter's source, `req` the requester. -/
def biteReact (n req : Nat) (i : FaultInfo) (s : State) : State :=
  let core := if srcStuck s 255 then s else coreReact 255 i.ch (recordFault 255 { i with cls := 4 } false s)
  let doc := if srcStuck s 263 then s else docFault (recordFault 263 { i with cls := 9 } false s)
  let slice (w : Nat) := openRecovery (recov n req none) (cordonSlice w s)
  if n < 128 then
    (if h : req < 17 then slotFault n { g := BitVec.ofNat 5 (n - 96), slot := ⟨req, h⟩ } s else doc)
  else if n < 164 then
    (if req < 8 then
      (let g := 8 * (n - 160) + req
       openRecovery (recov n req none) (cordonGal g (n * 256 + req) s))
    else if req = 8 then core else if req = 9 then slice (n - 160) else doc)
  else if req < 4 then
    (if 196 ≤ n ∧ n < 198 then slice req else openRecovery (recov n req none) (cordonPath req (srcPort n) s))
  else if req = 4 then core else if req = 5 then doc else s

/-- Mark a holding source; FS283 is kept by the domain and FS265 by the acknowledgement that its instance names (Tables 16-5 and
16-11). -/
def setHeld (n inst : Nat) (s : State) : State :=
  s.modFcr (fun f => { f with asserted := Tbl.put false f.asserted (if n = 283 then 320 + inst else if n = 265 then 400 + inst else n) true })

/-- A staging or applied copy that failed both its copies: the field returns to its reset value in both (Table 16-6). -/
def stgReset (a lsb : Nat) (s : State) : State :=
  match decodeReg s.wings a with
  | some r =>
    (match r.flds.find? (fun f => f.lsb == lsb) with
     | some f =>
       let v := fld (r.rst s.boot.straps) f.lsb f.wid
       (s.setStg r (setFld (s.stg r) f.lsb f.wid v)).setApp r (setFld (s.app r) f.lsb f.wid v)
     | none => s)
  | none => s

/-- INVALIDATE's effect on the entry cache, and on the schedule of an entry at WR_START that waits on its anchor or its event
(R84). DESIGN CHOICE (log entry 67): an entry whose anchor has passed, and which has not started, counts as one of these. -/
def discardEntries (ch : BitVec 12) (s : State) : State :=
  let c := s.chan ch
  let waits := !c.inOrder && c.stalledDone.isNone && c.st != .paused && c.st != .halted
  let t := if c.inOrder then s else disarm ch s
  t.modChan ch (fun d =>
    let d1 := { d with cache := [], fet := [], wrFetch := d.wrStart }
    if d.inOrder then d1
    else { d1 with runAtFor := none, runLate := false, lateTrap := none, sched := if headWaits c || c.runAtFor.isSome then {} else d.sched,
                   preSt := if d.preSt = .waiting ∧ d.stalledDone.isNone then d.armedOr else d.preSt,
                   preWait := if d.stalledDone.isNone then .none else d.preWait,
                   wait := if waits then .none else d.wait,
                   st := if waits && d.st == .waiting then d.armedOr else d.st })

/-- A corrected error counts in CORR of the control store bank it was found in (R534, R575, Table 15-9). -/
def csCorrected (g inst : Nat) (s : State) : State := modBank g (inst != 0) (fun b => { b with corr := satAdd b.corr 1 }) s

/-- The reaction of Table 16-5. A GCE assertion names bank A or B of the control store as instance 0 or 1, and any other array of the
gallery by a higher one (log entry 64). -/
def reactFault (n : Nat) (i : FaultInfo) (s : State) : State :=
  let inst := i.inst.toNat
  let key := n * 256 + inst
  let stopIt := match i.eng with | some e => stopEngine e s | none => s
  if n < 32 then slotFault n (i.eng.getD (engOf (n * 17 + inst % 17))) s
  else if n < 64 then
    (if i.cls = 9 then loseBank (n - 32) (inst != 0) s
    else startReloads (n - 32) (modBank (n - 32) (inst != 0) (fun b => if b.st = .valid then { b with st := .reloading } else b) stopIt))
  else if n < 96 then
    (if inst = 0 then openRecovery (recov n 0 none) (cordonPipe (n - 64) false stopIt)
    else if inst = 1 then openRecovery (recov n 1 none) (cordonPipe (n - 64) true stopIt)
    else openRecovery (recov n inst none) (cordonGal (n - 64) key s))
  else if n < 128 then
    (if i.cls = 4 then biteReact n inst i s else openRecovery (recov n 255 none) (cordonGal (n - 96) (n * 256 + 255) s))
  else if n < 160 then (if inst < 2 then csCorrected (n - 128) inst s else s)
  else if n < 164 then
    (if i.cls = 4 then biteReact n inst i s else openRecovery (recov n 255 none) (cordonWing (n - 160) s))
  else if n < 168 then openRecovery (recov n 0 none) (cordonSlice (n - 164) s)
  else if n < 172 then (match i.ch with | some c => touch c (discardEntries c s) | none => s)
  else if n < 176 then s
  else if n < 230 then (if i.cls = 4 then biteReact n inst i s else s)
  else if n < 234 then s
  else if n < 242 then openRecovery (recov n (inst % 8) none) (cordonPair (8 * (n - 234) + inst % 8) s)
  else if n < 250 then
    (let k := 8 * (n - 242) + inst % 8
     if i.cls = 2 then
       (match (s.pair k).lostAt with
        | some t =>
          let u := s.modPair k (fun p => { p with lostAt := some s.now })
          if decide ((s.now - t).toNat < fld (s.app .rcvCfg) 16 8 * 1000000 * ticksUs) then
            openRecovery (recov n (inst % 8) none) (cordonPair k u)
          else u
        | none => s.modPair k (fun p => { p with lostAt := some s.now }))
     else s)
  else if n = 250 then setHeld n inst s
  else if n = 253 then (match i.ch with | some c => catUe c (i.addr.toNat % 256) s | none => s)
  else if n = 254 ∨ n = 255 ∨ n = 256 ∨ (259 ≤ n ∧ n ≤ 261) then coreReact n i.ch s
  else if n = 257 then s.setKey (i.addr.toNat % 1024) { s.key (i.addr.toNat % 1024) with st := 2, key := [] }
  else if n = 263 then docFault s
  else if n = 265 ∨ (271 ≤ n ∧ n ≤ 279) ∨ 283 ≤ n then setHeld n inst s
  else if n = 270 then stgReset i.addr.toNat inst s
  else if n = 280 then loaderFault s
  else s

/-- Ring traffic whose burst was completed without its bytes is issued again from its recorded progress (R400, R565). -/
def reissueRing (x : Txn) (s : State) : State :=
  let n := s.nextTxn
  let y := { x with stage := if x.wing.isSome then .atWing else .atPort, torn := false, discard := false, retries := 0 }
  match x.purpose with
  | .entry ch idx =>
    issue y (s.modChan ch (fun c => { c with fet := c.fet.map (fun f => if f.1 = x.id then (n, idx, none) else f) }))
  | .release ch => if (s.chan ch).relTxn = some x.id then issue y (s.modChan ch (fun c => { c with relTxn := some n })) else s
  | .mirror _ | .haltNotice _ | .writeBack => issue y s
  | .loader k =>
    (match jobOf s k with
     | some j => if j.t = some x.id then issue y (setJob k (some { j with t := some n }) s) else s
     | none => s)
  | _ => s

/-- The unit of source `n` formed the burst (Tables 1-3, 16-1). -/
def formedBy (n : Nat) (i : FaultInfo) (t : Txn) : Bool :=
  match t.purpose with
  | .engRead e _ | .data e _ _ => n == e.g.toNat && i.eng == some e
  | .entry .. | .release _ | .haltNotice _ | .mirror _ => n == 254
  | .fill _ | .unique _ | .writeBack => (match t.wing with | some v => n == 164 + v.toNat | none => false)
  | .evict => false
  | .loader _ => n == 280
  | .docent .. => n == 263

/-- A burst that fails its check at the port is not presented, and the unit that formed it asserts its source with the burst's address
(R541); ring traffic is issued again from its recorded progress (R565). -/
def withhold (n : Nat) (i : FaultInfo) (s : State) : State :=
  foldS (s.txns.filter (fun t => t.stage == .granted && i.cls != 4 && t.addr == i.addr && formedBy n i t))
    (fun t u => reissueRing t (withdrawTxn t u)) s

/-- An assertion of source `n` (R549, R557); a stuck source records no further assertion (R544). -/
def assertFault (n : Nat) (i : FaultInfo) (s : State) : State :=
  if srcStuck s n then s else reactFault n i (withhold n i (recordFault n i false s))

/-- A plain assertion: class and instance only. -/
def faultOf (cls inst : Nat) : FaultInfo :=
  { ch := none, eng := none, cls := BitVec.ofNat 4 cls, addr := 0, inst := BitVec.ofNat 8 inst, inj := false }

/-- Keys of the channels listed. -/
def State.chanKeys (s : State) : List (BitVec 12) := s.chans.map (fun p => BitVec.ofNat 12 p.1)

/-- Channels whose entries the cache of wing `w` holds. -/
def cacheChans (s : State) (w : Nat) : List (BitVec 12) :=
  s.chanKeys.filter (fun ch =>
    let c := s.chan ch
    (!c.cache.isEmpty || !c.fet.isEmpty) && (match (homeSet s c.home).head? with | some g => g / 8 == w | none => w == 0))

/-- The channel of the entry that place `i` of wing `w`'s entry cache holds. -/
def cachedChan (s : State) (w i : Nat) : Option (BitVec 12) :=
  ((cacheChans s w).flatMap (fun ch => (s.chan ch).cache.map (fun _ => ch)))[i]?

/-- Discard one entry of wing `w`'s entry cache, which is fetched again (R84, Table 16-5): which one is a free value. -/
def ecacheLoss (w : Nat) (s : State) : State :=
  let (v, t) := s.draw
  let n := ((cacheChans t w).flatMap (fun ch => (t.chan ch).cache)).length
  match cachedChan t w (v.toNat % max 1 n) with
  | some c => touch c (discardEntries c t)
  | none => t

/-- What a stuck source cordons (R544), and the reaction to the assertion of class RAIL of a source that cordons nothing (R557);
`inst` as in Table 16-11. The shared Catalogue has none in Table 16-5: no word of it is lost.
DEDUCED (log entry 26): FS265 and FS283 hold every domain that they can name. -/
def railReact (n inst : Nat) (s : State) : State :=
  if n < 32 then stopGal n s
  else if n < 64 then
    startReloads (n - 32) (modBank (n - 32) (inst != 0) (fun b => if b.st = .valid then { b with st := .reloading } else b) s)
  else if 168 ≤ n ∧ n < 172 then ecacheLoss (n - 168) s
  else if n = 254 ∨ n = 255 ∨ n = 256 ∨ (259 ≤ n ∧ n ≤ 261) then coreReact n none s
  else if 64 ≤ n ∧ n < 96 then stopGal (n - 64) s
  else if 96 ≤ n ∧ n < 128 then stopGal (n - 96) s
  else if 160 ≤ n ∧ n < 164 then stopWing (n - 160) s
  else if 164 ≤ n ∧ n < 168 then foldS (sliceLines s (n - 164)) (evictFrom (n - 164)) s
  else if 234 ≤ n ∧ n < 250 then
    foldS (upTo 8) (fun k t => t.modPair (8 * ((n - 234) % 8) + k) (fun p => { p with ch := if p.dis then p.ch else none })) s
  else if n = 283 then foldS [1, 2, 39, 40, 41, 42] (setHeld n) s
  else if n = 265 then foldS (upTo 14) (setHeld n) s
  else if n = 250 ∨ (271 ≤ n ∧ n ≤ 279) ∨ 284 ≤ n then setHeld n 0 s
  else if n = 280 then loaderFault s
  else if n = 263 then docFault s
  else s

end Sys2Proof.Machine
end

