-- ==== Sys2Proof/Machine/ChanOps.lean ====
section
/-! DEFINITION. ChanOps: doorbells, commands and the context words of a channel (02, 11), and the re-evaluation of its
anchor (R297). -/

namespace Sys2Proof.Machine

/-! ## Re-evaluation of an anchor (R297) -/

/-- The channel's LATE flag for what it has committed (R176). -/
def markLate (c : Chan) : Chan := { c with ck := { c.ck with late := true } }

/-- A WAIT without an engine that is judged again: its condition has come, or its policy applies (Table 7-9). -/
def waitJudged (ch : BitVec 12) (j : Judged) (s : State) : State :=
  match j with
  | .armed _ _ l => s.modChan ch (fun c => let d := { c with wait := .anchor }; if l then markLate d else d)
  | .held => s.modChan ch (fun c => { c with wait := .anchor })
  | .fired => touch ch (s.modChan ch (fun c => markLate { c with wait := .ready }))
  | .drop =>
    considerHead ch (completeFree ch 0x38 0 ((s.chan ch).ck.late) (heldReplayed (s.chan ch)) s)
  | .trap info => touch ch (s.modChan ch (fun c => { c with lateTrap := some info, wait := .ready }))

/-- A WAIT whose checkpoint has not committed, judged again. -/
def commitJudged (e : EngId) (pc : BitVec 32) (j : Judged) (s : State) : State :=
  match j with
  | .armed _ _ l => s.modEng e (fun x => { x with late := x.late || l })
  | .held => s
  | .fired => s.modEng e (fun x => { x with late := true })
  | .drop => s.modEng e (fun x => { x with phase := .commit pc .drop })
  | .trap info => s.modEng e (fun x => { x with phase := .commit pc (.trap info) })

/-- Judge the anchor in the schedule area again (R297). -/
def rejudge (ch : BitVec 12) (s : State) : State :=
  let c := s.chan ch
  let d := c.sched
  if d.act = 4 then
    (if decide (d.anchor.toNat ≤ s.now.toNat) then fireChan ch s
    else s.modChan ch (fun x => { x with sched := { x.sched with armed := true, fired := false }, wait := if c.eng.isSome then x.wait else .time }))
  else if d.act = 1 ∨ d.act = 2 ∨ d.act = 3 then
    (let j := judge s d.anchor d.angular d.policy
     let s1 := judgeCount j (s.modChan ch (fun x => { x with sched := schedAfter s j d.anchor d.angular d.policy d.kind d.nrMoves d.fire }))
     if d.act = 1 then
       (match headEntry c, j with
        | some _, .armed _ _ l => s1.modChan ch (fun x => { x with runLate := x.runLate || l, wait := .anchor })
        | some _, .held => s1.modChan ch (fun x => { x with wait := .anchor })
        | some _, .fired => touch ch (s1.modChan ch (fun x => { x with runLate := true, wait := runAtNext s1 ch }))
        | some e, .drop => considerHead ch (completeUnstarted ch e 0x38 0 s1)
        | some _, .trap info => touch ch (s1.modChan ch (fun x => { x with lateTrap := some info, wait := runAtNext s1 ch }))
        | none, _ => s1)
     else match c.eng with
       | none => waitJudged ch j s1
       | some e => (match (s.eng e).phase with
         | .commit pc .wait => commitJudged e pc j s1
         | _ => s1))
  else s

/-! ## Mirror writes (R77, R78) -/

/-- The mirror write that is due is issued, one at a time (R77, R78). -/
def mirrorIssue (ch : BitVec 12) (s : State) : State :=
  let c := s.chan ch
  let out := s.txns.any (fun t => t.purpose == .mirror ch)
  if c.mirPend && c.mirEn && !out && !c.relHeld then
    (let q := c.mirSeq + 1
     let b := toLe 2 c.wrDone.toNat ++ toLe 2 c.ntTail.toNat ++ toLe 4 q.toNat
     issue (ringTxn s ch c.mirPort 1 (c.mir &&& 0xFFFFFFFFFFFFFFF8) 8 b .atPort none (.mirror ch))
       (s.setChan ch { c with mirSeq := q, mirPend := false }))
  else s

/-! ## Ring indices and notices (R70, R71) -/

/-- a − b modulo 65,536. -/
def sub16 (a b : BitVec 16) : Nat := (a.toNat + 65536 - b.toNat) % 65536

/-- A write of WR_TAIL (R70). -/
def wrTailTo (v : BitVec 16) (c : Chan) : Chan :=
  if decide (sub16 v c.wrDone ≤ 2 ^ c.wrSize) && decide (sub16 v c.wrTail ≤ 2 ^ c.wrSize) &&
      !(c.st == .free || c.st == .draining) then { c with wrTail := v }
  else { c with dbErr := true }

/-- A MARKER's notice is reserved, and the entry completes with OK (R55, R65). -/
def markerDone (ch : BitVec 12) (e : CEntry) (s : State) : State :=
  let p : Release := .publish e.idx 0 0 0 (entTag e.bytes)
  let n : Release := .notice 3 0 (slice e.bytes 16 16)
  considerHead ch (s.modChan ch (fun c =>
    { orderOver c with st := stAfter c false, pend := pendAfter c false, reserved := c.reserved + 1, rel := c.rel ++ [n, p] }))

/-- The result of an entry that a STOP discarded waits for its notice slot. -/
def stoppedWaits (c : Chan) : Bool := match c.stalledDone with | some (.publish _ st _ _ _) => st == 0x31 | _ => false

/-- A completion, a MARKER or a NOTIFY that waits for notice space goes on once a slot is free (R66); while the channel is
PAUSED or HALTED only entries that a STOP discards complete (Table 2-11d). -/
def noticeRetry (ch : BitVec 12) (s : State) : State :=
  let c := s.chan ch
  if ((c.st = .paused ∨ c.st = .halted) ∧ !stoppedWaits c) ∨ !c.slotFree then s
  else match c.stalledDone with
    | some (.publish idx st fl by_ tag) =>
      let t := queueResult ch true (.publish idx st fl by_ tag) fl s
      considerHead ch (t.modChan ch (fun x =>
        { x with wait := .none, st := if x.st = .waiting ∧ x.haltWith.isNone then x.armedOr else x.st }))
    | _ =>
      if c.inOrder && c.wait == .noticeSpace then
        (match c.order with
         | some e => if entType e.bytes = 4 then markerDone ch e s else touch ch (s.modChan ch (fun x => { x with wait := .ready }))
         | none => s)
      else s

/-- A write of NT_HEAD (R71). -/
def ntHeadTo (ch : BitVec 12) (v : BitVec 16) (s : State) : State :=
  let c := s.chan ch
  if decide (sub16 c.ntTail v ≤ sub16 c.ntTail c.ntHead) && c.st != .free then
    noticeRetry ch (s.setChan ch { c with ntHead := v })
  else s.setChan ch { c with dbErr := true }

/-! ## Commands (R86 to R89) -/

/-- Codes of Table 2-11c that stay pending. -/
def cmdOf (code : Nat) : Option Cmd :=
  if code = 2 then some .pause else if code = 3 then some .stop else if code = 4 then some .abort
  else if code = 5 then some .kill else none

/-- Strength (R88), and PEND_CMD's code. -/
def Cmd.strength : Cmd → Nat
  | .pause => 2 | .stop => 3 | .abort => 4 | .kill => 5

/-- The channel has a work order in progress (R87). -/
def inProgress (c : Chan) : Bool := c.inOrder || c.stalledDone.isSome || headWaits c

/-- Table 2-11d: the state accepts the command. -/
def accepts (c : Chan) (k : Cmd) : Bool :=
  match c.st with
  | .free => false
  | .configured => k == .stop
  | .armed => k != .abort
  | .running | .waiting => true
  | .draining => k != .abort || inProgress c
  | .paused => k == .stop || k == .kill || (k == .abort && inProgress c)
  | .halted => k == .stop

/-- The channel without an engine is PAUSED: its anchor is disarmed (Table 7-13), and the state before is kept. -/
def pauseNow (ch : BitVec 12) (s : State) : State :=
  let c := s.chan ch
  touch ch ((disarm ch s).modChan ch (fun x =>
    { x with st := .paused, wait := .none, pend := none, preSt := if headWaits c then .waiting else c.st, preWait := c.wait,
             sched := { x.sched with kind := c.sched.kind, ended := c.sched.ended } }))

/-- The channel with engine `e` is PAUSED once its writes are answered (R418). -/
def pauseEngine (ch : BitVec 12) (e : EngId) (s : State) : State :=
  let t := s.modEng e (fun x => { x with paused := true })
  if writesOpen s e then t
  else t.modChan ch (fun x => { x with st := .paused, wait := .none, pend := none, preSt := .running, preWait := .none })

/-- A channel that STOP, or KILL without an order, halts. -/
def haltNow (ch : BitVec 12) (cause status : Byte) (s : State) : State :=
  touch ch (enterHalted ch cause status ((disarm ch s).modChan ch (fun c => { c with pend := none, stopTail := none })))

/-- A STOP arrives: it captures WR_TAIL; in the ARMED row the channel is HALTED at once (Table 2-11d), with its HALT notice
after the captured entries' results (R413, R421). -/
def stopArrives (ch : BitVec 12) (s : State) : State :=
  let c := s.chan ch
  let armedRow := c.st == .armed || (c.st == .draining && !inProgress c)
  let held := { c with pend := some .stop, stopTail := some c.wrTail }
  if armedRow then
    (if c.wrStart = c.wrTail ∧ c.wrDone = c.wrTail then haltNow ch 2 0x31 s
    else haltPush ch (s.setChan ch { held with st := .halted, wait := .none, stopNotice := true }))
  else s.setChan ch held

/-- The entry at WR_START completes with STOPPED, keeping the channel's state (R421, Table 2-12); what was judged of its anchor
goes with it. -/
def stopEntry (ch : BitVec 12) (e : CEntry) (s : State) : State :=
  let tag := match e.err with | some _ => 0 | none => entTag e.bytes
  let nt := match e.err with
    | some _ => none
    | none => some (entNtDone e.bytes)
  let t := s.modChan ch (fun c => { c with wrStart := c.wrStart + 1, cache := c.cache.filter (fun x => x.idx != e.idx),
                                           runAtFor := none, runLate := false, lateTrap := none })
  queueResult ch (wantNotice (s.chan ch) nt 0x31) (.publish e.idx 0x31 0 0 tag) 0 t

/-- The captured entries that the entry cache holds complete in ring order (R421). -/
def stopEntries (ch : BitVec 12) : Nat → State → State
  | 0, s => s
  | n + 1, s =>
    let c := s.chan ch
    if c.stopTail = some c.wrStart ∨ c.stalledDone.isSome then s
    else match headEntry c with
      | some e => stopEntries ch n (stopEntry ch e s)
      | none => s

/-- The STOP is over: the channel is HALTED with its notice, or keeps the state Table 2-11d names. -/
def stopEnd (ch : BitVec 12) (s : State) : State :=
  let c := s.chan ch
  if c.st = .configured ∨ c.st = .paused ∨ (c.st = .halted ∧ !c.stopNotice) then
    s.setChan ch { c with pend := none, stopTail := none }
  else if c.st = .halted then
    (let c1 := { c with pend := none, stopTail := none, stopNotice := false }
     s.setChan ch (if c1.slotFree then
       { c1 with reserved := c1.reserved + 1, rel := c1.rel ++ [.notice 4 0 (haltPayload c1 2 0x31)] } else c1))
  else haltNow ch 2 0x31 s

/-- The ring is abandoned (R673): held releases go with their reservations, a work order ends as by ABORT without a
result, and every work ring slot is software's. -/
def abandonRing (ch : BitVec 12) (s : State) : State :=
  let c := s.chan ch
  let s1 := (disarm ch s).modChan ch (fun x =>
    { unreserve x.rel x with rel := [], relTxn := none, relAck := none, relHeld := false, mirErr := false, mirPend := false, ringErr := false,
                             ringDue := false, stalledDone := none, haltWith := none, cache := [], fet := [], wrTail := x.wrDone, wrFetch := x.wrDone,
                             wrStart := x.wrDone, abandoned := true, pend := none, stopTail := none, endTime := none,
                             stopNotice := false })
  match c.eng with
  | some e => (dropEffects e s1).modEng e (fun x => { x with phase := .stopping 0x30, paused := false, cur := none, reads := [] })
  | none => settle ch ((modOwned ch linkRelease s1).modChan ch orderOver)

/-- RESUME of a HALTED channel (Table 2-11c, R673): the write that failed is repeated, a mirror write with the current values,
and the held releases go on. -/
def resumeHalted (ch : BitVec 12) (s : State) : State :=
  let c := s.chan ch
  if c.ringErr && !c.en then abandonRing ch s
  else
    let failed := match c.relAck with | some k => k != 0 | none => false
    let c1 := { c with ringErr := false, relHeld := c.ringDue, mirPend := c.mirPend || c.mirErr, mirErr := false,
                       relTxn := if failed then none else c.relTxn, relAck := if failed then none else c.relAck,
                       stopNotice := false, wait := .none, preSt := .configured, preWait := .none }
    match c.eng with
    | some e =>
      mirrorIssue ch ((s.setChan ch { c1 with st := if c.en then .running else .draining }).modEng e (fun x => { x with paused := false }))
    | none =>
      if c.inOrder then
        (let w := if c.replay || c.sched.fired && c.sched.act != 0 then .ready else c.preWait
         noticeRetry ch (touch ch (mirrorIssue ch (s.setChan ch { c1 with st := if c.en then .waiting else .draining, wait := w }))))
      else if c.stalledDone.isSome then
        noticeRetry ch (mirrorIssue ch (s.setChan ch { c1 with st := if c.en then .waiting else .draining, wait := .noticeSpace }))
      else settle ch (considerHead ch (mirrorIssue ch (s.setChan ch { c1 with st := c1.armedOr, runAtFor := none })))

/-- RESUME of a PAUSED channel (R88, R419, R420, Table 7-13). -/
def resumePaused (ch : BitVec 12) (s : State) : State :=
  let c := s.chan ch
  let wst : ChState := if c.en then .waiting else .draining
  let c1 := { c with preSt := .configured, preWait := .none }
  match c.eng with
  | some e => (s.setChan ch { c1 with st := if c.en then .running else .draining }).modEng e (fun x => { x with paused := false })
  | none =>
    if c.stalledDone.isSome then noticeRetry ch (s.setChan ch { c1 with st := wst, wait := .noticeSpace })
    else if c.inOrder then
      (if c.replay then touch ch (s.setChan ch { c1 with st := wst, wait := .ready })
      else
        let t := s.setChan ch { c1 with st := wst, wait := c.preWait }
        if c.preWait = .anchor ∨ c.preWait = .time then touch ch (rejudge ch t) else noticeRetry ch (touch ch t))
    else if c.preSt = .waiting then
      (let t := s.setChan ch { c1 with st := wst, wait := c.preWait }
       touch ch (if c.preWait = .anchor ∧ c.sched.act = 1 then rejudge ch t else t))
    else settle ch (considerHead ch (s.setChan ch { c1 with st := c1.armedOr }))

/-- INVALIDATE (R84). -/
def invalidate (ch : BitVec 12) (s : State) : State := touch ch (discardEntries ch s)

/-- A rejected command (R87). -/
def cmdReject (ch : BitVec 12) (s : State) : State := s.modChan ch (fun c => { c with cmdRej := true })

/-- The pending command goes: a PAUSE that had stopped the engine lets it run, a STOP forgets the WR_TAIL it captured (R88). -/
def withdrawn (ch : BitVec 12) (s : State) : State :=
  let c := s.chan ch
  let t := s.setChan ch { c with pend := none, stopTail := if c.pend = some .stop then none else c.stopTail }
  if c.pend = some .pause then (match c.eng with | some e => t.modEng e (fun x => { x with paused := false }) | none => t) else t

/-- RESUME (Table 2-11d, R88, R673). DEDUCED, log entry 15: a channel that a ring error HALTED takes a RESUME while a STOP
pends, as Table 2-11d and R673 say without exception, and not as the last sentence of R88 would have it. -/
def doResume (ch : BitVec 12) (s : State) : State :=
  let c := s.chan ch
  if c.st = .paused then resumePaused ch s
  else if c.st = .halted then (if c.pend.isSome && !c.ringErr then cmdReject ch s else resumeHalted ch s)
  else if c.pend = some .pause then
    considerHead ch (withdrawn ch s)
  else cmdReject ch s

/-- A command written to the doorbell (R86 to R88). -/
def doCommand (ch : BitVec 12) (code : Nat) (s : State) : State :=
  let c := s.chan ch
  if code = 1 then (if c.st = .free then cmdReject ch s else invalidate ch s)
  else if code = 6 then (if c.st = .free then cmdReject ch s else doResume ch s)
  else match cmdOf code with
    | none => cmdReject ch s
    | some k =>
      if !accepts c k then cmdReject ch s
      else match c.pend with
        | some p =>
          if p.strength < k.strength then
            (let t := withdrawn ch s
             touch ch (if k = .stop then stopArrives ch t else t.modChan ch (fun d => { d with pend := some k })))
          else cmdReject ch s
        | none => touch ch (if k = .stop then stopArrives ch s else s.setChan ch { c with pend := some k })

/-! ## The state word (Table 2-8) -/

def ChState.code : ChState → Nat
  | .free => 0 | .configured => 1 | .armed => 2 | .running => 3 | .waiting => 4 | .paused => 5 | .draining => 6 | .halted => 7

/-- The channel state word. -/
def stateWord (s : State) (ch : BitVec 12) : Word :=
  let c := s.chan ch
  packW [(24, c.lastStatus.toNat), (19, b2n c.dbErr), (18, b2n c.ringErr), (17, b2n c.cmdRej), (16, b2n c.pend.isSome),
    (8, match c.pend with | some k => k.strength | none => 0), (7, b2n (chanIdle s ch)), (4, waitCode s ch), (0, c.st.code)]

/-! ## Context words (Tables 2-1 to 2-5, 3-8, 7-10) -/

/-- CH_SW_CTRL (Table 7-10). -/
def schedWord (d : Sched) : Word :=
  packW [(31, b2n d.armed), (30, b2n d.angular), (28, d.policy.toNat), (25, d.kind.toNat), (24, b2n d.held),
    (16, if d.kind = 5 then d.ec.toNat else 0), (8, d.nrMoves.toNat), (7, b2n d.fired)]

/-- Low or high word of a 64-bit value. -/
def half (v : DWord) (hi : Bool) : Word := if hi then v.extractLsb' 32 32 else v.truncate 32

/-- The word of the context at offset `o` (Table 2-1). -/
def ctxRead (s : State) (ch : BitVec 12) (o : Nat) : Word :=
  let c := s.chan ch
  let hi := o % 8 == 4
  if o = 0x00 then c.ctrl else if o = 0x04 then c.home
  else if o = 0x08 ∨ o = 0x0C then half c.wrBase hi
  else if o = 0x10 ∨ o = 0x14 then half c.ntBase hi
  else if o = 0x18 ∨ o = 0x1C then half c.mir hi
  else if o = 0x20 then c.ringCfg else if o = 0x24 then c.stk else if o = 0x28 then c.ckptCfg else if o = 0x2C then c.trap
  else if o = 0x40 then packW [(16, c.wrDone.toNat), (0, c.wrTail.toNat)]
  else if o = 0x44 then packW [(16, c.wrStart.toNat), (0, c.wrFetch.toNat)]
  else if o = 0x48 then packW [(16, c.ntTail.toNat), (0, c.ntHead.toNat)]
  else if o = 0x4C then stateWord s ch
  else if o = 0x50 then c.mirSeq
  else if o < 0x80 then 0
  else if o = 0x80 then c.ck.pc
  else if o = 0x84 then c.ck.psr
  else if o = 0x88 then BitVec.ofNat 32 c.ck.bytes.toNat
  else if o = 0x8C then packW [(24, c.ck.seq.toNat), (17, b2n c.ck.replayed), (16, b2n c.ck.late), (0, c.ck.bytes.toNat / 2 ^ 32)]
  else if o < 0xB0 then half (Tbl.get 0 c.ck.g ((o - 0x90) / 8 + 1)) hi
  else if o < 0xF0 then
    (let k := Tbl.get {} c.ck.s ((o - 0xB0) / 8)
     half (BitVec.ofNat 64 (k.desc.toNat * 2 ^ 40 + k.pos.toNat)) hi)
  else if o < 0xF8 then half c.sched.anchor hi
  else if o = 0xF8 then schedWord c.sched
  else c.sched.fire

/-- A field whose codes above `m` are reserved (R43). -/
def keepOver (old v m : Nat) : Nat := if v ≤ m then v else old

/-- CH_CTRL as a write stores it (Table 2-3, R43, R398). -/
def ctrlStored (old v : Word) : Word :=
  let own := if fld v 24 8 = 0xFF then fld old 24 8 else fld v 24 8
  packW [(24, own), (23, b2n (bit v 23)), (22, b2n (bit v 22)), (20, keepOver (fld old 20 2) (fld v 20 2) 2), (12, fld v 12 4),
    (4, b2n (bit v 4)), (3, b2n (bit v 3)), (1, b2n (bit v 1)), (0, b2n (bit v 0))]

/-- CH_RING_CFG as stored (Table 2-4). -/
def ringStored (old v : Word) : Word :=
  let p (l : Nat) := keepOver (fld old l 4) (fld v l 4) 11
  packW [(24, p 24), (20, p 20), (16, max 2 (fld v 16 4)), (4, p 4), (0, max 2 (fld v 0 4))]

/-- CH_CKPT as stored (Table 2-5). -/
def ckptStored (v : Word) : Word := packW [(16, max 10 (min 1000 (fld v 16 16))), (0, max 1 (min 64 (fld v 0 8)))]

/-- CH_STK as stored: each bound a multiple of 64, at most 0x2000 (R109). -/
def stkStored (v : Word) : Word := packW [(16, min 0x2000 (fld v 16 16 / 64 * 64)), (0, min 0x2000 (fld v 0 16 / 64 * 64))]

/-- A 64-bit word with one half replaced. -/
def setHalf (old : DWord) (hi : Bool) (v : Word) : DWord :=
  if hi then BitVec.ofNat 64 (v.toNat * 2 ^ 32 + old.toNat % 2 ^ 32) else BitVec.ofNat 64 (old.toNat / 2 ^ 32 * 2 ^ 32 + v.toNat)

/-- A RW context word other than CH_CTRL and CH_HOME as a write stores it; none where the word is RO. -/
def ctxStored (c : Chan) (o : Nat) (v : Word) : Option Chan :=
  let hi := o % 8 == 4
  if o = 0x08 ∨ o = 0x0C then some { c with wrBase := setHalf c.wrBase hi (if hi then v else v &&& 0xFFFFFFC0) }
  else if o = 0x10 ∨ o = 0x14 then some { c with ntBase := setHalf c.ntBase hi (if hi then v else v &&& 0xFFFFFFC0) }
  else if o = 0x18 ∨ o = 0x1C then some { c with mir := setHalf c.mir hi (if hi then v else v &&& 0xFFFFFFF9) }
  else if o = 0x20 then some { c with ringCfg := ringStored c.ringCfg v }
  else if o = 0x24 then some { c with stk := stkStored v }
  else if o = 0x28 then some { c with ckptCfg := ckptStored v }
  else if o = 0x2C then some { c with trap := v &&& 3 }
  else none

/-- The indices that a changed ring base or size resets (R46). -/
def ringIndices (old c : Chan) : Chan :=
  let c1 := if c.wrBase ≠ old.wrBase ∨ c.wrSize ≠ old.wrSize then { c with wrTail := 0, wrDone := 0, wrFetch := 0, wrStart := 0 } else c
  if c.ntBase ≠ old.ntBase ∨ c.ntSize ≠ old.ntSize then { c1 with ntHead := 0, ntTail := 0, ntSeq := 0 } else c1

/-- The channel becomes FREE: its context at its reset values, its subscriptions cleared (R47, R333). -/
def freeChan (ch : BitVec 12) (s : State) : State :=
  let s1 := s.setChan ch (chanRst s.boot.straps)
  let s2 := foldS (s1.subList.filter (fun p => p.2.ch == ch)) (fun p t =>
    t.modSub p.1 (fun x => { x with v := false, pend := false, ovr := false })) s1
  rqRecheck { s2 with dsp := Tbl.put {} s2.dsp ch.toNat {} }

/-- The state with EN = 1 that a DRAINING channel would hold (Table 2-7). -/
def enabledSt (c : Chan) : ChState :=
  if c.eng.isSome then .running else if c.inOrder || c.stalledDone.isSome || c.wait != .none then .waiting else .armed

/-- A write of CH_CTRL (R43, R44, R49, R50, Table 2-7): none answers SLVERR. -/
def writeCtrl (ch : BitVec 12) (v : Word) (s : State) : Option State :=
  let c := s.chan ch
  let n := ctrlStored c.ctrl v
  let home := !(homeSet s c.home).isEmpty
  let off := BitVec.ofNat 32 (setFld n 1 1 0).toNat
  match c.st with
  | .free =>
    if bit n 0 then
      (if bit n 1 && home then some (considerHead ch (s.setChan ch { c with ctrl := n, st := .armed }))
      else some (s.setChan ch { c with ctrl := off, st := .configured }))
    else some (s.setChan ch { c with ctrl := n })
  | .configured =>
    if !bit n 0 then some (freeChan ch s)
    else if bit n 1 && home then some (considerHead ch (s.setChan ch { c with ctrl := n, st := .armed }))
    else some (s.setChan ch { c with ctrl := off })
  | st =>
    let m : Word := 0xFFFF0FFD
    if n &&& m ≠ c.ctrl &&& m then none
    else
      let c1 := { c with ctrl := n }
      if st = .paused ∨ st = .halted then some (s.setChan ch c1)
      else if bit n 1 = c.en then some (s.setChan ch c1)
      else if bit n 1 then some (considerHead ch (s.setChan ch { c1 with st := enabledSt c1 }))
      else if st = .armed ∧ c.wrDone = c.wrTail ∧ chanIdle s ch then some (s.setChan ch { c1 with st := .configured, wait := .none })
      else some (touch ch (s.setChan ch { c1 with st := .draining }))

/-- A write of a context word through a window (R44, R46): none answers SLVERR. -/
def ctxWrite (ch : BitVec 12) (o : Nat) (v : Word) (s : State) : Option State :=
  let c := s.chan ch
  if o = 0 then writeCtrl ch v s
  else if o = 4 then some (touch ch (s.setChan ch { c with home := v }))
  else match ctxStored c o v with
    | none => some s
    | some n =>
      if n = c then some s
      else if c.st = .free ∨ c.st = .configured then some (s.setChan ch (ringIndices c n))
      else none

end Sys2Proof.Machine
end

