-- ==== Sys2Proof/Machine/Channels.lean ====
section
/-! DEFINITION. Channels: what happens to a channel's commands at their stop points, to its entries, and to its releases in
the hub (02, 11). -/

namespace Sys2Proof.Machine

/-! ## Stop points (R417 to R424) -/

/-- Reads of engine `e` that are still out: withdrawn before they are presented, otherwise their responses are discarded. -/
def discardReads (e : EngId) (s : State) : State :=
  let rd (k : Txn) : Bool := Txn.ofEng e k && !Txn.dataOf e k
  let u := withdrawAll (fun k => rd k && !burstOut s k) s
  { u with txns := u.txns.map (fun k => if rd k then { k with discard := true } else k) }

/-- The work order that ABORT or KILL stopped is over: it completes, or goes without a result when the ring was abandoned
(R422, R423, R673). -/
def finishStop (ch : BitVec 12) (e : EngId) (status : Byte) (s : State) : State :=
  let x := s.eng e
  let t := discardReads e s
  if (s.chan ch).abandoned then settle ch ((modOwned ch linkRelease (freeEng e t)).modChan ch orderOver)
  else endOrder e status x.acked t

/-- The engine reaches the stop point of ABORT: held state is discarded (R422). -/
def abortStop (e : EngId) (s : State) : State :=
  (dropEffects e s).modEng e (fun x => { x with phase := .stopping 0x30, paused := false, cur := none, busy := none, reads := [], pipe := none, pipeAsk := false })

/-- The engine reaches the stop point of KILL: presented bursts are torn, the others withdrawn with their grants, read responses
discarded (R423). -/
def killStop (e : EngId) (s : State) : State :=
  let t := (dropEffects e s).modEng e (fun x => { x with phase := .stopping 0x32, paused := false, cur := none, busy := none, reads := [], pipe := none, pipeAsk := false })
  let u := withdrawAll (fun k => Txn.ofEng e k && !burstOut t k) t
  { u with txns := u.txns.map (fun k => if Txn.dataOf e k then { k with torn := true } else if Txn.ofEng e k then { k with discard := true } else k) }

/-- A command ends the work order of a channel without an engine (R422, Table 11-5): BYTES as committed. DESIGN CHOICE (log entry
67): a completion that waits for notice space (R66) counts as completed under its own program (R89), and the command is discarded. -/
def endHeld (ch : BitVec 12) (status : Byte) (s : State) : State :=
  let c := s.chan ch
  if c.stalledDone.isSome then s.setChan ch { c with pend := none }
  else if c.inOrder then
    considerHead ch (completeFree ch status (if c.fresh then 0 else c.ck.bytes) (if c.fresh then c.runLate else c.ck.late)
      (heldReplayed c) s)
  else match headEntry c with
    | some e => if headWaits c then considerHead ch (completeUnstarted ch e status 0 s) else s.setChan ch { c with pend := none }
    | none => s.setChan ch { c with pend := none }

/-- ABORT takes effect here: at such a boundary, or while a checkpoint waits that is not a capture burst's (R422). -/
def abortsHere (x : Engine) : Bool :=
  match x.phase with
  | .run => atStop x
  | .commit _ _ => !x.capturing
  | _ => false

/-- PAUSE reaches its stop point (R417, R418), which a channel whose halting result is on its way has none of (Table 2-11e); an engine whose channel a ring error halted stops likewise (R673). -/
def execPauseStopPoint (ch : BitVec 12) (s : State) : Host.Outcome State Fault Refusal :=
  act s (
    let c := s.chan ch
    match c.eng with
    | some e =>
      let x := s.eng e
      if x.phase == .run && atStop x then
        (if c.pend = some .pause ∧ c.st ≠ .paused then pauseEngine ch e s
        else if c.ringErr && c.st == .halted then s.modEng e (fun y => { y with paused := true })
        else s)
      else s
    | none => if c.pend = some .pause ∧ c.st ≠ .paused ∧ !c.replay ∧ c.haltWith.isNone then pauseNow ch s else s)

/-- ABORT reaches its stop point, and completes the work order once its writes are answered (R422). -/
def execAbortStopPoint (ch : BitVec 12) (s : State) : Host.Outcome State Fault Refusal :=
  act s (
    let c := s.chan ch
    match c.eng with
    | some e =>
      match (s.eng e).phase with
      | .stopping st => if st = 0x30 ∧ !writesOpen s e then finishStop ch e st s else s
      | .run | .commit _ _ =>
        if c.pend = some .abort ∧ abortsHere (s.eng e) then
          (let t := abortStop e s
           if writesOpen t e then t else finishStop ch e 0x30 t)
        else s
      | _ => s
    | none => if c.pend = some .abort ∧ !c.replay then endHeld ch 0x30 s else s)

/-- KILL reaches its stop point, and completes the work order once its writes are answered; without a work order the
channel is HALTED at once (R423, Table 2-11d). -/
def execKillStopPoint (ch : BitVec 12) (s : State) : Host.Outcome State Fault Refusal :=
  act s (
    let c := s.chan ch
    match c.eng with
    | some e =>
      match (s.eng e).phase with
      | .stopping st => if st = 0x32 ∧ !writesOpen s e then finishStop ch e st s else if c.pend = some .kill ∧ st ≠ 0x32 then killStop e s else s
      | .starting | .run | .commit _ _ | .ending _ =>
        if c.pend = some .kill then
          (let t := killStop e s
           if writesOpen t e then t else finishStop ch e 0x32 t)
        else s
      | _ => s
    | none =>
      if c.pend = some .kill then (if inProgress c then endHeld ch 0x32 s else haltNow ch 1 0x32 s) else s)

/-- STOP's work-order boundary: captured entries complete with STOPPED, then the channel halts (R421). DEDUCED, log entry 15: in a
PAUSED channel that holds an order they complete behind it, as R75 and R421 say, and not at once as Table 2-11d has it. -/
def execStopWorkOrderBoundary (ch : BitVec 12) (s : State) : Host.Outcome State Fault Refusal :=
  act s (
    let c := s.chan ch
    if c.pend = some .stop ∧ c.eng.isNone ∧ !inProgress c ∧ c.haltWith.isNone then
      (let t := stopEntries ch 65536 s
       let d := t.chan ch
       if d.stopTail = some d.wrStart ∧ d.stalledDone.isNone ∧ d.rel.isEmpty ∧ d.wrDone = d.wrStart then settle ch (stopEnd ch t)
       else t)
    else s)

/-! ## Entries (R51, R54 to R57, R79 to R84) -/

/-- The wing whose entry cache receives the channel's fetches (R672). -/
def cacheWing (s : State) (ch : BitVec 12) : BitVec 2 :=
  match (homeSet s (s.chan ch).home).head? with
  | some g => BitVec.ofNat 2 (g / 8)
  | none => 0

/-- Entries that wing `w`'s entry cache holds or awaits. -/
def cacheUsed (s : State) (w : BitVec 2) : Nat :=
  ((s.chans.filter (fun p => cacheWing s (BitVec.ofNat 12 p.1) == w)).map (fun p => p.2.cache.length + p.2.fet.length)).sum

/-- The entry cache reads the next posted entry (R51, R81, R672). -/
def execEntryFetch (ch : BitVec 12) (s : State) : Host.Outcome State Fault Refusal :=
  act s (
    let c := s.chan ch
    if coreUp s && (c.st != .free && c.st != .configured || c.pend == some .stop) && !c.abandoned && c.wrFetch != c.wrTail &&
        decide (sub16 c.wrFetch c.wrStart < 8) && decide (cacheUsed s (cacheWing s ch) < 1024) then
      (let a := c.wrBase + BitVec.ofNat 64 (64 * (c.wrFetch.toNat % 2 ^ c.wrSize))
       let t := s.setChan ch { c with wrFetch := c.wrFetch + 1, fet := c.fet ++ [(s.nextTxn, c.wrFetch, none)] }
       issue (ringTxn s ch c.wrPort 0 a 64 [] .atWing (some (cacheWing s ch)) (.entry ch c.wrFetch)) t)
    else s)

/-- The answered fetches at the front enter the cache in index order. -/
def takeFetched : List (Nat × BitVec 16 × Option CEntry) → List CEntry × List (Nat × BitVec 16 × Option CEntry)
  | (_, _, some e) :: r => (e :: (takeFetched r).1, (takeFetched r).2)
  | l => ([], l)

/-- An entry read returns (R79 to R82). -/
def execEntryFetchComplete (ch : BitVec 12) (s : State) : Host.Outcome State Fault Refusal :=
  act s (
    if coreUp s then
      (let c := s.chan ch
       let (a, b) := takeFetched c.fet
       coreDone [254] ch (considerHead ch (s.setChan ch { c with cache := c.cache ++ a, fet := b })))
    else s)

/-- The entry at WR_START of a channel that may start it. -/
def startable (s : State) (ch : BitVec 12) : Option CEntry :=
  let c := s.chan ch
  if coreUp s && (c.st == .armed || c.st == .draining) && !c.inOrder && c.stalledDone.isNone && c.haltWith.isNone && c.pend.isNone
  then headEntry c else none

/-- A malformed entry completes without running (R56, R57). -/
def execEntryMalformed (ch : BitVec 12) (s : State) : Host.Outcome State Fault Refusal :=
  act s (match startable s ch with
    | some e => if e.err.isNone && malformed s ch e.bytes then considerHead ch (completeUnstarted ch e 0x10 0 s) else s
    | none => s)

/-- WQM starts a MARKER: its notice is reserved and it completes, or it waits for a slot (R55, R65, R66). -/
def execMarkerEntry (ch : BitVec 12) (s : State) : Host.Outcome State Fault Refusal :=
  act s (match startable s ch with
    | some e =>
      if e.err.isNone && !malformed s ch e.bytes && entType e.bytes == 4 then
        (let t := s.modChan ch (fun c =>
           { c with wrStart := c.wrStart + 1, cache := c.cache.filter (fun x => x.idx != e.idx), order := some e, inOrder := true })
         if (t.chan ch).slotFree then markerDone ch e t
         else t.modChan ch (fun c => { c with wait := .noticeSpace, st := if c.st = .armed then .waiting else c.st }))
      else s
    | none => s)

/-- A BARRIER completes once every named channel has passed its index (R54). -/
def execBarrierComplete (ch : BitVec 12) (s : State) : Host.Outcome State Fault Refusal :=
  act s (
    let c := s.chan ch
    match c.order with
    | some e =>
      if coreUp s && c.inOrder && entType e.bytes == 3 && c.wait == .barrier && (c.st == .waiting || c.st == .draining) &&
          barrierMet s e.bytes then considerHead ch (completeFree ch 0 0 false false s)
      else s
    | none => s)

/-! ## Releases (R76, R77, R409 to R413) -/

/-- The result area of an entry (Table 2-10). -/
def resultBytes (status flags : Byte) (by_ : BitVec 48) (endTime : Word) (tag : BitVec 16) : List Byte :=
  [status, flags] ++ toLe 6 by_.toNat ++ toLe 4 endTime.toNat ++ toLe 2 tag.toNat ++ [0, 0]

/-- A notice entry (Table 2-11a). -/
def noticeBytes (ty flags : Byte) (ch : BitVec 12) (seq : Word) (t : DWord) (payload : List Byte) : List Byte :=
  [ty, flags] ++ toLe 2 ch.toNat ++ toLe 4 seq.toNat ++ toLe 8 t.toNat ++ slice payload 0 16

/-- The payload of a notice as it is written: a COMPLETION copies the result that follows it. -/
def noticePayload (c : Chan) (ty : Byte) (payload : List Byte) (endTime : Word) : List Byte :=
  if ty = 2 then
    (match c.rel.tail.head? with
     | some (.publish _ st fl by_ tag) => resultBytes st fl by_ endTime tag
     | _ => payload)
  else payload

/-- The notice at the head is written to its slot (R62, R76); a repeat carries the TIME and END_TIME of the write that failed
(Table 2-10, R673). -/
def noticeIssue (ch : BitVec 12) (ty flags : Byte) (payload : List Byte) (time : Option DWord) (s : State) : State :=
  let c := s.chan ch
  let a := c.ntBase + BitVec.ofNat 64 (32 * (c.ntTail.toNat % 2 ^ c.ntSize))
  let tm := time.getD s.now
  let et : Word := tm.truncate 32
  let b := noticeBytes ty flags ch c.ntSeq tm (noticePayload c ty payload et)
  let t := s.setChan ch { c with relTxn := some s.nextTxn, endTime := if ty = 2 then some et else c.endTime,
                                 rel := .notice ty flags payload (some tm) :: c.rel.tail }
  issue (ringTxn s ch c.ntPort 1 a 32 b .atPort none (.release ch)) t

/-- NT_TAIL passes an acknowledged notice (R76). -/
def noticeAcked (c : Chan) : Chan := { c with ntTail := c.ntTail + 1, ntSeq := c.ntSeq + 1, reserved := c.reserved - 1 }

/-- The release at the head is complete: the next one may begin (R409). -/
def releaseDone (ch : BitVec 12) (s : State) : State :=
  touch ch (settle ch (tmAdd 35 1 (s.modChan ch (fun c => { c with rel := c.rel.tail, relTxn := none, relAck := none }))))

/-- The wing whose slice serves the channel's counter and record writes (log entry 33). -/
def hubWing (s : State) (ch : BitVec 12) : BitVec 2 := BitVec.ofNat 2 (sliceOf s ((s.dspOf ch).lastG.toNat / 8))

/-- Write bytes of program space into its line for a release (R278, R214). -/
def psWrite (ch : BitVec 12) (off : Nat) (b : List Byte) (s : State) : Bool × State :=
  lineWrite (hubWing s ch) (psLine s off) ((s.psBase + BitVec.ofNat 64 off).toNat % 64) b s

/-- The HALT notice of a ring error is on its way to its slot; the notices behind it wait (R76, R673). -/
def haltOut (s : State) (ch : BitVec 12) : Bool := s.txns.any (fun t => t.purpose == .haltNotice ch)

/-- The hub releases the head of the channel's queue, one step at a time (R409, Table 11-1). -/
def execEffectRelease (ch : BitVec 12) (s : State) : Host.Outcome State Fault Refusal :=
  act s (
    let c := s.chan ch
    if !coreUp s || c.relHeld then s
    else match c.rel with
      | .notice ty fl p tm :: _ =>
        if c.relTxn.isNone then (if haltOut s ch then s else noticeIssue ch ty fl p tm s)
        else if c.relAck = some 0 then
          coreDone [255, 259, 260, 261] ch (mirrorIssue ch (mirrorDue ch (releaseDone ch (s.setChan ch (noticeAcked c)))))
        else s
      | .signal ec :: _ => coreDone [256, 261] ch (releaseDone ch (signalTake ec.toNat s))
      | .counters [] :: _ => releaseDone ch s
      | .counters ((o, v) :: r) :: t =>
        (match psWrite ch o (toLe 8 v.toNat) s with
         | (false, u) => u
         | (true, u) =>
           let w := u.modChan ch (fun d => { d with rel := .counters r :: t })
           if r.isEmpty then coreDone [261] ch (releaseDone ch w) else w)
      | .xrec k b :: _ =>
        (match psWrite ch (fld (s.app .xrecBase) 18 14 * 2 ^ 18 + 64 * ch.toNat + 16 * k.toNat) b s with
         | (false, u) => u
         | (true, u) => coreDone [261] ch (releaseDone ch u))
      | _ => s)

/-- A result's publication. -/
def Release.isPublish : Release → Bool
  | .publish .. => true
  | _ => false

/-- WR_DONE passes a published entry; a halting status then halts the channel (R64, R74, R93). -/
def published (ch : BitVec 12) (idx : BitVec 16) (status : Byte) (s : State) : State :=
  let s1 := s.modChan ch (fun c => { c with wrDone := idx + 1, lastStatus := status, rel := c.rel.tail, relTxn := none, relAck := none,
                                            endTime := none })
  let s2 := mirrorIssue ch (mirrorDue ch (tmAdd 35 1 s1))
  let c := s2.chan ch
  match c.haltWith with
  | some (cause, st) => if !c.rel.any Release.isPublish && c.stalledDone.isNone then enterHalted ch cause st s2 else s2
  | none => considerHead ch (settle ch s2)

/-- A result is published: its write, then the advance of WR_DONE (R74, R409). -/
def execResultPublication (ch : BitVec 12) (s : State) : Host.Outcome State Fault Refusal :=
  act s (
    let c := s.chan ch
    if !coreUp s || c.relHeld then s
    else match c.rel with
      | .publish idx st fl by_ tag :: _ =>
        if c.relTxn.isNone then
          (let et := c.endTime.getD (s.now.truncate 32)
           let a := c.wrBase + BitVec.ofNat 64 (64 * (idx.toNat % 2 ^ c.wrSize) + 48)
           issue (ringTxn s ch c.wrPort 1 a 16 (resultBytes st fl by_ et tag) .atPort none (.release ch))
             (s.setChan ch { c with relTxn := some s.nextTxn, endTime := some et }))
        else if c.relAck = some 0 then coreDone [254, 255, 259, 260] ch (published ch idx st s)
        else s
      | _ => s)

/-- A ring error halts the channel and holds its releases; its HALT notice is written at once where the error did not
concern the notice ring and no notice is held (R64, R79, R673). -/
def execRingError (ch : BitVec 12) (s : State) : Host.Outcome State Fault Refusal :=
  act s (
    let c := s.chan ch
    if c.relHeld && c.ringDue then
      (let held := c.rel.any (fun r => match r with | .notice .. => true | _ => false)
       let s1 := if c.inOrder then s else disarm ch s
       let c1 := s1.chan ch
       let c2 := { c1 with ringErr := true, ringDue := false, st := .halted, wait := .none, readyAt := none, wakeAsked := false,
                           preWait := if c.st = .paused ∨ c.st = .halted then c.preWait else c.wait, preSt := .configured,
                           pend := if c.pend = some .pause then none else c.pend }
       let s2 := haltPush ch (s1.setChan ch c2)
       if !held && c2.slotFree && !haltOut s2 ch then
         (let a := c2.ntBase + BitVec.ofNat 64 (32 * (c2.ntTail.toNat % 2 ^ c2.ntSize))
          issue (ringTxn s2 ch c2.ntPort 1 a 32 (noticeBytes 4 0 ch c2.ntSeq s.now (haltPayload c2 3 c2.lastStatus)) .atPort none (.haltNotice ch))
            (s2.setChan ch { c2 with reserved := c2.reserved + 1 }))
       else s2)
    else s)

end Sys2Proof.Machine
end

