-- ==== Sys2Proof/Machine/Concourse.lean ====
section
/-! DEFINITION. Concourse: request lines, software producers, subscriptions, HALT_Q, event output and interrupt lines
(08). -/

namespace Sys2Proof.Machine

/-! ## Request lines (R316 to R324) -/

/-- The port's LAST producer goes with the event (R322). -/
def rqProducers (s : State) (n : Nat) (last : Bool) : List Nat :=
  n :: (if bit (s.app (.rqCfg n)) 3 && last then [128 + n / 4] else [])

/-- Lines `ns` generate events in one cycle: counted, outstanding, emitted together, and acknowledged at once under ACCEPT
(R319, R320, R328). -/
def rqEvents (ns : List Nat) (s : State) : State :=
  let ps := ns.flatMap (fun n => rqProducers s n (s.rq n).last)
  let s1 := emitT ps (foldS ns (fun n t => t.modRq n (fun q => { q with outst := true, cnt := q.cnt + 1 })) s)
  foldS ns (fun n t => if rqAccepts t n then rqAckNow n t else t) s1

/-- Line `n` generates an event. -/
def rqEvent (n : Nat) (s : State) : State := rqEvents [n] s

/-- MODE of line `n`. -/
def rqMode (s : State) (n : Nat) : Nat := fld (s.app (.rqCfg n)) 0 2

/-- LEVEL mode samples the line: high, nothing outstanding and no holdoff (Table 8-2). -/
def levelDue (s : State) (n : Nat) : Bool := rqMode s n == 2 && (s.rq n).req && !(s.rq n).outst && !(s.rq n).holdoff

/-- One line in LEVEL mode is sampled. -/
def levelSample (n : Nat) (s : State) : State := if levelDue s n then rqEvent n s else s

/-- A change of a request line (R317, Table 8-2). While CORE is not ON, a high level in LEVEL or HANDSHAKE mode raises it
(R624). -/
def execRequestLineChange (n : BitVec 7) (lvl last : Bool) (s : State) : Host.Outcome State Fault Refusal :=
  act s (
    let k := n.toNat
    let q := s.rq k
    let rise := lvl && !q.req
    let t := s.modRq k (fun x => { x with req := lvl, last := last })
    if !coreUp s then
      (if lvl && (rqMode s k == 2 || rqMode s k == 3) && !s.coreOn then beginWake 2 2 k t else t)
    else match rqMode s k with
      | 1 => if rise then rqEvent k t else t
      | 2 => levelSample k t
      | 3 =>
        if rise && !q.ack then rqEvent k t
        else if !lvl then t.modRq k (fun x => { x with ack := false }) else t
      | _ => t)

/-- The holdoff after an acknowledge expires, and LEVEL mode samples the line again (R318). -/
def execHoldoffExpiry (n : BitVec 7) (s : State) : Host.Outcome State Fault Refusal :=
  act s (if coreUp s then levelSample n.toNat (s.modRq n.toNat (fun x => { x with holdoff := false })) else s)

/-- The AO latch of an EDGE line takes a rising edge while CORE is not ON or its clock is stopped, and raises CORE; an edge that meets a set latch
is lost (R323, R624, R631). -/
def execAoRequestLatch (n : BitVec 7) (s : State) : Host.Outcome State Fault Refusal :=
  act s (
    let k := n.toNat
    if coreUp s || s.boot.rstN || s.boot.rstAo || rqMode s k != 1 then s
    else if (s.rq k).latch then s.modRq k (fun q => { q with lost := true })
    else beginWake 2 2 k (s.modRq k (fun q => { q with latch := true })))

/-- CORE's clock runs again: each set latch yields one event and is cleared, LEVEL lines are sampled, and a HANDSHAKE line that
rose meanwhile is seen to have risen (R323, R624). -/
def wakeSamples (s : State) : State :=
  let due := (upTo 128).filter (fun n =>
    let q := s.rq n
    (q.latch && rqMode s n == 1) || levelDue s n || (rqMode s n == 3 && q.req && !q.ack && !q.outst))
  rqEvents due (foldS (upTo 128) (fun n t => t.modRq n (fun q => { q with latch := false })) s)

/-- After what held a domain in state `s` is over, in `t`: CORE, where that held it, takes the lines that changed (R557, R624). -/
def released (s t : State) : State := if domHeld s 2 && coreUp t then wakeSamples t else t

/-- The shell passes CORE's output levels: CORE is ON and released, and nothing clamps (R342, R486, R491). -/
def pinsUp (s : State) : Bool := s.coreOn && !(s.dom 2).hold && !s.boot.shellIso

/-- The level of `rq_ack` at its pin (R342). -/
def rqAckPin (s : State) (n : Nat) : Bool := pinsUp s && (s.rq n).ack

/-- RQ_STAT(n) (Table 8-3). -/
def rqWord (s : State) (n : Nat) : Word :=
  let q := s.rq n
  packW [(16, q.cnt.toNat), (3, b2n q.lost), (2, b2n q.outst), (1, b2n (rqAckPin s n)), (0, b2n q.req)]

/-! ## Software producers and HALT_Q (R326, R327) -/

/-- A write of SW_RAISE: a non-secure write raises only the producers that SW_SEC leaves open. -/
def swRaise (sec : Bool) (v : Word) (s : State) : State :=
  let m := s.app .swSec
  emitT (((upTo 16).filter (fun k => bit v k && (sec || !bit m k))).map (fun k => 240 + k)) s

/-- HALT_Q as read (Table 8-6). -/
def haltWord (s : State) : Word :=
  match s.evc.haltQ with
  | [] => packW [(30, b2n s.evc.haltOvf)]
  | c :: _ => packW [(31, 1), (30, b2n s.evc.haltOvf), (0, c.toNat)]

/-- A secure read of HALT_Q pops the oldest halted channel. -/
def haltPop (s : State) : State := { s with evc := { s.evc with haltQ := s.evc.haltQ.tail, haltOvf := false } }

/-! ## Subscriptions (R332, R333) -/

/-- SUB(j) as read (Table 8-8). -/
def subWord (x : Sub) : Word := packW [(31, b2n x.v), (30, b2n x.gate), (16, x.ch.toNat), (0, x.ec.toNat)]

/-- The side of a write joins a channel that is neither FREE nor CONFIGURED. -/
def subBusy (s : State) (x : Sub) : Bool :=
  let st := (s.chan x.ch).st
  x.v && st != .free && st != .configured

/-- The side joins a secure channel. -/
def subSecure (s : State) (x : Sub) : Bool := x.v && (s.chan x.ch).sec

/-- A write of SUB(j) is refused (R332). -/
def subRefused (s : State) (j : Nat) (sec : Bool) (n : Sub) : Bool :=
  let o := s.sub j
  let others := s.subList.filter (fun p => p.1 != j && p.2.v)
  let changed := o.v != n.v || o.gate != n.gate || o.ch != n.ch || o.ec != n.ec
  (changed && (subBusy s o || subBusy s n)) ||
  (n.v && !admitted (s.chan n.ch) (s.app (.ecCtrl n.ec.toNat))) ||
  (n.v && others.any (fun p => p.2.ch == n.ch && p.2.ec == n.ec)) ||
  (n.v && n.gate && others.any (fun p => p.2.ch == n.ch && p.2.gate)) ||
  (!sec && (subSecure s o || subSecure s n))

/-- A write of SUB(j); none answers SLVERR. A change clears PEND and OVR. -/
def subWrite (j : Nat) (sec : Bool) (v : Word) (s : State) : Option State :=
  let o := s.sub j
  let n : Sub := { v := bit v 31, gate := bit v 30, ch := BitVec.ofNat 12 (fld v 16 12), ec := BitVec.ofNat 8 (fld v 0 8) }
  if subRefused s j sec n then none
  else if o.v == n.v && o.gate == n.gate && o.ch == n.ch && o.ec == n.ec then some s
  else some (touch n.ch (touch o.ch (rqRecheck (s.modSub j (fun _ => n)))))

/-! ## Event output lines and interrupts (R337 to R341) -/

/-- The high time of a PULSE ends, or its minimum low time (R338). -/
def execEvoPulseEnd (m : BitVec 6) (s : State) : Host.Outcome State Fault Refusal :=
  act s (
    if s.coreOn && fld (s.app (.evoCfg m.toNat)) 0 2 == 1 then
      s.modEvo m.toNat (fun v => if v.level then { v with level := false, low := true } else { v with low := false })
    else s)

/-- The level of an event output line at its pin (R342). -/
def evoPin (s : State) (m : Nat) : Bool := pinsUp s && (s.evo m).level

/-- TIME of an interrupt line has passed since its timer started (R339). -/
def irqTimedOut (s : State) (i : Nat) : Bool :=
  let n := fld (s.reg (.irqCoal i)) 16 16
  match (s.irq i).timer with
  | some t => n != 0 && decide (n * ticksUs ≤ (s.now - t).toNat)
  | none => false

/-- The coalescing timer of an interrupt line expires (R339). -/
def execIrqCoalTimeout (i : BitVec 5) (s : State) : Host.Outcome State Fault Refusal :=
  act s (if s.coreOn && irqTimedOut s i.toNat then s.modIrq i.toNat (fun q => { q with pend := true }) else s)

/-- The lines a TP access may see: all for a secure one, those not marked secure otherwise (R341). -/
def irqVisible (s : State) (sec : Bool) : Word := if sec then 0xFFFFFFFF else ~~~ (s.app .irqSec)

/-- IRQ_PEND as a word. -/
def irqPendWord (s : State) : Word := packW ((upTo 32).map (fun i => (i, b2n (s.irq i).pend)))

/-- A write of 1 to PEND clears PEND and CNT and stops the timer (R339). -/
def irqClear (sec : Bool) (v : Word) (s : State) : State :=
  let m := v &&& irqVisible s sec
  foldS (upTo 32) (fun i t => if bit m i then t.modIrq i (fun _ => {}) else t) s

/-- A new COUNT or TIME acts at once against CNT and the timer (R340). -/
def irqCoalChanged (i : Nat) (s : State) : State :=
  let t := if (s.irq i).cnt = 0 then s else irqCheck i s
  if irqTimedOut t i then t.modIrq i (fun q => { q with pend := true }) else t

/-- The level of pin IRQ*i*: PEND and MASK, low while CORE is not ON (R339, R342). -/
def irqPin (s : State) (i : Nat) : Bool := pinsUp s && (s.irq i).pend && bit (s.reg .irqMask) i

end Sys2Proof.Machine
end

