-- ==== Sys2Proof/Machine/Dispatcher.lean ====
section
/-! DEFINITION. Dispatcher: which ready channel gets which free engine (R380 to R388), and how a work order starts or
resumes on it (R97, R100 to R102, R117, R126, R213 to R215). -/

namespace Sys2Proof.Machine

/-! ## Eligible galleries (R381 to R383, R535, R536, R632) -/

/-- The active bank of a gallery. -/
def Gal.active (g : Gal) : Bank := if g.act then g.bankB else g.bankA

/-- IMAGE_CLASS is satisfied (Table 15-12). -/
def classOk (s : State) (cls : Nat) (id : Word) : Bool :=
  if cls = 1 then decide (s.reg .imgN ≠ 0) && s.reg .imgN == id
  else if cls = 2 then decide (s.reg .imgNew ≠ 0) && s.reg .imgNew == id else true

/-- An image provides MINOR and FEAT. -/
def imgRuns (b : Bank) (minor : BitVec 5) (feat : BitVec 6) : Bool :=
  decide (minor.toNat ≤ imgMinor b.imgId) && feat &&& ~~~b.feat == 0

/-- The gallery runs an image that the channel may use (R535, R536). -/
def imageOk (s : State) (c : Chan) (g : Nat) : Bool :=
  let b := (s.gal g).active
  b.st == .valid && classOk s c.imgClass b.imgId && (!(c.inOrder && c.hdrOk) || imgRuns b c.minor c.feat)

/-- Gallery `g` is barred while its wing runs at OPP4 (R632). -/
def oppBars (s : State) (g : Nat) : Bool :=
  let r := s.app (.oppR (1 + g / 8))
  fld r 16 3 == 4 && !bit r (8 + g % 8)

/-- Gallery `g` may wake for dispatch (R381, R610, R632). -/
def wakePermitted (s : State) (g : Nat) : Bool := decide (fld (s.reg (.domCtrl (7 + g))) 30 2 < 2) && !oppBars s g

/-- A path to a port that the channel's streams name is cordoned from the gallery's wing (Table 10-8). -/
def pathsOk (s : State) (c : Chan) (g : Nat) : Bool :=
  !wingOut s (g / 8) && !c.ports.any (fun q => (s.arb (64 + (q.2 - 1))).cordoned.contains (g / 8))

/-- Gallery `g` is closing under a request to leave ON (R381, R610, R632). DEDUCED (log entry 64): a gallery that enters only because
it stood idle stays eligible, and a DISPATCH wake abandons its entry, as Table 18-13 shows. -/
def galClosing (s : State) (g : Nat) : Bool := (s.dom (7 + g)).entering && (leaveAsked s (7 + g)).isSome

/-- Gallery `g` is ON and takes new work. -/
def galOpen (s : State) (g : Nat) : Bool := (s.dom (7 + g)).st == .on && !(s.dom (7 + g)).entering

/-- Gallery `g` is eligible but for CH_HOME (R381). -/
def galEligible (s : State) (c : Chan) (g : Nat) : Bool :=
  s.galPop g && !galCordoned s g && !galClosing s g && (galOpen s g || wakePermitted s g) &&
  imageOk s c g && (!(c.recAes || c.needAes) || pipeOk s g false || pipeOk s g true) && pathsOk s c g

/-- The eligible set, and whether it is a substitute (R381, R382). -/
def eligibleSet (s : State) (ch : BitVec 12) : List Nat × Bool :=
  let c := s.chan ch
  let ok (l : List Nat) := l.filter (galEligible s c)
  let home := homeSet s c.home
  let own := ok home
  if !own.isEmpty || home.isEmpty then (own, false)
  else if bit (s.app .dspCfg) 0 then
    (let near := ok ((upTo 32).filter (fun g => (upTo 32).any (fun h => bit c.home h && h / 8 == g / 8)))
     if !near.isEmpty then (near, true) else (ok (upTo 32), true))
  else ([], false)

/-- REHOMED and NOHOME of a ready channel after a decision (R382, R383). -/
def dspFlags (s : State) (ch : BitVec 12) (d : Dsp) : Dsp :=
  if (homeSet s (s.chan ch).home).isEmpty then d
  else
    let (l, sub) := eligibleSet s ch
    if l.isEmpty then { d with nohome := true, rehomed := false } else { d with nohome := false, rehomed := sub }

/-! ## Choosing (R384, R385) -/

/-- Effective priority of a ready channel (R384). -/
def effPrio (s : State) (c : Chan) : Nat :=
  let age := fld (s.app .dspCfg) 16 16
  let w := match c.readyAt with | some t => (s.now - t).toNat / ticksUs | none => 0
  min 15 (c.prio + if age = 0 then 0 else w / age)

/-- Ready channels, in number order. -/
def readyChans (s : State) : List (BitVec 12) :=
  (s.chans.map (fun p => BitVec.ofNat 12 p.1)).filter (ready s)

/-- Record entries handed over for the channel are unreleased (R215). -/
def recsPending (c : Chan) : Bool := c.rel.any (fun r => match r with | .xrec .. => true | _ => false)

/-- Channel `a` goes before `b`: higher effective priority, then longer ready, then lower number. -/
def chanBefore (s : State) (a b : BitVec 12) : Bool :=
  let x := s.chan a
  let y := s.chan b
  let t (c : Chan) : Nat := (c.readyAt.getD s.now).toNat
  if effPrio s x ≠ effPrio s y then decide (effPrio s y < effPrio s x)
  else if t x ≠ t y then decide (t x < t y) else decide (a.toNat < b.toNat)

/-- The first of a list under an order. -/
def bestOf {α : Type} (before : α → α → Bool) : List α → Option α
  | [] => none
  | a :: r => match bestOf before r with
    | some b => if before b a then some b else some a
    | none => some a

/-- An engine in service that holds no channel. -/
def engFree (s : State) (e : EngId) : Bool := (s.slot e).st == .service && (s.eng e).phase == .idle

/-- Engines of gallery `g` that hold a channel. -/
def busyCount (s : State) (g : Nat) : Nat := ((galEngs g).filter (fun e => (s.eng e).phase != .idle)).length

/-- The gallery is ON, takes work, and has a free engine. -/
def galFree (s : State) (g : Nat) : Bool :=
  galOpen s g && !domHeld s (7 + g) && (galEngs g).any (engFree s)

/-- The gallery a decision prefers: PACK or SPREAD, ties to the lowest number. -/
def galBefore (s : State) (a b : Nat) : Bool :=
  let x := busyCount s a
  let y := busyCount s b
  if x = y then decide (a < b) else if bit (s.app .dspCfg) 1 then decide (x < y) else decide (y < x)

/-- The engine that has been free longest, ties to the lowest slot. -/
def engBefore (s : State) (a b : EngId) : Bool :=
  let x := (s.eng a).freeAt.toNat
  let y := (s.eng b).freeAt.toNat
  if x = y then decide (a.slot.val < b.slot.val) else decide (x < y)

/-! ## Starting (R97, R102, R387) -/

/-- The start values of an engine for a work order that begins from its order bytes (Table 3-1). -/
def engAtStart (s : State) (ch : BitVec 12) (c : Chan) (b : List Byte) (bank : Bool) (x : Engine) : Engine :=
  let psr := packW [(9, b2n (bit c.trap 1)), (8, b2n (bit c.trap 0))]
  let g := (upTo 4).foldl (fun t i => Tbl.put 0 t (i + 1) (BitVec.ofNat 64 (leAt b (16 + 8 * i) 8))) []
  { x.freed x.freeAt with
    phase := .starting, ch := ch, bank := bank, pc := BitVec.ofNat 32 (entProg b + 8), psr := psr,
    g := Tbl.put 0 g 31 (BitVec.ofNat 64 c.stkHi), late := c.runLate, replayed := heldReplayed c, ckAt := s.now,
    freeAt := x.freeAt }

/-- The engine with the carried state of the checkpoint area (R97, R117). -/
def engAtResume (s : State) (ch : BitVec 12) (c : Chan) (bank : Bool) (x : Engine) : Engine :=
  { x.freed x.freeAt with
    phase := .starting, ch := ch, bank := bank, pc := c.ck.pc, psr := c.ck.psr,
    g := Tbl.put 0 c.ck.g 31 (BitVec.ofNat 64 c.stkHi), s := c.ck.s, late := c.ck.late, replayed := heldReplayed c,
    ckSeq := c.ck.seq, issued := c.ck.bytes.toNat, acked := c.ck.bytes.toNat, committed := true, ckAt := s.now,
    freeAt := x.freeAt }

/-- The awaited event is consumed with the dispatch that resumes the channel (R206). -/
def takeWaited (ch : BitVec 12) (s : State) : State :=
  let c := s.chan ch
  if c.inOrder && c.wait == .event && c.sched.act == 5 then
    (let t := match subOf s ch c.sched.ec.toNat with | some j => consume j s | none => s
     t.modChan ch (fun d => { d with sched := { d.sched with ended := true } }))
  else s

/-- The channel takes engine `e` (R387): a new entry leaves the entry cache and its gate event is consumed. -/
def takeEngine (ch : BitVec 12) (e : EngId) (s : State) : State :=
  let c := s.chan ch
  let bank := (s.gal e.g.toNat).act
  let c1 := { c with eng := some e, wait := .none, st := if c.st = ChState.draining then ChState.draining else ChState.running, readyAt := none,
                     wakeAsked := false, replay := false }
  let s1 :=
    if c.inOrder then
      (let b := (c.order.map CEntry.bytes).getD []
       let t := takeWaited ch s
       let c2 := { c1 with sched := (t.chan ch).sched }
       (t.setChan ch c2).modEng e (fun x => if c.fresh then engAtStart t ch c2 b bank x else engAtResume t ch c2 bank x))
    else match headEntry c with
      | some en =>
        let t := match gateOf s ch with | some j => consume j s | none => s
        let c2 := { c1 with wrStart := c.wrStart + 1, cache := c.cache.filter (fun x => x.idx != en.idx), order := some en,
                            inOrder := true, fresh := true, replays := 0, ports := [], recAes := false, needAes := false, hdrOk := false }
        (t.setChan ch c2).modEng e (engAtStart t ch c2 en.bytes bank)
      | none => s
  let s2 := s1.modDsp ch (fun d => { d with lastG := e.g })
  if c.inOrder && !c.replay then s2 else traceWord (if c.inOrder then 4 else 1) ch e c.sec s2

/-! ## The checks of R102, and the load of R215 -/

/-- The status that the first failing check of the header gives, in the order of R102. -/
def headerFails (s : State) (b : Bank) (h : List Byte) : Option Byte :=
  let hi : Word := BitVec.ofNat 32 (leAt h 4 4)
  let handler := leAt h 0 4
  if fld hi 24 8 ≠ 1 ∨ fld hi 14 5 ≠ 2 ∨ fld hi 6 8 ≠ 0 then some 0x11
  else if handler ≠ 0 ∧ (handler % 8 ≠ 0 ∨ handler < 0x40 ∨ s.psSize ≤ handler) then some 0x11
  else if !imgRuns b (BitVec.ofNat 5 (fld hi 19 5)) (BitVec.ofNat 6 (fld hi 0 6)) then some 0x12
  else none

/-- A start that fails ends the work order with no instruction executed. -/
def startFails (e : EngId) (status : Byte) (s : State) : State := endOrder e status (s.eng e).acked s

/-- The first instruction may execute; a RUN_AT or WAIT that was late under TRAP raises LATE before it, at each start from the
same checkpoint (R119, R126, R176). -/
def beginRun (e : EngId) (s : State) : State :=
  let ch := (s.eng e).ch
  let t := s.modEng e (fun x => { x with phase := .run, reads := [] })
  match (s.chan ch).lateTrap with
  | some info => excAt e 0x20 info 0 none t
  | none => t

/-- A binding as its record entry and descriptor give it (Table 5-6, R215, R216). -/
def bindOf (r d : List Byte) : Bind :=
  { bound := true, desc := BitVec.ofNat 24 (leAt r 0 4 / 256), bytes := d, ks := BitVec.ofNat 10 (leAt r 4 2),
    run := BitVec.ofNat 64 (leAt r 8 8), recheck := true }

/-- Load bindings `k` and above from the record bytes. -/
def loadBinds (e : EngId) (rec : List Byte) : Nat → Nat → State → Got
  | 0, _, s => .ok [] s
  | n + 1, k, s =>
    let r := slice rec (16 * k) 16
    if byteAt r 0 % 2 = 0 then loadBinds e rec n (k + 1) s
    else (psRead e 2 (leAt r 0 4 / 256 * 32) 32 s).bind fun d t => loadBinds e rec n (k + 1) (t.modEng e (fun x => x.setBnd k (bindOf r d)))

/-- The engine reads what it needs before the first instruction: the header, or the transform record; a read that failed ends the
start (R102, R215). A debug halt holds it too (R497). -/
def startStep (e : EngId) (s : State) : State :=
  let x := s.eng e
  let ch := x.ch
  let c := s.chan ch
  if x.phase ≠ .starting ∨ x.paused ∨ engHeld s e ∨ (dbgHeld x ∧ !x.dbgStep) then s
  else if (failedRead x).isSome then startFails e (busStatus (((failedRead x).bind EngRead.err).getD 1)) s
  else if c.fresh then
    (if c.hdrOk then beginRun e s
    else
      let a := entProg ((c.order.map CEntry.bytes).getD [])
      if a % 8 ≠ 0 ∨ a < 0x40 ∨ s.psSize < a + 16 then startFails e 0x11 s
      else (psRead e 1 a 8 s).run fun h t =>
          match headerFails t (heldBank t e) h with
          | some st => startFails e st t
          | none =>
            beginRun e (t.modChan ch (fun d =>
              { d with handler := BitVec.ofNat 32 (leAt h 0 4), minor := BitVec.ofNat 5 (leAt h 4 4 / 2 ^ 19),
                       feat := BitVec.ofNat 6 (leAt h 4 4), hdrOk := true })))
  else if !bit (s.app .xrecBase) 0 then beginRun e s
  else (psRead e 2 (fld (s.app .xrecBase) 18 14 * 2 ^ 18 + 64 * ch.toNat) 64 s).run fun r t =>
    (loadBinds e r 4 0 t).run fun _ u => beginRun e u

/-! ## The decision (R385 to R388) -/

/-- A wake asked for on the channel's behalf is under way. -/
def wakePending (s : State) (c : Chan) (l : List Nat) : Bool :=
  c.wakeAsked && l.any (fun g => (s.dom (7 + g)).waking || (s.dom (7 + g)).abort)

/-- A wing's decision (R385). -/
def decide_ (wing : Nat) (s : State) : State :=
  let rs := readyChans s
  let s1 := foldS rs (fun ch t => t.modDsp ch (dspFlags s ch)) s
  let here (ch : BitVec 12) : List Nat := (eligibleSet s ch).1.filter (fun g => g / 8 == wing)
  match bestOf (chanBefore s) (rs.filter (fun ch => !recsPending (s.chan ch) && !(here ch).isEmpty)) with
  | none => s1
  | some ch =>
    match bestOf (galBefore s) ((here ch).filter (galFree s)) with
    | some g =>
      (match bestOf (engBefore s) ((galEngs g).filter (engFree s)) with
       | some e => startStep e (takeEngine ch e s1)
       | none => s1)
    | none =>
      let l := (eligibleSet s ch).1
      if l.any (galFree s) || wakePending s (s.chan ch) l then s1
      else match l.find? (fun g => !galOpen s g) with
        | some g => beginWake (7 + g) 8 ch.toNat (s1.modChan ch (fun c => { c with wakeAsked := true }))
        | none => s1

/-- One dispatch decision of a wing (R385): engines of the wing that still read their header or record go on first; none
while CORE does not run or `dbg_halt` is high (R497, R631). -/
def execDispatchDecision (wing : BitVec 2) (s : State) : Host.Outcome State Fault Refusal :=
  act s (
    let s1 := foldS (wingEngs wing.toNat) startStep s
    if coreUp s1 && !s1.boot.dbgHalt then decide_ wing.toNat s1 else s1)

end Sys2Proof.Machine
end

