-- ==== Sys2Proof/Machine/Crypto.lean ====
section
/-! DEFINITION. Crypto: the functions of the transform units (R250 to R253, R269, R270) and of image verification
(R523): AES-256, XTS, the CRCs, the Internet checksum, SHA-384 and ECDSA P-384, as their standards define them. -/

namespace Sys2Proof.Machine

/-! ## AES-256 (FIPS 197) -/

/-- The S-box. -/
def aesSbox : List Nat :=
  [0x63, 0x7C, 0x77, 0x7B, 0xF2, 0x6B, 0x6F, 0xC5, 0x30, 0x01, 0x67, 0x2B, 0xFE, 0xD7, 0xAB, 0x76] ++
  [0xCA, 0x82, 0xC9, 0x7D, 0xFA, 0x59, 0x47, 0xF0, 0xAD, 0xD4, 0xA2, 0xAF, 0x9C, 0xA4, 0x72, 0xC0] ++
  [0xB7, 0xFD, 0x93, 0x26, 0x36, 0x3F, 0xF7, 0xCC, 0x34, 0xA5, 0xE5, 0xF1, 0x71, 0xD8, 0x31, 0x15] ++
  [0x04, 0xC7, 0x23, 0xC3, 0x18, 0x96, 0x05, 0x9A, 0x07, 0x12, 0x80, 0xE2, 0xEB, 0x27, 0xB2, 0x75] ++
  [0x09, 0x83, 0x2C, 0x1A, 0x1B, 0x6E, 0x5A, 0xA0, 0x52, 0x3B, 0xD6, 0xB3, 0x29, 0xE3, 0x2F, 0x84] ++
  [0x53, 0xD1, 0x00, 0xED, 0x20, 0xFC, 0xB1, 0x5B, 0x6A, 0xCB, 0xBE, 0x39, 0x4A, 0x4C, 0x58, 0xCF] ++
  [0xD0, 0xEF, 0xAA, 0xFB, 0x43, 0x4D, 0x33, 0x85, 0x45, 0xF9, 0x02, 0x7F, 0x50, 0x3C, 0x9F, 0xA8] ++
  [0x51, 0xA3, 0x40, 0x8F, 0x92, 0x9D, 0x38, 0xF5, 0xBC, 0xB6, 0xDA, 0x21, 0x10, 0xFF, 0xF3, 0xD2] ++
  [0xCD, 0x0C, 0x13, 0xEC, 0x5F, 0x97, 0x44, 0x17, 0xC4, 0xA7, 0x7E, 0x3D, 0x64, 0x5D, 0x19, 0x73] ++
  [0x60, 0x81, 0x4F, 0xDC, 0x22, 0x2A, 0x90, 0x88, 0x46, 0xEE, 0xB8, 0x14, 0xDE, 0x5E, 0x0B, 0xDB] ++
  [0xE0, 0x32, 0x3A, 0x0A, 0x49, 0x06, 0x24, 0x5C, 0xC2, 0xD3, 0xAC, 0x62, 0x91, 0x95, 0xE4, 0x79] ++
  [0xE7, 0xC8, 0x37, 0x6D, 0x8D, 0xD5, 0x4E, 0xA9, 0x6C, 0x56, 0xF4, 0xEA, 0x65, 0x7A, 0xAE, 0x08] ++
  [0xBA, 0x78, 0x25, 0x2E, 0x1C, 0xA6, 0xB4, 0xC6, 0xE8, 0xDD, 0x74, 0x1F, 0x4B, 0xBD, 0x8B, 0x8A] ++
  [0x70, 0x3E, 0xB5, 0x66, 0x48, 0x03, 0xF6, 0x0E, 0x61, 0x35, 0x57, 0xB9, 0x86, 0xC1, 0x1D, 0x9E] ++
  [0xE1, 0xF8, 0x98, 0x11, 0x69, 0xD9, 0x8E, 0x94, 0x9B, 0x1E, 0x87, 0xE9, 0xCE, 0x55, 0x28, 0xDF] ++
  [0x8C, 0xA1, 0x89, 0x0D, 0xBF, 0xE6, 0x42, 0x68, 0x41, 0x99, 0x2D, 0x0F, 0xB0, 0x54, 0xBB, 0x16]

def subByte (b : Byte) : Byte := BitVec.ofNat 8 (aesSbox.getD b.toNat 0)
def invSubByte (b : Byte) : Byte := BitVec.ofNat 8 (((upTo 256).find? (fun i => aesSbox.getD i 0 == b.toNat)).getD 0)

/-- Multiplication by x in GF(2^8). -/
def xtime (b : Byte) : Byte := (b <<< 1) ^^^ (if b.msb then 0x1B else 0)

/-- Multiplication by a constant in GF(2^8). -/
def gmul (a : Byte) (k : Nat) : Byte :=
  let a2 := xtime a
  let a4 := xtime a2
  let a8 := xtime a4
  (if k % 2 = 1 then a else 0) ^^^ (if k / 2 % 2 = 1 then a2 else 0) ^^^ (if k / 4 % 2 = 1 then a4 else 0) ^^^
    (if k / 8 % 2 = 1 then a8 else 0)

/-- Bytes of two lists, exclusive-or. -/
def xorBytes (a b : List Byte) : List Byte := List.zipWith (fun x y => x ^^^ y) a b

/-- The next word of the key schedule: `l` holds the words so far. -/
def aesNextWord (l : List (List Byte)) : List Byte :=
  let i := l.length
  let t := l.getD (i - 1) []
  let t1 :=
    if i % 8 = 0 then
      xorBytes ((t.drop 1 ++ t.take 1).map subByte) [BitVec.ofNat 8 (2 ^ (i / 8 - 1)), 0, 0, 0]
    else if i % 8 = 4 then t.map subByte else t
  xorBytes (l.getD (i - 8) []) t1

/-- The key schedule, `n` words beyond the key. -/
def aesExpand : Nat → List (List Byte) → List (List Byte)
  | 0, l => l
  | n + 1, l => aesExpand n (l ++ [aesNextWord l])

/-- The 15 round keys of a 32-byte key. -/
def aesKeys (key : List Byte) : List (List Byte) :=
  let ws := aesExpand 52 ((upTo 8).map (fun i => slice key (4 * i) 4))
  (upTo 15).map (fun r => (ws.drop (4 * r)).take 4 |>.flatten)

def shiftRows (b : List Byte) : List Byte := (upTo 16).map (fun i => b.getD (i % 4 + 4 * ((i / 4 + i % 4) % 4)) 0)
def invShiftRows (b : List Byte) : List Byte := (upTo 16).map (fun i => b.getD (i % 4 + 4 * ((i / 4 + 4 - i % 4) % 4)) 0)

/-- A column transform with the given circulant row. -/
def mixWith (m : List Nat) (b : List Byte) : List Byte :=
  (upTo 16).map (fun i => (upTo 4).foldl (fun a j => a ^^^ gmul (b.getD (i / 4 * 4 + j) 0) (m.getD ((j + 4 - i % 4) % 4) 0)) 0)

def mixCols (b : List Byte) : List Byte := mixWith [2, 3, 1, 1] b
def invMixCols (b : List Byte) : List Byte := mixWith [14, 11, 13, 9] b

/-- AES-256 encryption of a 16-byte block. -/
def aesEnc (key blk : List Byte) : List Byte :=
  let ks := aesKeys key
  let b0 := xorBytes blk (ks.getD 0 [])
  let b := (upTo 13).foldl (fun b r => xorBytes (mixCols (shiftRows (b.map subByte))) (ks.getD (r + 1) [])) b0
  xorBytes (shiftRows (b.map subByte)) (ks.getD 14 [])

/-- AES-256 decryption of a 16-byte block. -/
def aesDec (key blk : List Byte) : List Byte :=
  let ks := aesKeys key
  let b0 := xorBytes blk (ks.getD 14 [])
  let b := (upTo 13).foldl (fun b r => invMixCols (xorBytes ((invShiftRows b).map invSubByte) (ks.getD (13 - r) []))) b0
  xorBytes ((invShiftRows b).map invSubByte) (ks.getD 0 [])

/-- Multiplication of a tweak by alpha^j (IEEE 1619). -/
def xtsAlpha : Nat → Nat → Nat
  | 0, t => t
  | j + 1, t => let u := xtsAlpha j t * 2; if 2 ^ 128 ≤ u then (u - 2 ^ 128) ^^^ 0x87 else u

/-- Block `j` of data unit `dun` under XTS-AES-256 (R250). -/
def xtsBlock (key : List Byte) (dun j : Nat) (dec : Bool) (blk : List Byte) : List Byte :=
  let t := toLe 16 (xtsAlpha j (ofLe (aesEnc (slice key 32 32) (toLe 16 dun))))
  let k := slice key 0 32
  xorBytes ((if dec then aesDec else aesEnc) k (xorBytes blk t)) t

/-- Byte `off` of a CTR keystream: the low 64 bits of the counter block, big-endian, grow by off div 16 (R251). -/
def ctrByte (key cb : List Byte) (off : Nat) : Byte :=
  let lo := ofBe (slice cb 8 8)
  (aesEnc (slice key 0 32) (slice cb 0 8 ++ toBe 8 ((lo + off / 16) % 2 ^ 64))).getD (off % 16) 0

/-! ## CRC and checksum (R269, R270) -/

/-- A reflected CRC step. -/
def crcRefl (poly : Nat) (c : Nat) (b : Byte) : Nat :=
  (upTo 8).foldl (fun c _ => if c % 2 = 1 then c / 2 ^^^ poly else c / 2) (c ^^^ b.toNat)

/-- A CRC step, most significant bit first. -/
def crcFwd (poly : Nat) (c : Nat) (b : Byte) : Nat :=
  (upTo 8).foldl (fun c _ => if c / 2 ^ 31 % 2 = 1 then (c * 2 % 2 ^ 32) ^^^ poly else c * 2 % 2 ^ 32) (c ^^^ (b.toNat * 2 ^ 24))

/-- One byte into the Internet checksum: [15:0] the folded sum, [16] ODD (R270). -/
def inetStep (run : Nat) (b : Byte) : Nat :=
  let odd := run / 65536 % 2
  let v := run % 65536 + (if odd = 1 then b.toNat else b.toNat * 256)
  (v % 65536 + v / 65536) + (1 - odd) * 65536

/-- One byte into the running state of a CRC or checksum mode (Tables 6-3 and 6-10). -/
def foldByte (mode run : Nat) (b : Byte) : Nat :=
  if mode = 0x08 then crcRefl 0xEDB88320 run b
  else if mode = 0x09 then crcRefl 0x82F63B78 run b
  else if mode = 0x0A then crcFwd 0x04C11DB7 run b
  else inetStep run b

/-! ## SHA-384 (FIPS 180-4) -/

/-- The round constants. -/
def shaK : List Nat :=
  [0x428A2F98D728AE22, 0x7137449123EF65CD, 0xB5C0FBCFEC4D3B2F, 0xE9B5DBA58189DBBC] ++
  [0x3956C25BF348B538, 0x59F111F1B605D019, 0x923F82A4AF194F9B, 0xAB1C5ED5DA6D8118] ++
  [0xD807AA98A3030242, 0x12835B0145706FBE, 0x243185BE4EE4B28C, 0x550C7DC3D5FFB4E2] ++
  [0x72BE5D74F27B896F, 0x80DEB1FE3B1696B1, 0x9BDC06A725C71235, 0xC19BF174CF692694] ++
  [0xE49B69C19EF14AD2, 0xEFBE4786384F25E3, 0x0FC19DC68B8CD5B5, 0x240CA1CC77AC9C65] ++
  [0x2DE92C6F592B0275, 0x4A7484AA6EA6E483, 0x5CB0A9DCBD41FBD4, 0x76F988DA831153B5] ++
  [0x983E5152EE66DFAB, 0xA831C66D2DB43210, 0xB00327C898FB213F, 0xBF597FC7BEEF0EE4] ++
  [0xC6E00BF33DA88FC2, 0xD5A79147930AA725, 0x06CA6351E003826F, 0x142929670A0E6E70] ++
  [0x27B70A8546D22FFC, 0x2E1B21385C26C926, 0x4D2C6DFC5AC42AED, 0x53380D139D95B3DF] ++
  [0x650A73548BAF63DE, 0x766A0ABB3C77B2A8, 0x81C2C92E47EDAEE6, 0x92722C851482353B] ++
  [0xA2BFE8A14CF10364, 0xA81A664BBC423001, 0xC24B8B70D0F89791, 0xC76C51A30654BE30] ++
  [0xD192E819D6EF5218, 0xD69906245565A910, 0xF40E35855771202A, 0x106AA07032BBD1B8] ++
  [0x19A4C116B8D2D0C8, 0x1E376C085141AB53, 0x2748774CDF8EEB99, 0x34B0BCB5E19B48A8] ++
  [0x391C0CB3C5C95A63, 0x4ED8AA4AE3418ACB, 0x5B9CCA4F7763E373, 0x682E6FF3D6B2B8A3] ++
  [0x748F82EE5DEFB2FC, 0x78A5636F43172F60, 0x84C87814A1F0AB72, 0x8CC702081A6439EC] ++
  [0x90BEFFFA23631E28, 0xA4506CEBDE82BDE9, 0xBEF9A3F7B2C67915, 0xC67178F2E372532B] ++
  [0xCA273ECEEA26619C, 0xD186B8C721C0C207, 0xEADA7DD6CDE0EB1E, 0xF57D4F7FEE6ED178] ++
  [0x06F067AA72176FBA, 0x0A637DC5A2C898A6, 0x113F9804BEF90DAE, 0x1B710B35131C471B] ++
  [0x28DB77F523047D84, 0x32CAAB7B40C72493, 0x3C9EBE0A15C9BEBC, 0x431D67C49C100D4C] ++
  [0x4CC5D4BECB3E42B6, 0x597F299CFC657E2A, 0x5FCB6FAB3AD6FAEC, 0x6C44198C4A475817]

/-- The initial hash value. -/
def shaH : List Nat :=
  [0xCBBB9D5DC1059ED8, 0x629A292A367CD507, 0x9159015A3070DD17, 0x152FECD8F70E5939] ++
  [0x67332667FFC00B31, 0x8EB44A8768581511, 0xDB0C2E0D64F98FA7, 0x47B5481DBEFA4FA4]

/-- Rotation of a 64-bit number to the right. -/
def ror64 (n v : Nat) : Nat := (v / 2 ^ n + v * 2 ^ (64 - n)) % 2 ^ 64

/-- The message schedule: `n` further words. -/
def shaSched : Nat → List Nat → List Nat
  | 0, w => w
  | n + 1, w =>
    let i := w.length
    let a := w.getD (i - 15) 0
    let b := w.getD (i - 2) 0
    let s0 := ror64 1 a ^^^ ror64 8 a ^^^ (a / 2 ^ 7)
    let s1 := ror64 19 b ^^^ ror64 61 b ^^^ (b / 2 ^ 6)
    shaSched n (w ++ [(w.getD (i - 16) 0 + s0 + w.getD (i - 7) 0 + s1) % 2 ^ 64])

/-- One round on the eight working words, with K + W. -/
def shaRound (v : List Nat) (kw : Nat) : List Nat :=
  match v with
  | [a, b, c, d, e, f, g, h] =>
    let s1 := ror64 14 e ^^^ ror64 18 e ^^^ ror64 41 e
    let ch := (e &&& f) ^^^ ((2 ^ 64 - 1 - e) &&& g)
    let t1 := h + s1 + ch + kw
    let s0 := ror64 28 a ^^^ ror64 34 a ^^^ ror64 39 a
    let mj := (a &&& b) ^^^ (a &&& c) ^^^ (b &&& c)
    [(t1 + s0 + mj) % 2 ^ 64, a, b, c, (d + t1) % 2 ^ 64, e, f, g]
  | l => l

/-- One 128-byte block into the hash value. -/
def shaBlock (h : List Nat) (blk : List Byte) : List Nat :=
  let w := shaSched 64 ((upTo 16).map (fun i => ofBe (slice blk (8 * i) 8)))
  List.zipWith (fun a b => (a + b) % 2 ^ 64) h ((List.zipWith (fun k v => k + v) shaK w).foldl shaRound h)

/-- SHA-384 of a byte string: its 48 bytes. -/
def sha384 (m : List Byte) : List Byte :=
  let pad := (239 - m.length % 128) % 128
  let p := m ++ [0x80] ++ List.replicate pad 0 ++ toBe 16 (8 * m.length)
  ((upTo (p.length / 128)).foldl (fun h i => shaBlock h (slice p (128 * i) 128)) shaH).take 6 |>.flatMap (toBe 8)

/-! ## ECDSA on P-384 (FIPS 186-4) -/

def ecP : Nat := 2 ^ 384 - 2 ^ 128 - 2 ^ 96 + 2 ^ 32 - 1
def ecN : Nat := 0xffffffffffffffffffffffffffffffffffffffffffffffffc7634d81f4372ddf581a0db248b0a77aecec196accc52973
def ecB : Nat := 0xb3312fa7e23ee7e4988e056be3f82d19181d9c6efe8141120314088f5013875ac656398d8a2ed19d2a85c8edd3ec2aef
def ecGx : Nat := 0xaa87ca22be8b05378eb1c71ef320ad746e1d3b628ba79b9859f741e082542a385502f25dbf55296c3a545e3872760ab7
def ecGy : Nat := 0x3617de4a96262c6f5d9e98bf9292dc29f8f41dbd289a147ce9da3113b5f0b8c00a60b1ce1d7e819d7a431d7c90ea0e5f

/-- Power modulo `m`, over the lowest `n` bits of the exponent. -/
def powMod (m : Nat) : Nat → Nat → Nat → Nat
  | 0, _, _ => 1 % m
  | n + 1, b, e =>
    let r := powMod m n (b * b % m) (e / 2)
    if e % 2 = 1 then r * b % m else r

/-- Inverse modulo a 384-bit prime. -/
def invMod (m a : Nat) : Nat := powMod m 384 (a % m) (m - 2)

/-- The sum of two points in affine form; none is the point at infinity. -/
def ecAdd : Option (Nat × Nat) → Option (Nat × Nat) → Option (Nat × Nat)
  | none, q => q
  | p, none => p
  | some (x1, y1), some (x2, y2) =>
    if x1 = x2 ∧ (y1 + y2) % ecP = 0 then none
    else
      let l := if x1 = x2 then (3 * x1 * x1 + (ecP - 3)) * invMod ecP (2 * y1) % ecP
               else (y2 + (ecP - y1)) * invMod ecP (x2 + (ecP - x1)) % ecP
      let x := (l * l + (ecP - x1) + (ecP - x2)) % ecP
      some (x, (l * (x1 + (ecP - x)) + (ecP - y1)) % ecP)

/-- A multiple of a point, over the lowest `n` bits of the factor. -/
def ecMul : Nat → Nat → Option (Nat × Nat) → Option (Nat × Nat)
  | 0, _, _ => none
  | n + 1, k, p =>
    let r := ecMul n (k / 2) (ecAdd p p)
    if k % 2 = 1 then ecAdd p r else r

/-- A point of the curve with coordinates below the prime. -/
def ecOnCurve (x y : Nat) : Bool :=
  decide (x < ecP) && decide (y < ecP) && decide (y * y % ecP = (x * x * x + (ecP - 3) * x + ecB) % ecP)

/-- ECDSA verification of a digest. -/
def ecdsaOk (x y : Nat) (digest : List Byte) (r s : Nat) : Bool :=
  if !ecOnCurve x y || decide (r = 0 ∨ s = 0 ∨ ecN ≤ r ∨ ecN ≤ s) then false
  else
    let w := invMod ecN s
    match ecAdd (ecMul 384 (ofBe digest * w % ecN) (some (ecGx, ecGy))) (ecMul 384 (r * w % ecN) (some (x, y))) with
    | none => false
    | some (px, _) => px % ecN == r

end Sys2Proof.Machine
end

