-- ==== Sys2Proof/Machine/LinkOps.lean ====
section
/-! DEFINITION. LinkOps: what an engine does with a Stream Link (R151, R357 to R372, R375): deliver, transmit, command. -/

namespace Sys2Proof.Machine

/-! ## Received data -/

/-- Words a sector holds in the receive buffer. -/
def secHeld (k : Sector) : Nat := k.bytes.length / 8 + b2n k.tagged

/-- RX_LEVEL.HELD: RCV − REL in words (R363). -/
def Link.held (x : Link) : Nat := (x.rx.map secHeld).sum - wordsTo x.rel x.basePos x.rx

/-- RX_LEVEL.UNCONS: RCV − CONS in words. -/
def Link.uncons (x : Link) : Nat := (x.rx.map secHeld).sum - wordsTo x.cons x.basePos x.rx

/-- What a source burst meets: all its bytes, a bad sector, or the end of what has been received. -/
inductive RxEnd where
  | whole
  | bad (lba : BitVec 48)
  | short (lba : Option (BitVec 48))
  deriving DecidableEq, Repr

/-- `n` bytes from position `pos` of sectors that begin at `base` (R359, R360). -/
def rxBytes (pos n : Nat) : Nat → List Sector → List Byte × RxEnd
  | _, [] => ([], if n = 0 then .whole else .short none)
  | base, k :: r =>
    if n = 0 then ([], .whole)
    else if base + secSpan k ≤ pos ∧ !(k.isOpen && !k.bad) then rxBytes pos n (base + secSpan k) r
    else
      let o := pos - base
      let b := (k.bytes.drop o).take n
      if b.length = n then (b, .whole)
      else if k.bad then (b, .bad k.lba)
      else if k.isOpen then (b, .short (some k.lba))
      else
        let (b2, e) := rxBytes (pos + b.length) (n - b.length) (base + secSpan k) r
        (b ++ b2, e)

/-- The owner consumes `n` bytes. -/
def rxConsume (l n : Nat) (s : State) : State :=
  s.modLink (BitVec.ofNat 5 l) (fun x =>
    let y := { x with cons := x.cons + n }
    { y with rdy := rdyNow s l y })

/-! ## Transmission -/

/-- The die's limits leave room for `words` and `msgs` more (R355). -/
def Link.canSend (x : Link) (words msgs : Nat) : Bool :=
  let d := (x.dataLim - x.sentWords).toNat
  let m := (x.msgLim - x.sentMsgs).toNat
  x.st == .active && decide (words ≤ d) && decide (msgs ≤ m)

/-- Append a transaction frame: sequenced and kept until acknowledged (R351, R353). -/
def Link.frame (now : DWord) (x : Link) (ty : Byte) (tinfo : Word) (p : List Byte) : Link :=
  { x with nextSeq := x.nextSeq + 1, ackAdvAt := if x.replayBuf.isEmpty then now else x.ackAdvAt,
           replayBuf := x.replayBuf ++ [{ ty := ty, seq := x.nextSeq, tinfo := tinfo, payload := p, tries := 0 }],
           ackDue := false }

/-- Split bytes into frames of at most `m` words (R362); `n` bounds the number of frames. -/
def txFrames (m : Nat) : Nat → List Byte → List (List Byte)
  | 0, _ => []
  | n + 1, b => if b.isEmpty then [] else b.take (8 * m) :: txFrames m n (b.drop (8 * m))

/-- Words of a frame's payload. -/
def wordsOf (b : List Byte) : Nat := (b.length + 7) / 8

/-- One STREAM_DATA frame toward the die: PAD unused bytes at its end (Table 9-5). -/
def Link.dataFrame (now : DWord) (x : Link) (b : List Byte) : Link :=
  let w := wordsOf b
  { Link.frame now x 0x01 (BitVec.ofNat 32 (8 * w - b.length)) (slice b 0 (8 * w)) with sentWords := x.sentWords + BitVec.ofNat 16 w }

/-- The bytes of an SL_TX burst that are not suppressed (R372). -/
def Link.txNew (x : Link) (b : List Byte) : List Byte := b.drop x.txSkip

/-- An SL_TX burst can be sent: credit for its words and places for its frames (R151, R353, R355). -/
def Link.txReady (x : Link) (n : Nat) : Bool :=
  let k := n - x.txSkip
  if k = 0 then x.st == .active
  else
    let fs := txFrames x.maxLen 64 (List.replicate k 0)
    x.canSend ((fs.map wordsOf).sum) 0 && decide (x.replayBuf.length + fs.length ≤ 64)

/-- Send an SL_TX burst: replayed bytes are discarded, new ones counted (R362, R372). -/
def Link.txSend (now : DWord) (x : Link) (b : List Byte) : Link :=
  let nw := x.txNew b
  let y := (txFrames x.maxLen 64 nw).foldl (Link.dataFrame now) x
  { y with txSkip := x.txSkip - b.length, txSince := x.txSince + nw.length }

/-- CRC-32C of a payload (Table 6-10). -/
def crc32c (b : List Byte) : Word := BitVec.ofNat 32 (b.foldl (foldByte 0x09) 0xFFFFFFFF ^^^ 0xFFFFFFFF)

/-- A command payload is a READ of at least one sector (R357). -/
def isRead (b : List Byte) : Bool := byteAt b 8 == 0 && decide (1 ≤ leAt b 6 2)

/-- What the link does with a command (R358, R370, R371). -/
inductive CmdFate where
  /-- A replayed command: not sent again. -/
  | suppress
  /-- The record holds 256 entries. -/
  | full
  | waits
  | send (ctag : BitVec 16)
  deriving DecidableEq, Repr

/-- One above the highest CTAG of the record, if that lies further from CTAG_CK than CTAG_NEXT (R370). -/
def Link.nextTag (x : Link) : BitVec 16 :=
  x.cmdRec.foldl (fun t r => if (t - x.ctagCk).toNat < (r.1 + 1 - x.ctagCk).toNat then r.1 + 1 else t) x.ctagNext

/-- The fate of a command payload. -/
def Link.cmdFate (x : Link) (b : List Byte) : CmdFate :=
  if (x.cmdRec[x.cmdPos]?.map Prod.snd) == some (crc32c b) then .suppress
  else if 256 ≤ x.cmdPos then .full
  else if !x.canSend 4 1 || decide (64 ≤ x.replayBuf.length) || (isRead b && decide (16 ≤ x.active.length)) then .waits
  else .send x.nextTag

/-- A command is suppressed: CTAG_NEXT follows the record (R370). -/
def Link.cmdSkip (x : Link) : Link :=
  { x with cmdPos := x.cmdPos + 1,
           ctagNext := match x.cmdRec[x.cmdPos + 1]? with
             | some r => r.1
             | none => ((x.cmdRec.getD x.cmdPos (0, 0)).1 + 1) }

/-- A command is sent with its tag (R357, R370): a READ becomes an active read. -/
def Link.cmdSend (now : DWord) (x : Link) (ctag : BitVec 16) (b : List Byte) (sect : Nat) : Link :=
  let y := Link.frame now x 0x02 (BitVec.ofNat 32 ctag.toNat) b
  { y with sentWords := x.sentWords + 4, sentMsgs := x.sentMsgs + 1, cmdRec := x.cmdRec.take x.cmdPos ++ [(ctag, crc32c b)],
           cmdPos := x.cmdPos + 1, ctagNext := ctag + 1,
           active := if isRead b then x.active ++ [{ ctag := ctag, lba := BitVec.ofNat 48 (leAt b 0 6), left := leAt b 6 2,
                                                     size := sect }]
                     else x.active }

/-- SECT_SZ in bytes (Table 9-11). -/
def sectSize (s : State) (l : Nat) : Nat := if bit (s.reg (.rxCfg l)) 0 then 4096 else 512

end Sys2Proof.Machine
end

