-- ==== Sys2Proof/Machine/Fabric.lean ====
section
/-! DEFINITION. Fabric: grant points, beats, responses and retries of transactions (R27, R37, R389 to R400, R429 to R431,
R436, R449 to R453). -/

namespace Sys2Proof.Machine

/-! ## Ports and the pool (R37, R431, R456) -/

/-- The gallery whose arbiter is the first that the transaction passes. -/
def Txn.galOf (t : Txn) : Option Nat :=
  match t.gal, t.purpose with
  | some e, _ => some e.g.toNat
  | none, .docent _ (some g) _ => some g.toNat
  | none, _ => none

/-- A burst of Docent that turns back behind the arbiter at which it waits (R585). -/
def Txn.turns (t : Txn) : Bool :=
  match t.purpose with
  | .docent _ _ l => l == t.stage
  | _ => false

/-- The transaction holds a pool entry: it has been granted at its first arbiter (R37, R672). -/
def Txn.pooled (t : Txn) : Bool :=
  match t.stage with
  | .atGal | .again => false
  | .atWing => t.galOf.isSome
  | .atPort => t.wing.isSome
  | .granted | .sent | .retry => true

/-- A pool entry is free. -/
def poolFree (s : State) : Bool := decide ((s.txns.filter Txn.pooled).length < 2048 * s.wings)

/-- Bytes that the outbound buffer of port `p` holds or has promised (R431): bursts that a wing arbiter has granted, and ring
bursts that the port's arbiter has granted, until they have left it. -/
def bufUsed (s : State) (p : Nat) : Nat :=
  ((s.txns.filter (fun t => t.port.toNat == p &&
    (t.stage == .granted || (t.stage == .atPort && t.wing.isSome) || (t.stage == .sent && decide (0 < t.beats))))).map Txn.n).sum

/-! ## Requesters (Table 10-2) -/

/-- A burst that waits at its gallery arbiter may not be issued yet: an earlier burst of its engine waits there, or R405 or
Table 12-4 puts the answer of an earlier one before it. -/
def queuedHeld (s : State) (t : Txn) : Bool :=
  match t.gal with
  | none => false
  | some e =>
    s.txns.any (fun x => Txn.ofEng e x && !x.discard && decide (x.id < t.id) &&
      (x.stage == .atGal || (t.op == 1 && x.op == 1 && x.port == t.port && overlaps x.addr x.n t.addr t.n) ||
        (t.order == 2 && x.port == t.port) || t.order == 3))

/-- A Stream Link takes the burst now: it is ACTIVE with credit and room, or has failed and gives an answer (R151, R375); received
bytes leave its buffer at any time. -/
def linkTakes (s : State) (t : Txn) : Bool :=
  let x := s.link (BitVec.ofNat 5 (t.port.toNat - 32))
  match t.purpose with
  | .data _ _ counted =>
    !(s.dom (portDom t.port.toNat)).hold && (x.st == .failed || if counted then x.txReady t.n else x.canSend 4 1 && decide (x.replayBuf.length < 64))
  | _ => true

/-- An earlier burst of its engine to the same port waits at the same arbiter (R405). -/
def overtakes (s : State) (t : Txn) : Bool :=
  match t.gal with
  | none => false
  | some e => s.txns.any (fun x => Txn.ofEng e x && !x.discard && decide (x.id < t.id) && x.port == t.port && x.stage == t.stage)

/-- The transaction can be granted at its arbiter now: a pool entry, its turn under the issue rules, room in the port's buffer, the
port below its limit and its domain open, the path not cordoned. What the fabric answers itself, or Docent turns back, needs nothing of
the port. -/
def grantable (s : State) (t : Txn) : Bool :=
  let p := t.port.toNat
  (t.pooled || poolFree s) &&
  match t.stage with
  | .atGal => !queuedHeld s t
  | .atWing =>
    t.forced.isSome || t.turns || !overtakes s t && decide (bufUsed s p + t.n ≤ 2 * burstMax p) &&
      !(t.gal.isSome && (match t.wing with | some w => wingOut s w.toNat | none => false))
  | .atPort =>
    t.forced.isSome || t.turns || !overtakes s t && belowLim s p && domOpen s (portDom p) && (decide (p < 32) || linkTakes s t) &&
      !(t.gal.isSome && (match t.wing with | some w => (s.arb (64 + p)).cordoned.contains w.toNat | none => false))
  | _ => false

/-- The first transaction that requester `r` can be granted at arbiter `a`. -/
def headOf (s : State) (a r : Nat) : Option Txn :=
  s.txns.find? (fun t => t.waitsAt == some (a, r) && grantable s t)

/-- The requesters that can be granted at arbiter `a`. -/
def requesting (s : State) (a : Nat) : List Nat := (upTo (arbReqs a)).filter (fun r => (headOf s a r).isSome)

/-- A wheel slot that names requester `r` falls to the next rule: the requester is cordoned (R397). -/
def reqCordoned (s : State) (a r : Nat) : Bool :=
  if a < 32 then
    galCordoned s a || (if h : r < 17 then (let st := (s.slot { g := BitVec.ofNat 5 a, slot := ⟨r, h⟩ }).st; st == .cordoned || st == .retired) else false)
  else if a < 64 then decide (r < 8) && (galCordoned s (8 * (a - 32) + r) || wingOut s (a - 32))
  else (s.arb a).cordoned.contains r

/-- The requester from which a transaction comes, numbered over the arbiters of one wing: an engine, Docent in a gallery, and the
wing's own entry fetches, fills and Docent (Table 10-2). -/
def Txn.origin (t : Txn) : Nat :=
  match t.gal, t.purpose with
  | some e, _ => e.g.toNat * 18 + e.slot.val
  | none, .docent _ (some g) _ => g.toNat * 18 + 17
  | none, .entry .. => 1000
  | none, .docent _ none _ => 1002
  | none, _ => 1001

/-- The requesters that wait with a transaction that `f` names; saturates. -/
def waiting (s : State) (f : Txn → Bool) : Nat := min 255 ((s.txns.filter f).map Txn.origin).eraseDups.length

/-- Population of requester `r` at arbiter `a` (R393): the requesters behind it with traffic for the port, Docent among them. -/
def population (s : State) (a r : Nat) : Nat :=
  if a < 32 then 1
  else if a < 64 then
    (if r < 8 then waiting s (fun t => (t.stage == .atGal || t.stage == .atWing) && t.galOf == some (8 * (a - 32) + r)) else 1)
  else if r < 4 then
    waiting s (fun t => t.port.toNat == a - 64 && t.wing == some (BitVec.ofNat 2 r) &&
      (t.stage == .atGal || t.stage == .atWing || t.stage == .atPort))
  else 1

/-! ## The choice (R391, R392) -/

/-- ARB_PRIO of requester `r`. -/
def arbPrioOf (s : State) (a r : Nat) : Nat := fld (s.reg (.arbPrio a (r / 8))) (4 * (r % 8)) 4

/-- The requester with the highest value; ties to the lowest index. -/
def argMax (f : Nat → Int) : List Nat → Option Nat
  | [] => none
  | r :: l => match argMax f l with
    | some q => if f r < f q then some q else some r
    | none => some r

/-- The credit of requester `r` stands: it has not stopped requesting. A requester whose last waiting burst was granted goes on
requesting where its next one came in the same tick (R392). -/
def creditStands (s : State) (a r : Nat) : Bool :=
  match Tbl.get none (s.arb a).leftAt r with
  | none => waitsHere s a r
  | some t => if waitsHere s a r then s.txns.any (fun x => x.waitsAt == some (a, r) && x.since == t) else t == s.now

/-- The grant of a grant point: the requester, whether it is a forced win, and the credits after it. -/
def chooseGrant (s : State) (a : Nat) (rs : List Nat) : Option (Nat × Bool × Tbl Int) :=
  let x := s.arb a
  let lim := fld (s.app (.arbCfg a)) 24 8
  let wait (r : Nat) : Nat := Tbl.get 0 x.waits r
  let cr := x.credits.filter (fun p => creditStands s a p.1)
  match argMax (fun r => (wait r : Int)) (rs.filter (fun r => decide (lim ≤ wait r))) with
  | some r => some (r, true, cr)
  | none =>
    let code := fld (s.app (.arbWheel a (x.ptr.toNat / 4))) (8 * (x.ptr.toNat % 4)) 8
    if 128 ≤ code ∧ rs.contains (code % 32) ∧ !reqCordoned s a (code % 32) then some (code % 32, false, cr)
    else
      let top := (rs.map (arbPrioOf s a)).foldl max 0
      let tied := rs.filter (fun r => arbPrioOf s a r == top)
      let cr1 := tied.foldl (fun t r => Tbl.put 0 t r (Tbl.get 0 t r + (population s a r : Int))) cr
      let sum := (tied.map (population s a)).sum
      match argMax (fun r => Tbl.get 0 cr1 r) tied with
      | some r => some (r, false, Tbl.put 0 cr1 r (Tbl.get 0 cr1 r - (sum : Int)))
      | none => none

/-- A forced win is reported (R395): STARVE, STARVE_LOG, producer 234. -/
def starved (a r : Nat) (s : State) : State :=
  let lvl := if a < 32 then 0 else if a < 64 then 1 else 2
  let inst := if a < 32 then a else if a < 64 then a - 32 else a - 64
  let m := s.mst
  let m1 := { m with starveV := true, starveOvf := m.starveOvf || m.starveV, starveLevel := BitVec.ofNat 2 lvl,
                     starveInst := BitVec.ofNat 6 inst, starveReq := BitVec.ofNat 5 r, starveCnt := satAdd m.starveCnt 1 }
  let s1 := { s with mst := m1 }
  emitT [234] (tmAdd 36 1 (s1.modArb a (fun x => { x with starve := true, lastForced := BitVec.ofNat 5 r })))

/-- The stage that follows a grant. -/
def TStage.next : TStage → TStage
  | .atGal => .atWing
  | .atWing => .atPort
  | .atPort => .granted
  | g => g

/-- The arbiter's counters after a grant point (R391, R395); `held` is the burst that holds the grant. -/
def arbAfter (rs : List Nat) (r : Nat) (held : Option Nat) (cr : Tbl Int) (x : Arb) : Arb :=
  let w := rs.foldl (fun l q => Tbl.put 0 l q (if q = r then 0 else Tbl.get 0 l q + 1)) x.waits
  let top := (rs.map (fun q => Tbl.get 0 w q)).foldl max x.waitMax.toNat
  { x with ptr := x.ptr + 1, waits := w, credits := cr, waitMax := BitVec.ofNat 8 (min 255 top), grant := held.map (fun t => (t, r)),
           wdog := 0, docGap := BitVec.ofNat 8 (x.docGap.toNat - 1) }

/-- Who has stopped requesting at arbiter `a` after its grant to `r` (R392). -/
def arbLeft (r : Nat) (a : Nat) (s : State) : State :=
  s.modArb a (fun x => { x with leftAt := (upTo (arbReqs a)).foldl (fun l q =>
    if waitsHere s a q then Tbl.put none l q none else if q = r then Tbl.put none l q (some s.now) else l) x.leftAt })

/-- A data write of an engine is answered (R113, R154, R403, R418). -/
def dataDone (e : EngId) (x : Txn) (counted : Bool) (code : BitVec 3) (s : State) : State :=
  let y := s.eng e
  let killed := y.phase == .stopping 0x32
  let s1 :=
    if x.discard then s
    else if code = 0 then (if counted && !killed && !x.torn then s.modEng e (fun z => { z with acked := z.acked + x.n }) else s)
    else s.modEng e (fun z => { z with wErr := match z.wErr with
      | some (i, c, a) => if i < x.id then some (i, c, a) else some (x.id, code, x.addr)
      | none => some (x.id, code, x.addr) })
  let c := s1.chan y.ch
  if y.phase != .idle && y.paused && c.pend == some .pause && c.eng == some e then pauseEngine y.ch e s1 else s1

/-- A Stream Link grants a burst and takes it, or gives up the bytes it asks for: nothing is answered later. A failed link sends
nothing, and its cause concerns no sector (R360, R375); bytes that have gone are counted (Table 19-9). -/
def linkGrant (t : Txn) (s : State) : State :=
  let l := BitVec.ofNat 5 (t.port.toNat - 32)
  let s1 := s.dropTxn t.id
  match t.purpose with
  | .engRead e _ =>
    if t.discard then s1
    else s1.modEng e (fun x => { x with reads := x.reads.map (fun r => if r.t = some t.id then { r with bytes := some [] } else r) })
  | .data e _ counted =>
    let x := s.link l
    if t.torn ∨ t.discard then settle (s.eng e).ch s1
    else if x.st = .failed then settle (s.eng e).ch (dataDone e { t with addr := 0 } counted 3 s1)
    else if counted then
      settle (s.eng e).ch (dataDone e t counted 0 (tmAdd 23 (t.n - x.txSkip) (s1.modLink l (fun y => Link.txSend s.now y t.data))))
    else
      settle (s.eng e).ch (dataDone e t counted 0
        (s1.modLink l (fun y => Link.cmdSend s.now y y.nextTag t.data (sectSize s (t.port.toNat - 32)))))
  | _ => s1

/-- Traffic held for a domain that is not open: it wakes the domain, or is answered POWERED_OFF (R618). -/
def holdTraffic (p : Nat) (s : State) : State :=
  let waits (t : Txn) : Bool := t.stage == .atPort && t.port.toNat == p
  if domOpen s (portDom p) || !s.txns.any waits then s
  else if autoWake s (portDom p) then beginWake (portDom p) 7 0 s
  else { s with txns := s.txns.map (fun t =>
    if waits t then { t with forced := some 4, stage := if t.pooled then .sent else t.stage, beats := 0 } else t) }

/-! ### Docent's requests (R585, R599, R672) -/

/-- The way of a test's burst to the unit under test (R27, R672): the gallery at whose arbiter it enters, the wing whose arbiter it
passes, and the port whose arbiter it passes. A gallery's own test goes up the uplink too, and a wing's test goes to every port
(Table 17-2); which of these a burst does is the free value `v`. -/
def docentPath (r : Recovery) (v : Nat) : Option Nat × Option Nat × Option Nat :=
  let n := r.src.val
  let gal (g : Nat) := (some g, if v % 2 = 0 then none else some (g / 8), none)
  match r.eng with
  | some e => (some e.g.toNat, none, none)
  | none =>
    if 64 ≤ n ∧ n < 96 then (some (n - 64), none, none)
    else if 96 ≤ n ∧ n < 128 then gal (n - 96)
    else if 160 ≤ n ∧ n < 164 then
      (if r.inst.toNat < 8 then gal (8 * (n - 160) + r.inst.toNat)
       else (none, some (n - 160), if r.inst = 9 then none else some (v / 2 % 64)))
    else if 164 ≤ n ∧ n < 168 then (none, some (n - 164), none)
    else if 196 ≤ n ∧ n < 198 then (none, some (r.inst.toNat % 4), none)
    else if 176 ≤ n ∧ n < 230 then (none, if r.inst.toNat < 4 then some r.inst.toNat else none, some (srcPort n))
    else (none, none, none)

/-- The first arbiter on that way. -/
def docentEntry (r : Recovery) : Option Nat :=
  match docentPath r 0 with
  | (some g, _, _) => some g
  | (none, some w, _) => some (32 + w)
  | (none, none, some p) => some (64 + p)
  | _ => none

/-- The scratch region's first address. -/
def scratchBase (s : State) : Nat := (s.reg .scrHi).toNat * 2 ^ 32 + fld (s.reg .scrLo) 13 19 * 2 ^ 13

/-- Docent's scratch region lies behind port `p` (R585). -/
def docentScratch (s : State) (p : Nat) : Bool :=
  let c := s.reg .scrLo
  decide (p < 8) && bit c 4 && fld c 0 4 == p

/-- A burst of Docent may be presented on its port: it lies in the scratch region now (R585). -/
def docentMay (s : State) (t : Txn) : Bool :=
  match t.purpose with
  | .docent .. => docentScratch s t.port.toNat && decide (scratchBase s ≤ t.addr.toNat) && decide (t.addr.toNat + t.n ≤ scratchBase s + 8192)
  | _ => true

/-- A burst of the test that unit `i` runs, at its first arbiter; toward memory it stays in the scratch region, and what it reads or
writes is a free value. -/
def docentBurst (i : Nat) (r : Recovery) (s : State) : State :=
  let (v, s1) := s.draw
  let k := v.toNat
  let (g, w, p) := docentPath r (k / 4)
  let q := p.getD 0
  let out := p.isSome && docentScratch s q && k % 2 == 0
  let n := burstMax q
  let write := k / 2 % 2 == 0
  let (b, s2) := if write then drawBytes n s1 else ([], s1)
  let t : Txn :=
    { id := s2.nextTxn, port := BitVec.ofNat 6 q, op := if write then 1 else 0,
      addr := if out then BitVec.ofNat 64 (scratchBase s + k / 256 % (8192 / n) * n) else v,
      n := n, data := b, sec := true, owner := 0xFF, cache := BitVec.ofNat 2 (k / 64 % 4), order := 0,
      stage := if g.isSome then .atGal else if w.isSome then .atWing else .atPort,
      wing := w.map (BitVec.ofNat 2), gal := none, since := s2.now,
      beats := if write then beatsOf q (BitVec.ofNat 64 (scratchBase s + k / 256 % (8192 / n) * n)) n else 0,
      purpose := .docent (BitVec.ofNat 2 i) (g.map (BitVec.ofNat 5))
        (if out then .granted else if p.isSome then .atPort else if w.isSome then .atWing else .atGal) }
  if p.isSome && (instAbsent s.wings q || !domOpen s (portDom q)) then s2
  else { s2 with txns := s2.txns ++ [t], nextTxn := s2.nextTxn + 1 }

/-- A burst of the test that unit `i` runs waits at an arbiter. -/
def docentWaits (i : Nat) (t : Txn) : Bool :=
  t.waitsAt.isSome && (match t.purpose with | .docent u _ _ => u.toNat == i | _ => false)

/-- Test unit `i` runs a test. -/
def docRuns (s : State) (i : Nat) : Bool := docUp s && (match docUnit s i with | some r => r.step != 0 | none => false)

/-- A test that may request at arbiter `a`: it enters there, no burst of it waits, and a background test observes its gap (R599). -/
def docentAsker (s : State) (a : Nat) : Option Nat :=
  (upTo 4).find? (fun i => docRuns s i && !s.txns.any (docentWaits i) && (match docUnit s i with
    | some r => docentEntry r == some a && (!r.bg || (s.arb a).docGap == 0)
    | none => false))

/-- Docent's requests at arbiter `a`: those of tests that have ended are withdrawn, and a test may make its next one; when it does is
a free value (log entry 45). -/
def docentAsk (a : Nat) (s : State) : State :=
  let s0 := withdrawAll (fun t => (t.waitsAt.map Prod.fst) == some a && (match t.purpose with
    | .docent u _ _ => !docRuns s u.toNat | _ => false)) s
  match docentAsker s0 a with
  | none => s0
  | some i =>
    let (v, t) := s0.draw
    match docUnit t i with
    | some r => if bit v 0 then docentBurst i r t else t
    | none => t

/-- Docent has been granted at arbiter `a`: the wait is no part of its test's time (R583), and its background work observes BG_GAP
from here on (R599). -/
def docentGranted (a : Nat) (x : Txn) (s : State) : State :=
  match x.purpose with
  | .docent u _ _ =>
    (match docUnit s u.toNat with
     | some r =>
       let t := setUnit u.toNat (some { r with startAt := r.startAt + (s.now - x.since) }) s
       if r.bg then t.modArb a (fun y => { y with docGap := BitVec.ofNat 8 (fld (s.reg .docCfg) 8 8) }) else t
     | none => s)
  | _ => s

/-! ### Grant points (R390 to R397) -/

/-- The burst stands in front of the stage that follows arbiter `a`. -/
def standsAfter (a : Nat) (t : Txn) : Bool :=
  if a < 32 then t.stage == .atWing
  else if a < 64 then t.stage == .atPort
  else t.stage == .granted || (t.stage == .sent && decide (0 < t.beats))

/-- The burst of the last grant of arbiter `a`, while it stands in front of the next stage. -/
def grantBurst (s : State) (a : Nat) : Option Txn :=
  ((s.arb a).grant.bind (fun g => s.txn g.1)).filter (standsAfter a)

/-- Port `p` has not taken the burst it granted: its REQ and WDAT channels are busy. -/
def portBusy (s : State) (p : Nat) : Bool := (grantBurst s (64 + p)).isSome

/-- The port takes a burst from the wing: it could be granted there now, and no other burst stands before it. -/
def portTakes (s : State) (t : Txn) : Bool := grantable s t && !portBusy s t.port.toNat

/-- Wing `w`'s downlink is busy with the burst of its last grant. -/
def wingBusy (s : State) (w : Nat) : Bool := match grantBurst s (32 + w) with | some t => portTakes s t | none => false

/-- The arbiter's resource is free: the burst of its last grant has moved on; or it waits for its port, whose limit, buffer or target
keeps it, in the buffers of its path, where it holds no grant and stops no traffic to other ports (R37, R390, R431). -/
def resourceFree (s : State) (a : Nat) : Bool :=
  if a < 32 then (match grantBurst s a with | some t => !grantable s t | none => true)
  else if a < 64 then !wingBusy s (a - 32)
  else !portBusy s (a - 64)

/-- The transaction moves past the arbiter that granted it. -/
def advanceTxn (t : Txn) (s : State) : State := s.modTxn t.id (fun x => { x with stage := x.stage.next, since := s.now })

/-- Arbiter `a` grants `t`: it moves on and holds the grant; the fabric's own answer follows without a port, a burst of Docent may turn
back here, and a Stream Link takes its bytes. -/
def grantTo (a : Nat) (t : Txn) (s : State) : Option Nat × State :=
  if t.forced.isSome then (none, s.modTxn t.id (fun x => { x with stage := .sent, beats := 0 }))
  else if t.turns then (none, s.dropTxn t.id)
  else if 96 ≤ a then (none, linkGrant t s)
  else (some t.id, advanceTxn t s)

/-- A grant point of an arbiter (R390 to R397). -/
def execArbiterGrantPoint (arb : ArbId) (s0 : State) : Host.Outcome State Fault Refusal :=
  act s0 (
    let a := arbIdx arb
    let s1 := if 64 ≤ a then holdTraffic (a - 64) s0 else s0
    if !resourceFree s1 a then s1
    else
      let s := docentAsk a s1
      let rs := requesting s a
      match chooseGrant s a rs with
      | none => s
      | some (r, forced, cr) =>
        match headOf s a r with
        | none => s
        | some t =>
          let g := grantTo a t s
          let s3 := docentGranted a t (arbLeft r a (g.2.modArb a (arbAfter rs r g.1 cr)))
          if forced then starved a r s3 else s3)

/-! ## Beats (R430, R436, R437) -/

/-- Bytes that WDAT beat `k` of a burst carries. -/
def beatBytes (p : Nat) (addr : DWord) (n k : Nat) : Nat :=
  let w := beatWidth p
  let lo := addr.toNat / w * w + k * w
  min (addr.toNat + n) (lo + w) - max addr.toNat lo

/-- Telemetry index of a port's data bytes (Table 19-9). -/
def portTm (p : Nat) : Nat := if p < 12 then p else if p < 14 then 20 + (p - 12) else 12 + (p - 16)

/-- Bits of a port's ID (Table 12-9). -/
def idWidth (p : Nat) : Nat := if p < 8 then 9 else if p < 12 then 8 else if p < 14 then 6 else 7

/-- An outstanding transaction of port `p`. -/
def Txn.openOn (p : Nat) (t : Txn) : Bool := t.port.toNat == p && t.forced.isNone && (t.stage == .sent || t.stage == .retry)

/-- The bursts share one ID: one stream of one work order, and neither ORDER is RELAXED (Table 12-4). -/
def sameStream (x y : Txn) : Bool :=
  x.order != 0 && y.order != 0 && x.gal.isSome && x.gal == y.gal && x.strm.isSome && x.strm == y.strm && !y.discard

/-- The ID of a REQ beat (R445, R446): the one its stream uses, or one that no outstanding transaction of the port carries; which of
those is a free value, `v`. -/
def pickId (s : State) (x : Txn) (v : Nat) : BitVec 9 :=
  let p := x.port.toNat
  let w := 2 ^ idWidth p
  match s.txns.find? (fun y => y.openOn p && sameStream x y) with
  | some y => y.rid
  | none =>
    let free (i : Nat) : Bool := !s.txns.any (fun y => y.openOn p && y.rid.toNat == (v + i) % w)
    BitVec.ofNat 9 ((v + ((upTo w).find? free).getD 0) % w)

/-- The REQ beat of a granted burst transfers: it takes its ID and its place among the REQ beats. -/
def sendReq (x : Txn) (s : State) : State :=
  let (v, s1) := s.draw
  let s2 := { s1 with nextTxn := s1.nextTxn + 1 }
  let s3 := s2.modTxn x.id (fun y => { y with stage := .sent, rid := pickId s x v.toNat, ord := s.nextTxn })
  if x.beats = 0 then endGrant x s3 else s3

/-- Write data of an earlier REQ beat of the port is still to come (R437). -/
def wdatBehind (s : State) (x : Txn) : Bool :=
  s.txns.any (fun y => y.port == x.port && y.stage == .sent && y.forced.isNone && decide (0 < y.beats) && decide (y.ord < x.ord))

/-- A subordinate accepts a beat: the REQ beat of a granted burst, then each of its WDAT beats (R436, R437). -/
def execBeatTransfer (t : Nat) (s : State) : Host.Outcome State Fault Refusal :=
  act s (match s.txn t with
    | some x =>
      let p := x.port.toNat
      if x.stage = .granted then (if !docentMay s x then endGrant x (s.dropTxn t) else if portPresents s p then sendReq x s else s)
      else if x.stage = .sent ∧ 0 < x.beats ∧ x.forced.isNone ∧ portRuns s p ∧ !wdatBehind s x then
        (let k := beatsOf p x.addr x.n - x.beats
         let s1 := s.modTxn t (fun y => { y with beats := y.beats - 1 })
         let s2 := if x.torn then s1 else tmAdd (portTm p) (beatBytes p x.addr x.n k) s1
         if x.beats = 1 then endGrant x s2 else s2)
      else s
    | none => s)

/-! ## Responses (R448 to R453) -/

/-- A transaction that can be answered now: all its beats have transferred, its port's clock runs (R475), and the shell does not clamp
RSP READY (R491). -/
def answerable (s : State) (t : Nat) (ops : List (BitVec 3)) : Option Txn :=
  match s.txn t with
  | some x =>
    if x.stage == .sent && (x.forced.isSome || (x.beats == 0 && !portStopped s x.port.toNat && !s.boot.shellIso)) && ops.contains x.op then some x else none
  | none => none

/-- The beats of a read response (R449): one RETRY alone; LEN + 1 beats, each with its code; or fewer, the last neither OKAY nor
RETRY. -/
def readShape (x : Txn) (codes : List (BitVec 3)) : Bool :=
  let l := beatsOf x.port.toNat x.addr x.n
  x.forced.isSome || codes == [5] || codes.length == l ||
    (decide (0 < codes.length ∧ codes.length < l) && codes.getLast? != some 0 && codes.getLast? != some 5)

/-- The code of a whole read: the first other than OKAY (R449). -/
def readCode (codes : List (BitVec 3)) : BitVec 3 := (codes.find? (· != 0)).getD 0

/-- The port records its first error (R453). -/
def portError (x : Txn) (code : BitVec 3) (s : State) : State :=
  let p := x.port.toNat
  let s1 := s.modPort p (fun q => { q with errCnt := satAdd q.errCnt 1 })
  if (s1.port p).err then s1
  else
    s1.modPort p (fun q => { q with
      err := true, errAddr := x.addr,
      errInfo := packW [(24, x.owner.toNat), (23, b2n x.sec), (20, x.op.toNat), (17, code.toNat), (0, x.rid.toNat)] })

/-- RETRY_MAX is exhausted: the answer counts as SLVERR, and the port's source asserts (R452). -/
def retryExhausted (x : Txn) (s : State) : State :=
  assertFault (portSrc x.port.toNat) (faultOf 6 0) (s.modPort x.port.toNat (fun q => { q with retryExh := true }))

/-- What an answer means: a retry that waits, or a final code, after the port's counters. -/
def answered (x : Txn) (code : BitVec 3) (s : State) : Option (BitVec 3) × State :=
  match x.forced with
  | some c => (some c, s)
  | none =>
    if code = 0 then (some 0, s)
    else if code = 5 then
      (let p := x.port.toNat
       let s1 := s.modPort p (fun q => { q with retryCnt := satAdd q.retryCnt 1 })
       if fld (s1.reg (.portCfg p)) 24 8 ≤ x.retries then (some 1, retryExhausted x s1)
       else (none, s1.modTxn x.id (fun y => { y with stage := .retry })))
    else (some (if 6 ≤ code.toNat then 1 else code), portError x code s)

/-! ### Reads -/

/-- An engine read fails: it raises the bus exception at the instruction (R152), or ends a start (R102, R215), as soon as the engine
executes; one that is paused, held or stopped for debug meets it then. -/
def engReadFails (e : EngId) (code : BitVec 3) (hit : EngRead → Bool) (s : State) : State :=
  if (s.eng e).reads.any hit then
    (let s1 := s.modEng e (fun y => { y with reads := y.reads.map (fun r => if hit r then { r with err := some code } else r) })
     match (s.eng e).phase with
     | .run => raiseRead e s1
     | .starting => startStep e s1
     | _ => s.modEng e (fun y => { y with reads := y.reads.filter (fun r => !hit r) }))
  else s

/-- Every engine that waits for a line meets the failure of its read (R467). -/
def lineFails (l : Nat) (code : BitVec 3) (s : State) : State :=
  foldS (s.engs.map (fun p => engOf p.1)) (fun e t =>
    engReadFails e code (fun r => r.t.isNone && r.addr.toNat / 64 == l) t) s

/-- Every engine that waited for a line finds it now. -/
def lineFilled (l : Nat) (s : State) : State :=
  foldS (s.engs.map (fun p => engOf p.1)) (fun e t =>
    if (t.eng e).reads.any (fun r => r.t.isNone && r.addr.toNat / 64 == l) then
      t.modEng e (fun x => { x with reads := x.reads.filter (fun r => !(r.t.isNone && r.addr.toNat / 64 == l)) })
    else t) s

/-- A line is installed in slice `k` (R458, R463); while the evictions of R461 run, or where the slice's wing leaves ON meanwhile
(R617), it leaves again at once. -/
def install (k l : Nat) (st : LineSt) (d : List Byte) (s : State) : State :=
  let t := (makeRoom k l (if st = .M then 2 else 1) s).modLine l (fun _ => { st := st, slices := BitVec.ofNat 4 (2 ^ k), data := slice d 0 64 })
  if s.vitFlush || !domOpen s (3 + k) then evictFrom k l t else t

/-- The evictions of R461 are over once no line is held and no coherent request is open; the loader's readings go on. -/
def flushDone (s : State) : State :=
  pumpLoads (if s.vitFlush && s.lines.isEmpty && !s.txns.any (fun t => decide (2 ≤ t.op.toNat)) then { s with vitFlush := false } else s)

/-- An entry fetch is answered (R79, R80). -/
def entryAnswered (ch : BitVec 12) (idx : BitVec 16) (t : Nat) (e : CEntry) (s : State) : State :=
  s.modChan ch (fun c => { c with fet := c.fet.map (fun f => if f.1 = t then (t, idx, some e) else f) })

/-- A read's final answer reaches what it was for. -/
def readDone (x : Txn) (code : BitVec 3) (data : List Byte) (grantE : Bool) (s : State) : State :=
  let l := x.addr.toNat / 64
  match x.purpose with
  | .engRead e _ =>
    if x.discard then s
    else if code = 0 then
      s.modEng e (fun y => { y with reads := y.reads.map (fun r => if r.t = some x.id then { r with bytes := some (slice data 0 x.n) } else r) })
    else engReadFails e code (fun r => r.t == some x.id) s
  | .entry ch idx =>
    entryAnswered ch idx x.id (if code = 0 then { idx := idx, bytes := slice data 0 64 } else { idx := idx, bytes := [], err := some (busStatus code) }) s
  | .fill w =>
    if x.discard then s
    else if code = 0 then lineFilled l (install (sliceOf s w.toNat) l (if grantE then .E else .S) data s) else lineFails l code s
  | .unique w =>
    if x.discard then s
    else if code = 0 then
      (let s1 := lineFilled l (install (sliceOf s w.toNat) l .E data s)
       if grantE then s1 else assertFault (portSrc x.port.toNat) (faultOf 5 0) s1)
    else s
  | .loader k => loaderAnswered x k code data s
  | _ => s

/-- A coherent request that failed waits to be reissued; the first failure asserts the port's source (R467). -/
def cohFailed (x : Txn) (s : State) : State :=
  let s1 := s.modTxn x.id (fun y => { y with stage := .again, failed := true, retries := 0 })
  if x.failed then s1 else assertFault (portSrc x.port.toNat) (faultOf 5 0) s1

/-- A read response (R449 to R453). -/
def execReadResponse (t : Nat) (codes : List (BitVec 3)) (data : List Byte) (grantE : Bool) (s : State) :
    Host.Outcome State Fault Refusal :=
  act s (match answerable s t [0, 2, 3] with
    | some x =>
      if !readShape x codes then s
      else
        (match answered x (readCode codes) s with
         | (none, u) => u
         | (some c, u) =>
           let v := if c = 0 then tmAdd (portTm x.port.toNat) x.n u else u
           if c ≠ 0 ∧ x.op = 3 ∧ !x.discard then cohFailed x (lineFails (x.addr.toNat / 64) c (v.modLine (x.addr.toNat / 64) (fun _ => {})))
           else
             let w := flushDone (readDone x c data grantE (v.dropTxn t))
             match x.purpose with
             | .entry ch _ => settle ch w
             | _ => w)
    | none => s)

/-! ### Writes -/

/-- A ring error is due: the hub begins no further release of the channel (R79, R673). -/
def ringFails (ch : BitVec 12) (f : Chan → Chan) (s : State) : State := s.modChan ch (fun c => { f c with relHeld := true, ringDue := true })

/-- A HALT notice that was not written stands again before the releases not yet begun, with its slot reserved and its TIME
(R673); `b` is the notice as it was written. -/
def noticeBack (b : List Byte) (c : Chan) : Chan :=
  let r := Release.notice 4 0 (b.drop 16) (some (BitVec.ofNat 64 (leAt b 8 8)))
  { c with rel := match c.relTxn, c.rel with
      | some _, h :: t => h :: r :: t
      | _, l => r :: l }

/-- A ring or mirror write is answered (R76 to R79, R673). -/
def ringDone (x : Txn) (code : BitVec 3) (s : State) : State :=
  match x.purpose with
  | .release ch =>
    if (s.chan ch).relTxn ≠ some x.id then s
    else if code = 0 then s.modChan ch (fun c => { c with relAck := some 0 })
    else ringFails ch (fun c => { c with relAck := some code }) s
  | .mirror ch =>
    if (s.chan ch).abandoned then s
    else if code = 0 then mirrorIssue ch s
    else ringFails ch (fun c => { c with mirErr := true }) s
  | .haltNotice ch =>
    if (s.chan ch).abandoned then s.modChan ch (fun c => { c with reserved := c.reserved - 1 })
    else if code = 0 then mirrorIssue ch (mirrorDue ch (s.modChan ch noticeAcked))
    else ringFails ch (noticeBack x.data) s
  | _ => s

/-- The channel of a ring transaction. -/
def Purpose.ring : Purpose → Option (BitVec 12)
  | .release ch | .mirror ch | .haltNotice ch | .entry ch _ => some ch
  | _ => none

/-- A write response (R403, R449 to R453). -/
def execWriteResponse (t : Nat) (code : BitVec 3) (s : State) : Host.Outcome State Fault Refusal :=
  act s (match answerable s t [1] with
    | some x =>
      (match answered x code s with
       | (none, u) => u
       | (some c, u) =>
         let v := u.dropTxn t
         match x.purpose with
         | .data e _ counted => settle (s.eng e).ch (dataDone e x counted c v)
         | p => (match p.ring with | some ch => settle ch (ringDone x c v) | none => v))
    | none => s)

/-- The port reissues a transaction after its RETRY gap: its REQ beat transfers again, with the same fields (R452). -/
def execRetryReissue (t : Nat) (s : State) : Host.Outcome State Fault Refusal :=
  act s (match s.txn t with
    | some x =>
      if x.stage = .retry ∧ portRuns s x.port.toNat then
        { s with nextTxn := s.nextTxn + 1 }.modTxn t (fun y => { y with
          stage := .sent, retries := y.retries + 1, ord := s.nextTxn,
          beats := if y.op == 1 || y.op == 5 then beatsOf y.port.toNat y.addr y.n else 0 })
      else s
    | none => s)

/-! ## The grant watchdog (R399, R400) -/

/-- The fault source of an arbiter. -/
def arbSrc (a : Nat) : Nat := if a < 32 then 96 + a else if a < 64 then 160 + (a - 32) else portSrc (a - 64)

/-- FCLK in MHz at an operating point (Table 13-7). -/
def fclkMHz (opp : Nat) : Nat := if opp = 0 then 400 else if opp = 1 then 800 else if opp = 2 then 1200 else if opp = 3 then 1500 else 1800

/-- FCLK in MHz of the domain that holds arbiter `a`: 0 while its clock stands. -/
def arbMHz (s : State) (a : Nat) : Nat :=
  let d := if a < 32 then 7 + a else if a < 64 then 3 + (a - 32) else if a < 72 then portDom (a - 64) else 2
  match supOf d with
  | some x => if (s.sup x).clkStop then 0 else fclkMHz (s.sup x).f.toNat
  | none => 0

/-- Everything downstream of arbiter `a` takes the burst's next beat (R399). -/
def downstreamReady (s : State) (a : Nat) (t : Txn) : Bool :=
  if a < 32 then grantable s t && !(match t.wing with | some w => wingBusy s w.toNat | none => false)
  else if a < 64 then portTakes s t
  else if t.stage = .granted then portPresents s t.port.toNat else portRuns s t.port.toNat && !wdatBehind s t

/-- One tick of the grant watchdog of arbiter `a`: it counts while a grant is held and everything downstream is ready (R399). -/
def wdogTick (a : Nat) (s : State) : State :=
  match grantBurst s a with
  | some t => if downstreamReady s a t then s.modArb a (fun x => { x with wdog := x.wdog + arbMHz s a }) else s
  | none => s

/-- The count of the grant watchdog has reached WDOG × 16 cycles, and the grantee's burst still stands (R399). -/
def bitten (s : State) (a : Nat) : Option (Txn × Nat) :=
  match grantBurst s a, (s.arb a).grant with
  | some t, some (_, r) => if 16 * fld (s.app (.arbCfg a)) 16 8 * ticksUs ≤ (s.arb a).wdog then some (t, r) else none
  | _, _ => none

/-- The channel that a burst belongs to. -/
def Txn.chan? (s : State) (t : Txn) : Option (BitVec 12) :=
  match t.purpose with
  | .engRead e _ | .data e _ _ => some (s.eng e).ch
  | p => p.ring

/-- The grant watchdog of an arbiter bites (R399): the burst completes without byte enables, its response is discarded, and
the grantee meets Table 10-8. -/
def execGrantWatchdogBite (arb : ArbId) (s : State) : Host.Outcome State Fault Refusal :=
  act s (
    let a := arbIdx arb
    match bitten s a with
    | none => s
    | some (t, r) =>
      let purpose : Purpose := match t.purpose with
        | .release _ | .mirror _ | .haltNotice _ | .entry _ _ | .writeBack | .loader _ => .evict
        | p => p
      let s1 := s.modTxn t.id (fun x => { x with torn := true, discard := true, purpose := purpose })
      let s2 := s1.modArb a (fun x => { x with bite := true, grant := none })
      let i : FaultInfo := { ch := t.chan? s, eng := if a < 32 then t.gal else none, cls := 4, addr := t.addr, inst := BitVec.ofNat 8 r,
                             inj := false }
      reissueRing t (assertFault (arbSrc a) i s2))

end Sys2Proof.Machine
end

