-- ==== Sys2Proof/Machine/Coherence.lean ====
section
/-! DEFINITION. Coherence: snoops, acknowledgements and reissues on the coherent ports (R457 to R467, Table 12-16). -/

namespace Sys2Proof.Machine

/-- A coherent transaction of line `l` with operation `op` whose answer is awaited. -/
def cohOpen (s : State) (l : Nat) (op : BitVec 3) : Bool :=
  s.txns.any (fun t => t.op == op && t.addr.toNat == l * 64 && t.stage != .again)

/-- Answer a snoop on SNPRSP. -/
def snpAnswer (cp : Bool) (code : BitVec 3) (data : List Byte) (s : State) : State :=
  { s with snpRsp := some { cp := cp, code := code, data := data } }

/-- The state of a line after a snoop (Table 12-16). -/
def snooped (inval : Bool) (l : Nat) (s : State) : State :=
  s.modLine l (fun v => if inval then {} else { v with st := if v.st == .I then .I else .S })

/-- A snoop (R464, R465, Table 12-16). -/
def snoop (inval cp : Bool) (l : Nat) (s : State) : State :=
  let v := s.line l
  if cohOpen s l 5 then snpAnswer cp 4 [] s
  else if cohOpen s l 4 then snpAnswer cp 0 [] s
  else if cohOpen s l 2 || cohOpen s l 3 then snpAnswer cp 0 [] (s.modLine l (fun _ => {}))
  else match v.st with
    | .I => snpAnswer cp 0 [] s
    | .S | .E => snpAnswer cp (if inval then 0 else 1) [] (snooped inval l s)
    | .M => snpAnswer cp (if inval then 2 else 3) v.data (snooped inval l s)

/-- A snoop reaches the Vitrine and is answered: CORE works, and its ports are neither held nor clamped (R486, R491, R628). -/
def snoopServed (s : State) : Bool := coreUp s && pinsUp s

/-- The home wants Tilzu to hold at most S (R464). -/
def execSnpShared (cp : Bool) (line : BitVec 58) (s : State) : Host.Outcome State Fault Refusal :=
  act s (if snoopServed s then snoop false cp line.toNat s else s)

/-- The home wants Tilzu to hold nothing (R464). -/
def execSnpInvalid (cp : Bool) (line : BitVec 58) (s : State) : Host.Outcome State Fault Refusal :=
  act s (if snoopServed s then snoop true cp line.toNat s else s)

/-- EVICT_ACK, or an Evict answered otherwise: a RETRY waits, an error is the port's alone (R452, R453, R466). -/
def execEvictAck (t : AckBeat) (s : State) : Host.Outcome State Fault Refusal :=
  act s (match answerable s t.txn [4] with
    | some x =>
      (match answered x t.code s with
       | (none, u) => u
       | (some _, u) => flushDone (u.dropTxn t.txn))
    | none => s)

/-- WB_ACK, or a WriteBack answered otherwise: the line stays M with its data until the reissue (R466, R467). -/
def execWbAck (t : Nat) (code : BitVec 3) (s : State) : Host.Outcome State Fault Refusal :=
  act s (match answerable s t [5] with
    | some x =>
      (match answered x code s with
       | (none, u) => u
       | (some c, u) =>
         if c = 0 ∨ x.discard then flushDone (u.dropTxn t)
         else
           let k := sliceOf u ((x.wing.map BitVec.toNat).getD 0)
           cohFailed x (install k (x.addr.toNat / 64) .M x.data u))
    | none => s)

/-- A failed ReadUnique or WriteBack is issued again; a WriteBack only while the line is still M (R467). -/
def execCoherentReissue (t : Nat) (s : State) : Host.Outcome State Fault Refusal :=
  act s (match s.txn t with
    | some x =>
      if x.stage = .again then
        (let l := x.addr.toNat / 64
         if x.op = 5 then
           (if (s.line l).st = .M then
             (let d := (s.line l).data
              (s.modTxn t (fun y => { y with stage := .atWing, data := d, beats := beatsOf y.port.toNat y.addr y.n })).modLine l (fun _ => {}))
           else flushDone (s.dropTxn t))
         else if s.vitFlush then flushDone (s.dropTxn t)
         else if s.txns.any (fun y => (y.op == 4 || y.op == 5) && y.addr == x.addr) then s
         else s.modTxn t (fun y => { y with stage := .atWing }))
      else s
    | none => s)

end Sys2Proof.Machine
end

