-- ==== Sys2Proof/Machine/Links.lean ====
section
/-! DEFINITION. Links: training, lanes, frames and the receive buffer of the Stream Links (09). -/

namespace Sys2Proof.Machine

/-- The SLG domain of link `l` is ON and held by no fault source. -/
def linkOn (s : State) (l : BitVec 5) : Bool := s.domOn (39 + l.toNat / 8) && !domHeld s (39 + l.toNat / 8) && !(s.dom (39 + l.toNat / 8)).hold && !s.boot.shellIso

/-! ## Training states (R346, R375) -/

/-- Lanes in electrical idle have no block lock. -/
def Link.idleLanes (x : Link) : Link := { x with lockLane0 := false, lockLane1 := false }

/-- DETECT: lane 0 is active in both directions and no lane counts as failed (R344, R349, R376); replay buffer, credits
and read commands, which only RECOVERY keeps, are given up. -/
def Link.toDetect (x : Link) : Link :=
  { x with st := .detect, ver := 0, txLane := false, rxLane := false, txBad := 0, rxBad := 0, failCause := 0, adapted := false,
           farAdapted := false, eqTried := 0, eqReq := 0xFF, lswOut := none, nakWin := [], crcWin0 := [], crcWin1 := [], capRx := false, credRx := false, replayBuf := [], active := [], recoveries := [],
           nakOut := false, ackDue := false }

/-- DISABLED (R346). -/
def Link.toDisabled (x : Link) : Link :=
  { x.idleLanes with st := .disabled, ver := 0, failCause := 0, capRx := false, credRx := false, replayBuf := [], active := [],
                     nakOut := false, ackDue := false }

/-- CONFIG: SEQ and the flow-control counts restart, with the retained words and status entries counted against the limits
that the first CREDIT grants (R346, R355, R363). -/
def Link.toConfig (x : Link) : Link :=
  { x with st := .config, ver := 0, capRx := false, credRx := false, expected := 0, rxAny := false, nakOut := false, ackDue := false,
           nextSeq := 0, replayBuf := [], dataLim := 0, msgLim := 0, sentWords := 0, sentMsgs := 0, rcvWords := 0, rcvMsgs := 0,
           relWords := 0 - BitVec.ofNat 16 x.held, relMsgs := 0 - BitVec.ofNat 8 x.stq.length, maxLen := 16, feat := 0 }

/-- A link enters FAILED: active reads retire, its fault source asserts, its producer emits (R367, R375). -/
def linkFail (l : BitVec 5) (cause : BitVec 4) (s : State) : State :=
  let t := s.modLink l (fun x => { x.idleLanes with st := .failed, ver := if x.st = .config then 0 else x.ver, failCause := cause, active := [], ackDue := false, nakOut := false })
  assertFault (198 + l.toNat) (faultOf 7 0) (emitUp [160 + l.toNat] t)

/-- A link enters RECOVERY; the fourth entry within 1 ms fails it (Table 9-2, R354). -/
def linkRecover (l : BitVec 5) (s : State) : State :=
  let x := s.link l
  let rs := x.recoveries.filter (fun t => decide ((s.now - t).toNat < ticksMs)) ++ [s.now]
  let t := s.modLink l (fun y => { y with
    st := .recovery, retrainCnt := satAdd y.retrainCnt 1, recoveries := rs, replayBuf := y.replayBuf.map (fun f => { f with tries := 0 }) })
  if 4 ≤ rs.length then linkFail l 6 t else t

/-- Every unacknowledged frame is replayed; a frame replayed four times sends the link to RECOVERY (R353, R354). -/
def linkReplay (l : BitVec 5) (s : State) : State :=
  let x := s.link l
  if x.replayBuf.isEmpty then s
  else
    let t := s.modLink l (fun y => { y with
      replayBuf := y.replayBuf.map (fun f => { f with tries := f.tries + 1 }), replayCnt := satAdd y.replayCnt 1, ackAdvAt := s.now })
    if (t.link l).replayBuf.any (fun f => decide (4 ≤ f.tries)) then linkRecover l t else t

/-- A link enters ACTIVE (R367). -/
def linkActivate (l : BitVec 5) (s : State) : State := emitUp [160 + l.toNat] (s.modLink l (fun x => { x with st := .active }))

/-- CONFIG ends once the far CAP and the first CREDIT have arrived (Table 9-2). -/
def configDone (l : BitVec 5) (s : State) : State :=
  let x := s.link l
  if x.st == .config && x.capRx && x.credRx then linkActivate l s else s

/-! ## Lanes (R348, R349) -/

/-- The mask of a lane. -/
def laneBit (lane : Bool) : BitVec 2 := if lane then 2 else 1

/-- The link may switch lanes without RECOVERY: version 1.2 with FEAT bit 1 (R348, R373). -/
def Link.hasLsw (x : Link) : Bool := decide (2 ≤ x.ver.toNat) && bit x.feat 1

/-- The link carries MARK frames: version 1.2 with FEAT bit 0 (R373, Table 9-7). -/
def Link.hasMark (x : Link) : Bool := decide (2 ≤ x.ver.toNat) && bit x.feat 0

/-- FS230 to FS233: a lane is failing and the spare is taken (Table 16-5). -/
def laneFault (l : BitVec 5) (s : State) : State := assertFault (230 + l.toNat / 8) (faultOf 7 (l.toNat % 8)) s

/-- A receive lane of an ACTIVE link is failing: it is out until the next DETECT; the active lane's direction moves to the
spare, by the far side's LSW at 1.2 or through RECOVERY at 1.1; with both lanes out the link fails (R348, R349). -/
def laneFailing (l : BitVec 5) (lane : Bool) (s : State) : State :=
  let x := s.link l
  if x.st ≠ .active ∨ x.rxBad &&& laneBit lane ≠ 0 then s
  else
    let t := s.modLink l (fun y => { y with rxBad := y.rxBad ||| laneBit lane })
    if (t.link l).rxBad = 3 then linkFail l 4 t
    else if lane ≠ x.rxLane then t
    else
      let u := laneFault l t
      if x.hasLsw then u else linkRecover l (u.modLink l (fun y => { y with rxLane := !lane }))

/-- The active transmit lane is failing: Tilzu sends LSW on both lanes and continues on the spare at 1.2, or enters RECOVERY on it at
1.1; with both lanes out the link fails (R348, R349). -/
def txFailing (l : BitVec 5) (s : State) : State :=
  let x := s.link l
  let bad := x.txBad ||| laneBit x.txLane
  if x.st ≠ .active then s
  else if bad = 3 then linkFail l 4 (s.modLink l (fun y => { y with txBad := bad }))
  else
    let t := laneFault l (s.modLink l (fun y => { y with txBad := bad, txLane := !x.txLane, nakWin := [] }))
    if x.hasLsw then t.modLink l (fun y => { y with lswOut := some (!x.txLane, x.nextSeq) }) else linkRecover l t

/-- Instants of the last 1 ms. -/
def lastMs (s : State) (w : List DWord) : List DWord := w.filter (fun t => decide ((s.now - t).toNat < ticksMs))

/-- ERR_THR. -/
def errThr (s : State) (l : BitVec 5) : Nat := fld (s.reg (.linkCtrl l.toNat)) 16 8

/-- The far side asks for a replay. DESIGN CHOICE (log entry 62): the spec does not say how Tilzu, as the sender, learns that its
transmit lane is failing; each NAK counts as one frame that failed its CRC there, against ERR_THR. -/
def nakSeen (l : BitVec 5) (s : State) : State :=
  let w := lastMs s (s.link l).nakWin ++ [s.now]
  let t := s.modLink l (fun y => { y with nakWin := w })
  if errThr s l < w.length then txFailing l t else t

/-- Block lock is gained on a lane (R345). -/
def execBlockLockAcquired (l : BitVec 5) (lane : Bool) (s : State) : Host.Outcome State Fault Refusal :=
  act s (
    let x := s.link l
    if linkOn s l && x.st != .disabled && x.st != .failed then
      s.modLink l (fun y => if lane then { y with lockLane1 := true } else { y with lockLane0 := true })
    else s)

/-- Block lock is lost on a lane; in ACTIVE the lane is failing (R345, R348). -/
def execBlockLockLost (l : BitVec 5) (lane : Bool) (s : State) : Host.Outcome State Fault Refusal :=
  act s (
    if linkOn s l then
      laneFailing l lane (s.modLink l (fun y => if lane then { y with lockLane1 := false } else { y with lockLane0 := false }))
    else s)

/-- The active receive lane has block lock. -/
def Link.locked (x : Link) : Bool := if x.rxLane then x.lockLane1 else x.lockLane0

/-- TRAIN ends when both sides report adapted (Table 9-2). -/
def trainDone (l : BitVec 5) (s : State) : State :=
  s.modLink l (fun x => if x.st == .train && x.adapted && x.farAdapted then x.toConfig else x)

/-- The order in which Tilzu's receiver tries the far transmitter's presets (R347). -/
def eqOrder : List Byte := [4, 3, 5, 2, 6, 1, 7, 0]

/-- The far side's TS block in TRAIN: Tilzu's transmitter applies the preset it asks for, which `txPreset` then echoes; and Tilzu's
receiver, until it has adapted, asks for the next preset of its order (R347; one TS block a preset: log entry 62). -/
def Link.eqBlock (t : TsBlock) (x : Link) : Link :=
  let y := { x with txPreset := if t.eqReq.toNat < 8 then BitVec.ofNat 3 t.eqReq.toNat else x.txPreset, farAdapted := t.adapted }
  if x.adapted then y else { y with eqTried := min 8 (x.eqTried + 1), eqReq := eqOrder.getD x.eqTried x.eqReq }

/-- A training block is received (Tables 9-1, 9-2, R347). In ACTIVE one whose sender is in RECOVERY takes the link there with it
(R348, R354; DEDUCED, log entry 62). -/
def execTs (l : BitVec 5) (t : TsBlock) (s : State) : Host.Outcome State Fault Refusal :=
  act s (
    let x := s.link l
    if !linkOn s l || !x.locked then s
    else match x.st with
      | .detect => s.modLink l (fun y => Link.eqBlock t { y with st := .train, adapted := false, eqTried := 0 })
      | .train => trainDone l (s.modLink l (Link.eqBlock t))
      | .active => if t.state = 5 then linkRecover l s else s
      | .recovery => linkReplay l (linkActivate l s)
      | _ => s)

/-- Tilzu's receiver has tried the presets, keeps the one with the widest eye margin, which no rule can name and a free value stands
for, and has adapted (R347, log entry 3). -/
def execEqAdapted (l : BitVec 5) (s : State) : Host.Outcome State Fault Refusal :=
  act s (
    if linkOn s l && (s.link l).st == .train && !(s.link l).adapted then
      (let (v, t) := s.draw
       trainDone l (t.modLink l (fun x => { x with adapted := true, eqTried := 8, eqReq := BitVec.ofNat 8 (v.toNat % 8) })))
    else s)

/-- A lane switch block moves reception to the lane it names (R348); only 1.2 has it (Table 9-1). -/
def execLsw (l : BitVec 5) (lane : Bool) (_seq : BitVec 12) (s : State) : Host.Outcome State Fault Refusal :=
  act s (
    let x := s.link l
    if linkOn s l && x.st == .active && x.hasLsw && x.rxBad &&& laneBit lane == 0 then
      s.modLink l (fun y => { y with rxLane := lane })
    else s)

/-- TRAIN has not completed within 4 ms (Table 9-2). -/
def execTrainTimeout (l : BitVec 5) (s : State) : Host.Outcome State Fault Refusal :=
  act s (if linkOn s l && (s.link l).st == .train then linkFail l 2 s else s)

/-- CONFIG has not completed within 100 µs (Table 9-2). -/
def execConfigTimeout (l : BitVec 5) (s : State) : Host.Outcome State Fault Refusal :=
  act s (if linkOn s l && (s.link l).st == .config then linkFail l 2 s else s)

/-- RECOVERY has not completed within 500 µs (Table 9-2). -/
def execRecoveryTimeout (l : BitVec 5) (s : State) : Host.Outcome State Fault Refusal :=
  act s (if linkOn s l && (s.link l).st == .recovery then linkFail l 5 s else s)

/-! ## Frames (R350 to R356) -/

/-- A frame's payload: exactly LEN words. -/
def frameBytes (f : Frame) : List Byte := slice f.payload 0 (8 * f.len.toNat)

/-- TYPE is assigned, and the frame has the fields of TINFO and payload that Table 9-5 marks 0, the LEN it gives, and SEQ 0 in control
frames (R352). -/
def frameForm (ty : Nat) (f : Frame) : Bool :=
  f.typeOk && f.zerosOk && (match ty with
    | 0x01 => decide (1 ≤ f.len.toNat) && fld f.tinfo 16 14 == 0
    | 0x03 => f.len == 4 && fld f.tinfo 16 16 == 0
    | 0x04 => f.len == 0
    | 0x80 => f.len == 0 && f.tinfo == 0 && f.seq == 0
    | 0x81 => f.len == 0 && fld f.tinfo 0 8 == 0 && f.seq == 0
    | _ => f.len == 1 && f.tinfo == 0 && f.seq == 0 && leAt (frameBytes f) 0 4 == 0)

/-- A NAK is sent if none is outstanding (R352). -/
def Link.nak (x : Link) : Link := if x.nakOut then x else { x with nakOut := true, nakCnt := satAdd x.nakCnt 1 }

/-- A CRC failure counts for the frame's lane; with more than ERR_THR within 1 ms the lane is failing (R348). -/
def crcFail (l : BitVec 5) (lane : Bool) (s : State) : State :=
  let x := s.link l
  let w1 := lastMs s (if lane then x.crcWin1 else x.crcWin0) ++ [s.now]
  let t := s.modLink l (fun y =>
    let z := { y with crcCnt := satAdd y.crcCnt 1 }
    (if lane then { z with crcWin1 := w1 } else { z with crcWin0 := w1 }).nak)
  if errThr s l < w1.length then laneFailing l lane t else t

/-- The frames up to ACK_SEQ leave the replay buffer (R353). -/
def ackTo (q : BitVec 12) (b : List TxFrame) : List TxFrame :=
  if b.any (fun f => f.seq == q) then (b.dropWhile (fun f => f.seq != q)).tail else b

/-- A trailer's acknowledgement and NAK (R352, R353). -/
def trailer (l : BitVec 5) (f : Frame) (s : State) : State :=
  let t := if f.ackV then
      s.modLink l (fun x =>
        let b := ackTo f.ackSeq x.replayBuf
        if b.length < x.replayBuf.length then { x with replayBuf := b, ackAdvAt := s.now } else x)
    else s
  if f.nak then
    (let u := nakSeen l t
     if (u.link l).st = .active ∨ (u.link l).st = .config then linkReplay l u else u)
  else t

/-- Tilzu's limits to the die allow the frame (R355): words of a STREAM_DATA, one message of a STREAM_STATUS or MARK. -/
def withinLimits (x : Link) (ty : Nat) (f : Frame) : Bool :=
  if ty = 1 then decide (f.len.toNat ≤ (x.relWords + 16384 - x.rcvWords).toNat) && decide ((x.relWords + 16384 - x.rcvWords).toNat ≤ 16384)
  else decide (1 ≤ (x.relMsgs + 16 - x.rcvMsgs).toNat ∧ (x.relMsgs + 16 - x.rcvMsgs).toNat ≤ 16)

/-- A frame of type `ty` is received, with what an accepted one does (R352). -/
def rxFrame (l : BitVec 5) (ty : Nat) (f : Frame) (accept : State → State) (s : State) : State :=
  let x := s.link l
  if !linkOn s l || !(x.st == .active || x.st == .config) || f.lane != x.rxLane then s
  else if !f.crcOk then crcFail l f.lane s
  else if !frameForm ty f || decide (x.maxLen < f.len.toNat) || (ty == 4 && !x.hasMark) then trailer l f (s.modLink l Link.nak)
  else if 0x80 ≤ ty then trailer l f (accept s)
  else if f.seq = x.expected then
    (if withinLimits x ty f then
      trailer l f (accept (s.modLink l (fun y => { y with expected := y.expected + 1, rxAny := true, nakOut := false, ackDue := true })))
    else crcFail l f.lane s)
  else if (x.expected - f.seq).toNat ≤ 2048 then trailer l f (s.modLink l (fun y => { y with ackDue := true }))
  else trailer l f (s.modLink l Link.nak)

/-! ## Received sectors (R357 to R361) -/

/-- User bytes of sector `k`, which begins at `base`, that the owner has consumed. -/
def secUsed (x : Link) (base : Nat) (k : Sector) : Nat := min k.bytes.length (x.cons - base)

/-- A sector known to be bad: what is not consumed is discarded, and its words return (R359). -/
def secBad (used : Nat) (k : Sector) : Sector := { k with bad := true, bytes := k.bytes.take used, tagged := false }

/-- Words a bad sector returns at once. -/
def secReturned (used : Nat) (k : Sector) : Nat := k.bytes.length / 8 - used / 8 + b2n k.tagged

/-- The open sectors that meet a test become bad, and closed if `close`, from position `base`: the sectors, how many became
bad, and the words returned. -/
def badOpen (p : Sector → Bool) (close : Bool) (x : Link) : Nat → List Sector → List Sector × Nat × Nat
  | _, [] => ([], 0, 0)
  | base, k :: r =>
    let (r', n, w) := badOpen p close x (base + secSpan k) r
    if k.isOpen && p k then
      (if k.bad then ({ k with isOpen := !close } :: r', n, w)
      else ({ secBad (secUsed x base k) k with isOpen := !close } :: r', n + 1, w + secReturned (secUsed x base k) k))
    else (k :: r', n, w)

/-- A sector of read `c` is over: the read expects the next LBA, or has ended. -/
def readStep (c : BitVec 16) (l : List ActRead) : List ActRead :=
  (l.map (fun r => if r.ctag = c then { r with lba := r.lba + 1, left := r.left - 1 } else r)).filter (fun r => r.left != 0)

/-- Open sectors that meet a test become bad; if they close, their reads go on. -/
def markBad (p : Sector → Bool) (close : Bool) (x : Link) : Link :=
  let (rx, n, w) := badOpen p close x x.basePos x.rx
  let cs := (x.rx.filter (fun k => k.isOpen && p k)).map Sector.ctag
  { x with rx := rx, tagCnt := satAdd x.tagCnt n, relWords := x.relWords + BitVec.ofNat 16 w,
           active := if close then foldS cs readStep x.active else x.active }

/-- Replace the open sector of read `c`. -/
def setOpen (c : BitVec 16) (f : Sector → Sector) (l : List Sector) : List Sector :=
  l.map (fun k => if k.isOpen && k.ctag == c then f k else k)

/-- User bytes and LAST reach the open sector of read `c`. -/
def fillOpen (c : BitVec 16) (b : List Byte) (last : Bool) (x : Link) : Link :=
  match x.rx.find? (fun k => k.isOpen && k.ctag == c) with
  | none => x
  | some k =>
    if k.bad then
      (let y := { x with relWords := x.relWords + BitVec.ofNat 16 (b.length / 8) }
       if last then { y with rx := setOpen c (fun q => { q with isOpen := false }) y.rx, active := readStep c y.active } else y)
    else
      let n := k.bytes.length + b.length
      let y := { x with rx := setOpen c (fun q => { q with bytes := q.bytes ++ b }) x.rx }
      if k.size < n ∨ (last ∧ n ≠ k.size) then markBad (fun q => q.ctag == c) last y
      else if last then { y with rx := setOpen c (fun q => { q with isOpen := false }) y.rx, active := readStep c y.active }
      else y

/-- The next sector of read `r` opens: with its tag word, or bad without one (R359). -/
def openSector (r : ActRead) (tag : Option (List Byte)) (x : Link) : Link :=
  let good := match tag with
    | some w => leAt w 2 6 == r.lba.toNat && !bit (BitVec.ofNat 64 (leAt w 0 8)) 8
    | none => false
  let k : Sector := { ctag := r.ctag, lba := r.lba, size := r.size, tagged := good, bytes := [], isOpen := true, bad := !good }
  { x with rx := x.rx ++ [k], tagCnt := if good then x.tagCnt else satAdd x.tagCnt 1,
           relWords := if good then x.relWords else x.relWords + BitVec.ofNat 16 (b2n tag.isSome) }

/-- A STREAM_DATA frame whose CTAG names no active read is discarded (R359). -/
def dataStray (n : Nat) (x : Link) : Link :=
  { x with tagCnt := satAdd x.tagCnt 1, relWords := x.relWords + BitVec.ofNat 16 n }

/-- An accepted STREAM_DATA frame (R359, R363). -/
def rxDataLink (f : Frame) (x0 : Link) : Link :=
  let c : BitVec 16 := f.tinfo.truncate 16
  let first := bit f.tinfo 31
  let last := bit f.tinfo 30
  let n := f.len.toNat
  let x := { x0 with rcvWords := x0.rcvWords + BitVec.ofNat 16 n }
  let user := if first then (frameBytes f).drop 8 else (frameBytes f)
  let y := if first then markBad (fun _ => true) true x else x
  if !(x.active.any (fun r => r.ctag == c)) then dataStray n x
  else match y.active.find? (fun r => r.ctag == c) with
    | none => dataStray n y
    | some r =>
      let z := if first then openSector r (some (slice (frameBytes f) 0 8)) y
               else if y.rx.any (fun k => k.isOpen && k.ctag == c) then y
               else openSector r none y
      fillOpen c user last { z with rcvd := z.rcvd + BitVec.ofNat 32 user.length }

/-- Data ready: at the rise to RDY_LVL, or at every accepted frame when it is 0 (R367). -/
def dataReady (l : BitVec 5) (s : State) : State :=
  let x := s.link l
  let now := rdyNow s l.toNat x
  let lvl0 := fld (s.reg (.rxCfg l.toNat)) 8 8 = 0
  let t := s.modLink l (fun y => { y with rdy := now })
  if lvl0 ∨ (now ∧ !x.rdy) then emitUp [160 + l.toNat] t else t

/-- User bytes of a STREAM_DATA frame. -/
def userBytes (f : Frame) : Nat := 8 * f.len.toNat - (if bit f.tinfo 31 then 8 else 0)

/-- STREAM_DATA from the die (R359, R363). -/
def execStreamData (l : BitVec 5) (f : Frame) (s : State) : Host.Outcome State Fault Refusal :=
  act s (rxFrame l 0x01 f (fun t => dataReady l (tmAdd 22 (userBytes f) (t.modLink l (rxDataLink f)))) s)

/-- An entry enters the status queue (R361, R367). -/
def stqPush (l : BitVec 5) (e : StqEntry) (s : State) : State :=
  emitUp [160 + l.toNat] (s.modLink l (fun x => { x with stq := x.stq ++ [e], rcvMsgs := x.rcvMsgs + 1 }))

/-- The open sector of read `c` has all its bytes and waits only for LAST: it is over. -/
def closeWhole (c : BitVec 16) (x : Link) : Link :=
  let whole (k : Sector) : Bool := k.isOpen && k.ctag == c && !k.bad && k.bytes.length == k.size
  if x.rx.any whole then
    { x with rx := x.rx.map (fun k => if whole k then { k with isOpen := false } else k), active := readStep c x.active }
  else x

/-- The sectors of a read that miss bytes are bad: the open one, and each that has not begun (R359). -/
def retireRead (c : BitVec 16) (x : Link) : Link :=
  let y := markBad (fun k => k.ctag == c) true (closeWhole c x)
  match y.active.find? (fun r => r.ctag == c) with
  | none => y
  | some r =>
    let miss : List Sector := (upTo r.left).map (fun i =>
      { ctag := c, lba := r.lba + BitVec.ofNat 48 i, size := r.size, tagged := false, bytes := [], isOpen := false, bad := true })
    { y with rx := y.rx ++ miss, tagCnt := satAdd y.tagCnt r.left, active := y.active.filter (fun q => q.ctag != c) }

/-- Words of 32 bits of a payload. -/
def words32 (b : List Byte) (n : Nat) : List Word := (upTo n).map (fun i => BitVec.ofNat 32 (leAt b (4 * i) 4))

/-- STREAM_STATUS from the die (R357, R359, R361). -/
def execStreamStatus (l : BitVec 5) (f : Frame) (s : State) : Host.Outcome State Fault Refusal :=
  act s (rxFrame l 0x03 f (fun t =>
    let c : BitVec 16 := f.tinfo.truncate 16
    let u := t.modLink l (fun x => let y := retireRead c x; { y with rdy := y.rdy && rdyNow t l.toNat y })
    stqPush l { mark := false, code := BitVec.ofNat 8 (byteAt (frameBytes f) 0), ctag := c, rcvd := (u.link l).rcvd, words := words32 (frameBytes f) 8 } u) s)

/-- MARK from the die (R361, Table 9-13). -/
def execMark (l : BitVec 5) (f : Frame) (s : State) : Host.Outcome State Fault Refusal :=
  act s (rxFrame l 0x04 f (fun t =>
    stqPush l { mark := true, code := 0, ctag := f.tinfo.truncate 16, rcvd := (t.link l).rcvd,
                words := [BitVec.ofNat 32 (fld f.tinfo 16 16)] } t) s)

/-- ACK: its trailer is all it carries (R352). -/
def execAck (l : BitVec 5) (f : Frame) (s : State) : Host.Outcome State Fault Refusal := act s (rxFrame l 0x80 f (fun t => t) s)

/-- CREDIT: the die's cumulative limits (R355). -/
def execCredit (l : BitVec 5) (f : Frame) (s : State) : Host.Outcome State Fault Refusal :=
  act s (rxFrame l 0x81 f (fun t =>
    configDone l (t.modLink l (fun x => { x with
      dataLim := BitVec.ofNat 16 (fld f.tinfo 16 16), msgLim := BitVec.ofNat 8 (fld f.tinfo 8 8), credRx := true }))) s)

/-- CAP in CONFIG: the lower MINOR, the lower MAXLEN and the AND of FEAT, or FAILED with cause 3 (R373). -/
def capTake (l : BitVec 5) (f : Frame) (s : State) : State :=
  let b := (frameBytes f)
  let major := byteAt b 7
  let minor := byteAt b 6
  let ml := byteAt b 5
  let v11 := fld (s.reg (.linkCtrl l.toNat)) 28 2 = 1
  if (s.link l).st ≠ .config then s
  else if major ≠ 1 ∨ minor < 1 ∨ ml < 16 then linkFail l 3 s
  else
    configDone l (s.modLink l (fun x => { x with
      ver := BitVec.ofNat 4 (min minor (if v11 then 1 else 2)), maxLen := min ml (if v11 then 16 else 32),
      feat := if v11 then 0 else BitVec.ofNat 2 (byteAt b 4), capRx := true }))

/-- CAP from the die (R373). -/
def execCap (l : BitVec 5) (f : Frame) (s : State) : Host.Outcome State Fault Refusal := act s (rxFrame l 0x82 f (capTake l f) s)

/-- The replay timeout passes without an advance of ACK_SEQ (R353). -/
def execLinkReplayTimeout (l : BitVec 5) (s : State) : Host.Outcome State Fault Refusal :=
  act s (
    let x := s.link l
    if linkOn s l && x.st == .active && !x.replayBuf.isEmpty &&
        decide (fld (s.reg (.linkCtrl l.toNat)) 8 8 * 160 ≤ (s.now - x.ackAdvAt).toNat) then linkReplay l s
    else s)

/-- An ACK control frame goes out for what has been accepted (R352). -/
def execAckFrameSend (l : BitVec 5) (s : State) : Host.Outcome State Fault Refusal :=
  act s (
    if linkOn s l && ((s.link l).st == .active || (s.link l).st == .config) then
      s.modLink l (fun x => { x with ackDue := false })
    else s)

/-! ## Registers (Tables 9-9 to 9-13) -/

/-- Training state codes (Table 9-2). -/
def LinkSt.code : LinkSt → Nat
  | .disabled => 0 | .detect => 1 | .train => 2 | .config => 3 | .active => 4 | .recovery => 5 | .failed => 6

/-- LINK_STATUS (Table 9-10). -/
def linkWord (x : Link) : Word :=
  packW [(28, x.st.code), (24, if x.st = .config then 0 else x.ver.toNat), (23, b2n x.txLane), (22, b2n x.rxLane),
    (21, b2n (x.txBad &&& laneBit (!x.txLane) == 0)), (20, b2n (x.rxBad &&& laneBit (!x.rxLane) == 0)), (16, x.failCause.toNat),
    (0, x.retrainCnt.toNat)]

/-- ERR_CNT (Table 9-12), whose fields a read clears. -/
def slErrWord (x : Link) : Word :=
  packW [(24, x.crcCnt.toNat), (16, x.nakCnt.toNat), (8, x.replayCnt.toNat), (0, x.tagCnt.toNat)]

/-- LINK_CTRL takes effect: EN starts or stops the link, RETRAIN returns it to DETECT (R346, Table 9-9). -/
def linkCtrlTo (l : BitVec 5) (en retrain : Bool) (s : State) : State :=
  s.modLink l (fun x =>
    if !en then x.toDisabled
    else if x.st = .disabled then x.toDetect
    else if retrain ∧ (x.st = .failed ∨ x.st = .active ∨ x.st = .recovery) then x.toDetect
    else x)

/-- The link's owner is busy (R368, R369). -/
def ownerBusy (s : State) (l : Nat) : Bool :=
  let r := s.reg (.rxCfg l)
  let st := (s.chan (BitVec.ofNat 12 (fld r 16 12))).st
  bit r 31 && (st == .running || st == .waiting || st == .paused || st == .draining)

/-- FLUSH (R368): none answers SLVERR. -/
def linkFlush (l : BitVec 5) (s : State) : Option State :=
  if ownerBusy s l.toNat then none
  else some (s.modLink l (fun x =>
    let p := x.basePos + (x.rx.map secSpan).sum
    let y := { x with relWords := x.relWords + BitVec.ofNat 16 x.held, relMsgs := x.relMsgs + BitVec.ofNat 8 x.stq.length, rx := [],
                      basePos := p, cons := p, rel := p, active := [], stq := [] }
    { y with rdy := rdyNow s l.toNat y }))

/-- A write of RX_CFG is refused (R369, R377). -/
def rxCfgRefused (s : State) (l : Nat) (v : Word) : Bool :=
  let o := s.reg (.rxCfg l)
  ((bit v 31 != bit o 31 || fld v 16 12 != fld o 16 12) && ownerBusy s l) ||
  (bit v 0 != bit o 0 && !(s.link (BitVec.ofNat 5 l)).active.isEmpty)

/-- A read of STQ_HDR pops the oldest entry and returns its credit (R378). -/
def stqPop (l : BitVec 5) (s : State) : Word × State :=
  match (s.link l).stq with
  | [] => (0, s)
  | e :: r =>
    (packW [(31, 1), (30, b2n e.mark), (16, e.code.toNat), (0, e.ctag.toNat)],
     s.modLink l (fun x => { x with stq := r, stqPos := e.rcvd, stqData := e.words, relMsgs := x.relMsgs + 1 }))

end Sys2Proof.Machine
end

