-- ==== Sys2Proof/Machine/TimeBase.lean ====
section
/-! DEFINITION. TimeBase: strobes and lock (R283 to R292), epoch boundaries (R294, R295), the comparator pool and its
faults, and the software comparators (R296 to R315). -/

namespace Sys2Proof.Machine

/-- Change the time base. -/
def State.modTbs (s : State) (f : Tbs → Tbs) : State := { s with tbs := f s.tbs }

/-- TBS works: ON, and held by no fault source (R475). -/
def tbsUp (s : State) : Bool := s.domOn 1 && !domHeld s 1

/-- TB_CFG.MODE in force: 1 is SYNTH. -/
def tbSynth (s : State) : Bool := bit (s.app .tbCfg) 31

/-- TB_CFG.TOL. -/
def tbTol (s : State) : Nat := fld (s.app .tbCfg) 0 8

/-- A tolerance failure (FS251). -/
def tbiFail (s : State) : State := assertFault 251 (faultOf 5 0) s

/-! ## Epoch boundaries (R294) -/

/-- TMO's time has passed since PENDING, so that the commit takes no boundary any more (R514). -/
def commitLate (s : State) : Bool :=
  s.stage.tmo != 0 && decide (2 ^ (s.stage.tmo.toNat - 1) * ticksMs < (s.projTime - s.stage.pendAt).toNat)

/-- Boundaries of several sources in one cycle: counted, emitted with the other producers `ps` of that cycle (R328). A commit that
waits for one of them takes the boundary, and the cycle's producers wait for it: they are judged against the sources it sets
(R510, Table 8-11). -/
def epochWith (ps ks : List Nat) (s : State) : State :=
  let s1 := s.modTbs (fun t => { t with epoch := foldS ks (fun k e => Tbl.put 0 e k (Tbl.get 0 e k + 1)) t.epoch })
  let out := ps ++ ks.map (fun k => 224 + k)
  if s.coreOn && s.stage.st == .pending && !s.stage.boundary && !commitLate s && ks.contains s.stage.src.toNat then
    { s1 with stage := { s1.stage with boundary := true, late := out, epochAt := (Tbl.get 0 s1.tbs.epoch s.stage.src.toNat).truncate 16 } }
  else emitUp out s1

/-- Boundaries of several sources in one cycle. -/
def epochBoundary (ks : List Nat) (s : State) : State := epochWith [] ks s

/-- The sources with a boundary at an accepted or synthetic strobe of wedge `w`: INDEX at an index, WEDGE_N by the wedge number. -/
def strobeEpochs (s : State) (w : Nat) (index : Bool) : List Nat :=
  (if index then [0] else []) ++ (if w % max 1 (fld (s.app .epCfg) 0 11) = 0 then [1] else [])

/-! ## Software comparators (R308, R309, Table 7-11) -/

/-- Comparator `n` is reserved for software (R308). -/
def scReserved (s : State) (n : Nat) : Bool := decide (64 - fld (s.app .scRsv) 0 6 ≤ n) && decide (n < 64)

/-- SC_ANCH(n). -/
def scAnchor (s : State) (n : Nat) : DWord :=
  BitVec.ofNat 64 ((s.reg (.scAnchHi n)).toNat * 2 ^ 32 + (s.reg (.scAnchLo n)).toNat)

/-- TBS writes a moved anchor (R299). -/
def scMove (n : Nat) (w : DWord) (s : State) : State :=
  (s.setReg (.scAnchLo n) (half w false)).setReg (.scAnchHi n) (half w true)

/-- What the fire of a software comparator does (R306, Table 8-4): one that meets CORE in an entry, or not ON, raises it
(Table 18-7). -/
def scFires (n : Nat) (s : State) : State :=
  let u := beginWake 2 3 (4096 + n) (s.modSc n (fun c => { c with arm := false, held := false, fired := true }))
  if u.coreOn then emitUp [192 + (n - 32)] u else emitAll [192 + (n - 32)] u

/-- A software comparator fires at its instant. -/
def scFire (n : Nat) (s : State) : State := scFires n (tmAdd 28 1 s)

/-- Judge the anchor of an armed software comparator (R297 to R300, Table 7-9). -/
def scJudge (n : Nat) (s : State) : State :=
  let c := s.sc n
  let j := judge s (scAnchor s n) c.angular c.policy
  let s1 := judgeCount j s
  match j with
  | .armed w _ l => (scMove n w s1).modSc n (fun x => { x with held := false, late := x.late || l })
  | .held => s1.modSc n (fun x => { x with held := true })
  | .fired => scFires n (s1.modSc n (fun x => { x with late := true }))
  | .drop | .trap _ => s1.modSc n (fun x => { x with arm := false, held := false, dropped := true })

/-- A software anchor is dropped (R311). -/
def scDrop (n : Nat) (s : State) : State :=
  s.modSc n (fun c => { c with arm := false, held := false, dropped := true })

/-- SC_CTRL(n) as read. -/
def scWord (s : State) (n : Nat) : Word :=
  let c := s.sc n
  packW [(31, b2n c.arm), (30, b2n c.angular), (28, c.policy.toNat), (3, b2n c.held), (2, b2n c.dropped), (1, b2n c.late),
    (0, b2n c.fired)]

/-- A write of SC_CTRL(n); none answers SLVERR (R309). -/
def scWrite (n : Nat) (v : Word) (s : State) : Option State :=
  let c := s.sc n
  if !scReserved s n || fld v 28 2 == 3 || (c.arm && bit v 31) then none
  else
    let c1 : SwCmp := { arm := bit v 31, angular := bit v 30, policy := BitVec.ofNat 2 (fld v 28 2), held := false,
                        dropped := c.dropped && !bit v 2, late := c.late && !bit v 1, fired := c.fired && !bit v 0 }
    let t := s.modSc n (fun _ => c1)
    some (if bit v 31 then scJudge n t else t)

/-! ## Lock (R288 to R292) -/

/-- Channels whose sparse context meets a test. -/
def chansWhere (s : State) (p : Chan → Bool) : List (BitVec 12) :=
  (s.chans.filter (fun q => p q.2)).map (fun q => BitVec.ofNat 12 q.1)

/-- Pairs that hold a channel whose anchor is no longer armed are free; a pair that disagreed keeps its channel for the
slow checker. -/
def sweepPairs (s : State) : State :=
  foldS s.tbs.pairs (fun p t =>
    match p.2.ch with
    | some c => if !(t.chan c).sched.armed && !p.2.dis then t.modPair p.1 (fun x => { x with ch := none }) else t
    | none => t) s

/-- Every angular anchor is held (R300). -/
def holdAngular (s : State) : State :=
  let s1 := foldS (chansWhere s (fun c => c.sched.armed && c.sched.angular)) (fun ch t =>
    t.modChan ch (fun c => { c with sched := { c.sched with armed := false, held := true } })) s
  let s2 := foldS (s1.tbs.sc.filter (fun q => q.2.arm && q.2.angular)) (fun q t => t.modSc q.1 (fun x => { x with held := true })) s1
  sweepPairs s2

/-- The held anchors are evaluated at an entry to LOCKED or SYNTH (R297). -/
def releaseHeld (s : State) : State :=
  let s1 := foldS (chansWhere s (fun c => c.sched.held && c.sched.angular)) rejudge s
  foldS (s1.tbs.sc.filter (fun q => q.2.arm && q.2.held)) (fun q t => scJudge q.1 t) s1

/-- Angular time `k` wedges after the last accepted strobe's, by prediction: a revolution begins at its predicted instant. -/
def wedgesOn (s : State) (k : Nat) : Tbs :=
  let t := s.tbs
  let n := max 1 s.wpr
  let tot := t.wedge + k
  if tot < n then { t with wedge := tot }
  else { t with wedge := tot % n, rev := t.rev + BitVec.ofNat 32 (tot / n),
                indexAt := t.lastStrobe - BitVec.ofNat 64 t.phase0.toNat + BitVec.ofNat 64 ((k - tot % n) * per16 s / 16) }

/-- Angular time is lost: the revolution number held, its index and REV_PERIOD are kept for R291. -/
def keepRev (s : State) : Tbs :=
  if noAngle s then s.tbs
  else
    let t := if s.tbs.lock = .holdover then wedgesOn s (phaseNow s * 16 / max 1 (per16 s)) else s.tbs
    { t with lastRev := t.rev, lastIndexAt := t.indexAt, lastPeriod := t.revPeriod, everLocked := true }

/-- Angular time becomes UNLOCKED (Table 7-3). -/
def unlock (s : State) : State :=
  let l := s.tbs.lock
  let had := l == .locked || l == .holdover || l == .synth
  if l = .unlocked then s
  else
    let s1 := s.modTbs (fun t => { keepRev s with lock := .unlocked, missed := 0, loss := t.loss || had })
    emitUp (if had then [228, 229] else [228]) (if had then holdAngular s1 else s1)

/-- Round(Δ/P) of R291; with no revolution measured before the loss the spec states no result, and it is a free value
(log entry 3). -/
def revsLost (s : State) : Nat × State :=
  let d := (s.now - s.tbs.lastIndexAt).toNat
  let p := s.tbs.lastPeriod.toNat
  if p = 0 then (let (f, t) := s.draw; (f.toNat % 2 ^ 32, t)) else ((2 * d + p) / (2 * p), s)

/-- The revolution number at an entry to LOCKED or SYNTH (R291): `first` at the first entry. -/
def entryRev (first : Nat) (s : State) : BitVec 32 × State :=
  if s.tbs.everLocked then
    (let (k, t) := revsLost s
     (s.tbs.lastRev + BitVec.ofNat 32 (max 1 k), t))
  else (BitVec.ofNat 32 first, s)

/-- Angular time enters LOCKED or SYNTH at wedge 0 with the given phase and the epoch boundaries `ks`, and the held anchors are
evaluated; the lock change is an event where the code changes (Table 7-5). -/
def enterLock (l : Lock) (first phase : Nat) (ks : List Nat) (s : State) : State :=
  let (r, s1) := entryRev first s
  let s2 := s1.modTbs (fun t => { t with
    lock := l, rev := r, wedge := 0, phase := BitVec.ofNat 22 phase, phase0 := BitVec.ofNat 22 phase, lastPhase := 0,
    lastStrobe := s1.now, indexAt := s1.now, missed := 0, everLocked := true,
    synthNext := s1.now + BitVec.ofNat 64 (fld (s1.app .synthPeriod) 0 22) })
  releaseHeld (epochWith (if s.tbs.lock = l then [] else [228]) ks s2)

/-- An applied COMMIT changed TB_CFG or TBS.SYNTH_PERIOD (Table 7-3, Table 7-13). -/
def tbReconfigured (s : State) : State :=
  if tbSynth s then enterLock .synth 0 0 [] ((holdAngular s).modTbs (fun _ => keepRev (holdAngular s))) else unlock s

/-- WEDGE_PERIOD of the last 8 intervals: their mean in 1/16 tick. -/
def meanPeriod (l : List Nat) : Word := if l.isEmpty then 0 else BitVec.ofNat 32 (l.sum * 16 / l.length)

/-- An accepted wedge interval of `d` ticks. -/
def addInterval (d : Nat) (t : Tbs) : Tbs :=
  let l := (d :: t.intervals).take 8
  { t with intervals := l, wedgePeriod := meanPeriod l }

/-- A strobe within the tolerance of the acquisition's mean (R289). -/
def acqAccepts (s : State) (d : Nat) : Bool :=
  let n := s.tbs.acqN
  n == 0 || decide (((if d * n < s.tbs.acqSum then s.tbs.acqSum - d * n else d * n - s.tbs.acqSum) * 256) ≤ tbTol s * s.tbs.acqSum)

/-- Ticks since the last accepted strobe. -/
def sinceStrobe (s : State) : Nat := (s.now - s.tbs.lastStrobe).toNat

/-- A strobe now is within the tolerance of its predicted instant, that of the wedge after the current one (R289). -/
def strobeAccepts (s : State) : Bool :=
  let d := 16 * sinceStrobe s
  let e := (s.tbs.missed.toNat + 1) * s.tbs.wedgePeriod.toNat
  decide ((if d < e then e - d else d - e) * 256 ≤ tbTol s * s.tbs.wedgePeriod.toNat)

/-- The phase at an accepted strobe (R283). -/
def strobePhase (phase : BitVec 16) : Nat := phase.toNat + 6

/-- Acquisition begins at an index: its strobe is the first of the revolution's accepted strobes (Tables 7-3 and 7-6). -/
def acqStart (s : State) : State :=
  epochWith [228] (strobeEpochs s 0 false) (s.modTbs (fun t => { t with
    lock := .acquiring, acqRevs := 0, acqStrobes := 1, acqSum := 0, acqN := 0, lastStrobe := s.now, indexAt := s.now }))

/-- A strobe in ACQUIRING (Table 7-3): one that keeps its place in the revolution is an accepted strobe of that wedge (Table 7-6,
log entry 37). -/
def acqStrobe (index : Bool) (phase : BitVec 16) (s : State) : State :=
  let d := sinceStrobe s
  let n := s.wpr
  if !acqAccepts s d then unlock (tbiFail s)
  else
    let s1 := s.modTbs (fun t => addInterval d { t with acqSum := t.acqSum + d, acqN := t.acqN + 1, lastStrobe := s.now })
    if index then
      (if s.tbs.acqStrobes ≠ n then unlock s1
      else
        let s2 := s1.modTbs (fun t => { t with
          acqRevs := t.acqRevs + 1, acqStrobes := 1, revPeriod := (s.now - t.indexAt).truncate 32, indexAt := s.now })
        if fld (s.app .tbCfg) 8 4 ≤ s2.tbs.acqRevs then
          enterLock .locked (fld (s.app .tbCfg) 8 4) (strobePhase phase) (strobeEpochs s 0 false) s2
        else epochBoundary (strobeEpochs s 0 false) s2)
    else if s.tbs.acqStrobes = n then unlock s1
    else epochBoundary (strobeEpochs s s.tbs.acqStrobes false) (s1.modTbs (fun t => { t with acqStrobes := t.acqStrobes + 1 }))

/-- A window of the tolerance ends without an accepted strobe: MISSED counts, angular time goes on by prediction (R292), and is
lost above HOLD_MAX (Table 7-3). -/
def missStrobe (s : State) : State :=
  let m := if s.tbs.lock = .locked then 1 else s.tbs.missed.toNat + 1
  let s1 := s.modTbs (fun t => { t with lock := .holdover, missed := BitVec.ofNat 8 m })
  if fld (s.app .tbCfg) 12 4 < m then unlock s1 else if s.tbs.lock = .locked then emitUp [228] s1 else s1

/-- An accepted strobe starts the next wedge, after those that HOLDOVER predicted; the wedge it ends is the last predicted one,
and a word beyond that wedge's end names this strobe (R283, R284, R286). -/
def acceptStrobe (index : Bool) (phase : BitVec 16) (s : State) : State :=
  let m := s.tbs.missed.toNat
  let b := wedgesOn s m
  let w := (b.wedge + 1) % max 1 s.wpr
  let d := sinceStrobe s
  let p := BitVec.ofNat 22 (strobePhase phase)
  let u := if m = 0 then addInterval d b else b
  let u1 : Tbs := { u with lock := .locked, missed := 0, wedge := w, lastPhase := BitVec.ofNat 22 (phaseNow s - m * per16 s / 16), phase := p, phase0 := p, lastStrobe := s.now }
  let s1 := s.modTbs (fun _ =>
    if w = 0 then { u1 with rev := b.rev + 1, revPeriod := (s.now - b.indexAt).truncate 32, indexAt := s.now } else u1)
  let s2 := if w = 0 ∧ !index then tbiFail s1 else s1
  epochWith (if s.tbs.lock = .locked then [] else [228]) (strobeEpochs s2 w index) s2

/-- The wedge whose strobe is predicted next. -/
def wedgeNext (s : State) : Nat := (s.tbs.wedge + s.tbs.missed.toNat + 1) % max 1 s.wpr

/-- A strobe in LOCKED or HOLDOVER (R284, R289, Table 7-3). -/
def lockedStrobe (index : Bool) (phase : BitVec 16) (s : State) : State :=
  if !strobeAccepts s then tbiFail s
  else if index ∧ wedgeNext s ≠ 0 then (if s.tbs.lock = .locked then missStrobe s else s)
  else acceptStrobe index phase s

/-- A wedge strobe is sampled (R283, R284, R290). -/
def execWedgeStrobe (index : Bool) (phase : BitVec 16) (s : State) : Host.Outcome State Fault Refusal :=
  act s (
    if !tbsUp s then s
    else match s.tbs.lock with
      | .unlocked => if index && s.tbs.spin && !tbSynth s then acqStart s else s
      | .acquiring => acqStrobe index phase s
      | .locked | .holdover => lockedStrobe index phase s
      | .synth => s)

/-- An index without a strobe is ignored and counted as a tolerance failure (R284). -/
def execIndexWithoutStrobe (s : State) : Host.Outcome State Fault Refusal :=
  act s (if tbsUp s && !tbSynth s then tbiFail s else s)

/-- The tolerance window of the next wedge has ended (R289). -/
def windowOver (s : State) : Bool :=
  decide ((256 * (s.tbs.missed.toNat + 1) + tbTol s) * s.tbs.wedgePeriod.toNat < sinceStrobe s * 16 * 256)

/-- A tolerance window ends without an accepted strobe (Table 7-3). -/
def execToleranceWindowExpiry (s : State) : Host.Outcome State Fault Refusal :=
  act s (if tbsUp s && (s.tbs.lock == .locked || s.tbs.lock == .holdover) && windowOver s then missStrobe s else s)

/-- `tbi_spin_valid` changes: the level is sampled once per tick, and a change that is not held for 16 ticks is ignored
(Table 13-13, `spinTick`). -/
def execSpinValidChange (v : Bool) (s : State) : Host.Outcome State Fault Refusal :=
  act s (s.modTbs (fun x => { x with spinPin := v, spinTicks := if v = x.spinPin then x.spinTicks else 0 }))

/-- A change of `tbi_spin_valid` that stood for 16 ticks: SPIN shows it, and a low level unlocks (Table 7-3); in SYNTH angular
time ignores it. -/
def spinTo (v : Bool) (s : State) : State :=
  let t := s.modTbs (fun x => { x with spin := v, spinTicks := 0 })
  if tbsUp s && !v && t.tbs.lock != .synth then unlock t else t

/-- TBS samples `tbi_spin_valid` once in the tick (R493, Table 13-13). -/
def spinTick (s : State) : State :=
  let b := s.tbs
  if b.spinPin = b.spin then s
  else if b.spinTicks + 1 < 16 then s.modTbs (fun x => { x with spinTicks := x.spinTicks + 1 })
  else spinTo b.spinPin s

/-- A synthetic strobe, every PERIOD ticks (R290). -/
def execSynthStrobe (s : State) : Host.Outcome State Fault Refusal :=
  act s (
    if tbsUp s && s.tbs.lock == .synth && decide (s.tbs.synthNext.toNat ≤ s.now.toNat) then
      (let w := (s.tbs.wedge + 1) % max 1 s.wpr
       let p := BitVec.ofNat 64 (fld (s.app .synthPeriod) 0 22)
       let t := s.modTbs (fun x =>
         let y := { x with wedge := w, lastPhase := x.phase, phase := 0, phase0 := 0, synthNext := x.synthNext + p, lastStrobe := s.now,
                           wedgePeriod := BitVec.ofNat 32 (p.toNat * 16) }
         if w = 0 then { y with rev := x.rev + 1, revPeriod := (s.now - x.indexAt).truncate 32, indexAt := s.now } else y)
       epochBoundary (strobeEpochs t w (w = 0)) t)
    else s)

/-- A TIME_N boundary: tick time is a multiple of 1,600 × TIME_N (Table 7-6). -/
def execEpochTimeN (s : State) : Host.Outcome State Fault Refusal :=
  act s (if tbsUp s && s.now.toNat % (ticksUs * max 1 (fld (s.app .epCfg) 16 16)) == 0 then epochBoundary [2] s else s)

/-! ## The pool (R302 to R306, R314, R570) -/

/-- Pairs that serve channel anchors: neither reserved nor cordoned, less one of the highest for each cordoned reserved
pair (R302, R314). -/
def poolPairs (s : State) : List Nat :=
  let n := 64 - fld (s.app .scRsv) 0 6
  let k := ((upTo 64).filter (fun i => decide (n ≤ i) && pairCordoned s i)).length
  let l := (upTo n).filter (fun i => !pairCordoned s i)
  l.take (l.length - k)

/-- Pool pairs that hold one anchor: two in unguarded operation (R570). -/
def pairsPer (s : State) : Nat := if s.fcr.unguarded then 2 else 1

/-- P, as TB_STAT.POOL shows it. -/
def poolSize (s : State) : Nat := (poolPairs s).length / pairsPer s

/-- The instant of a channel's anchor. -/
def chanInstant (s : State) (ch : BitVec 12) : Int :=
  let d := (s.chan ch).sched
  instantOf s d.anchor d.angular

/-- The instant of a channel's anchor lies `d` ticks or more before now. -/
def chanPast (s : State) (ch : BitVec 12) (d : Int) : Bool :=
  let c := (s.chan ch).sched
  anchorPast s c.anchor c.angular d

/-- Insert a channel by instant, ties in the order of insertion. -/
def insInstant (x : Int × BitVec 12) : List (Int × BitVec 12) → List (Int × BitVec 12)
  | [] => [x]
  | y :: r => if x.1 < y.1 then x :: y :: r else y :: insInstant x r

/-- A pair that disagreed, or waits for its reload, keeps its anchor out of the calendar. -/
def pairBusy (s : State) (n : Nat) : Bool := (s.pair n).dis || s.tbs.reload.contains n

/-- The calendar: armed channel anchors in the order of their instants (R302). -/
def calendar (s : State) : List (BitVec 12) :=
  let away := (s.tbs.pairs.filter (fun p => p.2.dis || s.tbs.reload.contains p.1)).filterMap (fun p => p.2.ch)
  ((chansWhere s (fun c => c.sched.armed)).foldl (fun l ch =>
    if away.contains ch then l else insInstant (chanInstant s ch, ch) l) []).map Prod.snd

/-- Pairs that hold a channel's anchor. -/
def pairsOf (s : State) (ch : BitVec 12) : Nat := (s.tbs.pairs.filter (fun p => p.2.ch == some ch)).length

/-- Load one anchor into free pool pairs until it stands in as many as it takes: one, or two in unguarded operation (R570). An
anchor that no pair held and whose instant has passed meets its late policy (R305). -/
def loadAnchor (ch : BitVec 12) (s : State) : State :=
  if pairsOf s ch = 0 ∧ chanPast s ch 1 then
    sweepPairs (rejudge ch (emitUp [232] (s.modTbs (fun t => { t with crowd := true }))))
  else
    let free := ((poolPairs s).filter (fun n => (s.pair n).ch.isNone && !pairBusy s n)).take (pairsPer s - pairsOf s ch)
    foldS free (fun n t => t.modPair n (fun p => { p with ch := some ch, loadedAt := s.now })) s

/-- The P earliest channel anchors stand in the pool's pairs (R302, R303). -/
def poolLoad (s : State) : State :=
  let want := (calendar s).take (poolSize s)
  let s1 := foldS s.tbs.pairs (fun p t =>
    match p.2.ch with
    | some c => if want.contains c || pairBusy s p.1 then t else t.modPair p.1 (fun x => { x with ch := none })
    | none => t) s
  foldS want loadAnchor s1

/-- TBS loads the pool (R303). -/
def execPoolLoad (s : State) : Host.Outcome State Fault Refusal := act s (if tbsUp s then poolLoad s else s)

/-- A channel's anchor fires; a fire that meets CORE in an entry, or not ON, raises it (R306, Table 18-7). -/
def anchorFires (ch : BitVec 12) (s : State) : State := fireChan ch (beginWake 2 3 ch.toNat s)

/-- An anchor is within 2 ticks of its instant (R304). -/
def onTime (s : State) (w : DWord) (ang : Bool) : Bool := anchorPast s w ang (-2) && !anchorPast s w ang 3

/-- Comparator pair `n` fires, within 2 ticks of the instant (R304, R306). -/
def execAnchorFire (n : BitVec 6) (s : State) : Host.Outcome State Fault Refusal :=
  act s (
    let k := n.toNat
    if !tbsUp s || pairBusy s k then s
    else if scReserved s k then
      (let c := s.sc k
       if c.arm && !c.held && onTime s (scAnchor s k) c.angular then scFire k s else s)
    else match (s.pair k).ch with
      | some ch =>
        let d := (s.chan ch).sched
        if d.armed && onTime s d.anchor d.angular then anchorFires ch s else s
      | none => s)

/-! ## Faults in the schedule path (R310 to R313) -/

/-- A parity error in one copy of a delay register: corrected from the other (R310). -/
def execDelayParityError (n : BitVec 6) (_shadow : Bool) (s : State) : Host.Outcome State Fault Refusal :=
  act s (if tbsUp s then assertFault (242 + n.toNat / 8) (faultOf 3 (n.toNat % 8)) s else s)

/-- Both copies are lost: the pair stops comparing until it is reloaded, which needs CORE: the loss raises it, or abandons its
entry (R33, R311, Table 18-7). -/
def execDelayRegisterLost (n : BitVec 6) (s : State) : Host.Outcome State Fault Refusal :=
  act s (
    if !tbsUp s then s
    else
      let k := n.toNat
      let s1 := s.modTbs (fun t => { t with dlyLost := true, reload := if t.reload.contains k then t.reload else t.reload ++ [k] })
      let s2 := assertFault (242 + k / 8) (faultOf 2 (k % 8)) (emitUp [231] s1)
      if scReserved s2 k then beginWake 2 3 (4096 + k) s2
      else match (s2.pair k).ch with
        | some ch => beginWake 2 3 ch.toNat s2
        | none => s2)

/-- The channel's authoritative copy is lost too: its work order ends with INTERNAL (R311). -/
def anchorLost (ch : BitVec 12) (s : State) : State :=
  let c := s.chan ch
  if c.inOrder then endInternalChan ch (disarm ch s)
  else match headEntry c with
    | some e => if c.sched.act = 1 then considerHead ch (completeUnstarted ch e 0x7F 0 s) else disarm ch s
    | none => disarm ch s

/-- The reload completes: the anchor is evaluated, or lost with its authoritative copy (R33, R297, R311). -/
def execDelayRegisterReload (n : BitVec 6) (authOk : Bool) (s : State) : Host.Outcome State Fault Refusal :=
  act s (
    let k := n.toNat
    if tbsUp s && s.coreOn && s.tbs.reload.contains k then
      (let s1 := s.modTbs (fun t => { t with reload := t.reload.filter (fun i => i != k) })
       if scReserved s k then
         (if (s.sc k).arm then (if authOk then scJudge k s1 else scDrop k s1) else s1)
       else match (s.pair k).ch with
         | some ch => sweepPairs (if authOk then rejudge ch s1 else anchorLost ch s1)
         | none => s1)
    else s)

/-- A pair disagrees: the action is held for the slow checker; in unguarded operation a channel anchor fires at the first
assertion and a software anchor is dropped (R312, R570). -/
def disagree (k : Nat) (s : State) : State :=
  let s1 := if s.fcr.unguarded then s else s.modPair k (fun p => { p with dis := true })
  let s2 := assertFault (234 + k / 8) (faultOf 9 (k % 8)) (emitUp [230] (s1.modTbs (fun t => { t with cmpDis := true })))
  if !s.fcr.unguarded then s2
  else if scReserved s k then (if (s.sc k).arm then scDrop k s2 else s2)
  else match (s.pair k).ch with
    | some ch => if (s.chan ch).sched.armed then anchorFires ch s2 else s2
    | none => s2

/-- Pair `k` holds an armed anchor. -/
def pairArmed (s : State) (k : Nat) : Bool :=
  if scReserved s k then (s.sc k).arm && !(s.sc k).held
  else match (s.pair k).ch with
    | some ch => (s.chan ch).sched.armed
    | none => false

/-- One comparator of a pair asserts without the other (R312). -/
def execComparatorDisagreement (n : BitVec 6) (s : State) : Host.Outcome State Fault Refusal :=
  act s (if tbsUp s && pairArmed s n.toNat && !pairBusy s n.toNat then disagree n.toNat s else s)

/-- The slow checker judges a held anchor again (R312): it is re-armed for another pair, or meets its policy. -/
def execSlowCheckReevaluation (n : BitVec 6) (s : State) : Host.Outcome State Fault Refusal :=
  act s (
    let k := n.toNat
    if tbsUp s && !s.fcr.unguarded && (s.pair k).dis then
      (let ch := (s.pair k).ch
       let s1 := s.modPair k (fun p => { p with dis := false, ch := none })
       if scReserved s k then (if (s.sc k).arm then scJudge k s1 else s1)
       else match ch with
         | some c => sweepPairs (rejudge c s1)
         | none => s1)
    else s)

/-- The instant of the anchor in pair `k` lies `d` ticks or more before now. -/
def pairPast (s : State) (k : Nat) (d : Int) : Bool :=
  if scReserved s k then anchorPast s (scAnchor s k) (s.sc k).angular d
  else match (s.pair k).ch with
    | some ch => chanPast s ch d
    | none => false

/-- The slow checker's sweep: an armed anchor more than 4 ticks past its instant is a disagreement (R313). -/
def execSlowCheckSweep (s : State) : Host.Outcome State Fault Refusal :=
  act s (
    if tbsUp s && !s.fcr.unguarded then
      foldS (upTo 64) (fun k t =>
        if pairArmed t k && !pairBusy t k && pairPast t k 5 then disagree k t else t) s
    else s)

end Sys2Proof.Machine
end

