-- ==== Sys2Proof/Machine/Power.lean ====
section
/-! DEFINITION. Power: entries, cuts, wakes, the Cloakroom, the alarm, the PMI and operating points (13, 18). -/

namespace Sys2Proof.Machine

/-! ## What keeps a domain ON (Table 18-5) -/

/-- Domains that need domain `d` ON (Table 18-2). -/
def dependents (d : Nat) : List Nat := (upTo 43).filter (fun k => (depsOf k).getLast? == some d)

/-- Domains of wing `w`'s galleries. -/
def wingGals (w : Nat) : List Nat := (upTo 8).map (fun k => 7 + 8 * w + k)

/-- The gallery or wing domains that a recovery's test involves (R587). -/
def recDoms (r : Recovery) : List Nat :=
  let n := r.src.val
  let gal (g : Nat) := [7 + g, 3 + g / 8]
  if n < 128 then gal (n % 32)
  else if 160 ≤ n ∧ n < 164 then (if r.inst.toNat < 8 then gal (8 * (n - 160) + r.inst.toNat) else [3 + (n - 160)])
  else if 164 ≤ n ∧ n < 168 then [3 + (n - 164)]
  else if 176 ≤ n ∧ n < 230 then (if r.inst.toNat < 4 then [3 + r.inst.toNat] else [])
  else if 234 ≤ n ∧ n < 250 then [1]
  else []

/-- A Docent test involves domain `d`. -/
def testInvolves (s : State) (d : Nat) : Bool :=
  (upTo 4).any (fun i => match docUnit s i with | some r => (recDoms r).contains d | none => false)

/-- A bank of gallery `g` loads or reloads. -/
def banksBusy (s : State) (g : Nat) : Bool :=
  let x := s.gal g
  [x.bankA.st, x.bankB.st].any (fun b => b == .loading || b == .reloading)

/-- The loader's targets include gallery `g` while a load runs (R526). -/
def loadInvolves (s : State) (g : Nat) : Bool := (s.loader.st == .verify || s.loader.st == .write) && bit s.loader.targets g

/-- An engine of gallery `g` holds a channel (R616). -/
def galWorks (s : State) (g : Nat) : Bool := (galEngs g).any (fun e => (s.eng e).phase != .idle)

/-- WQM and the hub have something outstanding for a channel, or it is ready. -/
def chanWorks (s : State) (ch : BitVec 12) : Bool :=
  let c := s.chan ch
  !c.fet.isEmpty || !c.rel.isEmpty || c.mirPend || ready s ch ||
    s.txns.any (fun t => match t.purpose with | .release x | .haltNotice x | .mirror x => x == ch | _ => false)

/-- A commit is under way (R515). -/
def commitOpen (s : State) : Bool := s.stage.st == .checking || s.stage.st == .pending

/-- R32: an armed comparator or anchor, or a committed set that waits. -/
def schedHolds (s : State) : Bool :=
  s.tbs.sc.any (fun p => p.2.arm) || s.chans.any (fun p => p.2.sched.armed || p.2.sched.held) || commitOpen s

/-- R324: a request line awaits its acknowledge, or a handshake is open. -/
def rqHolds (s : State) : Bool := s.evc.rq.any (fun p => p.2.outst || (rqMode s p.1 == 3 && p.2.ack))

/-- Links of SLG domain 39 + k. -/
def slgLinks (k : Nat) : List Nat := (upTo 8).map (fun i => 8 * k + i)

/-- State entered after idleness: IDLE_ST. -/
def idleTarget (s : State) (d : Nat) : Option DomSt :=
  match fld (s.app (.pol d)) 30 2 with | 1 => some .ret | 2 => some .off | _ => none

/-- CHAN of Table 18-5: only for a request or policy of OFF. -/
def chanHolds (s : State) (d : Nat) : Bool :=
  d == 2 && (leaveAsked s d == some .off || idleTarget s d == some .off) && s.chans.any (fun p => p.2.st != .free)

/-- The conditions of Table 18-5 that hold for domain `d`, as (WHY bit, holds). -/
def whyList (s : State) (d : Nat) : List (Nat × Bool) :=
  let dep := (dependents d).any (fun k => (s.dom k).st == .on)
  let rx := decide (39 ≤ d) && (slgLinks (d - 39)).any (fun l => (s.link (BitVec.ofNat 5 l)).held != 0)
  let work := if 7 ≤ d ∧ d ≤ 38 then galWorks s (d - 7)
    else if d = 2 then s.chanKeys.any (chanWorks s) || s.sbp.active
    else if 39 ≤ d then (slgLinks (d - 39)).any (fun l =>
      let r := s.reg (.rxCfg l)
      let st := (s.chan (BitVec.ofNat 12 (fld r 16 12))).st
      bit r 31 && (st == .running || st == .waiting || st == .paused))
    else false
  let doc := if 7 ≤ d ∧ d ≤ 38 then testInvolves s d || banksBusy s (d - 7) || loadInvolves s (d - 7)
    else if 3 ≤ d ∧ d ≤ 6 then testInvolves s d || (upTo 8).any (fun k => banksBusy s (8 * (d - 3) + k) || loadInvolves s (8 * (d - 3) + k))
    else false
  [(7, dep), (6, rx), (5, (d == 1 && schedHolds s) || (d == 2 && commitOpen s)), (4, d == 2 && rqHolds s), (3, work), (2, doc),
   (1, chanHolds s d), (0, domHeld s d)]

/-- WHY of DOM_STAT. -/
def whyWord (s : State) (d : Nat) : Nat := ((whyList s d).map (fun p => b2n p.2 * 2 ^ p.1)).sum

/-- A condition other than CHAN keeps the domain ON (R611), or a domain that needs it is waking (R608). -/
def staysOn (s : State) (d : Nat) : Bool :=
  (whyList s d).any (fun p => p.2 && p.1 != 1) || (dependents d).any (fun k => (s.dom k).waking)

/-- Only WORK holds (R612). -/
def onlyWork (s : State) (d : Nat) : Bool := (whyList s d).all (fun p => !p.2 || p.1 == 3 || p.1 == 1)

/-- PEND: a request to leave ON waits for a condition, or for the drain of a gallery that works (R612). -/
def pendOf (s : State) (d : Nat) : Bool :=
  let x := s.dom d
  x.st == .on && (leaveAsked s d).isSome &&
    ((x.step == .none && staysOn s d) || (x.step == .drain && decide (7 ≤ d) && decide (d ≤ 38) && galWorks s (d - 7)))

/-! ## Leaving ON (R611 to R617) -/

/-- Domain `d` closes toward a state; a wing writes back and evicts its slice and discards its entry cache (R613, R617). A
request for OFF that finds a channel not FREE takes CORE to RET (R610). -/
def enterDom (d : Nat) (t : DomSt) (s : State) : State :=
  let t1 := if d = 2 ∧ t = .off ∧ s.chans.any (fun p => p.2.st != .free) then DomSt.ret else t
  let s1 := s.modDom d (fun x => { x with step := .drain, polAt := s.app (.pol d), target := t1, abort := false, abortWhy := none })
  if 3 ≤ d ∧ d ≤ 6 then
    foldS (cacheChans s1 (d - 3)) (fun ch u => touch ch (discardEntries ch u))
      (foldS (sliceLines s1 (d - 3)) (evictFrom (d - 3)) s1)
  else s1

/-- A request to leave ON is judged: it waits (`pendOf`), or the entry begins; a gallery held by WORK alone drains at once
(R612). -/
def requestLeave (d : Nat) (t : DomSt) (s : State) : State :=
  let x := s.dom d
  if x.st ≠ .on ∨ x.step ≠ .none then s
  else if !staysOn s d || (decide (7 ≤ d ∧ d ≤ 38) && onlyWork s d) then enterDom d t s
  else s

/-! ## Operating points (R630 to R632) -/

/-- Applied OPP of supply `x`. -/
def oppTarget (s : State) (x : Nat) : BitVec 3 := BitVec.ofNat 3 (fld (s.app (.oppR x)) 16 3)

/-- A domain that supply `x` feeds is ON. -/
def supFeeds (s : State) (x : Nat) : Bool := (domsOf x).any s.domOn

/-- ON galleries of the wing on supply `x` that its G4_MASK leaves out (R632). -/
def oppOutside (s : State) (x : Nat) : List Nat :=
  if x = 0 then [] else (upTo 8).filter (fun k => (s.dom (7 + 8 * (x - 1) + k)).st == .on && !bit (s.app (.oppR x)) (8 + k))

/-- Galleries outside G4_MASK close on an internal request, to the state their policy names, or RET (R632). -/
def closeOutside (x : Nat) (s : State) : State :=
  foldS (oppOutside s x) (fun k t =>
    let d := 7 + 8 * (x - 1) + k
    let tg := (idleTarget t d).getD .ret
    let u := t.modDom d (fun y => { y with leave := some tg })
    if (t.dom d).step = .none then requestLeave d tg u else u) s

/-- Those requests end where OPP4 is no longer the target (R632). -/
def dropLeaves (x : Nat) (s : State) : State :=
  if x = 0 ∨ 5 ≤ x ∨ oppTarget s x = 4 then s else foldS (upTo 8) (fun k t => t.modDom (7 + 8 * (x - 1) + k) (fun y => { y with leave := none })) s

/-- FCLK of supply `x` changes: its clock output is held stopped meanwhile (R475, R630); a supply with no domain ON has no
FCLK in force. -/
def freqChange (x : Nat) (s : State) : State :=
  if supFeeds s x then s.modSup x (fun p => { p with clkStop := true, busy := true, fTo := if p.v < oppTarget s x then p.v else oppTarget s x })
  else s.modSup x (fun p => { p with f := if p.v < oppTarget s x then p.v else oppTarget s x, busy := false })

/-- PCM heads for the applied OPP of supply `x`, one step at a time (R630). -/
def oppStep (x : Nat) (s0 : State) : State :=
  let s := dropLeaves x s0
  let p := s.sup x
  let t := oppTarget s x
  if 5 ≤ x ∨ p.vreq = 0 ∨ p.vtog ≠ p.vack ∨ p.clkStop ∨ p.raiseWait ∨ (domsOf x).any (fun d => (s.dom d).waking) then s
  else if p.v < t then
    (if t = 4 ∧ !(oppOutside s x).isEmpty then closeOutside x (s.modSup x (fun q => { q with busy := true, maskWait := true }))
    else supRequest x (t + 1) (s.modSup x (fun q => { q with busy := true, maskWait := false })))
  else if t < p.v then
    (if t < p.f ∧ supFeeds s x then freqChange x s
    else supRequest x (t + 1) (s.modSup x (fun q => { q with busy := true, maskWait := false, f := if t < q.f then t else q.f })))
  else if p.f ≠ t then freqChange x (s.modSup x (fun q => { q with maskWait := false }))
  else s.modSup x (fun q => { q with busy := false, maskWait := false })

/-- The clock stop of a frequency change ends with the frequency for which it began; AO latches of request lines taken meanwhile
yield their events, and what waited for CORE's clock is done (R630, R631). -/
def execOppClockRestart (sup : SupId) (s : State) : Host.Outcome State Fault Refusal :=
  act s (
    let x := sup.val
    if (s.sup x).clkStop then
      (let t := s.modSup x (fun p => { p with clkStop := false, f := p.fTo })
       let u := if x = 0 then wakeSamples (lateActions t) else t
       oppStep x u)
    else s)

/-- The 1 µs after a raised voltage's acknowledgement has passed (R630). -/
def execOppRaiseDelayExpiry (sup : SupId) (s : State) : Host.Outcome State Fault Refusal :=
  act s (
    let x := sup.val
    if (s.sup x).raiseWait then freqChange x (s.modSup x (fun p => { p with raiseWait := false })) else s)

/-! ## Entries (R611 to R618) -/

/-- A domain that stands idle, for CORE with a policy of OFF also without a channel that is not FREE: the IDLE_DLY timer of its policy expires, or a request that waited begins its entry
(R611, R612). -/
def execIdleDlyExpiry (dm : DomId) (s : State) : Host.Outcome State Fault Refusal :=
  act s (
    let d := dm.val
    let x := s.dom d
    if d = 0 ∨ x.st ≠ .on ∨ x.step ≠ .none ∨ s.boot.rstN ∨ !s.boot.ready then s
    else match leaveAsked s d with
      | some t => requestLeave d t s
      | none =>
        if fld (s.reg (.domCtrl d)) 30 2 = 1 ∨ staysOn s d ∨ chanHolds s d then s
        else match idleTarget s d with
          | some t => enterDom d t s
          | none => s)

/-- The transaction has crossed into the domain of its port: the port's arbiter has granted it, or it waits to be issued there
again. One that waits at that arbiter is held outside (R618). -/
def inside (t : Txn) : Bool := t.stage == .granted || t.stage == .sent || t.stage == .retry

/-- The domain's work is released, what it issued is answered, and so is what crossed its boundary before the close (R613, R616 to
R618); what CORE may leave open waits at the closed boundary of another domain, or at its own. -/
def drained (s : State) (d : Nat) : Bool :=
  if 7 ≤ d ∧ d ≤ 38 then
    !galWorks s (d - 7) && !s.txns.any (fun t => match t.gal with | some e => e.g.toNat == d - 7 | none => false)
  else if 3 ≤ d ∧ d ≤ 6 then
    !s.txns.any (fun t => t.wing == some (BitVec.ofNat 2 (d - 3)) || (inside t && decide (t.port.toNat < 8) && portDom t.port.toNat == d)) &&
      (sliceLines s (d - 3)).isEmpty
  else if d = 2 then
    s.txns.all (fun t => t.stage == .atPort && (t.wing.isSome || !domOpen s (portDom t.port.toNat))) &&
      !s.chanKeys.any (fun ch => !(s.chan ch).rel.isEmpty)
  else if 39 ≤ d then !s.txns.any (fun t => inside t && portDom t.port.toNat == d)
  else true

/-- The entry is abandoned at abort point `k`; what waited for the domain goes on (R614), CORE takes the latches of the
isolate step (R323), and a request that is still in force stands (R612, R632). -/
def abandonEntry (d k : Nat) (s0 : State) : State :=
  let s := s0.modDom d (fun x => { x with step := .none, target := .on, lastAbort := BitVec.ofNat 2 k, abort := false, abortWhy := none })
  let t := wakeAdvance (if d = 2 then wakeSamples s else s)
  if 7 ≤ d ∧ d ≤ 38 then oppStep (1 + (d - 7) / 8) t else t

/-- A wake, or a condition of Table 18-5, has reached the domain during its entry (R614). While a fault source holds the domain the
entry stays at its step, so no abort point comes (Table 18-12). -/
def abortDue (s : State) (d : Nat) : Bool :=
  (s.dom d).abort || staysOn s d || (d == 2 && (s.dom d).target == .off && s.chans.any (fun p => p.2.st != .free))

/-- The drain ends: abort point A, then the save for OFF, or for RET, which saves nothing, the isolation (R613). -/
def execDomainDrainComplete (dm : DomId) (s : State) : Host.Outcome State Fault Refusal :=
  act s (
    let d := dm.val
    let x := s.dom d
    if x.step = .drain ∧ !domHeld s d ∧ drained s d then
      (if abortDue s d then abandonEntry d 1 s
      else s.modDom d (fun y => { y with step := if y.target = .off then .save else .iso }))
    else s)

/-- A wake or condition takes effect at the next abort point (R614). After the drain of an entry to OFF that point is B or C,
which the spec leaves to the timing: a free value chooses (log entry 3). -/
def execEntryAbandon (dm : DomId) (s : State) : Host.Outcome State Fault Refusal :=
  act s (
    let d := dm.val
    if domHeld s d || !abortDue s d then s
    else match (s.dom d).step with
      | .drain => if drained s d then abandonEntry d 1 s else s
      | .save => (let (v, t) := s.draw; abandonEntry d (2 + v.toNat % 2) t)
      | .iso => abandonEntry d 3 s
      | _ => s)

/-! ## OFF and the Cloakroom (R606, R619, R620, Table 18-6) -/

/-- The RW registers that meet a test of their address return to their reset values. -/
def rwReset (p : Nat → Bool) (s : State) : State := { s with rw := Tbl.keep (fun a => !p a) s.rw, hold := Tbl.keep (fun a => !p a) s.hold }

/-- An address inside the block of an arbiter's ARB_PRIO words at base `b`. -/
def inPrio (b a : Nat) : Bool := decide (b + 0x28 ≤ a ∧ a < b + 0x38)

/-- Key of an arbiter whose state is that of a domain's unit: galleries, wings with their memory ports, links. -/
def arbDom (k : Nat) : Nat :=
  if k < 32 then 7 + k else if k < 36 then 3 + (k - 32) else if k < 72 then 3 + (k - 64) / 2 else if k < 96 then 2 else 39 + (k - 96) / 8

/-- Arbiters of domain `d` at their reset values; the cordons stay, for FCR keeps them. -/
def arbReset (d : Nat) (s : State) : State :=
  foldS s.arbs (fun p t => if arbDom p.1 = d then t.modArb p.1 (fun a => { ({} : Arb) with cordoned := a.cordoned }) else t) s

/-- Every staging copy equals its applied copy (R517). -/
def syncStaging (s : State) : State :=
  { s with stage := { s.stage with
    stg := s.stage.app, sect := 0, lock := 0, st := .idle, stage := false, denied := false, src := 0, reason := 0, seq := 0, sets := 0,
    epoch := 0, tmo := 0, boundary := false, late := [], epochAt := 0 } }

/-- What CORE loses in OFF beyond its save list (R342, Table 18-6). -/
def coreLoss (s : State) : State :=
  let t := arbReset 2 (syncStaging s)
  let e := t.evc
  { t with
    chans := [], wins := (t.wins.map (fun p => (p.1, { ({} : CatWin) with sel := p.2.sel }))).filter (fun p => p.2 != {}), keys := [], keyWins := [], dsp := [], hold := [], sbp := { stretch := t.sbp.stretch }, loader := {},
    ports := Tbl.keep (fun p => decide (p < 8)) t.ports,
    mst := { ({} : Mst) with aoDisc := t.mst.aoDisc },
    fcr := { t.fcr with injBusy := false, repeating := [] },
    evc := { rq := e.rq.map (fun p => (p.1, { ({} : RqLine) with req := p.2.req, last := p.2.last, latch := p.2.latch, lost := p.2.lost })) |>.filter (fun p => p.2 != {}),
             subs := e.subs.map (fun p => (p.1, { p.2 with pend := false, ovr := false })) } }

/-- What an engine slot keeps in OFF: its Glovebox. -/
def engLoss (x : Engine) : Engine := { gb := x.gb, gbValid := x.gbValid, gbOvf := x.gbOvf, gbCh := x.gbCh }

/-- An address in the block of gallery `g`. -/
def inGal (g a : Nat) : Bool := decide (0xA0000 + 0x1000 * g ≤ a ∧ a < 0xA1000 + 0x1000 * g)

/-- What gallery `g` loses in OFF: of its RW registers all but ARB_PRIO. -/
def galLoss (g : Nat) (s : State) : State :=
  let t := foldS (galEngs g) (fun e u => u.setEng e (engLoss (u.eng e))) (arbReset (7 + g) s)
  (rwReset (fun a => inGal g a && !inPrio (0xA0000 + 0x1000 * g) a) t).modGal g (fun x => { x with snap := [], bankA := { x.bankA with words := [], corr := 0 }, bankB := { x.bankB with words := [], corr := 0 } })

/-- What a link keeps in OFF. -/
def linkLoss (x : Link) : Link :=
  { retrainCnt := x.retrainCnt, crcCnt := x.crcCnt, nakCnt := x.nakCnt, replayCnt := x.replayCnt, tagCnt := x.tagCnt, stq := x.stq }

/-- What FCR holds of a comparator pair: its cordon, and when both delay copies were last lost. -/
def pairsKept (t : Tbs) : Tbl Pair :=
  (t.pairs.map (fun p => (p.1, { ({} : Pair) with cordoned := p.2.cordoned, lostAt := p.2.lostAt }))).filter (fun p => p.2 != {})

/-- What TBS keeps in OFF (Table 18-6): of the comparators, the reserved ones. -/
def tbsLoss (s : State) : State :=
  let out (a : Nat) : Bool := decide (0x8400 ≤ a ∧ a < 0x8600) && !scReserved s (32 + (a - 0x8400) / 16)
  (rwReset out s).modTbs (fun t =>
    { time := t.time, spin := t.spin, spinPin := t.spinPin, everLocked := t.everLocked, lastRev := t.lastRev, lastIndexAt := t.lastIndexAt, lastPeriod := t.lastPeriod,
      revPeriod := t.revPeriod, epoch := t.epoch, sc := Tbl.keep (scReserved s) t.sc, pairs := pairsKept t })

/-- What domain `d` loses when its switches open (R606). -/
def offLoss (d : Nat) (s : State) : State :=
  if d = 1 then tbsLoss s
  else if d = 2 then coreLoss s
  else if 3 ≤ d ∧ d ≤ 6 then arbReset d s
  else if 7 ≤ d ∧ d ≤ 38 then galLoss (d - 7) s
  else if 39 ≤ d then
    foldS (slgLinks (d - 39)) (fun l t => rwReset (inPrio (0x12000 + 0x100 * l)) (t.modLink (BitVec.ofNat 5 l) linkLoss)) (arbReset d s)
  else s

/-- The saved items take their reset values: the region is not valid, or not readable (R620). CORE's are those of FCR and Docent
too, with every cordon that FCR keeps. -/
def savedReset (d : Nat) (s : State) : State :=
  if d = 1 then
    (rwReset (fun a => decide (0x8000 ≤ a ∧ a < 0x9000)) s).modTbs (fun t => { ({} : Tbs) with time := t.time, spin := t.spin, spinPin := t.spinPin, pairs := pairsKept t })
  else if d = 2 then
    let t := rwReset (fun a => decide (a < 0x1000 ∨ (0x2000 ≤ a ∧ a < 0x8000) ∨ (0x9000 ≤ a ∧ a < 0xE000) ∨ (0x10800 ≤ a ∧ a < 0x12000) ∨ (0x80000 ≤ a ∧ a < 0x90000))) s
    { t with stage := {}, wins := [], evc := { rq := t.evc.rq }, fcr := { asserted := t.fcr.asserted, stuck := t.fcr.stuck, unguarded := t.fcr.unguarded },
             doc := { lockOk := !t.fcr.unguarded },
             gals := t.gals.map (fun p => (p.1, { p.2 with bankA := {}, bankB := {}, cordonedBy := [], pipe0 := false, pipe1 := false, rotDue := false,
                                                           rotLast := 0, rotFirst := true }))
               |>.filter (fun p => p.2 != {}),
             arbs := t.arbs.map (fun p => (p.1, { p.2 with cordoned := [] })) |>.filter (fun p => p.2 != {}), sliceCord := [],
             tbs := { t.tbs with pairs := t.tbs.pairs.map (fun p => (p.1, { p.2 with cordoned := false, lostAt := none })) |>.filter (fun p => p.2 != {}) } }
  else if 3 ≤ d ∧ d ≤ 6 then
    let w := d - 3
    let t := rwReset (fun a => inPrio (0x14000 + 0x100 * w) a || decide (0x10000 + 0x200 * w ≤ a ∧ a < 0x10200 + 0x200 * w)) s
    { t with ports := Tbl.keep (fun p => decide (p / 2 ≠ w ∨ 8 ≤ p)) t.ports }
  else if 7 ≤ d ∧ d ≤ 38 then
    let g := d - 7
    let t := foldS (galEngs g) (fun e u => (u.setEng e {}).modSlot e (fun x => { slotRst (engIdx e) with wear := x.wear })) s
    (rwReset (inGal g) t).modGal g (fun x =>
      { x with act := false, bankA := {}, bankB := {}, rotDue := false, rotOut := none, rotIn := none, retiring := [] })
  else if 39 ≤ d then
    foldS (slgLinks (d - 39)) (fun l t =>
      rwReset (fun a => decide (0x12000 + 0x100 * l ≤ a ∧ a < 0x12100 + 0x100 * l)) (t.setLink (BitVec.ofNat 5 l) {})) s
  else s

/-! ## Cuts and wakes -/

/-- TBS leaves ON: PCM saves the tick count, and angular time is lost (R281, R607). -/
def tbsLeaves (s : State) : State :=
  { s with tbs := { keepRev s with lock := .unlocked, missed := 0 }, pcm := { s.pcm with savedTick := s.tbs.time, aclk := 0 } }

/-- The links of an SLG domain that leaves ON are DISABLED (R346). -/
def slgLeaves (k : Nat) (s : State) : State := foldS (slgLinks k) (fun l t => t.modLink (BitVec.ofNat 5 l) Link.toDisabled) s

/-- `cp_coh`: some slice may hold a line (R487). -/
def cohPolicy (s : State) : State := { s with pcm := { s.pcm with cpCoh := [3, 4, 5, 6].any s.domOn } }

/-- The sensors of a domain that leaves ON keep their last values, no longer valid (R654). -/
def snsLost (d : Nat) (s : State) : State :=
  let x : Sns := Tbl.get {} s.mst.sns d
  { s with mst := { s.mst with sns := Tbl.put {} s.mst.sns d { x with valid := false } } }

/-- CORE is not ON: the lowest line that stands high in LEVEL or HANDSHAKE mode raises it (R624). -/
def lineWake (s : State) : State :=
  match (upTo 128).find? (fun n => (s.rq n).req && (rqMode s n == 2 || rqMode s n == 3)) with
  | some n => beginWake 2 2 n s
  | none => s

/-- The save, the isolation and the cut complete: the domain is RET or OFF (R613, R619). A wake or a condition that reached it
earlier is taken at an abort point instead (`execEntryAbandon`), and one that comes after the cut has begun finds it there (R614). -/
def execCutComplete (dm : DomId) (s : State) : Host.Outcome State Fault Refusal :=
  act s (
    let d := dm.val
    let x := s.dom d
    if !domHeld s d ∧ !abortDue s d ∧ (x.step = .save ∨ x.step = .iso) then
      (let off := x.target == .off
       let s1 := if d = 1 then tbsLeaves s else if 39 ≤ d then slgLeaves (d - 39) s else s
       let s2 := if off then offLoss d s1 else s1
       let s2a := snsLost d s2
       let s3 := s2a.modDom d (fun y => { y with st := y.target, step := .none, leave := none, saved := off || y.saved,
                                                 abort := false, abortWhy := none, hold := false })
       let s4 := cohPolicy (pmiPolicy (if off ∧ d = 2 then lgRecord 0x10 0 false 0 0 s3 else s3))
       if 7 ≤ d ∧ d ≤ 38 then oppStep (1 + (d - 7) / 8) s4 else if d = 2 then lineWake s4 else s4)
    else s)

/-- Banks recorded VALID reload after OFF (R532, R626). -/
def reloadBanks (g : Nat) (s : State) : State :=
  s.modGal g (fun x =>
    let r (b : Bank) : Bank := if b.st = .valid then { b with st := .reloading } else b
    { x with bankA := r x.bankA, bankB := r x.bankB })
  |> startReloads g

/-- Links with EN = 1 train again (R346). -/
def slgWakes (k : Nat) (s : State) : State :=
  foldS (slgLinks k) (fun l t => if bit (t.reg (.linkCtrl l)) 31 then t.modLink (BitVec.ofNat 5 l) Link.toDetect else t) s

/-- TBS is ON again: tick time resumes, rounded up, and angular time starts as at reset (R281, R607). -/
def tbsWakes (s : State) : State :=
  let t := s.pcm.savedTick + BitVec.ofNat 64 ((s.pcm.aclk * 390625 + 7) / 8)
  let u := { s with tbs := { s.tbs with time := t, lock := .unlocked, missed := 0 } }
  if tbSynth u then enterLock .synth 0 0 [] u else u

/-- CORE is ON with READY = 1 while the address matcher stretches: the transfer is handed to SBP (R623). -/
def sbpHand (s : State) : State :=
  if s.sbp.stretch && s.coreOn && s.boot.ready then { s with sbp := { s.sbp with stretch := false, active := true, acked := true } } else s

/-- What follows when domain `d` reaches ON; the lanes of a held Stream Link domain stay idle (R628). -/
def domSequel (d : Nat) (fromOff : Bool) (s : State) : State :=
  if d = 1 then tbsWakes s
  else if d = 2 then sbpHand (wakeSamples s)
  else if 3 ≤ d ∧ d ≤ 6 then cohPolicy s
  else if 7 ≤ d ∧ d ≤ 38 then (if fromOff then reloadBanks (d - 7) s else startReloads (d - 7) s)
  else if 39 ≤ d then (if (s.dom d).hold then s else slgWakes (d - 39) s)
  else s

/-- Domain `d` is ON: PCM_WAKE, WAKES and the port hold (R626, R628). -/
def becomeOn (d : Nat) (s : State) : State :=
  let x := s.dom d
  let fromOff := x.st == .off
  let free := bit (polNow s d) 28 || x.relWaits
  let s1 := s.modDom d (fun y => { y with st := .on, step := .none, target := .on, wakes := y.wakes + 1, hold := !free, relWaits := false,
                                          logged := false })
  let s2 := domSequel d fromOff s1
  let s3 := if x.logged ∧ s.pcm.wakeDom.toNat = d then { s2 with pcm := { s2.pcm with wakeTime := s2.projTime.truncate 32 } } else s2
  let p := s3.pcm
  let s3a := if d = 2 then lgRecord 0x11 0 false (packW [(28, p.gWakeSrc.toNat), (8, p.wakeDetail.toNat)]) 0 s3 else s3
  let s4 := wakeAdvance (pmiPolicy (tmAdd 30 1 (emitUp [239] s3a)))
  match supOf d with
  | some p => oppStep p s4
  | none => s4

/-- A wake may go on: outside the reset sequence, with no fault source holding the domain, and while the domains it needs are ON
(R29, R557, R633). -/
def wakeFree (s : State) (d : Nat) : Bool := !domHeld s d && !s.boot.rstN && depsUp s d

/-- The clock of domain `d` runs within its requirements (R479). -/
def clockUp (s : State) (d : Nat) : Bool := let q := s.clk (if 39 ≤ d then d - 38 else 0); q.req && q.ack

/-- The Rail delay ends; the clock starts (R626). -/
def execWakeRailDone (dm : DomId) (s : State) : Host.Outcome State Fault Refusal :=
  act s (if (s.dom dm.val).step = .rail ∧ wakeFree s dm.val then s.modDom dm.val (fun x => { x with step := .clock }) else s)

/-- The Clock delay ends; Settle begins (R626). -/
def execWakeClockDone (dm : DomId) (s : State) : Host.Outcome State Fault Refusal :=
  act s (
    if (s.dom dm.val).step = .clock ∧ wakeFree s dm.val ∧ clockUp s dm.val then s.modDom dm.val (fun x => { x with step := .settle })
    else s)

/-- Settle ends and isolation is released: a domain from RET is ON, one from OFF is restored (R626); in the reset sequence
TBS and CORE reach ON with it (R482). -/
def execWakeSettleDone (dm : DomId) (s : State) : Host.Outcome State Fault Refusal :=
  act s (
    let d := dm.val
    if (s.dom d).step = .settle ∧ wakeFree s d ∧ s.boot.ready then
      (if (s.dom d).st = .off then s.modDom d (fun x => { x with step := .restore }) else becomeOn d s)
    else s)

/-- The restore ends (R620, R626); `bad` is an uncorrectable word. -/
def execRestoreComplete (dm : DomId) (bad : Bool) (s : State) : Host.Outcome State Fault Refusal :=
  act s (
    let d := dm.val
    let x := s.dom d
    if x.step = .restore ∧ wakeFree s d then
      (let s1 := if bad || !x.saved then savedReset d s else s
       let s2 := becomeOn d s1
       if bad && x.saved then assertFault 267 (faultOf 2 d) s2 else s2)
    else s)

/-- The domains a wake source of Table 18-7 may name. -/
def wakeOk (d src : Nat) : Bool :=
  match src with
  | 1 | 2 | 3 | 4 | 5 => d == 2
  | 6 | 7 | 9 | 10 => d != 0
  | 8 => decide (7 ≤ d ∧ d ≤ 38)
  | _ => false

/-- A wake source raises a domain and its missing dependencies (R621). -/
def execWakeStart (dm : DomId) (src : BitVec 4) (detail : BitVec 13) (s : State) : Host.Outcome State Fault Refusal :=
  act s (if wakeOk dm.val src.toNat then beginWake dm.val src.toNat detail.toNat s else s)

/-- A write of DOM_CTRL(d) (R610): `v` as stored. -/
def domCtrlTo (d : Nat) (v : Word) (s : State) : State :=
  let t := s.setReg (.domCtrl d) v
  match fld v 30 2 with
  | 1 => beginWake d 10 0 t
  | 2 => requestLeave d .ret t
  | 3 => requestLeave d .off t
  | _ => t

/-- A write of HOLD_RELEASE(i) (R628). -/
def holdRelease (i : Nat) (v : Word) (s : State) : State :=
  foldS (upTo 32) (fun j t =>
    let d := 32 * i + j
    if !bit v j || decide (42 < d) then t
    else if (t.dom d).waking then t.modDom d (fun x => { x with relWaits := true })
    else
      let u := t.modDom d (fun x => { x with hold := false })
      if (t.dom d).hold && decide (39 ≤ d) then slgWakes (d - 39) u else u) s

/-- DOM_STAT(d) (Table 18-4). -/
def domWord (s : State) (d : Nat) : Word :=
  let x := s.dom d
  let code (t : DomSt) : Nat := match t with | .off => 0 | .ret => 1 | .on => 2
  packW [(30, code x.st), (29, b2n x.waking), (28, b2n x.entering), (27, b2n x.hold), (26, b2n (pendOf s d)), (24, code x.target),
    (16, if d = 0 then 0 else whyWord s d), (14, x.lastAbort.toNat), (0, x.wakes.toNat)]

/-! ## The alarm and the PMI (R479, R480, R625) -/

/-- The alarm's tick time. -/
def alarmAt (s : State) : Nat := (s.reg .alarmHi).toNat * 2 ^ 32 + (s.reg .alarmLo).toNat

/-- An armed alarm whose tick time has been reached, or PCM's projection of it, fires (R625). -/
def alarmFire (s : State) : State :=
  if s.pcm.alarmArm && decide (alarmAt s ≤ s.projTime.toNat) then
    beginWake 2 4 0 { s with pcm := { s.pcm with alarmArm := false, alarmFired := true } }
  else s

/-- The alarm fires at its tick time (R625). -/
def execAlarmFire (s : State) : Host.Outcome State Fault Refusal := act s (alarmFire s)

/-- A write of PCM.ALARM_CTRL: ARM, and FIRED is W1C; an alarm armed at a time already passed fires at once (R625,
Table 18-9). -/
def alarmCtrlTo (v : Word) (s : State) : State :=
  alarmFire { s with pcm := { s.pcm with alarmArm := bit v 31, alarmFired := s.pcm.alarmFired && !bit v 0 } }

/-- PCM.ALARM_CTRL. -/
def alarmWord (s : State) : Word := packW [(31, b2n s.pcm.alarmArm), (0, b2n s.pcm.alarmFired)]

/-- PCM.WAKE_LOG (Table 18-9). -/
def wakeLogWord (s : State) : Word := packW [(28, s.pcm.wakeSrc.toNat), (22, s.pcm.wakeDom.toNat), (8, s.pcm.wakeDetail.toNat)]

/-- PCM.OPP_STAT (Table 18-11). -/
def oppWord (s : State) (x : Nat) : Word :=
  let p := s.sup x
  packW [(31, b2n p.busy), (28, p.v.toNat), (25, p.f.toNat), (24, b2n p.maskWait)]

/-- Acknowledgement `k` of the PMI is no longer overdue: FS265 is quiet for it, unless its wires are stuck (R480, R557). -/
def pmiOver (k : Nat) (s : State) : State :=
  if srcStuck s 265 then s else s.modFcr (fun f => { f with asserted := Tbl.put false f.asserted (400 + k) false })

/-- A supply's acknowledgement arrives (R479, R630). -/
def supAck (x : Nat) (s : State) : State :=
  let p := s.sup x
  if p.vtog = p.vack then s
  else
    let s1 := (pmiOver x s).modSup x (fun q => { q with
      vack := q.vtog, overdue := false, v := if 5 ≤ x ∨ q.vreq = 0 then q.v else q.vreq - 1 })
    let q := s1.sup x
    let waits := q.busy && decide (q.f < q.v) && supFeeds s1 x
    let s2 := if waits then s1.modSup x (fun r => { r with raiseWait := true }) else s1
    released s (oppStep x (wakeAdvance (pmiPolicy s2)))

/-- An acknowledgement arrives on the PMI (R479). -/
def execPmiAck (p : PmiSig) (s : State) : Host.Outcome State Fault Refusal :=
  act s (match p with
    | .supply x => supAck x.val s
    | .clock c v =>
      let t := (if (s.clk c.val).req = v then pmiOver (9 + c.val) s else s).modClk c.val (fun q => { q with ack := v })
      released s (wakeAdvance (clkPolicy c.val t)))

/-- No acknowledgement within 1 ms (R480). -/
def execPmiAckTimeout (p : PmiSig) (s : State) : Host.Outcome State Fault Refusal :=
  act s (match p with
    | .supply x =>
      if (s.sup x.val).vtog ≠ (s.sup x.val).vack ∧ !(s.sup x.val).overdue then
        assertFault 265 (faultOf 6 x.val) (s.modSup x.val (fun q => { q with overdue := true }))
      else s
    | .clock c _ => if (s.clk c.val).req ≠ (s.clk c.val).ack then assertFault 265 (faultOf 6 (9 + c.val)) s else s)

end Sys2Proof.Machine
end

