-- ==== Sys2Proof/Machine/Staging.lean ====
section
/-! DEFINITION. Staging: staging writes, the clamp log, COMMIT and its boundary (14). -/

namespace Sys2Proof.Machine

/-- Change the staging machinery. -/
def State.modStage (s : State) (f : Staging → Staging) : State := { s with stage := f s.stage }

/-- The RWS registers whose staging or applied copy differs from its reset value. -/
def stagedKeys (s : State) : List Reg :=
  ((s.stage.stg.map Prod.fst ++ s.stage.app.map Prod.fst).eraseDups).filterMap (decodeReg s.wings)

/-- The register belongs to one of the sets named (R500). -/
def inSets (sets : BitVec 16) (r : Reg) : Bool := match r.stagedSet with | some k => bit sets k | none => false

/-- Set `k` is dirty (R502). -/
def setDirty (s : State) (k : Nat) : Bool := (stagedKeys s).any (fun r => r.stagedSet == some k && s.stg r != s.app r)

/-- MST.STG_DIRTY (Table 14-7). -/
def dirtyWord (s : State) : Word :=
  packW ((16, s.stage.sect.toNat) :: (upTo 11).map (fun k => (k, b2n (setDirty s k))))

/-! ## Writing a staging copy (R503, R504) -/

/-- One entry of the clamp log; MST_CLAMP emits (R503). -/
def clampAdd (c : Clamp) (s : State) : State :=
  let g := s.stage
  let k := g.clampNext.toNat
  let ovf := (Tbl.get {} g.clamps k).v
  emitT [238] (s.modStage (fun g => { g with
    clamps := Tbl.put {} g.clamps k c, clampTotal := g.clampTotal + 1, clampOvf := g.clampOvf || ovf, clampNext := g.clampNext + 1 }))

/-- Log each field whose stored value differs from the written one, the least significant first (R503). -/
def clampFields (r : Reg) (sec : Bool) (old v : Word) (s : State) : State :=
  foldS r.flds (fun f t =>
    let w := fld v f.lsb f.wid
    let a := f.stored (fld old f.lsb f.wid) w
    if a = w then t
    else clampAdd { v := true, sec := sec, addr := BitVec.ofNat 20 r.addr, lsb := BitVec.ofNat 5 f.lsb, wid := BitVec.ofNat 6 (f.wid - 1),
                    wr := BitVec.ofNat 32 w, apl := BitVec.ofNat 32 a } t) s

/-- A write of an RWS register; none answers SLVERR because the set is locked (R503, R513). -/
def stageWrite (r : Reg) (sec : Bool) (v : Word) (s : State) : Option State :=
  match r.stagedSet with
  | none => some s
  | some k =>
    if bit s.stage.lock k then none
    else
      let old := s.stg r
      let n := storeFlds r.flds old v
      let s1 := s.setStg r n
      let s2 := if sec && n != old then s1.modStage (fun g => { g with sect := setFld g.sect k 1 1 }) else s1
      some (clampFields r sec old v s2)

/-- CLAMP_STAT (Table 14-2). -/
def clampWord (g : Staging) : Word := packW [(16, g.clampTotal.toNat), (4, b2n g.clampOvf), (0, g.clampNext.toNat)]

/-- CLAMP_FLD(k) (Table 14-3). -/
def clampFld (c : Clamp) : Word := packW [(31, b2n c.v), (30, b2n c.sec), (8, c.lsb.toNat), (0, c.wid.toNat)]

/-- A write of CLAMP_STAT: CLR clears every V and OVF; OVF is W1C (Table 14-2). -/
def clampStatTo (v : Word) (s : State) : State :=
  let t := if bit v 4 then s.modStage (fun g => { g with clampOvf := false }) else s
  if bit v 5 then
    t.modStage (fun g => { g with clampOvf := false, clamps := (g.clamps.map (fun p => (p.1, { p.2 with v := false }))).filter (fun p => p.2 != {}) })
  else t

/-! ## Consistency checks (Table 14-8) -/

/-- The resulting configuration: the named sets at their staging values (R509). -/
def resulting (sets : BitVec 16) (s : State) : State :=
  foldS ((stagedKeys s).filter (inSets sets)) (fun r t => t.setApp r (s.stg r)) s

/-- PS_LAYOUT fails in configuration `t`. -/
def badLayout (t : State) : Bool :=
  let rec0 := fld (t.app .xrecBase) 18 14 * 2 ^ 18
  let size := t.tscrSize
  (bit (t.app .xrecBase) 0 && !(decide (t.tscrBase ≤ rec0) && decide (rec0 + 2 ^ 18 ≤ t.tscrBase + size))) ||
  (size != 0 && decide (t.psSize < t.tscrBase + size))

/-- A channel keeps program space from moving (PS_BUSY). -/
def psInUse (s : State) : Bool :=
  s.chans.any (fun p => p.2.st == .running || p.2.st == .waiting || p.2.st == .paused || (p.2.st == .draining && inProgress p.2))

/-- The commit changes program space or the areas in it. -/
def psChanges (s t : State) : Bool :=
  [Reg.psBaseLo, .psBaseHi, .psSize, .xrecBase, .tscr].any (fun r => s.app r != t.app r)

/-- SC_ARMED fails. -/
def scExcluded (t : State) : Bool := t.tbs.sc.any (fun p => p.2.arm && !scReserved t p.1)

/-- SUB_ADMIT fails. -/
def subUnadmitted (t : State) : Bool :=
  t.subList.any (fun p => p.2.v && !admitted (t.chan p.2.ch) (t.app (.ecCtrl p.2.ec.toNat)))

/-- IRQ_SEC fails. -/
def irqLeaks (t : State) : Bool :=
  (upTo 256).any (fun e =>
    let c := t.app (.ecCtrl e)
    bit c 23 && bit c 13 && !bit (t.app .irqSec) (fld c 8 5))

/-- OPP4_LIMIT fails. -/
def oppLimit (t : State) : Bool :=
  fld (t.app (.oppR 0)) 16 3 == 4 ||
  [1, 2, 3, 4].any (fun x =>
    let r := t.app (.oppR x)
    fld r 16 3 == 4 && decide (4 < ((upTo 8).filter (fun i => bit r (8 + i))).length))

/-- The first failing row of Table 14-8, 0 where every check passes; at the boundary only the live rows run (R510). -/
def commitReason (s : State) (live : Bool) : Nat :=
  let g := s.stage
  let t := resulting g.sets s
  if !live && (g.sets == 0 || decide (2048 ≤ g.sets.toNat)) then 0x01
  else if !live && !g.secWr && g.sets &&& g.sect != 0 then 0x02
  else if !live && badLayout t then 0x10
  else if psChanges s t && psInUse s then 0x11
  else if scExcluded t then 0x12
  else if subUnadmitted t then 0x13
  else if !live && irqLeaks t then 0x14
  else if !live && oppLimit t then 0x15
  else 0

/-! ## COMMIT (R508 to R517) -/

/-- Codes of COMMIT_STATUS.STATE. -/
def CommitSt.code : CommitSt → Nat
  | .idle => 0 | .checking => 1 | .pending => 2 | .applied => 3 | .rejected => 4 | .cancelled => 5 | .expired => 6

/-- COMMIT_STATUS (Table 14-6). -/
def commitWord (g : Staging) : Word :=
  packW [(24, g.seq.toNat), (21, g.st.code), (20, b2n g.stage), (19, b2n g.denied), (16, g.src.toNat), (8, g.reason.toNat)]

/-- COMMIT_INFO (Table 14-6). -/
def commitInfoWord (g : Staging) : Word := packW [(16, g.epoch.toNat), (0, g.sets.toNat)]

/-- The Ledger records a commit applied or rejected (Table 19-7). -/
def commitRecord (code : Nat) (s : State) : State := lgRecord code 0 false (commitWord s.stage) (commitInfoWord s.stage) s

/-- COMMIT_STATUS is updated; where it changes, MST_COMMIT emits, in one cycle with the producers of a boundary that the commit
took (R328, R508, Table 8-11). -/
def statusTo (f : Staging → Staging) (s : State) : State :=
  let t := s.modStage (fun g => { f g with late := [] })
  emitT (s.stage.late ++ (if commitWord t.stage = commitWord s.stage then [] else [237])) t

/-- The commit ends: the sets unlock. -/
def commitEnd (st : CommitSt) (f : Staging → Staging) (s : State) : State :=
  statusTo (fun g => f { g with st := st, lock := 0, boundary := false }) s

/-- OP = COMMIT is accepted, or refused while another commit is open (R509, R511); while TBS is not ON it is raised
(R515). -/
def commitAccept (sec : Bool) (v : Word) (s : State) : State :=
  if commitOpen s then
    (if s.stage.denied then s else emitT [237] (s.modStage (fun g => { g with denied := true })))
  else
    let sets := BitVec.ofNat 16 (fld v 16 16)
    let t := statusTo (fun g => { g with
      seq := g.seq + 1, sets := sets, src := BitVec.ofNat 2 (fld v 4 2), tmo := BitVec.ofNat 4 (fld v 8 4), lock := sets, st := .checking,
      stage := false, reason := 0, secWr := sec, boundary := false }) s
    if t.domOn 1 then t else beginWake 1 9 0 t

/-- OP = CANCEL; in or after the boundary cycle the application stands (R512, Table 14-9). -/
def commitCancel (s : State) : State := if commitOpen s && !s.stage.boundary then commitEnd .cancelled (fun g => g) s else s

/-- OP = REVERT: staging copies of the named sets that are not locked return to the applied values (R512). -/
def commitRevert (v : Word) (s : State) : State :=
  let sets := BitVec.ofNat 16 (fld v 16 16) &&& ~~~ s.stage.lock
  (foldS ((stagedKeys s).filter (inSets sets)) (fun r t => t.setStg r (s.app r)) s).modStage (fun g => { g with sect := g.sect &&& ~~~ sets })

/-- A write of MST.COMMIT by its OP (Table 14-5). -/
def commitWrite (sec : Bool) (v : Word) (s : State) : State :=
  match fld v 0 2 with
  | 1 => commitAccept sec v s
  | 2 => commitCancel s
  | 3 => commitRevert v s
  | _ => s

/-- The checks end (R509). -/
def execCommitCheckDone (s : State) : Host.Outcome State Fault Refusal :=
  act s (
    if coreUp s && s.stage.st == .checking then
      (match commitReason s false with
       | 0 => statusTo (fun g => { g with st := .pending, pendAt := s.projTime, boundary := false }) s
       | r => commitRecord 0x21 (commitEnd .rejected (fun g => { g with reason := BitVec.ofNat 8 r }) s))
    else s)

/-! ## The boundary cycle (R510, R516) -/

/-- Lines whose MODE changes: an event outstanding is dropped and `rq_ack` driven low (Table 8-11). -/
def rqModesTo (old s : State) : State :=
  foldS (upTo 128) (fun n t =>
    if rqMode old n = rqMode s n then t
    else t.modRq n (fun q =>
      if q.outst ∨ rqMode s n = 0 then { q with outst := false, ack := false, holdoff := false } else { q with holdoff := false })) s

/-- Output lines whose MODE becomes OFF are low (Table 8-9). -/
def evoModesTo (s : State) : State :=
  foldS s.evc.evo (fun p t => if fld (t.app (.evoCfg p.1)) 0 2 = 0 then t.modEvo p.1 (fun v => { v with level := false, low := false }) else t) s

/-- Pool pairs that become reserved give their anchors back to the calendar (R302, R308). -/
def pairsReserved (s : State) : State :=
  foldS s.tbs.pairs (fun p t => if scReserved t p.1 ∧ !p.2.dis then t.modPair p.1 (fun x => { x with ch := none }) else t) s

/-- The Vitrine evicts every line before a change of ILV or SEC (R461). -/
def vitEvict (s : State) : State :=
  let t := foldS (upTo 4) (fun k u => foldS (sliceLines u k) (evictFrom k) u) s
  { t with vitFlush := t.txns.any (fun x => decide (2 ≤ x.op.toNat)), vitOld := cpCfgNow s }

/-- The sequels of an applied commit (R516); `old` is the state before the boundary. -/
def commitSequels (old s : State) : State :=
  let ch (r : Reg) := old.app r != s.app r
  let s1 := if ch .tbCfg || ch .synthPeriod then tbReconfigured s else s
  let s2 := if ch .scRsv then pairsReserved s1 else s1
  let s3 := rqRecheck (evoModesTo (rqModesTo old s2))
  let s4 := rqEvents ((upTo 128).filter (levelDue s3)) s3
  foldS (upTo 5) (fun x t => if ch (.oppR x) then oppStep x t else t) s4

/-- The first boundary in PENDING: the live checks, then every named set applies in one cycle (R510). -/
def execCommitBoundary (s : State) : Host.Outcome State Fault Refusal :=
  act s (
    if coreUp s && s.stage.st == .pending && s.stage.boundary then
      (match commitReason s true with
       | 0 =>
         let sets := s.stage.sets
         let next := resulting sets s
         let s0 := if next.app .cpCfg != s.app .cpCfg then vitEvict s else s
         let s1 := resulting sets s0
         let s2 := commitEnd .applied (fun g => { g with stage := true, epoch := g.epochAt, sect := g.sect &&& ~~~ sets }) s1
         commitSequels s (commitRecord 0x20 s2)
       | r => commitRecord 0x21 (commitEnd .rejected (fun g => { g with stage := true, reason := BitVec.ofNat 8 r }) s))
    else s)

/-- TMO's time has passed since PENDING without a boundary (R514). -/
def execCommitExpiry (s : State) : Host.Outcome State Fault Refusal :=
  act s (
    let g := s.stage
    if coreUp s && g.st == .pending && !g.boundary && g.tmo != 0 &&
        decide (2 ^ (g.tmo.toNat - 1) * ticksMs ≤ (s.projTime - g.pendAt).toNat) then commitEnd .expired (fun g => g) s
    else s)

end Sys2Proof.Machine
end

