-- ==== Sys2Proof/Machine/ControlStore.lean ====
section
/-! DEFINITION. ControlStore: images and their checks, the loader, banks, swaps and reloads (15). -/

namespace Sys2Proof.Machine

/-! ## Images (Tables 15-1 to 15-5) -/

/-- Header fields of an image (Table 15-3). -/
def imgWords (b : List Byte) : Nat := leAt b 0x10 2
def imgSvn (b : List Byte) : Nat := leAt b 0x12 2
def imgId (b : List Byte) : Word := BitVec.ofNat 32 (leAt b 8 4)
def imgFeat (b : List Byte) : BitVec 6 := BitVec.ofNat 6 (byteAt b 0x0C)

/-- The header and the first `n` microwords. -/
def imgBody (b : List Byte) (n : Nat) : List Byte := slice b 0 (256 + 16 * n)

/-- Microword `k`. -/
def microword (b : List Byte) (k : Nat) : BitVec 128 := BitVec.ofNat 128 (leAt b (256 + 16 * k) 16)

/-- The opcodes assigned at a Damcon minor version (Tables 5-11 and 15-13). -/
def opAssigned (minor o : Nat) : Bool :=
  let row : List (Nat × Nat) := [(0x01, 11), (0x10, 3), (0x14, 6), (0x20, 6), (0x30, 9), (0x40, 4), (0x48, 8), (0x50, 7), (0x60, 4),
    (0x70, if 1 ≤ minor then 5 else 4), (0x80, 6), (0x90, 2)]
  row.any (fun p => decide (p.1 ≤ o ∧ o < p.1 + p.2))

/-- SEQ codes that use NEXT (Table 15-2). -/
def seqUsesNext (q : Nat) : Bool := [0, 1, 2, 4, 6].contains q

/-- Microword `k` of an image of `n` words passes STRUCT (Table 15-5). -/
def wordOk (n minor k : Nat) (w : BitVec 128) : Bool :=
  let q := fld w 113 3
  (!seqUsesNext q || decide (fld w 116 12 < n)) && !(q == 2 && decide (32 < fld w 108 5 + 1)) && fld w 32 16 == 0 &&
  (decide (256 ≤ k) || opAssigned minor k || (q == 5 && fld w 0 8 == 1))

/-- Bytes `i` to `i + n - 1` are 0. -/
def zeroAt (b : List Byte) (i n : Nat) : Bool := (slice b i n).all (· == 0)

/-- FORMAT passes. -/
def formatOk (b : List Byte) : Bool :=
  slice b 0 4 == [0x54, 0x5A, 0x43, 0x53] && leAt b 4 2 == 1 && leAt b 6 2 == 0x100 && byteAt b 0x0C / 64 == 0 &&
  zeroAt b 0x14 12 && zeroAt b 0x80 128 && decide (256 ≤ imgWords b ∧ imgWords b ≤ 4096)

/-- STRUCT passes. -/
def structOk (b : List Byte) : Bool :=
  (upTo (imgWords b)).all (fun k => wordOk (imgWords b) (imgMinor (imgId b)) k (microword b k))

/-- SIGNATURE passes: ECDSA P-384 over SHA-384 of the header and microwords (R523). -/
def signatureOk (b : List Byte) : Bool :=
  let e := 256 + 16 * imgWords b
  ecdsaOk (ofBe (slice b 0x20 48)) (ofBe (slice b 0x50 48)) (sha384 (imgBody b (imgWords b))) (ofBe (slice b e 48))
    (ofBe (slice b (e + 48) 48))

/-- The first failing check from FORMAT to SIGNATURE, 0 where every one passes (Table 15-5). -/
def imgReason (s : State) (b : List Byte) : Nat :=
  if !formatOk b then 0x03
  else if sha384 (slice b 0x20 96) != (upTo 48).map Config.kryivoDigest then 0x04
  else if byteAt b 0x0D != 3 || !decide (byteAt b 0x0E ≤ 1 ∧ 1 ≤ byteAt b 0x0F) then 0x05
  else if fld (imgId b) 24 8 != 2 || decide (1 < imgMinor (imgId b)) then 0x06
  else if decide (imgSvn b < fld (s.reg .svnMin) 0 16) then 0x07
  else if !structOk b then 0x08
  else if !signatureOk b then 0x09
  else 0

/-! ## Banks (Tables 15-8, 15-9) -/

/-- Bank `b` of gallery `g`. -/
def bankOf (s : State) (g : Nat) (b : Bool) : Bank := if b then (s.gal g).bankB else (s.gal g).bankA

/-- USERS: engines that hold the bank (R530). -/
def bankUsers (s : State) (g : Nat) (b : Bool) : Nat := ((bankEngs s g b).filter (fun e => (s.eng e).phase != .idle)).length

/-- A bank is BUSY for a load (R530). -/
def bankBusy (s : State) (g : Nat) (b : Bool) : Bool :=
  ((s.gal g).act == b && (bankOf s g b).st == .valid) || bankUsers s g b != 0

/-- An EXC word with cause ILLEGAL (Tables 15-1 and 15-2). -/
def excIllegal : BitVec 128 := BitVec.ofNat 128 (5 * 2 ^ 113 + 1)

/-- A microword as Tilzu writes it, with the check bits it computes (R518, R525). -/
def MWord.of (w : BitVec 128) : MWord :=
  { w := w, chkHi := Config.secDed (w.extractLsb' 64 64), chkLo := Config.secDed (w.extractLsb' 0 64) }

/-- The 4,096 words of a bank loaded with an image: those past WORDS are EXC words with cause ILLEGAL (R518, Table 15-3). -/
def bankWords (img : List Byte) : List MWord :=
  (upTo (imgWords img)).map (fun k => MWord.of (microword img k)) ++ List.replicate (4096 - imgWords img) (MWord.of excIllegal)

/-- A bank holds the image read, VALID, with its record (R525, R532). -/
def Bank.filled (src : BitVec 4) (addr : DWord) (img : List Byte) (b : Bank) : Bank :=
  { st := .valid, imgId := Machine.imgId img, feat := imgFeat img, corr := b.corr, srcPort := src, srcAddr := addr,
    digest := sha384 (imgBody img (imgWords img)), words := bankWords img }

/-- Codes of CS_INFO.STATE. -/
def BankSt.code : BankSt → Nat
  | .invalid => 0 | .loading => 1 | .valid => 2 | .reloading => 3

/-- G.CS_CTRL as read. -/
def csCtrlWord (s : State) (g : Nat) : Word :=
  let a := (s.gal g).act
  packW [(1, b2n (bankUsers s g (!a) != 0)), (0, b2n a)]

/-- G.CS_ID(b). -/
def csIdWord (s : State) (g : Nat) (b : Bool) : Word := let x := bankOf s g b; if x.st = .valid then x.imgId else 0

/-- G.CS_INFO(b). -/
def csInfoWord (s : State) (g : Nat) (b : Bool) : Word :=
  let x := bankOf s g b
  packW [(30, x.st.code), (24, x.feat.toNat), (11, bankUsers s g b), (0, x.corr.toNat)]

/-- A write of G.CS_CTRL; none answers SLVERR (R531). -/
def csCtrlWrite (g : Nat) (v : Word) (s : State) : Option State :=
  if bit v 31 then
    (if (bankOf s g (!(s.gal g).act)).st ≠ .valid ∨ loadInvolves s g then none
    else
      let a := !(s.gal g).act
      some (lgRecord 0x32 0 false (bankOf s g a).imgId (BitVec.ofNat 32 g) (s.modGal g (fun x => { x with act := a }))))
  else some s

/-! ## The loader (R524 to R529) -/

/-- Galleries a load targets. -/
def loadGals (s : State) : List Nat := (upTo 32).filter (bit s.loader.targets)

/-- Every target bank changes. -/
def targetBanks (f : Bank → Bank) (s : State) : State := foldS (loadGals s) (fun g t => modBank g s.loader.bank f t) s

/-- The galleries in a mask that are populated and not cordoned (R525). -/
def loadTargets (s : State) (mask : Word) : Word :=
  packW ((upTo 32).map (fun g => (g, b2n (bit mask g && s.galPop g && !galCordoned s g))))

/-- A load starts: BUSY, then the source code, then the first reading, which raises the wing of its port (R525, R664). -/
def loadStart (src : Nat) (bank : Bool) (addr : DWord) (mask : Word) (s : State) : State :=
  let t := { s with loader := { st := .verify, targets := loadTargets s mask, src := BitVec.ofNat 4 src, bank := bank, addr := addr } }
  if (loadGals t).any (fun g => bankBusy t g bank) then loadFail 0x0B none t
  else if 9 < src ∨ addr.toNat % 256 ≠ 0 then loadFail 0x01 none t
  else startRead 0 (srcInst src) addr 256 true t

/-- CANCEL (R528). -/
def loadCancel (s : State) : State :=
  match s.loader.st with
  | .verify => setJob 0 none { s with loader := { s.loader with st := .cancelled } }
  | .write => setJob 0 none { targetBanks (Bank.emptied .invalid) s with loader := { s.loader with st := .cancelled } }
  | _ => s

/-- A write of CS.LOAD_CTRL; none answers SLVERR. A reserved SRC leaves SRC unchanged (R524, R525). -/
def loadCtrlWrite (v : Word) (s : State) : Option State :=
  let run := s.loader.st == .verify || s.loader.st == .write
  if bit v 31 && run then none
  else
    let src := fld v 24 4
    let old := s.reg .loadCtrl
    let t := s.setReg .loadCtrl (packW [(24, if 9 < src then fld old 24 4 else src), (0, fld v 0 1)])
    if bit v 31 then
      some (loadStart src (bit v 0)
        (BitVec.ofNat 64 ((t.reg .loadAddrHi).toNat * 2 ^ 32 + fld (t.reg .loadAddrLo) 8 24 * 256)) (t.reg .loadGal) t)
    else some (if bit v 30 then loadCancel t else t)

/-- The load of a boot strap (R529): 1 reads MP0, 2 reads CP0. -/
def bootLoad (s : State) : State :=
  match Straps.csBoot s.boot.straps with
  | 0 => s
  | k => loadStart (if k = 1 then 0 else 8) false (BitVec.ofNat 64 (Straps.bootBase s.boot.straps * 2 ^ 28)) 0xFFFFFFFF s

/-- A gallery that no wake can raise: it, or its wing, is held by a fault source (R526, R557). -/
def cannotRaise (s : State) (g : Nat) : Bool := domHeld s (7 + g) || domHeld s (3 + g / 8)

/-- The bytes of reading `key` once it is over: none where a read was answered other than OKAY. -/
def readOver (s : State) (key : Nat) : Option (Option (List Byte)) :=
  match jobOf s key with
  | some j => if j.over then some (if j.err then none else some j.buf) else none
  | none => none

/-- PCM raises the targets that are not ON (R526). -/
def raiseTargets (s : State) : State := foldS (loadGals s) (fun g u => if u.domOn (7 + g) then u else beginWake (7 + g) 9 0 u) s

/-- The first reading ends. Once its checks pass, PCM raises the targets, and the second reading waits for every one that can be
raised (R525, R526, R664, Table 21-1). A reading that is not over goes on where it can. -/
def execLoadVerifyDone (_ : Unit) (s : State) : Host.Outcome State Fault Refusal :=
  act s (
    if !coreUp s || s.loader.st != .verify then s
    else match readOver s 0 with
      | none => pumpLoads s
      | some none => loadFail 0x02 none s
      | some (some b) =>
        match imgReason s b with
        | 0 =>
          if (loadGals s).any (fun g => !s.domOn (7 + g) && !cannotRaise s g) then raiseTargets s
          else
            let on := packW ((loadGals s).map (fun g => (g, b2n (s.domOn (7 + g)))))
            startRead 0 (srcInst s.loader.src.toNat) s.loader.addr (256 + 16 * imgWords b) false
              (targetBanks (Bank.emptied .loading)
                { s with loader := { s.loader with st := .write, targets := on, digest := sha384 (imgBody b (imgWords b)), words := imgWords b } })
        | r => loadFail r (some (imgId b)) s)

/-- The second reading ends: the banks are VALID, or INVALID where what was read has changed (R525, R527). -/
def execLoadWriteDone (_ : Unit) (s : State) : Host.Outcome State Fault Refusal :=
  act s (
    let l := s.loader
    if !coreUp s || l.st != .write then s
    else match readOver s 0 with
      | none => pumpLoads s
      | some none => loadFail 0x02 none s
      | some (some b) =>
        if sha384 (imgBody b l.words) = l.digest then
          (let u := setJob 0 none s
           let t := { targetBanks (Bank.filled l.src l.addr b) u with loader := { u.loader with st := .done, ok := l.targets } }
           lgRecord 0x30 0 false (imgId b) (loadStatWord t.loader) t)
        else loadFail 0x0A (some (imgId b)) s)

/-! ## Reloads (R532, R534) -/

/-- The image read is the one the bank's record names, and its SVN is still accepted (R532, Table 15-10). -/
def reloadOk (s : State) (x : Bank) (b : List Byte) : Bool :=
  sha384 (imgBody b (imgWords b)) == x.digest && decide (fld (s.reg .svnMin) 0 16 ≤ imgSvn b)

/-- A reload ends: the bank is VALID again and Docent tests it if an error began the reload, or it is lost and its fault source
asserts; the gallery's other bank follows (R532, R534, Table 16-5). A reading that is not over goes on where it can. -/
def execBankReload (g : BitVec 5) (b : Bool) (_ : Unit) (s : State) : Host.Outcome State Fault Refusal :=
  act s (
    let k := g.toNat
    let x := bankOf s k b
    if !coreUp s || !s.domOn (7 + k) || x.st != .reloading then s
    else match readOver s (reloadKey k b) with
      | none => pumpLoads s
      | some img =>
        let u := setJob (reloadKey k b) none s
        let good := match img with | some c => reloadOk s x c | none => false
        startReloads k (
          if good then
            (let t := modBank k b (Bank.filled x.srcPort x.srcAddr (img.getD [])) u
             if x.words.isEmpty then t else openRecovery (recov (32 + k) (b2n b) none) t)
          else assertFault (32 + k) (faultOf 9 (b2n b)) (loseBank k b u)))

end Sys2Proof.Machine
end

