-- ==== Sys2Proof/Machine/DamconAlu.lean ====
section
/-! DEFINITION. DamconAlu: the ALU, shift, bit-field, multiply and divide groups (R190 to R197) and RDSR and WRSR
(R233). -/

namespace Sys2Proof.Machine

/-! ## Two-operand arithmetic -/

/-- An engine after an arithmetic instruction: the result in rd and the flags (R193). -/
def Engine.alu (x : Engine) (n : Nat) (rd : BitVec 5) (o : Alu) : Engine :=
  { (x.setRg rd (wideN n o.r)) with psr := aluPsr n o x.psr }

/-- A two-operand instruction of opcode `op`: its operands at the operation's width, its trap, its result and flags.
`wr` is false for CMP and TST, whose rd is 0. -/
def aluInsn (e : EngId) (op : Nat) (w : IW) (wr : Bool) (imm : Nat) (f : Nat → Nat → Nat → Alu) (s : State) : State :=
  insn e op w (aluOk w wr imm) (fun t =>
    let x := t.eng e
    let n := opWidth w
    let o := f n (lowN n (x.rg w.ra)) (lowN n (opB x w))
    match aluTrap o x.psr with
    | some cause => excAt e cause 0 0 none t
    | none => t.setEng e (x.alu n w.rd o).retire) s

/-- A shift of opcode `op`: the count is the low 8 bits of the count operand (R195, Table 3-12). -/
def shiftInsn (e : EngId) (op : Nat) (w : IW) (f : Nat → Nat → Nat → Alu) (s : State) : State :=
  aluInsn e op w true 0xFF (fun n a b => f n a (b % 256)) s

/-- A one-operand instruction: rb, I and the immediate bits outside `imm` are 0. -/
def unInsn (e : EngId) (op : Nat) (w : IW) (md imm : Nat) (ok : Bool) (f : Engine → Nat → Nat → Alu) (s : State) : State :=
  insn e op w (fieldsOk w true true false false md imm && ok) (fun t =>
    let x := t.eng e
    let n := opWidth w
    let o := f x n (lowN n (x.rg w.ra))
    match aluTrap o x.psr with
    | some cause => excAt e cause 0 0 none t
    | none => t.setEng e (x.alu n w.rd o).retire) s

/-- ADD (R194). -/
def execAdd (e : EngId) (w : IW) (s : State) : Host.Outcome State Fault Refusal :=
  act s (aluInsn e 0x30 w true 0xFFFFFFFF aluAdd s)

/-- SUB (R194). -/
def execSub (e : EngId) (w : IW) (s : State) : Host.Outcome State Fault Refusal :=
  act s (aluInsn e 0x31 w true 0xFFFFFFFF aluSub s)

/-- AND (Table 5-1). -/
def execAnd (e : EngId) (w : IW) (s : State) : Host.Outcome State Fault Refusal :=
  act s (aluInsn e 0x32 w true 0xFFFFFFFF aluAnd s)

/-- OR (Table 5-1). -/
def execOr (e : EngId) (w : IW) (s : State) : Host.Outcome State Fault Refusal :=
  act s (aluInsn e 0x33 w true 0xFFFFFFFF aluOr s)

/-- XOR (Table 5-1). -/
def execXor (e : EngId) (w : IW) (s : State) : Host.Outcome State Fault Refusal :=
  act s (aluInsn e 0x34 w true 0xFFFFFFFF aluXor s)

/-- NEG: 0 − ra (Table 5-1, R129). -/
def execNeg (e : EngId) (w : IW) (s : State) : Host.Outcome State Fault Refusal :=
  act s (unInsn e 0x35 w 0x20 0 true (fun _ n a => aluSub n 0 a) s)

/-- CMP: the flags of ra − b; rd is 0 (R194). -/
def execCmp (e : EngId) (w : IW) (s : State) : Host.Outcome State Fault Refusal :=
  act s (aluInsn e 0x36 w false 0xFFFFFFFF aluSub s)

/-- TST: the flags of ra and b; rd is 0 (Table 5-1). -/
def execTst (e : EngId) (w : IW) (s : State) : Host.Outcome State Fault Refusal :=
  act s (aluInsn e 0x37 w false 0xFFFFFFFF aluAnd s)

/-- The value LI writes: the sign-extended immediate, or the immediate above the register's low word (Table 5-1). -/
def liValue (x : Engine) (w : IW) : DWord :=
  if bit w.md 0 then BitVec.ofNat 64 (w.imm.toNat * 2 ^ 32 + lowN 32 (x.rg w.rd)) else sxImm w

/-- LI (Table 5-1). -/
def execLi (e : EngId) (w : IW) (s : State) : Host.Outcome State Fault Refusal :=
  act s (regInsn e 0x38 w (fieldsOk w true false false false 0x01 0xFFFFFFFF) (fun x => x.setRg w.rd (liValue x w)) s)

/-! ## Shifts (R195) -/

/-- SLL (R195, Table 3-12). -/
def execSll (e : EngId) (w : IW) (s : State) : Host.Outcome State Fault Refusal :=
  act s (shiftInsn e 0x40 w aluSll s)

/-- SRL (R195, Table 3-12). -/
def execSrl (e : EngId) (w : IW) (s : State) : Host.Outcome State Fault Refusal :=
  act s (shiftInsn e 0x41 w aluSrl s)

/-- SRA (R195, Table 3-12). -/
def execSra (e : EngId) (w : IW) (s : State) : Host.Outcome State Fault Refusal :=
  act s (shiftInsn e 0x42 w aluSra s)

/-- ROT (R195, Table 3-12). -/
def execRot (e : EngId) (w : IW) (s : State) : Host.Outcome State Fault Refusal :=
  act s (shiftInsn e 0x43 w aluRot s)

/-! ## Multiply and divide (R197, Table 5-3) -/

/-- MULS (Table 5-3). -/
def execMuls (e : EngId) (w : IW) (s : State) : Host.Outcome State Fault Refusal :=
  act s (aluInsn e 0x48 w true 0xFFFFFFFF aluMuls s)

/-- MULU (Table 5-3). -/
def execMulu (e : EngId) (w : IW) (s : State) : Host.Outcome State Fault Refusal :=
  act s (aluInsn e 0x49 w true 0xFFFFFFFF aluMulu s)

/-- MULHS (Table 5-3). -/
def execMulhs (e : EngId) (w : IW) (s : State) : Host.Outcome State Fault Refusal :=
  act s (aluInsn e 0x4A w true 0xFFFFFFFF aluMulhs s)

/-- MULHU (Table 5-3). -/
def execMulhu (e : EngId) (w : IW) (s : State) : Host.Outcome State Fault Refusal :=
  act s (aluInsn e 0x4B w true 0xFFFFFFFF aluMulhu s)

/-- DIVS (Table 5-3). -/
def execDivs (e : EngId) (w : IW) (s : State) : Host.Outcome State Fault Refusal :=
  act s (aluInsn e 0x4C w true 0xFFFFFFFF aluDivs s)

/-- DIVU (Table 5-3). -/
def execDivu (e : EngId) (w : IW) (s : State) : Host.Outcome State Fault Refusal :=
  act s (aluInsn e 0x4D w true 0xFFFFFFFF aluDivu s)

/-- REMS (Table 5-3). -/
def execRems (e : EngId) (w : IW) (s : State) : Host.Outcome State Fault Refusal :=
  act s (aluInsn e 0x4E w true 0xFFFFFFFF aluRems s)

/-- REMU (Table 5-3). -/
def execRemu (e : EngId) (w : IW) (s : State) : Host.Outcome State Fault Refusal :=
  act s (aluInsn e 0x4F w true 0xFFFFFFFF aluRemu s)

/-! ## Bit fields (R196, Table 5-2) -/

/-- LSB of a bit-field instruction. -/
def bfLsb (w : IW) : Nat := fld w.imm 0 6
/-- WID of a bit-field instruction. -/
def bfWid (w : IW) : Nat := fld w.imm 8 6 + 1

/-- The field lies inside the operand (R196). -/
def bfOk (w : IW) : Bool := decide (bfLsb w + bfWid w ≤ opWidth w)

/-- The field of `a`. -/
def bfExt (w : IW) (a : Nat) : Nat := a / 2 ^ bfLsb w % 2 ^ bfWid w

/-- The field of `a`, its top bit copied into every higher bit of an `n`-bit result. -/
def bfExts (w : IW) (n a : Nat) : Nat := modN n (sgn (bfWid w) (bfExt w a))

/-- `d` with its field replaced by the low bits of `a`. -/
def bfIns (w : IW) (d a : Nat) : Nat := d - bfExt w d * 2 ^ bfLsb w + a % 2 ^ bfWid w * 2 ^ bfLsb w

/-- Leading zero bits of an `n`-bit number. -/
def clzN : Nat → Nat → Nat
  | 0, _ => 0
  | n + 1, a => if a / 2 ^ n % 2 = 1 then 0 else clzN n a + 1

/-- Trailing zero bits of an `n`-bit number. -/
def ctzN : Nat → Nat → Nat
  | 0, _ => 0
  | n + 1, a => if a % 2 = 1 then 0 else ctzN n (a / 2) + 1

/-- One bits of an `n`-bit number. -/
def popcN : Nat → Nat → Nat
  | 0, _ => 0
  | n + 1, a => a % 2 + popcN n (a / 2)

/-- EXT (R196). -/
def execExt (e : EngId) (w : IW) (s : State) : Host.Outcome State Fault Refusal :=
  act s (unInsn e 0x50 w 0x20 0x3F3F (bfOk w) (fun _ _ a => { r := bfExt w a }) s)

/-- EXTS (R196). -/
def execExts (e : EngId) (w : IW) (s : State) : Host.Outcome State Fault Refusal :=
  act s (unInsn e 0x51 w 0x20 0x3F3F (bfOk w) (fun _ n a => { r := bfExts w n a }) s)

/-- INS: rd is also a source (R196). -/
def execIns (e : EngId) (w : IW) (s : State) : Host.Outcome State Fault Refusal :=
  act s (unInsn e 0x52 w 0x20 0x3F3F (bfOk w) (fun x n a => { r := bfIns w (lowN n (x.rg w.rd)) a }) s)

/-- CLZ (R196). -/
def execClz (e : EngId) (w : IW) (s : State) : Host.Outcome State Fault Refusal :=
  act s (unInsn e 0x53 w 0x20 0 true (fun _ n a => { r := clzN n a }) s)

/-- CTZ (R196). -/
def execCtz (e : EngId) (w : IW) (s : State) : Host.Outcome State Fault Refusal :=
  act s (unInsn e 0x54 w 0x20 0 true (fun _ n a => { r := ctzN n a }) s)

/-- POPC (Table 5-2). -/
def execPopc (e : EngId) (w : IW) (s : State) : Host.Outcome State Fault Refusal :=
  act s (unInsn e 0x55 w 0x20 0 true (fun _ n a => { r := popcN n a }) s)

/-- The low `n` bytes of `a` in reverse order. -/
def revBytes (n a : Nat) : Nat := ofBe (toLe n a)

/-- BSWAP: 8, 4 or 2 bytes by mod[1:0]; 3 raises ILLEGAL (Table 5-2). -/
def execBswap (e : EngId) (w : IW) (s : State) : Host.Outcome State Fault Refusal :=
  act s (unInsn e 0x56 w 0x03 0 (fld w.md 0 2 != 3) (fun _ _ a => { r := revBytes (8 / 2 ^ fld w.md 0 2) a }) s)

/-! ## Context access (R233, Table 5-8) -/

/-- The special register of a code of Table 5-8. -/
def specialReg (s : State) (e : EngId) (code : Nat) : Option DWord :=
  let x := s.eng e
  let c := s.chan x.ch
  let b := (c.order.map CEntry.bytes).getD []
  match code with
  | 0 => some (BitVec.ofNat 64 x.psr.toNat)
  | 1 => some (BitVec.ofNat 64 x.ch.toNat)
  | 2 => some (BitVec.ofNat 64 (entTag b).toNat)
  | 3 => some (BitVec.ofNat 64 (c.wrStart - 1).toNat)
  | 4 => some (BitVec.ofNat 64 (x.issued % 2 ^ 48))
  | 5 => some (BitVec.ofNat 64 x.ckSeq.toNat)
  | 6 => some (if entType b = 2 then entAnchor b else 0)
  | 7 => some (BitVec.ofNat 64 (b2n x.late))
  | 8 => some (BitVec.ofNat 64 c.owner.toNat)
  | _ => none

/-- RDSR: a code that Table 5-8 does not list raises ILLEGAL (R233). -/
def execRdsr (e : EngId) (w : IW) (s : State) : Host.Outcome State Fault Refusal :=
  act s (insn e 0x90 w (fieldsOk w true false false false 0 0xFF) (fun t =>
    match specialReg t e (fld w.imm 0 8) with
    | some v => t.modEng e (fun x => (x.setRg w.rd v).retire)
    | none => illegal e 0x90 w t) s)

/-- The psr after a program's write: bits outside the RW fields of Table 3-5 keep their values. -/
def psrWrite (old : Word) (v : DWord) : Word :=
  (old &&& ~~~(0x33F : Word)) ||| (BitVec.ofNat 32 (lowN 32 v) &&& 0x33F)

/-- WRSR: only code 0x00 (R233). -/
def execWrsr (e : EngId) (w : IW) (s : State) : Host.Outcome State Fault Refusal :=
  act s (regInsn e 0x91 w (fieldsOk w false true false false 0 0xFF && fld w.imm 0 8 == 0)
    (fun x => { x with psr := psrWrite x.psr (x.rg w.ra) }) s)

end Sys2Proof.Machine
end

