-- ==== Sys2Proof/Machine/DamconFlow.lean ====
section
/-! DEFINITION. DamconFlow: branches, calls, TRAP and ERET, fences, instruction faults, and the ends and checkpoints of
a work order that happen in the engine (R104, R111, R113, R124, R125, R132, R168, R181 to R188, R674). -/

namespace Sys2Proof.Machine

/-! ## Branches (R184 to R187) -/

/-- A relative branch: the target is the offset of the branch plus 8 times the signed immediate; one outside the 32-bit offsets
lies outside program space whatever its low bits are (R184). DESIGN CHOICE (log entry 59): EPC and EADDR of that FETCH_RANGE hold the
target modulo 2^32. -/
def Engine.jump (x : Engine) (w : IW) : Engine :=
  let t : Int := (x.pc.toNat : Int) + 8 * w.imm.toInt
  { x.goto (BitVec.ofInt 32 t) with pcOut := !decide (0 ≤ t ∧ t < 2 ^ 32) }

/-- The target held in a register: bits [31:3] (R187). -/
def regTarget (v : DWord) : BitVec 32 := BitVec.ofNat 32 (fld v 3 29 * 8)

/-- B.cond (R185): condition 0xF raises ILLEGAL. -/
def execBCond (e : EngId) (w : IW) (s : State) : Host.Outcome State Fault Refusal :=
  act s (insn e 0x02 w (fieldsOk w false false false false 0x0F 0xFFFFFFFF) (fun t =>
    match condHolds (fld w.md 0 4) (t.eng e).psr with
    | none => illegal e 0x02 w t
    | some true => t.modEng e (fun x => x.jump w)
    | some false => t.modEng e Engine.retire) s)

/-- The counter register one lower, and the branch while it is not 0 (R186). -/
def dbnzStep (w : IW) (x : Engine) : Engine :=
  let v := x.rg w.rd - 1
  if v = 0 then (x.setRg w.rd v).retire else (x.setRg w.rd v).jump w

/-- DBNZ (R186): a counter register of g0 raises ILLEGAL (R155). -/
def execDbnz (e : EngId) (w : IW) (s : State) : Host.Outcome State Fault Refusal :=
  act s (insn e 0x03 w (fieldsOk w true false false false 0 0xFFFFFFFF && w.rd != 0)
    (fun t => t.modEng e (dbnzStep w)) s)

/-- CALL: g30 takes the offset of the next instruction (R187). -/
def execCall (e : EngId) (w : IW) (s : State) : Host.Outcome State Fault Refusal :=
  act s (insn e 0x04 w (fieldsOk w false false false false 0 0xFFFFFFFF) (fun t =>
    t.modEng e (fun x => (x.setRg 30 (BitVec.ofNat 64 (x.pc + 8).toNat)).jump w)) s)

/-- An indirect branch: NULL_TARGET below 0x40 (R187). -/
def jumpTo (e : EngId) (v : DWord) (link : Bool) (s : State) : State :=
  if (regTarget v).toNat < 0x40 then excAt e 0x05 0 0 none s
  else s.modEng e (fun x =>
    (if link then x.setRg 30 (BitVec.ofNat 64 (x.pc + 8).toNat) else x).goto (regTarget v))

/-- JR (R187). -/
def execJr (e : EngId) (w : IW) (s : State) : Host.Outcome State Fault Refusal :=
  act s (insn e 0x05 w (fieldsOk w false true false false 0 0) (fun t => jumpTo e ((t.eng e).rg w.ra) false t) s)

/-- CALLR: ra is read before g30 is written (R187). -/
def execCallr (e : EngId) (w : IW) (s : State) : Host.Outcome State Fault Refusal :=
  act s (insn e 0x06 w (fieldsOk w false true false false 0 0) (fun t => jumpTo e ((t.eng e).rg w.ra) true t) s)

/-- RET: as JR with g30 (R187). -/
def execRet (e : EngId) (w : IW) (s : State) : Host.Outcome State Fault Refusal :=
  act s (insn e 0x07 w (fieldsOk w false false false false 0 0) (fun t => jumpTo e ((t.eng e).rg 30) false t) s)

/-! ## TRAP and ERET -/

/-- TRAP: EPC is the next instruction (R188). -/
def execTrap (e : EngId) (w : IW) (s : State) : Host.Outcome State Fault Refusal :=
  act s (insn e 0x08 w (fieldsOk w false false false false 0 0xFFFFFFFF) (fun t =>
    takeExc e 0x28 w.imm ((t.eng e).pc + 8) 0 none t) s)

/-- A valid frame for ERET: [sp, sp + 64) inside the stack window (R125). -/
def frameOk (c : Chan) (x : Engine) : Bool :=
  let sp := (x.rg 31).toNat
  psrExl x.psr && sp % 64 == 0 && decide (c.stkLo ≤ sp) && decide (sp + 64 ≤ c.stkHi)

/-- An 8-byte word of the exception frame. -/
def frameWord (x : Engine) (o : Nat) : DWord := BitVec.ofNat 64 (ofLe (x.alcRead ((x.rg 31).toNat + o) 8))

/-- ERET (R124, R125): psr comes back from EPSR and EXL clears; DEDUCED, log entry 30: of EPSR only the fields that Table 3-5 marks RW. -/
def execEret (e : EngId) (w : IW) (s : State) : Host.Outcome State Fault Refusal :=
  act s (insn e 0x09 w (fieldsOk w false false false false 0 0) (fun t =>
    let x := t.eng e
    if !frameOk (chanOf t e) x then excAt e 0x06 (BitVec.ofNat 32 (lowN 32 (x.rg 31))) 0 none t
    else if (regTarget (frameWord x 0)).toNat < 0x40 then excAt e 0x05 0 0 none t
    else
      let y := ((x.setRg 1 (frameWord x 0x20)).setRg 2 (frameWord x 0x28)).setRg 31 (x.rg 31 + 64)
      t.setEng e { (y.goto (regTarget (frameWord x 0))) with psr := BitVec.ofNat 32 (lowN 32 (frameWord x 8)) &&& 0x33F }) s)

/-- SYNC.I: the prefetch buffer is discarded and refilled at the next instruction (R183). -/
def execSyncI (e : EngId) (w : IW) (s : State) : Host.Outcome State Fault Refusal :=
  act s (insn e 0x0A w (fieldsOk w false false false false 0 0) (fun t => t.modEng e (fun x => x.goto (x.pc + 8))) s)

/-! ## Fences -/

/-- FENCE and FENCE.G: stall until the writes are answered, and with G until the hub has released what the channel
handed over (R181, R182). The row fixes G, bit 0 of mod. -/
def fenceInsn (e : EngId) (g : Bool) (w : IW) (s : State) : State :=
  insnB e 0x0B w (fieldsOk w false false false false 0x01 0 && (!g || imgGives s e 0 1)) (fun t =>
    if writesOpen t e then t
    else if (t.eng e).wErr.isSome then raiseImprecise e t
    else if g && !(chanOf t e).rel.isEmpty then t
    else t.modEng e Engine.retire) s

/-- FENCE (R181). -/
def execFence (e : EngId) (w : IW) (s : State) : Host.Outcome State Fault Refusal := act s (fenceInsn e false (rowForm w 1 0) s)

/-- FENCE.G (R182). -/
def execFenceG (e : EngId) (w : IW) (s : State) : Host.Outcome State Fault Refusal := act s (fenceInsn e true (rowForm w 1 1) s)

/-! ## Instruction faults -/

/-- An instruction word whose opcode is unassigned, or PROG, raises ILLEGAL (R101, R104, R236); a word with an assigned opcode is
not this command's. -/
def execIllegalOpcode (e : EngId) (w : BitVec 64) (s : State) : Host.Outcome State Fault Refusal :=
  act s (if canRun (s.eng e) && (s.eng e).busy.isNone && !engHeld s e && (failedRead (s.eng e)).isNone then
    (let t := fetch e s
     if fetched (t.eng e) == some w && !(t.eng e).pcOut && (decodeInsn e w).isNone then excAt e 0x01 (BitVec.ofNat 32 (fld w 32 32)) 0 none t else t)
  else s)

/-- An instruction that cannot be fetched raises its exception when it would execute (R132, Table 3-9): pc lies outside program
space, or the read of its line was answered with this code. -/
def execInstructionFetchFault (e : EngId) (k : FetchFault) (s : State) : Host.Outcome State Fault Refusal :=
  act s (
    let x := s.eng e
    if canRun x && x.busy.isNone && !engHeld s e then
      (match k with
       | .range =>
         if x.pcOut || x.pc.toNat < 0x40 || decide (s.psSize ≤ x.pc.toNat) then excAt e 0x02 0 (BitVec.ofNat 64 x.pc.toNat) none s else s
       | .bus code =>
         if x.reads.any (fun r => r.what == 5 && r.err == some code) then
           excAt e (busCause code) 2 (s.psBase + BitVec.ofNat 64 x.pc.toNat) none s
         else s)
    else s)

/-! ## Ends and checkpoints -/

/-- The work order of an unhandled exception ends: its writes are answered, its effects are handed over (R674). -/
def execUnhandledExceptionEnd (e : EngId) (s : State) : Host.Outcome State Fault Refusal :=
  act s (match (s.eng e).phase with
    | .ending status =>
      if writesOpen s e then s
      else endOrder e status (s.eng e).acked (handOver (s.eng e).ch (s.eng e).effects s)
    | _ => s)

/-- The residue is written because a checkpoint has been due for CKPT_TIME × 16 ticks: here, at the burst boundary at which an
instruction stands that waits for its next burst, no read of it outstanding but the map entries that a MOVEX keeps; the checkpoint follows where the boundary is then eligible (R168). A boundary
that an instruction passes without waiting is `atBoundary`'s. -/
def execResidueForcedFlush (e : EngId) (s : State) : Host.Outcome State Fault Refusal :=
  act s (
    let x := s.eng e
    if canRun x && x.cur.isSome && x.reads.all (fun r => r.what == 4) && x.residue.isSome && overdue s e && !engHeld s e then
      (if (x.cur.map Cur.elig).getD false then startCkpt e x.pc .go (flush e s) else flush e s)
    else s)

/-- The byte interval expires (Table 3-7). -/
def execCkptByteIntervalExpiry (e : EngId) (s : State) : Host.Outcome State Fault Refusal :=
  act s (
    let c := chanOf s e
    if (s.eng e).phase == .run && decide (0 < c.ckBytes) && decide (c.ckBytes ≤ (s.eng e).bytesSince) then markDue e s else s)

/-- The time interval expires (Table 3-7). -/
def execCkptTimeIntervalExpiry (e : EngId) (s : State) : Host.Outcome State Fault Refusal :=
  act s (
    let c := chanOf s e
    if (s.eng e).phase == .run && decide (0 < c.ckTicks) && decide (c.ckTicks ≤ (s.now - (s.eng e).ckAt).toNat) then markDue e s
    else s)

/-- A checkpoint commits once every data write is answered, or a failed one raises its exception (R113). -/
def execCheckpointCommit (e : EngId) (s : State) : Host.Outcome State Fault Refusal :=
  act s (match (s.eng e).phase with
    | .commit pc k =>
      if writesOpen s e then s
      else if (s.eng e).wErr.isSome then raiseImprecise e s
      else afterCommit e pc k (commitStep e pc s)
    | _ => s)

end Sys2Proof.Machine
end

