-- ==== Sys2Proof/Machine/DamconMem.lean ====
section
/-! DEFINITION. DamconMem: Alcove and program-space loads and stores, template counters, events, time and angle (R198 to
R210). -/

namespace Sys2Proof.Machine

/-! ## The Alcove (R108, R198) -/

/-- Access size of mod[1:0]. -/
def accSize (w : IW) : Nat := 2 ^ fld w.md 0 2

/-- The address ra + imm32, modulo 2^64. -/
def memAddr (x : Engine) (w : IW) : DWord := x.rg w.ra + sxImm w

/-- An Alcove access of `n` bytes: MISALIGNED, then ALCOVE_RANGE, else the access (R108). -/
def alcoveAt (e : EngId) (a : DWord) (n : Nat) (f : Engine → Engine) (s : State) : State :=
  if a.toNat % n ≠ 0 then excAt e 0x03 (BitVec.ofNat 32 (lowN 32 a)) a none s
  else if 0x2000 < a.toNat + n then excAt e 0x04 (BitVec.ofNat 32 (lowN 32 a)) a none s
  else s.modEng e (fun x => (f x).retire)

/-- A loaded value of `n` bytes: sign-extended when mod[2] is 1 (R198). -/
def loaded (w : IW) (v : Nat) : DWord :=
  if bit w.md 2 then BitVec.ofNat 64 (modN 64 (sgn (8 * accSize w) v)) else BitVec.ofNat 64 v

/-- LD (R198). -/
def execLd (e : EngId) (w : IW) (s : State) : Host.Outcome State Fault Refusal :=
  act s (insn e 0x60 w (fieldsOk w true true false false 0x07 0xFFFFFFFF) (fun t =>
    let a := memAddr (t.eng e) w
    alcoveAt e a (accSize w) (fun x => x.setRg w.rd (loaded w (ofLe (x.alcRead a.toNat (accSize w))))) t) s)

/-- ST (R198). -/
def execSt (e : EngId) (w : IW) (s : State) : Host.Outcome State Fault Refusal :=
  act s (insn e 0x61 w (fieldsOk w false true true false 0x03 0xFFFFFFFF) (fun t =>
    let a := memAddr (t.eng e) w
    alcoveAt e a (accSize w) (fun x => x.alcWrite a.toNat (toLe (accSize w) (x.rg w.rb).toNat)) t) s)

/-! ## Program space (R199 to R202) -/

/-- LDV: a naturally aligned read through the Vitrine; a miss stalls (R199, R200). -/
def execLdv (e : EngId) (w : IW) (s : State) : Host.Outcome State Fault Refusal :=
  act s (insnB e 0x62 w (fieldsOk w true true false false 0x03 0xFFFFFFFF) (fun t =>
    let a := memAddr (t.eng e) w
    if a.toNat < 0x40 ∨ 2 ^ 32 ≤ a.toNat ∨ t.psSize ≤ a.toNat then excAt e 0x02 0 (BitVec.ofNat 64 (lowN 32 a)) none t
    else
      (psRead e 1 (a.toNat / accSize w * accSize w) (accSize w) t).run fun b u =>
        u.modEng e (fun x => (x.setRg w.rd (BitVec.ofNat 64 (ofLe b))).retire)) s)

/-- A template counter may lie at this offset: inside the scratch area and outside the record area (R273). -/
def counterOk (s : State) (off : Nat) : Bool :=
  let r := fld (s.app .xrecBase) 18 14 * 262144
  off % 8 == 0 && decide (s.tscrBase ≤ off) && decide (off + 8 ≤ s.tscrBase + s.tscrSize) &&
  !(bit (s.app .xrecBase) 0 && decide (r ≤ off) && decide (off < r + 262144))

/-- The value of a counter that the channel has handed to the hub and that is not yet released. -/
def heldCounter (off : Nat) : List Release → Option DWord
  | [] => none
  | .counters l :: r =>
    (match heldCounter off r with
     | some v => some v
     | none => (l.find? (fun p => p.1 == off)).map Prod.snd)
  | _ :: r => heldCounter off r

/-- A counter as TCLD returns it: produced since the last commit, else committed (R201; log entry 31). -/
def counterRead (e : EngId) (off : Nat) (s : State) : Got :=
  let x := s.eng e
  match Tbl.get none x.counters off with
  | some v => .ok (toLe 8 v.toNat) s
  | none =>
    match heldCounter off (s.chan x.ch).rel with
    | some v => .ok (toLe 8 v.toNat) s
    | none => psRead e 1 off 8 s

/-- TCLD (R201). -/
def execTcld (e : EngId) (w : IW) (s : State) : Host.Outcome State Fault Refusal :=
  act s (insnB e 0x63 w (fieldsOk w true true false false 0 0xFFFFFFFF) (fun t =>
    let off := (memAddr (t.eng e) w).toNat / 8 * 8
    if !counterOk t off then xformExc e 0x09 0 t
    else
      (counterRead e off t).run fun b u => u.modEng e (fun x => (x.setRg w.rd (BitVec.ofNat 64 (ofLe b))).retire)) s)

/-! ## Events (R203 to R205) -/

/-- The channel may SIGNAL to event channel `k` (R329). -/
def maySignal (s : State) (c : Chan) (k : Nat) : Bool := admitted c (s.app (.ecCtrl k)) && bit (s.app (.ecCtrl k)) 21

/-- The channel may subscribe to event channel `k`: admitted, with a valid subscription (R329). -/
def maySubscribe (s : State) (ch : BitVec 12) (k : Nat) : Bool :=
  admitted (s.chan ch) (s.app (.ecCtrl k)) && (subOf s ch k).isSome

/-- SIGNAL: one held effect (R203, R204). -/
def execSignal (e : EngId) (w : IW) (s : State) : Host.Outcome State Fault Refusal :=
  act s (insnB e 0x24 w (fieldsOk w false false false false 0 0xFF) (fun t =>
    let k := fld w.imm 0 8
    if !maySignal t (chanOf t e) k then illegal e 0x24 w t
    else withEffect e (fun u => u.modEng e (fun x =>
      Engine.retire { x with effects := x.effects ++ [Release.signal (BitVec.ofNat 8 k)] })) t) s)

/-- The subscription bits EVTST reads (R205). -/
def evtstBits (s : State) (ch : BitVec 12) (k : Nat) : Nat :=
  match subOf s ch k with
  | some j => b2n (s.sub j).pend + 2 * b2n (s.sub j).ovr
  | none => 0

/-- EVTST: Z from rd, nothing consumed (R205). -/
def execEvtst (e : EngId) (w : IW) (s : State) : Host.Outcome State Fault Refusal :=
  act s (insn e 0x25 w (fieldsOk w true false false false 0 0xFF) (fun t =>
    let k := fld w.imm 0 8
    let ch := (t.eng e).ch
    if !maySubscribe t ch k then illegal e 0x25 w t
    else
      let v := evtstBits t ch k
      t.modEng e (fun x => Engine.retire { (x.setRg w.rd (BitVec.ofNat 64 v)) with psr := psrSet x.psr 0 (v == 0) })) s)

/-! ## Time and angle (R207 to R210) -/

/-- No angle (R207). -/
def noAngleWord : DWord := 0xFFFFFFFFFFFFFFFF

/-- Angular time now, or no angle (R292). -/
def angNow (s : State) : DWord :=
  if noAngle s then noAngleWord
  else if s.tbs.lock = .holdover then angAt s (s.now.toNat : Int)
  else angWord s.tbs.rev.toNat s.tbs.wedge s.tbs.phase.toNat

/-- An instruction of the time group that sets C: the result, and whether it is the all-ones word. -/
def timeInsn (e : EngId) (op : Nat) (w : IW) (ok : Bool) (f : State → Engine → Option DWord) (s : State) : State :=
  insn e op w ok (fun t =>
    t.modEng e (fun x =>
      match f t x with
      | some v => Engine.retire { (x.setRg w.rd v) with psr := psrSet x.psr 2 false }
      | none => Engine.retire { (x.setRg w.rd noAngleWord) with psr := psrSet x.psr 2 true })) s

/-- TNOW: flags unchanged (R208). -/
def execTnow (e : EngId) (w : IW) (s : State) : Host.Outcome State Fault Refusal :=
  act s (regInsn e 0x70 w (fieldsOk w true false false false 0 0) (fun x => x.setRg w.rd s.now) s)

/-- ANOW (R292). -/
def execAnow (e : EngId) (w : IW) (s : State) : Host.Outcome State Fault Refusal :=
  act s (timeInsn e 0x71 w (fieldsOk w true false false false 0 0)
    (fun t _ => if noAngle t then none else some (angNow t)) s)

/-- A2T: by the prediction that the comparators use (R209). -/
def execA2t (e : EngId) (w : IW) (s : State) : Host.Outcome State Fault Refusal :=
  act s (timeInsn e 0x72 w (fieldsOk w true true false false 0 0)
    (fun t x => if noAngle t || !angValid t (x.rg w.ra) then none
      else some (BitVec.ofNat 64 (modN 64 (angInstant t (x.rg w.ra))))) s)

/-- T2A (R209). -/
def execT2a (e : EngId) (w : IW) (s : State) : Host.Outcome State Fault Refusal :=
  act s (timeInsn e 0x73 w (fieldsOk w true true false false 0 0)
    (fun t x => if noAngle t then none else some (angAt t ((x.rg w.ra).toNat : Int))) s)

/-- An angular word advanced by whole wedges, modulo 2^32 revolutions; phase unchanged (R210). -/
def angAdvance (s : State) (a : DWord) (k : Int) : DWord :=
  let wpr : Int := (s.wpr : Int)
  let tot := (angRev a : Int) * wpr + (angWedge a : Int) + k
  angWord ((tot / wpr) % (2 ^ 32 : Int)).toNat (tot % wpr).toNat (angPhase a)

/-- AADD (R210). -/
def execAadd (e : EngId) (w : IW) (s : State) : Host.Outcome State Fault Refusal :=
  act s (timeInsn e 0x74 w (fieldsOk w true true false false 0 0xFFFFFFFF)
    (fun t x =>
      let a := x.rg w.ra
      if a = noAngleWord ∨ t.wpr ≤ angWedge a then none else some (angAdvance t a w.imm.toInt)) s)

end Sys2Proof.Machine
end

