-- ==== Sys2Proof/Machine/Streams.lean ====
section
/-! DEFINITION. Streams: descriptors in use, list walks, and the bursts of the move unit (R137 to R154, R160). -/

namespace Sys2Proof.Machine

/-- What a part of an instruction yields: a value, or the state in which the instruction waits or has raised an
exception. -/
inductive Flow (α : Type) where
  | ok (a : α) (s : State)
  | stop (s : State)

/-- Continue with the value, or stop. -/
def Flow.run {α : Type} (f : Flow α) (g : α → State → State) : State :=
  match f with
  | .ok a s => g a s
  | .stop s => s

/-- Continue with the value in a further part, or stop. -/
def Flow.bind {α β : Type} (f : Flow α) (g : α → State → Flow β) : Flow β :=
  match f with
  | .ok a s => g a s
  | .stop s => .stop s

/-- A read of program space in a chain of checks. -/
def Got.flow (g : Got) : Flow (List Byte) :=
  match g with
  | .ok b s => .ok b s
  | .wait s => .stop s

/-- A check that raises an exception when it fails. -/
def must (b : Bool) (exc : State → State) (s : State) : Flow Unit := if b then .ok () s else .stop (exc s)

/-! ## Descriptors in use -/

/-- Stream `i` is defined, or STREAM_UNDEF (R159). -/
def needDefined (e : EngId) (i : BitVec 3) (s : State) : Flow Unit :=
  must (((s.eng e).cur_ i).desc != 0) (strmExc e 0x10 i) s

/-- The checks of R144 for the channel on engine `e`. -/
def descOkFor (s : State) (e : EngId) (b : List Byte) : Bool :=
  descOk b (chanOf s e).sec (fun l => ownsLink s (s.eng e).ch l)

/-- The descriptor of a defined stream; after a resumption it is read and checked at its first use (R144). -/
def needDesc (e : EngId) (i : BitVec 3) (s : State) : Flow Desc :=
  let x := s.eng e
  match Tbl.get [] x.sd i.toNat with
  | [] =>
    ((psRead e 2 ((x.cur_ i).desc.toNat * 32) 32 s).flow.bind fun b u =>
       if descOkFor u e b then .ok (decDesc b) (u.modEng e (fun y => { y with sd := Tbl.put [] y.sd i.toNat b }))
       else .stop (descExc e i u))
  | b => .ok (decDesc b) s

/-! ## Engine reads -/

/-- The recorded read of a kind at an address. -/
def readAt (x : Engine) (what : Nat) (a : DWord) : Option EngRead := x.reads.find? (fun r => r.what == what && r.addr == a)

/-- Forget the reads of a kind. -/
def dropReads (e : EngId) (what : Nat) (s : State) : State :=
  s.modEng e (fun x => { x with reads := x.reads.filter (fun r => r.what != what) })

/-- Forget the read of a kind at an address. -/
def dropReadAt (e : EngId) (what : Nat) (a : DWord) (s : State) : State :=
  s.modEng e (fun x => { x with reads := x.reads.filter (fun r => !(r.what == what && r.addr == a)) })

/-- Issue a read burst for engine `e`, of stream `i` or of none (R143). -/
def issueRead (e : EngId) (i : Option (BitVec 3)) (what : Nat) (port : Nat) (sec : Bool) (cache order : BitVec 2) (a : DWord) (n : Nat)
    (s : State) : State :=
  let s1 := s.modEng e (fun x => { x with reads := x.reads ++ [{ what := what, addr := a, n := n, t := some s.nextTxn }] })
  issue (engTxn e port 0 a n [] sec (chanOf s e).owner cache order i (.engRead e what)) s1

/-! ## Scatter/gather walks (R140) -/

/-- A list element breaks Table 4-4. DESIGN CHOICE (log entry 59): a LINK element with END = 1 counts as a bad element. -/
def sgBad (b : List Byte) : Bool :=
  let ctl := byteAt b 15
  leAt b 12 3 != 0 || ctl % 64 != 0 ||
  (if 128 ≤ ctl then leAt b 8 4 != 0 || leAt b 0 8 % 16 != 0 || ctl / 64 % 2 == 1 else leAt b 8 4 == 0)

/-- The walk after an element read at `next`. -/
def sgStep (w : SgWalk) (b : List Byte) : SgWalk :=
  if sgBad b then { w with bad := true }
  else if 128 ≤ byteAt b 15 then { w with next := BitVec.ofNat 64 (leAt b 0 8) }
  else { w with start := w.start + w.size, addr := BitVec.ofNat 64 (leAt b 0 8), size := leAt b 8 4,
                last := byteAt b 15 / 64 % 2 == 1, next := w.next + 16 }

/-- The walk of stream `i` from the head in force; a walk that has passed position `p` begins again (R116, R158). -/
def sgStart (x : Engine) (i : BitVec 3) (head : DWord) (p : Nat) : SgWalk :=
  let w := Tbl.get {} x.walk i.toNat
  if w.head = head ∧ w.start ≤ p ∧ !(w.start == 0 && w.size == 0 && w.next == 0) then w else { head := head, next := head }

/-- Set the walk of stream `i`. -/
def setWalk (e : EngId) (i : BitVec 3) (w : SgWalk) (s : State) : State :=
  s.modEng e (fun x => { x with walk := Tbl.put {} x.walk i.toNat w })

/-- Walk until position `p` lies in the element held (or, with `edge`, at its end): the address of the byte and the
room left in the element. One element read is outstanding at a time. -/
def sgFind (e : EngId) (i : BitVec 3) (d : Desc) (head : DWord) (p : Nat) (edge : Bool) (s : State) : Flow (DWord × Nat) :=
  let w0 := sgStart (s.eng e) i head p
  let got := (readAt (s.eng e) 3 w0.next).bind EngRead.bytes
  let found (w : SgWalk) : Bool := decide (p < w.start + w.size) || (edge && p == w.start + w.size)
  let (w, s1) := if found w0 then (w0, s) else
    match got with
    | some b => (sgStep w0 b, dropReadAt e 3 w0.next s)
    | none => (w0, s)
  let s2 := setWalk e i w s1
  if w.bad then .stop (descExc e i (setWalk e i { w with bad := false } s2))
  else if found w then .ok (w.addr + BitVec.ofNat 64 (p - w.start), w.start + w.size - p) s2
  else if w.last then .stop (strmExc e 0x11 i s2)
  else if (readAt (s2.eng e) 3 w.next).isSome || burstHeld s2 e d.port d.order.toNat w.next 16 false then .stop s2
  else .stop (issueRead e (some i) 3 d.port d.sec d.cache d.order w.next 16 s2)

/-- The address of stream byte `p` and the room left in its list element. -/
def streamAddr (e : EngId) (i : BitVec 3) (d : Desc) (base : DWord) (p : Nat) (s : State) : Flow (DWord × Nat) :=
  if d.kind = 3 then sgFind e i d base p false s else .ok (d.addrAt base p, 0) s

/-! ## Source bytes (R146, R151, R152) -/

/-- Source bursts for positions `p` to `p + n − 1`, as far as they can be issued now; `fuel` bounds their number. -/
def issueSource (e : EngId) (i : BitVec 3) (d : Desc) (base : DWord) : Nat → Nat → Nat → State → Flow Unit
  | 0, _, _, s => .ok () s
  | fuel + 1, p, n, s =>
    if n = 0 then .ok () s
    else
      (streamAddr e i d base p s).bind (fun ar t =>
        let k := min n (d.burstAt ar.1 p ar.2)
        if burstHeld t e d.port d.order.toNat ar.1 k false then .stop t
        else issueSource e i d base fuel (p + k) (n - k) (issueRead e (some i) 0 d.port d.sec d.cache d.order ar.1 k t))

/-- Bytes read so far for the burst in progress. -/
def sourceIssued (x : Engine) : Nat := ((x.reads.filter (fun r => r.what == 0)).map EngRead.n).sum

/-- All source bursts answered: their bytes. -/
def sourceBytes (x : Engine) : Option (List Byte) :=
  (x.reads.filter (fun r => r.what == 0)).foldl (fun a r => match a, r.bytes with
    | some l, some b => some (l ++ b)
    | _, _ => none) (some [])

/-- A fault that follows the bytes delivered: cause, EADDR (R360, R375). -/
abbrev AfterFault := Option (Nat × DWord)

/-- Engine `e` has a burst on its way to or from link `l` (R27). -/
def slOpen (s : State) (e : EngId) (l : Nat) : Bool := s.txns.any (fun t => Txn.ofEng e t && t.port.toNat == 32 + l)

/-- Traffic toward a link whose domain is not open wakes the domain and waits, or is answered POWERED_OFF (R618). -/
def slGate (e : EngId) (d : Desc) (s : State) : Flow Unit :=
  let k := portDom (32 + d.port)
  if d.sl && !domOpen s k then .stop (if autoWake s k then beginWake k 7 0 s else excAt e 0x1B 0 0 none s) else .ok () s

/-- Bursts that fetch `n` received bytes of link `l` from position `p` (R27, R145); `fuel` bounds their number. DESIGN CHOICE (log entry
59): a link stream has no address, and its source bursts are cut at multiples of 256 of the bytes consumed. -/
def issueRx (e : EngId) (i : BitVec 3) (l : Nat) : Nat → Nat → Nat → State → State
  | 0, _, _, s => s
  | fuel + 1, p, n, s =>
    if n = 0 then s
    else
      let k := min n (256 - p % 256)
      issueRx e i l fuel (p + k) (n - k) (issueRead e (some i) 0 (32 + l) false 0 0 (BitVec.ofNat 64 p) k s)

/-- `n` source bytes from position `p`, and `back` bytes before it, with the fault that follows them; otherwise the
instruction waits. `missing` says what happens when link data is missing (R245). -/
def source (e : EngId) (i : BitVec 3) (d : Desc) (base : DWord) (p back n : Nat) (missing : State → State) (s : State) :
    Flow (List Byte × AfterFault) :=
  if d.kind = 7 then .ok ((s.eng e).alcRead (d.addrAt base (p - back)).toNat (back + n), none) s
  else if d.kind = 4 then
    (slGate e d s).bind fun _ s =>
    let l := s.link (BitVec.ofNat 5 d.port)
    let (b, r) := rxBytes (l.cons - back) (back + n) l.basePos l.rx
    let got := fun (f : AfterFault) =>
      let k := sourceIssued (s.eng e)
      let t := issueRx e i d.port 1024 (l.cons - back + k) (b.length - k) s
      if (sourceBytes (t.eng e)).isSome then .ok (b, f) t else .stop t
    match r with
    | .whole => got none
    | .bad lba => got (some (0x18, BitVec.ofNat 64 lba.toNat))
    | .short lba => if l.st = .failed then got (some (0x1A, BitVec.ofNat 64 ((lba.map BitVec.toNat).getD 0))) else .stop (missing s)
  else
    let k := sourceIssued (s.eng e)
    (issueSource e i d base 256 (p - back + k) (back + n - k) s).bind (fun _ t =>
      match sourceBytes (t.eng e) with
      | some b => .ok (b, none) t
      | none => .stop t)

/-- The source position moves on, and a link's bytes are consumed. -/
def advanceSource (e : EngId) (i : BitVec 3) (d : Desc) (n : Nat) (s : State) : State :=
  let s1 := (dropReads e 0 s).modEng e (fun x => x.setPos i ((x.cur_ i).pos.toNat + n))
  if d.kind = 4 then rxConsume d.port n s1 else s1

/-! ## Destination bursts -/

/-- Streams whose bytes count in BYTES (R154). -/
def Desc.counted (d : Desc) : Bool := d.kind != 7 && d.kind != 6

/-- A destination burst of `n` bytes at `a` must wait: for credit, for a link that is not ACTIVE, or for an overlapping
write (R151, R405). -/
def destWaits (e : EngId) (d : Desc) (a : DWord) (n : Nat) (s : State) : Bool :=
  if d.kind = 5 then slOpen s e d.port || !(s.link (BitVec.ofNat 5 d.port)).txReady n
  else if d.mem then burstHeld s e d.port d.order.toNat a n true
  else false

/-- A destination link has failed (R375). -/
def destDead (d : Desc) (s : State) : Bool := d.sl && (s.link (BitVec.ofNat 5 d.port)).st == .failed

/-- A destination burst of `n` bytes at `a` can be issued: its link has not failed, its domain is open, and nothing makes it
wait. -/
def destReady (e : EngId) (d : Desc) (a : DWord) (n : Nat) (s : State) : Flow Unit :=
  if destDead d s then .stop (excAt e 0x1A 0 0 none s)
  else (slGate e d s).bind fun _ t => if destWaits e d a n t then .stop t else .ok () t

/-- Write a destination burst to stream `i` at `a` (R145, R148, R154). A burst to a link counts as acknowledged when the link
takes it, and one to the Alcove at once (log entry 32). -/
def destWrite (e : EngId) (i : BitVec 3) (d : Desc) (a : DWord) (b : List Byte) (s : State) : State :=
  if d.kind = 7 then s.modEng e (fun x => { (x.alcWrite a.toNat b) with bytesSince := x.bytesSince + b.length })
  else if d.kind = 5 then
    issue (engTxn e (32 + d.port) 1 a b.length b false (chanOf s e).owner 0 0 (some i) (.data e i true))
      (s.modEng e (fun x => { x with bytesSince := x.bytesSince + b.length, issued := x.issued + b.length }))
  else dataWrite e i d a b true s

/-! ## Checks of R160 -/

/-- One side of a move-class instruction. -/
structure Side where
  i : BitVec 3
  d : Desc
  base : DWord
  len : Nat
  deriving DecidableEq, Repr

/-- A bound list head that is not 16-byte aligned (R138). -/
def Side.misHead (x : Side) : Bool := x.d.kind == 3 && x.base.toNat % 16 != 0

/-- A stream as sampled now (R138). -/
def sideOf (x : Engine) (i : BitVec 3) (d : Desc) : Side := { i := i, d := d, base := d.baseOf x, len := d.lenOf x }

/-- The checks of R160 in their order (DESIGN CHOICE, log entry 59: after a resumption the re-check of R144 comes before them all), on the source (where there is one) and then on the destination: `bad` is the
DESC_INVALID check of each side, `over` the STREAM_END check. -/
def checkMove (e : EngId) (src : Option (BitVec 3)) (dst : BitVec 3) (bad over_ : Bool → Side → Bool) (s : State) :
    Flow (Option Side × Side) :=
  let srcs := src.toList
  let undef := fun (i : BitVec 3) (f : Flow Unit) => f.bind (fun _ t => needDefined e i t)
  ((srcs ++ [dst]).foldl (fun f i => undef i f) (.ok () s)).bind fun _ s1 =>
  (srcs.foldl (fun (f : Flow (Option Desc)) i => f.bind fun _ t => (needDesc e i t).bind fun d u => .ok (some d) u)
    (.ok none s1)).bind fun ds s2 =>
  (needDesc e dst s2).bind fun dd s3 =>
  let x := s3.eng e
  let sa : Option Side := match src, ds with
    | some i, some d => some (sideOf x i d)
    | _, _ => none
  let sb := sideOf x dst dd
  (must (match sa with | some a => !a.d.dir && a.i != dst | none => true) (strmExc e 0x12 (src.getD dst)) s3).bind fun _ s4 =>
  (must dd.dir (strmExc e 0x12 dst) s4).bind fun _ s5 =>
  (must (match sa with | some a => !bad false a && !a.misHead | none => true) (descExc e (src.getD dst)) s5).bind fun _ s6 =>
  (must (!bad true sb && !sb.misHead) (descExc e dst) s6).bind fun _ s7 =>
  (must (match sa with | some a => !over_ false a | none => true) (strmExc e 0x11 (src.getD dst)) s7).bind fun _ s8 =>
  (must (!over_ true sb) (strmExc e 0x11 dst) s8).bind fun _ s9 => .ok (sa, sb) s9

/-- Position of stream `i`. -/
def posOf (s : State) (e : EngId) (i : BitVec 3) : Nat := ((s.eng e).cur_ i).pos.toNat

/-! ## Boundaries -/

/-- After a destination burst: a residue that keeps an overdue checkpoint back is written (R168); then the due checkpoint at an
eligible boundary, the end of the instruction, or its next burst (Tables 4-5 and 4-6). -/
def atBoundary (e : EngId) (rd : BitVec 5) (elig : Bool) (s0 : State) : State :=
  let s := if overdue s0 e then flush e s0 else s0
  let x := s.eng e
  let stop := x.rg rd == 0
  let ok := elig && carriedReg rd
  if ok && x.residue.isNone && ckptDue s e then startCkpt e (if stop then x.pc + 8 else x.pc) .go s
  else if stop then s.modEng e Engine.retire
  else s.modEng e (fun y => { y with cur := y.cur.map (fun c => { c with elig := ok }) })

/-- The residue is written first when `need` holds (R167). -/
def flushFirst (e : EngId) (need : Residue → Bool) (s : State) : State :=
  match (s.eng e).residue with
  | none => s
  | some r => if need r then flush e s else s

end Sys2Proof.Machine
end

