-- ==== Sys2Proof/Machine/DamconMove.lean ====
section
/-! DEFINITION. DamconMove: stream cursors, MOVE, FUNNEL, FILL, CAPT, NOTIFY and the instructions that take a checkpoint
(R118, R142, R157 to R180). -/

namespace Sys2Proof.Machine

/-! ## Stream cursors (R157 to R159) -/

/-- The residue's source or destination stream (R167). -/
def touches (i : BitVec 3) (r : Residue) : Bool := r.dst == i || r.src == i

/-- Set stream `i`'s cursor and its descriptor bytes. -/
def Engine.define (x : Engine) (i : BitVec 3) (desc : BitVec 24) (b : List Byte) : Engine :=
  { x with s := Tbl.put {} x.s i.toNat { desc := desc, pos := 0 }, sd := Tbl.put [] x.sd i.toNat b,
           walk := Tbl.put {} x.walk i.toNat {} }

/-- An offset at which a stream descriptor may lie (R157). -/
def descAt (s : State) (o : Nat) : Bool := o % 32 == 0 && decide (0x40 ≤ o ∧ o < 2 ^ 29 ∧ o < s.psSize)

/-- SDEF (R157). -/
def execSdef (e : EngId) (w : IW) (s : State) : Host.Outcome State Fault Refusal :=
  act s (insnB e 0x10 w (fieldsOk w false false false true 0 0xFFFFFFFF) (fun t =>
      let u := flushFirst e (touches w.ss) t
      let o := w.imm.toNat
      if o = 0 then u.modEng e (fun x => (x.define w.ss 0 []).retire)
      else if !descAt u o then excAt e 0x13 w.imm 0 (some w.ss) u
      else
        (psRead e 2 o 32 u).run fun b v =>
          if descOkFor v e b then leavePath e (v.modEng e (fun x => (x.define w.ss (BitVec.ofNat 24 (o / 32)) b).retire))
          else excAt e 0x13 w.imm 0 (some w.ss) v) s)

/-- The place of stream `i` in its list before the instruction under way (R158, R230). -/
def Engine.walk0 (x : Engine) (i : BitVec 3) : SgWalk := (x.cur.bind Cur.walk0).getD (Tbl.get {} x.walk i.toNat)

/-- SSEEK on a defined stream to position `p` (R158): on an SGLIST stream that moves back the walk begins at the head again, and one
that fails leaves the stream's place in its list as it was. DESIGN CHOICE (log entry 59): STREAM_END against LEN or the bound length comes before DESC_INVALID of a bound head that is not aligned. -/
def seekTo (e : EngId) (w : IW) (i : BitVec 3) (d : Desc) (v : DWord) (s : State) : State :=
  let x := s.eng e
  let p := v.toNat
  if d.sl then descExc e i s
  else if 2 ^ 40 ≤ p ∨ d.lenOf x < p then strmExc e 0x11 i s
  else if d.kind = 3 ∧ (d.baseOf x).toNat % 16 ≠ 0 then descExc e i s
  else
    let done := fun (t : State) => t.modEng e (fun y => Engine.retire { y.setPos i p with cur := none })
    let t := if d.kind = 3 ∧ p < (x.cur_ i).pos.toNat ∧ x.cur.isNone then setWalk e i {} s else s
    let u := t.modEng e (fun y => { y with cur := some { w := w, walk0 := some (x.walk0 i) } })
    if d.kind = 3 ∧ p ≠ 0 then (sgFind e i d (d.baseOf x) p true u).run (fun _ v => done v) else done t

/-- SSEEK (R158). -/
def execSseek (e : EngId) (w : IW) (s : State) : Host.Outcome State Fault Refusal :=
  act s (insnB e 0x11 w (fieldsOk w false true false true 0 0) (fun t =>
      (needDefined e w.ss (flushFirst e (touches w.ss) t)).run fun _ v =>
        (needDesc e w.ss v).run fun d z => seekTo e w w.ss d ((z.eng e).rg w.ra) z) s)

/-- SPOS: the position, or with L the length without walking a list (R159). DESIGN CHOICE (log entry 59): with L = 0 after a resumption
it is no first use of the stream (R144), and with L = 1 a bound head that is not aligned raises nothing (R138). -/
def execSpos (e : EngId) (w : IW) (s : State) : Host.Outcome State Fault Refusal :=
  act s (insnB e 0x12 w (fieldsOk w true false false true 0x01 0) (fun t =>
    (needDefined e w.ss t).run fun _ u =>
      if bit w.md 0 then
        (needDesc e w.ss u).run fun d v =>
          v.modEng e (fun x => (x.setRg w.rd (BitVec.ofNat 64 (d.lenOf x))).retire)
      else u.modEng e (fun x => (x.setRg w.rd (BitVec.ofNat 64 (x.cur_ w.ss).pos.toNat)).retire)) s)

/-! ## The burst loop (MOVE, MOVEX, FILL) -/

/-- The source stream of a move-class instruction. -/
def srcOf (w : IW) : BitVec 3 := BitVec.ofNat 3 (fld w.imm 0 3)

/-- DESC_INVALID of R160 and R172 for streams that must be replayable; `dstOk` is the destination's own condition. -/
def badMove (w : IW) (dstOk : Desc → Bool) (isDst : Bool) (x : Side) : Bool :=
  x.d.nr || x.d.binds w.rd || (isDst && !dstOk x.d)

/-- STREAM_END of R160 with the counts that the source and the destination need. DESIGN CHOICE (log entry 59): for an SGLIST stream this
is LEN or the bound length; the sum of the list shows where the walk reaches its end. -/
def overMove (s : State) (e : EngId) (n m : Nat) (isDst : Bool) (x : Side) : Bool :=
  let k := if isDst then m else n
  if isDst && x.d.kind == 6 then k != 0 && (k != 32 || posOf s e x.i != 0)
  else decide (x.len < posOf s e x.i + k)

/-- Start an instruction: its checks, then the values sampled (R138, R160). A started one goes on. DEDUCED (log entry 59): the place
before its first burst, where it may wait, is an eligible boundary as those after its bursts are (Table 4-5), but for CAPT, whose
checkpoints are its own. -/
def startMove (e : EngId) (cap : Bool) (w : IW) (src : Option (BitVec 3)) (bad over_ : Bool → Side → Bool) (s : State) :
    Flow (Option Side × Side) :=
  match (s.eng e).cur with
  | none =>
    (checkMove e src w.ss bad over_ s).bind fun p t =>
      .ok p (t.modEng e (fun x =>
        { x with cur := some { w := w, elig := carriedReg w.rd && !cap, srcBase := (p.1.map Side.base).getD 0, srcLen := (p.1.map Side.len).getD 0,
                               dstBase := p.2.base, dstLen := p.2.len } }))
  | some c =>
    ((match src with
      | some i => (needDesc e i s).bind fun d t => .ok (some ⟨i, d, c.srcBase, c.srcLen⟩) t
      | none => .ok none s) : Flow (Option Side)).bind fun a t =>
    (needDesc e w.ss t).bind fun d u => .ok (a, ⟨w.ss, d, c.dstBase, c.dstLen⟩) u

/-- What the stages of an instruction do with a burst: the bytes before and after it that must be read with it, its
size, and its passage; and whether the point after it is eligible (R241, R242). -/
structure Stage where
  /-- Size of the next burst of at most `n` bytes, with the bytes to read before and after it. -/
  plan : Nat → State → Flow (Nat × Nat × Nat)
  /-- The bytes of the burst, from all that were read, `b` of them from place `back`. -/
  pass : (back b : Nat) → List Byte → State → List Byte × State
  elig : State → Bool
  /-- What the burst claims before its source bytes are read (R246). -/
  claim : State → Flow Unit
  missing : State → State

/-- No stage. -/
def noStage : Stage :=
  { plan := fun n s => .ok (n, 0, 0) s, pass := fun back b l s => ((l.drop back).take b, s), elig := fun _ => true,
    claim := fun s => .ok () s, missing := fun s => s }

/-- Count the burst: the source and destination positions and the count register (R121, R161). -/
def countBurst (e : EngId) (rd : BitVec 5) (src : Option Side) (dst : BitVec 3) (n : Nat) (s : State) : State :=
  let s1 := match src with
    | some a => advanceSource e a.i a.d n s
    | none => s
  s1.modEng e (fun x =>
    let y := (x.setPos dst ((x.cur_ dst).pos.toNat + n)).setRg rd (x.rg rd - BitVec.ofNat 64 n)
    { y with cur := y.cur.map (fun c => { c with doneBytes := c.doneBytes + n }) })

/-- One destination burst of MOVE, MOVEX or FILL: `fill` gives FILL's bytes by position (R161, R162, R169). -/
def burstPass (e : EngId) (w : IW) (src : Option Side) (dst : Side) (st : Stage) (fill : Nat → Byte) (s : State) : State :=
  let n := ((s.eng e).rg w.rd).toNat
  if n = 0 then s.modEng e Engine.retire
  else
    let p := posOf s e w.ss
    (streamAddr e w.ss dst.d dst.base p s).run fun ar s1 =>
    (st.plan (min n (dst.d.burstAt ar.1 p ar.2)) s1).run fun pl s2 =>
    let b := pl.1
    (destReady e dst.d ar.1 b s2).run fun _ s2 =>
    (st.claim s2).run fun _ s2 =>
      let got : Flow (List Byte × AfterFault) := match src with
        | some a => source e a.i a.d a.base (posOf s2 e a.i) pl.2.1 (b + pl.2.2) st.missing s2
        | none => .ok ((upTo b).map (fun k => fill (p + k)), none) s2
      got.run fun gf s3 =>
        let k := if gf.2.isSome then min b (gf.1.length - pl.2.1) else b
        let (out, s4) := st.pass pl.2.1 k gf.1 s3
        let s5 := if k = 0 then s4 else countBurst e w.rd src w.ss k (destWrite e w.ss dst.d ar.1 out s4)
        match gf.2 with
        | some (cause, ea) => excAt e cause 0 ea none s5
        | none => atBoundary e w.rd (st.elig s5) s5

/-! ## MOVE -/

/-- A command that is not in the record, or is known to differ from it, waits for transmit credit before its source bytes are read,
and one that is known to be a READ for a free active read too (R151, R358; DEDUCED, log entry 60). -/
def cmdHeld (x : Link) (credit place : Bool) : Bool :=
  ((decide (x.cmdRec.length ≤ x.cmdPos ∧ x.cmdPos < 256) || credit) && (!x.canSend 4 1 || decide (64 ≤ x.replayBuf.length))) ||
  (place && decide (16 ≤ x.active.length))

/-- A MOVE to an SL_CMD stream: one STREAM_CMD (R142, R370, R371). -/
def cmdPass (e : EngId) (w : IW) (a : Side) (dst : Side) (s : State) : State :=
  let l := BitVec.ofNat 5 dst.d.port
  if (s.eng e).rg w.rd = 0 then s.modEng e Engine.retire
  else if destDead dst.d s then excAt e 0x1A 0 0 none s
  else
    (slGate e dst.d s).run fun _ s =>
    if slOpen s e dst.d.port then s
    else if cmdHeld (s.link l) (((s.eng e).cur.map Cur.needCredit).getD false) (((s.eng e).cur.map Cur.needPlace).getD false) then s
    else
      (source e a.i a.d a.base (posOf s e a.i) 0 32 (fun t => t) s).run fun gf t =>
        match gf.2 with
        | some (cause, ea) => excAt e cause 0 ea none t
        | none =>
          let done := fun (u : State) =>
            let v := (advanceSource e a.i a.d 32 u).modEng e (fun x =>
              { (x.setRg w.rd 0) with bytesSince := x.bytesSince + 32 })
            atBoundary e w.rd true v
          match (t.link l).cmdFate gf.1 with
          | .suppress => done (t.modLink l Link.cmdSkip)
          | .full => strmExc e 0x11 w.ss t
          | .waits => (dropReads e 0 t).modEng e (fun x => { x with cur := x.cur.map (fun c => { c with needCredit := true, needPlace := isRead gf.1 }) })
          | .send _ =>
            done (issue (engTxn e (32 + dst.d.port) 1 0 32 gf.1 false (chanOf t e).owner 0 0 (some w.ss) (.data e w.ss false)) t)

/-- MOVE (R160, R161): a count register of g0 raises ILLEGAL (R155). -/
def execMove (e : EngId) (w : IW) (s : State) : Host.Outcome State Fault Refusal :=
  act s (insnB e 0x14 w (fieldsOk w true false false true 0 0x07 && w.rd != 0) (fun t =>
      let u := flushFirst e (fun r => r.dst == w.ss) t
      let n := ((u.eng e).rg w.rd).toNat
      (startMove e false w (some (srcOf w)) (badMove w (fun _ => true)) (overMove u e n n) u).run fun p v =>
        match p.1 with
        | some a => if p.2.d.kind = 6 then cmdPass e w a p.2 v else burstPass e w (some a) p.2 noStage (fun _ => 0) v
        | none => v) s)

/-! ## FILL -/

/-- FILL: the pattern, taken when it starts, is tied to the position (R169). -/
def execFill (e : EngId) (w : IW) (s : State) : Host.Outcome State Fault Refusal :=
  act s (insnB e 0x17 w (fieldsOk w true false true true 0 0 && w.rd != 0) (fun t =>
      let u := flushFirst e (fun r => r.dst == w.ss) t
      let n := ((u.eng e).rg w.rd).toNat
      (startMove e false w none (badMove w (fun d => d.kind != 6)) (overMove u e 0 n) u).run fun p v =>
        let z := v.modEng e (fun x => { x with cur := x.cur.map (fun c =>
          if c.out.isEmpty then { c with out := toLe 8 (x.rg w.rb).toNat } else c) })
        burstPass e w none p.2 noStage (fun k => (((z.eng e).cur.map Cur.out).getD []).getD (k % 8) 0) z) s)

/-! ## FUNNEL (R164 to R167) -/

/-- The residue's bytes for destination `i`. -/
def staged (x : Engine) (i : BitVec 3) : List Byte :=
  match x.residue with
  | some r => if r.dst = i then r.bytes else []
  | none => []

/-- Hold bytes as the residue of destination `dst` from source `src`. -/
def holdResidue (e : EngId) (dst src : BitVec 3) (b : List Byte) (s : State) : State :=
  s.modEng e (fun x => { x with residue := if b.isEmpty then none else some { dst := dst, src := src, bytes := b } })

/-- The end of a FUNNEL: with F the residue is written as its last burst, whose boundary may take a checkpoint (R166, Table 4-5). -/
def funnelEnd (e : EngId) (rd : BitVec 5) (f : Bool) (s : State) : State :=
  if f && (s.eng e).residue.isSome then atBoundary e rd true (flush e s) else s.modEng e Engine.retire

/-- The source bytes of a FUNNEL that reach the residue and the destination: source position, count, staged bytes. -/
def funnelTake (e : EngId) (w : IW) (a : Side) (rest b : List Byte) (s : State) : State :=
  holdResidue e w.ss a.i rest ((advanceSource e a.i a.d b.length s).modEng e (fun x =>
    { (x.setRg w.rd (x.rg w.rd - BitVec.ofNat 64 b.length)) with
      cur := x.cur.map (fun c => { c with doneBytes := c.doneBytes + b.length }) }))

/-- Bytes from `a0` on that complete 64-byte aligned blocks when `n` bytes follow (R165). -/
def wholeBlocks (a0 n : Nat) : Nat := (a0 + n) / 64 * 64 - a0

/-- One pass of FUNNEL: a destination burst of whole blocks, or the remaining source bytes into the residue (R165). -/
def funnelPass (e : EngId) (w : IW) (a dst : Side) (s : State) : State :=
  let n := ((s.eng e).rg w.rd).toNat
  let f := bit w.md 0
  let st := staged (s.eng e) w.ss
  if n = 0 then funnelEnd e w.rd f s
  else
    let p := posOf s e w.ss
    let a0 := dst.d.addrAt dst.base p
    let whole := wholeBlocks a0.toNat (st.length + n)
    let b := min whole (dst.d.burstAt a0 p 0)
    let need := if whole = 0 then n else b - st.length
    if whole ≠ 0 ∧ destWaits e dst.d a0 b s then s
    else
      (source e a.i a.d a.base (posOf s e a.i) 0 need (fun t => t) s).run fun gf s1 =>
        let got := st ++ gf.1.take need
        let k := wholeBlocks a0.toNat got.length
        let s2 := if k = 0 then s1
          else (dataWrite e w.ss dst.d a0 (got.take k) true s1).modEng e (fun x => x.setPos w.ss (p + k))
        let s3 := funnelTake e w a (got.drop k) (gf.1.take need) s2
        match gf.2 with
        | some (cause, ea) => excAt e cause 0 ea none s3
        | none =>
          if (s3.eng e).rg w.rd = 0 ∧ (k = 0 ∨ (s3.eng e).residue.isSome) then funnelEnd e w.rd f s3
          else atBoundary e w.rd (k != 0) s3

/-- FUNNEL (R164 to R167). -/
def execFunnel (e : EngId) (w : IW) (s : State) : Host.Outcome State Fault Refusal :=
  act s (insnB e 0x16 w (fieldsOk w true false false true 0x01 0x07 && w.rd != 0) (fun t =>
      let u := flushFirst e (fun r => r.dst != w.ss) t
      let n := ((u.eng e).rg w.rd).toNat
      let m := (staged (u.eng e) w.ss).length + n
      (startMove e false w (some (srcOf w)) (badMove w (fun d => d.kind == 1 && decide (d.port ≤ 11))) (overMove u e n m) u).run
        fun p v => match p.1 with
          | some a => funnelPass e w a p.2 v
          | none => v) s)

/-! ## CAPT (R118, R170 to R172) -/

/-- Something has not yet been committed (R118). -/
def uncommitted (s : State) (e : EngId) : Bool :=
  let x := s.eng e
  !x.committed || !x.effects.isEmpty || writesOpen s e || x.wErr.isSome || x.residue.isSome ||
  Tbl.hasAny (fun _ b => b.changed) x.x ||
  (s.chan x.ch).ck != { ckptOf x x.pc with seq := (s.chan x.ch).ck.seq }

/-- The Alcove buffer of a read capture. -/
def captBuf (w : IW) : Nat := fld w.imm 8 13

/-- The capture's bytes reach the destination: from `out`, one burst at a time (R118). -/
def captWrites (e : EngId) (w : IW) (a dst : Side) : Nat → State → State
  | 0, s => s
  | fuel + 1, s =>
    match (s.eng e).cur with
    | none => s
    | some c =>
      if c.out.isEmpty then startCkpt e (if (s.eng e).rg w.rd = 0 then (s.eng e).pc + 8 else (s.eng e).pc) .go s
      else
        let p := posOf s e w.ss
        (streamAddr e w.ss dst.d dst.base p s).run fun ar t =>
          let b := min c.out.length (dst.d.burstAt ar.1 p ar.2)
          (destReady e dst.d ar.1 b t).run fun _ t =>
            let t1 := destWrite e w.ss dst.d ar.1 (c.out.take b) t
            let t2 := t1.modEng e (fun x =>
              let y := ((x.setPos w.ss (p + b)).setPos a.i ((x.cur_ a.i).pos.toNat + b)).setRg w.rd
                (x.rg w.rd - BitVec.ofNat 64 b)
              { y with cur := some { c with out := c.out.drop b, doneBytes := c.doneBytes + b } })
            captWrites e w a dst fuel t2

/-- One capture burst: the checkpoint before it, its source bytes, its destination writes, the checkpoint after it
(R118, R170). `form` 1 is write capture: one destination burst from the bytes read for it. A burst to SL_TX waits for its credit
before the source bytes are read (R151). Bytes that a bad sector cuts short are
a burst of their own, and the sector raises its cause at the next (R360). -/
def captPass (e : EngId) (form : Bool) (w : IW) (a dst : Side) (s : State) : State :=
  let x := s.eng e
  let n := (x.rg w.rd).toNat
  if n = 0 ∧ !x.capturing then s.modEng e Engine.retire
  else if (x.cur.map Cur.out).getD [] ≠ [] then captWrites e w a dst 257 s
  else if !x.capturing && uncommitted s e then ckptAt e x.pc .go s
  else
    let p := posOf s e w.ss
    let q := posOf s e a.i
    let size : Flow Nat := if form then
        (streamAddr e w.ss dst.d dst.base p s).bind fun ar t => .ok (min n (dst.d.burstAt ar.1 p ar.2)) t
      else (streamAddr e a.i a.d a.base q s).bind fun ar t => .ok (min n (a.d.burstAt ar.1 q ar.2)) t
    size.run fun b t =>
      (if form || dst.d.kind == 5 then destReady e dst.d (dst.d.addrAt dst.base p) b t else .ok () t).run fun _ t =>
        (source e a.i a.d a.base q 0 b (fun u => u) (t.modEng e (fun y => { y with capturing := true }))).run fun gf u =>
          match gf with
          | ([], some (cause, ea)) => excAt e cause 0 ea none u
          | (bytes, _) =>
            let u1 := (dropReads e 0 u).modEng e (fun y =>
              { (if form then y else y.alcWrite (captBuf w) bytes) with cur := y.cur.map (fun c => { c with out := bytes }) })
            captWrites e w a dst 257 (if a.d.kind = 4 then rxConsume a.d.port bytes.length u1 else u1)

/-- CAPT of a form: its checks in the order of R171, then its capture bursts. -/
def captInsn (e : EngId) (form : Bool) (w : IW) (s : State) : State :=
  insnB e 0x18 w (fieldsOk w true false false true 0x01 (if form then 0x07 else 0x1FFF07) && carriedReg w.rd) (fun t =>
      let u := flushFirst e (fun r => r.dst == w.ss) t
      let n := ((u.eng e).rg w.rd).toNat
      let bad := fun (isDst : Bool) (x : Side) =>
        (x.d.nr != (isDst == form)) || x.d.binds w.rd || (isDst && x.d.kind == 6)
      (startMove e true w (some (srcOf w)) bad (overMove u e n n) u).run fun p v =>
        if !form && captBuf w % 0x100 != 0 then
          excAt e 0x03 (BitVec.ofNat 32 (captBuf w)) (BitVec.ofNat 64 (captBuf w)) none v
        else
          match p.1 with
          | some a => captPass e form w a p.2 v
          | none => v) s

/-- CAPT, read capture (R170): the row fixes mod[0]. -/
def execCaptRead (e : EngId) (w : IW) (s : State) : Host.Outcome State Fault Refusal := act s (captInsn e false (rowForm w 1 0) s)

/-- CAPT, write capture (R170). -/
def execCaptWrite (e : EngId) (w : IW) (s : State) : Host.Outcome State Fault Refusal := act s (captInsn e true (rowForm w 1 1) s)

/-! ## Notices, checkpoints and waits (R173 to R180) -/

/-- A PROGRAM notice with its slot reserved (R65, R173). -/
def placeNotice (e : EngId) (b : List Byte) (s : State) : State :=
  (s.modChan (s.eng e).ch (fun c => { c with reserved := c.reserved + 1 })).modEng e (fun x =>
    Engine.retire { x with effects := x.effects ++ [Release.notice 1 0 b] })

/-- NOTIFY: without a free slot a checkpoint at the NOTIFY and WAITING (R66, R173). -/
def execNotify (e : EngId) (w : IW) (s : State) : Host.Outcome State Fault Refusal :=
  act s (insnB e 0x19 w (fieldsOk w false true true false 0 0) (fun t =>
    if !(chanOf t e).slotFree then ckptAt e (t.eng e).pc .space t
    else withEffect e (fun u =>
      placeNotice e (toLe 8 ((u.eng e).rg w.ra).toNat ++ toLe 8 ((u.eng e).rg w.rb).toNat) u) t) s)

/-- A WAIT: the residue is written, the condition is placed in the wait area, and its checkpoint begins (R176). -/
def waitWith (e : EngId) (sch : Sched) (late : Bool) (k : AfterCk) (s : State) : State :=
  let s1 := (flush e s).modChan (s.eng e).ch (fun c => { c with sched := sch })
  startCkpt e ((s1.eng e).pc + 8) k (s1.modEng e (fun x => { x with late := x.late || late }))

/-- WAIT TIME and WAIT ANGLE: the anchor is judged and its late policy applied (R176, Table 7-9). -/
def waitAnchor (e : EngId) (ang : Bool) (w : IW) (s : State) : State :=
  let v := (s.eng e).rg w.ra
  let pol := BitVec.ofNat 2 (fld w.md 2 2)
  let j := judge s v ang pol
  let sch := schedAfter s j v ang pol (if ang then 3 else 2) 0 0
  let s1 := judgeCount j s
  match j with
  | .armed _ _ l => waitWith e sch l .wait s1
  | .held => waitWith e sch false .wait s1
  | .fired => waitWith e sch true .wait s1
  | .drop => waitWith e sch false .drop s1
  | .trap info => waitWith e sch false (.trap info) s1

/-- WAIT TIME (R176): the row fixes mod[1:0]. -/
def waitTimeInsn (e : EngId) (w : IW) (s : State) : State :=
  insnB e 0x20 w (fieldsOk w false true false false 0x0F 0) (waitAnchor e false w) s

/-- WAIT TIME (R176): the row fixes mod[1:0]. -/
def execWaitTime (e : EngId) (w : IW) (s : State) : Host.Outcome State Fault Refusal := act s (waitTimeInsn e (rowForm w 3 0) s)

/-- WAIT ANGLE (R176, R522). -/
def waitAngleInsn (e : EngId) (w : IW) (s : State) : State :=
  insnB e 0x20 w (fieldsOk w false true false false 0x0F 0 && imgGives s e 16 0) (waitAnchor e true w) s

/-- WAIT ANGLE (R176). -/
def execWaitAngle (e : EngId) (w : IW) (s : State) : Host.Outcome State Fault Refusal := act s (waitAngleInsn e (rowForm w 3 1) s)

/-- WAIT DELAY: the anchor is fixed once (R177). DESIGN CHOICE (log entry 63): now + ra is modulo 2^64, so a sum past 2^64 counts as
passed. -/
def waitDelayInsn (e : EngId) (w : IW) (s : State) : State :=
  insnB e 0x20 w (fieldsOk w false true false false 0x03 0) (fun t =>
    waitWith e { anchor := t.now + (t.eng e).rg w.ra, armed := true, kind := 4 } false .wait t) s

/-- WAIT DELAY (R177). -/
def execWaitDelay (e : EngId) (w : IW) (s : State) : Host.Outcome State Fault Refusal := act s (waitDelayInsn e (rowForm w 3 2) s)

/-- WAIT EVENT: a channel that may not subscribe raises ILLEGAL (R176, R206). -/
def waitEventInsn (e : EngId) (w : IW) (s : State) : State :=
  insnB e 0x20 w (fieldsOk w false true false false 0x03 0xFF) (fun t =>
    let k := fld w.imm 0 8
    if !maySubscribe t (t.eng e).ch k then illegal e 0x20 w t
    else waitWith e { kind := 5, ec := BitVec.ofNat 8 k } false .wait t) s

/-- WAIT EVENT (R176, R206). -/
def execWaitEvent (e : EngId) (w : IW) (s : State) : Host.Outcome State Fault Refusal := act s (waitEventInsn e (rowForm w 3 3) s)

/-- YIELD (R175). -/
def execYield (e : EngId) (w : IW) (s : State) : Host.Outcome State Fault Refusal :=
  act s (insn e 0x21 w (fieldsOk w false false false false 0 0) (fun t => ckptAt e ((t.eng e).pc + 8) .yield t) s)

/-- CKPT (R174). -/
def execCkpt (e : EngId) (w : IW) (s : State) : Host.Outcome State Fault Refusal :=
  act s (insn e 0x22 w (fieldsOk w false false false false 0 0) (fun t => ckptAt e ((t.eng e).pc + 8) .go t) s)

/-- DONE (R180). -/
def execDone (e : EngId) (w : IW) (s : State) : Host.Outcome State Fault Refusal :=
  act s (insn e 0x23 w (fieldsOk w false false false false 0 0) (fun t => ckptAt e ((t.eng e).pc + 8) .done t) s)

end Sys2Proof.Machine
end

