-- ==== Sys2Proof/Machine/DamconXform.lean ====
section
/-! DEFINITION. DamconXform: transform bindings, MOVEX, EMIT and PATCH (R162, R163, R211 to R232, R237 to R278). -/

namespace Sys2Proof.Machine

/-! ## Transform descriptors (R237 to R239) -/

def xMode (b : List Byte) : Nat := byteAt b 0
def xDec (b : List Byte) : Bool := byteAt b 1 % 2 == 1
def xMap (b : List Byte) : Bool := byteAt b 1 / 2 % 4 == 1
/-- Map base register g(1 + MREG). -/
def xMreg (b : List Byte) : BitVec 5 := BitVec.ofNat 5 (1 + byteAt b 1 / 8 % 4)
def xCrypt (b : List Byte) : Nat := byteAt b 2 / 16
def xSkip (b : List Byte) : Nat := byteAt b 2 % 16
def xDus (b : List Byte) : Nat := leAt b 4 4
def xInit (b : List Byte) : Nat := leAt b 8 8

/-- AES modes. -/
def xAes (b : List Byte) : Bool := decide (1 ≤ xMode b ∧ xMode b ≤ 3)

/-- Width of RUN per mode (Table 6-3). -/
def runWidth (mode : Nat) : Nat := if mode = 1 then 64 else if mode ≤ 3 then 48 else if mode = 0x0B then 17 else 32

/-- The checks of R238. -/
def xdescOk (b : List Byte) : Bool :=
  let m := xMode b
  let ivUsed := m == 3 || (m == 2 && !xMap b)
  ((1 ≤ m && m ≤ 3) || (8 ≤ m && m ≤ 0x0B)) && byteAt b 1 / 32 == 0 && decide (byteAt b 1 / 2 % 4 ≤ 1) &&
  (if m = 1 ∨ 8 ≤ m then !xMap b else m != 3 || xMap b) &&
  (if xMap b then decide (byteAt b 3 ≤ 7) else byteAt b 3 == 0) && (!xDec b || m == 1 || m == 3) &&
  (if m = 1 then xDus b % 16 == 0 && decide (16 ≤ xDus b ∧ xDus b ≤ 8192) else xDus b == 0) &&
  (if m = 3 then !(xCrypt b == 0 && xSkip b != 0) else byteAt b 2 == 0) &&
  decide (xInit b < 2 ^ runWidth m) && (ivUsed || leAt b 16 16 == 0)

/-- Features that a transform mode needs of the image, as bits of FEAT (Table 15-4). -/
def xFeat (b : List Byte) : Nat := if xMode b = 1 then 1 else if xMode b = 3 ∨ (xMode b = 2 ∧ xMap b) then 2 else 0

/-- A binding admits its channel to a key slot (R265). -/
def keyAdmits (c : Chan) (k : KeySlot) : Bool := k.owner == c.owner && (!k.sec || c.sec)

/-- The binding index of mod[1:0]. -/
def bndOf (w : IW) : Nat := fld w.md 0 2

/-- RUN with the bits that the mode requires to be 0 cleared (R239). -/
def runSet (b : List Byte) (v : DWord) : DWord := BitVec.ofNat 64 (v.toNat % 2 ^ runWidth (xMode b))

/-- A binding with a new running state: a map is walked from its start again (R256). -/
def Bind.withRun (b : Bind) (v : DWord) : Bind :=
  { b with run := v, changed := true, mIdx := 0, mOff := 0, mSamp := 0, mIv := [], chain := [] }

/-- XSET (R217 to R219). -/
def execXset (e : EngId) (w : IW) (s : State) : Host.Outcome State Fault Refusal :=
  act s (insnB e 0x80 w (fieldsOk w false true true false 0x07 0xFFFFFFFF) (fun t =>
    let x := t.eng e
    let k := bndOf w
    let o := w.imm.toNat
    if o = 0 then t.setEng e ((x.setBnd k { changed := true }).retire)
    else if !descAt t o then excAt e 0x13 w.imm 0 none t
    else if !bit (t.app .xrecBase) 0 then xformExc e 0x01 k t
    else
      (psRead e 2 o 32 t).run fun b u =>
        let ks := BitVec.ofNat 10 (x.rg w.ra).toNat
        if !xdescOk b || !imgGives u e (xFeat b) 0 then xformExc e 0x02 k u
        else if xAes b && decide (2 ^ 10 ≤ (x.rg w.ra).toNat) then xformExc e 0x03 k u
        else if xAes b && !keyAdmits (chanOf u e) (u.key ks.toNat) then xformExc e 0x04 k u
        else
          let run := if bit w.md 2 then runSet b (x.rg w.rb) else BitVec.ofNat 64 (xInit b)
          u.modEng e (fun y => (y.setBnd k
            { bound := true, desc := BitVec.ofNat 24 (o / 32), bytes := b, ks := if xAes b then ks else 0, run := run,
              changed := true }).retire)) s)

/-- The running state after bytes fed to a CRC or checksum binding (R240). -/
def Bind.fold (b : Bind) (l : List Byte) : Bind :=
  { b with run := BitVec.ofNat 64 (l.foldl (foldByte (xMode b.bytes)) b.run.toNat), changed := true }

/-- XFOLD: the bytes of ra in the order of imm32[4] (R220, R223). -/
def execXfold (e : EngId) (w : IW) (s : State) : Host.Outcome State Fault Refusal :=
  let n := fld w.imm 0 4
  act s (insnB e 0x81 w (fieldsOk w false true false false 0x03 0x1F && decide (1 ≤ n ∧ n ≤ 8)) (fun t =>
    let x := t.eng e
    let b := x.bnd (bndOf w)
    if !b.bound then xformExc e 0x07 (bndOf w) t
    else if xAes b.bytes then xformExc e 0x08 (bndOf w) t
    else
      let l := toLe n (x.rg w.ra).toNat
      t.setEng e (x.setBnd (bndOf w) (b.fold (if bit w.imm 4 then l.reverse else l))).retire) s)

/-- The finalised value of a binding (Table 6-3, R221). -/
def Bind.final (b : Bind) : DWord :=
  let m := xMode b.bytes
  if m = 0x08 ∨ m = 0x09 then BitVec.ofNat 64 (lowN 32 b.run ^^^ 0xFFFFFFFF)
  else if m = 0x0A then BitVec.ofNat 64 (lowN 32 b.run)
  else if m = 0x0B then BitVec.ofNat 64 (0xFFFF - lowN 16 b.run)
  else b.run

/-- XGET (R221, R223). -/
def execXget (e : EngId) (w : IW) (s : State) : Host.Outcome State Fault Refusal :=
  act s (insnB e 0x82 w (fieldsOk w true false false false 0x03 0) (fun t =>
    let b := (t.eng e).bnd (bndOf w)
    if !b.bound then xformExc e 0x07 (bndOf w) t else t.modEng e (fun x => (x.setRg w.rd b.final).retire)) s)

/-- XRST (R222, R223). -/
def execXrst (e : EngId) (w : IW) (s : State) : Host.Outcome State Fault Refusal :=
  act s (insnB e 0x83 w (fieldsOk w false false true false 0x07 0) (fun t =>
    let x := t.eng e
    let b := x.bnd (bndOf w)
    if !b.bound then xformExc e 0x07 (bndOf w) t
    else
      let v := if bit w.md 2 then runSet b.bytes (x.rg w.rb) else BitVec.ofNat 64 (xInit b.bytes)
      t.setEng e (x.setBnd (bndOf w) (b.withRun v)).retire) s)

/-! ## Crypt maps (R255 to R259) -/

/-- A crypt map entry in place: its index, stage offset, clear and protected bytes, protected bytes of its sample before
it, IV, and whether it is the last. -/
structure Seg where
  idx : Nat
  off : Nat
  clear : Nat
  prot : Nat
  samp : Nat
  iv : List Byte
  last : Bool
  deriving DecidableEq, Repr

/-- An entry breaks R257. -/
def mapBad (mode idx : Nat) (b : List Byte) : Bool :=
  let fl := byteAt b 14
  let sample := fl % 2 == 1
  decide (4 ≤ fl) || byteAt b 15 != 0 || (idx == 0 && !sample) || (leAt b 8 2 == 0 && leAt b 10 4 == 0) ||
  (leAt b 0 8 != 0 && !(mode == 2 && sample)) || (mode == 3 && decide (1048576 < leAt b 10 4))

/-- The entry at the place that follows `iv` and `samp`. -/
def mapSeg (idx off samp : Nat) (iv b : List Byte) : Seg :=
  let sample := byteAt b 14 % 2 == 1
  { idx := idx, off := off, clear := leAt b 8 2, prot := leAt b 10 4, samp := if sample then 0 else samp,
    iv := if sample then slice b 0 8 else iv, last := byteAt b 14 / 2 % 2 == 1 }

/-- The entries that cover stage offsets `o` to `o + b − 1` of binding `k`, from the entry at `idx`; each is read once
for the MOVEX. The binding's place moves past entries that end at or below `o`. -/
def mapSegs (e : EngId) (k : Nat) (base : DWord) (o b : Nat) : Nat → Nat → Nat → Nat → List Byte → State → Flow (List Seg)
  | 0, _, _, _, _, s => .stop s
  | fuel + 1, idx, off, samp, iv, s =>
    let bd := (s.eng e).bnd k
    let a := base + BitVec.ofNat 64 (16 * idx)
    if base.toNat % 16 ≠ 0 then .stop (xformExc e 0x0A k s)
    else
      match readAt (s.eng e) 4 a with
      | none =>
        .stop (issueRead e none 4 (byteAt bd.bytes 3) (chanOf s e).sec 1 1 a 16 s)
      | some r =>
        match r.bytes with
        | none => .stop s
        | some eb =>
          if mapBad (xMode bd.bytes) idx eb then .stop (xformExc e 0x0A k s)
          else
            let g := mapSeg idx off samp iv eb
            let stop := off + g.clear + g.prot
            if stop ≤ o ∧ !g.last then
              mapSegs e k base o b fuel (idx + 1) stop (g.samp + g.prot) g.iv
                (s.modEng e (fun x => x.setBnd k { bd with mIdx := idx + 1, mOff := stop, mSamp := g.samp + g.prot, mIv := g.iv,
                                                           chain := [] }))
            else if o + b ≤ stop then .ok [g] s
            else if g.last then .stop (xformExc e 0x0B k s)
            else
              (mapSegs e k base o b fuel (idx + 1) stop (g.samp + g.prot) g.iv s).bind fun l t => .ok (g :: l) t

/-- The entry that holds stage offset `p`. -/
def segAt (l : List Seg) (p : Nat) : Option Seg := l.find? (fun g => decide (g.off ≤ p ∧ p < g.off + g.clear + g.prot))

/-! ## Cipher blocks (R241, R250 to R253) -/

/-- The start of the processed CBCP block that holds stage offset `p`, if one does (R253). -/
def cbcBlock (b : List Byte) (l : List Seg) (p : Nat) : Option Nat :=
  (segAt l p).bind fun g =>
    let q := p - g.off - g.clear
    let j := q / 16
    if g.off + g.clear ≤ p ∧ 16 * (j + 1) ≤ g.prot ∧ (xCrypt b + xSkip b = 0 ∨ j % (xCrypt b + xSkip b) < xCrypt b) then
      some (g.off + g.clear + 16 * j)
    else none

/-- Whether the processed block at `bs` is the first of its range. -/
def cbcFirst (l : List Seg) (bs : Nat) : Bool :=
  match segAt l bs with
  | some g => bs == g.off + g.clear
  | none => true

/-- Bursts end at cipher-block ends where they can: the size, and the bytes of a split block before and after it
(R241). `blk` gives the start of the block that holds an offset. -/
def blockPlan (blk : Nat → Option Nat) (o b : Nat) : Nat × Nat × Nat :=
  let stop := o + b
  let cut := match blk (stop - 1) with
    | some bs => if stop < bs + 16 ∧ o < bs then bs else stop
    | none => stop
  (cut - o, (match blk o with | some bs => o - bs | none => 0),
    (match blk (cut - 1) with | some bs => bs + 16 - cut | none => 0))

/-- The 16 source bytes of the block at `bs`, when `l` (which begins at offset `lo`) holds them all. -/
def blockBytes (l : List Byte) (lo bs : Nat) : Option (List Byte) :=
  if lo ≤ bs ∧ bs + 16 ≤ lo + l.length then some (slice l (bs - lo) 16) else none

/-- Pass stage offsets `o` to `o + n − 1` block by block: `blk` names the block of an offset, `f` processes the block
at a place; bytes outside every block pass unchanged. `h` is carried from block to block and changes at a block's end. A
block whose bytes this MOVEX cannot see yields free bytes. -/
def passBlocks (blk : Nat → Option Nat) (f : Nat → List Byte → List Byte → List Byte × List Byte) (l : List Byte) (lo : Nat)
    (fuel o n : Nat) (h : List Byte) (s : State) : List Byte × List Byte × State :=
  match fuel with
  | 0 => ([], h, s)
  | fuel + 1 =>
    if n = 0 then ([], h, s)
    else
      match blk o with
      | none =>
        let (r, h1, s1) := passBlocks blk f l lo fuel (o + 1) (n - 1) h s
        (l.getD (o - lo) 0 :: r, h1, s1)
      | some bs =>
        let k := min n (bs + 16 - o)
        let ((out, h1), s1) : (List Byte × List Byte) × State := match blockBytes l lo bs with
          | some b => (f bs b h, s)
          | none => let (d, t) := drawBytes 16 s; ((d, d), t)
        let h2 := if bs + 16 ≤ o + k then h1 else h
        let (r, h3, s2) := passBlocks blk f l lo fuel (o + k) (n - k) h2 s1
        (slice out (o - bs) k ++ r, h3, s2)

/-! ## Stages of MOVEX (R162, R163, R242) -/

/-- The stage codes of a MOVEX. -/
def stageCodes (w : IW) : List Nat := [fld w.imm 4 4, fld w.imm 8 4, fld w.imm 12 4]

/-- The codes obey R162. -/
def stagesOk (l : List Nat) : Bool :=
  match l with
  | [a, b, c] => l.all (fun k => decide (k ≤ 3) || k == 0xF) && a != 0xF && !(b == 0xF && c != 0xF)
  | _ => false

/-- The bindings of the chain. -/
def chainOf (w : IW) : List Nat := (stageCodes w).filter (fun k => decide (k ≤ 3))

/-- The key material of the pipeline claimed (R248). -/
def keyOf (x : Engine) : List Byte := slice ((x.pipe.map Prod.snd).getD []) 0 64

/-- Bytes of the MOVEX that have passed (for XTS, whose blocks are counted from the start of a data unit). -/
def passedBytes (x : Engine) : Nat := (x.cur.map Cur.doneBytes).getD 0

/-- The place of a binding in its stage: bytes passed for XTS, RUN otherwise (Table 6-3). -/
def placeOf (x : Engine) (b : Bind) : Nat := if xMode b.bytes = 1 then passedBytes x else b.run.toNat

/-- The block of an offset for a binding's mode. -/
def blockOf (b : Bind) (l : List Seg) (p : Nat) : Option Nat :=
  if xMode b.bytes = 1 then some (p / 16 * 16) else if xMode b.bytes = 3 then cbcBlock b.bytes l p else none

/-- No protected range is partly passed at stage offset `o`: the entry that holds it is found among those read for the
MOVEX, from the one at `idx` (Table 6-4). -/
def rangeWhole (x : Engine) (base : DWord) (o : Nat) : Nat → Nat → Nat → Bool
  | 0, _, _ => true
  | fuel + 1, idx, off =>
    match readAt x 4 (base + BitVec.ofNat 64 (16 * idx)) with
    | some r =>
      let eb := r.bytes.getD []
      let stop := off + leAt eb 8 2 + leAt eb 10 4
      if o ≤ off + leAt eb 8 2 then true else if o < stop then false else rangeWhole x base o fuel (idx + 1) stop
    | none => true

/-- A binding's stage permits a checkpoint now (Table 6-4). -/
def stagePermits (e : EngId) (k : Nat) (s : State) : Bool :=
  let x := s.eng e
  let b := x.bnd k
  if xMode b.bytes = 1 then passedBytes x % xDus b.bytes == 0
  else if xMode b.bytes = 3 then rangeWhole x ((x.cur.map Cur.mapBase).getD 0) (lowN 48 b.run) 600 b.mIdx b.mOff
  else true

/-- The work order ends with INTERNAL: its held effects are discarded (R247, R674). -/
def endInternal (e : EngId) (s : State) : State := (dropEffects e s).modEng e (beginEnd 0x7F)

/-- The pipelines of gallery `g` in service and unclaimed. -/
def freePipes (s : State) (g : Nat) : List Bool :=
  [false, true].filter (fun p => pipeOk s g p && !(galEngs g).any (fun f => ((s.eng f).pipe.map Prod.fst) == some p))

/-- Place of a slot in the round robin that follows the slot served last (R246). -/
def pipeRank (s : State) (e : EngId) : Nat := (e.slot.val + 16 - (s.gal e.g.toNat).pipeLast.val) % 17

/-- Engines that wait for a pipeline and come before engine `e`. -/
def pipeAhead (s : State) (e : EngId) : List EngId :=
  (galEngs e.g.toNat).filter (fun f =>
    (s.eng f).pipeAsk && canRun (s.eng f) && !engHeld s f && decide (pipeRank s f < pipeRank s e))

/-- The claim of an AES pipeline for a burst: the engine waits while both are claimed, and the pipeline reads the key slot
(R246 to R249). -/
def claim (e : EngId) (k : Nat) (s : State) : Flow Unit :=
  if (s.eng e).pipe.isSome then .ok () s
  else if !aesServes s e.g.toNat then .stop (rehomeAes e s)
  else match (freePipes s e.g.toNat)[(pipeAhead s e).length]? with
    | none => .stop (s.modEng e (fun x => { x with pipeAsk := true }))
    | some p =>
      let b := (s.eng e).bnd k
      let ks := s.key b.ks.toNat
      if ks.st = 2 then .stop (endInternal e s)
      else if ks.st ≠ 1 then .stop (xformExc e 0x05 k s)
      else if ks.kind != (xMode b.bytes == 1) then .stop (xformExc e 0x06 k s)
      else .ok () ((s.modEng e (fun x => { x with pipe := some (p, ks.key), pipeAsk := false })).modGal e.g.toNat
        (fun g => { g with pipeLast := e.slot }))

/-- The pipeline is released (R246). -/
def unclaim (e : EngId) (s : State) : State := s.modEng e (fun x => { x with pipe := none })

/-- The AES binding of the chain. -/
def aesOf (s : State) (e : EngId) (w : IW) : Option Nat := (chainOf w).find? (fun k => xAes ((s.eng e).bnd k).bytes)

/-- The map entries that binding `k` needs for `n` bytes; none without a map. -/
def segsFor (e : EngId) (k n : Nat) (s : State) : Flow (List Seg) :=
  let x := s.eng e
  let b := x.bnd k
  if xMap b.bytes then
    mapSegs e k ((x.cur.map Cur.mapBase).getD 0) (lowN 48 b.run) n 600 b.mIdx b.mOff b.mSamp b.mIv s
  else .ok [] s

/-- The entries already read that binding `k` needs for `n` bytes. -/
def segsNow (e : EngId) (k n : Nat) (s : State) : List Seg :=
  match segsFor e k n s with
  | .ok l _ => l
  | .stop _ => []

/-- The plan of a burst of at most `n` bytes (R241). -/
def planChain (e : EngId) (w : IW) (n : Nat) (s : State) : Flow (Nat × Nat × Nat) :=
  match aesOf s e w with
  | none => .ok (n, 0, 0) s
  | some k =>
    (segsFor e k n s).bind fun l u =>
      let x := u.eng e
      let b := x.bnd k
      let p := blockPlan (blockOf b l) (placeOf x b) n
      .ok (p.1, if p.2.1 ≤ passedBytes x then p.2.1 else 0,
        if p.1 + p.2.2 ≤ (x.rg w.rd).toNat then p.2.2 else 0) u

/-- One block of a binding's cipher at stage place `bs`. -/
def cipherBlock (key : List Byte) (b : Bind) (place bs : Nat) (blk h : List Byte) : List Byte × List Byte :=
  if xMode b.bytes = 1 then
    let d := xDus b.bytes
    (xtsBlock key ((lowN 64 b.run + (bs / d - place / d)) % 2 ^ 64) (bs % d / 16) (xDec b.bytes) blk, h)
  else if xDec b.bytes then (xorBytes (aesDec (slice key 0 32) blk) h, blk)
  else let c := aesEnc (slice key 0 32) (xorBytes blk h); (c, c)

/-- The CTR keystream applied to bytes that begin at stage place `o` (R251, R252). -/
def ctrPass (key : List Byte) (b : Bind) (l : List Seg) (o : Nat) (d : List Byte) : List Byte :=
  (d.zipIdx).map (fun p =>
    if xMap b.bytes then
      (match segAt l (o + p.2) with
       | some g =>
         if g.off + g.clear ≤ o + p.2 then
           p.1 ^^^ ctrByte key (slice g.iv 0 8 ++ List.replicate 8 0) (g.samp + (o + p.2 - g.off - g.clear))
         else p.1
       | none => p.1)
    else p.1 ^^^ ctrByte key (slice b.bytes 16 16) ((o + p.2) % 2 ^ 64))

/-- An AES stage passes `n` bytes; `raw` begins `back` bytes before them. -/
def aesPass (e : EngId) (k back n : Nat) (raw : List Byte) (s : State) : List Byte × State :=
  let x := s.eng e
  let b := x.bnd k
  let o := placeOf x b
  let l := segsNow e k n s
  let m := xMode b.bytes
  if m = 2 then
    (ctrPass (keyOf x) b l o ((raw.drop back).take n),
     tmAdd 34 n (s.setEng e (x.setBnd k { b with run := b.run + BitVec.ofNat 64 n, changed := true })))
  else
    let iv := slice b.bytes 16 16
    let f := fun bs blk h => cipherBlock (keyOf x) b o bs blk (if m = 3 ∧ (cbcFirst l bs ∨ h.isEmpty) then iv else h)
    let (out, h, s1) := passBlocks (blockOf b l) f raw (o - back) (n + 1) o n b.chain s
    let run := if m = 1 then b.run + BitVec.ofNat 64 ((o + n) / xDus b.bytes - o / xDus b.bytes)
               else b.run + BitVec.ofNat 64 n
    (out, tmAdd 34 n (s1.setEng e (x.setBnd k { b with run := run, chain := h, changed := true })))

/-- The chain passes a burst of `n` bytes, stage by stage, and releases its pipeline (R162, R246, R270). -/
def passChain (e : EngId) (w : IW) (back n : Nat) (raw : List Byte) (s : State) : List Byte × State :=
  let r := (chainOf w).foldl (fun (d, t) k =>
    let x := t.eng e
    let b := x.bnd k
    if xAes b.bytes then aesPass e k back n raw t
    else (d, t.setEng e (x.setBnd k (b.fold d)))) ((raw.drop back).take n, s)
  (r.1, unclaim e r.2)

/-- Link data is missing: the burst gives its claim back; HELD_FULL where the buffer is full and a stage is not at an eligible
point (R245). -/
def heldFull (e : EngId) (w : IW) (link : Option Nat) (s0 : State) : State :=
  let s := unclaim e s0
  match link with
  | some l =>
    if 16384 ≤ (s.link (BitVec.ofNat 5 l)).held then
      (match (chainOf w).find? (fun k => !stagePermits e k s) with
       | some k => xformExc e 0x0D k s
       | none => s)
    else s
  | none => s

/-- The stages of a MOVEX. -/
def chainStage (e : EngId) (w : IW) (link : Option Nat) : Stage :=
  { plan := planChain e w, pass := passChain e w, elig := fun s => (chainOf w).all (fun k => stagePermits e k s),
    claim := fun s => (match aesOf s e w with | some k => claim e k s | none => .ok () s), missing := heldFull e w link }

/-- The checks of a chain before any byte moves: bound, at most one AES binding, its key slot's owner after a resumption (an
EMPTY slot is left to the claim, Table 6-10a), and whole data units (R163, R216, R243). DEDUCED (log entry 65): a second AES binding
is the stage that R163 calls ill-ordered, and UNBOUND is the one sub-cause that Tables 5-7 and 6-11 give a MOVEX stage. -/
def checkChain (e : EngId) (w : IW) (s : State) : Flow Unit :=
  let x := s.eng e
  let ch := chainOf w
  match ch.find? (fun k => !(x.bnd k).bound) with
  | some k => .stop (xformExc e 0x07 k s)
  | none =>
    match ch.filter (fun k => xAes (x.bnd k).bytes) with
    | [] => .ok () s
    | [k] =>
      let b := x.bnd k
      if b.recheck && (s.key b.ks.toNat).st != 0 && !keyAdmits (chanOf s e) (s.key b.ks.toNat) then .stop (xformExc e 0x04 k s)
      else if xMode b.bytes = 1 ∧ (x.rg w.rd).toNat % xDus b.bytes ≠ 0 then .stop (xformExc e 0x0C k s)
      else .ok () (s.setEng e (x.setBnd k { b with recheck := b.recheck && (s.key b.ks.toNat).st == 0 }))
    | _ :: k :: _ => .stop (xformExc e 0x07 k s)

/-- The map base of the chain's AES binding, sampled when the MOVEX starts (R255). -/
def mapBaseOf (x : Engine) (w : IW) : DWord :=
  match (chainOf w).find? (fun k => xMap (x.bnd k).bytes) with
  | some k => x.rg (xMreg (x.bnd k).bytes)
  | none => 0

/-- MOVEX (R162, R163). -/
def execMovex (e : EngId) (w : IW) (s : State) : Host.Outcome State Fault Refusal :=
  act s (insnB e 0x15 w (fieldsOk w true false false true 0 0xFFF7 && w.rd != 0 && stagesOk (stageCodes w)) (fun t =>
      let u := flushFirst e (fun r => r.dst == w.ss) t
      let n := ((u.eng e).rg w.rd).toNat
      let fresh := (u.eng e).cur.isNone
      (startMove e false w (some (srcOf w)) (badMove w (fun d => d.kind != 6)) (overMove u e n n) u).run fun p v =>
        let go := fun (z : State) =>
          let link := match p.1 with | some a => if a.d.kind = 4 then some a.d.port else none | none => none
          burstPass e w p.1 p.2 (chainStage e w link) (fun _ => 0) z
        if fresh then
          (checkChain e w v).run fun _ z =>
            go (z.modEng e (fun x => { x with cur := x.cur.map (fun c => { c with mapBase := mapBaseOf x w }) }))
        else go v) s)

/-! ## Template emission (R224 to R228, R275 to R278) -/

/-- A field entry of a template (Table 6-14). -/
structure TField where
  bitpos : Nat
  wid : Nat
  src : Nat
  sel : Nat
  le : Bool
  shift : Nat
  inc : Nat
  ctr : Nat
  deriving DecidableEq, Repr

/-- Decode a field entry. -/
def decField (b : List Byte) : TField :=
  { bitpos := leAt b 0 2, wid := byteAt b 2, src := byteAt b 3 % 16, sel := byteAt b 3 / 16 % 8, le := 128 ≤ byteAt b 3,
    shift := byteAt b 4, inc := byteAt b 5, ctr := leAt b 6 2 }

/-- A decoded template: header fields, image, fields (Table 6-13). -/
structure Templ where
  img : List Byte
  stf : Nat
  stfShift : Nat
  stfByte : Byte
  stfPos : Nat
  flds : List TField
  deriving DecidableEq, Repr

/-- Bytes of a template whose header is given. -/
def templSize (h : List Byte) : Nat := 8 + (leAt h 0 2 + 7) / 8 * 8 + 8 * byteAt h 2

/-- The header obeys Table 6-13. -/
def headOk (h : List Byte) : Bool :=
  decide (1 ≤ leAt h 0 2 ∧ leAt h 0 2 ≤ 1024 ∧ byteAt h 2 ≤ 32 ∧ byteAt h 3 ≤ 2 ∧ byteAt h 4 < 64 ∧ leAt h 6 2 ≤ leAt h 0 2)

/-- Decode a whole template. -/
def decTempl (b : List Byte) : Templ :=
  let f0 := 8 + (leAt b 0 2 + 7) / 8 * 8
  { img := slice b 8 (leAt b 0 2), stf := byteAt b 3, stfShift := byteAt b 4, stfByte := b.getD 5 0, stfPos := leAt b 6 2,
    flds := (upTo (byteAt b 2)).map (fun i => decField (slice b (f0 + 8 * i) 8)) }

/-- A field obeys Tables 6-14 and 6-15 and R277, for the engine's streams and bindings. -/
def fieldOk (x : Engine) (n : Nat) (f : TField) : Bool :=
  decide (1 ≤ f.wid ∧ f.wid ≤ 64 ∧ f.shift < 64 ∧ f.bitpos + f.wid ≤ 8 * n ∧ 1 ≤ f.src ∧ f.src ≤ 9) &&
  (!f.le || (f.bitpos % 8 == 0 && f.wid % 8 == 0)) && (f.src == 3 || (f.inc == 0 && f.ctr == 0)) &&
  (!(f.src == 4 || f.src == 5) || (x.cur_ (BitVec.ofNat 3 f.sel)).desc != 0) &&
  (f.src != 8 || (decide (f.sel ≤ 3) && (x.bnd f.sel).bound))

/-- Stuffing bytes (R276). -/
def stuffing (t : Templ) (a0 a1 : DWord) : Nat :=
  if t.stf = 0 then 0 else (if t.stf = 1 then a0 else a1).toNat / 2 ^ t.stfShift % 1024

/-- The template obeys R277. -/
def templOk (x : Engine) (t : Templ) (k : Nat) : Bool :=
  t.flds.all (fieldOk x t.img.length) &&
  t.flds.all (fun f => f.src != 3 || decide ((t.flds.filter (fun g => g.src == 3 && g.ctr == f.ctr)).length ≤ 4)) &&
  decide (t.img.length + k ≤ 1024)

/-- Offset of a counter field. -/
def ctrOff (s : State) (f : TField) : Nat := s.tscrBase + 8 * f.ctr

/-- Sample the counters of a list of offsets, each as TCLD would return it (R226). -/
def sampleCtrs (e : EngId) : List Nat → State → Flow (List (Nat × Nat))
  | [], s => .ok [] s
  | o :: r, s =>
    (counterRead e o s).flow.bind fun b t => (sampleCtrs e r t).bind fun l u => .ok ((o, ofLe b) :: l) u

/-- Lengths of the streams that SLEN fields name (Table 6-15). -/
def sampleLens (e : EngId) : List Nat → State → Flow (List (Nat × Nat))
  | [], s => .ok [] s
  | i :: r, s =>
    (needDesc e (BitVec.ofNat 3 i) s).bind fun d t =>
      (sampleLens e r t).bind fun l u => .ok ((i, d.lenOf (u.eng e)) :: l) u

/-- A pair's value in a list of samples. -/
def sampled (l : List (Nat × Nat)) (k : Nat) : Nat := ((l.find? (fun p => p.1 == k)).map Prod.snd).getD 0

/-- A signed increment modulo 2^64. -/
def incOf (f : TField) : Nat := modN 64 (sgn 8 f.inc)

/-- The image with a field's value inserted (R276). -/
def insertField (n : Nat) (f : TField) (v : Nat) (img : List Byte) : List Byte :=
  if f.le then patchBytes img (f.bitpos / 8) (toLe (f.wid / 8) v)
  else
    let m := ofBe img
    let l := 8 * n - f.bitpos - f.wid
    toBe n (m - m / 2 ^ l % 2 ^ f.wid * 2 ^ l + v * 2 ^ l)

/-- The value of a field's source (Table 6-15): `acc` holds the running counter values. -/
def fieldVal (s : State) (x : Engine) (a0 a1 : DWord) (lens acc : List (Nat × Nat)) (outLen : Nat) (f : TField) : Nat :=
  match f.src with
  | 1 => a0.toNat
  | 2 => a1.toNat
  | 3 => (sampled acc (ctrOff s f) + incOf f) % 2 ^ 64
  | 4 => (x.cur_ (BitVec.ofNat 3 f.sel)).pos.toNat
  | 5 => sampled lens f.sel
  | 6 => s.now.toNat
  | 7 => outLen
  | 8 => (x.bnd f.sel).final.toNat
  | _ => x.ch.toNat

/-- The image and the counter values after all fields, in list order (R276, R278). -/
def fillFields (s : State) (x : Engine) (a0 a1 : DWord) (lens : List (Nat × Nat)) (n outLen : Nat) :
    List TField → List (Nat × Nat) → List Byte → List Byte × List (Nat × Nat)
  | [], acc, img => (img, acc)
  | f :: r, acc, img =>
    let v := fieldVal s x a0 a1 lens acc outLen f
    let acc1 := if f.src = 3 then acc.map (fun p => if p.1 = ctrOff s f then (p.1, v) else p) else acc
    fillFields s x a0 a1 lens n outLen r acc1 (insertField n f (v / 2 ^ f.shift % 2 ^ f.wid) img)

/-- The template at offset `o`, read through the Vitrine, or DESC_BAD (R225, R275). -/
def readTempl (e : EngId) (o : Nat) (a0 a1 : DWord) (s : State) : Flow Templ :=
  let bad := fun (t : State) => xformExc e 0x02 0 t
  if o % 8 ≠ 0 ∨ o < 0x40 ∨ s.psSize < o + 8 then .stop (bad s)
  else
    (psRead e 1 o 8 s).flow.bind fun h t =>
      if !headOk h || decide (t.psSize < o + templSize h) then .stop (bad t)
      else
        (psRead e 1 o (templSize h) t).flow.bind fun b u => let m := decTempl b; if templOk (u.eng e) m (stuffing m a0 a1) then .ok m u else .stop (bad u)

/-- EMIT's checks, its bytes and its counter updates, before anything is written (R225, R226). DESIGN CHOICE (log entry 59): with F the
position that R225 tests is the stream's own, without the bytes of the residue. -/
def startEmit (e : EngId) (w : IW) (s : State) : Flow Side :=
  (needDefined e w.ss s).bind fun _ s1 =>
  (needDesc e w.ss s1).bind fun d s2 =>
  let f := bit w.md 0
  let x := s2.eng e
  let side := sideOf x w.ss d
  match x.cur with
  | some c => .ok { side with base := c.dstBase, len := c.dstLen } s2
  | none =>
    (must d.dir (strmExc e 0x12 w.ss) s2).bind fun _ s3 =>
    (must (d.kind != 6 && !d.nr && !side.misHead && (!f || (d.kind == 1 && decide (d.port ≤ 11)))) (descExc e w.ss) s3).bind
      fun _ s4 =>
    let a0 := x.rg w.ra
    let a1 := x.rg w.rb
    (readTempl e w.imm.toNat a0 a1 s4).bind fun m s5 =>
    let offs := ((m.flds.filter (fun g => g.src == 3)).map (ctrOff s5)).eraseDups
    (must (offs.all (counterOk s5)) (xformExc e 0x09 0) s5).bind fun _ s6 =>
    let k := stuffing m a0 a1
    let n := m.img.length
    let end_ := posOf s6 e w.ss + n + k
    (must (decide (end_ ≤ side.len)) (strmExc e 0x11 w.ss) s6).bind fun _ s60 =>
    (if d.kind = 3 then (sgFind e w.ss d side.base end_ true s60).bind fun _ u => .ok () u else .ok () s60).bind fun _ s7 =>
    if m.flds.any (fun g => g.src == 3 && g.inc != 0) && decide (16 ≤ (s7.eng e).effects.length) then
      .stop (ckptAt e (s7.eng e).pc .go s7)
    else
      (sampleCtrs e offs s7).bind fun cs s8 =>
      (sampleLens e ((m.flds.filter (fun g => g.src == 5)).map TField.sel) s8).bind fun ls s9 =>
      let r := fillFields s9 (s9.eng e) a0 a1 ls n (n + k) m.flds cs m.img
      let out := r.1.take m.stfPos ++ List.replicate k m.stfByte ++ r.1.drop m.stfPos
      let incs := m.flds.any (fun g => g.src == 3 && g.inc != 0)
      let ctr := if incs then r.2.map (fun p => (p.1, BitVec.ofNat 64 p.2)) else []
      let c : Cur := { w := w, dstBase := side.base, dstLen := side.len, out := out, ctr := ctr }
      .ok side (s9.modEng e (fun y => { y with cur := some c }))

/-- EMIT retires: its counter updates are one held effect (R226). -/
def emitEnd (e : EngId) (s : State) : State :=
  s.modEng e (fun x =>
    let l := (x.cur.map Cur.ctr).getD []
    if l.isEmpty then x.retire
    else Engine.retire { x with effects := x.effects ++ [Release.counters l],
                                counters := l.foldl (fun t p => Tbl.put none t p.1 (some p.2)) x.counters })

/-- EMIT's bytes as destination bursts (R227), or through the residue with F (R228), from what is left to write; a residue that keeps
an overdue checkpoint back is written at its burst boundaries (R168). DESIGN CHOICE (log entry 59): EMIT has no source, so the residue
keeps the source that FUNNEL gave it, and one that EMIT begins counts its destination as its source. -/
def emitWrites (e : EngId) (w : IW) (dst : Side) : Nat → State → State
  | 0, s => s
  | fuel + 1, s =>
    let f := bit w.md 0
    let x := s.eng e
    match x.cur with
    | none => s
    | some c =>
      let st := if f then staged x w.ss else []
      let all := st ++ c.out
      let p := posOf s e w.ss
      (streamAddr e w.ss dst.d dst.base p s).run fun ar t =>
        let whole := if f then wholeBlocks ar.1.toNat all.length else all.length
        if whole = 0 then emitEnd e (if f then holdResidue e w.ss (((x.residue.map Residue.src)).getD w.ss) all t else t)
        else
          let b := min whole (dst.d.burstAt ar.1 p ar.2)
          (destReady e dst.d ar.1 b t).run fun _ t =>
            let t1 := (destWrite e w.ss dst.d ar.1 (all.take b) t).modEng e (fun y =>
              let z := y.setPos w.ss (p + b)
              { z with
                cur := some { c with out := all.drop b }
                residue := if f then none else y.residue })
            let t2 := if overdue t1 e then flush e t1 else t1
            if !f && (all.drop b).isEmpty then emitEnd e t2 else emitWrites e w dst fuel t2

/-- EMIT (R224 to R228). -/
def execEmit (e : EngId) (w : IW) (s : State) : Host.Outcome State Fault Refusal :=
  act s (insnB e 0x84 w (fieldsOk w false true true true 0x01 0xFFFFFFFF) (fun t =>
      (startEmit e w (flushFirst e (fun r => (r.dst == w.ss) != bit w.md 0) t)).run fun d v => emitWrites e w d 1030 v) s)

/-! ## Back-patching (R229 to R232) -/

/-- The bytes PATCH writes (R229). -/
def patchVal (x : Engine) (w : IW) : List Byte :=
  let l := toLe (accSize w) (x.rg w.rb).toNat
  if bit w.md 2 then l.reverse else l

/-- PATCH's writes, from what is left to write; they count no BYTES (R231, R232). -/
def patchWrites (e : EngId) (i : BitVec 3) (d : Desc) : Nat → State → State
  | 0, s => s
  | fuel + 1, s =>
    match (s.eng e).cur with
    | none => s
    | some c =>
      if c.out.isEmpty then s.modEng e Engine.retire
      else
        (streamAddr e i d c.dstBase c.doneBytes s).run fun ar t =>
          let b := min c.out.length (d.burstAt ar.1 c.doneBytes ar.2)
          if destWaits e d ar.1 b t then t
          else
            let t1 := if d.kind = 7 then
                t.modEng e (fun x => { (x.alcWrite ar.1.toNat (c.out.take b)) with bytesSince := x.bytesSince + b })
              else dataWrite e i d ar.1 (c.out.take b) false t
            patchWrites e i d fuel (t1.modEng e (fun x =>
              { x with cur := some { c with out := c.out.drop b, doneBytes := c.doneBytes + b } }))

/-- PATCH (R229 to R232); its walk from the list's head leaves the stream's own place as it was. DESIGN CHOICE (log entry 59):
DESC_INVALID of a bound head that is not aligned comes before STREAM_DIR and STREAM_END, and any write of the work order that failed
is raised here, as FENCE does. -/
def execPatch (e : EngId) (w : IW) (s : State) : Host.Outcome State Fault Refusal :=
  act s (insnB e 0x85 w (fieldsOk w false true true true 0x07 0) (fun t =>
    (needDefined e w.ss (flushFirst e (fun r => r.dst == w.ss) t)).run fun _ s1 =>
    (needDesc e w.ss s1).run fun d s2 =>
    let x := s2.eng e
    let p := (x.rg w.ra).toNat
    if x.cur.isSome then patchWrites e w.ss d 10 s2
    else if d.sl || d.nr || (sideOf x w.ss d).misHead then descExc e w.ss s2
    else if !d.dir then strmExc e 0x12 w.ss s2
    else if posOf s2 e w.ss < p + accSize w then strmExc e 0x11 w.ss s2
    else if s2.txns.any (fun t => match t.purpose with | .data y i _ => y == e && i == w.ss | _ => false) then s2
    else if x.wErr.isSome then raiseImprecise e s2
    else
      patchWrites e w.ss d 10 ((setWalk e w.ss {} s2).modEng e (fun y =>
        { y with cur := some { w := w, walk0 := some (x.walk0 w.ss), dstBase := d.baseOf y, dstLen := d.lenOf y, doneBytes := p, out := patchVal y w } }))) s)

end Sys2Proof.Machine
end

