-- ==== Sys2Proof/Machine/Faults.lean ====
section
/-! DEFINITION. Faults: assertions, stuck sources, replays of channels, FLT_N, the fault state and injections (16). -/

namespace Sys2Proof.Machine

/-! ## Assertions (R543, R544, R557) -/

/-- The domain whose unit drives source `n` (Table 16-1). -/
def srcDom (n : Nat) : Nat :=
  if n < 160 then 7 + n % 32
  else if n < 176 then 3 + n % 4
  else if n < 184 then 3 + (n - 176) / 2
  else if n < 198 then 2
  else if n < 230 then 39 + (n - 198) / 8
  else if n < 234 then 39 + (n - 230)
  else if n < 252 then 1
  else if (265 ≤ n ∧ n ≤ 269) ∨ 283 ≤ n then 0
  else 2

/-- The source's unit is populated (R26). -/
def srcPresent (s : State) (n : Nat) : Bool :=
  if n < 184 then domPresent s (srcDom n)
  else if n < 284 then true
  else if n < 316 then domPresent s (7 + (n - 284))
  else domPresent s (3 + (n - 316))

/-- A source asserts; FCR records it and its reaction follows (R549, R557). -/
def execFaultAssertion (n : SrcId) (i : FaultInfo) (s : State) : Host.Outcome State Fault Refusal :=
  act s (if fcrOn s && srcPresent s n.val then assertFault n.val { i with inj := false } s else s)

/-- The channel and engine that a fault of engine `e` names. -/
def engInfo (s : State) (e : EngId) (cls : Nat) (inj : Bool) : FaultInfo :=
  { ch := if (s.eng e).phase = .idle then none else some (s.eng e).ch, eng := some e, cls := BitVec.ofNat 4 cls, addr := 0,
    inst := BitVec.ofNat 8 e.slot.val, inj := inj }

/-- An engine detects an error of its datapath or sequencer: it stops, and its slot is cordoned (R542, R557). -/
def execEngineFault (e : EngId) (s : State) : Host.Outcome State Fault Refusal :=
  act s (
    if fcrOn s && s.domOn (7 + e.g.toNat) && (s.slot e).st != .retired then
      assertFault e.g.toNat (engInfo s e 1 false) s
    else s)

/-- A source becomes stuck: an assertion of class RAIL, and what it cordons (R544). -/
def railFault (n : Nat) (inst : Byte) (inj : Bool) (s : State) : State :=
  if srcStuck s n then s
  else
    let t := s.modFcr (fun f => { f with stuck := Tbl.put false f.stuck n true })
    railReact n inst.toNat (recordFault n { ch := none, eng := none, cls := 8, addr := 0, inst := inst, inj := inj } true t)

/-- Both wires of a source show one level for 3 cycles (R544). -/
def execRailFault (n : SrcId) (s : State) : Host.Outcome State Fault Refusal :=
  act s (if fcrOn s && srcPresent s n.val then railFault n.val 0 false s else s)

/-- A stuck source has shown a valid pair for 1,024 cycles (R544). -/
def execStuckSourceClear (n : SrcId) (s : State) : Host.Outcome State Fault Refusal :=
  act s (if fcrOn s then s.modFcr (fun f => { f with stuck := Tbl.put false f.stuck n.val false }) else s)

/-- A PLL, PMI or isolation source is quiet: the domains it held go on, and CORE takes the request lines that changed meanwhile
(R557, R624). -/
def execFaultSourceQuiet (n : SrcId) (s : State) : Host.Outcome State Fault Refusal :=
  act s (
    if srcStuck s n.val then s
    else
      let mine (k : Nat) : Bool :=
        if n.val = 283 then decide (320 ≤ k) && decide (k < 400) else if n.val = 265 then decide (400 ≤ k) else k == n.val
      released s (wakeAdvance (s.modFcr (fun f => { f with asserted := Tbl.keep (fun k => !mine k) f.asserted }))))

/-! ## Replay (R558 to R560, R118) -/

/-- A faulted engine's work order ends with a status of Table 2-12, by what its last checkpoint committed. -/
def endFaulted (e : EngId) (status : Byte) (s : State) : State :=
  let ch := (s.eng e).ch
  let c := s.chan ch
  considerHead ch (traceWord 3 ch e c.sec
    (completeOrder ch status (if c.fresh then 0 else c.ck.bytes) (if c.fresh then c.runLate else c.ck.late) (heldReplayed c) (freeEng e s)))

/-- The channel is made ready for its replay, or stays PAUSED without an engine (R558). -/
def replayChan (e : EngId) (s : State) : State :=
  let ch := (s.eng e).ch
  let t := rewindOwned ch (tmAdd 26 1 (freeEng e s))
  touch ch (t.modChan ch (fun c =>
    { c with eng := none, replay := true, replays := c.replays + 1,
             ck := { c.ck with replayed := true },
             wait := if c.st = .paused ∨ c.st = .halted then c.wait else .ready,
             st := if c.st = .running then .waiting else c.st }))

/-- The writes of a faulted engine are answered (R558, R559). -/
def execReplayReady (e : EngId) (s : State) : Host.Outcome State Fault Refusal :=
  act s (
    let x := s.eng e
    if x.phase ≠ .faulted ∨ writesOpen s e then s
    else
      let t := dropEffects e (discardReads e s)
      if x.capturing then endFaulted e 0x41 t
      else if fld (s.app .rcvCfg) 12 4 ≤ (s.chan x.ch).replays then endFaulted e 0x7F t
      else replayChan e t)

/-! ## FLT_N and the fault state (R552 to R556) -/

/-- `flt_n` is low (R552); it is low until the reset sequence has completed, and while the shell clamps it (R482, R491). -/
def fltLow (s : State) : Bool :=
  s.fcr.pulse || s.fcr.latch || bit (s.reg .fltCtrl) 2 || !s.boot.ready || s.boot.shellIso

/-- The pulse timer expires (R553). -/
def execFltPulseEnd (s : State) : Host.Outcome State Fault Refusal := act s (s.modFcr (fun f => { f with pulse := false }))

/-- A write of FCR.FLT_CTRL: RELEASE clears the latch and stops the pulse (R554). -/
def fltCtrlTo (v : Word) (s : State) : State :=
  let t := s.setReg .fltCtrl (packW [(2, fld v 2 1), (0, fld v 0 2)])
  if bit v 3 then t.modFcr (fun f => { f with latch := false, pulse := false }) else t

/-- No recovery is open or queued, and no source is stuck (R555). -/
def fcrSettled (s : State) : Bool :=
  (upTo 4).all (fun i => match docUnit s i with | some r => r.bg | none => true) && s.doc.queue.isEmpty && !s.fcr.stuck.any (fun p => p.2)

/-- The quiet period ends: FCR leaves the fault state (R555, R556). -/
def execFaultQuietEnd (s : State) : Host.Outcome State Fault Refusal :=
  act s (
    if fcrOn s && s.fcr.active && fcrSettled s &&
        decide (fld (s.app .rcvCfg) 24 8 * ticksMs ≤ (s.now - s.fcr.quietFrom).toNat) then
      emitT [236] (s.modFcr (fun f => { f with active := false, exits := satAdd f.exits 1 }))
    else s)

/-- FCR.STAT (Table 16-9). -/
def fcrStatWord (s : State) : Word :=
  packW [(31, b2n s.fcr.active), (30, b2n s.fcr.unguarded), (29, b2n (fltLow s)),
    (26, ((upTo 4).filter (fun i => match docUnit s i with | some r => !r.bg | none => false)).length), (20, s.doc.queue.length), (19, b2n s.fcr.qovf)]

/-- FCR.FE_STAT (Table 16-8). -/
def feStatWord (f : Fcr) : Word :=
  packW [(31, b2n f.feV), (30, b2n f.feOvf), (29, b2n f.feInj), (28, b2n f.feRail), (25, f.feSev.toNat), (16, f.feSrc.toNat),
    (0, f.feOvfCnt.toNat)]

/-- A write of FE_STAT: V and OVF are W1C, and OVF_CNT clears with V (Table 16-8). -/
def feStatTo (v : Word) (f : Fcr) : Fcr :=
  let g := if bit v 30 then { f with feOvf := false } else f
  if bit v 31 then { g with feV := false, feOvfCnt := 0 } else g

/-- FCR.CAP_STAT (R572, Table 16-10). -/
def capWord (s : State) : Word :=
  let pop := (upTo 32).filter s.galPop
  let pipes := (pop.map (fun g => b2n (s.gal g).pipe0 + b2n (s.gal g).pipe1)).sum
  let wings := ((upTo 4).filter (fun w => decide (w < s.wings) &&
    (!(s.arb (32 + w)).cordoned.isEmpty || srcStuck s (160 + w) || sliceCorded s w))).length
  packW [(22, engsInService s), (16, (pop.filter (fun g => (spareOf s g).isSome)).length), (10, galsCordoned s), (3, pipes), (0, wings)]

/-- FCR.RCV_CNT (Table 16-10). -/
def rcvCntWord (f : Fcr) : Word := packW [(20, f.exits.toNat), (10, f.lasting.toNat), (0, f.transient.toNat)]

/-! ## Injection (R573 to R575) -/

/-- A write of FCR.INJ_CTRL; none answers SLVERR (R574). -/
def injCtrlWrite (sec : Bool) (v : Word) (s : State) : Option State :=
  let src := fld (s.reg .injSel) 16 9
  if bit v 31 && (!sec || s.fcr.injBusy || src == 262 || src == 263 || s.fcr.unguarded) then none
  else
    let t := s.setReg .injCtrl (packW [(28, fld v 28 2)])
    some (if bit v 31 then
      t.modFcr (fun f => { f with injBusy := true, injSrc := BitVec.ofNat 9 src, injInst := BitVec.ofNat 8 (fld (s.reg .injSel) 8 8),
                                  injMode := BitVec.ofNat 2 (fld v 28 2) })
    else t)

/-- The corrected-error source of an array with SEC-DED ECC: what CHECK1 asserts (R575). -/
def ceSource (n : Nat) : Option Nat :=
  if n < 64 then some (128 + n % 32)
  else if (164 ≤ n ∧ n < 172) then some (172 + n % 4)
  else if n = 253 then some 252 else if n = 257 then some 258 else if n = 267 then some 268
  else none

/-- The class that an injection into a checker of source `n` reports; none where the source detects several kinds and the
spec names none of them for it (R676). -/
def injClass (n mode : Nat) : Option Nat :=
  if n < 32 ∨ (164 ≤ n ∧ n < 168) ∨ n = 256 then some (if mode = 3 then 1 else 2)
  else if n < 64 ∨ (168 ≤ n ∧ n < 172) ∨ n = 253 ∨ n = 257 ∨ n = 267 ∨ n = 269 ∨ n = 270 then some 2
  else if n < 128 ∨ (160 ≤ n ∧ n < 164) then some 1
  else if n < 160 ∨ (172 ≤ n ∧ n < 176) ∨ n = 252 ∨ n = 258 ∨ n = 268 then some 3
  else if n < 230 then none
  else if n < 234 ∨ n = 250 ∨ (271 ≤ n ∧ n ≤ 279) then some 7
  else if n < 242 then some 9
  else if n < 250 then some (if mode = 0 then 3 else 2)
  else if n = 251 ∨ n = 281 then some 5
  else if n = 255 then some 4
  else if n = 264 ∨ n = 265 ∨ n = 282 then some 6
  else some 1

/-- A class that a port's source detects (Table 16-13): a free one of them, by `v`. -/
def portClass (n v : Nat) : Nat := if n < 198 then 4 + v % 3 else if v % 2 = 0 then 4 else 7

/-- A channel whose operation core unit `n` has in progress: where several have one, which is a free value, `v` (R565). -/
def coreOp (s : State) (n v : Nat) : Option (BitVec 12) :=
  let busy (c : Chan) : Bool :=
    if n = 254 then !c.fet.isEmpty || !c.rel.isEmpty || c.mirPend
    else if n = 256 then (match c.rel with | .signal _ :: _ => true | _ => false)
    else !c.rel.isEmpty
  let l := s.chanKeys.filter (fun ch => busy (s.chan ch))
  l[v % max 1 l.length]?

/-- The injected assertion: what the checker reports of the row or unit that SRC and INST select. The row inside a row group
is a free value (log entry 3). -/
def injInfo (n inst cls : Nat) (v : DWord) (s : State) : FaultInfo :=
  let of (e : Option EngId) : FaultInfo :=
    match e with
    | some e => { engInfo s e cls true with inst := BitVec.ofNat 8 inst }
    | none => { faultOf cls inst with inj := true }
  if n < 32 then engInfo s (engOf (n * 17 + inst % 17)) cls true
  else if n < 64 then of (((bankEngs s (n - 32) (inst != 0)).filter (fun e => (s.eng e).phase != .idle))[v.toNat % 17]?)
  else if 64 ≤ n ∧ n < 96 ∧ inst < 2 then
    of ((galEngs (n - 64)).find? (fun e => match (s.eng e).pipe with | some c => c.1 == (inst == 1) | none => false))
  else if 168 ≤ n ∧ n < 172 then { faultOf cls inst with ch := cachedChan s (n - 168) (inst * 4 + v.toNat % 4), inj := true }
  else if n = 254 ∨ n = 255 ∨ n = 256 ∨ (259 ≤ n ∧ n ≤ 261) then { faultOf cls inst with ch := coreOp s n v.toNat, inj := true }
  else
    { ch := if n = 253 then some (BitVec.ofNat 12 (inst * 16 + v.toNat % 16)) else none, eng := none, cls := BitVec.ofNat 4 cls,
      addr := if n = 253 then BitVec.ofNat 64 (v.toNat / 16 % 256) else if n = 257 then BitVec.ofNat 64 (inst * 4 + v.toNat % 4)
              else if n = 270 then BitVec.ofNat 64 (v.toNat % 2 ^ 20 / 4 * 4) else 0,
      inst := BitVec.ofNat 8 inst, inj := true }

/-- The injection's assertion (R575). -/
def injFire (n inst mode : Nat) (s : State) : State :=
  let (v, t) := s.draw
  if mode = 2 then railFault n (BitVec.ofNat 8 inst) true t
  else match (if mode = 0 then ceSource n else none) with
    | some k =>
      assertFault k { faultOf 3 (if n < 32 then 2 + inst else inst) with inj := true } t
    | none => assertFault n (injInfo n inst ((injClass n mode).getD (portClass n v.toNat)) v t) t

/-- The targeted checker sees the inverted bits: BUSY clears and the assertion follows (R575). -/
def execInjectionSeen (s : State) : Host.Outcome State Fault Refusal :=
  act s (
    let f := s.fcr
    let n := f.injSrc.toNat
    if f.injBusy && fcrOn s && decide (n < 320) && srcPresent s n && s.domOn (srcDom n) then
      injFire n f.injInst.toNat f.injMode.toNat (s.modFcr (fun x => { x with injBusy := false }))
    else s)

end Sys2Proof.Machine
end

