-- ==== Sys2Proof/Machine/Docent.lean ====
section
/-! DEFINITION. Docent: targeted and periodic tests, the remap's commands, wear rotation, scrubs, calibrations and samples
(17, R654). -/

namespace Sys2Proof.Machine

/-! ## Targeted tests (R561, R582, R583, R587) -/

/-- Steps and limit in microseconds of the unit's test, and the step whose failing rows it can replace, 0 for none (Table 17-2); a
gallery that a wing arbiter's bite cordoned is tested as one, and so is a slice that a bite on a fill cordoned (Table 10-8). -/
def testOf (r : Recovery) : Nat × Nat × Nat :=
  let n := r.src.val
  if r.eng.isSome then (3, 64, 2)
  else if n < 64 then (1, 16, 0)
  else if n < 96 then (1, if r.inst.toNat < 2 then 16 else 8, 0)
  else if n < 128 then (1, 32, 0)
  else if n < 164 then (if r.inst.toNat < 8 then (1, 32, 0) else if r.inst = 9 then (1, 100, 1) else (1, 64, 0))
  else if n < 168 ∨ ((196 ≤ n ∧ n < 198) ∧ r.inst.toNat < 4) then (1, 100, 1)
  else if n < 230 then (1, 16, 0)
  else if n < 242 then (1, 8, 0)
  else (1, 4, 0)

/-- The rows of the unit: its place in the count of rows in use, and how many it has (Table 17-2). -/
def rowsOf (r : Recovery) : Nat × Nat :=
  let n := r.src.val
  match r.eng with
  | some e => (e.g.toNat * 17 + e.slot.val, 2)
  | none => (1024 + (if n < 164 then n - 160 else if n < 168 then n - 164 else r.inst.toNat), 4)

/-- Spare rows remain (R582). -/
def rowsLeft (s : State) (r : Recovery) : Bool := decide (Tbl.get 0 s.doc.rows (rowsOf r).1 < (rowsOf r).2)

/-- A failing row is remapped to a redundant one (R582, R589). -/
def useRow (r : Recovery) (s : State) : State :=
  s.modDoc (fun d => { d with rows := Tbl.put 0 d.rows (rowsOf r).1 (Tbl.get 0 d.rows (rowsOf r).1 + 1) })

/-- A test runs on slot `e` (Table 17-7). -/
def slotTested (e : EngId) (s : State) : State := s.modSlot e (fun x => { x with tests := satAdd x.tests 1 })

/-- PCM raises the domains a test needs (R587). -/
def raiseFor (r : Recovery) (s : State) : State := foldS (recDoms r) (fun d t => beginWake d 9 0 t) s

/-- The slot in SERVICE with the highest WEAR, ties to the lowest number (R591). -/
def mostWorn (s : State) (g : Nat) : Option EngId :=
  (galEngs g).foldl (fun b e =>
    if (s.slot e).st = .service then
      (match b with
       | some f => if (s.slot f).wear.toNat < (s.slot e).wear.toNat then some e else b
       | none => some e)
    else b) none

/-- The step of unit `k`'s test `r` that follows: the first once the unit's domains are ON, then each in order (R582, R587). -/
def nextStep (k : Nat) (r : Recovery) (s : State) : State :=
  if r.step = 0 then
    (if (recDoms r).all s.domOn then
      (let u := setUnit k (some { r with step := 1, startAt := s.now }) s
       match r.eng with | some e => slotTested e u | none => u)
    else raiseFor r (setUnit k (some r) s))
  else if r.step.toNat < (testOf r).1 then setUnit k (some { r with step := r.step + 1 }) s
  else s

/-- Test unit `i` takes the next recovery and starts its test, or the running test goes on to its next step (R561, R582, R587). -/
def execTestStart (i : BitVec 2) (s : State) : Host.Outcome State Fault Refusal :=
  act s (
    if !docUp s then s
    else
      let k := i.toNat
      match docUnit s k, s.doc.queue with
      | some r, _ => nextStep k r s
      | none, r :: q => nextStep k r (s.modDoc (fun d => { d with queue := q }))
      | none, [] => s)

/-- The rotation's pre-test is over: its spare passed and the most worn slot drains, or the rotation ends uncounted (R591). -/
def pretestEnd (g : Nat) (x : Fin 17) (pass : Bool) (s : State) : State :=
  let quit := s.modGal g (fun y => { y with rotIn := none })
  if !pass || (s.slot { g := BitVec.ofNat 5 g, slot := x }).st != .spare then quit
  else match mostWorn s g with
    | some r => (s.modSlot r (fun y => { y with st := .draining })).modGal g (fun y => { y with rotOut := some r.slot, rotAt := s.now })
    | none => quit

/-- A test of a unit that no fault cordons is over (R588, R591): a slot is held no longer (R581), and a failure asserts the unit's
source. -/
def bgEnd (k : Nat) (r : Recovery) (pass : Bool) (s : State) : State :=
  let n := r.src.val
  let t := setUnit k none s
  match r.eng with
  | some e =>
    let u := if pass then returnSlot e t else t
    let v := if (s.gal e.g.toNat).rotOut.isNone && (s.gal e.g.toNat).rotIn == some e.slot then pretestEnd e.g.toNat e.slot pass u else u
    if pass then v else assertFault n (engInfo v e 1 false) v
  | none => if pass then t else assertFault n (faultOf (if n < 96 then 1 else 9) r.inst.toNat) t

/-- The test of unit `i` ends with its verdict, once its last step has passed or when a step fails; a step whose failing rows are
replaced is run once more and passes (R582). -/
def execTestVerdict (i : BitVec 2) (o : TestOutcome) (s : State) : Host.Outcome State Fault Refusal :=
  act s (
    let k := i.toNat
    match docUnit s k with
    | none => s
    | some r =>
      let t := testOf r
      let ends (r : Recovery) (code step : Nat) (u : State) : State :=
        if r.bg then bgEnd k r (code < 2) u else docVerdict code step r true (setUnit k none u)
      if r.step = 0 ∨ !docUp s then s
      else match o with
        | .passed => if r.step.toNat = t.1 then ends r (b2n r.repaired) 0 s else s
        | .repaired =>
          if r.step.toNat = t.2.2 ∧ rowsLeft s r then
            (let q := { r with repaired := true }
             let u := useRow r s
             if r.step.toNat = t.1 then ends q 1 0 u else setUnit k (some { q with step := r.step + 1 }) u)
          else s
        | .failed j => if j = r.step then ends r 2 j.toNat s else s)

/-- Ticks that count toward the limit of unit `i`'s test: not those in which a request of it waits at an arbiter (R583). -/
def testTicks (s : State) (i : Nat) (r : Recovery) : Nat :=
  let waits := ((s.txns.filter (docentWaits i)).map (fun t => (s.now - t.since).toNat)).sum
  (s.now - r.startAt).toNat - waits

/-- The unit of a test of R588 is cordoned for a lasting verdict (R562, R583). -/
def bgCordon (r : Recovery) (s : State) : State :=
  let n := r.src.val
  if !r.bg then s
  else match r.eng with
    | some e => if (s.gal e.g.toNat).rotOut.isNone && (s.gal e.g.toNat).rotIn == some e.slot then pretestEnd e.g.toNat e.slot false s else s
    | none => if n < 96 then cordonPipe (n - 64) (r.inst != 0) s else cordonPair (8 * (n - 234) + r.inst.toNat % 8) s

/-- The test of unit `i` reaches its limit (R583). -/
def execTestLimitExpiry (i : BitVec 2) (s : State) : Host.Outcome State Fault Refusal :=
  act s (
    match docUnit s i.toNat with
    | none => s
    | some r =>
      if r.step ≠ 0 ∧ docUp s ∧ (testOf r).2.1 * ticksUs ≤ testTicks s i.toNat r then
        assertFault 264 (faultOf 6 i.toNat) (docVerdict 4 0 r true (setUnit i.toNat none (bgCordon r s)))
      else s)

/-! ## DOC.CMD (R602, R603) -/

/-- A rotation of gallery `g` is in progress, its pre-test included (R591). -/
def rotating (s : State) (g : Nat) : Bool := (s.gal g).rotOut.isSome || (s.gal g).rotIn.isSome

/-- A DOC.CMD is refused (R603). -/
def docCmdRej (v : Word) (s : State) : Bool :=
  let op := fld v 28 4
  let g := fld v 0 5
  let k := fld v 8 5
  let st := (s.slot (engOf (g * 17 + k))).st
  op == 0 || decide (3 < op) || !s.galPop g || s.fcr.unguarded || (decide (op ≤ 2) && decide (16 < k)) ||
  (op == 1 && st != .spare && st != .retired) || (op == 2 && (st == .cordoned || st == .retired)) || (op == 3 && rotating s g)

/-- RETIRE of a slot that is neither CORDONED nor RETIRED (R602). -/
def docRetireSlot (e : EngId) (s : State) : State :=
  let g := e.g.toNat
  if (s.slot e).st = .spare then s.modSlot e (fun x => { x with st := .retired })
  else if (s.eng e).phase = .idle ∧ (s.gal g).rotOut ≠ some e.slot then retireSlot e s
  else (s.modSlot e (fun x => { x with st := .draining })).modGal g (fun x =>
    { x with retiring := if x.retiring.contains e.slot then x.retiring else x.retiring ++ [e.slot] })

/-- A write of DOC.CMD by its OP (R602, R603). -/
def docCmdWrite (v : Word) (s : State) : State :=
  let g := fld v 0 5
  let e := engOf (g * 17 + fld v 8 5 % 17)
  if docCmdRej v s then s.modDoc (fun d => { d with cmdRej := true })
  else match fld v 28 4 with
    | 1 => openRecovery { recov g e.slot.val (some e) with spareTest := true, wasRetired := (s.slot e).st == .retired }
      (traceWord 5 0 e false (s.modSlot e (fun x => { x with st := .cordoned })))
    | 2 => docRetireSlot e s
    | _ => s.modGal g (fun x => { x with rotDue := true })

/-! ## Wear rotation (R590 to R594) -/

/-- Ticks in an hour. -/
def ticksHour : Nat := 3600 * 1000000 * ticksUs

/-- The rotation's period has passed (R590). -/
def rotElapsed (s : State) (g : Nat) : Bool :=
  let p := fld (s.reg .rotCfg) 24 8 * ticksHour
  let x := s.gal g
  if x.rotFirst then decide ((g + 1) * p / 32 ≤ s.now.toNat) else decide (p ≤ (s.now - x.rotLast).toNat)

/-- A gallery's rotation falls due (R590). -/
def execRotationDue (g : BitVec 5) (s : State) : Host.Outcome State Fault Refusal :=
  act s (
    let k := g.toNat
    if docUp s && s.galPop k && rotOn s && rotElapsed s k then s.modGal k (fun x => { x with rotDue := true }) else s)

/-- A recovery of a unit of gallery `g` is open or queued. -/
def galRecovers (s : State) (g : Nat) : Bool :=
  ((upTo 4).filterMap (docUnit s) ++ s.doc.queue).any (fun r => !r.bg && (recDoms r).contains (7 + g))

/-- A test unit that is free for a test of R588: recoveries go first. -/
def freeUnit (s : State) : Option Nat := (upTo 4).find? (fun i => (docUnit s i).isNone && s.doc.queue.isEmpty)

/-- Unit `k` takes a test of R588: the unit's domains are raised, and a slot is held CORDONED (R587, R588). -/
def bgStart (k key : Nat) (r : Recovery) (s : State) : State :=
  let t := s.modDoc (fun d => { d with bgAt := Tbl.put 0 d.bgAt key s.now })
  let u := match r.eng with | some e => traceWord 5 0 e false (t.modSlot e (fun x => { x with st := .cordoned })) | none => t
  nextStep k { r with bg := true } u

/-- The unit that runs the test `r` of R588, and what it holds. -/
def bgRuns (s : State) (r : Recovery) : Option (Nat × Recovery) :=
  (upTo 4).findSome? (fun i => match docUnit s i with | some q => if q.bg && sameUnit q r then some (i, q) else none | none => none)

/-- A test of R588 of the unit that `r` names: it begins where `can` holds and a test unit is free, and while it runs `pass` is its
result: it ends when its last step passes, or when a step fails. -/
def bgTest (key : Nat) (r : Recovery) (can pass : Bool) (s : State) : State :=
  match bgRuns s r with
  | some (k, q) => if docUp s && q.step != 0 && (!pass || q.step.toNat == (testOf q).1) then bgEnd k q pass s else s
  | none =>
    if !can then s
    else match freeUnit s with
      | some k => bgStart k key r s
      | none => s

/-- A due rotation whose conditions hold begins with the test of the next spare, and while that runs `pass` is its result: the most
worn slot drains (R590, R591). -/
def execRotationStart (g : BitVec 5) (pass : Bool) (s : State) : Host.Outcome State Fault Refusal :=
  act s (
    let k := g.toNat
    let x := s.gal k
    match x.rotOut, x.rotIn with
    | none, some y =>
      let e : EngId := { g := g, slot := y }
      bgTest (k * 17 + y.val) (recov k y.val (some e)) false pass s
    | some _, _ => s
    | none, none =>
      if !docUp s || !s.galPop k || !x.rotDue || !rotOn s || !s.domOn (7 + k) || (s.dom (7 + k)).entering || galRecovers s k then s
      else match spareOf s k, freeUnit s with
        | some e, some _ =>
          bgTest (k * 17 + e.slot.val) (recov k e.slot.val (some e)) true pass (s.modGal k (fun y => { y with rotIn := some e.slot }))
        | _, _ => s)

/-- Drained slots that RETIRE named become RETIRED (R602). -/
def retireDrained (g : Nat) (s : State) : State :=
  foldS ((galEngs g).filter (fun e => (s.gal g).retiring.contains e.slot && (s.slot e).st == .draining && (s.eng e).phase == .idle &&
      (s.gal g).rotOut != some e.slot))
    (fun e t => retireSlot e (t.modGal g (fun x => { x with retiring := x.retiring.filter (fun k => k != e.slot) }))) s

/-- The rotation is abandoned: the slot serves again, or goes on draining under RETIRE (R593, Table 17-8). -/
def abandonRot (g : Nat) (r : Fin 17) (s : State) : State :=
  let t := s.modGal g (fun x => { x with rotOut := none, rotIn := none })
  let u := if (s.gal g).retiring.contains r then t else t.modSlot { g := BitVec.ofNat 5 g, slot := r } (fun y => { y with st := .service })
  u.modDoc (fun d => { d with rotAbandoned := satAdd d.rotAbandoned 1 })

/-- The draining slot has released its channel (R591, R592, R602). DESIGN CHOICE (log entry 64): where the tested spare is SPARE no more,
of which the spec says nothing, the rotation is abandoned. -/
def execRotationSwap (g : BitVec 5) (s : State) : Host.Outcome State Fault Refusal :=
  act s (
    let k := g.toNat
    let t := if docUp s then retireDrained k s else s
    if !docUp s then s
    else match (t.gal k).rotOut, (t.gal k).rotIn with
      | some r, some x =>
        let e : EngId := { g := g, slot := r }
        if (t.eng e).phase ≠ .idle then t
        else if (t.slot { g := g, slot := x }).st ≠ .spare then abandonRot k r t
        else
          let ret := (t.gal k).retiring.contains r
          let u := t.modSlot e (fun y => { y with st := if ret then .retired else .spare })
          rotationDone k r x (u.modGal k (fun y => { y with retiring := y.retiring.filter (fun q => q != r) }))
      | _, _ => t)

/-- A drain longer than DRAIN_MAX, or a gallery that closes, ends the rotation (R593, Table 17-8). -/
def execRotationAbandon (g : BitVec 5) (s : State) : Host.Outcome State Fault Refusal :=
  act s (
    let k := g.toNat
    match (s.gal k).rotOut with
    | none => s
    | some r =>
      let late := decide (fld (s.reg .rotCfg) 16 8 * ticksMs ≤ (s.now - (s.gal k).rotAt).toNat) && !(s.gal k).retiring.contains r
      if docUp s && (late || (s.dom (7 + k)).entering) then abandonRot k r s else s)

/-- A whole hour in SERVICE or DRAINING in an ON gallery (R594). -/
def execWearHourTick (e : EngId) (s : State) : Host.Outcome State Fault Refusal :=
  act s (
    let st := (s.slot e).st
    if fcrOn s && coreUp s && s.galPop e.g.toNat && s.domOn (7 + e.g.toNat) && (st == .service || st == .draining) then
      s.modSlot e (fun x => { x with wear := satAdd x.wear 1 })
    else s)

/-! ## Tests of units in service (R588) -/

/-- `ticks` have passed since the test of R588 with place `key` was made last. -/
def bgDue (s : State) (key ticks : Nat) : Bool := decide (ticks ≤ (s.now - Tbl.get 0 s.doc.bgAt key).toNat)

/-- A SPARE slot is tested once per SPARE_TEST minutes; a failure asserts its engine source (R588). -/
def execPeriodicSpareTest (e : EngId) (pass : Bool) (s : State) : Host.Outcome State Fault Refusal :=
  act s (
    let g := e.g.toNat
    let key := g * 17 + e.slot.val
    let min := fld (s.reg .rotCfg) 8 8
    if rotating s g && (s.gal g).rotIn == some e.slot then s
    else bgTest key (recov g e.slot.val (some e))
      (perOn s && s.galPop g && min != 0 && !(s.dom (7 + g)).entering && bgDue s key (min * 60 * 1000000 * ticksUs) && (s.slot e).st == .spare) pass s)

/-- A comparator pair that is neither armed nor reserved is tested once per second (R588). -/
def execPeriodicComparatorTest (n : BitVec 6) (pass : Bool) (s : State) : Host.Outcome State Fault Refusal :=
  act s (
    let k := n.toNat
    bgTest (1024 + k) (recov (234 + k / 8) (k % 8) none)
      (perOn s && bgDue s (1024 + k) (1000000 * ticksUs) && (s.pair k).ch.isNone && !(s.sc k).arm && !scReserved s k && !pairCordoned s k)
      pass s)

/-- An engine claims AES pipeline `p` of gallery `g`. -/
def pipeClaimed (s : State) (g : Nat) (p : Bool) : Bool := (galEngs g).any (fun e => match (s.eng e).pipe with | some c => c.1 == p | none => false)

/-- An AES pipeline that no engine claims is tested once per second (R588). -/
def execPeriodicAesTest (g : BitVec 5) (p pass : Bool) (s : State) : Host.Outcome State Fault Refusal :=
  act s (
    let k := g.toNat
    let key := 2048 + 2 * k + b2n p
    bgTest key (recov (64 + k) (b2n p) none)
      (perOn s && bgDue s key (1000000 * ticksUs) && s.galPop k && !(s.dom (7 + k)).entering && !galCordoned s k && pipeOk s k p && !pipeClaimed s k p) pass s)

/-! ## Scrubbing (R595 to R597) -/

/-- Place of an array in Table 17-4, and the bit of its code in SCRUB_CFG. -/
def scrubKey (a : ScrubArray) : Nat × Nat :=
  match a with
  | .cat => (0, 28) | .cs => (1, 24) | .vit => (2, 20) | .key => (3, 16) | .ecache => (4, 12) | .ao => (5, 4) | .stg => (6, 0)

/-- Words of one array: of a gallery's control stores, of one wing's slice or entry cache, or of an array in the core (Table 17-4);
staging copies go by TP address, sixteen places for fields to each. -/
def scrubLen (a : ScrubArray) : Nat :=
  match a with
  | .cat => 131072 | .cs => 8192 | .vit => 4096 | .key => 2048 | .ecache => 1024 | .ao => 40960 | .stg => 4194304

/-- The gallery or wing of word `idx`, and the word's place in its sweep. -/
def scrubAt (a : ScrubArray) (idx : Nat) : Nat × Nat :=
  match a with
  | .cs | .vit | .ecache => (idx / scrubLen a, idx % scrubLen a)
  | _ => (0, idx)

/-- The domain of word `idx` of an array. -/
def scrubDom (a : ScrubArray) (idx : Nat) : Nat :=
  match a with
  | .cs => 7 + idx / 8192
  | .vit => 3 + idx / 4096
  | .ecache => 3 + idx / 1024
  | .ao => 0
  | _ => 2

/-- Words of an array over all galleries or wings. -/
def scrubWords (a : ScrubArray) : Nat :=
  match a with
  | .cs => 32 * scrubLen a
  | .vit | .ecache => 4 * scrubLen a
  | _ => scrubLen a

/-- Docent may replace the Catalogue row of a word it corrected by a redundant one; when it does is a free value (Table 17-3). -/
def catRow (idx : Nat) (s : State) : State :=
  let (v, t) := s.draw
  if bit v 0 && !t.doc.catRows.contains (idx / 32) then t.modDoc (fun d => { d with catRows := d.catRows ++ [idx / 32] }) else t

/-- The assertion for a corrected word (R596); staging copies have no corrected-error source. -/
def scrubCe (a : ScrubArray) (idx : Nat) (s : State) : State :=
  match a with
  | .cat => assertFault 252 (faultOf 3 0) (catRow idx s)
  | .cs => assertFault (128 + idx / 8192) (faultOf 3 (idx / 4096 % 2)) s
  | .vit => assertFault (172 + idx / 4096) (faultOf 3 0) s
  | .key => assertFault 258 (faultOf 3 0) s
  | .ecache => assertFault (172 + idx / 1024) (faultOf 3 0) s
  | .ao => if idx < 32768 then assertFault 268 (faultOf 3 0) s else s
  | .stg => s

/-- The assertion for an uncorrectable word (R596). -/
def scrubUe (a : ScrubArray) (idx : Nat) (s : State) : State :=
  match a with
  | .cat => assertFault 253 { faultOf 2 0 with ch := some (BitVec.ofNat 12 (idx / 32)), addr := BitVec.ofNat 64 (idx % 32 * 8) } s
  | .cs => assertFault (32 + idx / 8192) { faultOf 2 (idx / 4096 % 2) with addr := BitVec.ofNat 64 (idx % 4096) } s
  | .vit => assertFault (164 + idx / 4096) { faultOf 2 0 with addr := BitVec.ofNat 64 (idx % 4096) } s
  | .key => assertFault 257 { faultOf 2 0 with addr := BitVec.ofNat 64 (idx % 1024) } s
  | .ecache => assertFault (168 + idx / 1024) { faultOf 2 0 with ch := cachedChan s (idx / 1024) (idx % 1024) } s
  | .ao => assertFault (if idx < 32768 then 267 else 269) { faultOf 2 0 with addr := BitVec.ofNat 64 idx } s
  | .stg =>
    let a := idx / 16 * 4
    match (decodeReg s.wings a).bind (fun r => if r.stagedSet.isSome then r.flds[idx % 16]? else none) with
    | some f => assertFault 270 { faultOf 2 f.lsb with addr := BitVec.ofNat 64 a } s
    | none => s

/-- Docent reads the next word of an array's sweep (R595, R596); the sweep waits while the word's domain is not ON (R597). -/
def execScrubAccess (arr : ScrubArray) (idx : Nat) (o : ScrubOutcome) (s : State) : Host.Outcome State Fault Refusal :=
  act s (
    let k := scrubKey arr
    let (u, at_) := scrubAt arr idx
    let key := 64 * k.1 + u
    if docUp s && bit (s.reg .docCfg) 31 && fld (s.reg .scrubCfg) k.2 4 != 0 && Tbl.get 0 s.doc.scrubPos key == at_ &&
        decide (idx < scrubWords arr) && s.domOn (scrubDom arr idx) then
      (let last := o.lastWord || decide (at_ + 1 = scrubLen arr)
       let t := s.modDoc (fun d => { d with scrubPos := Tbl.put 0 d.scrubPos key (if last then 0 else at_ + 1),
                                            sweeps := if last then d.sweeps + 1 else d.sweeps,
                                            corr := if o.corrected && !o.bad then satAdd d.corr 1 else d.corr })
       if o.bad then scrubUe arr idx t else if o.corrected then scrubCe arr idx t else t)
    else s)

/-! ## Calibration and samples (R598, R654) -/

/-- Calibrations run. -/
def calOn (s : State) : Bool := docUp s && bit (s.reg .docCfg) 29

/-- The TCLK interpolator is trimmed. -/
def execInterpolatorCalibration (s : State) : Host.Outcome State Fault Refusal :=
  act s (if calOn s && s.domOn 1 then s.modDoc (fun d => { d with interpAt := some s.now }) else s)

/-- A link's eye margin is read, and its transmitter trimmed. -/
def execLinkCalibration (l : BitVec 5) (s : State) : Host.Outcome State Fault Refusal :=
  act s (
    if calOn s && (s.link l).st == .active then s.modDoc (fun d => { d with linkAt := Tbl.put none d.linkAt l.toNat (some s.now) })
    else s)

/-- ATCLK is measured against TCLK. -/
def execAtclkCalibration (s : State) : Host.Outcome State Fault Refusal :=
  act s (if calOn s && s.domOn 1 then s.modDoc (fun d => { d with atclkAt := some s.now }) else s)

/-- The sensors of a domain are sampled; the first sample at TEMP_LIM.HI or above sets OVER and is recorded (R654). -/
def execSensorSample (dm : DomId) (temp volt : BitVec 12) (s : State) : Host.Outcome State Fault Refusal :=
  act s (
    let d := dm.val
    if calOn s && decide (2 ≤ d) && s.domOn d then
      (let t := { s with mst := { s.mst with sns := Tbl.put {} s.mst.sns d { temp := temp, volt := volt, valid := true } } }
       if (BitVec.ofNat 12 (fld (s.reg .tempLim) 0 12)).toInt ≤ temp.toInt ∧ !s.mst.tempOver then
         lgRecord 0x60 0 false (packW [(0, d), (16, temp.toNat)]) 0
           { t with mst := { t.mst with tempOver := true, tempDom := BitVec.ofNat 6 d } }
       else t)
    else s)

/-- A gallery's ageing monitor is sampled. -/
def execAgeingSample (g : BitVec 5) (freq : BitVec 20) (s : State) : Host.Outcome State Fault Refusal :=
  act s (
    if calOn s && s.domOn (7 + g.toNat) then { s with mst := { s.mst with age := Tbl.put 0 s.mst.age g.toNat freq } } else s)

/-! ## Registers (Tables 17-6, 17-7) -/

/-- DOC.STAT. -/
def docStatWord (s : State) : Word :=
  packW [(31, b2n s.doc.lockOk), (30, b2n ((upTo 32).any (rotating s))), (29, b2n s.doc.cmdRej),
    (0, ((upTo 4).map (fun i => b2n (docUnit s i).isSome * 2 ^ i)).sum)]

/-- DOC.TEST(i). -/
def docTestWord (s : State) (i : Nat) : Word :=
  match docUnit s i with
  | some r => packW [(31, 1), (27, r.step.toNat), (18, r.src.val), (10, r.inst.toNat)]
  | none => 0

/-- G.SLOT_MAP. -/
def slotMapWord (s : State) (g : Nat) : Word :=
  packW [(27, match spareOf s g with | some e => e.slot.val | none => 0), (26, b2n (spareOf s g).isSome),
    (0, ((galEngs g).map (fun e => b2n ((s.slot e).st == .service || (s.slot e).st == .draining) * 2 ^ e.slot.val)).sum)]

/-- Codes of SLOT.STATE (Table 17-1). -/
def SlotSt.code : SlotSt → Nat
  | .service => 0 | .spare => 1 | .draining => 2 | .cordoned => 3 | .retired => 4

/-- G.SLOT(k). -/
def slotWord (s : State) (e : EngId) : Word :=
  let x := s.slot e
  packW [(29, x.st.code), (21, x.tests.toNat), (0, x.wear.toNat)]

/-- MST.SNS(d): VALID only while the domain is ON (R654). -/
def snsWord (s : State) (d : Nat) : Word :=
  let x := Tbl.get {} s.mst.sns d
  packW [(20, x.temp.toNat), (4, x.volt.toNat), (3, b2n (x.valid && s.domOn d))]

end Sys2Proof.Machine
end

