-- ==== Sys2Proof/Machine/LedgerOps.lean ====
section
/-! DEFINITION. LedgerOps: the Ledger writer, its windows, and what the Ledger's registers do (19, R644 to R651). -/

namespace Sys2Proof.Machine

/-- The slot of sequence number `q` (R644). -/
def lgSlot (q : Word) : Nat := (q - 1).toNat % 2048

/-- The next sequence number: 0 is skipped (R644). -/
def lgNext (q : Word) : Word := if q + 1 = 0 then 1 else q + 1

/-- The 32 bytes of a record as words (Table 19-6). -/
def LgRec.words (r : LgRec) : List Word :=
  [r.seq, packW [(16, r.flags.toNat), (0, r.code.toNat)], r.time.truncate 32, r.time.extractLsb' 32 32, r.opTime, r.pwrCyc, r.dataLo,
   r.dataHi]

/-- The record in the slot of sequence number `q`, as it stands (R649). -/
def lgAt (l : Ledger) (q : Word) : LgRec := Tbl.get {} l.recs (lgSlot q)

/-- A record takes the next sequence number and its slot (R644). -/
def lgWrite (r : LgRec) (l : Ledger) : Ledger :=
  let q := lgNext l.head
  { l with head := q, recs := Tbl.put {} l.recs (lgSlot q) { r with seq := q } }

/-- Once the queue has room, a DROPPED record carries the count (R648). -/
def lgDropped (s : State) : State :=
  let n := s.ledger.dropDue
  if n = 0 then s else lgEnqueue 6 0 false (BitVec.ofNat 32 n) 0 { s with ledger := { s.ledger with dropDue := 0 } }

/-- The Ledger writer writes the record at the head of its queue (R648). -/
def execLedgerRecordWrite (s : State) : Host.Outcome State Fault Refusal :=
  act s (
    match s.ledger.queue with
    | [] => s
    | r :: q => if s.boot.rstAo then s else lgDropped { s with ledger := { lgWrite r s.ledger with queue := q } })

/-- The rate-limit window of a code closes (R647). -/
def execLedgerWindowClose (code : BitVec 16) (s : State) : Host.Outcome State Fault Refusal :=
  act s (
    let k := lgKey code.toNat
    match Tbl.get none s.ledger.wins k with
    | some w => if lgWinOver s w && !s.boot.rstAo then lgClose k w.m s else s
    | none => s)

/-- OP_TIME advances by one second while `rst_ao_n` is released (R645). -/
def execOpTimeTick (s : State) : Host.Outcome State Fault Refusal :=
  act s (if s.boot.rstAo then s else { s with ledger := { s.ledger with opTime := s.ledger.opTime + 1 } })

/-! ## Registers (Table 19-8) -/

/-- MST.LG_STAT. -/
def lgStatWord (l : Ledger) : Word := packW [(16, l.supp.toNat), (0, l.drop.toNat)]

/-- A read of LG_STAT clears both counts (R15). -/
def lgStatClear (s : State) : State := { s with ledger := { s.ledger with supp := 0, drop := 0 } }

/-- A read of LG_DATA(0) takes the snapshot of the slot that LG_SEL names (R649). -/
def lgSnap (s : State) : State := { s with ledger := { s.ledger with snap := lgAt s.ledger (s.reg .lgSel) } }

/-- A write of LG_SW_CODE; none answers SLVERR (R650). -/
def lgSwWrite (sec : Bool) (v : Word) (s : State) : Option State :=
  let c := fld v 0 16
  if c < 0x8000 || (!sec && decide (0xC000 ≤ c)) then none
  else some (lgRecord c 0 false (s.reg .lgSwLo) (s.reg .lgSwHi) s)

/-- A write of LG_CTRL: CLEAR empties every slot and writes CLEARED with LG_HEAD before the clear (R651). -/
def lgCtrlTo (v : Word) (s : State) : State :=
  if bit v 0 then lgRecord 4 0 false s.ledger.head 0 { s with ledger := { s.ledger with recs := [] } } else s

/-- A write of LG_SEED_OPT, once after each release of `rst_ao_n`; none answers SLVERR (R645). -/
def lgSeedOpt (v : Word) (s : State) : Option State :=
  if s.ledger.seededOpt then none
  else some (lgRecord 5 0 false v 0 { s with ledger := { s.ledger with opTime := s.ledger.opTime + v, seededOpt := true } })

/-- A write of LG_SEED_PWR, likewise. -/
def lgSeedPwr (v : Word) (s : State) : Option State :=
  if s.ledger.seededPwr then none
  else some (lgRecord 5 0 false v 1 { s with ledger := { s.ledger with pwrCyc := s.ledger.pwrCyc + v, seededPwr := true } })

end Sys2Proof.Machine
end

