-- ==== Sys2Proof/Machine/Keys.lean ====
section
/-! DEFINITION. Keys: the key cabinet's load windows (06, R261 to R267). A LOAD or CLEAR reaches its slot within its own
step, so BUSY always reads 0 (log entry 24). -/

namespace Sys2Proof.Machine

/-- The slot that window `i` selects (Table 6-7). -/
def keySelOf (s : State) (i : Nat) : Nat := fld (s.reg (.keySel i)) 0 10

/-- The 64 bytes in the data words of window `i` (R261). -/
def keyBytes (x : KeyWin) : List Byte := (upTo 16).flatMap (fun w => toLe 4 (Tbl.get 0 x.data w).toNat)

/-- A LOAD that Tilzu rejects: non-secure data for a secure slot, or an XTS pair of equal halves (R264). -/
def keyLoadBad (x : KeyWin) (v : Word) : Bool :=
  (bit v 23 && x.nsData) || (bit v 22 && (keyBytes x).take 32 == (keyBytes x).drop 32)

/-- A rejected command sets REJ and clears the window's data (R264). DESIGN CHOICE (log entry 67): NS_DATA stays. -/
def keyReject (x : KeyWin) : KeyWin := { x with rej := true, data := [] }

/-- The slot as a LOAD leaves it (R261, Table 6-8). -/
def keyLoaded (x : KeyWin) (v : Word) : KeySlot :=
  { st := 1, owner := BitVec.ofNat 8 (fld v 24 8), sec := bit v 23, kind := bit v 22, key := keyBytes x }

/-- A non-secure access to KEY_CMD or KEY_STAT of a window that selects a secure slot is refused (R263). -/
def keyHidden (s : State) (i : Nat) (sec : Bool) : Bool := !sec && (s.key (keySelOf s i)).sec

/-- A write of XU.KEY_CMD(i); none answers SLVERR (R262 to R264). DESIGN CHOICE (log entry 67): a slot that CLEAR sets EMPTY has
OWNER, SEC and KIND 0. -/
def keyCmdWrite (i : Nat) (sec : Bool) (v : Word) (s : State) : Option State :=
  let x := s.keyWin i
  let op := fld v 0 4
  if keyHidden s i sec || (!sec && op == 1 && bit v 23) then none
  else if op = 1 then
    some (if keyLoadBad x v then s.modKeyWin i keyReject
      else (s.setKey (keySelOf s i) (keyLoaded x v)).modKeyWin i (fun y => { y with data := [], nsData := false }))
  else if op = 2 then
    some ((s.setKey (keySelOf s i) {}).modKeyWin i (fun y => { y with data := [], nsData := false }))
  else some (s.modKeyWin i keyReject)

/-- A write of XU.KEY_DATA(i, w): a non-secure one sets NS_DATA (R261, Table 6-9). -/
def keyDataTo (i w : Nat) (sec : Bool) (v : Word) (s : State) : State :=
  s.modKeyWin i (fun x => { x with data := Tbl.put 0 x.data w v, nsData := x.nsData || !sec })

/-- XU.KEY_STAT(i) (Table 6-9). -/
def keyStatWord (s : State) (i : Nat) : Word :=
  let k := s.key (keySelOf s i)
  let x := s.keyWin i
  packW [(24, k.owner.toNat), (23, b2n k.sec), (22, b2n k.kind), (20, k.st.toNat), (18, b2n x.rej), (17, b2n x.nsData)]

end Sys2Proof.Machine
end

