-- ==== Sys2Proof/Machine/RegRead.lean ====
section
/-! DEFINITION. RegRead: what each register of the TP window reads as, and what a read changes (R13, R15, R17, R657,
R658). -/

namespace Sys2Proof.Machine

/-! ## Words that no unit's file gives -/

/-- CORE serves TP: it is ON, the reset sequence has completed, and it has not been saved or isolated (R476, R490). -/
def coreServes (s : State) : Bool :=
  let x := s.dom 2
  s.coreOn && s.boot.ready && !s.boot.rstN && x.step != .save && x.step != .iso

/-- MST.GSTAT (Table 13-8c). -/
def gstatWord (s : State) : Word :=
  packW [(31, b2n s.coreOn), (30, b2n (coreServes s)), (29, b2n (fltLow s)), (28, b2n s.fcr.unguarded),
    (27, b2n s.boot.strapErr), (25, s.wings - 1), (16, s.pcm.gWakeSrc.toNat)]

/-- Lock codes (Table 7-2). -/
def Lock.code : Lock → Nat
  | .unlocked => 0 | .acquiring => 1 | .locked => 2 | .holdover => 3 | .synth => 4

/-- TBS.TB_STAT (Table 7-5). -/
def tbWord (s : State) : Word :=
  let t := s.tbs
  packW [(24, poolSize s), (19, b2n t.dlyLost), (18, b2n t.cmpDis), (17, b2n t.crowd), (16, b2n t.loss), (8, t.missed.toNat),
    (3, b2n t.spin), (0, t.lock.code)]

/-- PORT_STAT of a manager port (Table 12-11). -/
def portWord (p : Port) : Word :=
  packW [(16, p.retryCnt.toNat), (8, p.errCnt.toNat), (1, b2n p.retryExh), (0, b2n p.err)]

/-- ARB_STAT (Table 10-6). -/
def arbWord (x : Arb) : Word :=
  packW [(26, x.ptr.toNat), (25, b2n x.starve), (24, b2n x.bite), (16, x.lastForced.toNat), (8, x.waitMax.toNat)]

/-- FAB.STARVE_LOG (Table 10-7). -/
def starveWord (m : Mst) : Word :=
  packW [(31, b2n m.starveV), (30, b2n m.starveOvf), (28, m.starveLevel.toNat), (22, m.starveInst.toNat), (16, m.starveReq.toNat),
    (0, m.starveCnt.toNat)]

/-- The channel that FAB.DSP_SEL names. -/
def dspSel (s : State) : BitVec 12 := BitVec.ofNat 12 (fld (s.reg .dspSel) 0 12)

/-- FAB.DSP_STAT (Table 10-10). -/
def dspWord (s : State) : Word :=
  let ch := dspSel s
  let c := s.chan ch
  let d := s.dspOf ch
  packW [(31, b2n d.rehomed), (30, b2n (d.nohome && ready s ch)), (29, b2n c.recAes), (16, d.lastG.toNat),
    (12, if ready s ch then effPrio s c else c.prio)]

/-- FAB.DSP_EHOME: the galleries eligible at this moment. -/
def ehomeWord (s : State) : Word := packW ((eligibleSet s (dspSel s)).1.map (fun g => (g, 1)))

/-- ENG_STAT of a slot as it stands (Table 20-11). -/
def engWord (s : State) (e : EngId) : Word :=
  let x := s.eng e
  if x.phase = .idle then packW [(28, b2n (dbgHeld x))]
  else packW [(31, 1), (30, b2n ((s.chan x.ch).st == .paused || ((s.chan x.ch).st == .halted && x.paused))), (29, b2n x.bank), (28, b2n (dbgHeld x)), (0, x.ch.toNat)]

/-- ENG_STAT(k) as read: the snapshot while VIEW is 1; 0 for a non-secure read that would show a secure channel (R661). -/
def engStatRead (s : State) (sec : Bool) (g k : Nat) : Word :=
  let w := if bit (s.reg (.engCtrl g)) 0 then (s.gal g).snap.getD k 0 else engWord s (engOf (g * 17 + k))
  if !sec && bit w 31 && (s.chan (BitVec.ofNat 12 (fld w 0 12))).sec then 0 else w

/-- The Glovebox of a slot is hidden from non-secure accesses (R635). -/
def gbHidden (s : State) (sec : Bool) (g k : Nat) : Bool :=
  let x := s.eng (engOf (g * 17 + k))
  !sec && x.gbValid && (s.chan x.gbCh).sec

/-- GB_STAT (Table 3-11). -/
def gbWord (x : Engine) : Word := packW [(31, b2n x.gbValid), (30, b2n x.gbOvf), (0, x.gbCh.toNat)]

/-- A telemetry counter as read: the snapshot while TM_CTRL.VIEW is 1; indices 38 and above read 0 (R652, R653). -/
def tmRead (s : State) (k : Nat) : DWord :=
  if 38 ≤ k then 0 else if bit (s.reg .tmCtrl) 0 then Tbl.get 0 s.mst.tmSnap k else Tbl.get 0 s.mst.tm k

/-- The applied value of a register as a view returns it: bits of secure interrupt lines hidden from non-secure reads
(R341, R506). -/
def appRead (s : State) (sec : Bool) (r : Reg) : Word := if r = .irqSec then s.app r &&& irqVisible s sec else s.app r

/-- The register that window AV_SEL(i) names (R506). -/
def avReg (s : State) (i : Nat) : Option Reg := decodeReg s.wings (fld (s.reg (.avSel i)) 2 18 * 4)

/-- EC registers of a secure event channel are refused to non-secure accesses (R331). -/
def ecRefused (s : State) (sec : Bool) : Reg → Bool
  | .ecSrc e | .ecCtrl e | .ecCnt e => !sec && bit (s.app (.ecCtrl e)) 23
  | _ => false

/-- A read of AV_DATA(i) is refused: the selected register is not RWS, or its own read would be refused (R507). -/
def avRefused (s : State) (sec : Bool) (i : Nat) : Bool :=
  match avReg s i with
  | some r => r.stagedSet.isNone || ecRefused s sec r
  | none => true

/-! ## The word a register shows -/

/-- Words of the counters, stamps and addresses that occupy a _LO and a _HI register. -/
def wideWord (s : State) (sec : Bool) : Reg → Option DWord
  | .timeLo | .timeHi => some s.now
  | .angleLo | .angleHi => some (angNow s)
  | .feAddrLo | .feAddrHi => some s.fcr.feAddr
  | .feTimeLo | .feTimeHi => some s.fcr.feTime
  | .tmLo k | .tmHi k => some (tmRead s k)
  | .errAddrLo p | .errAddrHi p => some (s.port p).errAddr
  | .gbLo g k w | .gbHi g k w => some (if gbHidden s sec g k then 0 else (s.eng (engOf (g * 17 + k))).gb.getD w 0)
  | _ => none

/-- The two registers of a pair, and whether this one is the _HI half (R17, R657). -/
def Reg.pair : Reg → Option (Reg × Reg × Bool)
  | .timeLo => some (.timeLo, .timeHi, false) | .timeHi => some (.timeLo, .timeHi, true)
  | .angleLo => some (.angleLo, .angleHi, false) | .angleHi => some (.angleLo, .angleHi, true)
  | .psBaseLo => some (.psBaseLo, .psBaseHi, false) | .psBaseHi => some (.psBaseLo, .psBaseHi, true)
  | .loadAddrLo => some (.loadAddrLo, .loadAddrHi, false) | .loadAddrHi => some (.loadAddrLo, .loadAddrHi, true)
  | .feAddrLo => some (.feAddrLo, .feAddrHi, false) | .feAddrHi => some (.feAddrLo, .feAddrHi, true)
  | .feTimeLo => some (.feTimeLo, .feTimeHi, false) | .feTimeHi => some (.feTimeLo, .feTimeHi, true)
  | .scrLo => some (.scrLo, .scrHi, false) | .scrHi => some (.scrLo, .scrHi, true)
  | .alarmLo => some (.alarmLo, .alarmHi, false) | .alarmHi => some (.alarmLo, .alarmHi, true)
  | .lgSwLo => some (.lgSwLo, .lgSwHi, false) | .lgSwHi => some (.lgSwLo, .lgSwHi, true)
  | .tmLo k => some (.tmLo k, .tmHi k, false) | .tmHi k => some (.tmLo k, .tmHi k, true)
  | .scAnchLo n => some (.scAnchLo n, .scAnchHi n, false) | .scAnchHi n => some (.scAnchLo n, .scAnchHi n, true)
  | .errAddrLo p => some (.errAddrLo p, .errAddrHi p, false) | .errAddrHi p => some (.errAddrLo p, .errAddrHi p, true)
  | .gbLo g k w => some (.gbLo g k w, .gbHi g k w, false) | .gbHi g k w => some (.gbLo g k w, .gbHi g k w, true)
  | _ => none

/-- Words of MST, WQM, FAB and the Ledger (Tables 20-3, 20-4). -/
def mstWord (s : State) (sec : Bool) : Reg → Option Word
  | .id => some 0x4B4C0512
  | .version => some 0x03012112
  | .gstat => some (gstatWord s)
  | .strapsR => some s.boot.straps
  | .feat0 => some 0x7F
  | .tpStat => some (packW [(16, s.mst.disc.toNat), (0, s.mst.viol.toNat)])
  | .tpDiscAddr => some (s.mst.discAddr.setWidth 32)
  | .aoDisc => some (s.mst.aoDisc.setWidth 32)
  | .dbgCfg => some (s.reg .dbgCfg + s.mst.trcDrop.setWidth 32)
  | .commitStatus => some (commitWord s.stage)
  | .commitInfo => some (commitInfoWord s.stage)
  | .stgDirty => some (dirtyWord s)
  | .stgLock => some (s.stage.lock.setWidth 32)
  | .clampStat => some (clampWord s.stage)
  | .avData i => some (match avReg s i with | some r => appRead s sec r | none => 0)
  | .clampAddr k => some ((Tbl.get {} s.stage.clamps k).addr.setWidth 32)
  | .clampFld k => some (clampFld (Tbl.get {} s.stage.clamps k))
  | .clampWr k => some (Tbl.get {} s.stage.clamps k).wr
  | .clampApl k => some (Tbl.get {} s.stage.clamps k).apl
  | .tempStat => some (packW [(31, b2n s.mst.tempOver), (0, s.mst.tempDom.toNat)])
  | .sns d => some (snsWord s d)
  | .age g => some ((Tbl.get 0 s.mst.age g).setWidth 32)
  | .lgHead => some s.ledger.head
  | .lgStat => some (lgStatWord s.ledger)
  | .lgData w => some (s.ledger.snap.words.getD w 0)
  | .lgOpt => some s.ledger.opTime
  | .lgPwr => some s.ledger.pwrCyc
  | .dspStat => some (if !sec && (s.chan (dspSel s)).sec then 0 else dspWord s)
  | .dspEhome => some (if !sec && (s.chan (dspSel s)).sec then 0 else ehomeWord s)
  | .starveLog => some (starveWord s.mst)
  | _ => none

/-- Words of EVC, TBS and XU (Tables 20-5, 20-6). -/
def evcWord (s : State) (sec : Bool) : Reg → Option Word
  | .rqStat n => some (rqWord s n)
  | .haltQ => some (if sec then haltWord s else 0)
  | .irqPend => some (irqPendWord s &&& irqVisible s sec)
  | .irqMask => some (s.reg .irqMask &&& irqVisible s sec)
  | .irqSec => some (s.stg .irqSec &&& irqVisible s sec)
  | .irqCoal i => some (if bit (irqVisible s sec) i then s.reg (.irqCoal i) else 0)
  | .irqCnt i => some (if bit (irqVisible s sec) i then (s.irq i).cnt.setWidth 32 else 0)
  | .evoMrg m => some ((s.evo m).merged.setWidth 32)
  | .ecCnt e => some (Tbl.get 0 s.evc.ecCnt e)
  | .subR j => some (subWord (s.sub j))
  | .subStat j => some (packW [(1, b2n (s.sub j).ovr), (0, b2n (s.sub j).pend)])
  | .tbStat => some (tbWord s)
  | .wedgePeriod => some s.tbs.wedgePeriod
  | .revPeriod => some s.tbs.revPeriod
  | .epochCnt k => some (Tbl.get 0 s.tbs.epoch k)
  | .scCtrl n => some (scWord s n)
  | .keyStat i => some (keyStatWord s i)
  | _ => none

/-- Words of CS, FCR, DOC and PCM (Tables 20-6, 20-7). -/
def fcrWord (s : State) : Reg → Option Word
  | .loadStat => some (loadStatWord s.loader)
  | .loadOk => some s.loader.ok
  | .feStat => some (feStatWord s.fcr)
  | .feInfo => some s.fcr.feInfo
  | .fcrStat => some (fcrStatWord s)
  | .rcvCnt => some (rcvCntWord s.fcr)
  | .capStat => some (capWord s)
  | .injCtrl => some (s.reg .injCtrl + packW [(30, b2n s.fcr.injBusy)])
  | .fcrPend k => some (packW ((upTo 32).map (fun i => (i, b2n (Tbl.get false s.fcr.pend (32 * k + i))))))
  | .srcCnt n => some (packW [(16, b2n (srcStuck s n)), (0, (Tbl.get 0 s.fcr.cnt n).toNat)])
  | .docStat => some (docStatWord s)
  | .docLast => some (docLastWord s.doc)
  | .docTest i => some (docTestWord s i)
  | .rotStat => some (packW [(16, s.doc.rotDone.toNat), (0, s.doc.rotAbandoned.toNat)])
  | .scrubStat => some (packW [(16, s.doc.sweeps.toNat), (0, s.doc.corr.toNat)])
  | .wakeLog => some (wakeLogWord s)
  | .wakeTime => some s.pcm.wakeTime
  | .alarmCtrl => some (alarmWord s)
  | .wakeTab c => some (wakeTabReset c)
  | .oppStat x => some (oppWord s x)
  | .domStat d => some (domWord s d)
  | _ => none

/-- Words of the replicated blocks (Tables 20-8, 20-9). -/
def blockWord (s : State) (sec : Bool) : Reg → Option Word
  | .portOutst p => some (BitVec.ofNat 32 (outst s p))
  | .portStat p => some (portWord (s.port p))
  | .errInfo p => some (s.port p).errInfo
  | .arbStat a => some (arbWord (s.arb a))
  | .linkStatus l => some (linkWord (s.link (BitVec.ofNat 5 l)))
  | .rxLevel l =>
    let x := s.link (BitVec.ofNat 5 l)
    some (packW [(16, x.held), (0, x.uncons)])
  | .rxRcvd l => some (s.link (BitVec.ofNat 5 l)).rcvd
  | .slErrCnt l => some (slErrWord (s.link (BitVec.ofNat 5 l)))
  | .stqHdr l => some (stqPop (BitVec.ofNat 5 l) s).1
  | .stqPos l => some (s.link (BitVec.ofNat 5 l)).stqPos
  | .stqData l w => some ((s.link (BitVec.ofNat 5 l)).stqData.getD w 0)
  | .csCtrl g => some (csCtrlWord s g)
  | .csId g b => some (csIdWord s g (b != 0))
  | .csInfo g b => some (csInfoWord s g (b != 0))
  | .slotMap g => some (slotMapWord s g)
  | .slotR g k => some (slotWord s (engOf (g * 17 + k)))
  | .gbStat g k => some (if gbHidden s sec g k then 0 else gbWord (s.eng (engOf (g * 17 + k))))
  | .engStat g k => some (engStatRead s sec g k)
  | _ => none

/-- The word of a register, but for the Catalogue windows and the doorbells: a unit's word, the staging copy of an RWS
register, or a plain RW register; WO registers and reserved bits read 0 (R11, R13, R506). -/
def wordOf (s : State) (sec : Bool) (r : Reg) : Word :=
  match mstWord s sec r <|> evcWord s sec r <|> fcrWord s r <|> blockWord s sec r with
  | some w => w
  | none =>
    match wideWord s sec r, r.pair with
    | some v, some (_, _, hi) => half v hi
    | _, _ => if r.stagedSet.isSome then s.stg r else s.reg r

/-! ## What a read changes (R658) -/

/-- The RC fields of a register are cleared by a read answered OKAY, and the queues are popped (R15, R658). -/
def readSequel (sec : Bool) (r : Reg) (s : State) : State :=
  match r with
  | .tpStat => { s with mst := { s.mst with disc := 0, viol := 0 } }
  | .aoDisc => { s with mst := { s.mst with aoDisc := 0 } }
  | .dbgCfg => { s with mst := { s.mst with trcDrop := 0 } }
  | .lgStat => lgStatClear s
  | .starveLog =>
    { s with mst := { s.mst with starveV := false, starveOvf := false, starveLevel := 0, starveInst := 0, starveReq := 0, starveCnt := 0 } }
  | .haltQ => if sec then haltPop s else s
  | .evoMrg m => s.modEvo m (fun v => { v with merged := 0 })
  | .keyStat i => s.modKeyWin i (fun x => { x with rej := false })
  | .srcCnt n => s.modFcr (fun f => { f with cnt := Tbl.put 0 f.cnt n 0 })
  | .docLast => s.modDoc (fun d =>
      { d with lastV := false, lastVerdict := 0, lastStep := 0, lastSrc := 0, lastInst := 0, lastElapsed := 0 })
  | .scrubStat => s.modDoc (fun d => { d with corr := 0 })
  | .csInfo g b => s.modGal g (fun x =>
      if b = 0 then { x with bankA := { x.bankA with corr := 0 } } else { x with bankB := { x.bankB with corr := 0 } })
  | .portStat p => s.modPort p (fun x => { x with retryCnt := 0, errCnt := 0 })
  | .arbStat a => s.modArb a (fun x => { x with waitMax := 0 })
  | .slErrCnt l => s.modLink (BitVec.ofNat 5 l) (fun x => { x with crcCnt := 0, nakCnt := 0, replayCnt := 0, tagCnt := 0 })
  | .stqHdr l => (stqPop (BitVec.ofNat 5 l) s).2
  | _ => s

/-! ## Catalogue windows and doorbells (R40 to R48, R69, R657, R660) -/

/-- A TP access to a channel is refused (R48). -/
def chanRefused (s : State) (ch : BitVec 12) (sec : Bool) (owner : Byte) : Bool :=
  let c := s.chan ch
  (!sec && c.sec) || (c.ownChk && owner != c.owner)

/-- A window access is checked unless its channel is FREE (R48). -/
def winRefused (s : State) (i : Nat) (sec : Bool) (owner : Byte) : Bool :=
  let ch := (s.win i).sel
  (s.chan ch).st != .free && chanRefused s ch sec owner

/-- Context offset `o` lies in a 64-bit quantity (Table 2-1). -/
def ctxWide (o : Nat) : Bool := decide (0x08 ≤ o ∧ o < 0x20) || decide (0x88 ≤ o ∧ o < 0xF8)

/-- The words at offsets 0x80 to 0xFF, by offset (R660). -/
def ckSnap (s : State) (ch : BitVec 12) : Tbl Word :=
  foldS (upTo 32) (fun k t => Tbl.put 0 t (0x80 + 4 * k) (ctxRead s ch (0x80 + 4 * k))) []

/-- A read through window `i` at context offset `o` (R657, R660). -/
def winRead (i o : Nat) (s : State) : Word × State :=
  let w := s.win i
  if o = 0x80 then (ctxRead s w.sel o, s.modWin i (fun x => { x with snap := some (ckSnap s w.sel) }))
  else match w.snap with
    | some t => if 0x84 ≤ o then (Tbl.get 0 t o, s) else live w
    | none => live w
where
  /-- The live words: _LO loads the window's holding register, _HI returns it. -/
  live (w : CatWin) : Word × State :=
    if !ctxWide o then (ctxRead s w.sel o, s)
    else if o % 8 = 0 then
      (ctxRead s w.sel o, s.modWin i (fun x => { x with hold := Tbl.put 0 x.hold o (ctxRead s w.sel (o + 4)) }))
    else (Tbl.get 0 w.hold (o - 4), s)

/-- A read of word `k` of a channel's doorbell block; the state word's RC bits clear (Tables 2-8, 2-11b). -/
def bellRead (ch : BitVec 12) (k : Nat) (s : State) : Word × State :=
  let c := s.chan ch
  match k with
  | 0 => (c.wrDone.setWidth 32, s)
  | 1 => (c.ntTail.setWidth 32, s)
  | 2 => (stateWord s ch, s.modChan ch (fun x => { x with dbErr := false, cmdRej := false }))
  | _ => (c.wrFetch.setWidth 32, s)

/-! ## The read -/

/-- A read of a register of a pair: _LO loads the holding register with the _HI half, _HI returns it; a word hidden from the
access shows 0 in both halves (R17, R635, R657). -/
def pairRead (sec : Bool) (lo hi : Reg) (isHi : Bool) (s : State) : Word × State :=
  if isHi then
    (match hi with
     | .gbHi g k _ => if gbHidden s sec g k then (0, s) else (Tbl.get 0 s.hold lo.addr, s)
     | _ => (Tbl.get 0 s.hold lo.addr, s))
  else (wordOf s sec lo, { s with hold := Tbl.put 0 s.hold lo.addr (wordOf s sec hi) })

/-- A read of a register by the rules of its owning chapter; none answers SLVERR. -/
def regRead (sec : Bool) (owner : Byte) (r : Reg) (s : State) : Option (Word × State) :=
  match r with
  | .catWin i o => if winRefused s i sec owner then none else some (winRead i o s)
  | .doorbell ch k =>
    if chanRefused s (BitVec.ofNat 12 ch) sec owner then none else some (bellRead (BitVec.ofNat 12 ch) k s)
  | .avData i => if avRefused s sec i then none else some (wordOf s sec r, s)
  | .keyCmd i | .keyStat i => if keyHidden s i sec then none else some (wordOf s sec r, readSequel sec r s)
  | .lgData 0 => let t := lgSnap s; some (wordOf t sec r, t)
  | _ =>
    if ecRefused s sec r then none
    else match r.pair with
      | some (lo, hi, isHi) => some (pairRead sec lo hi isHi s)
      | none => some (wordOf s sec r, readSequel sec r s)

end Sys2Proof.Machine
end

