-- ==== Sys2Proof/Machine/RegWrite.lean ====
section
/-! DEFINITION. RegWrite: what a write of each register of the TP window does, by the rules of its owning chapter (R11,
R43, R503). None answers SLVERR and changes nothing. -/

namespace Sys2Proof.Machine

/-- A write of a plain RW register: each field checked, every other bit kept (R11, R13, R43). -/
def rwWrite (r : Reg) (v : Word) (s : State) : State := s.setReg r (storeFlds r.flds (s.reg r) v)

/-- Bits that an access may not see keep their values (R341). -/
def masked (m old v : Word) : Word := (v &&& m) ||| (old &&& ~~~m)

/-- A write of MST.TM_CTRL: VIEW, and TAKE copies every counter (R653). -/
def tmCtrlTo (v : Word) (s : State) : State :=
  let t := rwWrite .tmCtrl v s
  if bit v 1 then { t with mst := { t.mst with tmSnap := t.mst.tm } } else t

/-- A write of G.ENG_CTRL: VIEW, and TAKE copies the 17 ENG_STAT values (R661). -/
def engCtrlTo (g : Nat) (v : Word) (s : State) : State :=
  let t := rwWrite (.engCtrl g) v s
  if bit v 1 then t.modGal g (fun x => { x with snap := (galEngs g).map (engWord s) }) else t

/-- A write of MST.NS_DENY; none once LOCK is 1 (R636). -/
def nsDenyWrite (v : Word) (s : State) : Option State := if bit (s.reg .nsDeny) 31 then none else some (rwWrite .nsDeny v s)

/-- A write of CS.SVN_MIN: a lower value is ignored (Table 15-7). -/
def svnTo (v : Word) (s : State) : State :=
  if fld v 0 16 < fld (s.reg .svnMin) 0 16 then s else rwWrite .svnMin v s

/-- A write of FCR.PEND(k), whose bits are W1C (Table 16-4). -/
def pendTo (k : Nat) (v : Word) (s : State) : State :=
  s.modFcr (fun f => { f with pend := foldS (upTo 32) (fun i t => if bit v i then Tbl.put false t (32 * k + i) false else t) f.pend })

/-- A write of SL.LINK_CTRL (Table 9-9). -/
def linkCtrlWrite (l : Nat) (v : Word) (s : State) : State :=
  linkCtrlTo (BitVec.ofNat 5 l) (bit v 31) (bit v 30) (rwWrite (.linkCtrl l) v s)

/-- A write of SL.RX_CFG; none where R369 or R377 refuses it. -/
def rxCfgWrite (l : Nat) (v : Word) (s : State) : Option State :=
  if rxCfgRefused s l v then none
  else
    let t := rwWrite (.rxCfg l) v s
    some (t.modLink (BitVec.ofNat 5 l) (fun x => { x with rdy := rdyNow t l x }))

/-- A write of the applied-view and staging registers, telemetry and the Ledger's (Tables 20-3, 19-8, 19-10). -/
def mstWrite (sec : Bool) (r : Reg) (v : Word) (s : State) : Option (Option State) :=
  match r with
  | .commit => some (some (commitWrite sec v s))
  | .commitStatus => some (some (if bit v 19 then s.modStage (fun g => { g with denied := false }) else s))
  | .clampStat => some (some (clampStatTo v s))
  | .tmCtrl => some (some (tmCtrlTo v s))
  | .tempStat => some (some (if bit v 31 then { s with mst := { s.mst with tempOver := false } } else s))
  | .nsDeny => some (nsDenyWrite v s)
  | .lgCtrl => some (some (lgCtrlTo v s))
  | .lgSeedOpt => some (lgSeedOpt v s)
  | .lgSeedPwr => some (lgSeedPwr v s)
  | .lgSwCode => some (lgSwWrite sec v s)
  | _ => none

/-- A write of a register of EVC, TBS or XU (Tables 20-5, 20-6). -/
def evcWrite (sec : Bool) (r : Reg) (v : Word) (s : State) : Option (Option State) :=
  match r with
  | .rqStat n => some (some (if bit v 3 then s.modRq n (fun q => { q with lost := false }) else s))
  | .swRaise => some (some (swRaise sec v s))
  | .irqPend => some (some (irqClear sec v s))
  | .irqMask => some (some (s.setReg .irqMask (masked (irqVisible s sec) (s.reg .irqMask) v)))
  | .irqSec => some (stageWrite .irqSec sec (masked (irqVisible s sec) (s.stg .irqSec) v) s)
  | .irqCoal i => some (some (if bit (irqVisible s sec) i then irqCoalChanged i (rwWrite r v s) else s))
  | .subR j => some (subWrite j sec v s)
  | .subStat j => some (some (if bit v 1 then s.modSub j (fun x => { x with ovr := false }) else s))
  | .tbStat => some (some (s.modTbs (fun t =>
      { t with dlyLost := t.dlyLost && !bit v 19, cmpDis := t.cmpDis && !bit v 18, crowd := t.crowd && !bit v 17,
               loss := t.loss && !bit v 16 })))
  | .epStrobe => some (some (if bit v 0 then epochBoundary [3] s else s))
  | .scCtrl n => some (scWrite n v s)
  | .scAnchLo n | .scAnchHi n => some (if !scReserved s n || (s.sc n).arm then none else some (rwWrite r v s))
  | .keyCmd i => some (keyCmdWrite i sec v s)
  | .keyStat i => some (if keyHidden s i sec then none else some s)
  | .keyData i w => some (some (keyDataTo i w sec v s))
  | _ => none

/-- A write of a register of CS, FCR, DOC or PCM (Tables 20-6, 20-7, R629). -/
def fcrWrite (sec : Bool) (r : Reg) (v : Word) (s : State) : Option (Option State) :=
  match r with
  | .loadCtrl => some (loadCtrlWrite v s)
  | .svnMin => some (some (svnTo v s))
  | .feStat => some (some (s.modFcr (feStatTo v)))
  | .fcrStat => some (some (if bit v 19 then s.modFcr (fun f => { f with qovf := false }) else s))
  | .fltCtrl => some (some (fltCtrlTo v s))
  | .fcrPend k => some (some (pendTo k v s))
  | .injCtrl => some (injCtrlWrite sec v s)
  | .docStat => some (some (if bit v 29 then s.modDoc (fun d => { d with cmdRej := false }) else s))
  | .docCmd => some (some (docCmdWrite v s))
  | .alarmLo | .alarmHi => some (if sec then some (alarmFire (rwWrite r v s)) else none)
  | .alarmCtrl => some (if sec then some (alarmCtrlTo v s) else none)
  | .holdRelease i => some (if sec then some (holdRelease i v s) else none)
  | .domCtrl d => some (if sec then some (domCtrlTo d (storeFlds r.flds (s.reg r) v) s) else none)
  | _ => none

/-- A write of a register of the replicated blocks (Tables 20-8, 20-9). -/
def blockWrite (sec : Bool) (r : Reg) (v : Word) (s : State) : Option (Option State) :=
  match r with
  | .portStat p => some (some (s.modPort p (fun x => { x with retryExh := x.retryExh && !bit v 1, err := x.err && !bit v 0 })))
  | .arbStat a => some (some (s.modArb a (fun x => { x with starve := x.starve && !bit v 25, bite := x.bite && !bit v 24 })))
  | .linkCtrl l => some (some (linkCtrlWrite l v s))
  | .rxCfg l => some (rxCfgWrite l v s)
  | .rxCmd l => some (if bit v 0 then linkFlush (BitVec.ofNat 5 l) s else some s)
  | .csCtrl g => some (csCtrlWrite g v s)
  | .engCtrl g => some (some (engCtrlTo g v s))
  | .slotR g k => some (some (s.modSlot (engOf (g * 17 + k)) (fun x => { x with wear := BitVec.ofNat 20 (fld v 0 20) })))
  | .gbStat g k =>
    some (some (if gbHidden s sec g k then s
      else s.modEng (engOf (g * 17 + k)) (fun x => { x with gbValid := x.gbValid && !bit v 31, gbOvf := x.gbOvf && !bit v 30 })))
  | _ => none

/-- A write of WQM.CAT_SEL(i): the channel, with every holding register of the window 0 and no snapshot (R40, R657,
R660). -/
def catSelTo (i : Nat) (v : Word) (s : State) : State :=
  (rwWrite (.catSel i) v s).modWin i (fun _ => { sel := BitVec.ofNat 12 (fld v 0 12) })

/-- A write of word `k` of a channel's doorbell block (Table 2-11b). -/
def bellWrite (ch : BitVec 12) (k : Nat) (v : Word) (s : State) : State :=
  match k with
  | 0 => considerHead ch (touch ch (s.modChan ch (wrTailTo (BitVec.ofNat 16 (fld v 0 16)))))
  | 1 => ntHeadTo ch (BitVec.ofNat 16 (fld v 0 16)) s
  | 2 => doCommand ch (fld v 0 4) s
  | _ => s

/-- A write of a register by the rules of its owning chapter; a write of an RO register changes nothing. -/
def regWrite (sec : Bool) (owner : Byte) (r : Reg) (v : Word) (s : State) : Option State :=
  match r with
  | .catSel i => some (catSelTo i v s)
  | .catWin i o => if winRefused s i sec owner then none else ctxWrite (s.win i).sel o v s
  | .doorbell ch k =>
    if chanRefused s (BitVec.ofNat 12 ch) sec owner then none else some (bellWrite (BitVec.ofNat 12 ch) k v s)
  | _ =>
    if ecRefused s sec r then none
    else match mstWrite sec r v s <|> evcWrite sec r v s <|> fcrWrite sec r v s <|> blockWrite sec r v s with
      | some o => o
      | none => if r.stagedSet.isSome then stageWrite r sec v s else some (rwWrite r v s)

end Sys2Proof.Machine
end

