-- ==== Sys2Proof/Machine/RegAccess.lean ====
section
/-! DEFINITION. RegAccess: the judgement of a register access in the order of Table 20-2, the Attendant, and the answer on
TP (R10, R437, R443, R454, R488, R656). -/

namespace Sys2Proof.Machine

/-- Response codes (Table 12-6). -/
def okay : BitVec 3 := 0
def slverr : BitVec 3 := 1
def decerr : BitVec 3 := 2
def absent : BitVec 3 := 3
def poweredOff : BitVec 3 := 4

/-- Step 1: an access that is not a naturally aligned 32-bit word, or whose LEN, NBYTES or BE break R454. -/
def malformedTp (a : TpAttr) (wr : Bool) (addr : BitVec 20) : Bool :=
  a.low != 0 || addr.toNat % 4 != 0 || a.len != 0 || a.nbytes != 4 || (wr && a.be != 15)

/-- MST.TP_CFG reserves the window for secure accesses (R659). -/
def windowDenied (s : State) : Reg → Bool
  | .catSel i | .catWin i _ => bit (s.reg .tpCfg) i
  | .avSel i | .avData i => bit (s.reg .tpCfg) (4 + i)
  | _ => false

/-- Step 4: the security class, NS_DENY or TP_CFG refuses the access (R634, R636, R659). -/
def secDenied (s : State) (sec wr : Bool) (r : Reg) : Bool :=
  !sec && ((match r.cls with | .secure => true | .nsRead => wr | .open_ => false) ||
    (wr && (match r.denyGroup with | some k => bit (s.reg .nsDeny) k | none => false)) || windowDenied s r)

/-- Step 5: the register's domain is not ON (R451). -/
def domainOff (s : State) (r : Reg) : Option Nat :=
  match r.dom with
  | some d => if s.domOn d then none else some d
  | none => none

/-- Step 6: the rules of the register's owning chapter. -/
def ownerRules (sec : Bool) (owner : Byte) (wr : Bool) (r : Reg) (d : Word) (s : State) : Resp × State :=
  if wr then
    (match regWrite sec owner r d s with
     | some t => ({ code := okay, data := 0 }, t)
     | none => ({ code := slverr, data := 0 }, s))
  else
    (match regRead sec owner r s with
     | some (w, t) => ({ code := okay, data := w }, t)
     | none => ({ code := slverr, data := 0 }, s))

/-- Steps 3 to 6 of Table 20-2, for an access that CORE serves. -/
def access (sec : Bool) (owner : Byte) (wr : Bool) (addr : Nat) (d : Word) (s : State) : Resp × State :=
  match decodeReg s.wings addr with
  | none => ({ code := decerr, data := 0 }, s)
  | some r =>
    if secDenied s sec wr r then ({ code := slverr, data := 0 }, s)
    else match domainOff s r with
      | some dm => ({ code := poweredOff, data := 0 }, beginWake dm 6 0 s)
      | none => ownerRules sec owner wr r d s

/-- The Attendant's answer (R488, R489). -/
def attend (addr : Nat) (wr : Bool) (s : State) : Resp × State :=
  if addr = 0 then ({ code := okay, data := if wr then 0 else wordOf s false .id }, s)
  else if addr = 4 then ({ code := okay, data := if wr then 0 else wordOf s false .version }, s)
  else if addr = 8 then ({ code := okay, data := if wr then 0 else wordOf s false .gstat }, s)
  else ({ code := absent, data := 0 }, if s.boot.ready then beginWake 2 5 0 s else s)

/-- A posted write whose effect CORE discards is counted, and the first one's address kept (R443, R637). -/
def discarded (addr : Nat) (s : State) : State :=
  let m := s.mst
  { s with mst := { m with disc := satAdd m.disc 1, discAddr := if m.disc = 0 then BitVec.ofNat 20 addr else m.discAddr } }

/-- A posted write that the Attendant discards (R488, R637). -/
def aoDiscarded (s : State) : State := { s with mst := { s.mst with aoDisc := satAdd s.mst.aoDisc 1 } }

/-- The RSP beat that answers an access: its ID and its KIND (Table 12-5). -/
def Resp.on (r : Resp) (a : TpAttr) (wr : Bool) : Resp := { r with id := a.id, kind := if wr then 1 else 0 }

/-- The answer is given on TP; a posted write has none. -/
def answer (r : Option Resp) (s : State) : State := { s with resp := r }

/-- The access as CORE serves it: step 1, then steps 3 to 6. -/
def coreAnswer (a : TpAttr) (wr : Bool) (addr : BitVec 20) (d : Word) (s : State) : Resp × State :=
  if malformedTp a wr addr then ({ code := slverr, data := 0 }, s) else access a.sec a.owner wr addr.toNat d s

/-- The access as the Attendant serves it. -/
def aoAnswer (a : TpAttr) (wr : Bool) (addr : BitVec 20) (s : State) : Resp × State :=
  if malformedTp a wr addr then ({ code := slverr, data := 0 }, s) else attend addr.toNat wr s

/-- A TP access. Nothing answers while `tz_alive` is low (R491), and no beat transfers while CORE's clock is stopped (R475). -/
def tpAccess (a : TpAttr) (wr : Bool) (addr : BitVec 20) (d : Word) (s : State) : State :=
  if s.boot.rstAo || s.boot.shellIso then s
  else if coreServes s then
    (if !coreUp s then s
    else
      let (r, t) := coreAnswer a wr addr d s
      if wr && a.posted then answer none (if r.code = okay then t else discarded addr.toNat t) else answer (some (r.on a wr)) t)
  else if wr && a.posted then answer none (aoDiscarded s)
  else let (r, t) := aoAnswer a wr addr s; answer (some (r.on a wr)) t

/-- A TP write. -/
def tpWrite (a : TpAttr) (addr : Nat) (d : Word) (s : State) : State := tpAccess a true (BitVec.ofNat 20 addr) d s

/-- A TP read. -/
def tpRead (a : TpAttr) (addr : Nat) (s : State) : State := tpAccess a false (BitVec.ofNat 20 addr) 0 s

end Sys2Proof.Machine
end

