-- ==== Sys2Proof/Machine/Registers.lean ====
section
/-! DEFINITION. Registers: the rows of the table that are one access on TP each. A row that names a command or a field writes
its word with the bits that make it that command; the judgement is that of Table 20-2 for every row. -/

namespace Sys2Proof.Machine

/-! ## Doorbells (R69 to R71, R84 to R89) -/

/-- A write of WR_TAIL at doorbell offset 0 (R70). -/
def execWrTailWrite (a : TpAttr) (ch : BitVec 12) (d : Word) (s : State) : Host.Outcome State Fault Refusal :=
  act s (tpWrite a (0x80000 + 16 * ch.toNat) d s)

/-- A write of NT_HEAD at doorbell offset 4 (R71). -/
def execNtHeadWrite (a : TpAttr) (ch : BitVec 12) (d : Word) (s : State) : Host.Outcome State Fault Refusal :=
  act s (tpWrite a (0x80000 + 16 * ch.toNat + 4) d s)

/-- Command INVALIDATE at doorbell offset 8 (R84). -/
def execInvalidate (a : TpAttr) (ch : BitVec 12) (d : Word) (s : State) : Host.Outcome State Fault Refusal :=
  act s (tpWrite a (0x80000 + 16 * ch.toNat + 8) (setFld d 0 4 1) s)

/-- Command PAUSE (R417). -/
def execPause (a : TpAttr) (ch : BitVec 12) (d : Word) (s : State) : Host.Outcome State Fault Refusal :=
  act s (tpWrite a (0x80000 + 16 * ch.toNat + 8) (setFld d 0 4 2) s)

/-- Command STOP (R421). -/
def execStop (a : TpAttr) (ch : BitVec 12) (d : Word) (s : State) : Host.Outcome State Fault Refusal :=
  act s (tpWrite a (0x80000 + 16 * ch.toNat + 8) (setFld d 0 4 3) s)

/-- Command ABORT (R422). -/
def execAbort (a : TpAttr) (ch : BitVec 12) (d : Word) (s : State) : Host.Outcome State Fault Refusal :=
  act s (tpWrite a (0x80000 + 16 * ch.toNat + 8) (setFld d 0 4 4) s)

/-- Command KILL (R423). -/
def execKill (a : TpAttr) (ch : BitVec 12) (d : Word) (s : State) : Host.Outcome State Fault Refusal :=
  act s (tpWrite a (0x80000 + 16 * ch.toNat + 8) (setFld d 0 4 5) s)

/-- Command RESUME (R86). -/
def execResume (a : TpAttr) (ch : BitVec 12) (d : Word) (s : State) : Host.Outcome State Fault Refusal :=
  act s (tpWrite a (0x80000 + 16 * ch.toNat + 8) (setFld d 0 4 6) s)

/-! ## Catalogue windows (R40 to R50, R657, R660) -/

/-- A write of CH_CTRL with ALLOC = 1 through window `i` (R50). -/
def execChAllocate (a : TpAttr) (i : BitVec 2) (d : Word) (s : State) : Host.Outcome State Fault Refusal :=
  act s (tpWrite a (0x2100 + 0x100 * i.toNat) (setFld d 0 1 1) s)

/-- A write of CH_CTRL with ALLOC = 0 (R50). -/
def execChFree (a : TpAttr) (i : BitVec 2) (d : Word) (s : State) : Host.Outcome State Fault Refusal :=
  act s (tpWrite a (0x2100 + 0x100 * i.toNat) (setFld d 0 1 0) s)

/-- A write of CH_CTRL with EN = 1 (R49). -/
def execChEnable (a : TpAttr) (i : BitVec 2) (d : Word) (s : State) : Host.Outcome State Fault Refusal :=
  act s (tpWrite a (0x2100 + 0x100 * i.toNat) (setFld d 1 1 1) s)

/-- A write of CH_CTRL with EN = 0 (R90). -/
def execChDisable (a : TpAttr) (i : BitVec 2) (d : Word) (s : State) : Host.Outcome State Fault Refusal :=
  act s (tpWrite a (0x2100 + 0x100 * i.toNat) (setFld d 1 1 0) s)

/-- A write of a context word through window `i` (R44, R46). -/
def execRingConfigWrite (a : TpAttr) (i : BitVec 2) (off : BitVec 8) (d : Word) (s : State) : Host.Outcome State Fault Refusal :=
  act s (tpWrite a (0x2100 + 0x100 * i.toNat + off.toNat) d s)

/-- A write of CAT_SEL(i) (R40). -/
def execCatSelWrite (a : TpAttr) (i : BitVec 2) (d : Word) (s : State) : Host.Outcome State Fault Refusal :=
  act s (tpWrite a (0x2000 + 4 * i.toNat) d s)

/-- A read of CH_CK_PC through window `i` (R660). -/
def execChCkPcRead (a : TpAttr) (i : BitVec 2) (s : State) : Host.Outcome State Fault Refusal :=
  act s (tpRead a (0x2180 + 0x100 * i.toNat) s)

/-! ## Reads that change state (R15, R658) -/

/-- A read of a _LO register (R657). -/
def execLoHalfRead (a : TpAttr) (addr : BitVec 20) (s : State) : Host.Outcome State Fault Refusal :=
  act s (tpAccess a false addr 0 s)

/-- A read of a register with RC fields (R15). -/
def execRcFieldRead (a : TpAttr) (addr : BitVec 20) (s : State) : Host.Outcome State Fault Refusal :=
  act s (tpAccess a false addr 0 s)

/-! ## Any register (R656), the Attendant (R488) and TP itself (R638) -/

/-- A write of a register with no row of its own (R656). -/
def execRegisterWrite (a : TpAttr) (addr : BitVec 20) (d : Word) (s : State) : Host.Outcome State Fault Refusal :=
  act s (tpAccess a true addr d s)

/-- A TP access: while CORE does not serve TP the Attendant answers it (R488); otherwise CORE does. -/
def execAttendantAccess (a : TpAttr) (addr : BitVec 20) (wr : Bool) (d : Word) (s : State) : Host.Outcome State Fault Refusal :=
  act s (tpAccess a wr addr d s)

/-- A TP manager lowers VALID or changes a beat before it transfers: counted, FS281 asserts, and a non-posted access is
answered SLVERR (R638). The count and the source are CORE's, so only while it serves TP. -/
def execTpHandshakeViolation (a : TpAttr) (s : State) : Host.Outcome State Fault Refusal :=
  act s (
    if s.boot.rstAo || s.boot.shellIso then s
    else
      let t := if coreServes s && coreUp s then
          assertFault 281 (faultOf 5 0) { s with mst := { s.mst with viol := satAdd s.mst.viol 1 } } else s
      if a.posted then t
      else
        let (v, u) := t.draw
        answer (some (Resp.on { code := slverr, data := 0 } a (bit (v.truncate 32) 0))) u)

/-! ## Staging and commit (R503 to R513) -/

/-- A write of an RWS register (R503). -/
def execStagingWrite (a : TpAttr) (addr : BitVec 20) (d : Word) (s : State) : Host.Outcome State Fault Refusal :=
  act s (tpAccess a true addr d s)

/-- MST.COMMIT with OP = COMMIT (R509). -/
def execCommit (a : TpAttr) (d : Word) (s : State) : Host.Outcome State Fault Refusal :=
  act s (tpWrite a (0x100) (setFld d 0 2 1) s)

/-- MST.COMMIT with OP = CANCEL (R512). -/
def execCancel (a : TpAttr) (d : Word) (s : State) : Host.Outcome State Fault Refusal :=
  act s (tpWrite a (0x100) (setFld d 0 2 2) s)

/-- MST.COMMIT with OP = REVERT (R512). -/
def execRevert (a : TpAttr) (d : Word) (s : State) : Host.Outcome State Fault Refusal :=
  act s (tpWrite a (0x100) (setFld d 0 2 3) s)

/-- MST.CLAMP_STAT with CLR = 1 (R503). -/
def execClampLogClear (a : TpAttr) (d : Word) (s : State) : Host.Outcome State Fault Refusal :=
  act s (tpWrite a (0x114) (setFld d 5 1 1) s)

/-! ## Time base and Concourse (R294, R309, R326, R327, R332, R339) -/

/-- A write of SC_CTRL of software comparator 32 + `n` (R309). -/
def execScCtrlWrite (a : TpAttr) (n : BitVec 5) (d : Word) (s : State) : Host.Outcome State Fault Refusal :=
  act s (tpWrite a (0x8400 + 16 * n.toNat) d s)

/-- TBS.EP_STROBE with GO = 1 (R294). -/
def execEpochStrobe (a : TpAttr) (d : Word) (s : State) : Host.Outcome State Fault Refusal :=
  act s (tpWrite a (0x8044) (setFld d 0 1 1) s)

/-- A write of EVC.SW_RAISE (R326). -/
def execSwRaise (a : TpAttr) (d : Word) (s : State) : Host.Outcome State Fault Refusal := act s (tpWrite a (0x4400) d s)

/-- A write of EVC.SUB(j) (R332). -/
def execSubWrite (a : TpAttr) (j : BitVec 10) (d : Word) (s : State) : Host.Outcome State Fault Refusal :=
  act s (tpWrite a (0x6000 + 8 * j.toNat) d s)

/-- A read of EVC.HALT_Q (R327). -/
def execHaltQRead (a : TpAttr) (s : State) : Host.Outcome State Fault Refusal := act s (tpRead a (0x4408) s)

/-- A write of EVC.IRQ_PEND (R339). -/
def execIrqPendClear (a : TpAttr) (d : Word) (s : State) : Host.Outcome State Fault Refusal := act s (tpWrite a (0x4410) d s)

/-! ## Stream Links (R346, R368, R369, R376, R378) -/

/-- SL.LINK_CTRL with EN = 1 (R346). -/
def execLinkEnable (a : TpAttr) (l : BitVec 5) (d : Word) (s : State) : Host.Outcome State Fault Refusal :=
  act s (tpWrite a (0x12080 + 0x100 * l.toNat) (setFld d 31 1 1) s)

/-- SL.LINK_CTRL with EN = 0 (R346). -/
def execLinkDisable (a : TpAttr) (l : BitVec 5) (d : Word) (s : State) : Host.Outcome State Fault Refusal :=
  act s (tpWrite a (0x12080 + 0x100 * l.toNat) (setFld d 31 1 0) s)

/-- SL.LINK_CTRL with RETRAIN = 1 (Table 9-9). -/
def execRetrain (a : TpAttr) (l : BitVec 5) (d : Word) (s : State) : Host.Outcome State Fault Refusal :=
  act s (tpWrite a (0x12080 + 0x100 * l.toNat) (setFld d 30 1 1) s)

/-- SL.RX_CMD with FLUSH = 1 (R368). -/
def execRxFlush (a : TpAttr) (l : BitVec 5) (d : Word) (s : State) : Host.Outcome State Fault Refusal :=
  act s (tpWrite a (0x1208C + 0x100 * l.toNat) (setFld d 0 1 1) s)

/-- A write of SL.RX_CFG (R369, R377). -/
def execRxCfgWrite (a : TpAttr) (l : BitVec 5) (d : Word) (s : State) : Host.Outcome State Fault Refusal :=
  act s (tpWrite a (0x12088 + 0x100 * l.toNat) d s)

/-- A read of SL.STQ_HDR (R378). -/
def execStqHdrRead (a : TpAttr) (l : BitVec 5) (s : State) : Host.Outcome State Fault Refusal :=
  act s (tpRead a (0x1209C + 0x100 * l.toNat) s)

/-! ## Control store (R523 to R531) -/

/-- CS.LOAD_CTRL with GO = 1 (R525). -/
def execLoadGo (a : TpAttr) (d : Word) (s : State) : Host.Outcome State Fault Refusal :=
  act s (tpWrite a (0xB00C) (setFld d 31 1 1) s)

/-- CS.LOAD_CTRL with CANCEL = 1 and GO = 0 (R528). -/
def execLoadCancel (a : TpAttr) (d : Word) (s : State) : Host.Outcome State Fault Refusal :=
  act s (tpWrite a (0xB00C) (setFld (setFld d 31 1 0) 30 1 1) s)

/-- G.CS_CTRL with SWAP = 1 (R531). -/
def execBankSwap (a : TpAttr) (g : BitVec 5) (d : Word) (s : State) : Host.Outcome State Fault Refusal :=
  act s (tpWrite a (0xA0000 + 0x1000 * g.toNat) (setFld d 31 1 1) s)

/-- A write of CS.SVN_MIN (R523). -/
def execSvnMinWrite (a : TpAttr) (d : Word) (s : State) : Host.Outcome State Fault Refusal := act s (tpWrite a (0xB018) d s)

/-! ## Faults and Docent (R554, R573, R602) -/

/-- FCR.FLT_CTRL with RELEASE = 1 (R554). -/
def execFltRelease (a : TpAttr) (d : Word) (s : State) : Host.Outcome State Fault Refusal :=
  act s (tpWrite a (0xC01C) (setFld d 3 1 1) s)

/-- FCR.INJ_CTRL with GO = 1 (R573). -/
def execInjectionGo (a : TpAttr) (d : Word) (s : State) : Host.Outcome State Fault Refusal :=
  act s (tpWrite a (0xC030) (setFld d 31 1 1) s)

/-- DOC.CMD with OP = TEST (R602). -/
def execDocTest (a : TpAttr) (d : Word) (s : State) : Host.Outcome State Fault Refusal :=
  act s (tpWrite a (0xD00C) (setFld d 28 4 1) s)

/-- DOC.CMD with OP = RETIRE (R602). -/
def execDocRetire (a : TpAttr) (d : Word) (s : State) : Host.Outcome State Fault Refusal :=
  act s (tpWrite a (0xD00C) (setFld d 28 4 2) s)

/-- DOC.CMD with OP = ROTATE (R602). -/
def execDocRotate (a : TpAttr) (d : Word) (s : State) : Host.Outcome State Fault Refusal :=
  act s (tpWrite a (0xD00C) (setFld d 28 4 3) s)

/-! ## Power (R610, R628) -/

/-- A write of PCM.DOM_CTRL (R610). -/
def execDomCtrlWrite (a : TpAttr) (dm : DomId) (d : Word) (s : State) : Host.Outcome State Fault Refusal :=
  act s (tpWrite a (0xE200 + 4 * dm.val) d s)

/-- A write of PCM.HOLD_RELEASE (R628). -/
def execHoldRelease (a : TpAttr) (hi : Bool) (d : Word) (s : State) : Host.Outcome State Fault Refusal :=
  act s (tpWrite a (0xE018 + 4 * b2n hi) d s)

/-! ## Ledger and telemetry (R645, R649 to R653, R661) -/

/-- A read of MST.LG_DATA(0) (R649). -/
def execLgDataRead (a : TpAttr) (s : State) : Host.Outcome State Fault Refusal := act s (tpRead a (0x1040) s)

/-- A write of MST.LG_SW_CODE (R650). -/
def execLgSwCodeWrite (a : TpAttr) (d : Word) (s : State) : Host.Outcome State Fault Refusal := act s (tpWrite a (0x1024) d s)

/-- MST.LG_CTRL with CLEAR = 1 (R651). -/
def execLgClear (a : TpAttr) (d : Word) (s : State) : Host.Outcome State Fault Refusal :=
  act s (tpWrite a (0x1010) (setFld d 0 1 1) s)

/-- A write of MST.LG_SEED_OPT (R645). -/
def execLgSeedOptWrite (a : TpAttr) (d : Word) (s : State) : Host.Outcome State Fault Refusal := act s (tpWrite a (0x101C) d s)

/-- A write of MST.LG_SEED_PWR (R645). -/
def execLgSeedPwrWrite (a : TpAttr) (d : Word) (s : State) : Host.Outcome State Fault Refusal := act s (tpWrite a (0x1020) d s)

/-- MST.TM_CTRL with TAKE = 1 (R653). -/
def execTmTake (a : TpAttr) (d : Word) (s : State) : Host.Outcome State Fault Refusal :=
  act s (tpWrite a (0x400) (setFld d 1 1 1) s)

/-- G.ENG_CTRL with TAKE = 1 (R661). -/
def execEngStatTake (a : TpAttr) (g : BitVec 5) (d : Word) (s : State) : Host.Outcome State Fault Refusal :=
  act s (tpWrite a (0xA0018 + 0x1000 * g.toNat) (setFld d 1 1 1) s)

/-- A write of MST.NS_DENY (R636). -/
def execNsDenyWrite (a : TpAttr) (d : Word) (s : State) : Host.Outcome State Fault Refusal := act s (tpWrite a (0x34) d s)

/-! ## Key cabinet (R261 to R264) -/

/-- XU.KEY_CMD(i) with OP = LOAD (R262). -/
def execKeyLoad (a : TpAttr) (i : BitVec 2) (d : Word) (s : State) : Host.Outcome State Fault Refusal :=
  act s (tpWrite a (0x9004 + 0x100 * i.toNat) (setFld d 0 4 1) s)

/-- XU.KEY_CMD(i) with OP = CLEAR (R262). -/
def execKeyClear (a : TpAttr) (i : BitVec 2) (d : Word) (s : State) : Host.Outcome State Fault Refusal :=
  act s (tpWrite a (0x9004 + 0x100 * i.toNat) (setFld d 0 4 2) s)

/-- A write of XU.KEY_DATA(i, k) (R261). -/
def execKeyDataWrite (a : TpAttr) (i : BitVec 2) (k : BitVec 4) (d : Word) (s : State) : Host.Outcome State Fault Refusal :=
  act s (tpWrite a (0x9040 + 0x100 * i.toNat + 4 * k.toNat) d s)

end Sys2Proof.Machine
end

