-- ==== Sys2Proof/Machine/Sideband.lean ====
section
/-! DEFINITION. Sideband: the sideband serial port, its address matcher and its commands (18, R623; 19, R639 to R643). -/

namespace Sys2Proof.Machine

/-- Change SBP. -/
def State.modSbp (s : State) (f : Sbp → Sbp) : State := { s with sbp := f s.sbp }

/-- The address matcher works: VDD_AO up, `rst_n` released, no STRAP_ERR (R623). -/
def sbpMatcherOn (s : State) : Bool := !s.boot.rstAo && !s.boot.rstN && !s.boot.strapErr && !s.boot.shellIso

/-- The matcher sees WAKE_ADDR: SCL is held low, CORE is raised, and the transfer is handed over once CORE is ON with READY = 1
(R623). -/
def execSbpAddressMatch (s : State) : Host.Outcome State Fault Refusal :=
  act s (
    if sbpMatcherOn s then sbpHand (beginWake 2 1 0 (s.modSbp (fun b => { b with stretch := true, active := false, acked := false })))
    else s)

/-- CORE is not ready within 2 ms: SCL is released without an acknowledge, and FS282 asserts; the wake continues (R623). -/
def execSbpStretchTimeout (s : State) : Host.Outcome State Fault Refusal :=
  act s (
    if s.sbp.stretch then assertFault 282 (faultOf 6 0) (s.modSbp (fun b => { b with stretch := false, acked := false })) else s)

/-- The transfer ends: its hold on CORE ends with it (R642). -/
def sbpEnd (s : State) : State := s.modSbp (fun b => { b with active := false })

/-- A STOP condition (R642). -/
def execSbpStop (s : State) : Host.Outcome State Fault Refusal := act s (sbpEnd s)

/-- SCL has been high for 25 ms without a STOP (R642). -/
def execSbpIdleTimeout (s : State) : Host.Outcome State Fault Refusal := act s (sbpEnd s)

/-- SBP serves the transfer: handed over, and CORE serves register accesses (R642). -/
def sbpServes (s : State) : Bool := s.sbp.active && coreServes s && coreUp s

/-- One byte into the CRC-8 of SMBus, x^8 + x^2 + x + 1, most significant bit first (R641). -/
def crc8Step (c b : Byte) : Byte :=
  (upTo 8).foldl (fun c _ => if c.msb then (c <<< 1) ^^^ 0x07 else c <<< 1) (c ^^^ b)

/-- The CRC-8 of SMBus over a transfer's bytes. -/
def crc8 (bs : List Byte) : Byte := bs.foldl crc8Step 0

/-- The address byte of a transfer: WAKE_ADDR and the R/W bit. -/
def sbpAddr (s : State) (rd : Bool) : Byte := BitVec.ofNat 8 (2 * Straps.wakeAddr s.boot.straps + b2n rd)

/-- A transfer, or its last byte, is not acknowledged; the rest of it is ignored (R639 to R641). -/
def sbpNak (s : State) : State := s.modSbp (fun x => { x with acked := false, out := [] })

/-- A read command: acknowledged, and answered with these bytes and the PEC byte of the transfer, in which `pre` stands ahead of them:
the byte count of a block, or nothing (R641). -/
def sbpGive (code : Byte) (pre b : List Byte) (s : State) : State :=
  s.modSbp (fun x => { x with
    acked := true, out := b ++ [crc8 ([sbpAddr s false, code, sbpAddr s true] ++ pre ++ b)] })

/-- A Block Read. -/
def sbpBlock (code : Byte) (b : List Byte) (s : State) : State := sbpGive code [BitVec.ofNat 8 b.length] b s

/-- A write command of these bytes: a PEC byte that fails is not acknowledged, and the command has no effect (R641). -/
def sbpTake (code : Byte) (b : List Byte) (pec : Option Byte) (f : State → State) (s : State) : State :=
  match pec with
  | some p =>
    if p = crc8 ([sbpAddr s false, code] ++ b) then f (s.modSbp (fun x => { x with acked := true, out := [] })) else sbpNak s
  | none => f (s.modSbp (fun x => { x with acked := true, out := [] }))

/-- A Block Write of these bytes. -/
def sbpPut (code : Byte) (b : List Byte) (pec : Option Byte) (f : State → State) (s : State) : State :=
  sbpTake code (BitVec.ofNat 8 b.length :: b) pec f s

/-- The four bytes of a register value, least significant first. -/
def wordBytes (w : Word) : List Byte := toLe 4 w.toNat

/-- A code byte (Table 19-4). -/
def codeByte (c : BitVec 3) : Byte := c.setWidth 8

/-- ADDR: bits [31:20] must be 0, else it is not acknowledged and ADDR keeps its value (R640). -/
def sbpSetAddr (b : List Byte) (pec : Option Byte) (s : State) : State :=
  if leAt b 0 4 / 2 ^ 20 ≠ 0 then sbpNak s
  else sbpPut 0x02 b pec (fun u => u.modSbp (fun x => { x with addr := BitVec.ofNat 20 (leAt b 0 4) })) s

/-- The register access of RD or WR, with SEC of SBP_CFG and OWNER 0; one answered OKAY advances ADDR (R640). -/
def sbpAccess (wr : Bool) (d : Word) (s : State) : Resp × State :=
  let a := TpAttr.plain (bit (s.reg .sbpCfg) 2) 0
  let (r, t) := coreAnswer a wr s.sbp.addr d s
  (r, if r.code = okay then t.modSbp (fun x => { x with addr := x.addr + 4 }) else t)

/-- RD: the value at ADDR and a code byte; with RD_EN = 0, 0 with code 1 and no access (R640). -/
def sbpRd (s : State) : State :=
  if bit (s.reg .sbpCfg) 0 then
    (let (r, u) := sbpAccess false 0 s
     sbpBlock 0x03 (wordBytes r.data ++ [codeByte r.code]) u)
  else sbpBlock 0x03 (wordBytes 0 ++ [1]) s

/-- WR: a write at ADDR, whose code WR_RESP returns; with WR_EN = 0 no access and code 1 (R640). -/
def sbpWr (b : List Byte) (s : State) : State :=
  if bit (s.reg .sbpCfg) 1 then
    (let (r, u) := sbpAccess true (BitVec.ofNat 32 (leAt b 0 4)) s
     u.modSbp (fun x => { x with wrResp := r.code }))
  else s.modSbp (fun x => { x with wrResp := slverr })

/-- TM_IDX: a counter index 0 to 63; for a greater byte the spec states no index, and a free value stands for it (log entry 3). -/
def sbpTmIdx (b : Byte) (s : State) : State :=
  if b.toNat < 64 then s.modSbp (fun x => { x with tmIdx := b.setWidth 6 })
  else s.draw.2.modSbp (fun x => { x with tmIdx := s.draw.1.setWidth 6 })

/-- The counter that TM_IDX selects. -/
def sbpCounter (s : State) : DWord :=
  let k := s.sbp.tmIdx.toNat
  if 38 ≤ k then 0 else Tbl.get 0 s.mst.tm k

/-- A transfer that SBP serves: the command byte, the data bytes that the master writes and its PEC byte, if it sends one. The code
picks the command of Table 19-4; an unknown one is not acknowledged, and the rest of the transfer is ignored (R639). LG_HEAD clears
the RC fields of LG_STAT (R15; log entry 27). -/
def sbpRun (code : Byte) (b : List Byte) (pec : Option Byte) (s : State) : State :=
  if !sbpServes s then s
  else match code.toNat with
    | 0x01 => sbpBlock 0x01 ([Reg.id, .version, .gstat].flatMap (fun r => wordBytes (wordOf s false r))) s
    | 0x02 => sbpSetAddr b pec s
    | 0x03 => sbpRd s
    | 0x04 => sbpPut 0x04 b pec (sbpWr b) s
    | 0x05 => sbpGive 0x05 [] [codeByte s.sbp.wrResp] s
    | 0x10 => sbpBlock 0x10 (wordBytes s.ledger.head ++ wordBytes (lgStatWord s.ledger)) (lgStatClear s)
    | 0x11 => sbpPut 0x11 b pec (fun t => t.modSbp (fun x => { x with lgSel := BitVec.ofNat 32 (leAt b 0 4) })) s
    | 0x12 => sbpBlock 0x12 ((lgAt s.ledger s.sbp.lgSel).words.flatMap wordBytes) s
    | 0x20 => sbpTake 0x20 b pec (sbpTmIdx (byteAt b 0)) s
    | 0x21 => sbpBlock 0x21 (toLe 8 (sbpCounter s).toNat) s
    | _ => sbpNak s

/-- INFO: MST.ID, MST.VERSION, MST.GSTAT. -/
def execInfo (s : State) : Host.Outcome State Fault Refusal := act s (sbpRun 0x01 [] none s)

/-- ADDR: the TP address of the next RD or WR (R640). -/
def execAddr (d : Word) (pec : Option Byte) (s : State) : Host.Outcome State Fault Refusal := act s (sbpRun 0x02 (wordBytes d) pec s)

/-- RD: the register at ADDR (R640). -/
def execRd (s : State) : Host.Outcome State Fault Refusal := act s (sbpRun 0x03 [] none s)

/-- WR: a write of the register at ADDR (R640, R641). -/
def execWr (d : Word) (pec : Option Byte) (s : State) : Host.Outcome State Fault Refusal := act s (sbpRun 0x04 (wordBytes d) pec s)

/-- WR_RESP: the code byte of the last WR. -/
def execWrResp (s : State) : Host.Outcome State Fault Refusal := act s (sbpRun 0x05 [] none s)

/-- LG_HEAD: MST.LG_HEAD, then MST.LG_STAT. -/
def execLgHead (s : State) : Host.Outcome State Fault Refusal := act s (sbpRun 0x10 [] none s)

/-- LG_SEQ: the record to read. -/
def execLgSeq (d : Word) (pec : Option Byte) (s : State) : Host.Outcome State Fault Refusal := act s (sbpRun 0x11 (wordBytes d) pec s)

/-- LG_READ: a snapshot of the selected record, apart from LG_DATA's (R649). -/
def execLgRead (s : State) : Host.Outcome State Fault Refusal := act s (sbpRun 0x12 [] none s)

/-- TM_IDX: the index of the counter to read. -/
def execTmIdx (b : Byte) (pec : Option Byte) (s : State) : Host.Outcome State Fault Refusal := act s (sbpRun 0x20 [b] pec s)

/-- TM_READ: the counter that TM_IDX selects, least significant byte first. -/
def execTmRead (s : State) : Host.Outcome State Fault Refusal := act s (sbpRun 0x21 [] none s)

end Sys2Proof.Machine
end

