-- ==== Sys2Proof/Machine/ResetDebug.lean ====
section
/-! DEFINITION. ResetDebug: the reset inputs, the reset sequence, shell isolation, debug and test (13, R481 to R498). -/

namespace Sys2Proof.Machine

/-! ## Resets (R481 to R484) -/

/-- What a request line keeps across a reset: the levels on its pins and the latch in AO (R323). -/
def rqReset (q : RqLine) : RqLine := { req := q.req, last := q.last, latch := q.latch, lost := q.lost }

/-- Every line as a reset leaves it. -/
def rqResetAll (t : Tbl RqLine) : Tbl RqLine := (t.map (fun p => (p.1, rqReset p.2))).filter (fun p => p.2 != {})

/-- Every slot as `rst_n` leaves it: its state at reset, WEAR kept (R579). -/
def slotsReset (t : Tbl Slot) : Tbl Slot :=
  (t.map (fun p => (p.1, { slotRst p.1 with wear := p.2.wear }))).filter (fun p => p.2 != slotRst p.1)

/-- Every domain except AO is OFF, nothing saved; PCM keeps its counts (R483, R619). -/
def domsReset (t : Tbl Dom) : Tbl Dom :=
  Tbl.put {} ((t.map (fun p => (p.1, ({ wakes := p.2.wakes, lastAbort := p.2.lastAbort } : Dom)))).filter (fun p => p.2 != {})) 0
    { Tbl.get {} t 0 with st := .on, target := .on }

/-- PMI in reset: every `vreq` 0 with `vtog` unchanged, clock requests low (Table 13-9). -/
def supReset (p : Supply) : Supply := { vtog := p.vtog, vack := p.vack }

/-- PCM as a reset of everything but AO leaves it. -/
def pcmReset (p : Pcm) : Pcm :=
  { p with
    sup := (p.sup.map (fun q => (q.1, supReset q.2))).filter (fun q => q.2 != {}),
    clk := (p.clk.map (fun q => (q.1, { q.2 with req := false }))).filter (fun q => q.2 != {}), cpCoh := false }

/-- A register of the AO domain: the Ledger's and PCM's plain RW registers (Table 20-1). -/
def aoReg (a : Nat) : Bool := decide (0x1000 ≤ a ∧ a < 0x2000) || decide (0xE000 ≤ a ∧ a < 0xF000)

/-- Everything except the AO domain takes its reset values, and every other domain is OFF (R481, R483, R517, R644). -/
def coreReset (s : State) : State :=
  { boot := { s.boot with rstN := true, ready := false }, tbs := { spinPin := s.tbs.spinPin }, slots := slotsReset s.slots,
    evc := { rq := rqResetAll s.evc.rq }, rw := Tbl.keep aoReg s.rw, doms := domsReset s.doms, pcm := pcmReset s.pcm, ledger := s.ledger,
    mst := { aoDisc := s.mst.aoDisc }, resp := s.resp, snpRsp := s.snpRsp, trace := s.trace, nextTxn := s.nextTxn, fresh := s.fresh,
    pending := s.pending }

/-- Assertion of `rst_n`: RESET is recorded, and everything but AO is reset (R483, R644). -/
def execRstNAssert (s : State) : Host.Outcome State Fault Refusal :=
  act s (if s.boot.rstN then s else coreReset (lgRecord 2 0 false s.boot.straps 0 s))

/-- The supplies of FCLK domains at OPP_DEF (R482, Table 18-11). -/
def oppDefault (straps : Word) (s : State) : State :=
  foldS (upTo 5) (fun x t => t.modSup x (fun p =>
    { p with v := BitVec.ofNat 3 (Straps.oppDef straps), f := BitVec.ofNat 3 (Straps.oppDef straps) })) s

/-- Release of `rst_n`: straps latched, STRAP_ERR evaluated, VDD_CORE and `refclk` requested, TBS and CORE on their way up
(R482, R484). -/
def execRstNRelease (str : Word) (s : State) : Host.Outcome State Fault Refusal :=
  act s (
    if !s.boot.rstN || s.boot.rstAo then s
    else
      let t := oppDefault str { s with boot := { s.boot with rstN := false, straps := str, strapErr := Straps.err str } }
      let up (d : Nat) (u : State) := u.modDom d (fun x => { x with step := .supply, target := .on })
      wakeAdvance (pmiPolicy (up 2 (up 1 t))))

/-- VDD_CORE and `refclk` are acknowledged (R482). -/
def coreSupplied (s : State) : Bool := supUp s 0 && clockUp s 1

/-- The latches of lines whose MODE is OFF yield no event (Table 8-2). -/
def dropLatches (s : State) : State := { s with evc := { s.evc with rq := (s.evc.rq.map (fun p => (p.1, { p.2 with latch := false }))).filter (fun p => p.2 != {}) } }

/-- Steps 3 to 6 of Table 13-5: TBS and CORE are ON at their reset values, READY is set, and the boot load begins; tick time
starts at 0, and LOCK is 0, or 4 in SYNTH mode (R280, R482). -/
def execResetSequenceComplete (s : State) : Host.Outcome State Fault Refusal :=
  act s (
    if s.boot.rstN || s.boot.rstAo || s.boot.ready || !coreSupplied s then s
    else
      let on (d : Nat) (u : State) := u.modDom d (fun x => { x with st := .on, step := .none, target := .on })
      let t := on 2 (on 1 { s with boot := { s.boot with ready := true }, tbs := { spinPin := s.tbs.spinPin } })
      let u := if tbSynth t then enterLock .synth 0 0 [] t else t
      sbpHand (bootLoad (pmiPolicy (dropLatches u))))

/-- Assertion of `rst_ao_n`, under which `rst_n` is low: the AO domain, the Ledger and the Cloakroom are reset too, and test
operation ends (R481, R498). -/
def execRstAoAssert (s : State) : Host.Outcome State Fault Refusal :=
  let t := coreReset s
  .next { t with
    boot := { t.boot with rstAo := true, straps := 0, strapErr := false, tstMode := false },
    slots := [], rw := [], doms := State.reset.doms, mst := {}, ledger := State.reset.ledger,
    evc := { rq := (t.evc.rq.map (fun p => (p.1, { p.2 with latch := false, lost := false }))).filter (fun p => p.2 != {}) },
    pcm := { sup := t.pcm.sup, clk := t.pcm.clk } }

/-- Release of `rst_ao_n`: the Ledger is empty but for LEDGER_START as SEQ 1 (R644). -/
def execRstAoRelease (s : State) : Host.Outcome State Fault Refusal :=
  .next (if s.boot.rstAo then { s with boot := { s.boot with rstAo := false }, ledger := State.reset.ledger } else s)

/-- Assertion of `tst_trst_n` resets the test access port and nothing else (R481). -/
def execTapReset (s : State) : Host.Outcome State Fault Refusal := .next { s with boot := { s.boot with tapReset := true } }

/-- `shell_iso` changes: while it is high the shell clamps Tilzu's outputs (R491, Table 13-9). -/
def execShellIsoChange (v : Bool) (s : State) : Host.Outcome State Fault Refusal :=
  act s { s with boot := { s.boot with shellIso := v } }

/-- Test operation begins: before the first scan shift every key slot is EMPTY and the Cloakroom is clear (R498). What functional
behaviour follows is undefined until `rst_ao_n`. -/
def execTestModeEntry (s : State) : Host.Outcome State Fault Refusal :=
  .next { s with
    boot := { s.boot with tstMode := true }, keys := [],
    doms := (s.doms.map (fun p => (p.1, { p.2 with saved := false }))).filter (fun p => p.2 != {}),
    slots := (s.slots.map (fun p => (p.1, { p.2 with wear := 0 }))).filter (fun p => p.2 != slotRst p.1),
    pcm := { s.pcm with savedTick := 0, aclk := 0, wakeSrc := 0, wakeDom := 0, wakeDetail := 0, gWakeSrc := 0, wakeTime := 0 } }

/-! ## Debug (R497) -/

/-- A debug halt reaches the engine: it runs a channel that `dbg_sec_en` admits. -/
def dbgAdmits (s : State) (x : Engine) : Bool := x.phase != .idle && (!(s.chan x.ch).sec || s.boot.dbgSecEn)

/-- `dbg_halt` changes: admitted engines stop at their next boundary (`canRun`), or go on (R497). -/
def execDbgHalt (v : Bool) (s : State) : Host.Outcome State Fault Refusal :=
  act s (
    let t := { s with boot := { s.boot with dbgHalt := v } }
    if !s.coreOn then t
    else foldS (s.engs.map Prod.fst) (fun k u => u.modEng (engOf k) (fun x =>
      { x with dbgStopped := v && dbgAdmits s x, dbgStep := false })) t)

/-- A rising edge of `dbg_step`: each stopped engine may execute one instruction (R497). -/
def execDbgStep (s : State) : Host.Outcome State Fault Refusal :=
  act s (
    if s.coreOn && s.boot.dbgHalt then
      foldS (s.engs.map Prod.fst) (fun k u => u.modEng (engOf k) (fun x => { x with dbgStep := x.dbgStopped })) s
    else s)

/-- The level of `dbg_halted`: every engine that the halt reaches has stopped; low while CORE is not ON (R486, R497). -/
def dbgHalted (s : State) : Bool := pinsUp s && s.boot.dbgHalt && s.engs.all (fun p => !dbgAdmits s p.2 || dbgHeld p.2)

/-! ## Levels at the edge (R476, R486, R487) -/

/-- `tz_alive`: low while the shell clamps (R491, Table 13-9). -/
def tzAlive (s : State) : Bool := !s.boot.rstAo && !s.boot.shellIso

/-- `cp_coh` at its pin: the Vitrine may hold a line (R487). -/
def cpCohPin (s : State) : Bool := s.pcm.cpCoh && !s.boot.shellIso

/-- `vreq` of supply `x` at the edge, clamped while the shell isolates (R479, R491). -/
def vreqPin (s : State) (x : Nat) : BitVec 3 := if s.boot.shellIso then 0 else (s.sup x).vreq

/-- `vtog` of supply `x` at the edge (R479, R491). -/
def vtogPin (s : State) (x : Nat) : Bool := (s.sup x).vtog && !s.boot.shellIso

/-- Clock request `c` at the edge: 0 `refclk`, 1 to 4 `sl_refclk` (R479, R491). -/
def clkReqPin (s : State) (c : Nat) : Bool := (s.clk c).req && !s.boot.shellIso

/-- `tp_clk` is core FCLK, and not ATCLK: CORE is ON and the reset sequence has completed (R476). -/
def tpClkFclk (s : State) : Bool := s.coreOn && s.boot.ready

end Sys2Proof.Machine
end

