-- ==== Sys2Proof/Machine/Dispatch.lean ====
section
/-! DEFINITION. Dispatch: one arm per command. -/

namespace Sys2Proof.Machine

/-- The effect of a command on everything but the queue. -/
def exec (i : Instr) (s : State) : Host.Outcome State Fault Refusal :=
  match i with
  | .bCond e w => Sys2Proof.Machine.execBCond e w s
  | .dbnz e w => Sys2Proof.Machine.execDbnz e w s
  | .call e w => Sys2Proof.Machine.execCall e w s
  | .jr e w => Sys2Proof.Machine.execJr e w s
  | .callr e w => Sys2Proof.Machine.execCallr e w s
  | .ret e w => Sys2Proof.Machine.execRet e w s
  | .trap e w => Sys2Proof.Machine.execTrap e w s
  | .eret e w => Sys2Proof.Machine.execEret e w s
  | .syncI e w => Sys2Proof.Machine.execSyncI e w s
  | .fence e w => Sys2Proof.Machine.execFence e w s
  | .fenceG e w => Sys2Proof.Machine.execFenceG e w s
  | .sdef e w => Sys2Proof.Machine.execSdef e w s
  | .sseek e w => Sys2Proof.Machine.execSseek e w s
  | .spos e w => Sys2Proof.Machine.execSpos e w s
  | .move e w => Sys2Proof.Machine.execMove e w s
  | .movex e w => Sys2Proof.Machine.execMovex e w s
  | .funnel e w => Sys2Proof.Machine.execFunnel e w s
  | .fill e w => Sys2Proof.Machine.execFill e w s
  | .captRead e w => Sys2Proof.Machine.execCaptRead e w s
  | .captWrite e w => Sys2Proof.Machine.execCaptWrite e w s
  | .notify e w => Sys2Proof.Machine.execNotify e w s
  | .waitTime e w => Sys2Proof.Machine.execWaitTime e w s
  | .waitAngle e w => Sys2Proof.Machine.execWaitAngle e w s
  | .waitDelay e w => Sys2Proof.Machine.execWaitDelay e w s
  | .waitEvent e w => Sys2Proof.Machine.execWaitEvent e w s
  | .yield e w => Sys2Proof.Machine.execYield e w s
  | .ckpt e w => Sys2Proof.Machine.execCkpt e w s
  | .done e w => Sys2Proof.Machine.execDone e w s
  | .add e w => Sys2Proof.Machine.execAdd e w s
  | .sub e w => Sys2Proof.Machine.execSub e w s
  | .and_ e w => Sys2Proof.Machine.execAnd e w s
  | .or_ e w => Sys2Proof.Machine.execOr e w s
  | .xor_ e w => Sys2Proof.Machine.execXor e w s
  | .neg e w => Sys2Proof.Machine.execNeg e w s
  | .cmp e w => Sys2Proof.Machine.execCmp e w s
  | .tst e w => Sys2Proof.Machine.execTst e w s
  | .li e w => Sys2Proof.Machine.execLi e w s
  | .sll e w => Sys2Proof.Machine.execSll e w s
  | .srl e w => Sys2Proof.Machine.execSrl e w s
  | .sra e w => Sys2Proof.Machine.execSra e w s
  | .rot e w => Sys2Proof.Machine.execRot e w s
  | .muls e w => Sys2Proof.Machine.execMuls e w s
  | .mulu e w => Sys2Proof.Machine.execMulu e w s
  | .mulhs e w => Sys2Proof.Machine.execMulhs e w s
  | .mulhu e w => Sys2Proof.Machine.execMulhu e w s
  | .divs e w => Sys2Proof.Machine.execDivs e w s
  | .divu e w => Sys2Proof.Machine.execDivu e w s
  | .rems e w => Sys2Proof.Machine.execRems e w s
  | .remu e w => Sys2Proof.Machine.execRemu e w s
  | .ext e w => Sys2Proof.Machine.execExt e w s
  | .exts e w => Sys2Proof.Machine.execExts e w s
  | .ins e w => Sys2Proof.Machine.execIns e w s
  | .clz e w => Sys2Proof.Machine.execClz e w s
  | .ctz e w => Sys2Proof.Machine.execCtz e w s
  | .popc e w => Sys2Proof.Machine.execPopc e w s
  | .bswap e w => Sys2Proof.Machine.execBswap e w s
  | .ld e w => Sys2Proof.Machine.execLd e w s
  | .st e w => Sys2Proof.Machine.execSt e w s
  | .ldv e w => Sys2Proof.Machine.execLdv e w s
  | .tcld e w => Sys2Proof.Machine.execTcld e w s
  | .signal e w => Sys2Proof.Machine.execSignal e w s
  | .evtst e w => Sys2Proof.Machine.execEvtst e w s
  | .tnow e w => Sys2Proof.Machine.execTnow e w s
  | .anow e w => Sys2Proof.Machine.execAnow e w s
  | .a2t e w => Sys2Proof.Machine.execA2t e w s
  | .t2a e w => Sys2Proof.Machine.execT2a e w s
  | .aadd e w => Sys2Proof.Machine.execAadd e w s
  | .xset e w => Sys2Proof.Machine.execXset e w s
  | .xfold e w => Sys2Proof.Machine.execXfold e w s
  | .xget e w => Sys2Proof.Machine.execXget e w s
  | .xrst e w => Sys2Proof.Machine.execXrst e w s
  | .emit e w => Sys2Proof.Machine.execEmit e w s
  | .patch e w => Sys2Proof.Machine.execPatch e w s
  | .rdsr e w => Sys2Proof.Machine.execRdsr e w s
  | .wrsr e w => Sys2Proof.Machine.execWrsr e w s
  | .unhandledExceptionEnd e => Sys2Proof.Machine.execUnhandledExceptionEnd e s
  | .residueForcedFlush e => Sys2Proof.Machine.execResidueForcedFlush e s
  | .ckptByteIntervalExpiry e => Sys2Proof.Machine.execCkptByteIntervalExpiry e s
  | .ckptTimeIntervalExpiry e => Sys2Proof.Machine.execCkptTimeIntervalExpiry e s
  | .checkpointCommit e => Sys2Proof.Machine.execCheckpointCommit e s
  | .dispatchDecision wing => Sys2Proof.Machine.execDispatchDecision wing s
  | .wrTailWrite a ch d => Sys2Proof.Machine.execWrTailWrite a ch d s
  | .ntHeadWrite a ch d => Sys2Proof.Machine.execNtHeadWrite a ch d s
  | .invalidate a ch d => Sys2Proof.Machine.execInvalidate a ch d s
  | .pause a ch d => Sys2Proof.Machine.execPause a ch d s
  | .stop a ch d => Sys2Proof.Machine.execStop a ch d s
  | .abort a ch d => Sys2Proof.Machine.execAbort a ch d s
  | .kill a ch d => Sys2Proof.Machine.execKill a ch d s
  | .resume a ch d => Sys2Proof.Machine.execResume a ch d s
  | .pauseStopPoint ch => Sys2Proof.Machine.execPauseStopPoint ch s
  | .abortStopPoint ch => Sys2Proof.Machine.execAbortStopPoint ch s
  | .killStopPoint ch => Sys2Proof.Machine.execKillStopPoint ch s
  | .stopWorkOrderBoundary ch => Sys2Proof.Machine.execStopWorkOrderBoundary ch s
  | .chAllocate a ix d => Sys2Proof.Machine.execChAllocate a ix d s
  | .chFree a ix d => Sys2Proof.Machine.execChFree a ix d s
  | .chEnable a ix d => Sys2Proof.Machine.execChEnable a ix d s
  | .chDisable a ix d => Sys2Proof.Machine.execChDisable a ix d s
  | .ringConfigWrite a ix off d => Sys2Proof.Machine.execRingConfigWrite a ix off d s
  | .catSelWrite a ix d => Sys2Proof.Machine.execCatSelWrite a ix d s
  | .chCkPcRead a ix => Sys2Proof.Machine.execChCkPcRead a ix s
  | .loHalfRead a addr => Sys2Proof.Machine.execLoHalfRead a addr s
  | .rcFieldRead a addr => Sys2Proof.Machine.execRcFieldRead a addr s
  | .entryFetch ch => Sys2Proof.Machine.execEntryFetch ch s
  | .entryFetchComplete ch => Sys2Proof.Machine.execEntryFetchComplete ch s
  | .entryMalformed ch => Sys2Proof.Machine.execEntryMalformed ch s
  | .markerEntry ch => Sys2Proof.Machine.execMarkerEntry ch s
  | .barrierComplete ch => Sys2Proof.Machine.execBarrierComplete ch s
  | .effectRelease ch => Sys2Proof.Machine.execEffectRelease ch s
  | .resultPublication ch => Sys2Proof.Machine.execResultPublication ch s
  | .ringError ch => Sys2Proof.Machine.execRingError ch s
  | .poolLoad => Sys2Proof.Machine.execPoolLoad s
  | .anchorFire n => Sys2Proof.Machine.execAnchorFire n s
  | .scCtrlWrite a n d => Sys2Proof.Machine.execScCtrlWrite a n d s
  | .wedgeStrobe index phase => Sys2Proof.Machine.execWedgeStrobe index phase s
  | .indexWithoutStrobe => Sys2Proof.Machine.execIndexWithoutStrobe s
  | .toleranceWindowExpiry => Sys2Proof.Machine.execToleranceWindowExpiry s
  | .spinValidChange v => Sys2Proof.Machine.execSpinValidChange v s
  | .synthStrobe => Sys2Proof.Machine.execSynthStrobe s
  | .epochTimeN => Sys2Proof.Machine.execEpochTimeN s
  | .epochStrobe a d => Sys2Proof.Machine.execEpochStrobe a d s
  | .delayParityError n shadow => Sys2Proof.Machine.execDelayParityError n shadow s
  | .delayRegisterLost n => Sys2Proof.Machine.execDelayRegisterLost n s
  | .delayRegisterReload n authOk => Sys2Proof.Machine.execDelayRegisterReload n authOk s
  | .comparatorDisagreement n => Sys2Proof.Machine.execComparatorDisagreement n s
  | .slowCheckReevaluation n => Sys2Proof.Machine.execSlowCheckReevaluation n s
  | .slowCheckSweep => Sys2Proof.Machine.execSlowCheckSweep s
  | .requestLineChange n lvl last => Sys2Proof.Machine.execRequestLineChange n lvl last s
  | .holdoffExpiry n => Sys2Proof.Machine.execHoldoffExpiry n s
  | .aoRequestLatch n => Sys2Proof.Machine.execAoRequestLatch n s
  | .swRaise a d => Sys2Proof.Machine.execSwRaise a d s
  | .subWrite a j d => Sys2Proof.Machine.execSubWrite a j d s
  | .haltQRead a => Sys2Proof.Machine.execHaltQRead a s
  | .evoPulseEnd m => Sys2Proof.Machine.execEvoPulseEnd m s
  | .irqCoalTimeout ix => Sys2Proof.Machine.execIrqCoalTimeout ix s
  | .irqPendClear a d => Sys2Proof.Machine.execIrqPendClear a d s
  | .linkEnable a l d => Sys2Proof.Machine.execLinkEnable a l d s
  | .linkDisable a l d => Sys2Proof.Machine.execLinkDisable a l d s
  | .retrain a l d => Sys2Proof.Machine.execRetrain a l d s
  | .blockLockAcquired l lane => Sys2Proof.Machine.execBlockLockAcquired l lane s
  | .blockLockLost l lane => Sys2Proof.Machine.execBlockLockLost l lane s
  | .ts l t => Sys2Proof.Machine.execTs l t s
  | .lsw l lane seq => Sys2Proof.Machine.execLsw l lane seq s
  | .trainTimeout l => Sys2Proof.Machine.execTrainTimeout l s
  | .configTimeout l => Sys2Proof.Machine.execConfigTimeout l s
  | .recoveryTimeout l => Sys2Proof.Machine.execRecoveryTimeout l s
  | .streamData l f => Sys2Proof.Machine.execStreamData l f s
  | .streamStatus l f => Sys2Proof.Machine.execStreamStatus l f s
  | .mark l f => Sys2Proof.Machine.execMark l f s
  | .ack l f => Sys2Proof.Machine.execAck l f s
  | .credit l f => Sys2Proof.Machine.execCredit l f s
  | .cap l f => Sys2Proof.Machine.execCap l f s
  | .linkReplayTimeout l => Sys2Proof.Machine.execLinkReplayTimeout l s
  | .ackFrameSend l => Sys2Proof.Machine.execAckFrameSend l s
  | .rxFlush a l d => Sys2Proof.Machine.execRxFlush a l d s
  | .rxCfgWrite a l d => Sys2Proof.Machine.execRxCfgWrite a l d s
  | .stqHdrRead a l => Sys2Proof.Machine.execStqHdrRead a l s
  | .arbiterGrantPoint arb => Sys2Proof.Machine.execArbiterGrantPoint arb s
  | .grantWatchdogBite arb => Sys2Proof.Machine.execGrantWatchdogBite arb s
  | .readResponse t codes data grantE => Sys2Proof.Machine.execReadResponse t codes data grantE s
  | .writeResponse t code => Sys2Proof.Machine.execWriteResponse t code s
  | .retryReissue t => Sys2Proof.Machine.execRetryReissue t s
  | .snpShared cp line => Sys2Proof.Machine.execSnpShared cp line s
  | .snpInvalid cp line => Sys2Proof.Machine.execSnpInvalid cp line s
  | .evictAck t => Sys2Proof.Machine.execEvictAck t s
  | .wbAck t code => Sys2Proof.Machine.execWbAck t code s
  | .coherentReissue t => Sys2Proof.Machine.execCoherentReissue t s
  | .registerWrite a addr d => Sys2Proof.Machine.execRegisterWrite a addr d s
  | .attendantAccess a addr wr d => Sys2Proof.Machine.execAttendantAccess a addr wr d s
  | .tpHandshakeViolation a => Sys2Proof.Machine.execTpHandshakeViolation a s
  | .stagingWrite a addr d => Sys2Proof.Machine.execStagingWrite a addr d s
  | .commit a d => Sys2Proof.Machine.execCommit a d s
  | .cancel a d => Sys2Proof.Machine.execCancel a d s
  | .revert a d => Sys2Proof.Machine.execRevert a d s
  | .commitCheckDone => Sys2Proof.Machine.execCommitCheckDone s
  | .commitBoundary => Sys2Proof.Machine.execCommitBoundary s
  | .commitExpiry => Sys2Proof.Machine.execCommitExpiry s
  | .clampLogClear a d => Sys2Proof.Machine.execClampLogClear a d s
  | .loadGo a d => Sys2Proof.Machine.execLoadGo a d s
  | .loadCancel a d => Sys2Proof.Machine.execLoadCancel a d s
  | .loadVerifyDone x => Sys2Proof.Machine.execLoadVerifyDone x s
  | .loadWriteDone x => Sys2Proof.Machine.execLoadWriteDone x s
  | .bankSwap a g d => Sys2Proof.Machine.execBankSwap a g d s
  | .bankReload g b x => Sys2Proof.Machine.execBankReload g b x s
  | .svnMinWrite a d => Sys2Proof.Machine.execSvnMinWrite a d s
  | .faultAssertion n ix => Sys2Proof.Machine.execFaultAssertion n ix s
  | .railFault n => Sys2Proof.Machine.execRailFault n s
  | .stuckSourceClear n => Sys2Proof.Machine.execStuckSourceClear n s
  | .engineFault e => Sys2Proof.Machine.execEngineFault e s
  | .replayReady e => Sys2Proof.Machine.execReplayReady e s
  | .fltPulseEnd => Sys2Proof.Machine.execFltPulseEnd s
  | .fltRelease a d => Sys2Proof.Machine.execFltRelease a d s
  | .faultQuietEnd => Sys2Proof.Machine.execFaultQuietEnd s
  | .injectionGo a d => Sys2Proof.Machine.execInjectionGo a d s
  | .injectionSeen => Sys2Proof.Machine.execInjectionSeen s
  | .testStart ix => Sys2Proof.Machine.execTestStart ix s
  | .testVerdict ix o => Sys2Proof.Machine.execTestVerdict ix o s
  | .testLimitExpiry ix => Sys2Proof.Machine.execTestLimitExpiry ix s
  | .docTest a d => Sys2Proof.Machine.execDocTest a d s
  | .docRetire a d => Sys2Proof.Machine.execDocRetire a d s
  | .docRotate a d => Sys2Proof.Machine.execDocRotate a d s
  | .rotationDue g => Sys2Proof.Machine.execRotationDue g s
  | .rotationStart g pass => Sys2Proof.Machine.execRotationStart g pass s
  | .rotationSwap g => Sys2Proof.Machine.execRotationSwap g s
  | .rotationAbandon g => Sys2Proof.Machine.execRotationAbandon g s
  | .periodicSpareTest e pass => Sys2Proof.Machine.execPeriodicSpareTest e pass s
  | .periodicComparatorTest n pass => Sys2Proof.Machine.execPeriodicComparatorTest n pass s
  | .periodicAesTest g p pass => Sys2Proof.Machine.execPeriodicAesTest g p pass s
  | .scrubAccess arr idx o => Sys2Proof.Machine.execScrubAccess arr idx o s
  | .interpolatorCalibration => Sys2Proof.Machine.execInterpolatorCalibration s
  | .linkCalibration l => Sys2Proof.Machine.execLinkCalibration l s
  | .atclkCalibration => Sys2Proof.Machine.execAtclkCalibration s
  | .sensorSample dm temp volt => Sys2Proof.Machine.execSensorSample dm temp volt s
  | .ageingSample g freq => Sys2Proof.Machine.execAgeingSample g freq s
  | .idleDlyExpiry dm => Sys2Proof.Machine.execIdleDlyExpiry dm s
  | .domainDrainComplete dm => Sys2Proof.Machine.execDomainDrainComplete dm s
  | .entryAbandon dm => Sys2Proof.Machine.execEntryAbandon dm s
  | .wakeStart dm src detail => Sys2Proof.Machine.execWakeStart dm src detail s
  | .wakeRailDone dm => Sys2Proof.Machine.execWakeRailDone dm s
  | .wakeClockDone dm => Sys2Proof.Machine.execWakeClockDone dm s
  | .wakeSettleDone dm => Sys2Proof.Machine.execWakeSettleDone dm s
  | .domCtrlWrite a dm d => Sys2Proof.Machine.execDomCtrlWrite a dm d s
  | .holdRelease a hi d => Sys2Proof.Machine.execHoldRelease a hi d s
  | .alarmFire => Sys2Proof.Machine.execAlarmFire s
  | .oppClockRestart sup => Sys2Proof.Machine.execOppClockRestart sup s
  | .pmiAck p => Sys2Proof.Machine.execPmiAck p s
  | .pmiAckTimeout p => Sys2Proof.Machine.execPmiAckTimeout p s
  | .sbpAddressMatch => Sys2Proof.Machine.execSbpAddressMatch s
  | .sbpStretchTimeout => Sys2Proof.Machine.execSbpStretchTimeout s
  | .sbpIdleTimeout => Sys2Proof.Machine.execSbpIdleTimeout s
  | .info => Sys2Proof.Machine.execInfo s
  | .addr d pec => Sys2Proof.Machine.execAddr d pec s
  | .rd => Sys2Proof.Machine.execRd s
  | .wr d pec => Sys2Proof.Machine.execWr d pec s
  | .wrResp => Sys2Proof.Machine.execWrResp s
  | .lgHead => Sys2Proof.Machine.execLgHead s
  | .lgSeq d pec => Sys2Proof.Machine.execLgSeq d pec s
  | .lgRead => Sys2Proof.Machine.execLgRead s
  | .tmIdx b pec => Sys2Proof.Machine.execTmIdx b pec s
  | .tmRead => Sys2Proof.Machine.execTmRead s
  | .lgDataRead a => Sys2Proof.Machine.execLgDataRead a s
  | .lgSwCodeWrite a d => Sys2Proof.Machine.execLgSwCodeWrite a d s
  | .lgClear a d => Sys2Proof.Machine.execLgClear a d s
  | .lgSeedOptWrite a d => Sys2Proof.Machine.execLgSeedOptWrite a d s
  | .lgSeedPwrWrite a d => Sys2Proof.Machine.execLgSeedPwrWrite a d s
  | .ledgerRecordWrite => Sys2Proof.Machine.execLedgerRecordWrite s
  | .ledgerWindowClose code => Sys2Proof.Machine.execLedgerWindowClose code s
  | .opTimeTick => Sys2Proof.Machine.execOpTimeTick s
  | .tmTake a d => Sys2Proof.Machine.execTmTake a d s
  | .engStatTake a g d => Sys2Proof.Machine.execEngStatTake a g d s
  | .nsDenyWrite a d => Sys2Proof.Machine.execNsDenyWrite a d s
  | .keyLoad a ix d => Sys2Proof.Machine.execKeyLoad a ix d s
  | .keyClear a ix d => Sys2Proof.Machine.execKeyClear a ix d s
  | .keyDataWrite a ix k d => Sys2Proof.Machine.execKeyDataWrite a ix k d s
  | .rstAoRelease => Sys2Proof.Machine.execRstAoRelease s
  | .rstNAssert => Sys2Proof.Machine.execRstNAssert s
  | .rstNRelease str => Sys2Proof.Machine.execRstNRelease str s
  | .resetSequenceComplete => Sys2Proof.Machine.execResetSequenceComplete s
  | .tapReset => Sys2Proof.Machine.execTapReset s
  | .shellIsoChange v => Sys2Proof.Machine.execShellIsoChange v s
  | .testModeEntry => Sys2Proof.Machine.execTestModeEntry s
  | .dbgHalt v => Sys2Proof.Machine.execDbgHalt v s
  | .dbgStep => Sys2Proof.Machine.execDbgStep s
  | .illegalOpcode e w => Sys2Proof.Machine.execIllegalOpcode e w s
  | .instructionFetchFault e k => Sys2Proof.Machine.execInstructionFetchFault e k s
  | .rstAoAssert => Sys2Proof.Machine.execRstAoAssert s
  | .beatTransfer t => Sys2Proof.Machine.execBeatTransfer t s
  | .eqAdapted l => Sys2Proof.Machine.execEqAdapted l s
  | .faultSourceQuiet n => Sys2Proof.Machine.execFaultSourceQuiet n s
  | .wearHourTick e => Sys2Proof.Machine.execWearHourTick e s
  | .oppRaiseDelayExpiry sup => Sys2Proof.Machine.execOppRaiseDelayExpiry sup s
  | .restoreComplete dm bad => Sys2Proof.Machine.execRestoreComplete dm bad s
  | .cutComplete dm => Sys2Proof.Machine.execCutComplete dm s
  | .sbpStop => Sys2Proof.Machine.execSbpStop s

end Sys2Proof.Machine
end

