-- ==== Sys2Proof/Machine/Tick.lean ====
section
/-! DEFINITION. Tick: what one tick does when no command waits (R277, R281, R652; log entry 1). -/

namespace Sys2Proof.Machine

/-- The phase within the wedge one tick later: it stops at its greatest value (R285). -/
def phaseNext (t : Tbs) : BitVec 22 :=
  if t.lock = .unlocked ∨ t.lock = .acquiring then t.phase else if t.phase.toNat < 0x3FFFFE then t.phase + 1 else t.phase

/-- Engines that hold a channel. -/
def engsHolding (s : State) : Nat := (s.engs.filter (fun p => p.2.phase != .idle)).length

/-- Telemetry counters 31 to 33 count microseconds of engines and galleries while CORE is ON (Table 19-9). -/
def tmTime (s : State) : State :=
  let a := s.mst.tmAcc
  let x := a.1 + engsHolding s
  let y := a.2.1 + (128 * Straps.wings s.boot.straps - engsInService s)
  let z := a.2.2 + galsCordoned s
  let t := tmAdd 31 (x / ticksUs) (tmAdd 32 (y / ticksUs) (tmAdd 33 (z / ticksUs) s))
  { t with mst := { t.mst with tmAcc := (x % ticksUs, y % ticksUs, z % ticksUs) } }

/-- Tick time and the phase within the wedge advance while TBS is ON, which samples `tbi_spin_valid` (R277, R285, R493); otherwise PCM counts one ACLK period toward
its projection (R281). -/
def tickTime (s : State) : State :=
  if s.domOn 1 then spinTick { s with tbs := { s.tbs with time := s.tbs.time + 1, phase := phaseNext s.tbs } }
  else { s with pcm := { s.pcm with aclk := s.pcm.aclk + 1 } }

/-- The time of the Ledger writer goes on in the AO domain: a tick, or an ACLK period of 48,828.125 ticks (R281, R647). -/
def ledgerTime (s : State) : State :=
  if s.boot.rstAo then s else { s with ledger := { s.ledger with up := s.ledger.up + (if s.domOn 1 then 8 else 390625) } }

/-- In HANDSHAKE mode `rq_ack` falls once the line is sampled low (Table 8-2, R321). -/
def rqAcksFall (s : State) : State :=
  foldS (s.evc.rq.filter (fun p => p.2.ack && !p.2.req && fld (s.app (.rqCfg p.1)) 0 2 == 3))
    (fun p t => t.modRq p.1 (fun q => { q with ack := false })) s

/-- The grant watchdogs count (R399). -/
def wdogTicks (s : State) : State := foldS (s.arbs.map Prod.fst) wdogTick s

/-- One tick. -/
def tick (s : State) : State :=
  let u := ledgerTime s
  let t := wdogTicks (if s.coreOn then tmTime (tickTime u) else tickTime u)
  if coreUp s then rqAcksFall t else t

end Sys2Proof.Machine
end

