-- ==== Sys2Proof/Safety.lean ====
section
/-! DEFINITION. Safety: what every state of the machine must satisfy, in the terms the claims use. -/

namespace Sys2Proof.Machine

/-- A key slot as the cabinet may hold it: 64 bytes of key material while LOADED, with the halves of an XTS pair unequal
(R264), and no key material while EMPTY or LOST (R262, R266, R267). -/
def KeySlot.ok (k : KeySlot) : Bool :=
  if k.st = 1 then k.key.length == 64 && (!k.kind || k.key.take 32 != k.key.drop 32) else k.key.isEmpty

/-- Every slot of the cabinet is as R262 to R267 allow. -/
def keysOk (t : Tbl KeySlot) : Bool := t.all (fun p => p.2.ok)

/-- The state's bounded queues and its key cabinet are as the spec allows: the cabinet (R262 to R267), the Ledger writer's 16
records (R648), the 64 entries of HALT_Q (R327), and the 32 recoveries that wait for Docent (R561). -/
structure State.Sound (s : State) : Prop where
  keys : keysOk s.keys = true
  ledger : s.ledger.queue.length ≤ 16
  halts : s.evc.haltQ.length ≤ 64
  recoveries : s.doc.queue.length ≤ 32

/-- Register access is served: CORE answers on TP with its clock running, and test operation is not in force (R476, R475,
R491, R498). -/
def State.serves (s : State) : Bool :=
  !s.boot.tstMode && !s.boot.rstAo && !s.boot.shellIso && coreServes s && coreUp s

/-! ## Instructions in the terms of the claims -/

/-- Engine `e` executes the instruction of opcode `op` with word `w` now: test operation is not in force (R498), the engine runs a
channel and is neither paused nor stopped for debug (R418, R497), the instruction has begun (R133) or its word stands at pc in the
prefetch buffer (R130), no read of the engine has failed (R152), nothing holds the engine (R475, R534, R557), and the entry word of
the opcode is no EXC word (R519). -/
def State.runs (s : State) (e : EngId) (op : Nat) (w : IW) : Bool :=
  !s.boot.tstMode && canRun (s.eng e) && admits (s.eng e) op w && !engHeld s e && (entryExc s e op).isNone

/-- Engine `e` holds the instruction as decoded until it completes (R133). -/
def State.begins (s : State) (e : EngId) (op : Nat) (w : IW) : State := s.modEng e (fun x => { x with busy := some (op, w) })

/-- What an arithmetic instruction yields at its width: the result, C and V where it defines them, and whether it divided
by zero. -/
structure Result (n : Nat) where
  r : BitVec n
  c : Option Bool := none
  v : Option Bool := none
  dz : Bool := false

/-- The psr after an arithmetic instruction: Z and N from the result, C and V where defined, sticky OV with V and sticky DZ
(Table 3-5). -/
def Result.psr {n : Nat} (o : Result n) (p : Word) : Word :=
  let p1 := psrSet (psrSet p 0 (o.r == 0)) 1 o.r.msb
  let p2 := match o.c with | some c => psrSet p1 2 c | none => p1
  let p3 := match o.v with
    | some true => psrSet (psrSet p2 3 true) 5 true
    | some false => psrSet p2 3 false
    | none => p2
  if o.dz then psrSet p3 4 true else p3

/-- The cause of the trap taken instead: DIVZERO with TE_DZ, OVERFLOW with TE_OV (R129). -/
def Result.trap {n : Nat} (o : Result n) (p : Word) : Option Nat :=
  if o.dz && bit p 8 then some 0x08 else if o.v.getD false && bit p 9 then some 0x09 else none

/-- The engine after an instruction that writes `v` to register `rd` and `p` to psr, and retires to the next
instruction. -/
def Engine.wrote (x : Engine) (rd : BitVec 5) (v : DWord) (p : Word) : Engine :=
  { (x.setRg rd v) with psr := p }.retire

/-- Instruction `i` of opcode `op` computes `f` of its operands ra, the second operand and rd at the operation's width: a
32-bit result is sign-extended (R105); a trap is taken in place of the effect (R129); a failed field check, or an image that does not
provide what the instruction needs, raises ILLEGAL (R104, R522). Nothing but engine `e` changes. -/
def computes (i : EngId → IW → Instr) (op : Nat) (ok : IW → Bool) (f : IW → (n : Nat) → BitVec n → BitVec n → BitVec n → Result n) :
    Prop :=
  ∀ (e : EngId) (w : IW) (s : State), s.runs e op w = true →
    let x := s.eng e
    let good := ok w && imgGives s e (opFeat op) (opMinor op w)
    let o32 := f w 32 ((x.rg w.ra).setWidth 32) ((opB x w).setWidth 32) ((x.rg w.rd).setWidth 32)
    let o64 := f w 64 (x.rg w.ra) (opB x w) (x.rg w.rd)
    (good = false → exec (i e w) s = .next (illegal e op w s)) ∧
    (good = true → formW w = true →
      (o32.trap x.psr = none → exec (i e w) s = .next (s.setEng e (x.wrote w.rd (o32.r.signExtend 64) (o32.psr x.psr)))) ∧
      (∀ c, o32.trap x.psr = some c → exec (i e w) s = .next (excAt e c 0 0 none s))) ∧
    (good = true → formW w = false →
      (o64.trap x.psr = none → exec (i e w) s = .next (s.setEng e (x.wrote w.rd o64.r (o64.psr x.psr)))) ∧
      (∀ c, o64.trap x.psr = some c → exec (i e w) s = .next (excAt e c 0 0 none s)))

/-- Instruction `i` of opcode `op` has the effect `f` on the machine; a failed field check, or an image that does not provide
what the instruction needs, raises ILLEGAL (R104, R522). -/
def does (i : EngId → IW → Instr) (op : Nat) (ok : IW → Bool) (f : EngId → IW → State → State) : Prop :=
  ∀ (e : EngId) (w : IW) (s : State), s.runs e op w = true →
    let good := ok w && imgGives s e (opFeat op) (opMinor op w)
    (good = false → exec (i e w) s = .next (illegal e op w s)) ∧ (good = true → exec (i e w) s = .next (f e w s))

/-! ## Register accesses in the terms of the claims -/

/-- CORE serves an access to register `r`, and steps 1 to 5 of Table 20-2 let it pass: a whole, naturally aligned word, not
refused by the security rules, of a register whose domain is ON. The address and the rules of the owning chapter are apart. -/
def State.takes (s : State) (a : TpAttr) (wr : Bool) (r : Reg) : Prop :=
  s.serves = true ∧ a.low = 0 ∧ a.len = 0 ∧ a.nbytes = 4 ∧ (wr = true → a.be = 15) ∧ secDenied s a.sec wr r = false ∧
    domainOff s r = none

/-- The RSP beat of an access: the access's ID, KIND READ_DATA or WRITE_RESP, a code, and data where it is a read (Table 12-5). -/
def rspBeat (a : TpAttr) (wr : Bool) (code : BitVec 3) (w : Word) : Resp :=
  { code := code, data := if wr then 0 else w, id := a.id, kind := if wr then 1 else 0 }

/-- A write is answered OKAY and leaves `t`; a posted one has no answer (R436, R443). -/
def wrote (a : TpAttr) (t : State) : Host.Outcome State Fault Refusal :=
  .next { t with resp := if a.posted then none else some (rspBeat a true okay 0) }

/-- A read is answered OKAY with `w` and leaves `t`. -/
def gave (a : TpAttr) (w : Word) (t : State) : Host.Outcome State Fault Refusal := .next { t with resp := some (rspBeat a false okay w) }

/-- A write at `addr` is refused with a code; a posted one is discarded and counted instead (R443, R637). -/
def denied (a : TpAttr) (addr : Nat) (code : BitVec 3) (s : State) : Host.Outcome State Fault Refusal :=
  .next (if a.posted then { discarded (BitVec.ofNat 20 addr).toNat s with resp := none }
    else { s with resp := some (rspBeat a true code 0) })

end Sys2Proof.Machine
end

