-- ==== Sys2Proof/WellFormed.lean ====
section
/-! DEFINITION. WellFormed: the operands that a row of the table admits, where the operand's type allows more. An ill-formed
command still has a meaning; no rule of the spec is about it. -/

namespace Sys2Proof

open Sys2Proof.Machine

/-- The register at an address of the TP window of a full die (R655). -/
def regAt (addr : BitVec 20) : Option Reg := decodeReg 4 addr.toNat

/-- The address of a _LO register, or of a _LO word of a Catalogue window (R657). -/
def isLoHalf (addr : BitVec 20) : Bool :=
  match regAt addr with
  | some (.catWin _ o) => ctxWide o && o % 8 == 0
  | some r => (match r.pair with | some (_, _, hi) => !hi | none => false)
  | none => false

/-- The address of a register with RC fields (R15, R658). -/
def isRcField (addr : BitVec 20) : Bool :=
  match regAt addr with
  | some .tpStat | some .aoDisc | some .dbgCfg | some .lgStat | some .starveLog | some (.evoMrg _) | some (.keyStat _)
  | some (.srcCnt _) | some .docLast | some .scrubStat | some (.portStat _) | some (.arbStat _) | some (.slErrCnt _)
  | some (.csInfo _ _) | some .haltQ | some (.stqHdr _) => true
  | some (.doorbell _ k) => k == 2
  | _ => false

/-- The address of an RWS register (R500). -/
def isStaged (addr : BitVec 20) : Bool :=
  match regAt addr with
  | some r => r.stagedSet.isSome
  | none => false

/-- The address of a doorbell block: its words have rows of their own (Table 2-11b). -/
def isDoorbell (addr : BitVec 20) : Bool :=
  match regAt addr with
  | some (.doorbell _ k) => k != 3
  | _ => false

/-- A context offset that holds a ring's base, its size or port (R46, Table 2-1). -/
def isRingWord (off : BitVec 8) : Bool := [0x08, 0x0C, 0x10, 0x14, 0x20].contains off.toNat

/-- An arbiter that the die has (Table 10-2). -/
def ArbId.wf : ArbId → Bool
  | .gal _ => true
  | .wing _ => true
  | .port p => instOk p.toNat

/-- A received frame carries the payload its header declares (Table 9-3). -/
def Frame.wf (f : Frame) : Bool := f.payload.length == 8 * f.len.toNat

/-- A wake source that names a source and a domain it wakes (Table 18-7). -/
def wakeSrcWf (src : BitVec 4) : Bool := 1 ≤ src.toNat && src.toNat ≤ 10

/-- The operands are those the row admits. -/
def Instr.wf : Instr → Bool
  | .illegalOpcode e w => (decodeInsn e w).isNone
  | .ringConfigWrite _ _ off _ => isRingWord off
  | .loHalfRead _ ad => isLoHalf ad
  | .rcFieldRead _ ad => isRcField ad
  | .stagingWrite _ ad _ => isStaged ad
  | .registerWrite _ ad _ => !isStaged ad && !isDoorbell ad
  | .arbiterGrantPoint a => a.wf
  | .grantWatchdogBite a => a.wf
  | .streamData _ f => f.wf
  | .streamStatus _ f => f.wf
  | .mark _ f => f.wf
  | .ack _ f => f.wf
  | .credit _ f => f.wf
  | .cap _ f => f.wf
  | .wakeStart _ src _ => wakeSrcWf src
  | .scrubAccess arr idx _ => decide (idx < scrubWords arr)
  | .bCond .. | .dbnz .. | .call .. | .jr .. | .callr .. | .ret .. | .trap .. | .eret .. | .syncI .. | .fence ..
  | .fenceG .. | .sdef .. | .sseek .. | .spos .. | .move .. | .movex .. | .funnel .. | .fill .. | .captRead ..
  | .captWrite .. | .notify .. | .waitTime .. | .waitAngle .. | .waitDelay .. | .waitEvent .. | .yield .. | .ckpt ..
  | .done .. | .add .. | .sub .. | .and_ .. | .or_ .. | .xor_ .. | .neg .. | .cmp .. | .tst .. | .li .. | .sll ..
  | .srl .. | .sra .. | .rot .. | .muls .. | .mulu .. | .mulhs .. | .mulhu .. | .divs .. | .divu .. | .rems ..
  | .remu .. | .ext .. | .exts .. | .ins .. | .clz .. | .ctz .. | .popc .. | .bswap .. | .ld .. | .st .. | .ldv ..
  | .tcld .. | .signal .. | .evtst .. | .tnow .. | .anow .. | .a2t .. | .t2a .. | .aadd .. | .xset .. | .xfold ..
  | .xget .. | .xrst .. | .emit .. | .patch .. | .rdsr .. | .wrsr .. | .unhandledExceptionEnd ..
  | .residueForcedFlush .. | .ckptByteIntervalExpiry .. | .ckptTimeIntervalExpiry .. | .checkpointCommit ..
  | .dispatchDecision .. | .wrTailWrite .. | .ntHeadWrite .. | .invalidate .. | .pause .. | .stop .. | .abort ..
  | .kill .. | .resume .. | .pauseStopPoint .. | .abortStopPoint .. | .killStopPoint .. | .stopWorkOrderBoundary ..
  | .chAllocate .. | .chFree .. | .chEnable .. | .chDisable .. | .catSelWrite .. | .chCkPcRead .. | .entryFetch ..
  | .entryFetchComplete .. | .entryMalformed .. | .markerEntry .. | .barrierComplete .. | .effectRelease ..
  | .resultPublication .. | .ringError .. | .poolLoad | .anchorFire .. | .scCtrlWrite .. | .wedgeStrobe ..
  | .indexWithoutStrobe | .toleranceWindowExpiry | .spinValidChange .. | .synthStrobe | .epochTimeN | .epochStrobe ..
  | .delayParityError .. | .delayRegisterLost .. | .delayRegisterReload .. | .comparatorDisagreement ..
  | .slowCheckReevaluation .. | .slowCheckSweep | .requestLineChange .. | .holdoffExpiry .. | .aoRequestLatch ..
  | .swRaise .. | .subWrite .. | .haltQRead .. | .evoPulseEnd .. | .irqCoalTimeout .. | .irqPendClear ..
  | .linkEnable .. | .linkDisable .. | .retrain .. | .blockLockAcquired .. | .blockLockLost .. | .ts .. | .lsw ..
  | .trainTimeout .. | .configTimeout .. | .recoveryTimeout .. | .linkReplayTimeout .. | .ackFrameSend ..
  | .rxFlush .. | .rxCfgWrite .. | .stqHdrRead .. | .readResponse .. | .writeResponse .. | .retryReissue ..
  | .snpShared .. | .snpInvalid .. | .evictAck .. | .wbAck .. | .coherentReissue .. | .attendantAccess ..
  | .tpHandshakeViolation .. | .commit .. | .cancel .. | .revert .. | .commitCheckDone | .commitBoundary
  | .commitExpiry | .clampLogClear .. | .loadGo .. | .loadCancel .. | .loadVerifyDone .. | .loadWriteDone ..
  | .bankSwap .. | .bankReload .. | .svnMinWrite .. | .faultAssertion .. | .railFault .. | .stuckSourceClear ..
  | .engineFault .. | .replayReady .. | .fltPulseEnd | .fltRelease .. | .faultQuietEnd | .injectionGo ..
  | .injectionSeen | .testStart .. | .testVerdict .. | .testLimitExpiry .. | .docTest .. | .docRetire ..
  | .docRotate .. | .rotationDue .. | .rotationStart .. | .rotationSwap .. | .rotationAbandon ..
  | .periodicSpareTest .. | .periodicComparatorTest .. | .periodicAesTest .. | .interpolatorCalibration
  | .linkCalibration .. | .atclkCalibration | .sensorSample .. | .ageingSample .. | .idleDlyExpiry ..
  | .domainDrainComplete .. | .entryAbandon .. | .wakeRailDone .. | .wakeClockDone .. | .wakeSettleDone ..
  | .domCtrlWrite .. | .holdRelease .. | .alarmFire | .oppClockRestart .. | .pmiAck .. | .pmiAckTimeout ..
  | .sbpAddressMatch | .sbpStretchTimeout | .sbpIdleTimeout | .info | .addr .. | .rd | .wr .. | .wrResp | .lgHead
  | .lgSeq .. | .lgRead | .tmIdx .. | .tmRead | .lgDataRead .. | .lgSwCodeWrite .. | .lgClear .. | .lgSeedOptWrite ..
  | .lgSeedPwrWrite .. | .ledgerRecordWrite | .ledgerWindowClose .. | .opTimeTick | .tmTake .. | .engStatTake ..
  | .nsDenyWrite .. | .keyLoad .. | .keyClear .. | .keyDataWrite .. | .rstAoRelease | .rstNAssert | .rstNRelease ..
  | .resetSequenceComplete | .tapReset | .shellIsoChange .. | .testModeEntry | .dbgHalt .. | .dbgStep
  | .instructionFetchFault .. | .rstAoAssert | .beatTransfer .. | .eqAdapted .. | .faultSourceQuiet ..
  | .wearHourTick .. | .oppRaiseDelayExpiry .. | .restoreComplete .. | .cutComplete .. | .sbpStop => true

end Sys2Proof
end

