-- ==== Sys2Proof/Certificates/Slice0/Obligations.lean ====
section
/-! DEFINITION. Obligations: the statements about the machine that the provers answer for. -/

open Sys2Proof Sys2Proof.Machine

/-- ADD, SUB, NEG and CMP (R194, R129): the sum or difference modulo 2^n; C the carry out or the borrow; V the signed
overflow. CMP's rd is 0, so its result is discarded; NEG is 0 − ra. AND, OR, XOR and TST (Table 5-1): Z and N only; TST
discards its result. SLL, SRL, SRA and ROT (R195, Table 3-12): the count is the low 8 bits of the count operand, not reduced
by the width but for ROT; C is the last bit shifted out, 0 for a count of 0, and ROT leaves it. -/
def Obligations.ArithmeticResults : Prop :=
  (computes .add 0x30 (aluOk · true 0xFFFFFFFF) (fun _ _ a b _ => ⟨a + b, some (a.uaddOverflow b), some (a.saddOverflow b), false⟩) ∧
    computes .sub 0x31 (aluOk · true 0xFFFFFFFF) (fun _ _ a b _ => ⟨a - b, some (a.usubOverflow b), some (a.ssubOverflow b), false⟩) ∧
    computes .cmp 0x36 (aluOk · false 0xFFFFFFFF) (fun _ _ a b _ => ⟨a - b, some (a.usubOverflow b), some (a.ssubOverflow b), false⟩) ∧
    computes .neg 0x35 (fieldsOk · true true false false 0x20 0)
      (fun _ _ a _ _ => ⟨-a, some (BitVec.usubOverflow 0 a), some (BitVec.ssubOverflow 0 a), false⟩)) ∧
  (computes .and_ 0x32 (aluOk · true 0xFFFFFFFF) (fun _ _ a b _ => { r := a &&& b }) ∧
    computes .or_ 0x33 (aluOk · true 0xFFFFFFFF) (fun _ _ a b _ => { r := a ||| b }) ∧
    computes .xor_ 0x34 (aluOk · true 0xFFFFFFFF) (fun _ _ a b _ => { r := a ^^^ b }) ∧
    computes .tst 0x37 (aluOk · false 0xFFFFFFFF) (fun _ _ a b _ => { r := a &&& b })) ∧
  (computes .sll 0x40 (aluOk · true 0xFF) (fun _ n a b _ =>
      let k := b.toNat % 256
      { r := a <<< k, c := some (decide (1 ≤ k ∧ k ≤ n) && a.getLsbD (n - k)) }) ∧
    computes .srl 0x41 (aluOk · true 0xFF) (fun _ _ a b _ =>
      let k := b.toNat % 256
      { r := a >>> k, c := some (decide (1 ≤ k) && a.getLsbD (k - 1)) }) ∧
    computes .sra 0x42 (aluOk · true 0xFF) (fun _ n a b _ =>
      let k := b.toNat % 256
      { r := a.sshiftRight k, c := some (decide (1 ≤ k) && (if k ≤ n then a.getLsbD (k - 1) else a.msb)) }) ∧
    computes .rot 0x43 (aluOk · true 0xFF) (fun _ _ a b _ => { r := a.rotateRight (b.toNat % 256) }))

/-- MULS, MULU, MULHS and MULHU (R197, Table 5-3). DIVS, DIVU, REMS and REMU (R197, Table 3-12, Table 5-3): division truncates
toward zero; by zero the quotient is 0, the remainder the dividend, and DZ is set; the most negative value by −1 sets V. -/
def Obligations.MultiplyDivideResults : Prop :=
  (computes .muls 0x48 (aluOk · true 0xFFFFFFFF) (fun _ _ a b _ => { r := a * b, v := some (a.smulOverflow b) }) ∧
    computes .mulu 0x49 (aluOk · true 0xFFFFFFFF) (fun _ _ a b _ => { r := a * b, c := some (a.umulOverflow b) }) ∧
    computes .mulhs 0x4A (aluOk · true 0xFFFFFFFF)
      (fun _ n a b _ => { r := (a.signExtend (2 * n) * b.signExtend (2 * n)).extractLsb' n n }) ∧
    computes .mulhu 0x4B (aluOk · true 0xFFFFFFFF)
      (fun _ n a b _ => { r := (a.setWidth (2 * n) * b.setWidth (2 * n)).extractLsb' n n })) ∧
  (computes .divs 0x4C (aluOk · true 0xFFFFFFFF)
      (fun _ n a b _ => { r := a.sdiv b, v := some (decide (a = BitVec.intMin n ∧ b = -1)), dz := b == 0 }) ∧
    computes .divu 0x4D (aluOk · true 0xFFFFFFFF) (fun _ _ a b _ => { r := a / b, dz := b == 0 }) ∧
    computes .rems 0x4E (aluOk · true 0xFFFFFFFF)
      (fun _ n a b _ => { r := a.srem b, v := some (decide (a = BitVec.intMin n ∧ b = -1)), dz := b == 0 }) ∧
    computes .remu 0x4F (aluOk · true 0xFFFFFFFF) (fun _ _ a b _ => { r := a % b, dz := b == 0 }))

/-- EXT, EXTS and INS (R196): the field of WID bits at LSB, which must lie inside the operand; INS keeps rd's other bits. CLZ,
CTZ, POPC and BSWAP (R196, Table 5-2): counts at the operation's width; BSWAP reverses the low 8, 4 or 2 bytes of ra and
clears the rest, and mod[1:0] = 3 raises ILLEGAL. -/
def Obligations.BitResults : Prop :=
  (computes .ext 0x50 (fun w => fieldsOk w true true false false 0x20 0x3F3F && bfOk w)
      (fun w _ a _ _ => { r := (a.extractLsb' (bfLsb w) (bfWid w)).setWidth _ }) ∧
    computes .exts 0x51 (fun w => fieldsOk w true true false false 0x20 0x3F3F && bfOk w)
      (fun w _ a _ _ => { r := (a.extractLsb' (bfLsb w) (bfWid w)).signExtend _ }) ∧
    computes .ins 0x52 (fun w => fieldsOk w true true false false 0x20 0x3F3F && bfOk w)
      (fun w n a _ d =>
        let m := (BitVec.allOnes (bfWid w)).setWidth n
        { r := (d &&& ~~~(m <<< bfLsb w)) ||| ((a &&& m) <<< bfLsb w) })) ∧
  (computes .clz 0x53 (fieldsOk · true true false false 0x20 0) (fun _ _ a _ _ => { r := a.clz }) ∧
    computes .ctz 0x54 (fieldsOk · true true false false 0x20 0) (fun _ _ a _ _ => { r := a.ctz }) ∧
    computes .popc 0x55 (fieldsOk · true true false false 0x20 0) (fun _ _ a _ _ => { r := a.cpop }) ∧
    (∀ (e : EngId) (w : IW) (s : State), s.runs e 0x56 w = true →
      let x := s.eng e
      let k := 8 / 2 ^ fld w.md 0 2
      (fieldsOk w true true false false 0x03 0 = false ∨ fld w.md 0 2 = 3 → exec (.bswap e w) s = .next (illegal e 0x56 w s)) ∧
      (fieldsOk w true true false false 0x03 0 = true → fld w.md 0 2 ≠ 3 → ∃ v : DWord,
        (∀ i : Nat, v.extractLsb' (8 * i) 8 = if i < k then (x.rg w.ra).extractLsb' (8 * (k - 1 - i)) 8 else 0) ∧
        exec (.bswap e w) s = .next (s.setEng e (x.wrote w.rd v ({ r := v : Result 64 }.psr x.psr))))))

/-! ## Moves between registers, branches, exceptions and fences -/

/-- LI, RDSR and WRSR (Table 5-1, R233, Table 5-8): LI writes the sign-extended immediate, or with mod[0] the immediate above
the register's low word; RDSR reads a special register, and an unlisted code raises ILLEGAL; WRSR replaces exactly the psr
bits that a program may write. FENCE and FENCE.G (R181, R182): the instruction stalls, held as decoded (R133), while a data
write is unanswered, and FENCE.G also until every effect that the channel handed over is released; a failed write raises its
exception, imprecise, once; FENCE.G needs an image of minor version 1 (R522). -/
def Obligations.MovesAndFences : Prop :=
  (does .li 0x38 (fieldsOk · true false false false 0x01 0xFFFFFFFF) (fun e w s =>
      let x := s.eng e
      s.setEng e (x.wrote w.rd (if bit w.md 0 then w.imm ++ (x.rg w.rd).setWidth 32 else w.imm.signExtend 64) x.psr)) ∧
    does .rdsr 0x90 (fieldsOk · true false false false 0 0xFF) (fun e w s =>
      let x := s.eng e
      match specialReg s e w.imm.toNat with
      | some v => s.setEng e (x.wrote w.rd v x.psr)
      | none => illegal e 0x90 w s) ∧
    does .wrsr 0x91 (fun w => fieldsOk w false true false false 0 0xFF && w.imm == 0) (fun e w s =>
      let x := s.eng e
      s.setEng e { x with psr := (x.psr &&& 0xFFFFFCC0) ||| ((x.rg w.ra).setWidth 32 &&& 0x33F) }.retire)) ∧
  (∀ (g : Bool) (e : EngId) (w : IW) (s : State), s.runs e 0x0B w = true →
      let x := s.eng e
      let i : Instr := if g then .fenceG e w else .fence e w
      let good := fieldsOk w false false false false 0x01 0 && imgGives s e 0 (if g then 1 else fld w.md 0 1)
      let t := s.begins e 0x0B w
      (good = false → exec i s = .next (illegal e 0x0B w s)) ∧
      (good = true →
        (writesOpen s e = true → exec i s = .next t) ∧
        (∀ (tag : Nat) (code : BitVec 3) (addr : DWord), writesOpen s e = false → x.wErr = some (tag, code, addr) →
          exec i s = .next (takeExc e (busCause code) 1 x.pc addr none (t.modEng e (fun y => { y with wErr := none })))) ∧
        (writesOpen s e = false → x.wErr = none → g = true → (s.chan x.ch).rel ≠ [] → exec i s = .next t) ∧
        (writesOpen s e = false → x.wErr = none → g = false ∨ (s.chan x.ch).rel = [] →
          exec i s = .next (s.setEng e x.retire))))

/-- Branches (R184 to R187): relative targets are the instruction's offset plus eight times the signed immediate, and one outside
the 32-bit offsets is marked, so that its fetch raises PS_RANGE; register targets
are bits [31:3] and raise NULL_TARGET below 0x40; CALL and CALLR leave the return offset in g30; DBNZ branches while the
decremented register is not 0; SYNC.I refills the prefetch buffer. -/
def Obligations.Branches : Prop :=
  let jump := fun (y : Engine) (w : IW) (pc : BitVec 32) =>
    let t : Int := (pc.toNat : Int) + 8 * w.imm.toInt
    { y.goto (BitVec.ofInt 32 t) with pcOut := decide (t < 0 ∨ 2 ^ 32 ≤ t) }
  does .bCond 0x02 (fieldsOk · false false false false 0x0F 0xFFFFFFFF) (fun e w s =>
    let x := s.eng e
    match condHolds (w.md.toNat % 16) x.psr with
    | none => illegal e 0x02 w s
    | some true => s.setEng e (jump x w x.pc)
    | some false => s.setEng e x.retire) ∧
  does .dbnz 0x03 (fun w => fieldsOk w true false false false 0 0xFFFFFFFF && w.rd != 0) (fun e w s =>
    let x := s.eng e
    let y := x.setRg w.rd (x.rg w.rd - 1)
    s.setEng e (if x.rg w.rd = 1 then y.retire else jump y w x.pc)) ∧
  does .call 0x04 (fieldsOk · false false false false 0 0xFFFFFFFF) (fun e w s =>
    let x := s.eng e
    s.setEng e (jump (x.setRg 30 ((x.pc + 8).setWidth 64)) w x.pc)) ∧
  does .jr 0x05 (fieldsOk · false true false false 0 0) (fun e w s =>
    let x := s.eng e
    let v := (x.rg w.ra).setWidth 32 &&& 0xFFFFFFF8
    if v.toNat < 0x40 then excAt e 0x05 0 0 none s else s.setEng e (x.goto v)) ∧
  does .callr 0x06 (fieldsOk · false true false false 0 0) (fun e w s =>
    let x := s.eng e
    let v := (x.rg w.ra).setWidth 32 &&& 0xFFFFFFF8
    if v.toNat < 0x40 then excAt e 0x05 0 0 none s
    else s.setEng e ((x.setRg 30 ((x.pc + 8).setWidth 64)).goto v)) ∧
  does .ret 0x07 (fieldsOk · false false false false 0 0) (fun e _ s =>
    let x := s.eng e
    let v := (x.rg 30).setWidth 32 &&& 0xFFFFFFF8
    if v.toNat < 0x40 then excAt e 0x05 0 0 none s else s.setEng e (x.goto v)) ∧
  does .syncI 0x0A (fieldsOk · false false false false 0 0) (fun e _ s =>
    let x := s.eng e
    s.setEng e { x.retire with buf := [] })

/-- Taking an exception (R122, R123, R127, Table 3-10): the residue is written first; with a valid stack pointer the eight
words of the frame lie below it in the Alcove, and the handler is entered with EXL set, ECAUSE in g1 and EADDR in g2; with EXL
already set, or without a handler, the work order ends with the cause's status; with an invalid stack pointer the frame goes
to the Glovebox, unless that still holds one, and the work order ends with 0x2F. -/
def Obligations.ExceptionEntry : Prop :=
  ∀ (e : EngId) (cause : Nat) (info : Word) (epc : BitVec 32) (eaddr : DWord) (strm : Option (BitVec 3)) (s : State),
    let s1 := flush e s
    let x := s1.eng e
    let c := chanOf s1 e
    let sp := (x.rg 31).toNat
    let f : List DWord := [epc.setWidth 64, x.psr.setWidth 64, BitVec.ofNat 64 (cause + info.toNat * 2 ^ 32), eaddr, x.rg 1,
      x.rg 2, estrm x strm, 0]
    ∃ y : Engine, takeExc e cause info epc eaddr strm s = s1.setEng e y ∧
      y.cur = none ∧ y.busy = none ∧ y.reads = [] ∧ y.capturing = false ∧
      (spValid c (x.rg 31) = false →
        y.phase = .ending 0x2F ∧ y.g = x.g ∧ y.alc = x.alc ∧ y.psr = x.psr ∧ y.pc = x.pc ∧ y.gbValid = true ∧
        (x.gbValid = true → y.gb = x.gb ∧ y.gbOvf = true) ∧
        (x.gbValid = false → y.gb = f.take 7 ++ [x.rg 31] ∧ y.gbOvf = x.gbOvf ∧ y.gbCh = x.ch)) ∧
      (spValid c (x.rg 31) = true →
        (∀ k : Fin 8, ofLe (y.alcRead (sp - 64 + 8 * k) 8) = (f.getD k 0).toNat) ∧
        (∀ a : Nat, (a < sp - 64 ∨ sp ≤ a) → y.alcByte a = x.alcByte a) ∧
        (y.rg 31).toNat = sp - 64 ∧ (∀ r : BitVec 5, r ≠ 1 → r ≠ 2 → r ≠ 31 → y.rg r = x.rg r) ∧
        y.gb = x.gb ∧ y.gbValid = x.gbValid ∧ y.gbOvf = x.gbOvf ∧
        (psrExl x.psr = true ∨ c.handler = 0 →
          y.phase = .ending (causeStatus cause) ∧ y.rg 1 = x.rg 1 ∧ y.rg 2 = x.rg 2 ∧ y.psr = x.psr ∧ y.pc = x.pc) ∧
        (psrExl x.psr = false → c.handler ≠ 0 →
          y.phase = x.phase ∧ y.rg 1 = f.getD 2 0 ∧ y.rg 2 = eaddr ∧ y.psr = x.psr ||| 0x00010000 ∧ y.pc = c.handler))

/-- TRAP and ERET (R124, R125, R188): TRAP takes an exception whose EPC is the next instruction. ERET outside a handler, or
without a valid frame, raises ERET_INVALID; otherwise it restores g1, g2, the writable psr bits and the stack pointer from the
frame, clears EXL, and continues at EPC. That of EPSR only the fields come back that a program may write is the model's reading (log entry 30). -/
def Obligations.TrapAndEret : Prop :=
  does .trap 0x08 (fieldsOk · false false false false 0 0xFFFFFFFF) (fun e w s =>
    takeExc e 0x28 w.imm ((s.eng e).pc + 8) 0 none s) ∧
  does .eret 0x09 (fieldsOk · false false false false 0 0) (fun e _ s =>
    let x := s.eng e
    let sp := (x.rg 31).toNat
    let word := fun (o : Nat) => BitVec.ofNat 64 (ofLe (x.alcRead (sp + o) 8))
    let pc := (word 0).setWidth 32 &&& 0xFFFFFFF8
    if psrExl x.psr = false ∨ sp % 64 ≠ 0 ∨ sp < (chanOf s e).stkLo ∨ (chanOf s e).stkHi < sp + 64 then
      excAt e 0x06 ((x.rg 31).setWidth 32) 0 none s
    else if pc.toNat < 0x40 then excAt e 0x05 0 0 none s
    else s.setEng e
      { (((x.setRg 1 (word 0x20)).setRg 2 (word 0x28)).setRg 31 (x.rg 31 + 64)).goto pc with
        psr := (word 8).setWidth 32 &&& 0x33F })

/-- LD and ST (R108, R198): little-endian Alcove accesses of 1, 2, 4 or 8 bytes at ra + imm32: MISALIGNED, then ALCOVE_RANGE;
LD zero- or sign-extends; ST changes the bytes it names and no other. -/
def Obligations.AlcoveAccess : Prop :=
  ∀ (e : EngId) (w : IW) (s : State),
    let x := s.eng e
    let a := x.rg w.ra + w.imm.signExtend 64
    let n := 2 ^ (w.md.toNat % 4)
    let v := BitVec.ofNat (8 * n) (ofLe (x.alcRead a.toNat n))
    let bad := a.toNat % n ≠ 0 ∨ 0x2000 < a.toNat + n
    let exc := excAt e (if a.toNat % n ≠ 0 then 0x03 else 0x04) (a.setWidth 32) a none s
    (s.runs e 0x60 w = true →
      (fieldsOk w true true false false 0x07 0xFFFFFFFF = false → exec (.ld e w) s = .next (illegal e 0x60 w s)) ∧
      (fieldsOk w true true false false 0x07 0xFFFFFFFF = true →
        (bad → exec (.ld e w) s = .next exc) ∧
        (¬bad → exec (.ld e w) s =
          .next (s.setEng e (x.wrote w.rd (if bit w.md 2 then v.signExtend 64 else v.setWidth 64) x.psr))))) ∧
    (s.runs e 0x61 w = true → fieldsOk w false true true false 0x03 0xFFFFFFFF = false →
      exec (.st e w) s = .next (illegal e 0x61 w s)) ∧
    (s.runs e 0x61 w = true → fieldsOk w false true true false 0x03 0xFFFFFFFF = true →
      (bad → exec (.st e w) s = .next exc) ∧
      (¬bad → ∃ m : Tbl Byte, exec (.st e w) s = .next (s.setEng e { x with alc := m }.retire) ∧
        (∀ k, k < n → Tbl.get 0 m (a.toNat + k) = (x.rg w.rb).extractLsb' (8 * k) 8) ∧
        (∀ k, k < a.toNat ∨ a.toNat + n ≤ k → Tbl.get 0 m k = Tbl.get 0 x.alc k)))

/-- LDV and TCLD (R199 to R202, R273, R522): TCLD needs an image that provides templates; an LDV outside program space raises PS_RANGE; one whose line the agent holds reads its
1, 2, 4 or 8 bytes, zero-extended. TCLD of an offset that cannot hold a template counter raises TRANSFORM; otherwise it returns
the value this engine produced since its last commit, else the channel's own value not yet released (log entry 31), else the
counter in program space, where its line is held. -/
def Obligations.ProgramSpaceLoads : Prop :=
  ∀ (e : EngId) (w : IW) (s : State),
    let x := s.eng e
    let a := x.rg w.ra + w.imm.signExtend 64
    let n := 2 ^ (w.md.toNat % 4)
    let held := fun (off n op : Nat) (i : Instr) =>
      let p := (s.psBase + BitVec.ofNat 64 off).toNat
      s.vitFlush = false → (s.line (p / 64)).st ≠ .I → p % 64 + n ≤ 64 → 0 < n →
        exec i s = .next ((obtain_ (sliceOf s (e.g.toNat / 8)) (p / 64) (s.begins e op w)).modEng e (fun y =>
          y.wrote w.rd (BitVec.ofNat 64 (ofLe (slice (s.line (p / 64)).data (p % 64) n))) y.psr))
    (s.runs e 0x62 w = true → fieldsOk w true true false false 0x03 0xFFFFFFFF = false →
      exec (.ldv e w) s = .next (illegal e 0x62 w s)) ∧
    (s.runs e 0x62 w = true → fieldsOk w true true false false 0x03 0xFFFFFFFF = true →
      (a.toNat < 0x40 ∨ 2 ^ 32 ≤ a.toNat ∨ s.psSize ≤ a.toNat →
        exec (.ldv e w) s = .next (excAt e 0x02 0 ((a.setWidth 32).setWidth 64) none (s.begins e 0x62 w))) ∧
      (0x40 ≤ a.toNat → a.toNat < 2 ^ 32 → a.toNat < s.psSize → held (a.toNat / n * n) n 0x62 (.ldv e w))) ∧
    (s.runs e 0x63 w = true → (fieldsOk w true true false false 0 0xFFFFFFFF && imgGives s e 4 0) = false →
      exec (.tcld e w) s = .next (illegal e 0x63 w s)) ∧
    (s.runs e 0x63 w = true → fieldsOk w true true false false 0 0xFFFFFFFF = true → imgGives s e 4 0 = true →
      let o := a.toNat / 8 * 8
      (counterOk s o = false → exec (.tcld e w) s = .next (xformExc e 0x09 0 (s.begins e 0x63 w))) ∧
      (counterOk s o = true →
        (∀ v, Tbl.get none x.counters o = some v ∨
            (Tbl.get none x.counters o = none ∧ heldCounter o (s.chan x.ch).rel = some v) →
          exec (.tcld e w) s = .next (s.setEng e (x.wrote w.rd v x.psr))) ∧
        (Tbl.get none x.counters o = none → heldCounter o (s.chan x.ch).rel = none → held o 8 0x63 (.tcld e w))))

/-- SIGNAL and EVTST (R203 to R205, R329): SIGNAL on an event channel that the channel may not signal raises ILLEGAL; otherwise
it adds one held effect, after a checkpoint at the instruction when sixteen are held. EVTST writes the subscription's pending
and overrun bits, sets Z from them, and consumes nothing. -/
def Obligations.EventInstructions : Prop :=
  does .signal 0x24 (fieldsOk · false false false false 0 0xFF) (fun e w s =>
    let x := s.eng e
    let k := w.imm.toNat
    if maySignal s (chanOf s e) k = false then illegal e 0x24 w (s.begins e 0x24 w)
    else if x.effects.length < 16 then s.setEng e { x with effects := x.effects ++ [Release.signal (BitVec.ofNat 8 k)] }.retire
    else ckptAt e x.pc .go (s.begins e 0x24 w)) ∧
  does .evtst 0x25 (fieldsOk · true false false false 0 0xFF) (fun e w s =>
    let x := s.eng e
    let k := w.imm.toNat
    match subOf s x.ch k with
    | none => illegal e 0x25 w s
    | some j =>
      if admitted (s.chan x.ch) (s.app (.ecCtrl k)) = false then illegal e 0x25 w s
      else
        let v : DWord := (if (s.sub j).pend then 1 else 0) + (if (s.sub j).ovr then 2 else 0)
        s.setEng e (x.wrote w.rd v (psrSet x.psr 0 (v == 0))))

/-- TNOW, ANOW, A2T, T2A and AADD (R207 to R210, R292): TNOW leaves the flags; the others clear C, or set it and write the
all-ones word where there is no angle or the operand is none. AADD adds signed wedges modulo 2^32 revolutions and keeps the
phase. The instants of A2T and T2A are those of the prediction in force, which is linear (log entry 11). -/
def Obligations.TimeInstructions : Prop :=
  let timed := fun (e : EngId) (w : IW) (s : State) (v : Option DWord) =>
    let x := s.eng e
    s.setEng e (x.wrote w.rd (v.getD (BitVec.allOnes 64)) (psrSet x.psr 2 v.isNone))
  does .tnow 0x70 (fieldsOk · true false false false 0 0) (fun e w s =>
    s.setEng e ((s.eng e).wrote w.rd s.now (s.eng e).psr)) ∧
  does .anow 0x71 (fieldsOk · true false false false 0 0) (fun e w s =>
    timed e w s (if noAngle s then none else some (angNow s))) ∧
  does .a2t 0x72 (fieldsOk · true true false false 0 0) (fun e w s =>
    let a := (s.eng e).rg w.ra
    timed e w s (if noAngle s = true ∨ angValid s a = false then none else some (BitVec.ofInt 64 (angInstant s a)))) ∧
  does .t2a 0x73 (fieldsOk · true true false false 0 0) (fun e w s =>
    timed e w s (if noAngle s then none else some (angAt s (((s.eng e).rg w.ra).toNat : Int)))) ∧
  does .aadd 0x74 (fieldsOk · true true false false 0 0xFFFFFFFF) (fun e w s =>
    let a := (s.eng e).rg w.ra
    timed e w s (if a = BitVec.allOnes 64 ∨ s.wpr ≤ angWedge a then none else
      let n : Int := (angRev a * s.wpr + angWedge a : Nat) + w.imm.toInt
      some (angWord ((n / s.wpr) % 2 ^ 32).toNat (n % s.wpr).toNat (angPhase a))))

/-! ## Engine happenings and checkpoints -/

/-- Fetching, its exceptions and those of decoding, and the end of an unhandled exception (R103, R104, R130, R131, R132, R184, R674): an
instruction that the prefetch buffer does not hold is read from the Vitrine, whose slice gives the buffer the word at pc and at most
15 after it, or, where the agent does not hold the line, issues its fill; a word at pc whose opcode no instruction has raises ILLEGAL with the word's upper half as INFO; an offset, or a branch target, outside program space raises PS_RANGE and a failed fetch its bus cause
with INFO 2; a work order ending on an exception completes with its status once its writes are answered, its effects handed
over first. -/
def Obligations.EngineExceptions : Prop :=
  ∀ (e : EngId) (s : State), s.boot.tstMode = false →
    let x := s.eng e
    (∀ w : BitVec 64, canRun x = true → x.busy = none → x.pcOut = false → engHeld s e = false → failedRead x = none → fetched x = some w →
      decodeInsn e w = none → exec (.illegalOpcode e w) s = .next (excAt e 0x01 (w.extractLsb' 32 32) 0 none s)) ∧
    (∀ w : BitVec 64, canRun x = true → x.busy = none → engHeld s e = false → failedRead x = none →
      let t := fetch e s
      (fetched (t.eng e) = some w → (t.eng e).pcOut = false → decodeInsn e w = none →
        exec (.illegalOpcode e w) s = .next (excAt e 0x01 (w.extractLsb' 32 32) 0 none t)) ∧
      (fetched (t.eng e) ≠ some w ∨ decodeInsn e w ≠ none → exec (.illegalOpcode e w) s = .next t)) ∧
    (fetched x ≠ none → fetch e s = s) ∧
    (x.busy = none → x.pcOut = false → 0x40 ≤ x.pc.toNat → x.pc.toNat < s.psSize → fetched x = none → s.vitFlush = false →
      (∀ r ∈ x.reads, r.what = 5 → r.err = none) →
      let p := (s.psBase + x.pc.setWidth 64).toNat
      let l := s.line (p / 64)
      let k := sliceOf s (e.g.toNat / 8)
      p % 64 ≤ 56 →
      (l.st ≠ .I → inSlice l k = true → ∃ b : List (BitVec 32 × DWord),
        fetch e s = (s.draw).2.modEng e (fun y => { y with buf := b }) ∧ b.length ≤ 16 ∧
          b.head? = some (x.pc, BitVec.ofNat 64 (ofLe (slice l.data (p % 64) 8)))) ∧
      (l.st = .I → lineBusy s (p / 64) = false → (∀ r ∈ x.reads, r.what ≠ 5) →
        fetch e s = issue (cohTxn s (BitVec.ofNat 2 k) 2 (p / 64) [] (.fill (BitVec.ofNat 2 k)))
          (s.modEng e (fun y => { y with reads := y.reads ++ [{ what := 5, addr := s.psBase + x.pc.setWidth 64, n := 64 }] })))) ∧
    (canRun x = true → x.busy = none → engHeld s e = false → x.pcOut = true ∨ x.pc.toNat < 0x40 ∨ s.psSize ≤ x.pc.toNat →
      exec (.instructionFetchFault e .range) s = .next (excAt e 0x02 0 (x.pc.setWidth 64) none s)) ∧
    (∀ code : BitVec 3, canRun x = true → x.busy = none → engHeld s e = false → x.pcOut = false → 0x40 ≤ x.pc.toNat → x.pc.toNat < s.psSize →
      (∃ r ∈ x.reads, r.what = 5 ∧ r.err = some code) →
      exec (.instructionFetchFault e (.bus code)) s =
        .next (excAt e (match code.toNat with | 2 => 0x19 | 3 => 0x1A | 4 => 0x1B | _ => 0x18) 2
          (s.psBase + x.pc.setWidth 64) none s)) ∧
    (∀ status : Byte, x.phase = .ending status →
      exec (.unhandledExceptionEnd e) s = .next (if writesOpen s e then s else
        endOrder e status x.acked (s.modChan x.ch (fun c => { c with rel := c.rel ++ x.effects }))))

/-- Checkpoints that fall due (R111, R112, R168, Table 3-7): the byte and time intervals, where they are not 0, mark a running
engine's checkpoint due, and keep an earlier mark; a residue held since the checkpoint fell due for CKPT_TIME is
written at the burst boundary at which the instruction stands, where no read of it is outstanding but the map entries of a MOVEX. A
checkpoint commits (R112, R113, R214): once every data write is answered, and none failed, the checkpoint area holds the
engine's pc, psr, count registers g1 to g4, cursors and bytes, with CK_SEQ one higher; the held effects are handed over to the
hub in order after the record entries; and both intervals start again. A failed write raises its exception instead. -/
def Obligations.Checkpoints : Prop :=
  (∀ (e : EngId) (s : State), s.boot.tstMode = false →
      let x := s.eng e
      let c := s.chan x.ch
      let due := s.setEng e { x with due := some (x.due.getD s.now) }
      (x.phase = .run → 0 < c.ckBytes → c.ckBytes ≤ x.bytesSince → exec (.ckptByteIntervalExpiry e) s = .next due) ∧
      (x.phase = .run → 0 < c.ckTicks → c.ckTicks ≤ (s.now - x.ckAt).toNat → exec (.ckptTimeIntervalExpiry e) s = .next due) ∧
      (∀ t : DWord, canRun x = true → engHeld s e = false → x.cur ≠ none → (∀ r ∈ x.reads, r.what = 4) → x.due = some t → x.residue ≠ none →
        c.ckTicks ≤ (s.now - t).toNat → exec (.residueForcedFlush e) s = .next
          (let u := flush e s
           if (x.cur.map Cur.elig).getD false then u.modEng e (fun y => { y with phase := .commit x.pc .go, dbgStep := false })
           else u))) ∧
  (∀ (e : EngId) (pc : BitVec 32) (k : AfterCk) (s : State), s.boot.tstMode = false → (s.eng e).phase = .commit pc k →
      let x := s.eng e
      (writesOpen s e = true → exec (.checkpointCommit e) s = .next s) ∧
      (writesOpen s e = false → x.wErr ≠ none → exec (.checkpointCommit e) s = .next (raiseImprecise e s)) ∧
      (writesOpen s e = false → x.wErr = none →
        ∃ u : State, exec (.checkpointCommit e) s = .next (afterCommit e pc k u) ∧
          (u.chan x.ch).ck.pc = pc ∧ (u.chan x.ch).ck.psr = x.psr ∧ (u.chan x.ch).ck.seq = x.ckSeq + 1 ∧
          (u.chan x.ch).ck.bytes = BitVec.ofNat 48 x.acked ∧ (u.chan x.ch).ck.s = x.s ∧
          (∀ r : Nat, 1 ≤ r → r ≤ 4 → Tbl.get 0 (u.chan x.ch).ck.g r = Tbl.get 0 x.g r) ∧
          (u.chan x.ch).rel = (s.chan x.ch).rel ++ xrecEffects s x ++ x.effects ∧ (u.chan x.ch).replays = 0 ∧
          (u.eng e).effects = [] ∧ (u.eng e).counters = [] ∧ (u.eng e).ckSeq = x.ckSeq + 1 ∧ (u.eng e).bytesSince = 0 ∧
          (u.eng e).ckAt = s.now ∧ (u.eng e).due = none ∧ (u.eng e).committed = true ∧ (u.eng e).g = x.g ∧ (u.eng e).pc = x.pc ∧
          (∀ f : EngId, f ≠ e → u.eng f = s.eng f) ∧ (∀ n : BitVec 12, n ≠ x.ch → u.chan n = s.chan n)))

/-- NOTIFY, YIELD, CKPT and DONE (R65, R66, R173 to R175, R180): NOTIFY reserves a notice slot and adds a PROGRAM notice of ra
and rb as one held effect; without a free slot it takes a checkpoint at itself and waits for one; with sixteen effects held it
takes a checkpoint at itself first. The others take a checkpoint after themselves, the residue written first. -/
def Obligations.CheckpointInstructions : Prop :=
  let ck := fun (e : EngId) (pc : BitVec 32) (k : AfterCk) (s : State) =>
    (flush e s).modEng e (fun x => { x with phase := .commit pc k, dbgStep := false })
  does .notify 0x19 (fieldsOk · false true true false 0 0) (fun e w s =>
    let x := s.eng e
    if (s.chan x.ch).slotFree = false then ck e x.pc .space (s.begins e 0x19 w)
    else if 16 ≤ x.effects.length then ck e x.pc .go (s.begins e 0x19 w)
    else (s.modChan x.ch (fun c => { c with reserved := c.reserved + 1 })).setEng e
      { x with effects := x.effects ++ [Release.notice 1 0 (toLe 8 (x.rg w.ra).toNat ++ toLe 8 (x.rg w.rb).toNat)] }.retire) ∧
  does .yield 0x21 (fieldsOk · false false false false 0 0) (fun e _ s => ck e ((s.eng e).pc + 8) .yield s) ∧
  does .ckpt 0x22 (fieldsOk · false false false false 0 0) (fun e _ s => ck e ((s.eng e).pc + 8) .go s) ∧
  does .done 0x23 (fieldsOk · false false false false 0 0) (fun e _ s => ck e ((s.eng e).pc + 8) .done s)

/-- WAIT (R176, R177, R206, R297 to R302): WAIT TIME and WAIT ANGLE judge their anchor by the late policy and count the
outcome; WAIT DELAY waits until now + ra; WAIT EVENT on an event channel to which the channel may not subscribe raises ILLEGAL.
The condition is placed in the wait area, and a checkpoint after the instruction begins, the residue written first. WAIT ANGLE
needs an image that provides angles (R522); that now + ra of DELAY is modulo 2^64 is the model's choice (log entry 63). -/
def Obligations.WaitInstructions : Prop :=
  let anchor := fun (ang : Bool) (e : EngId) (w : IW) (s : State) =>
    let v := (s.eng e).rg w.ra
    let pol := BitVec.ofNat 2 (w.md.toNat / 4)
    let j := judge s v ang pol
    let sch := schedAfter s j v ang pol (if ang then 3 else 2) 0 0
    let t := judgeCount j (s.begins e 0x20 w)
    match j with
      | .armed _ _ l => waitWith e sch l .wait t
      | .held => waitWith e sch false .wait t
      | .fired => waitWith e sch true .wait t
      | .drop => waitWith e sch false .drop t
      | .trap info => waitWith e sch false (.trap info) t
  does .waitTime 0x20 (fieldsOk · false true false false 0x0F 0) (anchor false) ∧
  (∀ (e : EngId) (w : IW) (s : State), s.runs e 0x20 w = true →
    let good := fieldsOk w false true false false 0x0F 0 && imgGives s e 16 0
    (good = false → exec (.waitAngle e w) s = .next (illegal e 0x20 w s)) ∧
    (good = true → exec (.waitAngle e w) s = .next (anchor true e w s))) ∧
  does .waitDelay 0x20 (fieldsOk · false true false false 0x03 0) (fun e w s =>
    waitWith e { anchor := s.now + (s.eng e).rg w.ra, armed := true, kind := 4 } false .wait (s.begins e 0x20 w)) ∧
  does .waitEvent 0x20 (fieldsOk · false true false false 0x03 0xFF) (fun e w s =>
    if maySubscribe s (s.eng e).ch w.imm.toNat = false then illegal e 0x20 w (s.begins e 0x20 w)
    else waitWith e { kind := 5, ec := BitVec.ofNat 8 w.imm.toNat } false .wait (s.begins e 0x20 w)) ∧
  (∀ (e : EngId) (sch : Sched) (late : Bool) (k : AfterCk) (s : State), (s.eng e).residue = none →
    waitWith e sch late k s = (s.modChan (s.eng e).ch (fun c => { c with sched := sch })).setEng e
      { s.eng e with late := (s.eng e).late || late, phase := .commit ((s.eng e).pc + 8) k, dbgStep := false })

/-! ## Streams and transforms -/

/-- SDEF, SSEEK and SPOS (R157 to R159) where no residue is held and the descriptor bytes are at hand: SDEF of 0 undefines the
stream, of a bad offset raises DESC_INVALID; SSEEK sets the position of a defined stream up to its length, else STREAM_END, and
a link stream raises DESC_INVALID; SPOS reads the position, or with mod[0] the length. Each stream touches its own cursor
only; on a list stream SSEEK to 0 begins the walk at the head again when it moves back (R158), and a head that is not aligned
raises DESC_INVALID. While it executes, the instruction is held as decoded (R133). -/
def Obligations.StreamCursors : Prop :=
  ∀ (e : EngId) (w : IW) (s : State), (s.eng e).residue = none →
    let x := s.eng e
    let cur := Tbl.get {} x.s w.ss.toNat
    let b := Tbl.get [] x.sd w.ss.toNat
    let d := decDesc b
    let o := w.imm.toNat
    (s.runs e 0x10 w = true → fieldsOk w false false false true 0 0xFFFFFFFF = false →
      exec (.sdef e w) s = .next (illegal e 0x10 w s)) ∧
    (s.runs e 0x10 w = true → fieldsOk w false false false true 0 0xFFFFFFFF = true →
      let t := s.begins e 0x10 w
      (o = 0 → exec (.sdef e w) s = .next (s.setEng e
        { x with s := Tbl.put {} x.s w.ss.toNat {}, sd := Tbl.put [] x.sd w.ss.toNat [],
                 walk := Tbl.put {} x.walk w.ss.toNat {} }.retire)) ∧
      (o ≠ 0 → (o % 32 ≠ 0 ∨ o < 0x40 ∨ 2 ^ 29 ≤ o ∨ s.psSize ≤ o) →
        exec (.sdef e w) s = .next (excAt e 0x13 w.imm 0 (some w.ss) t)) ∧
      (∀ (c : List Byte) (u : State), o % 32 = 0 → 0x40 ≤ o → o < 2 ^ 29 → o < s.psSize → psRead e 2 o 32 t = .ok c u →
        exec (.sdef e w) s = .next (if descOkFor u e c then leavePath e (u.modEng e (fun y =>
            { y with s := Tbl.put {} y.s w.ss.toNat { desc := BitVec.ofNat 24 (o / 32), pos := 0 },
                     sd := Tbl.put [] y.sd w.ss.toNat c, walk := Tbl.put {} y.walk w.ss.toNat {} }.retire))
          else excAt e 0x13 w.imm 0 (some w.ss) u))) ∧
    (s.runs e 0x11 w = true → fieldsOk w false true false true 0 0 = false →
      exec (.sseek e w) s = .next (illegal e 0x11 w s)) ∧
    (s.runs e 0x11 w = true → fieldsOk w false true false true 0 0 = true →
      let t := s.begins e 0x11 w
      (cur.desc = 0 → exec (.sseek e w) s = .next (strmExc e 0x10 w.ss t)) ∧
      (cur.desc ≠ 0 → b ≠ [] →
        let p := (x.rg w.ra).toNat
        (d.sl = true → exec (.sseek e w) s = .next (descExc e w.ss t)) ∧
        (d.sl = false → 2 ^ 40 ≤ p ∨ d.lenOf x < p → exec (.sseek e w) s = .next (strmExc e 0x11 w.ss t)) ∧
        (d.sl = false → d.kind = 3 → p < 2 ^ 40 → p ≤ d.lenOf x → (d.baseOf x).toNat % 16 ≠ 0 →
          exec (.sseek e w) s = .next (descExc e w.ss t)) ∧
        (d.sl = false → d.kind ≠ 3 → p < 2 ^ 40 → p ≤ d.lenOf x → exec (.sseek e w) s = .next (s.setEng e
          { x with cur := none, s := Tbl.put {} x.s w.ss.toNat { cur with pos := BitVec.ofNat 40 p } }.retire)) ∧
        (d.sl = false → d.kind = 3 → p = 0 → (d.baseOf x).toNat % 16 = 0 → x.cur = none → exec (.sseek e w) s = .next (s.setEng e
          { x with s := Tbl.put {} x.s w.ss.toNat { cur with pos := 0 },
                   walk := if 0 < cur.pos.toNat then Tbl.put {} x.walk w.ss.toNat {} else x.walk }.retire)))) ∧
    (s.runs e 0x12 w = true → fieldsOk w true false false true 0x01 0 = false →
      exec (.spos e w) s = .next (illegal e 0x12 w s)) ∧
    (s.runs e 0x12 w = true → fieldsOk w true false false true 0x01 0 = true →
      let t := s.begins e 0x12 w
      (cur.desc = 0 → exec (.spos e w) s = .next (strmExc e 0x10 w.ss t)) ∧
      (cur.desc ≠ 0 → bit w.md 0 = false → exec (.spos e w) s = .next (s.setEng e (x.wrote w.rd (cur.pos.setWidth 64) x.psr))) ∧
      (cur.desc ≠ 0 → bit w.md 0 = true → b ≠ [] →
        exec (.spos e w) s = .next (s.setEng e (x.wrote w.rd (BitVec.ofNat 64 (d.lenOf x)) x.psr))))

/-- MOVE, MOVEX and FILL (R160 to R163, R169, R172): the count register may not be g0 (R155). The checks pass where the streams
are defined, their descriptors at hand, the directions right, the streams different, and the counts within the lengths; they
sample what the instruction uses (R138, R160). A count of 0 retires without moving a byte. Otherwise one pass of the instruction
that has passed its checks (`startMove`, and for MOVEX `checkChain`) reads the burst's bytes from the source, passes MOVEX's
through its stages, whose AES pipeline is claimed first (R246), writes them at the destination position, and then counts them:
count register, source and destination position. FILL's bytes are its pattern by position. The residue of another destination
stays held. What a burst counts (R121, R154, R161): the count register falls by its bytes, and the destination's and the source's
positions rise by them modulo 2^40; no other register and no other cursor changes. -/
def Obligations.BurstMoves : Prop :=
  (∀ (e : EngId) (cap : Bool) (w : IW) (src : Option (BitVec 3)) (bad over_ : Bool → Side → Bool) (s : State),
      let x := s.eng e
      let side := fun (i : BitVec 3) => sideOf x i (decDesc (Tbl.get [] x.sd i.toNat))
      let d := side w.ss
      x.cur = none → (x.cur_ w.ss).desc ≠ 0 → Tbl.get [] x.sd w.ss.toNat ≠ [] → d.d.dir = true → bad true d = false →
      d.misHead = false → over_ true d = false →
      (∀ i, src = some i → i ≠ w.ss ∧ (x.cur_ i).desc ≠ 0 ∧ Tbl.get [] x.sd i.toNat ≠ [] ∧ (side i).d.dir = false ∧
        bad false (side i) = false ∧ (side i).misHead = false ∧ over_ false (side i) = false) →
      startMove e cap w src bad over_ s = .ok (src.map side, d) (s.setEng e { x with
        cur := some { w := w, elig := carriedReg w.rd && !cap, srcBase := ((src.map side).map Side.base).getD 0, srcLen := ((src.map side).map Side.len).getD 0,
                      dstBase := d.base, dstLen := d.len } })) ∧
  (∀ (e : EngId) (w : IW) (s : State), (∀ r, (s.eng e).residue = some r → r.dst ≠ w.ss) →
      let n := ((s.eng e).rg w.rd).toNat
      let ok14 := fieldsOk w true false false true 0 0x07 && w.rd != 0
      let ok15 := fieldsOk w true false false true 0 0xFFF7 && w.rd != 0 && stagesOk (stageCodes w)
      let ok17 := fieldsOk w true false true true 0 0 && w.rd != 0
      (s.runs e 0x14 w = true → ok14 = false → exec (.move e w) s = .next (illegal e 0x14 w s)) ∧
      (s.runs e 0x15 w = true → ok15 = false → exec (.movex e w) s = .next (illegal e 0x15 w s)) ∧
      (s.runs e 0x17 w = true → ok17 = false → exec (.fill e w) s = .next (illegal e 0x17 w s)) ∧
      (s.runs e 0x14 w = true → ok14 = true → ∀ (a d : Side) (v : State),
        let s0 := s.begins e 0x14 w
        startMove e false w (some (srcOf w)) (badMove w (fun _ => true)) (overMove s0 e n n) s0 = .ok (some a, d) v → d.d.kind ≠ 6 →
        (((v.eng e).rg w.rd).toNat = 0 → exec (.move e w) s = .next (v.modEng e Engine.retire)) ∧
        (∀ (ad : DWord) (room : Nat) (b : List Byte) (t u y : State), 0 < ((v.eng e).rg w.rd).toNat →
          streamAddr e w.ss d.d d.base (posOf v e w.ss) v = .ok (ad, room) t →
          let k := min ((v.eng e).rg w.rd).toNat (d.d.burstAt ad (posOf v e w.ss) room)
          destReady e d.d ad k t = .ok () u →
          source e a.i a.d a.base (posOf u e a.i) 0 k (fun z => z) u = .ok (b, none) y → 0 < k →
          exec (.move e w) s =
            .next (atBoundary e w.rd true (countBurst e w.rd (some a) w.ss k (destWrite e w.ss d.d ad (b.take k) y))))) ∧
      (s.runs e 0x15 w = true → ok15 = true → ∀ (a d : Side) (v z1 : State),
        let s0 := s.begins e 0x15 w
        startMove e false w (some (srcOf w)) (badMove w (fun c => c.kind != 6)) (overMove s0 e n n) s0 = .ok (some a, d) v →
        (((s.eng e).cur = none ∧ ∃ z, checkChain e w v = .ok () z ∧
            z1 = z.modEng e (fun x => { x with cur := x.cur.map (fun c => { c with mapBase := mapBaseOf x w }) })) ∨
          ((s.eng e).cur ≠ none ∧ z1 = v)) →
        let link := if a.d.kind = 4 then some a.d.port else none
        (((z1.eng e).rg w.rd).toNat = 0 → exec (.movex e w) s = .next (z1.modEng e Engine.retire)) ∧
        (∀ (ad : DWord) (room k back after : Nat) (b : List Byte) (t u u1 u2 y : State), 0 < ((z1.eng e).rg w.rd).toNat →
          streamAddr e w.ss d.d d.base (posOf z1 e w.ss) z1 = .ok (ad, room) t →
          planChain e w (min ((z1.eng e).rg w.rd).toNat (d.d.burstAt ad (posOf z1 e w.ss) room)) t = .ok (k, back, after) u →
          destReady e d.d ad k u = .ok () u1 → 0 < k →
          (match aesOf u1 e w with | some q => claim e q u1 = .ok () u2 | none => u2 = u1) →
          source e a.i a.d a.base (posOf u2 e a.i) back (k + after) (heldFull e w link) u2 = .ok (b, none) y →
          let p := passChain e w back k b y
          let f := countBurst e w.rd (some a) w.ss k (destWrite e w.ss d.d ad p.1 p.2)
          exec (.movex e w) s = .next (atBoundary e w.rd ((chainOf w).all (fun q => stagePermits e q f)) f))) ∧
      (s.runs e 0x17 w = true → ok17 = true → ∀ (d : Side) (v : State),
        let s0 := s.begins e 0x17 w
        startMove e false w none (badMove w (fun c => c.kind != 6)) (overMove s0 e 0 n) s0 = .ok (none, d) v →
        let z := v.modEng e (fun x => { x with cur := x.cur.map (fun c =>
          if c.out.isEmpty then { c with out := toLe 8 (x.rg w.rb).toNat } else c) })
        let pat := ((z.eng e).cur.map Cur.out).getD []
        (((z.eng e).rg w.rd).toNat = 0 → exec (.fill e w) s = .next (z.modEng e Engine.retire)) ∧
        (∀ (ad : DWord) (room : Nat) (t u : State), 0 < ((z.eng e).rg w.rd).toNat →
          streamAddr e w.ss d.d d.base (posOf z e w.ss) z = .ok (ad, room) t →
          let p := posOf z e w.ss
          let k := min ((z.eng e).rg w.rd).toNat (d.d.burstAt ad p room)
          destReady e d.d ad k t = .ok () u → 0 < k →
          exec (.fill e w) s = .next (atBoundary e w.rd true (countBurst e w.rd none w.ss k
            (destWrite e w.ss d.d ad ((List.range k).map (fun i => pat.getD ((p + i) % 8) 0)) u)))))) ∧
  (∀ (e : EngId) (rd : BitVec 5) (a : Side) (j : BitVec 3) (n : Nat) (s : State), rd ≠ 0 → a.i ≠ j → a.d.kind ≠ 4 →
      let x := s.eng e
      let y := (countBurst e rd (some a) j n s).eng e
      y.rg rd = x.rg rd - BitVec.ofNat 64 n ∧ (∀ r, r ≠ rd → y.rg r = x.rg r) ∧
      (y.cur_ j).pos = (x.cur_ j).pos + BitVec.ofNat 40 n ∧ (y.cur_ a.i).pos = (x.cur_ a.i).pos + BitVec.ofNat 40 n ∧
      (∀ i, i ≠ j → i ≠ a.i → y.cur_ i = x.cur_ i) ∧ (y.cur_ j).desc = (x.cur_ j).desc ∧ (y.cur_ a.i).desc = (x.cur_ a.i).desc ∧
      y.pc = x.pc ∧ y.psr = x.psr ∧ y.alc = x.alc ∧ y.effects = x.effects ∧
      (∀ f, f ≠ e → (countBurst e rd (some a) j n s).eng f = s.eng f) ∧
      (countBurst e rd (some a) j n s).txns = s.txns)

/-- MOVE from Alcove to Alcove (R108, R137, R160, R161): with both streams defined over the Alcove, literal base and length, in
the right directions, and the bytes within both lengths and within one destination burst, the pass copies exactly the count's
bytes as they stood, sets the count to 0, advances both positions, and retires; when its count register is not carried no
checkpoint follows. -/
def Obligations.AlcoveMove : Prop :=
  ∀ (e : EngId) (w : IW) (s : State), s.runs e 0x14 w = true → (s.eng e).residue = none → (s.eng e).cur = none →
    (fieldsOk w true false false true 0 0x07 && w.rd != 0) = true → carriedReg w.rd = false →
    let x := s.eng e
    let i := srcOf w
    let a := decDesc (Tbl.get [] x.sd i.toNat)
    let d := decDesc (Tbl.get [] x.sd w.ss.toNat)
    let n := (x.rg w.rd).toNat
    let p := (x.cur_ i).pos.toNat
    let q := (x.cur_ w.ss).pos.toNat
    i ≠ w.ss → Tbl.get [] x.sd i.toNat ≠ [] → Tbl.get [] x.sd w.ss.toNat ≠ [] → (x.cur_ i).desc ≠ 0 → (x.cur_ w.ss).desc ≠ 0 →
    a.kind = 7 → d.kind = 7 → a.dir = false → d.dir = true → a.nr = false → d.nr = false → a.bb = false → a.bl = false →
    d.bb = false → d.bl = false → p + n ≤ a.len → q + n ≤ d.len → a.base.toNat + a.len ≤ 0x2000 →
    d.base.toNat + d.len ≤ 0x2000 → 0 < n → n ≤ 256 - (d.base.toNat + q) % 256 →
    ∃ y : Engine, exec (.move e w) s = .next (s.setEng e y) ∧
      (∀ k, k < n → y.alcByte (d.base.toNat + q + k) = x.alcByte (a.base.toNat + p + k)) ∧
      (∀ k, k < d.base.toNat + q ∨ d.base.toNat + q + n ≤ k → y.alcByte k = x.alcByte k) ∧
      y.rg w.rd = 0 ∧ (∀ r, r ≠ w.rd → y.rg r = x.rg r) ∧ (y.cur_ i).pos.toNat = p + n ∧ (y.cur_ w.ss).pos.toNat = q + n ∧
      y.pc = x.pc + 8 ∧ y.psr = x.psr ∧ y.bytesSince = x.bytesSince + n ∧ y.issued = x.issued ∧ y.cur = none ∧
      y.busy = none

/-- FUNNEL and CAPT (R118, R164 to R172): once its checks have passed (`startMove`), a FUNNEL of 0 ends, with F writing the
residue, at whose boundary a due checkpoint is taken (Table 4-5); one whose staged and new bytes do not reach the next 64-byte
boundary keeps them all as the residue: from an Alcove stream it retires at once with the count 0 and the source position moved
on. A capture of 0 retires; one that would begin a burst while something is not yet committed takes a checkpoint at the
instruction first, the residue written; one whose burst is written takes a checkpoint, after the instruction when the count has
reached 0; a read capture whose Alcove buffer is not 256-byte aligned raises MISALIGNED. CAPT needs an image that provides
captures (R522). -/
def Obligations.FunnelAndCapture : Prop :=
  (∀ (e : EngId) (w : IW) (s : State), s.runs e 0x16 w = true →
    let n := ((s.eng e).rg w.rd).toNat
    let ok16 := fieldsOk w true false false true 0x01 0x07 && w.rd != 0
    let s0 := s.begins e 0x16 w
    (ok16 = false → exec (.funnel e w) s = .next (illegal e 0x16 w s)) ∧
    (ok16 = true → (∀ r, (s.eng e).residue = some r → r.dst = w.ss) → ∀ (a d : Side) (v : State),
      startMove e false w (some (srcOf w)) (badMove w (fun c => c.kind == 1 && decide (c.port ≤ 11)))
        (overMove s0 e n ((staged (s.eng e) w.ss).length + n)) s0 = .ok (some a, d) v →
      let st := staged (v.eng e) w.ss
      let m := ((v.eng e).rg w.rd).toNat
      let a0 := (d.d.addrAt d.base (posOf v e w.ss)).toNat
      (m = 0 → exec (.funnel e w) s = .next (funnelEnd e w.rd (bit w.md 0) v)) ∧
      (∀ (b : List Byte) (u : State), 0 < m → wholeBlocks a0 (st.length + m) = 0 → b.length = m →
        source e a.i a.d a.base (posOf v e a.i) 0 m (fun z => z) v = .ok (b, none) u → (u.eng e).rg w.rd = (v.eng e).rg w.rd →
        exec (.funnel e w) s = .next (funnelEnd e w.rd (bit w.md 0) (funnelTake e w a (st ++ b) b u))) ∧
      (0 < m → bit w.md 0 = false → wholeBlocks a0 (st.length + m) = 0 → a.d.kind = 7 → a.i ≠ w.ss →
        ∃ y : Engine, exec (.funnel e w) s = .next (v.setEng e y) ∧ y.rg w.rd = 0 ∧ y.pc = (v.eng e).pc + 8 ∧ y.cur = none ∧
          (y.cur_ a.i).pos = ((v.eng e).cur_ a.i).pos + BitVec.ofNat 40 m ∧ (y.cur_ w.ss) = (v.eng e).cur_ w.ss ∧
          (y.residue = some (Residue.mk w.ss a.i (st ++ (v.eng e).alcRead (a.d.addrAt a.base (posOf v e a.i)).toNat m)))))) ∧
  (∀ (e : EngId) (rd : BitVec 5) (f : Bool) (s : State),
    funnelEnd e rd f s = if f = true ∧ (s.eng e).residue ≠ none then atBoundary e rd true (flush e s)
      else s.modEng e Engine.retire) ∧
  (∀ (e : EngId) (w : IW) (form : Bool) (s : State), s.runs e 0x18 w = true →
    let n := ((s.eng e).rg w.rd).toNat
    let i : Instr := if form then .captWrite e w else .captRead e w
    let good := fieldsOk w true false false true 0x01 (if form then 0x07 else 0x1FFF07) && carriedReg w.rd && imgGives s e 8 0
    let bad := fun (isDst : Bool) (x : Side) => x.d.nr != (isDst == form) || x.d.binds w.rd || (isDst && x.d.kind == 6)
    let s0 := s.begins e 0x18 w
    (good = false → exec i s = .next (illegal e 0x18 w s)) ∧
    (good = true → (∀ r, (s.eng e).residue = some r → r.dst ≠ w.ss) → ∀ (a d : Side) (v : State),
      startMove e true w (some (srcOf w)) bad (overMove s0 e n n) s0 = .ok (some a, d) v →
      let y := v.eng e
      (form = false → captBuf w % 256 ≠ 0 →
        exec i s = .next (excAt e 0x03 (BitVec.ofNat 32 (captBuf w)) (BitVec.ofNat 64 (captBuf w)) none v)) ∧
      (form = true ∨ captBuf w % 256 = 0 →
        (y.rg w.rd = 0 → y.capturing = false → exec i s = .next (v.modEng e Engine.retire)) ∧
        (y.rg w.rd ≠ 0 → (y.cur.map Cur.out).getD [] = [] → y.capturing = false → uncommitted v e = true →
          exec i s = .next ((flush e v).modEng e (fun x => { x with phase := .commit y.pc .go, dbgStep := false }))) ∧
        ((y.rg w.rd ≠ 0 ∨ y.capturing = true) → (y.cur.map Cur.out).getD [] ≠ [] →
          exec i s = .next (captWrites e w a d 257 v)) ∧
        (∀ c, y.cur = some c → c.out = [] → captWrites e w a d 257 v =
          v.modEng e (fun x => { x with phase := .commit (if y.rg w.rd = 0 then y.pc + 8 else y.pc) .go, dbgStep := false })))))

/-- Transform bindings (R217 to R223, R238 to R240, R265): XSET of 0 unbinds; a bad offset raises DESC_INVALID, an absent record
area, a bad descriptor, a bad key slot number and a slot of another owner raise TRANSFORM with sub-causes 1 to 4; otherwise the
binding takes the descriptor, the key slot of an AES mode, and the running state given or initial; a mode that the image does not
provide is a bad descriptor (R522). While it waits for its descriptor XSET is held as decoded (R133). XFOLD folds the low bytes of
ra, in either order, into an unkeyed binding; XGET reads the finalised value; XRST sets the running state. Each changes its own
binding only. -/
def Obligations.Bindings : Prop :=
  does .xset 0x80 (fieldsOk · false true true false 0x07 0xFFFFFFFF) (fun e w s =>
    let x := s.eng e
    let k := w.md.toNat % 4
    let o := w.imm.toNat
    if o = 0 then s.setEng e { x with x := Tbl.put {} x.x k { changed := true : Bind } }.retire
    else if o % 32 ≠ 0 ∨ o < 0x40 ∨ 2 ^ 29 ≤ o ∨ s.psSize ≤ o then excAt e 0x13 w.imm 0 none (s.begins e 0x80 w)
    else if bit (s.app .xrecBase) 0 = false then xformExc e 0x01 k (s.begins e 0x80 w)
    else (psRead e 2 o 32 (s.begins e 0x80 w)).run fun b u =>
      if xdescOk b = false ∨ imgGives u e (xFeat b) 0 = false then xformExc e 0x02 k u
      else if xAes b = true ∧ 1024 ≤ (x.rg w.ra).toNat then xformExc e 0x03 k u
      else if xAes b = true ∧ keyAdmits (chanOf u e) (u.key (x.rg w.ra).toNat) = false then xformExc e 0x04 k u
      else
        let z : Bind :=
          { bound := true, desc := BitVec.ofNat 24 (o / 32), bytes := b,
            ks := if xAes b then (x.rg w.ra).setWidth 10 else 0,
            run := if bit w.md 2 then runSet b (x.rg w.rb) else BitVec.ofNat 64 (xInit b), changed := true }
        u.modEng e (fun y => { y with x := Tbl.put {} y.x k z }.retire)) ∧
  does .xfold 0x81 (fun w => fieldsOk w false true false false 0x03 0x1F && decide (1 ≤ w.imm.toNat % 16 ∧ w.imm.toNat % 16 ≤ 8))
    (fun e w s =>
      let x := s.eng e
      let k := w.md.toNat % 4
      let b := Tbl.get {} x.x k
      let l := toLe (w.imm.toNat % 16) (x.rg w.ra).toNat
      if b.bound = false then xformExc e 0x07 k (s.begins e 0x81 w)
      else if xAes b.bytes = true then xformExc e 0x08 k (s.begins e 0x81 w)
      else
        let r := (if bit w.imm 4 then l.reverse else l).foldl (foldByte (xMode b.bytes)) b.run.toNat
        let z := { b with run := BitVec.ofNat 64 r, changed := true }
        s.setEng e { x with x := Tbl.put {} x.x k z }.retire) ∧
  does .xget 0x82 (fieldsOk · true false false false 0x03 0) (fun e w s =>
    let x := s.eng e
    let b := Tbl.get {} x.x (w.md.toNat % 4)
    if b.bound = false then xformExc e 0x07 (w.md.toNat % 4) (s.begins e 0x82 w) else s.setEng e (x.wrote w.rd b.final x.psr)) ∧
  does .xrst 0x83 (fieldsOk · false false true false 0x07 0) (fun e w s =>
    let x := s.eng e
    let k := w.md.toNat % 4
    let b := Tbl.get {} x.x k
    if b.bound = false then xformExc e 0x07 k (s.begins e 0x83 w)
    else
      let z := { b with
        run := if bit w.md 2 then runSet b.bytes (x.rg w.rb) else BitVec.ofNat 64 (xInit b.bytes), changed := true,
        mIdx := 0, mOff := 0, mSamp := 0, mIv := [], chain := [] }
      s.setEng e { x with x := Tbl.put {} x.x k z }.retire)

/-- EMIT and PATCH (R224 to R232): both need an image that provides templates (R522). Once its checks have passed (`startEmit`), an
EMIT writes its bytes; when none are left, it retires, and its counter updates are one held effect. So an EMIT to an Alcove stream
of a template without fields and stuffing, whose bytes lie in one program-space line that the wing's slice holds, writes exactly
the image at the stream's position, moves the position on, and retires. A PATCH of an Alcove stream writes its 1, 2, 4 or 8 bytes,
in either order, at the position ra of the stream, and counts no BYTES; bytes that reach past the stream's own position raise
STREAM_END. -/
def Obligations.EmitAndPatch : Prop :=
  ∀ (e : EngId) (w : IW) (s : State), (s.eng e).residue = none →
    let x := s.eng e
    let ok84 := fieldsOk w false true true true 0x01 0xFFFFFFFF && imgGives s e 4 (fld w.md 0 1)
    let ok85 := fieldsOk w false true true true 0x07 0 && imgGives s e 4 0
    let d := decDesc (Tbl.get [] x.sd w.ss.toNat)
    let p := (x.rg w.ra).toNat
    let q := (x.cur_ w.ss).pos.toNat
    let n := 2 ^ (w.md.toNat % 4)
    let alcove := (x.cur_ w.ss).desc ≠ 0 ∧ Tbl.get [] x.sd w.ss.toNat ≠ [] ∧ d.kind = 7 ∧ d.nr = false ∧ d.dir = true ∧ d.bb = false
    let t0 := (s.psBase + w.imm.setWidth 64).toNat
    let b := (s.line (t0 / 64)).data.drop (t0 % 64)
    let m := leAt b 0 2
    let a := d.base.toNat + q
    (s.runs e 0x84 w = true → ok84 = false → exec (.emit e w) s = .next (illegal e 0x84 w s)) ∧
    (s.runs e 0x85 w = true → ok85 = false → exec (.patch e w) s = .next (illegal e 0x85 w s)) ∧
    (s.runs e 0x84 w = true → ok84 = true → ∀ (r : Side) (v : State), startEmit e w (s.begins e 0x84 w) = .ok r v →
      exec (.emit e w) s = .next (emitWrites e w r 1030 v)) ∧
    (∀ (c : Cur), x.cur = some c → emitEnd e s = s.setEng e
      (if c.ctr = [] then x.retire
       else { x with effects := x.effects ++ [Release.counters c.ctr],
                     counters := c.ctr.foldl (fun t (q : Nat × DWord) => Tbl.put none t q.1 (some q.2)) x.counters }.retire)) ∧
    (s.runs e 0x84 w = true → ok84 = true → bit w.md 0 = false → x.cur = none → alcove → d.bl = false →
      w.imm.toNat % 8 = 0 → 0x40 ≤ w.imm.toNat → w.imm.toNat + templSize b ≤ s.psSize → s.vitFlush = false →
      (s.line (t0 / 64)).st ≠ .I → inSlice (s.line (t0 / 64)) (sliceOf s (e.g.toNat / 8)) = true →
      (s.line (t0 / 64)).data.length = 64 → t0 % 64 + templSize b ≤ 64 → 1 ≤ m → byteAt b 2 = 0 → byteAt b 3 = 0 → byteAt b 4 < 64 →
      leAt b 6 2 ≤ m → q + m ≤ d.len → a + m ≤ 0x2000 → m ≤ 256 - a % 256 →
      ∃ y : Engine, exec (.emit e w) s = .next (s.setEng e y) ∧
        (∀ k, k < m → y.alcByte (a + k) = b.getD (8 + k) 0) ∧ (∀ k, k < a ∨ a + m ≤ k → y.alcByte k = x.alcByte k) ∧
        (y.cur_ w.ss).pos.toNat = q + m ∧ y.g = x.g ∧ y.psr = x.psr ∧ y.pc = x.pc + 8 ∧ y.effects = x.effects ∧ y.cur = none) ∧
    (s.runs e 0x85 w = true → ok85 = true → x.cur = none → alcove → x.wErr = none → writesOpen s e = false →
      (q < p + n → exec (.patch e w) s = .next (strmExc e 0x11 w.ss (s.begins e 0x85 w))) ∧
      (p + n ≤ q → d.base.toNat + p + n ≤ 0x2000 → n ≤ 256 - (d.base.toNat + p) % 256 →
        ∃ y : Engine, exec (.patch e w) s = .next (s.setEng e y) ∧
          (∀ k, k < n → y.alcByte (d.base.toNat + p + k) =
            (x.rg w.rb).extractLsb' (8 * (if bit w.md 2 then n - 1 - k else k)) 8) ∧
          (∀ k, k < d.base.toNat + p ∨ d.base.toNat + p + n ≤ k → y.alcByte k = x.alcByte k) ∧
          y.pc = x.pc + 8 ∧ y.g = x.g ∧ y.s = x.s ∧ y.psr = x.psr ∧ y.issued = x.issued ∧
          y.bytesSince = x.bytesSince + n ∧ y.cur = none))

/-! ## Channels -/

/-- Stop points (R417 to R424): at an instruction or burst boundary PAUSE stops the engine, and the channel is PAUSED once its
writes are answered; an engine whose channel a ring error halted stops likewise (R673). ABORT there, or while a checkpoint waits,
discards what the engine holds and completes the work order with 0x30 once its writes are answered; KILL does so wherever the
work order stands, tears the data bursts that are presented, and completes with 0x32; a channel without an engine is PAUSED, ends
its work order, or is HALTED at once; STOP with nothing captured left halts the channel, or leaves it in the state of
Table 2-11d. -/
def Obligations.StopPoints : Prop :=
  ∀ (ch : BitVec 12) (s : State), s.boot.tstMode = false →
    let c := s.chan ch
    (∀ e, c.eng = some e →
      let x := s.eng e
      (x.phase = .run → atStop x = true → c.pend = some .pause → c.st ≠ .paused →
        exec (.pauseStopPoint ch) s = .next (if writesOpen s e then s.setEng e { x with paused := true }
          else (s.setEng e { x with paused := true }).modChan ch (fun y =>
            { y with st := .paused, wait := .none, pend := none, preSt := .running, preWait := .none }))) ∧
      (x.phase = .run → atStop x = true → c.pend ≠ some .pause → c.ringErr = true → c.st = .halted →
        exec (.pauseStopPoint ch) s = .next (s.setEng e { x with paused := true })) ∧
      (abortsHere x = true → c.pend = some .abort → c.abandoned = false →
        ∃ t, exec (.abortStopPoint ch) s = .next (if writesOpen s e then t else endOrder e 0x30 x.acked (discardReads e t)) ∧
          (t.eng e).effects = [] ∧ (t.eng e).counters = [] ∧ (t.eng e).residue = none ∧ (t.eng e).phase = .stopping 0x30 ∧
          (t.eng e).cur = none ∧ (t.eng e).busy = none ∧ t.txns = s.txns ∧ t.links = s.links ∧
          (∀ f, f ≠ e → t.eng f = s.eng f)) ∧
      (x.phase = .starting ∨ x.phase = .run ∨ (∃ pc k, x.phase = .commit pc k) ∨ (∃ st, x.phase = .ending st) →
        c.pend = some .kill → c.abandoned = false →
        ∃ t, exec (.killStopPoint ch) s = .next (if writesOpen t e then t else endOrder e 0x32 x.acked (discardReads e t)) ∧
          (t.eng e).effects = [] ∧ (t.eng e).counters = [] ∧ (t.eng e).residue = none ∧ (t.eng e).phase = .stopping 0x32 ∧
          (∀ k ∈ t.txns, Txn.dataOf e k = true → k.torn = true) ∧ (∀ f, f ≠ e → t.eng f = s.eng f))) ∧
    (c.eng = none →
      (c.pend = some .pause → c.st ≠ .paused → c.replay = false → c.haltWith = none →
        exec (.pauseStopPoint ch) s = .next (pauseNow ch s)) ∧
      (c.pend = some .abort → c.replay = false → exec (.abortStopPoint ch) s = .next (endHeld ch 0x30 s)) ∧
      (c.pend = some .kill → inProgress c = true → exec (.killStopPoint ch) s = .next (endHeld ch 0x32 s)) ∧
      (c.pend = some .kill → inProgress c = false → exec (.killStopPoint ch) s = .next (haltNow ch 1 0x32 s)) ∧
      (c.pend = some .stop → inProgress c = false → c.haltWith = none → c.stopTail = some c.wrStart → c.rel = [] →
        c.wrDone = c.wrStart → exec (.stopWorkOrderBoundary ch) s = .next (settle ch (stopEnd ch s)))) ∧
    (c.st ≠ .paused → ((pauseNow ch s).chan ch).st = .paused ∧ ((pauseNow ch s).chan ch).pend = none ∧
      ((pauseNow ch s).chan ch).preWait = c.wait ∧ ((pauseNow ch s).chan ch).order = c.order) ∧
    ((haltNow ch 1 0x32 s).chan ch).st = .halted ∧ ((haltNow ch 1 0x32 s).chan ch).pend = none

/-- What halting leaves (R64, R66, R327, Table 2-11d): a halted channel has its HALT notice among its releases, with the halting
status, the cause and WR_DONE, when a slot was free, and stands at the end of HALT_Q; when that holds 64 entries, HALT_OVF is set
instead. A command other than STOP no longer pends. -/
def Obligations.HaltedChannels : Prop :=
  ∀ (ch : BitVec 12) (cause status : Byte) (s : State),
    let c := s.chan ch
    let h := (enterHalted ch cause status s).chan ch
    h.st = .halted ∧ h.wait = .none ∧ h.haltWith = none ∧
    (c.pend ≠ some .stop → h.pend = none ∧ h.stopTail = none) ∧
    (c.slotFree = true → h.reserved = c.reserved + 1 ∧
      h.rel = c.rel ++ [.notice 4 0 ([status, cause] ++ toLe 2 c.wrDone.toNat ++ List.replicate 12 0)]) ∧
    (c.slotFree = false → h.reserved = c.reserved ∧ h.rel = c.rel) ∧
    (s.evc.haltQ.length < 64 → (enterHalted ch cause status s).evc.haltQ = s.evc.haltQ ++ [ch]) ∧
    (64 ≤ s.evc.haltQ.length → (enterHalted ch cause status s).evc.haltQ = s.evc.haltQ ∧
      (enterHalted ch cause status s).evc.haltOvf = true)

/-- Entries (R36, R51, R54 to R57, R79 to R84): the entry cache reads the entry at WR_FETCH from its slot of the work ring, up to
eight ahead of WR_START while its wing's cache holds fewer than 1,024; answered fetches enter the cache in index order; a malformed entry completes with 0x10 without
running; a MARKER reserves its notice and completes with OK, or waits for a slot; a BARRIER that is met completes with OK. -/
def Obligations.Entries : Prop :=
  ∀ (ch : BitVec 12) (s : State), s.boot.tstMode = false → coreUp s = true →
    let c := s.chan ch
    ((c.st ≠ .free ∧ c.st ≠ .configured) ∨ c.pend = some .stop → c.abandoned = false → c.wrFetch ≠ c.wrTail →
      (c.wrFetch - c.wrStart).toNat < 8 → cacheUsed s (cacheWing s ch) < 1024 →
      exec (.entryFetch ch) s = .next (issue
        (ringTxn s ch c.wrPort 0 (c.wrBase + BitVec.ofNat 64 (64 * (c.wrFetch.toNat % 2 ^ c.wrSize))) 64 [] .atWing
          (some (cacheWing s ch)) (.entry ch c.wrFetch))
        (s.setChan ch { c with wrFetch := c.wrFetch + 1, fet := c.fet ++ [(s.nextTxn, c.wrFetch, none)] }))) ∧
    exec (.entryFetchComplete ch) s = .next (coreDone [254] ch (considerHead ch
      (s.setChan ch { c with cache := c.cache ++ (takeFetched c.fet).1, fet := (takeFetched c.fet).2 }))) ∧
    (∀ en, startable s ch = some en → en.err = none →
      (malformed s ch en.bytes = true →
        exec (.entryMalformed ch) s = .next (considerHead ch (completeUnstarted ch en 0x10 0 s))) ∧
      (malformed s ch en.bytes = false → entType en.bytes = 4 →
        let t := s.setChan ch { c with wrStart := c.wrStart + 1, cache := c.cache.filter (fun x => x.idx != en.idx),
                                       order := some en, inOrder := true }
        exec (.markerEntry ch) s = .next (if (t.chan ch).slotFree then markerDone ch en t
          else t.modChan ch (fun d => { d with wait := .noticeSpace, st := if d.st = .armed then .waiting else d.st })))) ∧
    (∀ en, c.order = some en → c.inOrder = true → entType en.bytes = 3 → c.wait = .barrier → c.st = .waiting ∨ c.st = .draining →
      barrierMet s en.bytes = true →
      exec (.barrierComplete ch) s = .next (considerHead ch (completeFree ch 0 0 false false s)))

/-- A completion queues its result (R65, R66, R74, R93, R409): the publication, with its COMPLETION notice before it where one is
due and a slot is free, goes behind the effects already handed over; without a slot the completion waits. Nothing of the entry is
in progress any more, and a status that halts is kept until it is published. -/
def Obligations.ResultsQueueInOrder : Prop :=
  ∀ (ch : BitVec 12) (idx tag : BitVec 16) (nt : Option Bool) (status flags : Byte) (bytes : BitVec 48) (s : State),
    let c := s.chan ch
    let t := (completeWith ch idx nt status flags bytes tag s).chan ch
    let p : Release := .publish idx status flags bytes tag
    t.inOrder = false ∧ t.order = none ∧ t.eng = none ∧ t.sched.armed = false ∧
    (halts c status = true → t.haltWith = some (if status = 0x32 then 1 else 0, status)) ∧
    (wantNotice c nt status = false → t.rel = c.rel ++ [p] ∧ t.reserved = c.reserved) ∧
    (wantNotice c nt status = true → c.slotFree = true →
      t.rel = c.rel ++ [.notice 2 flags [], p] ∧ t.reserved = c.reserved + 1) ∧
    (wantNotice c nt status = true → c.slotFree = false → t.rel = c.rel ∧ t.stalledDone = some p ∧ t.wait = .noticeSpace) ∧
    (∀ n, n ≠ ch → (completeWith ch idx nt status flags bytes tag s).chan n = s.chan n) ∧
    (∀ e, (completeWith ch idx nt status flags bytes tag s).eng e = s.eng e)

/-- Releases (R64, R74, R76, R409 to R413, R673): the hub releases the head of a channel's queue, one write at a time: a notice
is written to its slot of the notice ring, unless the HALT notice of a ring error is on its way there, a repeat of a failed write
with the TIME of the first (Table 2-10), and NT_TAIL passes it once it is acknowledged; a SIGNAL is taken by its event channel;
a counter or record write goes into its line; a result is written to the last 16 bytes of its slot with END_TIME, and WR_DONE
passes it once it is acknowledged. A ring error holds the releases and halts the channel. -/
def Obligations.Releases : Prop :=
  ∀ (ch : BitVec 12) (s : State), s.boot.tstMode = false → coreUp s = true →
    let c := s.chan ch
    (c.relHeld = false →
      (∀ ty fl b tm r, c.rel = .notice ty fl b tm :: r → c.relTxn = none → haltOut s ch = false →
        let t := tm.getD s.now
        exec (.effectRelease ch) s = .next (issue
          (ringTxn s ch c.ntPort 1 (c.ntBase + BitVec.ofNat 64 (32 * (c.ntTail.toNat % 2 ^ c.ntSize))) 32
            (noticeBytes ty fl ch c.ntSeq t (noticePayload c ty b (t.truncate 32))) .atPort none (.release ch))
          (s.setChan ch { c with relTxn := some s.nextTxn, endTime := if ty = 2 then some (t.truncate 32) else c.endTime,
                                 rel := .notice ty fl b (some t) :: r }))) ∧
      (∀ ty fl b tm r, c.rel = .notice ty fl b tm :: r → c.relTxn ≠ none → c.relAck = some 0 → exec (.effectRelease ch) s = .next
        (coreDone [255, 259, 260, 261] ch (mirrorIssue ch (mirrorDue ch (releaseDone ch
          (s.setChan ch { c with ntTail := c.ntTail + 1, ntSeq := c.ntSeq + 1, reserved := c.reserved - 1 })))))) ∧
      (∀ k r, c.rel = .signal k :: r →
        exec (.effectRelease ch) s = .next (coreDone [256, 261] ch (releaseDone ch (signalTake k.toNat s)))) ∧
      (∀ o v l r u, c.rel = .counters ((o, v) :: l) :: r → psWrite ch o (toLe 8 v.toNat) s = (true, u) →
        let w := u.modChan ch (fun d => { d with rel := .counters l :: r })
        exec (.effectRelease ch) s = .next (if l.isEmpty then coreDone [261] ch (releaseDone ch w) else w)) ∧
      (∀ k b r u, c.rel = .xrec k b :: r →
        psWrite ch (fld (s.app .xrecBase) 18 14 * 2 ^ 18 + 64 * ch.toNat + 16 * k.toNat) b s = (true, u) →
        exec (.effectRelease ch) s = .next (coreDone [261] ch (releaseDone ch u))) ∧
      (∀ idx st fl n tag r, c.rel = .publish idx st fl n tag :: r → c.relTxn = none →
        let et := c.endTime.getD (s.now.truncate 32)
        exec (.resultPublication ch) s = .next (issue
          (ringTxn s ch c.wrPort 1 (c.wrBase + BitVec.ofNat 64 (64 * (idx.toNat % 2 ^ c.wrSize) + 48)) 16
            ([st, fl] ++ toLe 6 n.toNat ++ toLe 4 et.toNat ++ toLe 2 tag.toNat ++ [0, 0]) .atPort none (.release ch))
          (s.setChan ch { c with relTxn := some s.nextTxn, endTime := some et }))) ∧
      (∀ idx st fl n tag r, c.rel = .publish idx st fl n tag :: r → c.relTxn ≠ none → c.relAck = some 0 →
        exec (.resultPublication ch) s = .next (coreDone [254, 255, 259, 260] ch (published ch idx st s)))) ∧
    (c.relHeld = true → c.ringDue = true → ∃ t, exec (.ringError ch) s = .next t ∧ (t.chan ch).st = .halted ∧
      (t.chan ch).ringErr = true ∧ (t.chan ch).relHeld = true ∧ (t.chan ch).rel = c.rel ∧ (t.chan ch).wait = .none)

/-- A dispatch decision (R384 to R387): while CORE runs and `dbg_halt` is low, the engines of the wing that still read their
header or record go on, and then the wing decides. Where none of them does, the first ready channel with an eligible gallery in the
wing takes the engine that has been free longest in the gallery that PACK or SPREAD prefers, and that engine begins to start.
Channels stand in the order of their effective priority (PRIO and one more for every AGE microseconds of readiness, 15 at most), then
of the time since which they are ready, then of their numbers; galleries in that of their busy engines, the most first under PACK and
the fewest under SPREAD, then of their numbers; engines in that of the time since which they are free, then of their slots. The one
picked of a list is the first of it: no other goes before it, and of a list that is not empty one is picked. -/
def Obligations.DispatchDecisions : Prop :=
  (∀ (wing : BitVec 2) (s : State), s.boot.tstMode = false →
    let u := foldS (wingEngs wing.toNat) startStep s
    let here := fun (c : BitVec 12) => (eligibleSet s c).1.filter (fun g => g / 8 == wing.toNat)
    let free := fun (c : BitVec 12) => (here c).filter (galFree s)
    exec (.dispatchDecision wing) s = .next (if coreUp u = true ∧ u.boot.dbgHalt = false then decide_ wing.toNat u else u) ∧
    ((∀ e ∈ wingEngs wing.toNat, (s.eng e).phase ≠ .starting) → coreUp s = true → s.boot.dbgHalt = false →
      ∀ (ch : BitVec 12) (g : Nat) (e : EngId),
        bestOf (chanBefore s) ((readyChans s).filter (fun c => !recsPending (s.chan c) && !(here c).isEmpty)) = some ch →
        bestOf (galBefore s) (free ch) = some g → bestOf (engBefore s) ((galEngs g).filter (engFree s)) = some e →
        exec (.dispatchDecision wing) s = .next (startStep e (takeEngine ch e
          (foldS (readyChans s) (fun c t => t.modDsp c (dspFlags s c)) s))))) ∧
  (∀ (s : State) (a b : BitVec 12),
    let age := fld (s.app .dspCfg) 16 16
    let prio := fun (c : BitVec 12) =>
      min 15 ((s.chan c).prio + match (s.chan c).readyAt with
        | some t => if age = 0 then 0 else (s.now - t).toNat / 100 / age
        | none => 0)
    let since := fun (c : BitVec 12) => ((s.chan c).readyAt.getD s.now).toNat
    chanBefore s a b = true ↔ prio b < prio a ∨ (prio a = prio b ∧ (since a < since b ∨ (since a = since b ∧ a.toNat < b.toNat)))) ∧
  (∀ (s : State) (a b : Nat),
    let busy := fun (g : Nat) => ((galEngs g).filter (fun e => (s.eng e).phase != .idle)).length
    galBefore s a b = true ↔
      (if bit (s.app .dspCfg) 1 then busy a < busy b else busy b < busy a) ∨ (busy a = busy b ∧ a < b)) ∧
  (∀ (s : State) (a b : EngId),
    let since := fun (e : EngId) => (s.eng e).freeAt.toNat
    engBefore s a b = true ↔ since a < since b ∨ (since a = since b ∧ a.slot.val < b.slot.val)) ∧
  (∀ (s : State) (l : List (BitVec 12)) (a : BitVec 12), bestOf (chanBefore s) l = some a →
    a ∈ l ∧ ∀ b ∈ l, chanBefore s b a = false) ∧
  (∀ (s : State) (l : List Nat) (a : Nat), bestOf (galBefore s) l = some a → a ∈ l ∧ ∀ b ∈ l, galBefore s b a = false) ∧
  (∀ (s : State) (l : List EngId) (a : EngId), bestOf (engBefore s) l = some a → a ∈ l ∧ ∀ b ∈ l, engBefore s b a = false) ∧
  (∀ (s : State) (l : List (BitVec 12)) (m : List Nat) (n : List EngId), (l ≠ [] → bestOf (chanBefore s) l ≠ none) ∧
    (m ≠ [] → bestOf (galBefore s) m ≠ none) ∧ (n ≠ [] → bestOf (engBefore s) n ≠ none))

/-- A channel takes an engine (R82, R97, R117, R387, Table 3-1): a new entry leaves the entry cache, WR_START passes it, and the
engine starts at PROG + 8 with g1 to g4 the entry's arguments, g31 the stack's upper bound and every other register 0; a work
order that has committed resumes with the carried state of its checkpoint area. -/
def Obligations.WorkOrdersStart : Prop :=
  ∀ (ch : BitVec 12) (e : EngId) (en : CEntry) (s : State),
    let c := s.chan ch
    let t := takeEngine ch e s
    let y := t.eng e
    (c.inOrder = false → headEntry c = some en → gateOf s ch = none →
      (t.chan ch).wrStart = c.wrStart + 1 ∧ (t.chan ch).order = some en ∧ (t.chan ch).inOrder = true ∧
      (t.chan ch).eng = some e ∧ (t.chan ch).wait = .none ∧
      (t.chan ch).st = (if c.st = .draining then .draining else .running) ∧
      y.phase = .starting ∧ y.ch = ch ∧ y.pc = BitVec.ofNat 32 (entProg en.bytes + 8) ∧
      (∀ i : Fin 4, y.rg (BitVec.ofNat 5 (i + 1)) = BitVec.ofNat 64 (leAt en.bytes (16 + 8 * i) 8)) ∧
      y.rg 31 = BitVec.ofNat 64 c.stkHi ∧ (∀ r : BitVec 5, 5 ≤ r.toNat → r ≠ 31 → y.rg r = 0) ∧
      y.alc = [] ∧ y.effects = [] ∧ y.residue = none ∧ y.s = [] ∧ y.x = []) ∧
    (c.inOrder = true → c.fresh = false → (c.wait ≠ .event ∨ c.sched.act ≠ 5) →
      (t.chan ch).eng = some e ∧ y.phase = .starting ∧ y.ch = ch ∧ y.pc = c.ck.pc ∧ y.psr = c.ck.psr ∧ y.s = c.ck.s ∧
      y.ckSeq = c.ck.seq ∧ y.issued = c.ck.bytes.toNat ∧ (∀ r : BitVec 5, r ≠ 31 → y.rg r = if r = 0 then 0 else Tbl.get 0 c.ck.g r.toNat) ∧
      y.rg 31 = BitVec.ofNat 64 c.stkHi ∧ y.alc = [] ∧ y.effects = []) ∧
    (∀ n, n ≠ ch → (c.inOrder = true ∨ gateOf s ch = none) → t.chan n = s.chan n) ∧ (∀ f, f ≠ e → t.eng f = s.eng f)

/-! ## Fabric, coherence and Concourse -/

/-- Grant points (R390 to R395): among requesters whose wait counter has reached the limit, the one that has waited longest wins,
as a forced win; otherwise a requester wins that the slot of the wheel names, where it is not cordoned, or one of the highest
priority. Whoever wins requests; whenever somebody requests, somebody wins; while the burst of the last grant holds the resource
nothing is granted; a grant moves the winner's first burst one stage on, or into its Stream Link, or takes back a burst of Docent
that goes no further, or one that the fabric itself answers, advances the wheel, and clears the winner's wait counter and the
watchdog. -/
def Obligations.Grants : Prop :=
  (∀ (s : State) (a : Nat) (rs : List Nat),
    let lim := fld (s.app (.arbCfg a)) 24 8
    let wait := fun r => Tbl.get 0 (s.arb a).waits r
    (rs ≠ [] → chooseGrant s a rs ≠ none) ∧
    (∀ r forced cr, chooseGrant s a rs = some (r, forced, cr) →
      r ∈ rs ∧ (forced = true ↔ ∃ q ∈ rs, lim ≤ wait q) ∧ (forced = true → ∀ q ∈ rs, wait q ≤ wait r) ∧
      (forced = false → (∀ q ∈ rs, arbPrioOf s a q ≤ arbPrioOf s a r) ∨
        (let code := fld (s.app (.arbWheel a ((s.arb a).ptr.toNat / 4))) (8 * ((s.arb a).ptr.toNat % 4)) 8
         128 ≤ code ∧ r = code % 32 ∧ reqCordoned s a r = false)))) ∧
  (∀ (arb : ArbId) (s0 : State), s0.boot.tstMode = false →
    let a := arbIdx arb
    let s1 := if 64 ≤ a then holdTraffic (a - 64) s0 else s0
    let s := docentAsk a s1
    (resourceFree s1 a = false → exec (.arbiterGrantPoint arb) s0 = .next s1) ∧
    (resourceFree s1 a = true → requesting s a = [] → exec (.arbiterGrantPoint arb) s0 = .next s) ∧
    (∀ r forced cr t, resourceFree s1 a = true → chooseGrant s a (requesting s a) = some (r, forced, cr) → headOf s a r = some t →
      ∃ u : State, exec (.arbiterGrantPoint arb) s0 = .next (if forced then starved a r u else u) ∧
        (u.arb a).ptr = (s.arb a).ptr + 1 ∧ (u.arb a).credits = cr ∧ Tbl.get 0 (u.arb a).waits r = 0 ∧ (u.arb a).wdog = 0 ∧
        (∀ q, q ∉ requesting s a → Tbl.get 0 (u.arb a).waits q = Tbl.get 0 (s.arb a).waits q) ∧
        (t.forced ≠ none → (u.arb a).grant = none ∧
          u.txns = s.txns.map (fun x => if x.id = t.id then { x with stage := .sent, beats := 0 } else x)) ∧
        (t.forced = none → t.turns = true → (u.arb a).grant = none ∧ u.txns = s.txns.filter (fun x => x.id != t.id)) ∧
        (t.forced = none → t.turns = false → a < 96 → (u.arb a).grant = some (t.id, r) ∧ (∀ b, b ≠ a → u.arb b = s.arb b) ∧
          u.txns = s.txns.map (fun x => if x.id = t.id then { x with stage := x.stage.next, since := s.now } else x)) ∧
        (t.forced = none → t.turns = false → 96 ≤ a → (u.arb a).grant = none ∧ ∀ x ∈ u.txns, x.id ≠ t.id)))

/-- The grant watchdog (R399, R400): in each tick in which a granted burst stands in front of the next stage and everything
downstream is ready, the arbiter's watchdog counts its cycles, and in no other; it bites at WDOG × 16 of them, and not where WDOG times
16 is more. A bite that finds its grantee's burst still in front of the next stage completes that burst
without its bytes, withdraws its response, releases the grant, and asserts the arbiter's source with the requester as
instance; a bite that finds none does nothing. -/
def Obligations.WatchdogBites : Prop :=
  ∀ (arb : ArbId) (s : State), s.boot.tstMode = false →
    let a := arbIdx arb
    (∀ t, grantBurst s a = some t →
      ((wdogTick a s).arb a).wdog = (s.arb a).wdog + (if downstreamReady s a t then arbMHz s a else 0)) ∧
    (grantBurst s a = none → wdogTick a s = s) ∧
    (∀ t r, bitten s a = some (t, r) ↔ grantBurst s a = some t ∧ (∃ k, (s.arb a).grant = some (k, r)) ∧
      16 * fld (s.app (.arbCfg a)) 16 8 * 1600 ≤ (s.arb a).wdog) ∧
    (bitten s a = none → exec (.grantWatchdogBite arb) s = .next s) ∧
    (∀ t r, bitten s a = some (t, r) → ∃ (u : State) (i : FaultInfo),
      exec (.grantWatchdogBite arb) s = .next (reissueRing t (assertFault (arbSrc a) i u)) ∧
      i.ch = t.chan? s ∧ i.cls = 4 ∧ i.addr = t.addr ∧ i.inst = BitVec.ofNat 8 r ∧
      (u.arb a).bite = true ∧ (u.arb a).grant = none ∧ (∀ b, b ≠ a → u.arb b = s.arb b) ∧
      (∀ x ∈ u.txns, x.id = t.id → x.torn = true ∧ x.discard = true) ∧
      (∀ x ∈ s.txns, x.id ≠ t.id → x ∈ u.txns) ∧ u.txns.length = s.txns.length ∧ u.engs = s.engs ∧ u.chans = s.chans)

/-- Beats and retries (R430, R436, R437, R439, R445, R446, R452): the REQ beat of a granted burst transfers while its port may
present it, with the ID that its stream uses or one that no outstanding transaction of the port carries; its WDAT beats follow,
after those of every REQ beat before it, and each counts its bytes in the port's telemetry; the last beat releases the port. A
transaction answered RETRY is presented again with all its beats, and counts its retry. No beat transfers on a port that stands
still, and no burst of Docent's outside its scratch region is presented (R585). -/
def Obligations.BeatsAndRetries : Prop :=
  ∀ (t : Nat) (x : Txn) (s : State), s.boot.tstMode = false → s.txn t = some x →
    let p := x.port.toNat
    (x.stage = .granted → docentMay s x = false → exec (.beatTransfer t) s = .next (endGrant x (s.dropTxn t))) ∧
    (x.stage = .granted → docentMay s x = true → portPresents s p = true → ∃ (id : BitVec 9) (u : State), exec (.beatTransfer t) s = .next u ∧
      u.txns = s.txns.map (fun y => if y.id = x.id then { y with stage := .sent, rid := id, ord := s.nextTxn } else y) ∧
      u.nextTxn = s.nextTxn + 1 ∧ u.engs = s.engs ∧ u.chans = s.chans ∧ (x.beats ≠ 0 → u.arbs = s.arbs) ∧
      ((∃ y ∈ s.txns, y.openOn p = true ∧ sameStream x y = true ∧ y.rid = id) ∨
       ((∀ y ∈ s.txns, y.openOn p = true → sameStream x y = false) ∧ id.toNat < 2 ^ idWidth p ∧
        ((∃ i, i < 2 ^ idWidth p ∧ ∀ y ∈ s.txns, y.openOn p = true → y.rid.toNat ≠ i) →
          ∀ y ∈ s.txns, y.openOn p = true → y.rid ≠ id)))) ∧
    (x.stage = .granted → docentMay s x = true → portPresents s p = false → exec (.beatTransfer t) s = .next s) ∧
    (x.stage = .sent → 0 < x.beats → x.forced = none → portRuns s p = true → wdatBehind s x = false →
      exec (.beatTransfer t) s = .next
        (let u := s.modTxn t (fun y => { y with beats := y.beats - 1 })
         let v := if x.torn then u else tmAdd (portTm p) (beatBytes p x.addr x.n (beatsOf p x.addr x.n - x.beats)) u
         if x.beats = 1 then endGrant x v else v)) ∧
    (x.stage = .sent → x.beats = 0 ∨ portRuns s p = false ∨ wdatBehind s x = true → exec (.beatTransfer t) s = .next s) ∧
    (x.stage = .retry → portRuns s p = true → exec (.retryReissue t) s = .next
      (({ s with nextTxn := s.nextTxn + 1 } : State).modTxn t (fun y =>
        { y with stage := .sent, retries := y.retries + 1, ord := s.nextTxn,
                 beats := if y.op = 1 ∨ y.op = 5 then beatsOf y.port.toNat y.addr y.n else 0 }))) ∧
    (x.stage ≠ .retry ∨ portRuns s p = false → exec (.retryReissue t) s = .next s)

/-- Responses (R79 to R82, R113, R154, R403, R448 to R453): a read's code is its first code other than OKAY, in beat order; an OK
read delivers its bytes to what it was for and counts them; an OK data write counts its bytes as acknowledged; RETRY below
RETRY_MAX waits for a reissue, of a read as of a write, and at RETRY_MAX counts as SLVERR and asserts the port's source; any other
code is the port's error, a reserved one as SLVERR, and reaches what the transaction was for: the engine that reads, the
entry that is fetched, every engine that waits for the line, the earliest failed write of the engine, or the ring; the pool entry
returns. A transaction whose beats have not all transferred, or whose port's clock stands still, is not answered. -/
def Obligations.Responses : Prop :=
  ∀ (t : Nat) (s : State), s.boot.tstMode = false →
    let retries := fun (x : Txn) => fld (s.reg (.portCfg x.port.toNat)) 24 8
    let counted := fun (x : Txn) => s.modPort x.port.toNat (fun q => { q with retryCnt := satAdd q.retryCnt 1 })
    let final := fun (x : Txn) (c : BitVec 3) => c ≠ 0 ∧ (c = 5 → retries x ≤ x.retries)
    let code := fun (c : BitVec 3) => if 5 ≤ c.toNat then 1 else c
    let noted := fun (x : Txn) (c : BitVec 3) => if c = 5 then retryExhausted x (counted x) else portError x c s
    (∀ codes data g, answerable s t [0, 2, 3] = none → exec (.readResponse t codes data g) s = .next s) ∧
    (∀ c, answerable s t [1] = none → exec (.writeResponse t c) s = .next s) ∧
    (∀ x codes data g, answerable s t [0, 2, 3] = some x → x.forced = none → readShape x codes = true →
      let c := readCode codes
      let i : Instr := .readResponse t codes data g
      let u := (noted x c).dropTxn t
      (c = 0 →
        let v := flushDone (readDone x 0 data g ((tmAdd (portTm x.port.toNat) x.n s).dropTxn t))
        ((∀ ch i, x.purpose ≠ .entry ch i) → exec (.readResponse t codes data g) s = .next v) ∧
        (∀ ch i, x.purpose = .entry ch i → exec (.readResponse t codes data g) s = .next (settle ch v))) ∧
      (c = 5 → x.retries < retries x → exec i s = .next ((counted x).modTxn x.id (fun y => { y with stage := .retry }))) ∧
      (final x c →
        (∀ (e : EngId) (what : Nat), x.op = 0 → x.purpose = .engRead e what → x.discard = false →
          exec i s = .next (flushDone (engReadFails e (code c) (fun r => r.t == some x.id) u))) ∧
        (∀ ch idx, x.op = 0 → x.purpose = .entry ch idx →
          exec i s = .next (settle ch (flushDone (u.modChan ch (fun d => { d with fet := d.fet.map (fun f =>
            if f.1 = x.id then (x.id, idx, some { idx := idx, bytes := [], err := some (busStatus (code c)) }) else f) }))))) ∧
        (∀ w, x.op = 2 → x.purpose = .fill w → x.discard = false →
          exec i s = .next (flushDone (lineFails (x.addr.toNat / 64) (code c) u))) ∧
        (x.op = 3 → x.discard = false → exec i s = .next (cohFailed x (lineFails (x.addr.toNat / 64) (code c)
          ((noted x c).modLine (x.addr.toNat / 64) (fun _ => {}))))))) ∧
    (∀ x c, answerable s t [1] = some x → x.forced = none →
      let i : Instr := .writeResponse t c
      let u := (noted x c).dropTxn t
      (c = 5 → x.retries < retries x → exec i s = .next ((counted x).modTxn x.id (fun y => { y with stage := .retry }))) ∧
      (∀ e k n, x.purpose = .data e k n →
        (c = 0 → exec i s = .next (settle (s.eng e).ch (dataDone e x n 0 (s.dropTxn t)))) ∧
        (final x c → exec i s = .next (settle (s.eng e).ch (dataDone e x n (code c) u)))) ∧
      (∀ ch, x.purpose = .release ch → (s.chan ch).relTxn = some x.id →
        (c = 0 → exec i s = .next (settle ch ((s.dropTxn t).modChan ch (fun d => { d with relAck := some 0 })))) ∧
        (final x c → (u.chan ch).relTxn = some x.id → exec i s = .next (settle ch (u.modChan ch (fun d =>
          { d with relAck := some (code c), relHeld := true, ringDue := true })))))) ∧
    (∀ (e : EngId) (x : Txn) (n : Bool) (c : BitVec 3), x.discard = false → (s.eng e).paused = false →
      let y := s.eng e
      let u := dataDone e x n c s
      u.eng e = (if c = 0 then (if n = true ∧ y.phase ≠ .stopping 0x32 ∧ x.torn = false then { y with acked := y.acked + x.n } else y)
        else { y with wErr := match y.wErr with
          | some q => if q.1 < x.id then some q else some (x.id, c, x.addr)
          | none => some (x.id, c, x.addr) }) ∧
      (∀ f, f ≠ e → u.eng f = s.eng f) ∧ u.chans = s.chans ∧ u.txns = s.txns)

/-- Snoops and coherent answers (R457 to R467, R491, Table 12-16): while CORE works and nothing clamps its pins, a snoop is answered by the line's state, with its data when it is
modified, and leaves it shared or invalid; while a WriteBack, an Evict or a read of the line is open the answers of Table 12-16's
last rows are given; EVICT_ACK and WB_ACK end their transactions, an error of an Evict is the port's alone and a RETRY waits; a
WriteBack that fails keeps its line modified with its data; a failed request is presented again, a read not before an Evict of its
line is answered, a WriteBack only while its line is still modified. -/
def Obligations.Coherence : Prop :=
  ∀ (s : State), s.boot.tstMode = false →
    (∀ (inval cp : Bool) (line : BitVec 58), snoopServed s = true →
      (∀ op : BitVec 3, 2 ≤ op.toNat → cohOpen s line.toNat op = false) →
      let v := s.line line.toNat
      ∃ u : State, exec (if inval then .snpInvalid cp line else .snpShared cp line) s = .next u ∧
        u.snpRsp = some { cp := cp, data := if v.st = .M then v.data else [],
                          code := match v.st with
                            | .I => 0
                            | .M => if inval then 2 else 3
                            | _ => if inval then 0 else 1 } ∧
        (u.line line.toNat).st = (if inval ∨ v.st = .I then .I else .S) ∧ (∀ l, l ≠ line.toNat → u.line l = s.line l) ∧
        u.txns = s.txns) ∧
    (∀ (inval cp : Bool) (line : BitVec 58), snoopServed s = true →
      let i : Instr := if inval then .snpInvalid cp line else .snpShared cp line
      (cohOpen s line.toNat 5 = true → exec i s = .next { s with snpRsp := some { cp := cp, code := 4, data := [] } }) ∧
      (cohOpen s line.toNat 5 = false → cohOpen s line.toNat 4 = true →
        exec i s = .next { s with snpRsp := some { cp := cp, code := 0, data := [] } }) ∧
      (cohOpen s line.toNat 5 = false → cohOpen s line.toNat 4 = false →
        cohOpen s line.toNat 2 = true ∨ cohOpen s line.toNat 3 = true → exec i s =
          .next { s.modLine line.toNat (fun _ => {}) with snpRsp := some { cp := cp, code := 0, data := [] } })) ∧
    (∀ t x, answerable s t [4] = some x → x.forced = none →
      exec (.evictAck ⟨t, 0⟩) s = .next (flushDone (s.dropTxn t)) ∧
      (∀ code : BitVec 3, 1 ≤ code.toNat → code.toNat ≤ 4 →
        exec (.evictAck ⟨t, code⟩) s = .next (flushDone ((portError x code s).dropTxn t))) ∧
      (x.retries < fld (s.reg (.portCfg x.port.toNat)) 24 8 → exec (.evictAck ⟨t, 5⟩) s = .next ((s.modPort x.port.toNat (fun q =>
        { q with retryCnt := satAdd q.retryCnt 1 })).modTxn x.id (fun y => { y with stage := .retry })))) ∧
    (∀ t x, answerable s t [5] = some x → x.forced = none → exec (.wbAck t 0) s = .next (flushDone (s.dropTxn t))) ∧
    (∀ (t : Nat) (x : Txn) (code : BitVec 3), answerable s t [5] = some x → x.forced = none → x.discard = false →
      1 ≤ code.toNat → code.toNat ≤ 4 →
      let u := portError x code s
      exec (.wbAck t code) s = .next (cohFailed x
        (install (sliceOf u ((x.wing.map BitVec.toNat).getD 0)) (x.addr.toNat / 64) .M x.data u))) ∧
    (∀ t x, s.txn t = some x → x.stage = .again → s.vitFlush = false →
      let l := x.addr.toNat / 64
      (x.op ≠ 5 → (∀ y ∈ s.txns, y.op = 4 ∨ y.op = 5 → y.addr ≠ x.addr) →
        exec (.coherentReissue t) s = .next (s.modTxn t (fun y => { y with stage := .atWing }))) ∧
      (x.op ≠ 5 → (∃ y ∈ s.txns, (y.op = 4 ∨ y.op = 5) ∧ y.addr = x.addr) → exec (.coherentReissue t) s = .next s) ∧
      (x.op = 5 → (s.line l).st ≠ .M → exec (.coherentReissue t) s = .next (flushDone (s.dropTxn t))) ∧
      (x.op = 5 → (s.line l).st = .M → exec (.coherentReissue t) s = .next ((s.modTxn t (fun y =>
        { y with stage := .atWing, data := (s.line l).data, beats := beatsOf y.port.toNat y.addr y.n })).modLine l (fun _ => {}))))

/-- Request lines (R316 to R323): while CORE runs, a rising edge of an EDGE line generates an event; a LEVEL line generates one
while it is high with nothing outstanding and no holdoff; a HANDSHAKE line generates one on a rise while it is not acknowledged,
and its acknowledge falls with the line; a line that is off generates none. While CORE does not run, a high level of a LEVEL or
HANDSHAKE line asks for CORE where it is not ON, and the AO latch of an EDGE line
takes its rise and asks for CORE; a rise that meets a set latch is lost. -/
def Obligations.RequestLines : Prop :=
  ∀ (n : BitVec 7) (lvl last : Bool) (s : State), s.boot.tstMode = false →
    let k := n.toNat
    let q := s.rq k
    let mode := fld (s.app (.rqCfg k)) 0 2
    let t := s.modRq k (fun x => { x with req := lvl, last := last })
    (coreUp s = true →
      (mode = 0 ∨ (mode = 1 ∧ (lvl = false ∨ q.req = true)) → exec (.requestLineChange n lvl last) s = .next t) ∧
      (mode = 1 → lvl = true → q.req = false → exec (.requestLineChange n lvl last) s = .next (rqEvent k t)) ∧
      (mode = 2 → exec (.requestLineChange n lvl last) s =
        .next (if lvl = true ∧ q.outst = false ∧ q.holdoff = false then rqEvent k t else t)) ∧
      (mode = 3 → lvl = true → q.req = false → q.ack = false →
        exec (.requestLineChange n lvl last) s = .next (rqEvent k t)) ∧
      (mode = 3 → lvl = true → q.req = true ∨ q.ack = true → exec (.requestLineChange n lvl last) s = .next t) ∧
      (mode = 3 → lvl = false → exec (.requestLineChange n lvl last) s = .next (t.modRq k (fun x => { x with ack := false }))) ∧
      (exec (.holdoffExpiry n) s = .next
        (let u := s.modRq k (fun x => { x with holdoff := false })
         if mode = 2 ∧ q.req = true ∧ q.outst = false then rqEvent k u else u)) ∧
      exec (.aoRequestLatch n) s = .next s) ∧
    (coreUp s = false → exec (.requestLineChange n lvl last) s =
      .next (if lvl = true ∧ (mode = 2 ∨ mode = 3) ∧ s.coreOn = false then beginWake 2 2 k t else t)) ∧
    (coreUp s = false → s.boot.rstN = false → s.boot.rstAo = false → rqMode s k = 1 → exec (.aoRequestLatch n) s = .next
      (if q.latch then s.modRq k (fun x => { x with lost := true })
       else beginWake 2 2 k (s.modRq k (fun x => { x with latch := true }))))

/-- Event outputs, interrupts, subscriptions and HALT_Q (R326, R327, R332, R333, R338 to R341): the end of a pulse's high time
starts its low time, and the end of that ends it; an interrupt line pends when its coalescing time, where it is not 0, has passed
since its first event; a write of 1 to a visible line's PEND clears it with its count and timer; SW_RAISE raises the producers
open to the access; a subscription write is refused, changes nothing, or stores the subscription with PEND and OVR clear; a secure
read of HALT_Q pops the channel halted first, and a non-secure one shows 0 and pops nothing. -/
def Obligations.OutputsAndInterrupts : Prop :=
  ∀ (s : State),
    (s.boot.tstMode = false → s.coreOn = true →
      (∀ m : BitVec 6, fld (s.app (.evoCfg m.toNat)) 0 2 = 1 → exec (.evoPulseEnd m) s = .next (s.modEvo m.toNat (fun v =>
        if v.level then { v with level := false, low := true } else { v with low := false }))) ∧
      (∀ (i : BitVec 5) (t : DWord), (s.irq i.toNat).timer = some t → 0 < fld (s.reg (.irqCoal i.toNat)) 16 16 →
        (fld (s.reg (.irqCoal i.toNat)) 16 16 * 1600 ≤ (s.now - t).toNat →
          exec (.irqCoalTimeout i) s = .next (s.modIrq i.toNat (fun q => { q with pend := true }))) ∧
        ((s.now - t).toNat < fld (s.reg (.irqCoal i.toNat)) 16 16 * 1600 → exec (.irqCoalTimeout i) s = .next s))) ∧
    (∀ (a : TpAttr) (d : Word), s.takes a true .irqPend → ∃ t, exec (.irqPendClear a d) s = wrote a t ∧ t.chans = s.chans ∧
      ∀ i, i < 32 → t.irq i = if bit d i && bit (irqVisible s a.sec) i then {} else s.irq i) ∧
    (∀ (a : TpAttr) (d : Word), s.takes a true .swRaise → exec (.swRaise a d) s = wrote a (emitT
      (((List.range 16).filter (fun k => bit d k && (a.sec || !bit (s.app .swSec) k))).map (fun k => 240 + k)) s)) ∧
    (∀ (a : TpAttr) (j : BitVec 10) (d : Word), s.takes a true (.subR j.toNat) →
      let n : Sub := { v := bit d 31, gate := bit d 30, ch := d.extractLsb' 16 12, ec := d.extractLsb' 0 8 }
      let o := s.sub j.toNat
      let same := o.v = n.v ∧ o.gate = n.gate ∧ o.ch = n.ch ∧ o.ec = n.ec
      (subRefused s j.toNat a.sec n = true → exec (.subWrite a j d) s = denied a (0x6000 + 8 * j.toNat) slverr s) ∧
      (subRefused s j.toNat a.sec n = false → same → exec (.subWrite a j d) s = wrote a s) ∧
      (subRefused s j.toNat a.sec n = false → ¬same → exec (.subWrite a j d) s =
        wrote a (touch n.ch (touch o.ch (rqRecheck (s.modSub j.toNat (fun _ => n))))))) ∧
    (∀ a : TpAttr, s.takes a false .haltQ →
      (a.sec = false → exec (.haltQRead a) s = gave a 0 s) ∧
      (a.sec = true → ∃ w t, exec (.haltQRead a) s = gave a w t ∧ t.evc = { s.evc with haltQ := s.evc.haltQ.tail, haltOvf := false } ∧
        t.chans = s.chans ∧ (bit w 31 = true ↔ s.evc.haltQ ≠ []) ∧ (bit w 30 = s.evc.haltOvf) ∧
        (∀ c r, s.evc.haltQ = c :: r → w.extractLsb' 0 12 = c)))

/-! ## Staging, control store, faults and Docent -/

/-- Staging and commit (R503 to R517, Tables 14-5 to 14-8): a write of an RWS register changes its staging copy alone, and is
refused while its set is locked; COMMIT is accepted while no other is open, locks its sets and starts the checks, and otherwise
sets DENIED; CANCEL ends an open commit before its boundary; REVERT returns unlocked staging copies; a failed check rejects with its reason; the
first boundary applies every copy of the named sets at once; TMO without a boundary expires the commit. -/
def Obligations.StagingAndCommit : Prop :=
  ∀ (s : State),
    (∀ (a : TpAttr) (addr : BitVec 20) (d : Word) (r : Reg) (k : Nat), s.takes a true r → addr.toNat % 4 = 0 →
      decodeReg s.wings addr.toNat = some r → r.stagedSet = some k → ecRefused s a.sec r = false →
      (bit s.stage.lock k = true → exec (.stagingWrite a addr d) s = denied a addr.toNat slverr s) ∧
      (bit s.stage.lock k = false → ∃ t, exec (.stagingWrite a addr d) s = wrote a t ∧
        t.stg r = storeFlds r.flds (s.stg r) (if r = .irqSec then masked (irqVisible s a.sec) (s.stg r) d else d) ∧
        (∀ q, q.addr ≠ r.addr → t.stg q = s.stg q) ∧ t.stage.app = s.stage.app ∧ t.stage.lock = s.stage.lock)) ∧
    (∀ (a : TpAttr) (d : Word), s.takes a true .commit →
      (commitOpen s = false → ∃ t, exec (.commit a d) s = wrote a t ∧ t.stage = { s.stage with
        st := .checking, seq := s.stage.seq + 1, sets := d.extractLsb' 16 16, lock := d.extractLsb' 16 16, src := d.extractLsb' 4 2,
        tmo := d.extractLsb' 8 4, secWr := a.sec, stage := false, reason := 0, boundary := false, late := [] }) ∧
      (commitOpen s = true → ∃ t, exec (.commit a d) s = wrote a t ∧ t.stage = { s.stage with denied := true }) ∧
      (commitOpen s = true → s.stage.boundary = false → ∃ t, exec (.cancel a d) s = wrote a t ∧
        t.stage = { s.stage with st := .cancelled, lock := 0, boundary := false, late := [] }) ∧
      (commitOpen s = false ∨ s.stage.boundary = true → exec (.cancel a d) s = wrote a s) ∧
      (∃ t, exec (.revert a d) s = wrote a t ∧ t.stage.app = s.stage.app ∧ t.stage.lock = s.stage.lock ∧
        (∀ r k, r.stagedSet = some k → decodeReg s.wings r.addr = some r →
          t.stg r = if bit d (16 + k) && !bit s.stage.lock k then s.app r else s.stg r))) ∧
    (∀ (a : TpAttr) (d : Word), s.takes a true .clampStat → ∃ t, exec (.clampLogClear a d) s = wrote a t ∧
      t.stage.clampOvf = false ∧ (∀ p ∈ t.stage.clamps, p.2.v = false) ∧ t.stage.clampTotal = s.stage.clampTotal ∧
      t.stage.clampNext = s.stage.clampNext ∧ t.stage.stg = s.stage.stg ∧ t.stage.app = s.stage.app) ∧
    (s.boot.tstMode = false → coreUp s = true →
      (s.stage.st = .checking → commitReason s false = 0 → ∃ t, exec .commitCheckDone s = .next t ∧
        t.stage = { s.stage with st := .pending, pendAt := s.projTime, boundary := false, late := [] }) ∧
      (s.stage.st = .checking → commitReason s false ≠ 0 → ∃ t, exec .commitCheckDone s = .next t ∧
        t.stage = { s.stage with st := .rejected, reason := BitVec.ofNat 8 (commitReason s false), lock := 0, boundary := false,
                                 late := [] }) ∧
      (s.stage.st = .pending → s.stage.boundary = true → commitReason s true = 0 →
        ∃ u : State, exec .commitBoundary s = .next (commitSequels s u) ∧ u.stage.st = .applied ∧ u.stage.stage = true ∧
          u.stage.lock = 0 ∧ u.stage.stg = s.stage.stg ∧ u.stage.epoch = s.stage.epochAt ∧
          (∀ r k, r.stagedSet = some k → decodeReg s.wings r.addr = some r →
            u.app r = if bit s.stage.sets k then s.stg r else s.app r)) ∧
      (s.stage.st = .pending → s.stage.boundary = true → commitReason s true ≠ 0 → ∃ t, exec .commitBoundary s = .next t ∧
        t.stage = { s.stage with st := .rejected, stage := true, reason := BitVec.ofNat 8 (commitReason s true), lock := 0,
                                 boundary := false, late := [] }) ∧
      (s.stage.st = .pending → s.stage.boundary = false → s.stage.tmo ≠ 0 →
        2 ^ (s.stage.tmo.toNat - 1) * 1600000 ≤ (s.projTime - s.stage.pendAt).toNat → ∃ t, exec .commitExpiry s = .next t ∧
          t.stage = { s.stage with st := .expired, lock := 0, boundary := false, late := [] }))

/-- Control store (R523 to R534, Tables 15-5 to 15-10): GO starts a load, or is refused while one runs; a reading that is not over
goes on; the first reading ends in the failing check's reason, or raises the targets and, once every one that can be raised is ON, ends in
empty target banks that are LOADING and a second reading; that ends in VALID banks that hold the image read, or in reason 0x0A where what was
read has changed; CANCEL ends the load; SWAP makes the other bank active when it holds an image;
a reloaded bank holds its image again, or is lost and its source asserts; a loaded bank holds 4,096 words, each with its check bits
(R518); SVN_MIN never falls. -/
def Obligations.ControlStoreLoads : Prop :=
  ∀ (s : State),
    (∀ (a : TpAttr) (d : Word), s.takes a true .loadCtrl →
      let run := s.loader.st = .verify ∨ s.loader.st = .write
      let t := s.setReg .loadCtrl (packW [(24, if 9 < fld d 24 4 then fld (s.reg .loadCtrl) 24 4 else fld d 24 4), (0, fld d 0 1)])
      (run → exec (.loadGo a d) s = denied a 0xB00C slverr s) ∧
      (¬run → exec (.loadGo a d) s = wrote a (loadStart (fld d 24 4) (bit d 0)
        (BitVec.ofNat 64 ((s.reg .loadAddrHi).toNat * 2 ^ 32 + (s.reg .loadAddrLo).toNat / 256 * 256)) (s.reg .loadGal) t)) ∧
      (¬run → exec (.loadCancel a d) s = wrote a t) ∧
      let gone : Loader := { s.loader with st := .cancelled, jobs := Tbl.put none s.loader.jobs 0 none }
      (s.loader.st = .verify → exec (.loadCancel a d) s = wrote a { t with loader := gone }) ∧
      (s.loader.st = .write → ∃ u, exec (.loadCancel a d) s = wrote a u ∧ u.loader = gone ∧
        ∀ g ∈ loadGals s, (bankOf u g s.loader.bank).st = .invalid ∧ (bankOf u g s.loader.bank).words = [])) ∧
    (∀ (a : TpAttr) (d : Word), s.takes a true .svnMin → ∃ t, exec (.svnMinWrite a d) s = wrote a t ∧
      fld (t.reg .svnMin) 0 16 = max (fld d 0 16) (fld (s.reg .svnMin) 0 16)) ∧
    (∀ (a : TpAttr) (g : BitVec 5) (d : Word), s.takes a true (.csCtrl g.toNat) → s.galPop g.toNat = true →
      let x := s.gal g.toNat
      let ok := (bankOf s g.toNat (!x.act)).st = .valid ∧ loadInvolves s g.toNat = false
      (ok → ∃ t, exec (.bankSwap a g d) s = wrote a t ∧ t.gal g.toNat = { x with act := !x.act } ∧
        (∀ k, k ≠ g.toNat → t.gal k = s.gal k) ∧ t.engs = s.engs) ∧
      (¬ok → exec (.bankSwap a g d) s = denied a (0xA0000 + 0x1000 * g.toNat) slverr s)) ∧
    (s.boot.tstMode = false → coreUp s = true →
      let l := s.loader
      (l.st = .verify → readOver s 0 = none → exec (.loadVerifyDone ()) s = .next (pumpLoads s)) ∧
      (l.st = .write → readOver s 0 = none → exec (.loadWriteDone ()) s = .next (pumpLoads s)) ∧
      (l.st = .verify → readOver s 0 = some none → exec (.loadVerifyDone ()) s = .next (loadFail 0x02 none s)) ∧
      (l.st = .write → readOver s 0 = some none → exec (.loadWriteDone ()) s = .next (loadFail 0x02 none s)) ∧
      (∀ b, readOver s 0 = some (some b) →
        (l.st = .verify → imgReason s b ≠ 0 → exec (.loadVerifyDone ()) s = .next (loadFail (imgReason s b) (some (imgId b)) s)) ∧
        (l.st = .verify → imgReason s b = 0 → (∃ g ∈ loadGals s, s.domOn (7 + g) = false ∧ cannotRaise s g = false) →
          exec (.loadVerifyDone ()) s = .next (raiseTargets s)) ∧
        (l.st = .verify → imgReason s b = 0 → (∀ g ∈ loadGals s, s.domOn (7 + g) = true ∨ cannotRaise s g = true) → ∃ u : State,
          exec (.loadVerifyDone ()) s = .next (startRead 0 (srcInst l.src.toNat) l.addr (256 + 16 * imgWords b) false u) ∧
          u.loader.st = .write ∧ u.loader.digest = sha384 (imgBody b (imgWords b)) ∧ u.loader.words = imgWords b ∧
          (∀ g < 32, bit u.loader.targets g = (bit l.targets g && s.domOn (7 + g)) ∧
            (bit u.loader.targets g = true → bankOf u g l.bank = Bank.emptied .loading (bankOf s g l.bank)) ∧
            (bit u.loader.targets g = false → u.gal g = s.gal g) ∧ bankOf u g (!l.bank) = bankOf s g (!l.bank))) ∧
        (l.st = .write → sha384 (imgBody b l.words) = l.digest → ∃ t, exec (.loadWriteDone ()) s = .next t ∧
          t.loader.st = .done ∧ t.loader.ok = l.targets ∧ jobOf t 0 = none ∧
          (∀ g, (g ∈ loadGals s → bankOf t g l.bank = Bank.filled l.src l.addr b (bankOf s g l.bank)) ∧
            (g ∉ loadGals s → t.gal g = s.gal g) ∧ bankOf t g (!l.bank) = bankOf s g (!l.bank))) ∧
        (l.st = .write → sha384 (imgBody b l.words) ≠ l.digest →
          exec (.loadWriteDone ()) s = .next (loadFail 0x0A (some (imgId b)) s))) ∧
      (∀ (g : BitVec 5) (b : Bool), s.domOn (7 + g.toNat) = true →
        let k := g.toNat
        let x := bankOf s k b
        let u := setJob (reloadKey k b) none s
        x.st = .reloading →
        (readOver s (reloadKey k b) = none → exec (.bankReload g b ()) s = .next (pumpLoads s)) ∧
        (∀ c, readOver s (reloadKey k b) = some (some c) → reloadOk s x c = true → x.words = [] →
          exec (.bankReload g b ()) s = .next (startReloads k (modBank k b (Bank.filled x.srcPort x.srcAddr c) u))) ∧
        (∀ c, readOver s (reloadKey k b) = some (some c) → reloadOk s x c = true → x.words ≠ [] → exec (.bankReload g b ()) s =
          .next (startReloads k (openRecovery (recov (32 + k) (b2n b) none) (modBank k b (Bank.filled x.srcPort x.srcAddr c) u)))) ∧
        (∀ r, readOver s (reloadKey k b) = some r → (∀ c, r = some c → reloadOk s x c = false) →
          exec (.bankReload g b ()) s = .next (startReloads k (assertFault (32 + k) (faultOf 9 (b2n b)) (loseBank k b u)))))) ∧
    (∀ (src : BitVec 4) (addr : DWord) (img : List Byte) (x : Bank), imgWords img ≤ 4096 →
      (Bank.filled src addr img x).words.length = 4096 ∧
      ∀ m ∈ (Bank.filled src addr img x).words, m.chkHi = Config.secDed (m.w.extractLsb' 64 64) ∧
        m.chkLo = Config.secDed (m.w.extractLsb' 0 64))

/-- What an assertion records (R549 to R555, Tables 16-4, 16-8): its count saturates; at severity 1 and above its PEND bit is set;
at 2 and above FCR is in the fault state, and the quiet period starts again; the first such error is captured and later ones
only counted; at 4, and at 3 in level mode, FLT_N's latch is set, and at 3 in pulse mode its pulse starts. -/
def Obligations.FaultRecording : Prop :=
  ∀ (n : Nat) (i : FaultInfo) (rail : Bool) (s : State),
    let sev := sevOf s n
    let f := s.fcr
    let g := (recordFault n i rail s).fcr
    Tbl.get 0 g.cnt n = satAdd (Tbl.get 0 f.cnt n) 1 ∧ (∀ k, k ≠ n → Tbl.get 0 g.cnt k = Tbl.get 0 f.cnt k) ∧
    (∀ k, k ≠ n → Tbl.get false g.pend k = Tbl.get false f.pend k) ∧ g.stuck = f.stuck ∧ g.asserted = f.asserted ∧
    g.unguarded = f.unguarded ∧
    (sev = 0 → g.pend = f.pend ∧ (recordFault n i rail s).ledger = s.ledger) ∧ (1 ≤ sev → Tbl.get false g.pend n = true) ∧
    (sev < 2 → g.active = f.active ∧ g.quietFrom = f.quietFrom ∧ g.feV = f.feV ∧ g.feOvf = f.feOvf ∧ g.feOvfCnt = f.feOvfCnt) ∧
    (2 ≤ sev → g.active = true ∧ g.quietFrom = s.now ∧ g.feV = true) ∧
    (2 ≤ sev → f.feV = false → g.feSev = BitVec.ofNat 3 sev ∧ g.feSrc = BitVec.ofNat 9 n ∧ g.feInfo = feWord i ∧ g.feAddr = i.addr ∧
      g.feTime = s.now ∧ g.feInj = i.inj ∧ g.feRail = rail ∧ g.feOvf = f.feOvf ∧ g.feOvfCnt = f.feOvfCnt) ∧
    (2 ≤ sev → f.feV = true → g.feSev = f.feSev ∧ g.feSrc = f.feSrc ∧ g.feInfo = f.feInfo ∧ g.feAddr = f.feAddr ∧
      g.feTime = f.feTime ∧ g.feOvf = true ∧ g.feOvfCnt = satAdd f.feOvfCnt 1) ∧
    (sev < 3 → g.latch = f.latch ∧ g.pulse = f.pulse) ∧
    (sev = 4 ∨ (sev = 3 ∧ fld (s.reg .fltCtrl) 0 2 = 0) → g.latch = true) ∧
    (sev = 3 → fld (s.reg .fltCtrl) 0 2 ≠ 0 → g.pulse = true ∧ g.latch = f.latch)

/-- Fault sources (R541, R542, R544, R557 to R560): an assertion while CORE runs is recorded, withholds a granted burst that its unit
formed at its address, and meets its reaction; a source that is already stuck records none; an engine's error cordons its slot; a rail fault makes its source stuck until it has been valid; a
quiet holding source lets its domains go on. A faulted engine's order waits for its writes, and then replays elsewhere, with
one more replay counted, or ends with 0x7F at RETRY_LIMIT, or with 0x41 where a capture could not be repeated. -/
def Obligations.FaultSources : Prop :=
  ∀ (s : State), s.boot.tstMode = false → fcrOn s = true →
    (∀ (n : SrcId) (i : FaultInfo), srcPresent s n.val = false →
      exec (.faultAssertion n i) s = .next s ∧ exec (.railFault n) s = .next s) ∧
    (∀ (n : SrcId) (i : FaultInfo), srcPresent s n.val = true →
      (srcStuck s n.val = true → exec (.faultAssertion n i) s = .next s) ∧
      (srcStuck s n.val = false → exec (.faultAssertion n i) s =
        .next (reactFault n.val { i with inj := false } (withhold n.val { i with inj := false }
          (recordFault n.val { i with inj := false } false s))))) ∧
    (∀ e : EngId, s.domOn (7 + e.g.toNat) = true → (s.slot e).st ≠ .retired → srcStuck s e.g.toNat = false →
      let i : FaultInfo := { ch := if (s.eng e).phase = .idle then none else some (s.eng e).ch, eng := some e, cls := 1, addr := 0,
                             inst := BitVec.ofNat 8 e.slot.val, inj := false }
      exec (.engineFault e) s = .next (slotFault e.g.toNat e (withhold e.g.toNat i (recordFault e.g.toNat i false s)))) ∧
    (∀ (n : Nat) (i : FaultInfo), (∀ t ∈ s.txns, t.stage = .granted → t.addr = i.addr → formedBy n i t = false) → withhold n i s = s) ∧
    (∀ n : SrcId,
      (srcStuck s n.val = true → exec (.railFault n) s = .next s) ∧
      (srcPresent s n.val = true → srcStuck s n.val = false → ∃ t : State, srcStuck t n.val = true ∧
        t = s.modFcr (fun f => { f with stuck := Tbl.put false f.stuck n.val true }) ∧ exec (.railFault n) s =
          .next (railReact n.val 0 (recordFault n.val { ch := none, eng := none, cls := 8, addr := 0, inst := 0, inj := false } true t))) ∧
      (∃ t, exec (.stuckSourceClear n) s = .next t ∧ srcStuck t n.val = false ∧
        (∀ k, k ≠ n.val → srcStuck t k = srcStuck s k) ∧ t.chans = s.chans ∧ t.engs = s.engs) ∧
      (srcStuck s n.val = true → exec (.faultSourceQuiet n) s = .next s) ∧
      (srcStuck s n.val = false → ∃ u : State, u = s.modFcr (fun f => { f with asserted := u.fcr.asserted }) ∧
        (∀ k : Nat, Tbl.get false u.fcr.asserted k =
          (Tbl.get false s.fcr.asserted k && !(if n.val = 283 then decide (320 ≤ k ∧ k < 400) else if n.val = 265 then decide (400 ≤ k)
            else k == n.val))) ∧
        let t := wakeAdvance u
        exec (.faultSourceQuiet n) s = .next (if domHeld s 2 = true ∧ coreUp t = true then wakeSamples t else t))) ∧
    (∀ e : EngId, (s.eng e).phase = .faulted →
      let x := s.eng e
      let c := s.chan x.ch
      let d := dropEffects e (discardReads e s)
      (writesOpen s e = true → exec (.replayReady e) s = .next s) ∧
      (writesOpen s e = false → x.capturing = true → exec (.replayReady e) s = .next (endFaulted e 0x41 d)) ∧
      (writesOpen s e = false → x.capturing = false → fld (s.app .rcvCfg) 12 4 ≤ c.replays →
        exec (.replayReady e) s = .next (endFaulted e 0x7F d)) ∧
      (writesOpen s e = false → x.capturing = false → c.replays < fld (s.app .rcvCfg) 12 4 →
        ∃ t, exec (.replayReady e) s = .next t ∧ (t.chan x.ch).eng = none ∧ (t.chan x.ch).replay = true ∧
          (t.chan x.ch).replays = c.replays + 1 ∧ (t.chan x.ch).st = (if c.st = .running then .waiting else c.st) ∧
          (t.chan x.ch).rel = c.rel ∧ (t.eng e).phase = .idle ∧ (t.eng e).effects = [] ∧ (∀ f, f ≠ e → t.eng f = s.eng f)))

/-- The fault state, FLT_N and injection (R552 to R556, R573 to R575): the pulse ends with its timer; RELEASE clears latch and
pulse; the fault state ends, and is counted, once nothing is open or stuck and the quiet period has passed; GO arms an
injection, unless the write is not secure, one is under way, the source is FS262 or FS263, or operation is unguarded; when its
checker sees it, BUSY clears and the assertion follows. -/
def Obligations.FaultState : Prop :=
  ∀ (s : State),
    (s.boot.tstMode = false → exec .fltPulseEnd s = .next (s.modFcr (fun f => { f with pulse := false }))) ∧
    (∀ (a : TpAttr) (d : Word), s.takes a true .fltCtrl → ∃ t, exec (.fltRelease a d) s = wrote a t ∧
      t.fcr = { s.fcr with latch := false, pulse := false } ∧ t.reg .fltCtrl = packW [(2, fld d 2 1), (0, fld d 0 2)]) ∧
    (s.boot.tstMode = false → fcrOn s = true → s.fcr.active = true → fcrSettled s = true →
      (fld (s.app .rcvCfg) 24 8 * 1600000 ≤ (s.now - s.fcr.quietFrom).toNat → ∃ t, exec .faultQuietEnd s = .next t ∧
        t.fcr = { s.fcr with active := false, exits := satAdd s.fcr.exits 1 }) ∧
      ((s.now - s.fcr.quietFrom).toNat < fld (s.app .rcvCfg) 24 8 * 1600000 → exec .faultQuietEnd s = .next s)) ∧
    (s.boot.tstMode = false → fcrOn s = true → fcrSettled s = false → exec .faultQuietEnd s = .next s) ∧
    (∀ (a : TpAttr) (d : Word), s.takes a true .injCtrl →
      let src := fld (s.reg .injSel) 16 9
      let bad := a.sec = false ∨ s.fcr.injBusy = true ∨ src = 262 ∨ src = 263 ∨ s.fcr.unguarded = true
      (bad → exec (.injectionGo a d) s = denied a 0xC030 slverr s) ∧
      (¬bad → ∃ t, exec (.injectionGo a d) s = wrote a t ∧ t.fcr = { s.fcr with
        injBusy := true, injSrc := BitVec.ofNat 9 src, injInst := BitVec.ofNat 8 (fld (s.reg .injSel) 8 8),
        injMode := d.extractLsb' 28 2 })) ∧
    (s.boot.tstMode = false → fcrOn s = true →
      let n := s.fcr.injSrc.toNat
      s.fcr.injBusy = true → n < 320 → srcPresent s n = true → s.domOn (srcDom n) = true →
        exec .injectionSeen s =
          .next (injFire n s.fcr.injInst.toNat s.fcr.injMode.toNat (s.modFcr (fun x => { x with injBusy := false }))))

/-- Docent's tests (R561 to R563, R582, R583, R585, R587, R602, R603): a test unit takes the recovery at the head of the queue; its test
starts once its domains are ON, and goes from step to step; the last step's passing ends it with a verdict that returns the unit; a
failing step whose rows can be replaced is repaired while spare rows remain, and passes; any other failing step, or the limit, is
lasting. The limit leaves out the time for which a request of the test waits at an arbiter, while it waits and once it is granted. A
DOC.CMD that cannot be done sets CMD_REJ and does nothing else; TEST cordons the slot and opens its recovery, RETIRE takes a
slot out of service, ROTATE makes the gallery's rotation due. -/
def Obligations.DocentTests : Prop :=
  ∀ (s : State),
    (∀ i : BitVec 2, s.boot.tstMode = false → docUp s = true →
      let k := i.toNat
      (∀ r q, docUnit s k = none → s.doc.queue = r :: q → r.step = 0 →
        ((recDoms r).all s.domOn = true → ∃ t, exec (.testStart i) s = .next t ∧ t.doc.queue = q ∧
          docUnit t k = some { r with step := 1, startAt := s.now } ∧ (∀ j, j ≠ k → docUnit t j = docUnit s j) ∧ t.engs = s.engs ∧
          (∀ e, t.slot e = if r.eng = some e then { s.slot e with tests := satAdd (s.slot e).tests 1 } else s.slot e)) ∧
        ((recDoms r).all s.domOn = false → exec (.testStart i) s =
          .next (raiseFor r (setUnit k (some r) (s.modDoc (fun d => { d with queue := q })))))) ∧
      (∀ r, docUnit s k = some r → r.step = 0 → (recDoms r).all s.domOn = true → ∃ t, exec (.testStart i) s = .next t ∧
        t.doc.queue = s.doc.queue ∧ docUnit t k = some { r with step := 1, startAt := s.now }) ∧
      (∀ r, docUnit s k = some r → r.step = 0 → (recDoms r).all s.domOn = false →
        exec (.testStart i) s = .next (raiseFor r (setUnit k (some r) s))) ∧
      (∀ r, docUnit s k = some r → r.step ≠ 0 → exec (.testStart i) s =
        .next (if r.step.toNat < (testOf r).1 then setUnit k (some { r with step := r.step + 1 }) s else s)) ∧
      (docUnit s k = none → s.doc.queue = [] → exec (.testStart i) s = .next s) ∧
      (∀ r, docUnit s k = some r → r.step ≠ 0 → r.bg = false →
        let u := setUnit k none s
        let left := Tbl.get 0 s.doc.rows (rowsOf r).1 < (rowsOf r).2
        let w := s.modDoc (fun d => { d with rows := Tbl.put 0 d.rows (rowsOf r).1 (Tbl.get 0 d.rows (rowsOf r).1 + 1) })
        (r.step.toNat = (testOf r).1 → exec (.testVerdict i .passed) s = .next (docVerdict (b2n r.repaired) 0 r true u)) ∧
        (r.step.toNat ≠ (testOf r).1 → exec (.testVerdict i .passed) s = .next s) ∧
        (r.step.toNat = (testOf r).2.2 → left → r.step.toNat ≠ (testOf r).1 → exec (.testVerdict i .repaired) s =
          .next (setUnit k (some { r with repaired := true, step := r.step + 1 }) w)) ∧
        (r.step.toNat = (testOf r).2.2 → left → r.step.toNat = (testOf r).1 → exec (.testVerdict i .repaired) s =
          .next (docVerdict 1 0 { r with repaired := true } true (setUnit k none w))) ∧
        (r.step.toNat ≠ (testOf r).2.2 ∨ ¬left → exec (.testVerdict i .repaired) s = .next s) ∧
        exec (.testVerdict i (.failed r.step)) s = .next (docVerdict 2 r.step.toNat r true u) ∧
        (∀ j, j ≠ r.step → exec (.testVerdict i (.failed j)) s = .next s) ∧
        ((testOf r).2.1 * 1600 ≤ testTicks s k r →
          exec (.testLimitExpiry i) s = .next (assertFault 264 (faultOf 6 k) (docVerdict 4 0 r true u))) ∧
        (testTicks s k r < (testOf r).2.1 * 1600 → exec (.testLimitExpiry i) s = .next s) ∧
        ((∀ t ∈ s.txns, docentWaits k t = false) → testTicks s k r = (s.now - r.startAt).toNat) ∧
        (∀ t ∈ s.txns, docentWaits k t = true → testTicks s k r ≤ (s.now - r.startAt).toNat - (s.now - t.since).toNat) ∧
        (∀ (a : Nat) (t : Txn) (g : Option (BitVec 5)) (st : TStage), t.purpose = .docent i g st →
          docUnit (docentGranted a t s) k = some { r with startAt := r.startAt + (s.now - t.since) }))) ∧
    (∀ (a : TpAttr) (d : Word), s.takes a true .docCmd →
      let g := fld d 0 5
      let e := engOf (g * 17 + fld d 8 5)
      let rej : State := s.modDoc (fun x => { x with cmdRej := true })
      (docCmdRej (setFld d 28 4 1) s = true → exec (.docTest a d) s = wrote a rej) ∧
      (docCmdRej (setFld d 28 4 2) s = true → exec (.docRetire a d) s = wrote a rej) ∧
      (docCmdRej (setFld d 28 4 3) s = true → exec (.docRotate a d) s = wrote a rej) ∧
      (docCmdRej (setFld d 28 4 1) s = false → exec (.docTest a d) s = wrote a
        (openRecovery { recov g e.slot.val (some e) with spareTest := true, wasRetired := (s.slot e).st == .retired }
          (traceWord 5 0 e false (s.modSlot e (fun x => { x with st := .cordoned }))))) ∧
      (docCmdRej (setFld d 28 4 2) s = false →
        ((s.slot e).st = .spare → exec (.docRetire a d) s = wrote a (s.modSlot e (fun x => { x with st := .retired }))) ∧
        ((s.slot e).st ≠ .spare → (s.eng e).phase = .idle → (s.gal e.g.toNat).rotOut ≠ some e.slot →
          exec (.docRetire a d) s = wrote a (retireSlot e s)) ∧
        ((s.slot e).st ≠ .spare → (s.eng e).phase ≠ .idle ∨ (s.gal e.g.toNat).rotOut = some e.slot → ∃ t, exec (.docRetire a d) s = wrote a t ∧
          (t.slot e).st = .draining ∧ e.slot ∈ (t.gal e.g.toNat).retiring ∧ (∀ f, f ≠ e → t.slot f = s.slot f) ∧ t.engs = s.engs)) ∧
      (docCmdRej (setFld d 28 4 3) s = false → exec (.docRotate a d) s = wrote a (s.modGal g (fun x => { x with rotDue := true }))))

/-- Wear rotation (R578, R590 to R594, R602): a rotation falls due when its period has passed; it starts with the test of the
next spare, which is held CORDONED meanwhile; once that has passed the most worn slot drains, and a failure asserts the gallery's source; once the drained slot is idle the spare serves in its
place, and the rotation is counted; a drain that lasts DRAIN_MAX, or a gallery that closes, gives it up; a whole hour in
service raises WEAR, which saturates. (That a rotation is given up where the tested spare is SPARE no more is the model's choice:
log entry 64.) -/
def Obligations.WearRotation : Prop :=
  ∀ (s : State), s.boot.tstMode = false → docUp s = true →
    (∀ g : BitVec 5,
      let k := g.toNat
      let x := s.gal k
      (s.galPop k = true → rotOn s = true → rotElapsed s k = true →
        exec (.rotationDue g) s = .next (s.modGal k (fun y => { y with rotDue := true }))) ∧
      (rotElapsed s k = false → exec (.rotationDue g) s = .next s) ∧
      (∀ (e : EngId) (n : Nat) (pass : Bool), s.galPop k = true → x.rotDue = true → rotOn s = true → x.rotOut = none → x.rotIn = none →
        s.domOn (7 + k) = true → s.domOn (3 + k / 8) = true → (s.dom (7 + k)).entering = false → galRecovers s k = false →
        spareOf s k = some e → freeUnit s = some n → bgRuns s (recov k e.slot.val (some e)) = none →
        ∃ t, exec (.rotationStart g pass) s = .next t ∧ (t.gal k).rotIn = some e.slot ∧ (t.gal k).rotOut = none ∧
          (t.slot e).st = .cordoned ∧ (t.slot e).tests = satAdd (s.slot e).tests 1 ∧ (∀ f, f ≠ e → t.slot f = s.slot f) ∧
          docUnit t n = some { recov k e.slot.val (some e) with bg := true, step := 1, startAt := s.now } ∧ t.engs = s.engs) ∧
      (∀ (y : Fin 17) (n : Nat) (r : Recovery), x.rotOut = none → x.rotIn = some y →
        let e : EngId := { g := g, slot := y }
        bgRuns s (recov k y.val (some e)) = some (n, r) → r.eng = some e → r.src.val = k → r.step ≠ 0 →
        (∀ q : EngId, r.step.toNat = (testOf r).1 → mostWorn s k = some q → (s.slot e).st = .cordoned → 16 ≤ inService s k →
          ∃ t, exec (.rotationStart g true) s = .next t ∧ (t.gal k).rotOut = some q.slot ∧ (t.gal k).rotIn = some y ∧
            (t.gal k).rotAt = s.now ∧ (t.slot q).st = .draining ∧ (t.slot e).st = .spare ∧ docUnit t n = none ∧
            (∀ f, f ≠ e → f ≠ q → t.slot f = s.slot f) ∧ t.engs = s.engs) ∧
        (r.step.toNat ≠ (testOf r).1 → exec (.rotationStart g true) s = .next s) ∧
        (let v := (setUnit n none s).modGal k (fun z => { z with rotIn := none })
         exec (.rotationStart g false) s = .next (assertFault k (engInfo v e 1 false) v))) ∧
      (∀ r q : Fin 17, x.rotOut = some r → x.rotIn = some q → x.retiring = [] →
        let e : EngId := { g := g, slot := r }
        let f : EngId := { g := g, slot := q }
        ((s.eng e).phase ≠ .idle → exec (.rotationSwap g) s = .next s) ∧
        ((s.eng e).phase = .idle → (s.slot f).st = .spare → r ≠ q → ∃ t, exec (.rotationSwap g) s = .next t ∧
          (t.slot e).st = .spare ∧ (t.slot f).st = .service ∧ (∀ j, j ≠ e → j ≠ f → t.slot j = s.slot j) ∧
          (t.gal k).rotOut = none ∧ (t.gal k).rotIn = none ∧ (t.gal k).rotDue = false ∧ (t.gal k).rotLast = s.now ∧
          t.doc.rotDone = s.doc.rotDone + 1) ∧
        ((s.eng e).phase = .idle → (s.slot f).st ≠ .spare → exec (.rotationSwap g) s = .next (abandonRot k r s)) ∧
        (fld (s.reg .rotCfg) 16 8 * 1600000 ≤ (s.now - x.rotAt).toNat ∨ (s.dom (7 + k)).entering = true →
          ∃ t, exec (.rotationAbandon g) s = .next t ∧ (t.gal k).rotOut = none ∧ (t.gal k).rotIn = none ∧
            (t.slot e).st = .service ∧ t.doc.rotAbandoned = satAdd s.doc.rotAbandoned 1 ∧ (∀ j, j ≠ e → t.slot j = s.slot j)))) ∧
    (∀ e : EngId, s.galPop e.g.toNat = true → s.domOn (7 + e.g.toNat) = true → (s.slot e).st = .service ∨ (s.slot e).st = .draining →
      exec (.wearHourTick e) s = .next (s.modSlot e (fun x => { x with wear := satAdd x.wear 1 })))

/-- Checks in service (R588, R595 to R598, R654): a periodic test of a spare slot, of an idle comparator pair or of an unclaimed AES
pipeline begins when its period has passed, a test unit is free and the unit may be tested; a slot is held CORDONED meanwhile; one that
passes leaves only the count of a slot's tests, and one that fails asserts the unit's source; a scrub access moves the sweep of its
gallery's, wing's or core array on, counts a corrected word, and reports it or an uncorrectable one; calibrations note their time; a
sensor's sample is kept, and the first at TEMP_LIM or above sets OVER. -/
def Obligations.ChecksInService : Prop :=
  ∀ (s : State), s.boot.tstMode = false → docUp s = true →
    (perOn s = true → ∀ (n : Nat) (pass : Bool), freeUnit s = some n →
      (∀ e : EngId,
        let r := recov e.g.toNat e.slot.val (some e)
        let period := fld (s.reg .rotCfg) 8 8
        bgRuns s r = none → s.galPop e.g.toNat = true → period ≠ 0 → (s.slot e).st = .spare → (s.dom (7 + e.g.toNat)).entering = false →
        (s.gal e.g.toNat).rotIn = none → period * 96000000000 ≤ (s.now - Tbl.get 0 s.doc.bgAt (e.g.toNat * 17 + e.slot.val)).toNat →
        ∃ t, exec (.periodicSpareTest e pass) s = .next t ∧ (t.slot e).st = .cordoned ∧
          Tbl.get 0 t.doc.bgAt (e.g.toNat * 17 + e.slot.val) = s.now ∧ (∀ f, f ≠ e → t.slot f = s.slot f) ∧ t.engs = s.engs ∧
          (s.domOn (7 + e.g.toNat) = true → s.domOn (3 + e.g.toNat / 8) = true → (t.slot e).tests = satAdd (s.slot e).tests 1 ∧
            docUnit t n = some { r with bg := true, step := 1, startAt := s.now })) ∧
      (∀ k : BitVec 6,
        let r := recov (234 + k.toNat / 8) (k.toNat % 8) none
        bgRuns s r = none → s.domOn 1 = true → (s.pair k.toNat).ch = none → (s.sc k.toNat).arm = false → scReserved s k.toNat = false →
        pairCordoned s k.toNat = false → 1600000000 ≤ (s.now - Tbl.get 0 s.doc.bgAt (1024 + k.toNat)).toNat →
        exec (.periodicComparatorTest k pass) s = .next (setUnit n (some { r with bg := true, step := 1, startAt := s.now })
          (s.modDoc (fun d => { d with bgAt := Tbl.put 0 d.bgAt (1024 + k.toNat) s.now })))) ∧
      (∀ (g : BitVec 5) (p : Bool),
        let r := recov (64 + g.toNat) (b2n p) none
        let key := 2048 + 2 * g.toNat + b2n p
        bgRuns s r = none → s.domOn (7 + g.toNat) = true → s.domOn (3 + g.toNat / 8) = true → s.galPop g.toNat = true →
        (s.dom (7 + g.toNat)).entering = false → galCordoned s g.toNat = false → pipeOk s g.toNat p = true →
        pipeClaimed s g.toNat p = false → 1600000000 ≤ (s.now - Tbl.get 0 s.doc.bgAt key).toNat →
        exec (.periodicAesTest g p pass) s = .next (setUnit n (some { r with bg := true, step := 1, startAt := s.now })
          (s.modDoc (fun d => { d with bgAt := Tbl.put 0 d.bgAt key s.now }))))) ∧
    (∀ (g : BitVec 5) (p pass : Bool), pipeClaimed s g.toNat p = true → bgRuns s (recov (64 + g.toNat) (b2n p) none) = none →
      exec (.periodicAesTest g p pass) s = .next s) ∧
    (∀ (n : Nat) (r : Recovery), r.step ≠ 0 →
      let u := setUnit n none s
      (∀ e : EngId, bgRuns s (recov e.g.toNat e.slot.val (some e)) = some (n, r) → r.eng = some e → r.src.val = e.g.toNat →
        (s.gal e.g.toNat).rotIn = none →
        (r.step.toNat = (testOf r).1 → exec (.periodicSpareTest e true) s = .next (returnSlot e u)) ∧
        (r.step.toNat ≠ (testOf r).1 → exec (.periodicSpareTest e true) s = .next s) ∧
        exec (.periodicSpareTest e false) s = .next (assertFault e.g.toNat (engInfo u e 1 false) u)) ∧
      (∀ k : BitVec 6, bgRuns s (recov (234 + k.toNat / 8) (k.toNat % 8) none) = some (n, r) → r.eng = none → 96 ≤ r.src.val →
        (r.step.toNat = (testOf r).1 → exec (.periodicComparatorTest k true) s = .next u) ∧
        exec (.periodicComparatorTest k false) s = .next (assertFault r.src.val (faultOf 9 r.inst.toNat) u)) ∧
      (∀ (g : BitVec 5) (p : Bool), bgRuns s (recov (64 + g.toNat) (b2n p) none) = some (n, r) → r.eng = none → r.src.val < 96 →
        (r.step.toNat = (testOf r).1 → exec (.periodicAesTest g p true) s = .next u) ∧
        exec (.periodicAesTest g p false) s = .next (assertFault r.src.val (faultOf 1 r.inst.toNat) u))) ∧
    (∀ (arr : ScrubArray) (idx : Nat) (o : ScrubOutcome), bit (s.reg .docCfg) 31 = true →
      let at_ := (scrubAt arr idx).2
      let key := 64 * (scrubKey arr).1 + (scrubAt arr idx).1
      fld (s.reg .scrubCfg) (scrubKey arr).2 4 ≠ 0 → Tbl.get 0 s.doc.scrubPos key = at_ → idx < scrubWords arr →
      s.domOn (scrubDom arr idx) = true →
      let last := o.lastWord = true ∨ at_ + 1 = scrubLen arr
      ∃ t : State, Tbl.get 0 t.doc.scrubPos key = (if last then 0 else at_ + 1) ∧
        (∀ j, j ≠ key → Tbl.get 0 t.doc.scrubPos j = Tbl.get 0 s.doc.scrubPos j) ∧
        t.doc.sweeps = (if last then s.doc.sweeps + 1 else s.doc.sweeps) ∧
        t.doc.corr = (if o.corrected = true ∧ o.bad = false then satAdd s.doc.corr 1 else s.doc.corr) ∧ t.fcr = s.fcr ∧
        t.chans = s.chans ∧ t.engs = s.engs ∧
        exec (.scrubAccess arr idx o) s = .next (if o.bad then scrubUe arr idx t else if o.corrected then scrubCe arr idx t else t)) ∧
    (bit (s.reg .docCfg) 29 = true →
      (s.domOn 1 = true → exec .interpolatorCalibration s = .next (s.modDoc (fun d => { d with interpAt := some s.now })) ∧
        exec .atclkCalibration s = .next (s.modDoc (fun d => { d with atclkAt := some s.now }))) ∧
      (∀ l : BitVec 5, (s.link l).st = .active → exec (.linkCalibration l) s =
        .next (s.modDoc (fun d => { d with linkAt := Tbl.put none d.linkAt l.toNat (some s.now) }))) ∧
      (∀ (dm : DomId) (temp volt : BitVec 12), 2 ≤ dm.val → s.domOn dm.val = true → ∃ t, exec (.sensorSample dm temp volt) s = .next t ∧
        Tbl.get {} t.mst.sns dm.val = { temp := temp, volt := volt, valid := true } ∧
        (∀ j, j ≠ dm.val → Tbl.get {} t.mst.sns j = Tbl.get {} s.mst.sns j) ∧
        (t.mst.tempOver = true ↔ (s.mst.tempOver = true ∨ (BitVec.ofNat 12 (fld (s.reg .tempLim) 0 12)).toInt ≤ temp.toInt)) ∧
        (s.mst.tempOver = true → t.mst.tempDom = s.mst.tempDom ∧ t.ledger = s.ledger)) ∧
      (∀ (g : BitVec 5) (freq : BitVec 20), s.domOn (7 + g.toNat) = true → ∃ t, exec (.ageingSample g freq) s = .next t ∧
        Tbl.get 0 t.mst.age g.toNat = freq ∧ (∀ j, j ≠ g.toNat → Tbl.get 0 t.mst.age j = Tbl.get 0 s.mst.age j)))

/-! ## Management, links and power -/

/-- The Ledger (R644 to R651): the writer gives the record at the head of its queue the next sequence number, 0 skipped, and its
slot; a record enters the queue behind the others, those of its own cycle in ascending CODE order, and one that finds 16 there
is dropped and counted; a drop count follows once there is room; a closing rate window reports what it suppressed; OP_TIME counts
seconds; a software code is recorded unless it is out of its range or secure; CLEAR empties the slots; each seed is added once; a read of
LG_DATA(0) takes the snapshot of the selected slot. -/
def Obligations.LedgerRecords : Prop :=
  ∀ (s : State),
    let l := s.ledger
    let q1 : Word := if l.head + 1 = 0 then 1 else l.head + 1
    let queued := fun (q q' : List LgRec) (x : LgRec) => ∃ u v : List LgRec, q = u ++ v ∧ q' = u ++ x :: v ∧
      (∀ y ∈ v, y.time = x.time ∧ x.code.toNat < y.code.toNat) ∧
      (∀ y, u.getLast? = some y → y.time = x.time → y.code.toNat ≤ x.code.toNat)
    (∀ (code sev : Nat) (inj : Bool) (lo hi : Word),
      let t := lgEnqueue code sev inj lo hi s
      (l.queue.length < 16 → (∃ x : LgRec, queued l.queue t.ledger.queue x ∧ x.code = BitVec.ofNat 16 code ∧ x.dataLo = lo ∧
        x.dataHi = hi ∧ x.time = s.projTime ∧ x.opTime = l.opTime ∧ x.pwrCyc = l.pwrCyc) ∧ t.ledger.drop = l.drop) ∧
      (l.queue.length = 16 → t.ledger.queue.length = 16 ∧ t.ledger.drop = satAdd l.drop 1 ∧ t.ledger.dropDue = l.dropDue + 1) ∧
      t.ledger.recs = l.recs ∧ t.ledger.head = l.head) ∧
    (s.boot.tstMode = false → s.boot.rstAo = false →
      (l.queue = [] → exec .ledgerRecordWrite s = .next s) ∧
      (∀ r q, l.queue = r :: q → ∃ t, exec .ledgerRecordWrite s = .next t ∧ t.ledger.head = q1 ∧
        Tbl.get {} t.ledger.recs ((q1 - 1).toNat % 2048) = { r with seq := q1 } ∧
        (∀ k, k ≠ (q1 - 1).toNat % 2048 → Tbl.get {} t.ledger.recs k = Tbl.get {} l.recs k) ∧ t.chans = s.chans ∧
        (l.dropDue = 0 → t.ledger.queue = q) ∧
        (0 < l.dropDue → q.length < 16 → t.ledger.dropDue = 0 ∧ ∃ x : LgRec, queued q t.ledger.queue x ∧ x.code = 6 ∧
          x.dataLo = BitVec.ofNat 32 l.dropDue)) ∧
      exec .opTimeTick s = .next { s with ledger := { l with opTime := l.opTime + 1 } } ∧
      (∀ (code : BitVec 16) (w : LgWin), Tbl.get none l.wins (lgKey code.toNat) = some w →
        (fld (s.reg .lgRate) 0 16 * 12800000 ≤ l.up - w.t0 → ∃ t, exec (.ledgerWindowClose code) s = .next t ∧
          Tbl.get none t.ledger.wins (lgKey code.toNat) = none ∧ t.ledger.recs = l.recs ∧
          (w.m = 0 → t.ledger.queue = l.queue) ∧
          (0 < w.m → l.queue.length < 16 → ∃ x : LgRec, queued l.queue t.ledger.queue x ∧ x.code = 3 ∧
            x.dataHi = BitVec.ofNat 32 w.m ∧ (lgKey code.toNat ≠ 0x8000 → x.dataLo = BitVec.ofNat 32 (lgKey code.toNat)))) ∧
        (l.up - w.t0 < fld (s.reg .lgRate) 0 16 * 12800000 → exec (.ledgerWindowClose code) s = .next s))) ∧
    (∀ (a : TpAttr) (d : Word), s.takes a true .lgSwCode →
      let c := d.toNat % 65536
      (c < 0x8000 ∨ (a.sec = false ∧ 0xC000 ≤ c) → exec (.lgSwCodeWrite a d) s = denied a 0x1024 slverr s) ∧
      (0x8000 ≤ c → (a.sec = true ∨ c < 0xC000) →
        exec (.lgSwCodeWrite a d) s = wrote a (lgRecord c 0 false (s.reg .lgSwLo) (s.reg .lgSwHi) s))) ∧
    (∀ (a : TpAttr) (d : Word),
      (s.takes a true .lgCtrl → ∃ t, exec (.lgClear a d) s = wrote a t ∧ t.ledger.recs = [] ∧ t.ledger.head = l.head) ∧
      (s.takes a true .lgSeedOpt → (l.seededOpt = true → exec (.lgSeedOptWrite a d) s = denied a 0x101C slverr s) ∧
        (l.seededOpt = false → ∃ t, exec (.lgSeedOptWrite a d) s = wrote a t ∧ t.ledger.opTime = l.opTime + d ∧
          t.ledger.pwrCyc = l.pwrCyc ∧ t.ledger.seededOpt = true ∧ t.ledger.recs = l.recs)) ∧
      (s.takes a true .lgSeedPwr → (l.seededPwr = true → exec (.lgSeedPwrWrite a d) s = denied a 0x1020 slverr s) ∧
        (l.seededPwr = false → ∃ t, exec (.lgSeedPwrWrite a d) s = wrote a t ∧ t.ledger.pwrCyc = l.pwrCyc + d ∧
          t.ledger.opTime = l.opTime ∧ t.ledger.seededPwr = true ∧ t.ledger.recs = l.recs)) ∧
      (s.takes a false (.lgData 0) →
        let r := Tbl.get {} l.recs ((s.reg .lgSel - 1).toNat % 2048)
        exec (.lgDataRead a) s = gave a r.seq { s with ledger := { l with snap := r } }))

/-- Link training (R345 to R349, R373 to R376, Tables 9-1, 9-2): EN starts or stops a link, RETRAIN returns it to DETECT; block
lock is kept per lane; a training block moves DETECT to TRAIN, TRAIN to CONFIG once both receivers are adapted, and RECOVERY
back to ACTIVE with a replay; until it has adapted, Tilzu's receiver asks for the presets in their order and then keeps one (which
is a free value, log entry 3; one block a preset, and RECOVERY on a training block in ACTIVE, are the model's: log entry 62); a lane
that fails in ACTIVE leaves its direction, received or transmitted, to the spare, by LSW where that is negotiated and through RECOVERY
otherwise, and with both lanes bad the link fails with cause 4; LSW moves reception; a timeout fails the link with its cause. -/
def Obligations.LinkTraining : Prop :=
  ∀ (l : BitVec 5) (s : State),
    let x := s.link l
    (∀ (a : TpAttr) (d : Word), s.takes a true (.linkCtrl l.toNat) →
      (∃ t, exec (.linkEnable a l d) s = wrote a t ∧ (x.st = .disabled → t.link l = x.toDetect) ∧
        (x.st ≠ .disabled → bit d 30 = false → t.link l = x) ∧ (∀ m, m ≠ l → t.link m = s.link m)) ∧
      (∃ t, exec (.linkDisable a l d) s = wrote a t ∧ (t.link l).st = .disabled ∧ (t.link l).replayBuf = [] ∧
        (t.link l).active = [] ∧ (t.link l).rx = x.rx ∧ (∀ m, m ≠ l → t.link m = s.link m)) ∧
      (bit d 31 = true → x.st = .failed ∨ x.st = .active ∨ x.st = .recovery →
        ∃ t, exec (.retrain a l d) s = wrote a t ∧ (t.link l).st = .detect ∧ (t.link l).rx = x.rx ∧
          (∀ m, m ≠ l → t.link m = s.link m))) ∧
    (s.boot.tstMode = false → linkOn s l = true →
      (∀ lane : Bool,
        (x.st ≠ .disabled → x.st ≠ .failed → exec (.blockLockAcquired l lane) s =
          .next (s.setLink l (if lane then { x with lockLane1 := true } else { x with lockLane0 := true }))) ∧
        (let y := if lane then { x with lockLane1 := false } else { x with lockLane0 := false }
         (x.st ≠ .active ∨ x.rxBad &&& laneBit lane ≠ 0 → exec (.blockLockLost l lane) s = .next (s.setLink l y)) ∧
         (x.st = .active → x.rxBad &&& laneBit lane = 0 →
           let u := s.setLink l { y with rxBad := x.rxBad ||| laneBit lane }
           (x.rxBad ||| laneBit lane = 3 → exec (.blockLockLost l lane) s = .next (linkFail l 4 u)) ∧
           (x.rxBad ||| laneBit lane ≠ 3 → lane ≠ x.rxLane → exec (.blockLockLost l lane) s = .next u) ∧
           (x.rxBad ||| laneBit lane ≠ 3 → lane = x.rxLane →
             let v := assertFault (230 + l.toNat / 8) (faultOf 7 (l.toNat % 8)) u
             exec (.blockLockLost l lane) s =
               .next (if x.hasLsw then v else linkRecover l (v.modLink l (fun z => { z with rxLane := !lane })))))) ∧
        (∀ q : BitVec 12, x.st = .active → x.hasLsw = true → x.rxBad &&& laneBit lane = 0 →
          exec (.lsw l lane q) s = .next (s.setLink l { x with rxLane := lane })) ∧
        (∀ q : BitVec 12, x.hasLsw = false → exec (.lsw l lane q) s = .next s)) ∧
      (∀ b : TsBlock, x.locked = true →
        let eq := fun (y : Link) =>
          let z := { y with
            txPreset := if b.eqReq.toNat < 8 then BitVec.ofNat 3 b.eqReq.toNat else y.txPreset, farAdapted := b.adapted }
          if y.adapted then z else { z with eqTried := min 8 (y.eqTried + 1), eqReq := eqOrder.getD y.eqTried y.eqReq }
        (x.st = .detect → exec (.ts l b) s = .next (s.setLink l (eq { x with st := .train, adapted := false, eqTried := 0 }))) ∧
        (x.st = .train → exec (.ts l b) s =
          .next (s.setLink l (if x.adapted && b.adapted then (eq x).toConfig else eq x))) ∧
        (x.st = .active → exec (.ts l b) s = .next (if b.state = 5 then linkRecover l s else s)) ∧
        (x.st = .recovery → exec (.ts l b) s = .next (linkReplay l (linkActivate l s)))) ∧
      (x.st = .train → x.adapted = false →
        let y := { x with adapted := true, eqTried := 8, eqReq := BitVec.ofNat 8 ((s.draw).1.toNat % 8) }
        exec (.eqAdapted l) s = .next ((s.draw).2.setLink l (if x.farAdapted then y.toConfig else y))) ∧
      (x.st ≠ .train ∨ x.adapted = true → exec (.eqAdapted l) s = .next s) ∧
      (x.st = .train → exec (.trainTimeout l) s = .next (linkFail l 2 s)) ∧
      (x.st = .config → exec (.configTimeout l) s = .next (linkFail l 2 s)) ∧
      (x.st = .recovery → exec (.recoveryTimeout l) s = .next (linkFail l 5 s)) ∧
      (x.st ≠ .train → exec (.trainTimeout l) s = .next s) ∧ (x.st ≠ .config → exec (.configTimeout l) s = .next s) ∧
      (x.st ≠ .recovery → exec (.recoveryTimeout l) s = .next s)) ∧
    (x.st = .active →
      let u := laneFault l (s.setLink l { x with txBad := x.txBad ||| laneBit x.txLane, txLane := !x.txLane, nakWin := [] })
      (x.txBad ||| laneBit x.txLane = 3 → txFailing l s = linkFail l 4 (s.setLink l { x with txBad := 3 })) ∧
      (x.txBad ||| laneBit x.txLane ≠ 3 → txFailing l s =
        if x.hasLsw then u.modLink l (fun y => { y with lswOut := some (!x.txLane, x.nextSeq) }) else linkRecover l u)) ∧
    (∀ c : BitVec 4, ((linkFail l c s).link l).st = .failed ∧ ((linkFail l c s).link l).failCause = c ∧
      ((linkFail l c s).link l).active = [] ∧ ((linkFail l c s).link l).rx = x.rx ∧
      (∀ m, m ≠ l → (linkFail l c s).link m = s.link m))

/-- Frames (R350 to R356, R359 to R363, R367 to R369, R373, R378): a frame that passes its CRC and form in sequence and within the
limits is accepted, and its effect follows: a sector's bytes, a status entry, new limits, the negotiated capability; a CRC
failure is counted and answered with a NAK, a form that fails (a reserved TYPE among them) or a gap with a NAK, a repeat with an acknowledgement. FLUSH empties the receive
buffer unless the owner is busy; RX_CFG is refused as R369 and R377 say; STQ_HDR pops the oldest status entry. -/
def Obligations.LinkFrames : Prop :=
  ∀ (l : BitVec 5) (s : State),
    let x := s.link l
    (∀ (i : Frame → Instr) (ty : Nat) (accept : Frame → State → State), s.boot.tstMode = false → linkOn s l = true →
      (i = .streamData l ∧ ty = 0x01 ∧
          accept = (fun f t => dataReady l (tmAdd 22 (userBytes f) (t.modLink l (rxDataLink f))))) ∨
        (i = .streamStatus l ∧ ty = 0x03 ∧ accept = (fun f t =>
          let u := t.modLink l (fun q => let y := retireRead (f.tinfo.truncate 16) q; { y with rdy := y.rdy && rdyNow t l.toNat y })
          stqPush l { mark := false, code := BitVec.ofNat 8 (byteAt (frameBytes f) 0), ctag := f.tinfo.truncate 16,
                      rcvd := (u.link l).rcvd, words := words32 (frameBytes f) 8 } u)) ∨
        (i = .mark l ∧ ty = 0x04 ∧ accept = (fun f t =>
          stqPush l { mark := true, code := 0, ctag := f.tinfo.truncate 16, rcvd := (t.link l).rcvd,
                      words := [(f.tinfo.extractLsb' 16 16).setWidth 32] } t)) ∨
        (i = .ack l ∧ ty = 0x80 ∧ accept = (fun _ t => t)) ∨
        (i = .credit l ∧ ty = 0x81 ∧ accept = (fun f t => configDone l (t.modLink l (fun y =>
          { y with dataLim := f.tinfo.extractLsb' 16 16, msgLim := f.tinfo.extractLsb' 8 8, credRx := true })))) ∨
        (i = .cap l ∧ ty = 0x82 ∧ accept = capTake l) →
      ∀ f : Frame, f.lane = x.rxLane → x.st = .active ∨ x.st = .config →
        (f.crcOk = false → exec (i f) s = .next (crcFail l f.lane s)) ∧
        (f.crcOk = true → frameForm ty f = true → f.len.toNat ≤ x.maxLen → (ty = 4 → x.hasMark = true) →
          (0x80 ≤ ty → exec (i f) s = .next (trailer l f (accept f s))) ∧
          (ty < 0x80 → f.seq = x.expected → withinLimits x ty f = true → exec (i f) s = .next (trailer l f (accept f (s.setLink l
            { x with expected := x.expected + 1, rxAny := true, nakOut := false, ackDue := true })))) ∧
          (ty < 0x80 → f.seq = x.expected → withinLimits x ty f = false → exec (i f) s = .next (crcFail l f.lane s)) ∧
          (ty < 0x80 → f.seq ≠ x.expected → (x.expected - f.seq).toNat ≤ 2048 →
            exec (i f) s = .next (trailer l f (s.setLink l { x with ackDue := true }))) ∧
          (ty < 0x80 → f.seq ≠ x.expected → 2048 < (x.expected - f.seq).toNat → x.nakOut = false →
            exec (i f) s = .next (trailer l f (s.setLink l { x with nakOut := true, nakCnt := satAdd x.nakCnt 1 })))) ∧
        (f.typeOk = false → frameForm ty f = false) ∧
        (f.crcOk = true → frameForm ty f = false ∨ x.maxLen < f.len.toNat ∨ (ty = 4 ∧ x.hasMark = false) → x.nakOut = false →
          exec (i f) s = .next (trailer l f (s.setLink l { x with nakOut := true, nakCnt := satAdd x.nakCnt 1 })))) ∧
    (∀ f : Frame, f.ackV = false →
      (f.nak = false → trailer l f s = s) ∧
      (f.nak = true → x.st = .active → ((nakSeen l s).link l).st = .active → trailer l f s = linkReplay l (nakSeen l s))) ∧
    (s.boot.tstMode = false → linkOn s l = true → x.st = .active →
      (x.replayBuf ≠ [] → fld (s.reg (.linkCtrl l.toNat)) 8 8 * 160 ≤ (s.now - x.ackAdvAt).toNat →
        exec (.linkReplayTimeout l) s = .next (linkReplay l s)) ∧
      (x.replayBuf = [] → exec (.linkReplayTimeout l) s = .next s) ∧
      exec (.ackFrameSend l) s = .next (s.setLink l { x with ackDue := false })) ∧
    (∀ (a : TpAttr) (d : Word), s.takes a true (.rxCmd l.toNat) →
      (ownerBusy s l.toNat = true → exec (.rxFlush a l d) s = denied a (0x1208C + 0x100 * l.toNat) slverr s) ∧
      (ownerBusy s l.toNat = false → ∃ t, exec (.rxFlush a l d) s = wrote a t ∧ (t.link l).rx = [] ∧ (t.link l).active = [] ∧
        (t.link l).stq = [] ∧ (t.link l).relWords = x.relWords + BitVec.ofNat 16 x.held ∧
        (t.link l).relMsgs = x.relMsgs + BitVec.ofNat 8 x.stq.length ∧ (∀ m, m ≠ l → t.link m = s.link m))) ∧
    (∀ (a : TpAttr) (d : Word), s.takes a true (.rxCfg l.toNat) →
      (rxCfgRefused s l.toNat d = true → exec (.rxCfgWrite a l d) s = denied a (0x12088 + 0x100 * l.toNat) slverr s) ∧
      (rxCfgRefused s l.toNat d = false → ∃ t, exec (.rxCfgWrite a l d) s = wrote a t ∧
        t.reg (.rxCfg l.toNat) = storeFlds (Reg.rxCfg l.toNat).flds (s.reg (.rxCfg l.toNat)) d ∧ (t.link l).rx = x.rx ∧
        (∀ m, m ≠ l → t.link m = s.link m))) ∧
    (∀ a : TpAttr, s.takes a false (.stqHdr l.toNat) →
      (x.stq = [] → exec (.stqHdrRead a l) s = gave a 0 s) ∧
      (∀ e r, x.stq = e :: r → exec (.stqHdrRead a l) s =
        gave a (packW [(31, 1), (30, b2n e.mark), (16, e.code.toNat), (0, e.ctag.toNat)])
          (s.setLink l { x with stq := r, stqPos := e.rcvd, stqData := e.words, relMsgs := x.relMsgs + 1 })))

/-- Leaving ON (R607, R610 to R619, Tables 18-4, 18-5): a request or the idleness of a domain that nothing keeps ON begins its
entry, and a request that finds a reason waits with PEND; the drain ends at abort point A, which a wake or a reason of Table
18-5 makes the end of the entry; a wake during the isolation ends it at point C, and during the save at B or C (the spec leaves
which: a free value, log entry 3); the cut leaves the domain in its target state, and CORE is raised at once by a request line that
stands high (R624). -/
def Obligations.LeavingOn : Prop :=
  ∀ (dm : DomId) (s : State),
    let d := dm.val
    let x := s.dom d
    (∀ (a : TpAttr) (v : Word), d ≠ 0 → a.sec = true → s.takes a true (.domCtrl d) →
      let w := storeFlds (Reg.domCtrl d).flds (s.reg (.domCtrl d)) v
      let t := s.setReg (.domCtrl d) w
      (fld w 30 2 = 1 → exec (.domCtrlWrite a dm v) s = wrote a (beginWake d 10 0 t)) ∧
      (fld w 30 2 = 2 → exec (.domCtrlWrite a dm v) s = wrote a (requestLeave d .ret t)) ∧
      (fld w 30 2 = 3 → exec (.domCtrlWrite a dm v) s = wrote a (requestLeave d .off t)) ∧
      (fld w 30 2 = 0 → exec (.domCtrlWrite a dm v) s = wrote a t)) ∧
    (∀ tg : DomSt, x.st = .on → x.step = .none →
      let works := 7 ≤ d ∧ d ≤ 38 ∧ onlyWork s d = true
      (staysOn s d = false ∨ works → ((requestLeave d tg s).dom d).step = .drain ∧ ((requestLeave d tg s).dom d).st = .on ∧
        ((requestLeave d tg s).dom d).target =
          (if d = 2 ∧ tg = .off ∧ ∃ p ∈ s.chans, p.2.st ≠ .free then .ret else tg)) ∧
      (staysOn s d = true → ¬ works → requestLeave d tg s = s) ∧
      ((leaveAsked s d).isSome → (pendOf s d = true ↔ staysOn s d = true))) ∧
    (x.st ≠ .on ∨ x.step ≠ .none → ∀ tg, requestLeave d tg s = s) ∧
    (s.boot.tstMode = false →
      (d ≠ 0 → x.st = .on → x.step = .none → s.boot.rstN = false → s.boot.ready = true →
        (∀ tg, leaveAsked s d = some tg → exec (.idleDlyExpiry dm) s = .next (requestLeave d tg s)) ∧
        (leaveAsked s d = none → fld (s.reg (.domCtrl d)) 30 2 ≠ 1 → staysOn s d = false → chanHolds s d = false →
          (∀ tg, idleTarget s d = some tg → exec (.idleDlyExpiry dm) s = .next (enterDom d tg s)) ∧
          (idleTarget s d = none → exec (.idleDlyExpiry dm) s = .next s)) ∧
        (leaveAsked s d = none → staysOn s d = true ∨ chanHolds s d = true ∨ fld (s.reg (.domCtrl d)) 30 2 = 1 → exec (.idleDlyExpiry dm) s = .next s)) ∧
      let gone := fun (k : Nat) (t : State) =>
        let u := t.modDom d (fun y => { y with step := .none, target := .on, lastAbort := BitVec.ofNat 2 k, abort := false,
                                               abortWhy := none })
        let v := wakeAdvance (if d = 2 then wakeSamples u else u)
        if 7 ≤ d ∧ d ≤ 38 then oppStep (1 + (d - 7) / 8) v else v
      (domHeld s d = true → exec (.domainDrainComplete dm) s = .next s ∧ exec (.entryAbandon dm) s = .next s ∧
        exec (.cutComplete dm) s = .next s) ∧
      (domHeld s d = false → x.step = .drain →
        (drained s d = false → exec (.domainDrainComplete dm) s = .next s) ∧
        (drained s d = true → abortDue s d = true → exec (.domainDrainComplete dm) s = .next (gone 1 s) ∧
          exec (.entryAbandon dm) s = .next (gone 1 s)) ∧
        (drained s d = true → abortDue s d = false → exec (.domainDrainComplete dm) s =
          .next (s.modDom d (fun y => { y with step := if x.target = .off then .save else .iso })))) ∧
      (abortDue s d = false → exec (.entryAbandon dm) s = .next s) ∧
      (domHeld s d = false → abortDue s d = true →
        (x.step = .iso → exec (.entryAbandon dm) s = .next (gone 3 s)) ∧
        (x.step = .save → exec (.entryAbandon dm) s = .next (gone (2 + (s.draw).1.toNat % 2) (s.draw).2))) ∧
      (domHeld s d = false → x.step = .save ∨ x.step = .iso → abortDue s d = false → x.target ≠ .on → ∃ t, exec (.cutComplete dm) s = .next t ∧
        (t.dom d).st = x.target ∧ (t.dom d).hold = false ∧
        (let stands := fun n : Nat => n < 128 ∧ (s.rq n).req = true ∧ (rqMode s n = 2 ∨ rqMode s n = 3)
         (d ≠ 2 ∨ (∀ n, ¬ stands n) → (t.dom d).step = .none) ∧
         (d = 2 → (∃ n, stands n) → s.boot.rstN = false → s.boot.rstAo = false → (t.dom d).waking = true)) ∧
        (39 ≤ d → ∀ l ∈ slgLinks (d - 39), x.target ≠ .off → t.link (BitVec.ofNat 5 l) = (s.link (BitVec.ofNat 5 l)).toDisabled) ∧
        (d = 1 → t.pcm.savedTick = s.tbs.time ∧ t.tbs.lock = .unlocked)) ∧
      (abortDue s d = true ∨ (x.step ≠ .save ∧ x.step ≠ .iso) → exec (.cutComplete dm) s = .next s))

/-- Waking, operating points and the PMI (R475, R479, R480, R608, R614, R621 to R630): a wake source raises a domain that is RET
or OFF with the domains it depends on, and is logged; rail, clock and settle follow one another; a domain from RET is then ON,
one from OFF after its restore; HOLD_RELEASE lets its ports go on; the alarm fires at its time and once; an acknowledged supply
has the requested level, and an acknowledgement that is late asserts FS265 once. -/
def Obligations.Waking : Prop :=
  ∀ (s : State),
    (s.boot.tstMode = false → ∀ dm : DomId,
      let d := dm.val
      let x := s.dom d
      (∀ (src : BitVec 4) (det : BitVec 13), wakeOk d src.toNat = true → s.boot.rstN = false → s.boot.rstAo = false →
        domPresent s d = true → (src.toNat = 6 ∨ src.toNat = 7 → autoWake s d = true) → (∀ k ∈ depsOf d, s.domOn k = true) →
        x.step = .none → x.st ≠ .on → (∀ k ∈ depsOf d, (s.dom k).step = .none) →
        ∃ t, exec (.wakeStart dm src det) s = .next t ∧ ((t.dom d).step = .supply ∨ (t.dom d).step = .rail) ∧
          (t.dom d).st = x.st ∧ (t.dom d).target = .on ∧ (t.dom d).logged = true ∧ t.pcm.wakeSrc = src ∧
          t.pcm.wakeDom = BitVec.ofNat 6 d ∧ t.pcm.wakeDetail = det) ∧
      (∀ (src : BitVec 4) (det : BitVec 13), wakeOk d src.toNat = false → exec (.wakeStart dm src det) s = .next s) ∧
      (wakeFree s d = false → exec (.wakeRailDone dm) s = .next s ∧ exec (.wakeClockDone dm) s = .next s ∧
        exec (.wakeSettleDone dm) s = .next s ∧ ∀ bad, exec (.restoreComplete dm bad) s = .next s) ∧
      (wakeFree s d = true →
        (x.step = .rail → exec (.wakeRailDone dm) s = .next (s.modDom d (fun y => { y with step := .clock }))) ∧
        (x.step = .clock → clockUp s d = true → exec (.wakeClockDone dm) s = .next (s.modDom d (fun y => { y with step := .settle }))) ∧
        (x.step = .clock → clockUp s d = false → exec (.wakeClockDone dm) s = .next s) ∧
        (x.step = .settle → s.boot.ready = true → exec (.wakeSettleDone dm) s =
          .next (if x.st = .off then s.modDom d (fun y => { y with step := .restore }) else becomeOn d s)) ∧
        (x.step = .restore → x.saved = true → exec (.restoreComplete dm false) s = .next (becomeOn d s) ∧
          exec (.restoreComplete dm true) s = .next (assertFault 267 (faultOf 2 d) (becomeOn d (savedReset d s)))) ∧
        (x.step = .restore → x.saved = false → ∀ bad, exec (.restoreComplete dm bad) s = .next (becomeOn d (savedReset d s)))) ∧
      (7 ≤ d → d ≤ 38 → x.st = .ret → ((becomeOn d s).dom d).st = .on ∧ ((becomeOn d s).dom d).wakes = x.wakes + 1 ∧
        ((becomeOn d s).dom d).hold = !(bit (polNow s d) 28 || x.relWaits) ∧
        ((s.gal (d - 7)).bankA.st ≠ .reloading → (s.gal (d - 7)).bankB.st ≠ .reloading → (becomeOn d s).gals = s.gals))) ∧
    (∀ (a : TpAttr) (hi : Bool) (v : Word), a.sec = true → s.takes a true (.holdRelease (b2n hi)) →
      ∃ t, exec (.holdRelease a hi v) s = wrote a t ∧ t.gals = s.gals ∧ ∀ d : Nat, d < 43 →
        t.dom d = if d / 32 = b2n hi ∧ bit v (d % 32) = true then
          (if (s.dom d).waking then { s.dom d with relWaits := true } else { s.dom d with hold := false }) else s.dom d) ∧
    (s.boot.tstMode = false →
      (s.pcm.alarmArm = true → alarmAt s ≤ s.projTime.toNat → ∃ t, exec .alarmFire s = .next t ∧ t.pcm.alarmArm = false ∧
        t.pcm.alarmFired = true) ∧
      (s.pcm.alarmArm = false ∨ s.projTime.toNat < alarmAt s → exec .alarmFire s = .next s) ∧
      (∀ x : SupId,
        ((s.sup x.val).clkStop = true → x.val ≠ 0 → exec (.oppClockRestart x) s =
          .next (oppStep x.val (s.modSup x.val (fun p => { p with clkStop := false, f := p.fTo })))) ∧
        ((s.sup x.val).clkStop = true → x.val = 0 → exec (.oppClockRestart x) s =
          .next (oppStep 0 (wakeSamples (lateActions (s.modSup 0 (fun p => { p with clkStop := false, f := p.fTo })))))) ∧
        ((s.sup x.val).clkStop = false → exec (.oppClockRestart x) s = .next s) ∧
        ((s.sup x.val).raiseWait = true → exec (.oppRaiseDelayExpiry x) s =
          .next (freqChange x.val (s.modSup x.val (fun p => { p with raiseWait := false })))) ∧
        ((s.sup x.val).raiseWait = false → exec (.oppRaiseDelayExpiry x) s = .next s) ∧
        (let p := s.sup x.val
         let opp := if p.v < oppTarget s x.val then p.v else oppTarget s x.val
         freqChange x.val s = s.modSup x.val (fun q =>
           if supFeeds s x.val then { q with clkStop := true, busy := true, fTo := opp } else { q with f := opp, busy := false }))) ∧
      (∀ x : Fin 9,
        ((s.sup x.val).vtog = (s.sup x.val).vack → exec (.pmiAck (.supply x)) s = .next s ∧ exec (.pmiAckTimeout (.supply x)) s = .next s) ∧
        ((s.sup x.val).vtog ≠ (s.sup x.val).vack →
          (∃ t, exec (.pmiAck (.supply x)) s = .next t ∧ (t.sup x.val).vack = (s.sup x.val).vtog ∧
            (x.val < 5 → (s.sup x.val).vreq ≠ 0 → (t.sup x.val).v = (s.sup x.val).vreq - 1)) ∧
          ((s.sup x.val).overdue = false → exec (.pmiAckTimeout (.supply x)) s =
            .next (assertFault 265 (faultOf 6 x.val) (s.modSup x.val (fun q => { q with overdue := true })))) ∧
          ((s.sup x.val).overdue = true → exec (.pmiAckTimeout (.supply x)) s = .next s))) ∧
      (∀ (c : Fin 5) (v : Bool),
        (∃ t, exec (.pmiAck (.clock c v)) s = .next t ∧ (t.clk c.val).ack = v ∧
          (∀ k, k ≠ c.val → (t.clk k) = (s.clk k)) ∧ ∀ d, (t.dom d).st = (s.dom d).st) ∧
        ((s.clk c.val).req ≠ (s.clk c.val).ack →
          exec (.pmiAckTimeout (.clock c v)) s = .next (assertFault 265 (faultOf 6 (9 + c.val)) s))))

/-- Resets, test and debug (R280, R481 to R484, R491, R497, R498, R644): `rst_ao_n` resets everything, and `rst_n` everything but
AO; its release latches the straps and requests the core's supply; once the supply and `refclk` are up TBS and CORE are ON, READY
is 1 and tick time starts at 0. Test operation empties the key cabinet; what follows is undefined until `rst_ao_n`, and the
model stops there (a stop is the model's choice, NOTES.md "Stops"). A debug halt stops the engines it reaches, and a step lets
each of them execute one instruction. -/
def Obligations.ResetsTestAndDebug : Prop :=
  ∀ (s : State),
    (∃ t, exec .rstAoAssert s = .next t ∧ t.boot.rstAo = true ∧ t.boot.rstN = true ∧ t.boot.straps = 0 ∧ t.boot.tstMode = false ∧
      t.ledger = State.reset.ledger ∧ t.doms = State.reset.doms ∧ t.chans = [] ∧ t.engs = [] ∧ t.gals = [] ∧ t.slots = [] ∧
      t.rw = [] ∧ t.stage = {} ∧ t.keys = [] ∧ t.links = [] ∧ t.txns = [] ∧ t.lines = [] ∧ t.pending = s.pending) ∧
    (∃ t, exec .rstAoRelease s = .next t ∧ t.boot.rstAo = false ∧ (s.boot.rstAo = false → t = s) ∧
      (s.boot.rstAo = true → t.ledger = State.reset.ledger ∧ t.boot.rstN = s.boot.rstN)) ∧
    exec .tapReset s = .next { s with boot := { s.boot with tapReset := true } } ∧
    (∃ t, exec .testModeEntry s = .next t ∧ t.boot.tstMode = true ∧ t.keys = [] ∧ (∀ d, (t.dom d).saved = false) ∧
      t.chans = s.chans ∧ t.ledger = s.ledger) ∧
    (s.boot.tstMode = true → ∀ i : Instr, i ≠ .rstAoAssert → i ≠ .rstAoRelease → i ≠ .tapReset → i ≠ .testModeEntry →
      exec i s = .fault .testOperation) ∧
    (s.boot.tstMode = false →
      (s.boot.rstN = true → exec .rstNAssert s = .next s) ∧
      (s.boot.rstN = false → ∃ t, exec .rstNAssert s = .next t ∧ t.boot.rstN = true ∧ t.boot.ready = false ∧
        t.boot.straps = s.boot.straps ∧ (t.dom 0).st = .on ∧ (∀ d, d ≠ 0 → (t.dom d).st = .off ∧ (t.dom d).step = .none) ∧
        t.chans = [] ∧ t.engs = [] ∧ t.gals = [] ∧ t.stage = {} ∧ t.keys = [] ∧ t.links = [] ∧ t.txns = [] ∧ t.lines = [] ∧
        t.fcr = {} ∧ t.tbs.time = 0 ∧ t.ledger.recs = s.ledger.recs ∧ t.ledger.head = s.ledger.head) ∧
      (∀ str : Word, s.boot.rstN = true → s.boot.rstAo = false → ∃ t, exec (.rstNRelease str) s = .next t ∧
        t.boot = { s.boot with rstN := false, straps := str, strapErr := Straps.err str } ∧
        (∀ d, d = 1 ∨ d = 2 → (t.dom d).waking = true ∧ (t.dom d).target = .on)) ∧
      (s.boot.rstN = false → s.boot.rstAo = false → s.boot.ready = false →
        (coreSupplied s = false → exec .resetSequenceComplete s = .next s) ∧
        (coreSupplied s = true → (tbSynth s = true → s.chans = []) → ∃ t, exec .resetSequenceComplete s = .next t ∧ t.boot.ready = true ∧ t.domOn 1 = true ∧
          t.domOn 2 = true ∧ t.tbs.time = 0 ∧ (tbSynth s = false → t.tbs.lock = .unlocked) ∧ (tbSynth s = true → t.tbs.lock = .synth))) ∧
      (∀ v, exec (.shellIsoChange v) s = .next { s with boot := { s.boot with shellIso := v } } ∧
        (v = true →
          let t : State := { s with boot := { s.boot with shellIso := v } }
          tzAlive t = false ∧ cpCohPin t = false ∧ dbgHalted t = false ∧ sbpMatcherOn t = false ∧ (∀ n, rqAckPin t n = false) ∧
            ∀ x, vreqPin t x = 0 ∧ vtogPin t x = false ∧ clkReqPin t x = false)) ∧
      (s.coreOn = true → (∀ v, ∃ t, exec (.dbgHalt v) s = .next t ∧ t.boot.dbgHalt = v ∧ t.chans = s.chans ∧ t.txns = s.txns ∧
          (∀ k ∈ s.engs.map Prod.fst, k < 544 → (t.eng (engOf k)).dbgStopped = (v && dbgAdmits s (s.eng (engOf k))) ∧
            (t.eng (engOf k)).dbgStep = false)) ∧
        (s.boot.dbgHalt = true → ∃ t, exec .dbgStep s = .next t ∧ t.chans = s.chans ∧
          (∀ k ∈ s.engs.map Prod.fst, k < 544 → (t.eng (engOf k)).dbgStep = (s.eng (engOf k)).dbgStopped)) ∧
        (s.boot.dbgHalt = false → exec .dbgStep s = .next s)))

/-- The sideband port (R623, R639 to R643, Table 19-4): WAKE_ADDR stretches and raises CORE, and is handed over once CORE is ready;
a stretch that lasts too long asserts FS282; a read command is acknowledged with its bytes and a PEC byte; a write command takes
effect when the master sends no PEC byte or one that holds, and is not acknowledged otherwise; RD and WR make the access at ADDR that
Table 20-2 judges, and advance ADDR where it is answered OKAY; an unknown command code is not acknowledged. TM_IDX above 63 and
LG_HEAD's clearing of LG_STAT are the model's readings (log entries 3 and 27). -/
def Obligations.SidebandCommands : Prop :=
  ∀ (s : State), s.boot.tstMode = false →
    let b := s.sbp
    let give := fun (code : Byte) (pre l : List Byte) (t : State) => t.modSbp (fun x =>
      { x with acked := true, out := l ++ [crc8 ([sbpAddr t false, code, sbpAddr t true] ++ pre ++ l)] })
    let block := fun (code : Byte) (l : List Byte) (t : State) => give code [BitVec.ofNat 8 l.length] l t
    let nack : State := s.modSbp (fun x => { x with acked := false, out := [] })
    let ack : State := s.modSbp (fun x => { x with acked := true, out := [] })
    let holds := fun (code : Byte) (l : List Byte) (p : Option Byte) => ∀ q, p = some q → q = crc8 ([sbpAddr s false, code] ++ l)
    let fails := fun (code : Byte) (l : List Byte) (p : Option Byte) => ∃ q, p = some q ∧ q ≠ crc8 ([sbpAddr s false, code] ++ l)
    (sbpMatcherOn s = true → ∃ t, exec .sbpAddressMatch s = .next t ∧
      (s.coreOn = true → s.boot.ready = true → (s.dom 2).step = .none → s.domOn 1 = true → (s.dom 1).step = .none →
        t.sbp = { b with stretch := false, active := true, acked := true }) ∧
      (s.coreOn = false → t.sbp = { b with stretch := true, active := false, acked := false })) ∧
    (sbpMatcherOn s = false → exec .sbpAddressMatch s = .next s) ∧
    (b.stretch = true → exec .sbpStretchTimeout s =
      .next (assertFault 282 (faultOf 6 0) (s.modSbp (fun x => { x with stretch := false, acked := false })))) ∧
    (b.stretch = false → exec .sbpStretchTimeout s = .next s) ∧
    exec .sbpStop s = .next (s.modSbp (fun x => { x with active := false })) ∧
    exec .sbpIdleTimeout s = .next (s.modSbp (fun x => { x with active := false })) ∧
    (sbpServes s = false → exec .info s = .next s ∧ exec .rd s = .next s ∧ exec .wrResp s = .next s ∧ exec .lgHead s = .next s ∧
      exec .lgRead s = .next s ∧ exec .tmRead s = .next s ∧
      ∀ d k p, exec (.addr d p) s = .next s ∧ exec (.wr d p) s = .next s ∧ exec (.lgSeq d p) s = .next s ∧ exec (.tmIdx k p) s = .next s) ∧
    (sbpServes s = true →
      (exec .info s = .next (block 0x01 (toLe 4 0x4B4C0512 ++ toLe 4 0x03012112 ++ toLe 4 (gstatWord s).toNat) s)) ∧
      (∀ (d : Word) (p : Option Byte), (1048576 ≤ d.toNat → exec (.addr d p) s = .next nack) ∧
        (d.toNat < 1048576 → (fails 0x02 (4 :: toLe 4 d.toNat) p → exec (.addr d p) s = .next nack) ∧
          (holds 0x02 (4 :: toLe 4 d.toNat) p → exec (.addr d p) s = .next (ack.modSbp (fun x => { x with addr := d.setWidth 20 }))))) ∧
      (bit (s.reg .sbpCfg) 0 = false → exec .rd s = .next (block 0x03 (toLe 4 0 ++ [1]) s)) ∧
      (bit (s.reg .sbpCfg) 0 = true → ∀ r t, coreAnswer (TpAttr.plain (bit (s.reg .sbpCfg) 2) 0) false b.addr 0 s = (r, t) →
        exec .rd s = .next (block 0x03 (toLe 4 r.data.toNat ++ [r.code.setWidth 8])
          (if r.code = okay then t.modSbp (fun x => { x with addr := x.addr + 4 }) else t))) ∧
      (∀ (d : Word) (p : Option Byte), (fails 0x04 (4 :: toLe 4 d.toNat) p → exec (.wr d p) s = .next nack) ∧
        (holds 0x04 (4 :: toLe 4 d.toNat) p →
          (bit (s.reg .sbpCfg) 1 = false → exec (.wr d p) s = .next (ack.modSbp (fun x => { x with wrResp := slverr }))) ∧
          (bit (s.reg .sbpCfg) 1 = true → ∀ r t, coreAnswer (TpAttr.plain (bit (s.reg .sbpCfg) 2) 0) true b.addr d ack = (r, t) →
            exec (.wr d p) s = .next ((if r.code = okay then t.modSbp (fun x => { x with addr := x.addr + 4 }) else t).modSbp
              (fun x => { x with wrResp := r.code }))))) ∧
      exec .wrResp s = .next (give 0x05 [] [b.wrResp.setWidth 8] s) ∧
      (let l := s.ledger
       exec .lgHead s = .next (block 0x10 (toLe 4 l.head.toNat ++ toLe 2 l.drop.toNat ++ toLe 2 l.supp.toNat)
         { s with ledger := { l with supp := 0, drop := 0 } })) ∧
      (∀ (d : Word) (p : Option Byte), (fails 0x11 (4 :: toLe 4 d.toNat) p → exec (.lgSeq d p) s = .next nack) ∧
        (holds 0x11 (4 :: toLe 4 d.toNat) p → exec (.lgSeq d p) s = .next (ack.modSbp (fun x => { x with lgSel := d })))) ∧
      (let r := Tbl.get {} s.ledger.recs ((b.lgSel - 1).toNat % 2048)
       exec .lgRead s = .next (block 0x12 (toLe 4 r.seq.toNat ++ toLe 2 r.code.toNat ++ toLe 2 r.flags.toNat ++ toLe 8 r.time.toNat ++
         toLe 4 r.opTime.toNat ++ toLe 4 r.pwrCyc.toNat ++ toLe 4 r.dataLo.toNat ++ toLe 4 r.dataHi.toNat) s)) ∧
      (∀ (k : Byte) (p : Option Byte), (fails 0x20 [k] p → exec (.tmIdx k p) s = .next nack) ∧
        (holds 0x20 [k] p →
          (k.toNat < 64 → exec (.tmIdx k p) s = .next (ack.modSbp (fun x => { x with tmIdx := k.setWidth 6 }))) ∧
          (64 ≤ k.toNat → ∃ t, exec (.tmIdx k p) s = .next t ∧ t.sbp.acked = true ∧ t.sbp.addr = b.addr))) ∧
      exec .tmRead s = .next (block 0x21 (toLe 8 (if 38 ≤ b.tmIdx.toNat then 0 else Tbl.get 0 s.mst.tm b.tmIdx.toNat).toNat) s) ∧
      (∀ (c : Byte) (l : List Byte) (p : Option Byte),
        c.toNat ∉ [0x01, 0x02, 0x03, 0x04, 0x05, 0x10, 0x11, 0x12, 0x20, 0x21] → sbpRun c l p s = nack))

/-! ## The time base -/

/-- Strobes, lock and epochs (R277, R283 to R295, R493, Tables 7-3, 7-6): an index with a valid spin starts acquisition; in ACQUIRING
each strobe within the tolerance counts, an index that comes after WPR strobes ends a revolution, one that does not loses the
acquisition, and the last revolution of ACQ enters LOCKED at wedge 0; in LOCKED a strobe within the tolerance begins the next wedge, at
the last wedge the next revolution, with or without an index, whose absence is a tolerance failure; a strobe outside the tolerance is
one too, or ends an acquisition; a window that ends without a strobe counts a miss, after which angular time goes on by prediction from
the last accepted strobe, and above HOLD_MAX angular time is lost; a spin level that stands for 16 ticks is taken, and a lost spin
unlocks; a synthetic strobe is due every PERIOD ticks; a boundary counts its source and releases a commit that waits for it within its
TMO. -/
def Obligations.StrobesAndEpochs : Prop :=
  ∀ (s : State),
    (s.boot.tstMode = false → tbsUp s = true →
      (∀ (index : Bool) (phase : BitVec 16),
        let b := s.tbs
        let m := b.missed.toNat
        let w := wedgeNext s
        let q := wedgesOn s m
        (b.lock = .unlocked → index = false ∨ b.spin = false ∨ tbSynth s = true → exec (.wedgeStrobe index phase) s = .next s) ∧
        (b.lock = .unlocked → index = true → b.spin = true → tbSynth s = false →
          ∃ t, exec (.wedgeStrobe index phase) s = .next t ∧ t.tbs.lock = .acquiring ∧ t.tbs.acqRevs = 0 ∧ t.tbs.acqStrobes = 1 ∧
            t.tbs.lastStrobe = s.now ∧ t.tbs.indexAt = s.now ∧ t.tbs.time = b.time) ∧
        (b.lock = .synth → exec (.wedgeStrobe index phase) s = .next s) ∧
        (b.lock = .locked ∨ b.lock = .holdover → strobeAccepts s = false →
          exec (.wedgeStrobe index phase) s = .next (assertFault 251 (faultOf 5 0) s)) ∧
        (b.lock = .locked ∨ b.lock = .holdover → strobeAccepts s = true → (index = true → w = 0) → (w = 0 → index = true) →
          ∃ t, exec (.wedgeStrobe index phase) s = .next t ∧ t.tbs.lock = .locked ∧ t.tbs.missed = 0 ∧ t.tbs.wedge = w ∧
            t.tbs.phase.toNat = phase.toNat + 6 ∧ t.tbs.lastStrobe = s.now ∧
            t.tbs.rev = (if w = 0 then q.rev + 1 else q.rev) ∧ t.tbs.indexAt = (if w = 0 then s.now else q.indexAt) ∧
            (w = 0 → t.tbs.revPeriod = (s.now - q.indexAt).truncate 32 ∧ Tbl.get 0 t.tbs.epoch 0 = Tbl.get 0 b.epoch 0 + 1)) ∧
        (b.lock = .locked ∨ b.lock = .holdover → strobeAccepts s = true → w = 0 → index = false →
          ∃ u : State, u.tbs.lock = .locked ∧ u.tbs.missed = 0 ∧ u.tbs.wedge = 0 ∧ u.tbs.phase.toNat = phase.toNat + 6 ∧
            u.tbs.lastStrobe = s.now ∧ u.tbs.rev = q.rev + 1 ∧ u.tbs.indexAt = s.now ∧
            u.tbs.revPeriod = (s.now - q.indexAt).truncate 32 ∧
            exec (.wedgeStrobe index phase) s =
              .next (epochWith (if b.lock = .locked then [] else [228]) [1] (assertFault 251 (faultOf 5 0) u))) ∧
        (b.lock = .locked → strobeAccepts s = true → index = true → w ≠ 0 → exec (.wedgeStrobe index phase) s = .next (missStrobe s)) ∧
        (b.lock = .holdover → strobeAccepts s = true → index = true → w ≠ 0 → exec (.wedgeStrobe index phase) s = .next s) ∧
        (b.lock = .acquiring → acqAccepts s (sinceStrobe s) = false →
          exec (.wedgeStrobe index phase) s = .next (unlock (assertFault 251 (faultOf 5 0) s))) ∧
        (b.lock = .acquiring → acqAccepts s (sinceStrobe s) = true →
          let took := fun (x : Tbs) => x.acqSum = b.acqSum + sinceStrobe s ∧ x.acqN = b.acqN + 1 ∧ x.lastStrobe = s.now ∧
            x.intervals = (sinceStrobe s :: b.intervals).take 8
          let revs := b.acqRevs + 1
          ((index = true ↔ b.acqStrobes ≠ s.wpr) → ∃ u : State, took u.tbs ∧ exec (.wedgeStrobe index phase) s = .next (unlock u)) ∧
          (index = false → b.acqStrobes ≠ s.wpr → ∃ t, exec (.wedgeStrobe index phase) s = .next t ∧ took t.tbs ∧
            t.tbs.lock = .acquiring ∧ t.tbs.acqStrobes = b.acqStrobes + 1 ∧ t.tbs.acqRevs = b.acqRevs ∧ t.tbs.time = b.time) ∧
          (index = true → b.acqStrobes = s.wpr → revs < fld (s.app .tbCfg) 8 4 → ∃ t, exec (.wedgeStrobe index phase) s = .next t ∧
            took t.tbs ∧ t.tbs.lock = .acquiring ∧ t.tbs.acqRevs = revs ∧ t.tbs.acqStrobes = 1 ∧ t.tbs.indexAt = s.now ∧
            t.tbs.revPeriod = (s.now - b.indexAt).truncate 32 ∧ t.tbs.time = b.time) ∧
          (index = true → b.acqStrobes = s.wpr → fld (s.app .tbCfg) 8 4 ≤ revs → ∃ u : State, took u.tbs ∧ u.tbs.lock = .locked ∧
            u.tbs.wedge = 0 ∧ u.tbs.missed = 0 ∧ u.tbs.phase.toNat = phase.toNat + 6 ∧ u.tbs.indexAt = s.now ∧
            u.tbs.revPeriod = (s.now - b.indexAt).truncate 32 ∧ u.tbs.time = b.time ∧
            (b.everLocked = false → u.tbs.rev = BitVec.ofNat 32 (fld (s.app .tbCfg) 8 4)) ∧
            (b.everLocked = true → b.lastPeriod ≠ 0 →
              let k := (2 * (s.now - b.lastIndexAt).toNat + b.lastPeriod.toNat) / (2 * b.lastPeriod.toNat)
              u.tbs.rev = b.lastRev + BitVec.ofNat 32 (max 1 k)) ∧
            exec (.wedgeStrobe index phase) s = .next (releaseHeld (epochWith [228] [1] u))))) ∧
      (tbSynth s = false → exec .indexWithoutStrobe s = .next (assertFault 251 (faultOf 5 0) s)) ∧
      (tbSynth s = true → exec .indexWithoutStrobe s = .next s) ∧
      (s.tbs.lock = .locked ∨ s.tbs.lock = .holdover →
        (windowOver s = false → exec .toleranceWindowExpiry s = .next s) ∧
        (windowOver s = true →
          let m := if s.tbs.lock = .locked then 1 else s.tbs.missed.toNat + 1
          (m ≤ fld (s.app .tbCfg) 12 4 → ∃ t, exec .toleranceWindowExpiry s = .next t ∧ t.tbs.lock = .holdover ∧
            t.tbs.missed = BitVec.ofNat 8 m ∧ t.tbs.wedge = s.tbs.wedge ∧ t.tbs.phase = s.tbs.phase ∧
            t.tbs.lastStrobe = s.tbs.lastStrobe) ∧
          (fld (s.app .tbCfg) 12 4 < m → ∃ u : State, exec .toleranceWindowExpiry s = .next (unlock u) ∧ u.tbs.lock = .holdover))) ∧
      (∀ v, exec (.spinValidChange v) s = .next (s.modTbs (fun x =>
        { x with spinPin := v, spinTicks := if v = s.tbs.spinPin then s.tbs.spinTicks else 0 }))) ∧
      (s.tbs.spinPin = s.tbs.spin → spinTick s = s) ∧
      (s.tbs.spinPin ≠ s.tbs.spin →
        let u := s.modTbs (fun x => { x with spin := s.tbs.spinPin, spinTicks := 0 })
        (s.tbs.spinTicks < 15 → spinTick s = s.modTbs (fun x => { x with spinTicks := s.tbs.spinTicks + 1 })) ∧
        (15 ≤ s.tbs.spinTicks → s.tbs.spinPin = true ∨ s.tbs.lock = .synth → spinTick s = u) ∧
        (15 ≤ s.tbs.spinTicks → s.tbs.spinPin = false → s.tbs.lock ≠ .synth → spinTick s = unlock u)) ∧
      (s.tbs.lock = .synth → s.now.toNat < s.tbs.synthNext.toNat → exec .synthStrobe s = .next s) ∧
      (s.tbs.lock = .synth → s.tbs.synthNext.toNat ≤ s.now.toNat → ∃ t, exec .synthStrobe s = .next t ∧
        t.tbs.wedge = (s.tbs.wedge + 1) % max 1 s.wpr ∧ t.tbs.phase = 0 ∧ t.tbs.lock = .synth ∧
        t.tbs.synthNext = s.tbs.synthNext + BitVec.ofNat 64 (fld (s.app .synthPeriod) 0 22) ∧
        t.tbs.rev = (if (s.tbs.wedge + 1) % max 1 s.wpr = 0 then s.tbs.rev + 1 else s.tbs.rev)) ∧
      (let n := 1600 * max 1 (fld (s.app .epCfg) 16 16)
       (s.now.toNat % n = 0 → exec .epochTimeN s = .next (epochBoundary [2] s)) ∧
       (s.now.toNat % n ≠ 0 → exec .epochTimeN s = .next s))) ∧
    (∀ (a : TpAttr) (d : Word), s.takes a true .epStrobe → exec (.epochStrobe a d) s = wrote a (epochBoundary [3] s)) ∧
    (∀ k : Nat, let t := epochBoundary [k] s
      Tbl.get 0 t.tbs.epoch k = Tbl.get 0 s.tbs.epoch k + 1 ∧ (∀ j, j ≠ k → Tbl.get 0 t.tbs.epoch j = Tbl.get 0 s.tbs.epoch j) ∧
      t.stage.boundary = (s.stage.boundary || (s.coreOn && s.stage.st == .pending && !commitLate s && s.stage.src.toNat == k)) ∧ t.tbs.time = s.tbs.time) ∧
    (s.tbs.lock ≠ .unlocked → (unlock s).tbs.lock = .unlocked ∧ (unlock s).tbs.missed = 0 ∧ (unlock s).tbs.time = s.tbs.time)

/-- Anchors and comparators (R297 to R315, Tables 7-9, 7-11): the pool's pairs hold the P earliest armed anchors; a pair whose
instant is within 2 ticks fires its anchor, and no other fires; a software comparator is armed only while it is
reserved and not armed, and fires once; a parity error is corrected; a lost delay register stops its pair until the reload, for which it raises CORE; a
pair that disagrees is held for the slow checker, which judges its anchor again. -/
def Obligations.AnchorsAndComparators : Prop :=
  ∀ (n : BitVec 6) (s : State),
    let k := n.toNat
    (s.boot.tstMode = false → tbsUp s = true →
      (∃ t, exec .poolLoad s = .next t ∧ ((∀ ch, chanPast s ch 1 = false) → t.chans = s.chans ∧
        (∀ j ch, (t.pair j).ch = some ch → pairBusy s j = false → ch ∈ (calendar s).take (poolSize s)) ∧
        (s.fcr.unguarded = false → Tbl.wf {} s.tbs.pairs = true → (∀ j, pairBusy s j = false) →
          (∀ i j ch, (s.pair i).ch = some ch → (s.pair j).ch = some ch → i = j) →
          ∀ ch ∈ (calendar s).take (poolSize s), ∃ j, (t.pair j).ch = some ch))) ∧
      (calendar s).Pairwise (fun x y => chanInstant s x ≤ chanInstant s y) ∧
      (Tbl.wf {} s.tbs.pairs = true → (∀ j, pairBusy s j = false) →
        (∀ p ∈ s.chans, p.1 < 4096 ∧ s.chan (BitVec.ofNat 12 p.1) = p.2) →
        ∀ ch, ch ∈ calendar s ↔ (s.chan ch).sched.armed = true) ∧
      (pairBusy s k = true → exec (.anchorFire n) s = .next s) ∧
      (pairBusy s k = false → scReserved s k = false →
        ((s.pair k).ch = none → exec (.anchorFire n) s = .next s) ∧
        (∀ ch, (s.pair k).ch = some ch →
          let d := (s.chan ch).sched
          (d.armed = true → onTime s d.anchor d.angular = true → exec (.anchorFire n) s = .next (fireChan ch (beginWake 2 3 ch.toNat s))) ∧
          (d.armed = false ∨ onTime s d.anchor d.angular = false → exec (.anchorFire n) s = .next s))) ∧
      (∀ w ang, onTime s w ang = (anchorPast s w ang (-2) && !anchorPast s w ang 3)) ∧
      (∀ w : DWord, onTime s w false = true ↔ (w.toNat ≤ s.now.toNat + 2 ∧ s.now.toNat ≤ w.toNat + 2)) ∧
      (pairBusy s k = false → scReserved s k = true → (s.sc k).arm = true → (s.sc k).held = false →
        (onTime s (scAnchor s k) (s.sc k).angular = true → ∃ t, exec (.anchorFire n) s = .next t ∧
          (t.sc k).arm = false ∧ (t.sc k).fired = true ∧ (∀ j, j ≠ k → t.sc j = s.sc j)) ∧
        (onTime s (scAnchor s k) (s.sc k).angular = false → exec (.anchorFire n) s = .next s)) ∧
      (∀ sh, exec (.delayParityError n sh) s = .next (assertFault (242 + k / 8) (faultOf 3 (k % 8)) s)) ∧
      (∃ u : State, u.tbs.dlyLost = true ∧ k ∈ u.tbs.reload ∧
        let v := assertFault (242 + k / 8) (faultOf 2 (k % 8)) u
        (scReserved v k = true → exec (.delayRegisterLost n) s = .next (beginWake 2 3 (4096 + k) v)) ∧
        (∀ ch, scReserved v k = false → (v.pair k).ch = some ch → exec (.delayRegisterLost n) s = .next (beginWake 2 3 ch.toNat v)) ∧
        (scReserved v k = false → (v.pair k).ch = none → exec (.delayRegisterLost n) s = .next v)) ∧
      (k ∉ s.tbs.reload → ∀ ok, exec (.delayRegisterReload n ok) s = .next s) ∧
      (s.coreOn = true → k ∈ s.tbs.reload →
        let u := s.modTbs (fun t => { t with reload := t.reload.filter (fun i => i != k) })
        (scReserved s k = false → (s.pair k).ch = none → ∀ ok, exec (.delayRegisterReload n ok) s = .next u) ∧
        (∀ ch, scReserved s k = false → (s.pair k).ch = some ch →
          exec (.delayRegisterReload n true) s = .next (sweepPairs (rejudge ch u)) ∧
          exec (.delayRegisterReload n false) s = .next (sweepPairs (anchorLost ch u))) ∧
        (scReserved s k = true → (s.sc k).arm = true → exec (.delayRegisterReload n true) s = .next (scJudge k u) ∧
          exec (.delayRegisterReload n false) s = .next (scDrop k u))) ∧
      (pairArmed s k = true → pairBusy s k = false → s.fcr.unguarded = false →
        ∃ u : State, exec (.comparatorDisagreement n) s = .next (assertFault (234 + k / 8) (faultOf 9 (k % 8)) u) ∧
          (u.pair k).dis = true ∧ u.tbs.cmpDis = true ∧ (u.pair k).ch = (s.pair k).ch) ∧
      (pairArmed s k = false ∨ pairBusy s k = true → exec (.comparatorDisagreement n) s = .next s) ∧
      (s.fcr.unguarded = false → (s.pair k).dis = true → scReserved s k = false → ∀ ch, (s.pair k).ch = some ch →
        exec (.slowCheckReevaluation n) s =
          .next (sweepPairs (rejudge ch (s.modPair k (fun p => { p with dis := false, ch := none }))))) ∧
      ((s.pair k).dis = false → exec (.slowCheckReevaluation n) s = .next s) ∧
      (s.fcr.unguarded = false → exec .slowCheckSweep s = .next (foldS (upTo 64) (fun j t =>
        if pairArmed t j && !pairBusy t j && pairPast t j 5 then disagree j t else t) s)) ∧
      (s.fcr.unguarded = true → exec .slowCheckSweep s = .next s)) ∧
    (∀ (a : TpAttr) (m : BitVec 5) (d : Word), s.takes a true (.scCtrl (32 + m.toNat)) →
      let j := 32 + m.toNat
      let c := s.sc j
      let bad := scReserved s j = false ∨ fld d 28 2 = 3 ∨ (c.arm = true ∧ bit d 31 = true)
      let t := s.modSc j (fun _ => { arm := bit d 31, angular := bit d 30, policy := d.extractLsb' 28 2, held := false,
                                     dropped := c.dropped && !bit d 2, late := c.late && !bit d 1, fired := c.fired && !bit d 0 })
      (bad → exec (.scCtrlWrite a m d) s = denied a (0x8400 + 16 * m.toNat) slverr s) ∧
      (¬bad → bit d 31 = false → exec (.scCtrlWrite a m d) s = wrote a t) ∧
      (¬bad → bit d 31 = true → exec (.scCtrlWrite a m d) s = wrote a (scJudge j t)))

/-! ## Register accesses -/

/-- Doorbells and commands (R69 to R71, R84 to R90, Tables 2-11c, 2-11d): a tail within the ring's size of WR_DONE and ahead of the
old one is taken, any other sets DB_ERR; a head that returns slots frees them; INVALIDATE discards the prefetched entries that
have not started; a command that the state accepts stands pending when none does or a weaker one does, and any other sets
CMD_REJ; STOP captures the tail; RESUME lets a PAUSED channel go on, or a HALTED one, or withdraws a PAUSE that still pends. (That a channel
HALTED by a ring error takes RESUME while a STOP pends is the model's reading: log entry 15.) -/
def Obligations.ChannelCommands : Prop :=
  ∀ (a : TpAttr) (ch : BitVec 12) (d : Word) (s : State), chanRefused s ch a.sec a.owner = false →
    let c := s.chan ch
    let v : BitVec 16 := d.setWidth 16
    (s.takes a true (.doorbell ch.toNat 0) → exec (.wrTailWrite a ch d) s = wrote a (considerHead ch (touch ch (s.setChan ch
      (if (v - c.wrDone).toNat ≤ 2 ^ c.wrSize ∧ (v - c.wrTail).toNat ≤ 2 ^ c.wrSize ∧ c.st ≠ .free ∧ c.st ≠ .draining
       then { c with wrTail := v } else { c with dbErr := true }))))) ∧
    (s.takes a true (.doorbell ch.toNat 1) → exec (.ntHeadWrite a ch d) s = wrote a
      (if (c.ntTail - v).toNat ≤ (c.ntTail - c.ntHead).toNat ∧ c.st ≠ .free then noticeRetry ch (s.setChan ch { c with ntHead := v })
       else s.setChan ch { c with dbErr := true })) ∧
    (s.takes a true (.doorbell ch.toNat 2) →
      let rej := wrote a (s.setChan ch { c with cmdRej := true })
      let open' : Bool := c.inOrder || c.stalledDone.isSome || headWaits c
      (c.st = .free → exec (.invalidate a ch d) s = rej ∧ exec (.pause a ch d) s = rej ∧ exec (.stop a ch d) s = rej ∧
        exec (.abort a ch d) s = rej ∧ exec (.kill a ch d) s = rej ∧ exec (.resume a ch d) s = rej) ∧
      (c.st ≠ .free → ∃ t, exec (.invalidate a ch d) s = wrote a t ∧ (t.chan ch).cache = [] ∧ (t.chan ch).fet = [] ∧
        (t.chan ch).wrFetch = c.wrStart ∧ (t.chan ch).wrStart = c.wrStart ∧ (t.chan ch).wrTail = c.wrTail ∧
        (∀ n, n ≠ ch → t.chan n = s.chan n) ∧ t.engs = s.engs) ∧
      (∀ (k : Cmd) (i : Instr) (rank : Nat) (ok : Bool),
        (k = .pause ∧ i = .pause a ch d ∧ rank = 2 ∧
            ok = (c.st == .armed || c.st == .running || c.st == .waiting || c.st == .draining)) ∨
          (k = .abort ∧ i = .abort a ch d ∧ rank = 4 ∧
            ok = (c.st == .running || c.st == .waiting || ((c.st == .draining || c.st == .paused) && open'))) ∨
          (k = .kill ∧ i = .kill a ch d ∧ rank = 5 ∧
            ok = (c.st == .armed || c.st == .running || c.st == .waiting || c.st == .draining || c.st == .paused)) →
        (ok = false → exec i s = rej) ∧
        (ok = true → c.pend = none → exec i s = wrote a (touch ch (s.setChan ch { c with pend := some k }))) ∧
        (ok = true → ∀ p, c.pend = some p → p.strength < rank →
          exec i s = wrote a (touch ch ((withdrawn ch s).modChan ch (fun x => { x with pend := some k })))) ∧
        (ok = true → ∀ p, c.pend = some p → rank ≤ p.strength → exec i s = rej)) ∧
      (c.st ≠ .free → c.st ≠ .armed → (c.st = .draining → open' = true) → c.pend = none →
        exec (.stop a ch d) s = wrote a (touch ch (s.setChan ch { c with pend := some .stop, stopTail := some c.wrTail }))) ∧
      (c.st = .armed ∨ (c.st = .draining ∧ open' = false) →
        (c.pend = none → exec (.stop a ch d) s = wrote a (touch ch (stopArrives ch s))) ∧
        (c.wrStart = c.wrTail → c.wrDone = c.wrTail → stopArrives ch s = haltNow ch 2 0x31 s) ∧
        (c.wrStart ≠ c.wrTail ∨ c.wrDone ≠ c.wrTail → stopArrives ch s = haltPush ch (s.setChan ch
          { c with pend := some .stop, stopTail := some c.wrTail, st := .halted, wait := .none, stopNotice := true }))) ∧
      (c.st ≠ .free → c.st ≠ .armed → (c.st = .draining → open' = true) → c.pend = some .pause →
        exec (.stop a ch d) s = wrote a (touch ch (stopArrives ch (withdrawn ch s)))) ∧
      (let t := withdrawn ch s
       t.chan ch = { c with pend := none, stopTail := if c.pend = some .stop then none else c.stopTail } ∧
       (c.pend = some .pause → ∀ e, c.eng = some e → (t.eng e).paused = false)) ∧
      (c.st = .paused → ∀ e, c.eng = some e → exec (.resume a ch d) s = wrote a ((s.setChan ch { c with
        st := if c.en then .running else .draining, preSt := .configured, preWait := .none }).modEng e
          (fun x => { x with paused := false }))) ∧
      (c.st = .paused → c.eng = none → exec (.resume a ch d) s = wrote a (resumePaused ch s)) ∧
      (c.st = .halted → c.pend = none ∨ c.ringErr = true → exec (.resume a ch d) s = wrote a (resumeHalted ch s)) ∧
      (c.st = .halted → c.pend ≠ none → c.ringErr = false → exec (.resume a ch d) s = rej) ∧
      (c.st ≠ .free → c.st ≠ .paused → c.st ≠ .halted → c.pend = some .pause →
        exec (.resume a ch d) s = wrote a (considerHead ch (withdrawn ch s))) ∧
      (c.st ≠ .paused → c.st ≠ .halted → c.pend ≠ some .pause → exec (.resume a ch d) s = rej))

/-- Catalogue windows (R40, R43 to R50, R90, R333, R657, R660, Table 2-7): a window selects its channel; ALLOC takes a FREE channel
to CONFIGURED, and its write of 0 takes a CONFIGURED one back to FREE with its context and subscriptions cleared; EN arms it where
a populated home gallery exists; EN = 0 starts its drain; a changed ring base or size resets that ring's indices, and is refused
once the channel is enabled; a read of CH_CK_PC takes the checkpoint area's snapshot. -/
def Obligations.ContextCommands : Prop :=
  ∀ (a : TpAttr) (i : BitVec 2) (d : Word) (s : State),
    let ch := (s.win i.toNat).sel
    let c := s.chan ch
    (s.takes a true (.catSel i.toNat) → ∃ t, exec (.catSelWrite a i d) s = wrote a t ∧ t.win i.toNat = { sel := d.setWidth 12 } ∧
      (∀ j, j ≠ i.toNat → t.win j = s.win j) ∧ t.chans = s.chans) ∧
    (s.takes a true (.catWin i.toNat 0) → winRefused s i.toNat a.sec a.owner = false →
      let home := homeSet s c.home ≠ []
      (c.st = .free → bit d 1 = false ∨ ¬home → ∃ t, exec (.chAllocate a i d) s = wrote a t ∧ (t.chan ch).st = .configured ∧
        (t.chan ch).ctrl = (ctrlStored c.ctrl d ||| 1) &&& ~~~2 ∧ (∀ n, n ≠ ch → t.chan n = s.chan n)) ∧
      (c.st = .free → bit d 1 = true → home → exec (.chAllocate a i d) s =
        wrote a (considerHead ch (s.setChan ch { c with ctrl := ctrlStored c.ctrl d ||| 1, st := .armed }))) ∧
      (c.st = .configured → ∃ t, exec (.chFree a i d) s = wrote a t ∧ t.chan ch = chanRst s.boot.straps ∧
        (∀ n, n ≠ ch → t.chan n = s.chan n) ∧ (∀ p ∈ s.subList, p.2.ch = ch → (t.sub p.1).v = false)) ∧
      (c.st = .configured → bit d 0 = true → home → exec (.chEnable a i d) s =
        wrote a (considerHead ch (s.setChan ch { c with ctrl := ctrlStored c.ctrl d ||| 2, st := .armed }))) ∧
      (c.st = .configured → bit d 0 = true → ¬home → ∃ t, exec (.chEnable a i d) s = wrote a t ∧ (t.chan ch).st = .configured ∧
        bit (t.chan ch).ctrl 1 = false) ∧
      (c.st = .running ∨ c.st = .waiting → c.en = true → (ctrlStored c.ctrl d &&& 0xFFFF0FFD) = (c.ctrl &&& 0xFFFF0FFD) →
        ∃ t, exec (.chDisable a i d) s = wrote a t ∧ (t.chan ch).st = .draining ∧ (t.chan ch).eng = c.eng ∧
          (∀ n, n ≠ ch → t.chan n = s.chan n)) ∧
      (c.st = .running → (ctrlStored c.ctrl d &&& 0xFFFF0FFD) ≠ (c.ctrl &&& 0xFFFF0FFD) →
        exec (.chDisable a i d) s = denied a (0x2100 + 0x100 * i.toNat) slverr s)) ∧
    (∀ off : BitVec 8, isRingWord off = true → s.takes a true (.catWin i.toNat off.toNat) →
      winRefused s i.toNat a.sec a.owner = false → ∀ n, ctxStored c off.toNat d = some n →
        (n = c → exec (.ringConfigWrite a i off d) s = wrote a s) ∧
        (n ≠ c → c.st = .free ∨ c.st = .configured → ∃ t, exec (.ringConfigWrite a i off d) s = wrote a t ∧
          (n.wrBase ≠ c.wrBase ∨ n.wrSize ≠ c.wrSize → (t.chan ch).wrTail = 0 ∧ (t.chan ch).wrDone = 0 ∧ (t.chan ch).wrFetch = 0 ∧
            (t.chan ch).wrStart = 0) ∧
          (n.ntBase ≠ c.ntBase ∨ n.ntSize ≠ c.ntSize → (t.chan ch).ntHead = 0 ∧ (t.chan ch).ntTail = 0) ∧
          (t.chan ch).wrBase = n.wrBase ∧ (t.chan ch).ntBase = n.ntBase ∧ (t.chan ch).ringCfg = n.ringCfg ∧
          (∀ m, m ≠ ch → t.chan m = s.chan m)) ∧
        (n ≠ c → c.st ≠ .free → c.st ≠ .configured →
          exec (.ringConfigWrite a i off d) s = denied a (0x2100 + 0x100 * i.toNat + off.toNat) slverr s)) ∧
    (s.takes a false (.catWin i.toNat 0x80) → winRefused s i.toNat a.sec a.owner = false →
      ∃ t, exec (.chCkPcRead a i) s = gave a c.ck.pc t ∧ t.chans = s.chans ∧ (t.win i.toNat).sel = ch ∧
        ∃ w : Tbl Word, (t.win i.toNat).snap = some w ∧
          ∀ k, k < 32 → Tbl.get 0 w (0x80 + 4 * k) = ctxRead s ch (0x80 + 4 * k))

/-- Register accesses (R10 to R17, R443, R451, R454, R488, R634 to R638, R652, R653, R655 to R661, Table 20-2): an access is judged in
the table's order, and a refused one changes nothing but the counts of discarded posted writes; every register stands at one
address; a read of a _LO half holds its _HI half; a read clears its RC fields; a write of a RW register stores its fields; a TAKE
copies the counters; NS_DENY is locked by its LOCK; while CORE does not serve, the Attendant answers ID, VERSION and GSTAT, and
ABSENT otherwise, which wakes CORE once READY is 1; a violated handshake is counted and answered SLVERR. -/
def Obligations.RegisterAccess : Prop :=
  (∀ (wings addr : Nat) (r : Reg), decodeReg wings addr = some r → (∀ i o, r ≠ .catWin i o) → (∀ ch k, r ≠ .doorbell ch k) →
    r.addr = addr) ∧
  ∀ (a : TpAttr) (addr : BitVec 20) (s : State),
    (∀ (wr : Bool) (d : Word), s.serves = true →
      let i : Instr := .attendantAccess a addr wr d
      let no := fun code => if wr then denied a addr.toNat code s else Host.Outcome.next { s with resp := some (rspBeat a wr code 0) }
      let r := decodeReg s.wings addr.toNat
      (malformedTp a wr addr = true → exec i s = no slverr) ∧
      (malformedTp a wr addr = false → r = none → exec i s = no decerr) ∧
      (∀ q, malformedTp a wr addr = false → r = some q → secDenied s a.sec wr q = true → exec i s = no slverr) ∧
      (∀ q m, malformedTp a wr addr = false → r = some q → secDenied s a.sec wr q = false → domainOff s q = some m →
        (wr && a.posted) = false → exec i s = .next { beginWake m 6 0 s with resp := some (rspBeat a wr poweredOff 0) }) ∧
      (∀ q, malformedTp a wr addr = false → r = some q → secDenied s a.sec wr q = false → domainOff s q = none →
        (wr = true → (∀ t, regWrite a.sec a.owner q d s = some t → exec i s = wrote a t) ∧
          (regWrite a.sec a.owner q d s = none → exec i s = denied a addr.toNat slverr s)) ∧
        (wr = false → (∀ w t, regRead a.sec a.owner q s = some (w, t) → exec i s = gave a w t) ∧
          (regRead a.sec a.owner q s = none → exec i s = no slverr)))) ∧
    (∀ d : Word, s.boot.tstMode = false → s.boot.rstAo = false → s.boot.shellIso = false → coreServes s = false →
      (∀ wr, (wr && a.posted) = false → malformedTp a wr addr = false →
        let i : Instr := .attendantAccess a addr wr d
        let ok := fun (w : Word) => Host.Outcome.next { s with resp := some (rspBeat a wr okay w) }
        (addr = 0 → exec i s = ok 0x4B4C0512) ∧ (addr = 4 → exec i s = ok 0x03012112) ∧ (addr = 8 → exec i s = ok (gstatWord s)) ∧
        (addr ≠ 0 → addr ≠ 4 → addr ≠ 8 → ∃ t : State, exec i s = .next { t with resp := some (rspBeat a wr absent 0) } ∧
          (s.boot.ready = true → t = beginWake 2 5 0 s) ∧ (s.boot.ready = false → t = s))) ∧
      (a.posted = true → exec (.attendantAccess a addr true d) s =
        .next { s with mst := { s.mst with aoDisc := satAdd s.mst.aoDisc 1 }, resp := none })) ∧
    (∀ lo hi, s.takes a false lo → decodeReg s.wings addr.toNat = some lo → lo.pair = some (lo, hi, false) →
      ecRefused s a.sec lo = false → addr.toNat % 4 = 0 → exec (.loHalfRead a addr) s =
        gave a (wordOf s a.sec lo) { s with hold := Tbl.put 0 s.hold lo.addr (wordOf s a.sec hi) }) ∧
    (∀ r, s.takes a false r → decodeReg s.wings addr.toNat = some r → addr.toNat % 4 = 0 →
      let clears := fun (t : State) => exec (.rcFieldRead a addr) s = gave a (wordOf s a.sec r) t
      (r = .tpStat → clears { s with mst := { s.mst with disc := 0, viol := 0 } }) ∧
      (r = .aoDisc → clears { s with mst := { s.mst with aoDisc := 0 } }) ∧
      (r = .dbgCfg → clears { s with mst := { s.mst with trcDrop := 0 } }) ∧
      (r = .lgStat → clears { s with ledger := { s.ledger with supp := 0, drop := 0 } }) ∧
      (r = .starveLog → clears { s with mst := { s.mst with
        starveV := false, starveOvf := false, starveLevel := 0, starveInst := 0, starveReq := 0, starveCnt := 0 } }) ∧
      (r = .docLast → clears (s.modDoc (fun d =>
        { d with lastV := false, lastVerdict := 0, lastStep := 0, lastSrc := 0, lastInst := 0, lastElapsed := 0 }))) ∧
      (r = .scrubStat → clears (s.modDoc (fun d => { d with corr := 0 }))) ∧
      (∀ n, r = .srcCnt n → clears (s.modFcr (fun f => { f with cnt := Tbl.put 0 f.cnt n 0 }))) ∧
      (∀ p, r = .portStat p → clears (s.modPort p (fun x => { x with retryCnt := 0, errCnt := 0 }))) ∧
      (∀ x, r = .arbStat x → clears (s.modArb x (fun y => { y with waitMax := 0 }))) ∧
      (∀ l, r = .slErrCnt l →
        clears (s.modLink (BitVec.ofNat 5 l) (fun x => { x with crcCnt := 0, nakCnt := 0, replayCnt := 0, tagCnt := 0 }))) ∧
      (∀ g, r = .csInfo g 0 → clears (s.modGal g (fun x => { x with bankA := { x.bankA with corr := 0 } }))) ∧
      (∀ g, r = .csInfo g 1 → clears (s.modGal g (fun x => { x with bankB := { x.bankB with corr := 0 } }))) ∧
      (∀ m, r = .evoMrg m → ecRefused s a.sec r = false → clears (s.modEvo m (fun v => { v with merged := 0 }))) ∧
      (∀ i, r = .keyStat i → keyHidden s i a.sec = false → clears (s.modKeyWin i (fun x => { x with rej := false }))) ∧
      (∀ ch, r = .doorbell ch 2 → let c := BitVec.ofNat 12 ch
        chanRefused s c a.sec a.owner = false → exec (.rcFieldRead a addr) s =
          gave a (stateWord s c) (s.modChan c (fun x => { x with dbErr := false, cmdRej := false })))) ∧
    (∀ (r : Reg) (d : Word), s.takes a true r → decodeReg s.wings addr.toNat = some r → addr.toNat % 4 = 0 →
      r = .tempLim ∨ r = .lgRate ∨ r = .lgSel ∨ r = .dspSel ∨ r = .loadGal ∨ r = .injSel ∨ r = .docCfg ∨ r = .rotCfg ∨ r = .scrubCfg ∨
        (∃ i, r = .keySel i) ∨ (∃ p, r = .portCfg p) →
      ∃ t, exec (.registerWrite a addr d) s = wrote a t ∧ t.reg r = storeFlds r.flds (s.reg r) d ∧
        (∀ q, q.addr ≠ r.addr → t.reg q = s.reg q) ∧ t = { s with rw := t.rw }) ∧
    (∀ d : Word,
      (s.takes a true .tmCtrl → ∃ t, exec (.tmTake a d) s = wrote a t ∧ t.mst = { s.mst with tmSnap := s.mst.tm } ∧
        bit (t.reg .tmCtrl) 0 = bit d 0) ∧
      (∀ g : BitVec 5, s.takes a true (.engCtrl g.toNat) → s.galPop g.toNat = true → ∃ t, exec (.engStatTake a g d) s = wrote a t ∧
        (t.gal g.toNat).snap = (galEngs g.toNat).map (engWord s) ∧ (∀ k, k ≠ g.toNat → t.gal k = s.gal k)) ∧
      (s.takes a true .nsDeny →
        (bit (s.reg .nsDeny) 31 = true → exec (.nsDenyWrite a d) s = denied a 0x34 slverr s) ∧
        (bit (s.reg .nsDeny) 31 = false → ∃ t, exec (.nsDenyWrite a d) s = wrote a t ∧
          t.reg .nsDeny = storeFlds Reg.nsDeny.flds (s.reg .nsDeny) d)) ∧
      (s.serves = true → ∃ u : State, u = assertFault 281 (faultOf 5 0) { s with mst := { s.mst with viol := satAdd s.mst.viol 1 } } ∧
        (a.posted = true → exec (.tpHandshakeViolation a) s = .next u) ∧
        (a.posted = false → ∃ r : Resp, r.code = slverr ∧ r.data = 0 ∧ r.id = a.id ∧
          exec (.tpHandshakeViolation a) s = .next { (u.draw).2 with resp := some r })))

/-- The key cabinet (R261 to R264, Tables 6-7 to 6-9): a data word goes to its window, and a non-secure one marks it; LOAD moves the
window's 64 bytes into the slot it selects and clears the window; a LOAD of a secure slot from non-secure data, or of an XTS pair
of equal halves, is rejected and clears the window; CLEAR empties the slot; a non-secure access to a window that selects a secure
slot, or that asks for one, is refused. (That an emptied slot keeps no OWNER, SEC or KIND, and that a rejected command keeps NS_DATA,
are the model's choices: log entry 67.) -/
def Obligations.KeyCabinet : Prop :=
  ∀ (a : TpAttr) (i : BitVec 2) (d : Word) (s : State),
    let w := s.keyWin i.toNat
    let sel := fld (s.reg (.keySel i.toNat)) 0 10
    let bytes := keyBytes w
    let hid := a.sec = false ∧ (s.key sel).sec = true
    (∀ k : BitVec 4, s.takes a true (.keyData i.toNat k.toNat) → ∃ t, exec (.keyDataWrite a i k d) s = wrote a t ∧
      Tbl.get 0 (t.keyWin i.toNat).data k.toNat = d ∧
      (∀ j, j ≠ k.toNat → Tbl.get 0 (t.keyWin i.toNat).data j = Tbl.get 0 w.data j) ∧
      (t.keyWin i.toNat).nsData = (w.nsData || !a.sec) ∧ t.keys = s.keys ∧ (∀ j, j ≠ i.toNat → t.keyWin j = s.keyWin j)) ∧
    (s.takes a true (.keyCmd i.toNat) →
      let bad := (bit d 23 = true ∧ w.nsData = true) ∨ (bit d 22 = true ∧ bytes.take 32 = bytes.drop 32)
      let refuse := denied a (0x9004 + 0x100 * i.toNat) slverr s
      (hid ∨ (a.sec = false ∧ bit d 23 = true) → exec (.keyLoad a i d) s = refuse) ∧
      (¬hid → ¬(a.sec = false ∧ bit d 23 = true) →
        (bad → ∃ t, exec (.keyLoad a i d) s = wrote a t ∧ t.keys = s.keys ∧ t.keyWin i.toNat = { w with rej := true, data := [] }) ∧
        (¬bad → ∃ t, exec (.keyLoad a i d) s = wrote a t ∧
          t.key sel = { st := 1, owner := d.extractLsb' 24 8, sec := bit d 23, kind := bit d 22, key := bytes } ∧
          (∀ j, j ≠ sel → t.key j = s.key j) ∧ t.keyWin i.toNat = { w with data := [], nsData := false })) ∧
      (hid → exec (.keyClear a i d) s = refuse) ∧
      (¬hid → ∃ t, exec (.keyClear a i d) s = wrote a t ∧ t.key sel = {} ∧ (∀ j, j ≠ sel → t.key j = s.key j) ∧
        t.keyWin i.toNat = { w with data := [], nsData := false }))

/-- Key material cannot be read (R261, R263): the answer of a register read does not depend on the bytes of any key slot or of any
load window: two states that differ only there answer alike. -/
def Obligations.KeysUnreadable : Prop :=
  ∀ (a : TpAttr) (addr : BitVec 20) (d : Word) (s : State) (ks : Tbl KeySlot) (ws : Tbl KeyWin), s.boot.tstMode = false →
    let t : State := { s with keys := ks, keyWins := ws }
    (∀ i, ({ t.key i with key := [] } : KeySlot) = { s.key i with key := [] }) →
    (∀ i, ({ t.keyWin i with data := [] } : KeyWin) = { s.keyWin i with data := [] }) →
    ∃ u v, exec (.attendantAccess a addr false d) s = .next u ∧ exec (.attendantAccess a addr false d) t = .next v ∧
      v.resp = u.resp

/-! ## The machine -/

/-- A step runs the command at the front of the queue on everything but the queue, which keeps the rest; with nothing waiting it is
one tick, which advances tick time by one while TBS is ON (R277; that an empty queue is a tick is the model's choice, log entry
1). -/
def Obligations.StepRunsFront : Prop :=
  (∀ (c : Instr) (r : List Instr) (s : State), s.pending = c :: r → step s = exec c { s with pending := r }) ∧
  (∀ s : State, s.pending = [] → ∃ t, step s = .next t ∧
    (s.tbs.spinPin = s.tbs.spin ∨ s.tbs.spinTicks < 15 → t.chans = s.chans ∧ t.engs = s.engs ∧ t.txns = s.txns ∧ t.pending = []) ∧
    (s.domOn 1 = true → t.now = s.now + 1) ∧ (s.domOn 1 = false → t.now = s.now))

/-- The state after reset (R481 to R484, R501, R644, Table 13-5): under `rst_n`, with the straps not latched; every domain but AO is
OFF; every register, staging and applied copy has its reset value; no channel is allocated, no key is loaded; the Ledger holds
LEDGER_START as SEQ 1; and the state is Sound. -/
def Obligations.ResetState : Prop :=
  let s := State.reset
  s.Sound ∧ s.boot.rstN = true ∧ s.boot.rstAo = false ∧ s.boot.ready = false ∧ s.pending = [] ∧ s.txns = [] ∧
  (∀ d, (s.dom d).st = if d = 0 then .on else .off) ∧ (∀ r, s.reg r = r.rst 0 ∧ s.stg r = r.rst 0 ∧ s.app r = r.rst 0) ∧
  (∀ ch, s.chan ch = chanRst 0 ∧ (s.chan ch).st = .free) ∧ (∀ i, (s.key i).st = 0) ∧ (∀ l, (s.link l).st = .disabled) ∧
  (∀ e : EngId, (s.eng e).phase = .idle ∧ (s.slot e).st = if e.slot.val = 16 then .spare else .service) ∧
  s.ledger.head = 1 ∧ (Tbl.get {} s.ledger.recs 0).seq = 1 ∧ (Tbl.get {} s.ledger.recs 0).code = 1

/-- Every step keeps the state Sound (R262 to R267, R327, R561, R648): the key cabinet holds only what a LOAD may put there, and the
Ledger writer's queue, HALT_Q and Docent's queue keep their bounds. -/
def Obligations.StepKeepsSound : Prop := ∀ s t : State, s.Sound → step s = .next t → t.Sound
end

