-- ==== Sys2Proof/Laws/Tables.lean ====
section
/-! SUPPORT. Laws of the sparse tables: a read after a write, the canonical form, and the instances kept in tables. -/

namespace Sys2Proof.Machine

/-! ## Tables -/

theorem Tbl.get_del_same {α : Type} (d : α) (t : Tbl α) (k : Nat) : Tbl.get d (Tbl.del t k) k = d := by
  induction t with
  | nil => rfl
  | cons p r ih =>
    obtain ⟨k', v'⟩ := p
    unfold Tbl.del at ih ⊢
    rw [List.filter_cons]
    split
    · rename_i h
      have : k ≠ k' := fun e => by simp [e] at h
      rw [Tbl.get, if_neg this]; exact ih
    · exact ih

theorem Tbl.get_del_other {α : Type} (d : α) (t : Tbl α) (k j : Nat) (h : j ≠ k) : Tbl.get d (Tbl.del t k) j = Tbl.get d t j := by
  induction t with
  | nil => rfl
  | cons p r ih =>
    obtain ⟨k', v'⟩ := p
    unfold Tbl.del at ih ⊢
    rw [List.filter_cons]
    split
    · rw [Tbl.get, Tbl.get, ih]
    · rename_i hk
      have e : k' = k := by simpa using hk
      rw [Tbl.get, if_neg (e ▸ h)]; exact ih

theorem Tbl.get_ins_same {α : Type} (d : α) (t : Tbl α) (k : Nat) (v : α) (h : ∀ p ∈ t, p.1 ≠ k) : Tbl.get d (Tbl.ins k v t) k = v := by
  induction t with
  | nil => simp [Tbl.ins, Tbl.get]
  | cons p r ih =>
    obtain ⟨k', v'⟩ := p
    rw [Tbl.ins]
    split
    · simp [Tbl.get]
    · have h1 : k ≠ k' := fun e => h _ List.mem_cons_self e.symm
      rw [Tbl.get, if_neg h1]
      exact ih (fun p hp => h p (List.mem_cons_of_mem _ hp))

theorem Tbl.get_ins_other {α : Type} (d : α) (t : Tbl α) (k j : Nat) (v : α) (h : j ≠ k) : Tbl.get d (Tbl.ins k v t) j = Tbl.get d t j := by
  induction t with
  | nil => simp [Tbl.ins, Tbl.get, h]
  | cons p r ih =>
    obtain ⟨k', v'⟩ := p
    rw [Tbl.ins]
    split
    · rw [Tbl.get, if_neg h]
    · rw [Tbl.get, Tbl.get, ih]

/-- A read after a write of the same key gives the value written. -/
@[simp] theorem Tbl.get_put_same {α : Type} [DecidableEq α] (d : α) (t : Tbl α) (k : Nat) (v : α) : Tbl.get d (Tbl.put d t k v) k = v := by
  unfold Tbl.put
  split
  · rename_i h; rw [h]; exact Tbl.get_del_same d t k
  · refine Tbl.get_ins_same d _ k v (fun p hp => ?_)
    have := (List.mem_filter.mp hp).2
    simpa using this

/-- A write leaves every other key alone. -/
theorem Tbl.get_put_other {α : Type} [DecidableEq α] (d : α) (t : Tbl α) (k j : Nat) (v : α) (h : j ≠ k) :
    Tbl.get d (Tbl.put d t k v) j = Tbl.get d t j := by
  unfold Tbl.put
  split
  · exact Tbl.get_del_other d t k j h
  · rw [Tbl.get_ins_other d _ k j v h, Tbl.get_del_other d t k j h]

theorem Tbl.get_put {α : Type} [DecidableEq α] (d : α) (t : Tbl α) (k j : Nat) (v : α) :
    Tbl.get d (Tbl.put d t k v) j = if j = k then v else Tbl.get d t j := by
  split
  · rename_i h; rw [h]; exact Tbl.get_put_same d t k v
  · rename_i h; exact Tbl.get_put_other d t k j v h

theorem Tbl.del_ins {α : Type} (k : Nat) (v : α) (t : Tbl α) : Tbl.del (Tbl.ins k v t) k = Tbl.del t k := by
  induction t with
  | nil => simp [Tbl.ins, Tbl.del]
  | cons p r ih =>
    obtain ⟨a, b⟩ := p
    unfold Tbl.ins
    split
    · simp [Tbl.del]
    · unfold Tbl.del at *
      rw [List.filter_cons, List.filter_cons, ih]

theorem Tbl.del_del {α : Type} (k : Nat) (t : Tbl α) : Tbl.del (Tbl.del t k) k = Tbl.del t k := by
  unfold Tbl.del
  simp [List.filter_filter]

/-- The later of two writes of a key is the one that counts. -/
@[simp] theorem Tbl.put_put {α : Type} [DecidableEq α] (d : α) (t : Tbl α) (k : Nat) (a b : α) :
    Tbl.put d (Tbl.put d t k a) k b = Tbl.put d t k b := by
  have h : Tbl.del (Tbl.put d t k a) k = Tbl.del t k := by
    unfold Tbl.put
    split
    · exact Tbl.del_del k t
    · rw [Tbl.del_ins, Tbl.del_del]
  rw [Tbl.put, h, ← Tbl.put]

theorem Tbl.wfFrom_mono {α : Type} [DecidableEq α] (d : α) (t : Tbl α) (a b : Option Nat)
    (h : ∀ l, a = some l → ∃ m, b = some m ∧ l ≤ m) (hb : Tbl.wfFrom d b t = true) : Tbl.wfFrom d a t = true := by
  cases t with
  | nil => rfl
  | cons p r =>
    obtain ⟨k, v⟩ := p
    simp only [Tbl.wfFrom, Bool.and_eq_true] at hb ⊢
    refine ⟨⟨?_, hb.1.2⟩, hb.2⟩
    cases a with
    | none => rfl
    | some l =>
      obtain ⟨m, rfl, hm⟩ := h l rfl
      have := hb.1.1
      simp only [decide_eq_true_eq] at this ⊢
      omega

theorem Tbl.wfFrom_del {α : Type} [DecidableEq α] (d : α) (t : Tbl α) (a : Option Nat) (k : Nat) (h : Tbl.wfFrom d a t = true) :
    Tbl.wfFrom d a (Tbl.del t k) = true := by
  induction t generalizing a with
  | nil => rfl
  | cons p r ih =>
    obtain ⟨k', v'⟩ := p
    simp only [Tbl.wfFrom, Bool.and_eq_true] at h
    unfold Tbl.del at ih ⊢
    rw [List.filter_cons]
    split
    · simp only [Tbl.wfFrom, Bool.and_eq_true]
      exact ⟨h.1, ih _ h.2⟩
    · refine ih _ (Tbl.wfFrom_mono d r a (some k') (fun l e => ⟨k', rfl, ?_⟩) h.2)
      subst e
      have := h.1.1
      simp only [decide_eq_true_eq] at this
      omega

theorem Tbl.wfFrom_ins {α : Type} [DecidableEq α] (d : α) (t : Tbl α) (a : Option Nat) (k : Nat) (v : α)
    (h : Tbl.wfFrom d a t = true) (hk : ∀ p ∈ t, p.1 ≠ k) (ha : ∀ l, a = some l → l < k) (hv : v ≠ d) :
    Tbl.wfFrom d a (Tbl.ins k v t) = true := by
  induction t generalizing a with
  | nil => cases a <;> simp_all [Tbl.ins, Tbl.wfFrom]
  | cons p r ih =>
    obtain ⟨k', v'⟩ := p
    rw [Tbl.ins]
    have h' := h
    simp only [Tbl.wfFrom, Bool.and_eq_true] at h'
    split
    · rename_i hlt
      cases a <;> simp_all [Tbl.wfFrom]
    · rename_i hlt
      simp only [Tbl.wfFrom, Bool.and_eq_true]
      refine ⟨h'.1, ih _ h'.2 (fun p hp => hk p (List.mem_cons_of_mem _ hp)) (fun l e => ?_)⟩
      cases e
      have := hk _ List.mem_cons_self
      omega

/-- Every write keeps the canonical form, so that equal tables are equal data. -/
theorem Tbl.wf_put {α : Type} [DecidableEq α] (d : α) (t : Tbl α) (k : Nat) (v : α) (h : Tbl.wf d t = true) :
    Tbl.wf d (Tbl.put d t k v) = true := by
  unfold Tbl.put
  split
  · exact Tbl.wfFrom_del d t none k h
  · rename_i hv
    refine Tbl.wfFrom_ins d _ none k v (Tbl.wfFrom_del d t none k h) (fun p hp => ?_) (fun _ e => nomatch e) hv
    have := (List.mem_filter.mp hp).2
    simpa using this

/-! ## Instances -/

theorem engIdx_inj {a b : EngId} (h : engIdx a = engIdx b) : a = b := by
  obtain ⟨g, k⟩ := a
  obtain ⟨g', k'⟩ := b
  unfold engIdx at h
  dsimp only at h
  have hk := k.isLt
  have hk' := k'.isLt
  have e1 : g.toNat = g'.toNat := by omega
  have e2 : k.val = k'.val := by omega
  rw [BitVec.eq_of_toNat_eq e1, Fin.ext e2]

@[simp] theorem eng_setEng (s : State) (e : EngId) (x : Engine) : (s.setEng e x).eng e = x := by
  simp [State.eng, State.setEng]

@[simp] theorem setEng_setEng (s : State) (e : EngId) (x y : Engine) : (s.setEng e x).setEng e y = s.setEng e y := by
  simp [State.setEng]

@[simp] theorem setChan_setChan (s : State) (n : BitVec 12) (c d : Chan) : (s.setChan n c).setChan n d = s.setChan n d := by
  simp [State.setChan]

theorem eng_setEng_other (s : State) (e f : EngId) (x : Engine) (h : f ≠ e) : (s.setEng e x).eng f = s.eng f :=
  Tbl.get_put_other _ _ _ _ _ (fun k => h (engIdx_inj k))

@[simp] theorem chan_setChan (s : State) (n : BitVec 12) (c : Chan) : (s.setChan n c).chan n = c := by
  simp [State.chan, State.setChan]

theorem chan_setChan_other (s : State) (n m : BitVec 12) (c : Chan) (h : m ≠ n) : (s.setChan n c).chan m = s.chan m :=
  Tbl.get_put_other _ _ _ _ _ (fun k => h (BitVec.eq_of_toNat_eq k))

@[simp] theorem link_setLink (s : State) (l : BitVec 5) (x : Link) : (s.setLink l x).link l = x := by
  simp [State.link, State.setLink]

theorem link_setLink_other (s : State) (l m : BitVec 5) (x : Link) (h : m ≠ l) : (s.setLink l x).link m = s.link m :=
  Tbl.get_put_other _ _ _ _ _ (fun k => h (BitVec.eq_of_toNat_eq k))

/-! ## Registers and the Alcove of an engine -/

@[simp] theorem rg_setRg (x : Engine) (r : BitVec 5) (v : DWord) : (x.setRg r v).rg r = if r = 0 then 0 else v := by
  unfold Engine.rg Engine.setRg
  split
  · rfl
  · simp

theorem rg_setRg_other (x : Engine) (r q : BitVec 5) (v : DWord) (h : q ≠ r) : (x.setRg r v).rg q = x.rg q := by
  unfold Engine.rg Engine.setRg
  split
  · rfl
  · split
    · rfl
    · exact Tbl.get_put_other _ _ _ _ _ (fun k => h (BitVec.eq_of_toNat_eq k))

theorem alc_fold_get (b : List Byte) (a i : Nat) (t : Tbl Byte) (k : Nat) :
    Tbl.get 0 ((b.zipIdx i).foldl (fun t p => Tbl.put 0 t (a + p.2) p.1) t) k =
      if a + i ≤ k ∧ k < a + i + b.length then b.getD (k - a - i) 0 else Tbl.get 0 t k := by
  induction b generalizing i t with
  | nil =>
    have : ¬(a + i ≤ k ∧ k < a + i + ([] : List Byte).length) := by simp only [List.length_nil]; omega
    rw [if_neg this]; rfl
  | cons x r ih =>
    rw [List.zipIdx_cons, List.foldl_cons, ih, Tbl.get_put]
    simp only [List.length_cons]
    by_cases h1 : k = a + i
    · subst h1
      rw [if_neg (by omega), if_pos rfl, if_pos (by omega)]
      simp
    · by_cases h2 : a + (i + 1) ≤ k ∧ k < a + (i + 1) + r.length
      · rw [if_pos h2, if_pos (by omega)]
        obtain ⟨m, hm⟩ : ∃ m, k - a - i = m + 1 := ⟨k - a - i - 1, by omega⟩
        rw [hm, show k - a - (i + 1) = m by omega]
        simp
      · rw [if_neg h2, if_neg h1, if_neg (by omega)]

/-- A byte of the Alcove after a write. -/
theorem alcByte_alcWrite (x : Engine) (a : Nat) (b : List Byte) (k : Nat) :
    (x.alcWrite a b).alcByte k = if a ≤ k ∧ k < a + b.length then b.getD (k - a) 0 else x.alcByte k := by
  have h := alc_fold_get b a 0 x.alc k
  simpa [Engine.alcWrite, Engine.alcByte] using h

theorem toLe_len (n v : Nat) : (toLe n v).length = n := by
  induction n generalizing v with
  | zero => rfl
  | succ n ih => simp [toLe, ih]

/-- Little-endian bytes read back as the number (R19). -/
theorem ofLe_toLe (n v : Nat) : ofLe (toLe n v) = v % 256 ^ n := by
  induction n generalizing v with
  | zero => simp [toLe, ofLe, Nat.mod_one]
  | succ n ih =>
    simp only [toLe, ofLe, ih, BitVec.toNat_ofNat, show (2 : Nat) ^ 8 = 256 from rfl]
    rw [show 256 ^ (n + 1) = 256 * 256 ^ n from Nat.pow_succ', Nat.mod_mul]

/-- The outcome of a meaning while test operation is not in force. -/
theorem act_next {s : State} (h : s.boot.tstMode = false) (t : State) : act s t = .next t := by
  unfold act
  rw [h]; rfl

/-- Test operation makes every guarded meaning the fault (R498). -/
theorem act_test {s : State} (h : s.boot.tstMode = true) (t : State) : act s t = .fault .testOperation := by
  unfold act
  rw [h]; rfl

/-- The word at pc is in the prefetch buffer, or an instruction has begun: there is nothing to fetch (R130, R133). -/
theorem fetch_done {s : State} {e : EngId} (h : (s.eng e).busy.isSome = true ∨ (fetched (s.eng e)).isSome = true) : fetch e s = s := by
  unfold fetch
  rw [if_pos]
  rcases h with h | h <;> simp [h]

/-- An instruction that the engine admits needs no fetch. -/
theorem admits_fetched {x : Engine} {op : Nat} {w : IW} (h : admits x op w = true) :
    failedRead x = none ∧ (x.busy.isSome = true ∨ (fetched x).isSome = true) := by
  unfold admits at h
  simp only [Bool.and_eq_true, Option.isNone_iff_eq_none] at h
  refine ⟨h.1.2, ?_⟩
  have h2 := h.2
  cases hb : x.busy with
  | some b => exact Or.inl rfl
  | none =>
    rw [hb] at h2
    simp only [beq_iff_eq] at h2
    exact Or.inr (by rw [h2]; rfl)

/-- What an instruction does while the engine executes it: its body, or ILLEGAL when a field check fails or the image lacks it. -/
theorem act_insn {s : State} {e : EngId} {op : Nat} {w : IW} (h : s.runs e op w = true) (ok : Bool) (b : State → State) :
    act s (insn e op w ok b s) =
      .next (if ok && imgGives s e (opFeat op) (opMinor op w) then b s else illegal e op w s) := by
  unfold State.runs at h
  simp only [Bool.and_eq_true, Bool.not_eq_true', Option.isNone_iff_eq_none] at h
  obtain ⟨⟨⟨⟨ht, hc⟩, ha⟩, hh⟩, he⟩ := h
  obtain ⟨hf, hb⟩ := admits_fetched ha
  unfold insn
  rw [act_next ht, if_pos (by simp [hc, hh]), if_neg (by simp [hf])]
  simp only [fetch_done hb]
  rw [if_pos ha, he]

/-- The same for an instruction that may stall: its body meets the engine with the word held as decoded (R133). -/
theorem act_insnB {s : State} {e : EngId} {op : Nat} {w : IW} (h : s.runs e op w = true) (ok : Bool) (b : State → State) :
    act s (insnB e op w ok b s) =
      .next (if ok && imgGives s e (opFeat op) (opMinor op w) then b (s.modEng e (fun x => { x with busy := some (op, w) }))
        else illegal e op w s) := act_insn h ok _

end Sys2Proof.Machine
end

