-- ==== Sys2Proof/Laws/Access.lean ====
section
/-! SUPPORT. Access: what an access to a register that CORE serves answers, by the owning chapter's rule for it. -/

namespace Sys2Proof.Machine

/-- A served state is not in test operation. -/
theorem serves_test {s : State} (h : s.serves = true) : s.boot.tstMode = false := by
  unfold State.serves at h
  simp at h
  exact h.1.1.1.1

/-- A served access reaches CORE. -/
theorem tpAccess_serves {s : State} (h : s.serves = true) (a : TpAttr) (wr : Bool) (addr : BitVec 20) (d : Word) :
    tpAccess a wr addr d s =
      (let r := coreAnswer a wr addr d s
       if wr && a.posted then answer none (if r.1.code = okay then r.2 else discarded addr.toNat r.2) else answer (some (r.1.on a wr)) r.2) := by
  unfold State.serves at h
  simp at h
  obtain ⟨⟨⟨⟨h1, h2⟩, h3⟩, h4⟩, h5⟩ := h
  unfold tpAccess
  simp [h2, h3, h4, h5]

/-- A whole aligned word is well formed. -/
theorem takes_formed {s : State} {a : TpAttr} {wr : Bool} {r : Reg} (h : s.takes a wr r) (addr : BitVec 20) (h4 : addr.toNat % 4 = 0) :
    malformedTp a wr addr = false := by
  obtain ⟨_, h1, h2, h3, h5, _, _⟩ := h
  unfold malformedTp
  cases wr
  · simp [h1, h2, h3, h4]
  · simp [h1, h2, h3, h4, h5 rfl]

/-- What CORE answers for an access that it takes. -/
theorem takes_answer {s : State} {a : TpAttr} {wr : Bool} {r : Reg} (h : s.takes a wr r) (addr : BitVec 20) (d : Word)
    (h4 : addr.toNat % 4 = 0) (hd : decodeReg s.wings addr.toNat = some r) :
    coreAnswer a wr addr d s = ownerRules a.sec a.owner wr r d s := by
  unfold coreAnswer
  rw [takes_formed h addr h4]
  simp [access, hd, h.2.2.2.2.2.1, h.2.2.2.2.2.2]

/-- A write that the register's rules take. -/
theorem takes_wrote {s t : State} {a : TpAttr} {r : Reg} (h : s.takes a true r) (addr : BitVec 20) (d : Word)
    (h4 : addr.toNat % 4 = 0) (hd : decodeReg s.wings addr.toNat = some r) (hw : regWrite a.sec a.owner r d s = some t) :
    act s (tpAccess a true addr d s) = wrote a t := by
  rw [act_next (serves_test h.1), tpAccess_serves h.1, takes_answer h addr d h4 hd]
  unfold ownerRules wrote answer
  cases hp : a.posted <;> simp [hw, Resp.on, rspBeat]

/-- A write that the register's rules refuse. -/
theorem takes_denied {s : State} {a : TpAttr} {r : Reg} (h : s.takes a true r) (addr : BitVec 20) (d : Word)
    (h4 : addr.toNat % 4 = 0) (hd : decodeReg s.wings addr.toNat = some r) (hw : regWrite a.sec a.owner r d s = none) :
    act s (tpAccess a true addr d s) = denied a addr.toNat slverr s := by
  rw [act_next (serves_test h.1), tpAccess_serves h.1, takes_answer h addr d h4 hd]
  unfold ownerRules denied answer
  cases hp : a.posted <;> simp [hw, slverr, okay, Resp.on, rspBeat]

/-- A read that the register's rules answer. -/
theorem takes_gave {s t : State} {w : Word} {a : TpAttr} {r : Reg} (h : s.takes a false r) (addr : BitVec 20) (d : Word)
    (h4 : addr.toNat % 4 = 0) (hd : decodeReg s.wings addr.toNat = some r) (hw : regRead a.sec a.owner r s = some (w, t)) :
    act s (tpAccess a false addr d s) = gave a w t := by
  rw [act_next (serves_test h.1), tpAccess_serves h.1, takes_answer h addr d h4 hd]
  unfold ownerRules gave answer
  simp [hw, Resp.on, rspBeat]

end Sys2Proof.Machine
end

