-- ==== Sys2Proof/Laws/Addresses.lean ====
section
/-! SUPPORT. Addresses: the register that stands at each address a row of the table names (Tables 20-1 to 20-9). -/

namespace Sys2Proof.Machine

/-- Below the port blocks the map is the same for every number of wings. -/
theorem dec_core (w : Nat) {a : Nat} (h : a < 0x10000) : decodeReg w a = decodeReg 4 a := by
  simp [decodeReg, h]

/-- A word of a doorbell block. -/
theorem dec_doorbell (w : Nat) (ch : BitVec 12) (k : Nat) (hk : k < 4) :
    decodeReg w (0x80000 + 16 * ch.toNat + 4 * k) = some (.doorbell ch.toNat k) := by
  have := ch.isLt
  unfold decodeReg
  simp only [show ¬ (0x80000 + 16 * ch.toNat + 4 * k < 0x10000) by omega,
    show ¬ (0x80000 + 16 * ch.toNat + 4 * k < 0x14000) by omega, show ¬ (0x80000 + 16 * ch.toNat + 4 * k < 0x14400) by omega, if_false]
  rw [if_pos (by omega)]
  congr 2 <;> omega

/-- No unindexed register lies in EVC's subscriptions. -/
theorem decCore_subs {a : Nat} (h : 0x6000 ≤ a) (h2 : a < 0x8000) : decCore a = none := by
  unfold decCore
  split <;> first | omega | rfl

/-- A word of a Catalogue window. -/
theorem dec_catWin (w : Nat) (i : BitVec 2) (o : BitVec 8) (h : o.toNat % 4 = 0) :
    decodeReg w (0x2100 + 0x100 * i.toNat + o.toNat) = some (.catWin i.toNat o.toNat) := by
  have := i.isLt
  have := o.isLt
  rw [dec_core w (by omega)]
  revert i o
  decide

theorem dec_catSel (w : Nat) (i : BitVec 2) : decodeReg w (0x2000 + 4 * i.toNat) = some (.catSel i.toNat) := by
  have := i.isLt
  rw [dec_core w (by omega)]
  revert i
  decide

theorem dec_scCtrl (w : Nat) (n : BitVec 5) : decodeReg w (0x8400 + 16 * n.toNat) = some (.scCtrl (32 + n.toNat)) := by
  have := n.isLt
  rw [dec_core w (by omega)]
  revert n
  decide

theorem dec_keyCmd (w : Nat) (i : BitVec 2) : decodeReg w (0x9004 + 0x100 * i.toNat) = some (.keyCmd i.toNat) := by
  have := i.isLt
  rw [dec_core w (by omega)]
  revert i
  decide

theorem dec_keyData (w : Nat) (i : BitVec 2) (k : BitVec 4) :
    decodeReg w (0x9040 + 0x100 * i.toNat + 4 * k.toNat) = some (.keyData i.toNat k.toNat) := by
  have := i.isLt
  have := k.isLt
  rw [dec_core w (by omega)]
  revert i k
  decide

theorem dec_domCtrl (w d : Nat) (h : 1 ≤ d) (h2 : d < 43) : decodeReg w (0xE200 + 4 * d) = some (.domCtrl d) := by
  rw [dec_core w (by omega)]
  have : ∀ x : Fin 43, 1 ≤ x.val → decodeReg 4 (0xE200 + 4 * x.val) = some (.domCtrl x.val) := by decide
  exact this ⟨d, h2⟩ h

theorem dec_holdRelease (w : Nat) (hi : Bool) : decodeReg w (0xE018 + 4 * b2n hi) = some (.holdRelease (b2n hi)) := by
  cases hi <;> rfl

/-- No indexed row below an address names it. -/
theorem rowIdx_above {a base stride n : Nat} (hs : 0 < stride) (h : base + stride * n ≤ a) : rowIdx a base stride n = none := by
  unfold rowIdx
  rw [if_neg]
  rintro ⟨_, _, h3⟩
  have := (Nat.div_lt_iff_lt_mul hs).mp h3
  rw [Nat.mul_comm] at this
  omega

theorem dec_sub (w : Nat) (j : BitVec 10) : decodeReg w (0x6000 + 8 * j.toNat) = some (.subR j.toNat) := by
  have := j.isLt
  have hj : rowIdx (0x6000 + 8 * j.toNat) 0x6000 8 1024 = some j.toNat := by
    unfold rowIdx
    rw [if_pos (by omega)]
    congr 1
    omega
  unfold decodeReg
  rw [if_pos (by omega), decCore_subs (by omega) (by omega)]
  unfold decIdx
  rw [hj]
  simp (disch := omega) only [rowIdx_above, Option.map_none, Option.map_some, firstRow]

/-- Registers of link `l`, for every number of wings. -/
theorem dec_link (w : Nat) (l : BitVec 5) :
    decodeReg w (0x12080 + 0x100 * l.toNat) = some (.linkCtrl l.toNat) ∧
    decodeReg w (0x12088 + 0x100 * l.toNat) = some (.rxCfg l.toNat) ∧
    decodeReg w (0x1208C + 0x100 * l.toNat) = some (.rxCmd l.toNat) ∧
    decodeReg w (0x1209C + 0x100 * l.toNat) = some (.stqHdr l.toNat) := by
  have h : ∀ a : Nat, 0x12000 ≤ a → a < 0x14000 → decodeReg w a = decodeReg 4 a := by
    intro a h1 h2
    have hp : ∀ v : Nat, instAbsent v ((a - 0x10000) / 0x100) = false := by
      intro v
      simp [instAbsent]
      omega
    simp only [decodeReg, decPort, hp, show ¬ a < 0x10000 by omega, show a < 0x14000 by omega, if_true, if_false]
  have := l.isLt
  rw [h _ (by omega) (by omega), h _ (by omega) (by omega), h _ (by omega) (by omega), h _ (by omega) (by omega)]
  revert l
  decide

/-- Registers of gallery `g`, where it is populated. -/
theorem dec_gal (w : Nat) (g : BitVec 5) (h : g.toNat / 8 < w) :
    decodeReg w (0xA0000 + 0x1000 * g.toNat) = some (.csCtrl g.toNat) ∧
    decodeReg w (0xA0018 + 0x1000 * g.toNat) = some (.engCtrl g.toNat) := by
  have := g.isLt
  have hd : ∀ a, 0xA0000 ≤ a → a < 0xC0000 → (a - 0xA0000) / 0x8000 < w → decodeReg w a = decodeReg 4 a := by
    intro a h1 h2 h3
    simp only [decodeReg, show ¬ a < 0x10000 by omega, show ¬ a < 0x14000 by omega, show ¬ a < 0x14400 by omega, if_false, h3,
      show (a - 0xA0000) / 0x8000 < 4 by omega, if_true]
  rw [hd _ (by omega) (by omega) (by omega), hd _ (by omega) (by omega) (by omega)]
  clear hd h
  revert g
  decide

end Sys2Proof.Machine
end

