-- ==== Sys2Proof/Laws/Fields.lean ====
section
/-! SUPPORT. Fields: bits and fields of a word after one of its fields is replaced. -/

namespace Sys2Proof.Machine

/-- A number with `m` bits at `l` replaced by `v`. -/
theorem set_testBit (a l m v i : Nat) (hv : v < 2 ^ m) :
    (a - (a >>> l) % 2 ^ m * 2 ^ l + v * 2 ^ l).testBit i = if l ≤ i ∧ i < l + m then v.testBit (i - l) else a.testBit i := by
  have h1 : a - (a >>> l) % 2 ^ m * 2 ^ l + v * 2 ^ l = ((a >>> (l + m)) * 2 ^ m + v) * 2 ^ l + a % 2 ^ l := by
    have e1 := Nat.div_add_mod a (2 ^ l)
    have e2 := Nat.div_add_mod (a / 2 ^ l) (2 ^ m)
    have e3 : a / 2 ^ l / 2 ^ m = a / 2 ^ (l + m) := by rw [Nat.div_div_eq_div_mul, pow_add]
    simp only [Nat.shiftRight_eq_div_pow]
    rw [e3] at e2
    generalize a / 2 ^ (l + m) = q at *
    generalize a / 2 ^ l = p at *
    generalize p % 2 ^ m = r at *
    generalize a % 2 ^ l = u at *
    have : a = (2 ^ m * q) * 2 ^ l + r * 2 ^ l + u := by rw [← e1, ← e2]; ring
    have h2 : (q * 2 ^ m + v) * 2 ^ l = (2 ^ m * q) * 2 ^ l + v * 2 ^ l := by ring
    omega
  rw [h1, Nat.mul_comm _ (2 ^ l), Nat.testBit_two_pow_mul_add _ (Nat.mod_lt _ (by positivity))]
  by_cases hi : i < l
  · rw [if_pos hi, if_neg (by omega), Nat.testBit_mod_two_pow]
    simp [hi]
  · rw [if_neg hi, Nat.mul_comm _ (2 ^ m), Nat.testBit_two_pow_mul_add _ hv]
    by_cases h2 : i - l < m
    · rw [if_pos h2, if_pos (by omega)]
    · rw [if_neg h2, if_neg (by omega), Nat.testBit_shiftRight]
      congr 1
      omega

/-- Bits of a word with one field replaced. -/
theorem bit_setFld {n : Nat} (w : BitVec n) (l m v i : Nat) :
    bit (setFld w l m v) i = (decide (i < n) && if l ≤ i ∧ i < l + m then (v % 2 ^ m).testBit (i - l) else bit w i) := by
  unfold bit setFld fld
  rw [BitVec.getLsbD_ofNat, set_testBit _ _ _ _ _ (Nat.mod_lt _ (by positivity))]
  rfl

/-- A field as its bits. -/
theorem fld_testBit {n : Nat} (w : BitVec n) (l m i : Nat) : (fld w l m).testBit i = (decide (i < m) && bit w (l + i)) := by
  unfold fld bit
  rw [Nat.testBit_mod_two_pow, Nat.testBit_shiftRight]
  rfl

/-- A field of a word in which another field is replaced. -/
theorem fld_setFld_other {n : Nat} (w : BitVec n) (l m v k j : Nat) (h : k + j ≤ l ∨ l + m ≤ k) :
    fld (setFld w l m v) k j = fld w k j := by
  apply Nat.eq_of_testBit_eq
  intro i
  rw [fld_testBit, fld_testBit, bit_setFld]
  by_cases hi : i < j
  · rw [if_neg (by omega)]
    by_cases hn : k + i < n
    · simp [hn]
    · have : bit w (k + i) = false := BitVec.getLsbD_of_ge w (k + i) (by omega)
      simp [this]
  · simp [hi]

/-- The field that is replaced. -/
theorem fld_setFld {n : Nat} (w : BitVec n) (l m v : Nat) (h : l + m ≤ n) : fld (setFld w l m v) l m = v % 2 ^ m := by
  apply Nat.eq_of_testBit_eq
  intro i
  rw [fld_testBit, bit_setFld]
  by_cases hi : i < m
  · rw [if_pos (by omega)]
    simp [hi, show l + i < n by omega]
  · rw [Nat.testBit_mod_two_pow]
    simp [hi]

/-- A bit outside the field that is replaced. -/
theorem bit_setFld_other {n : Nat} (w : BitVec n) (l m v i : Nat) (h : i < l ∨ l + m ≤ i) : bit (setFld w l m v) i = bit w i := by
  rw [bit_setFld, if_neg (by omega)]
  by_cases hn : i < n
  · simp [hn]
  · have : bit w i = false := BitVec.getLsbD_of_ge w i (by omega)
    simp [this]

/-- A field as a bit vector. -/
theorem ofNat_fld {n : Nat} (w : BitVec n) (l m : Nat) : BitVec.ofNat m (fld w l m) = w.extractLsb' l m := by
  apply BitVec.eq_of_toNat_eq
  simp [fld, BitVec.extractLsb'_toNat]

end Sys2Proof.Machine
end

