-- ==== Sys2Proof/Laws/Sound.lean ====
section
/-! SUPPORT. The building blocks with which each operation and each meaning is shown to keep State.Sound. -/

namespace Sys2Proof.Machine

/-- Every state that an answer carries is sound. -/
structure OptSound (o : Option State) : Prop where
  all : ∀ t, o = some t → t.Sound
structure Opt2Sound (o : Option (Option State)) : Prop where
  all : ∀ x, o = some x → OptSound x
structure OptWSound (o : Option (Word × State)) : Prop where
  all : ∀ x, o = some x → x.2.Sound
structure OutSound (o : Host.Outcome State Fault Refusal) : Prop where
  all : ∀ t, o = .next t → t.Sound
structure GotSound (g : Got) : Prop where
  ok : ∀ b t, g = .ok b t → t.Sound
  wait : ∀ t, g = .wait t → t.Sound
structure FlowSound {α : Type} (f : Flow α) : Prop where
  ok : ∀ a t, f = .ok a t → t.Sound
  stop : ∀ t, f = .stop t → t.Sound

theorem optSound_none : OptSound none := ⟨fun _ h => nomatch h⟩
theorem optSound_some {t : State} (h : t.Sound) : OptSound (some t) := ⟨fun _ e => by cases e; exact h⟩
theorem opt2Sound_none : Opt2Sound none := ⟨fun _ h => nomatch h⟩
theorem opt2Sound_some {o : Option State} (h : OptSound o) : Opt2Sound (some o) := ⟨fun _ e => by cases e; exact h⟩
theorem optWSound_none : OptWSound none := ⟨fun _ h => nomatch h⟩
theorem optWSound_some {p : Word × State} (h : p.2.Sound) : OptWSound (some p) := ⟨fun _ e => by cases e; exact h⟩
theorem outSound_next {t : State} (h : t.Sound) : OutSound (.next t) := ⟨fun _ e => by cases e; exact h⟩
theorem outSound_act (s : State) {t : State} (h : t.Sound) : OutSound (act s t) := by
  constructor
  intro u e
  unfold act at e
  split at e
  · cases e
  · cases e; exact h
theorem of_optSound {o : Option State} {t : State} (h : OptSound o) (e : o = some t) : t.Sound := h.all t e
theorem of_opt2Sound {o : Option (Option State)} {x : Option State} (h : Opt2Sound o) (e : o = some x) : OptSound x := h.all x e
theorem of_optWSound {o : Option (Word × State)} {w : Word} {t : State} (h : OptWSound o) (e : o = some (w, t)) : t.Sound := h.all _ e
theorem of_gotOk {g : Got} {b : List Byte} {t : State} (h : GotSound g) (e : g = .ok b t) : t.Sound := h.ok b t e
theorem of_gotWait {g : Got} {t : State} (h : GotSound g) (e : g = .wait t) : t.Sound := h.wait t e
theorem of_flowOk {α : Type} {g : Flow α} {a : α} {t : State} (h : FlowSound g) (e : g = .ok a t) : t.Sound := h.ok a t e
theorem of_flowStop {α : Type} {g : Flow α} {t : State} (h : FlowSound g) (e : g = .stop t) : t.Sound := h.stop t e
theorem of_pair {α : Type} {p : α × State} {a : α} {t : State} (h : p.2.Sound) (e : p = (a, t)) : t.Sound := by rw [e] at h; exact h
theorem of_pair2 {α β : Type} {p : α × β × State} {a : α} {b : β} {t : State} (h : p.2.2.Sound) (e : p = (a, b, t)) : t.Sound := by
  rw [e] at h; exact h
theorem gotSound_ok {b : List Byte} {t : State} (h : t.Sound) : GotSound (.ok b t) :=
  ⟨fun _ _ e => by cases e; exact h, fun _ e => nomatch e⟩
theorem gotSound_wait {t : State} (h : t.Sound) : GotSound (.wait t) :=
  ⟨fun _ _ e => (nomatch e), fun _ e => by cases e; exact h⟩
theorem flowSound_ok {α : Type} {a : α} {t : State} (h : t.Sound) : FlowSound (.ok a t) :=
  ⟨fun _ _ e => by cases e; exact h, fun _ e => nomatch e⟩
theorem flowSound_stop {α : Type} {t : State} (h : t.Sound) : FlowSound (α := α) (.stop t) :=
  ⟨fun _ _ e => (nomatch e), fun _ e => by cases e; exact h⟩

theorem flowRun_sound {α : Type} {f : Flow α} {g : α → State → State} (hf : FlowSound f)
    (hg : ∀ a u, State.Sound u → (g a u).Sound) : (f.run g).Sound := by
  cases f with
  | ok a s => exact hg a s (hf.ok a s rfl)
  | stop s => exact hf.stop s rfl

theorem flowBind_sound {α β : Type} {f : Flow α} {g : α → State → Flow β} (hf : FlowSound f)
    (hg : ∀ a u, State.Sound u → FlowSound (g a u)) : FlowSound (f.bind g) := by
  cases f with
  | ok a s => exact hg a s (hf.ok a s rfl)
  | stop s => exact flowSound_stop (hf.stop s rfl)

theorem gotRun_sound {g : Got} {f : List Byte → State → State} (hg : GotSound g)
    (hf : ∀ b u, State.Sound u → (f b u).Sound) : (g.run f).Sound := by
  cases g with
  | ok b s => exact hf b s (hg.ok b s rfl)
  | wait s => exact hg.wait s rfl

theorem gotBind_sound {g : Got} {f : List Byte → State → Got} (hg : GotSound g)
    (hf : ∀ b u, State.Sound u → GotSound (f b u)) : GotSound (g.bind f) := by
  cases g with
  | ok b s => exact hf b s (hg.ok b s rfl)
  | wait s => exact gotSound_wait (hg.wait s rfl)

theorem gotFlow_sound {g : Got} (hg : GotSound g) : FlowSound g.flow := by
  cases g with
  | ok b s => exact flowSound_ok (hg.ok b s rfl)
  | wait s => exact flowSound_stop (hg.wait s rfl)

theorem foldS_sound {α : Type} (l : List α) (f : α → State → State) (s : State) (h : s.Sound)
    (hf : ∀ a u, State.Sound u → (f a u).Sound) : (foldS l f s).Sound := by
  unfold foldS
  induction l generalizing s with
  | nil => exact h
  | cons a r ih => exact ih _ (hf a s h)

theorem sound_ite {c : Prop} [Decidable c] {a b : State} (ha : c → a.Sound) (hb : ¬c → b.Sound) :
    (if c then a else b).Sound := by
  split
  · exact ha ‹_›
  · exact hb ‹_›

theorem sound_keys {t : State} (h : t.Sound) : keysOk t.keys = true := h.keys
theorem sound_ledger {t : State} (h : t.Sound) : t.ledger.queue.length ≤ 16 := h.ledger
theorem sound_halts {t : State} (h : t.Sound) : t.evc.haltQ.length ≤ 64 := h.halts
theorem sound_rec {t : State} (h : t.Sound) : t.doc.queue.length ≤ 32 := h.recoveries

theorem sound_mk (boot : Boot)
    (tbs : Tbs)
    (chans : Tbl Chan)
    (wins : Tbl CatWin)
    (engs : Tbl Engine)
    (gals : Tbl Gal)
    (slots : Tbl Slot)
    (evc : Evc)
    (links : Tbl Link)
    (arbs : Tbl Arb)
    (ports : Tbl Port)
    (txns : List Txn)
    (nextTxn : Nat)
    (lines : Tbl VLine)
    (vitFlush : Bool)
    (vitOld : Word)
    (sliceCord : Tbl Bool)
    (dsp : Tbl Dsp)
    (rw : Tbl Word)
    (hold : Tbl Word)
    (stage : Staging)
    (loader : Loader)
    (keys : Tbl KeySlot)
    (keyWins : Tbl KeyWin)
    (fcr : Fcr)
    (doc : Doc)
    (doms : Tbl Dom)
    (pcm : Pcm)
    (ledger : Ledger)
    (sbp : Sbp)
    (mst : Mst)
    (resp : Option Resp)
    (snpRsp : Option SnpRsp)
    (trace : Option DWord)
    (fresh : Nat)
    (pending : List Instr) :
    (State.mk boot tbs chans wins engs gals slots evc links arbs ports txns nextTxn lines vitFlush vitOld sliceCord dsp rw hold stage loader keys keyWins fcr doc doms pcm ledger sbp mst resp snpRsp trace fresh pending).Sound ↔
      keysOk keys = true ∧ ledger.queue.length ≤ 16 ∧ evc.haltQ.length ≤ 64 ∧ doc.queue.length ≤ 32 :=
  ⟨fun h => ⟨h.keys, h.ledger, h.halts, h.recoveries⟩, fun h => ⟨h.1, h.2.1, h.2.2.1, h.2.2.2⟩⟩

theorem Tbl.mem_del {α : Type} (t : Tbl α) (k : Nat) (p : Nat × α) (h : p ∈ Tbl.del t k) : p ∈ t :=
  (List.mem_filter.mp h).1

theorem Tbl.mem_ins {α : Type} (t : Tbl α) (k : Nat) (v : α) (p : Nat × α) (h : p ∈ Tbl.ins k v t) : p = (k, v) ∨ p ∈ t := by
  induction t with
  | nil => simpa [Tbl.ins] using h
  | cons q r ih =>
    obtain ⟨k', v'⟩ := q
    unfold Tbl.ins at h
    split at h
    · rcases List.mem_cons.mp h with h | h
      · exact .inl h
      · exact .inr h
    · rcases List.mem_cons.mp h with h | h
      · exact .inr (h ▸ List.mem_cons_self)
      · rcases ih h with h | h
        · exact .inl h
        · exact .inr (List.mem_cons_of_mem _ h)

theorem Tbl.mem_put {α : Type} [DecidableEq α] (d : α) (t : Tbl α) (k : Nat) (v : α) (p : Nat × α)
    (h : p ∈ Tbl.put d t k v) : p = (k, v) ∨ p ∈ t := by
  unfold Tbl.put at h
  split at h
  · exact .inr (Tbl.mem_del t k p h)
  · rcases Tbl.mem_ins _ _ _ _ h with h | h
    · exact .inl h
    · exact .inr (Tbl.mem_del t k p h)

theorem Tbl.get_mem {α : Type} (d : α) (t : Tbl α) (k : Nat) : Tbl.get d t k = d ∨ ∃ j, (j, Tbl.get d t k) ∈ t := by
  induction t with
  | nil => exact .inl rfl
  | cons q r ih =>
    obtain ⟨k', v'⟩ := q
    unfold Tbl.get
    split
    · exact .inr ⟨k', List.mem_cons_self⟩
    · rcases ih with h | ⟨j, h⟩
      · exact .inl h
      · exact .inr ⟨j, List.mem_cons_of_mem _ h⟩

/-- A slot of a sound cabinet is as the spec allows. -/
theorem key_ok {s : State} (h : s.Sound) (k : Nat) : (s.key k).ok = true := by
  unfold State.key
  rcases Tbl.get_mem ({} : KeySlot) s.keys k with e | ⟨j, e⟩
  · rw [e]; decide
  · exact List.all_eq_true.mp h.keys _ e

theorem setKey_sound (s : State) (k : Nat) (x : KeySlot) (hs : s.Sound) (hx : x.ok = true) : (s.setKey k x).Sound := by
  refine ⟨?_, hs.ledger, hs.halts, hs.recoveries⟩
  unfold State.setKey keysOk
  rw [List.all_eq_true]
  intro p hp
  rcases Tbl.mem_put _ _ _ _ _ hp with rfl | h
  · exact hx
  · exact List.all_eq_true.mp hs.keys p h

theorem modDoc_sound (s : State) (f : Doc → Doc) (hs : s.Sound) (hq : (f s.doc).queue.length ≤ 32) : (s.modDoc f).Sound :=
  ⟨hs.keys, hs.ledger, hs.halts, hq⟩

theorem lgInsert_length (r : LgRec) (q : List LgRec) : (lgInsert r q).length = q.length + 1 := by
  induction q with
  | nil => rfl
  | cons x q ih => unfold lgInsert; split <;> simp [ih]

theorem lgEnqueue_sound (code sev : Nat) (inj : Bool) (lo hi : Word) (s : State) (hs : s.Sound) :
    (lgEnqueue code sev inj lo hi s).Sound := by
  unfold lgEnqueue
  dsimp only
  split
  · exact ⟨hs.keys, by simp [lgInsert_length] <;> omega, hs.halts, hs.recoveries⟩
  · exact ⟨hs.keys, by simp <;> omega, hs.halts, hs.recoveries⟩

theorem haltPop_sound (s : State) (hs : s.Sound) : (haltPop s).Sound :=
  ⟨hs.keys, hs.ledger, by have := hs.halts; simp [haltPop]; omega, hs.recoveries⟩

end Sys2Proof.Machine
end

