-- ==== Sys2Proof/Laws/SoundOps.lean ====
section
/-! SUPPORT. Keeping State.Sound: the named operations, the hub, the wakes, transactions, and the engine; one lemma per definition. -/

namespace Sys2Proof.Machine

theorem setChan_sound (s : State) (n : BitVec 12) (c : Chan) (hs : s.Sound) : (State.setChan s n c).Sound :=
  ⟨hs.keys, hs.ledger, hs.halts, hs.recoveries⟩

theorem modChan_sound (s : State) (n : BitVec 12) (f : Chan → Chan) (hs : s.Sound) : (State.modChan s n f).Sound := by
  unfold State.modChan
  with_reducible repeat' (first | assumption | intro _ | apply setChan_sound | split | dsimp only)

theorem setEng_sound (s : State) (e : EngId) (x : Engine) (hs : s.Sound) : (State.setEng s e x).Sound :=
  ⟨hs.keys, hs.ledger, hs.halts, hs.recoveries⟩

theorem modEng_sound (s : State) (e : EngId) (f : Engine → Engine) (hs : s.Sound) : (State.modEng s e f).Sound := by
  unfold State.modEng
  with_reducible repeat' (first | assumption | intro _ | apply setEng_sound | split | dsimp only)

theorem modGal_sound (s : State) (g : Nat) (f : Gal → Gal) (hs : s.Sound) : (State.modGal s g f).Sound :=
  ⟨hs.keys, hs.ledger, hs.halts, hs.recoveries⟩

theorem modSlot_sound (s : State) (e : EngId) (f : Slot → Slot) (hs : s.Sound) : (State.modSlot s e f).Sound :=
  ⟨hs.keys, hs.ledger, hs.halts, hs.recoveries⟩

theorem setLink_sound (s : State) (l : BitVec 5) (x : Link) (hs : s.Sound) : (State.setLink s l x).Sound :=
  ⟨hs.keys, hs.ledger, hs.halts, hs.recoveries⟩

theorem modLink_sound (s : State) (l : BitVec 5) (f : Link → Link) (hs : s.Sound) : (State.modLink s l f).Sound := by
  unfold State.modLink
  with_reducible repeat' (first | assumption | intro _ | apply setLink_sound | split | dsimp only)

theorem modArb_sound (s : State) (a : Nat) (f : Arb → Arb) (hs : s.Sound) : (State.modArb s a f).Sound :=
  ⟨hs.keys, hs.ledger, hs.halts, hs.recoveries⟩

theorem modPort_sound (s : State) (p : Nat) (f : Port → Port) (hs : s.Sound) : (State.modPort s p f).Sound :=
  ⟨hs.keys, hs.ledger, hs.halts, hs.recoveries⟩

theorem modDom_sound (s : State) (d : Nat) (f : Dom → Dom) (hs : s.Sound) : (State.modDom s d f).Sound :=
  ⟨hs.keys, hs.ledger, hs.halts, hs.recoveries⟩

theorem modPair_sound (s : State) (n : Nat) (f : Pair → Pair) (hs : s.Sound) : (State.modPair s n f).Sound :=
  ⟨hs.keys, hs.ledger, hs.halts, hs.recoveries⟩

theorem modSc_sound (s : State) (n : Nat) (f : SwCmp → SwCmp) (hs : s.Sound) : (State.modSc s n f).Sound :=
  ⟨hs.keys, hs.ledger, hs.halts, hs.recoveries⟩

theorem modRq_sound (s : State) (n : Nat) (f : RqLine → RqLine) (hs : s.Sound) : (State.modRq s n f).Sound :=
  ⟨hs.keys, hs.ledger, hs.halts, hs.recoveries⟩

theorem modSub_sound (s : State) (j : Nat) (f : Sub → Sub) (hs : s.Sound) : (State.modSub s j f).Sound :=
  ⟨hs.keys, hs.ledger, hs.halts, hs.recoveries⟩

theorem modEvo_sound (s : State) (m : Nat) (f : Evo → Evo) (hs : s.Sound) : (State.modEvo s m f).Sound :=
  ⟨hs.keys, hs.ledger, hs.halts, hs.recoveries⟩

theorem modIrq_sound (s : State) (i : Nat) (f : Irq → Irq) (hs : s.Sound) : (State.modIrq s i f).Sound :=
  ⟨hs.keys, hs.ledger, hs.halts, hs.recoveries⟩

theorem modLine_sound (s : State) (l : Nat) (f : VLine → VLine) (hs : s.Sound) : (State.modLine s l f).Sound :=
  ⟨hs.keys, hs.ledger, hs.halts, hs.recoveries⟩

theorem modDsp_sound (s : State) (n : BitVec 12) (f : Dsp → Dsp) (hs : s.Sound) : (State.modDsp s n f).Sound :=
  ⟨hs.keys, hs.ledger, hs.halts, hs.recoveries⟩

theorem modSup_sound (s : State) (x : Nat) (f : Supply → Supply) (hs : s.Sound) : (State.modSup s x f).Sound :=
  ⟨hs.keys, hs.ledger, hs.halts, hs.recoveries⟩

theorem modClk_sound (s : State) (c : Nat) (f : ClkReq → ClkReq) (hs : s.Sound) : (State.modClk s c f).Sound :=
  ⟨hs.keys, hs.ledger, hs.halts, hs.recoveries⟩

theorem modKeyWin_sound (s : State) (i : Nat) (f : KeyWin → KeyWin) (hs : s.Sound) : (State.modKeyWin s i f).Sound :=
  ⟨hs.keys, hs.ledger, hs.halts, hs.recoveries⟩

theorem modWin_sound (s : State) (i : Nat) (f : CatWin → CatWin) (hs : s.Sound) : (State.modWin s i f).Sound :=
  ⟨hs.keys, hs.ledger, hs.halts, hs.recoveries⟩

theorem setApp_sound (s : State) (r : Reg) (v : Word) (hs : s.Sound) : (State.setApp s r v).Sound :=
  ⟨hs.keys, hs.ledger, hs.halts, hs.recoveries⟩

theorem setStg_sound (s : State) (r : Reg) (v : Word) (hs : s.Sound) : (State.setStg s r v).Sound :=
  ⟨hs.keys, hs.ledger, hs.halts, hs.recoveries⟩

theorem setReg_sound (s : State) (r : Reg) (v : Word) (hs : s.Sound) : (State.setReg s r v).Sound :=
  ⟨hs.keys, hs.ledger, hs.halts, hs.recoveries⟩

theorem draw_sound (s : State) (hs : s.Sound) : (State.draw s).2.Sound := by
  unfold State.draw
  with_reducible repeat' (first | assumption | intro _ | (simp only [sound_mk]; refine ⟨?_, ?_, ?_, ?_⟩) | apply sound_keys | apply sound_ledger | apply sound_halts | apply sound_rec | (simp; done) | split | dsimp only)

theorem drawBytes_sound (x0 : Nat) (x1 : State) (hx1 : x1.Sound) : (drawBytes x0 x1).2.Sound := by
  induction x0 generalizing x1 with
  | zero => exact hx1
  | succ n ih =>
    unfold drawBytes
    exact ih _ (draw_sound _ hx1)

theorem tmAdd_sound (k : Nat) (n : Nat) (s : State) (hs : s.Sound) : (tmAdd k n s).Sound := by
  unfold tmAdd
  with_reducible repeat' (first | assumption | intro _ | (simp only [sound_mk]; refine ⟨?_, ?_, ?_, ?_⟩) | apply sound_keys | apply sound_ledger | apply sound_halts | apply sound_rec | (simp; done) | split | dsimp only)

theorem traceWord_sound (kind : Nat) (ch : BitVec 12) (e : EngId) (sec : Bool) (s : State) (hs : s.Sound) : (traceWord kind ch e sec s).Sound := by
  unfold traceWord
  with_reducible repeat' (first | assumption | intro _ | (simp only [sound_mk]; refine ⟨?_, ?_, ?_, ?_⟩) | apply sound_keys | apply sound_ledger | apply sound_halts | apply sound_rec | (simp; done) | split | dsimp only)

theorem traceAny_sound (kind : Nat) (ch : BitVec 12) (g : Option Nat) (sec : Bool) (s : State) (hs : s.Sound) : (traceAny kind ch g sec s).Sound := by
  unfold traceAny
  with_reducible repeat' (first | assumption | intro _ | apply draw_sound | apply traceWord_sound | refine of_pair ?_ (by assumption) | split | dsimp only)

theorem lgSuppCode_sound (k : Nat) (s : State) (hs : s.Sound) : (lgSuppCode k s).2.Sound := by
  unfold lgSuppCode
  with_reducible repeat' (first | assumption | intro _ | apply draw_sound | refine of_pair ?_ (by assumption) | split | dsimp only)

theorem lgClose_sound (k : Nat) (m : Nat) (s : State) (hs : s.Sound) : (lgClose k m s).Sound := by
  have ht : State.Sound { s with ledger := { s.ledger with wins := Tbl.put none s.ledger.wins k none } } :=
    ⟨hs.keys, hs.ledger, hs.halts, hs.recoveries⟩
  unfold lgClose
  dsimp only
  split
  · exact ht
  · exact lgEnqueue_sound _ _ _ _ _ _ (lgSuppCode_sound _ _ ht)

theorem lgOpen_sound (k : Nat) (code : Nat) (sev : Nat) (inj : Bool) (lo : Word) (hi : Word) (s : State) (hs : s.Sound) : (lgOpen k code sev inj lo hi s).Sound := by
  unfold lgOpen
  with_reducible repeat' (first | assumption | intro _ | apply lgEnqueue_sound | (simp only [sound_mk]; refine ⟨?_, ?_, ?_, ?_⟩) | apply sound_keys | apply sound_ledger | apply sound_halts | apply sound_rec | (simp; done) | split | dsimp only)

theorem lgRecord_sound (code : Nat) (sev : Nat) (inj : Bool) (lo : Word) (hi : Word) (s : State) (hs : s.Sound) : (lgRecord code sev inj lo hi s).Sound := by
  unfold lgRecord
  with_reducible repeat' (first | assumption | intro _ | apply lgEnqueue_sound | apply lgOpen_sound | apply lgClose_sound | (simp only [sound_mk]; refine ⟨?_, ?_, ?_, ?_⟩) | apply sound_keys | apply sound_ledger | apply sound_halts | apply sound_rec | (simp; done) | split | dsimp only)

theorem irqCheck_sound (i : Nat) (s : State) (hs : s.Sound) : (irqCheck i s).Sound := by
  unfold irqCheck
  with_reducible repeat' (first | assumption | intro _ | apply modIrq_sound | split | dsimp only)

theorem irqEvent_sound (i : Nat) (s : State) (hs : s.Sound) : (irqEvent i s).Sound := by
  unfold irqEvent
  with_reducible repeat' (first | assumption | intro _ | apply irqCheck_sound | apply modIrq_sound | split | dsimp only)

theorem evoEvent_sound (m : Nat) (s : State) (hs : s.Sound) : (evoEvent m s).Sound := by
  unfold evoEvent
  with_reducible repeat' (first | assumption | intro _ | apply modEvo_sound | split | dsimp only)

theorem ecTake_sound (e : Nat) (s : State) (hs : s.Sound) : (ecTake e s).Sound := by
  unfold ecTake
  with_reducible repeat' (first | assumption | intro _ | apply modSub_sound | apply irqEvent_sound | apply foldS_sound | (simp only [sound_mk]; refine ⟨?_, ?_, ?_, ?_⟩) | apply sound_keys | apply sound_ledger | apply sound_halts | apply sound_rec | (simp; done) | split | dsimp only)

theorem ecTakeAll_sound (es : List Nat) (s : State) (hs : s.Sound) : (ecTakeAll es s).Sound := by
  unfold ecTakeAll
  with_reducible repeat' (first | assumption | intro _ | apply evoEvent_sound | apply ecTake_sound | apply foldS_sound | split | dsimp only)

theorem emitAll_sound (ps : List Nat) (s : State) (hs : s.Sound) : (emitAll ps s).Sound := by
  unfold emitAll
  with_reducible repeat' (first | assumption | intro _ | apply ecTakeAll_sound | split | dsimp only)

theorem emit_sound (p : Nat) (s : State) (hs : s.Sound) : (emit p s).Sound := by
  unfold emit
  with_reducible repeat' (first | assumption | intro _ | apply emitAll_sound | split | dsimp only)

theorem rqAckNow_sound (n : Nat) (s : State) (hs : s.Sound) : (rqAckNow n s).Sound := by
  unfold rqAckNow
  with_reducible repeat' (first | assumption | intro _ | apply modRq_sound | split | dsimp only)

theorem rqRecheck_sound (s : State) (hs : s.Sound) : (rqRecheck s).Sound := by
  unfold rqRecheck
  with_reducible repeat' (first | assumption | intro _ | apply rqAckNow_sound | apply foldS_sound | split | dsimp only)

theorem consume_sound (j : Nat) (s : State) (hs : s.Sound) : (consume j s).Sound := by
  unfold consume
  with_reducible repeat' (first | assumption | intro _ | apply modSub_sound | apply rqAckNow_sound | apply foldS_sound | split | dsimp only)

theorem modOwned_sound (ch : BitVec 12) (f : Link → Link) (s : State) (hs : s.Sound) : (modOwned ch f s).Sound := by
  unfold modOwned
  with_reducible repeat' (first | assumption | intro _ | apply modLink_sound | apply foldS_sound | split | dsimp only)

theorem judgeCount_sound (j : Judged) (s : State) (hs : s.Sound) : (judgeCount j s).Sound := by
  unfold judgeCount
  with_reducible repeat' (first | assumption | intro _ | apply tmAdd_sound | split | dsimp only)

theorem touch_sound (ch : BitVec 12) (s : State) (hs : s.Sound) : (touch ch s).Sound := by
  unfold touch
  with_reducible repeat' (first | assumption | intro _ | apply modChan_sound | split | dsimp only)

theorem emitT_sound (ps : List Nat) (s : State) (hs : s.Sound) : (emitT ps s).Sound := by
  unfold emitT
  with_reducible repeat' (first | assumption | intro _ | apply emitAll_sound | apply touch_sound | apply foldS_sound | split | dsimp only)

theorem emitUp_sound (ps : List Nat) (s : State) (hs : s.Sound) : (emitUp ps s).Sound := by
  unfold emitUp
  with_reducible repeat' (first | assumption | intro _ | apply emitT_sound | (simp only [sound_mk]; refine ⟨?_, ?_, ?_, ?_⟩) | apply sound_keys | apply sound_ledger | apply sound_halts | apply sound_rec | (simp; done) | split | dsimp only)

theorem signalTake_sound (e : Nat) (s : State) (hs : s.Sound) : (signalTake e s).Sound := by
  unfold signalTake
  with_reducible repeat' (first | assumption | intro _ | apply ecTakeAll_sound | apply touch_sound | apply foldS_sound | split | dsimp only)

theorem rewindOwned_sound (ch : BitVec 12) (s : State) (hs : s.Sound) : (rewindOwned ch s).Sound := by
  unfold rewindOwned
  with_reducible repeat' (first | assumption | intro _ | apply modOwned_sound | apply emitUp_sound | apply modLink_sound | apply foldS_sound | split | dsimp only)

theorem haltPush_sound (ch : BitVec 12) (s : State) (hs : s.Sound) : (haltPush ch s).Sound := by
  unfold haltPush
  with_reducible repeat' (first | assumption | intro _ | apply emitT_sound | (simp only [sound_mk]; refine ⟨?_, ?_, ?_, ?_⟩) | apply sound_keys | apply sound_ledger | apply sound_halts | apply sound_rec | split | dsimp only | (simp; done) | (simp; omega))

theorem enterHalted_sound (ch : BitVec 12) (cause : Byte) (status : Byte) (s : State) (hs : s.Sound) : (enterHalted ch cause status s).Sound := by
  unfold enterHalted
  with_reducible repeat' (first | assumption | intro _ | apply haltPush_sound | apply setChan_sound | split | dsimp only)

theorem disarm_sound (ch : BitVec 12) (s : State) (hs : s.Sound) : (disarm ch s).Sound := by
  unfold disarm
  with_reducible repeat' (first | assumption | intro _ | apply modPair_sound | apply modChan_sound | apply foldS_sound | split | dsimp only)

theorem queueResult_sound (ch : BitVec 12) (want : Bool) (p : Release) (flags : Byte) (s : State) (hs : s.Sound) : (queueResult ch want p flags s).Sound := by
  unfold queueResult
  with_reducible repeat' (first | assumption | intro _ | apply modChan_sound | split | dsimp only)

theorem completeWith_sound (ch : BitVec 12) (idx : BitVec 16) (ntDone : Option Bool) (status : Byte) (flags : Byte) (bytes : BitVec 48) (tag : BitVec 16) (s : State) (hs : s.Sound) : (completeWith ch idx ntDone status flags bytes tag s).Sound := by
  unfold completeWith
  with_reducible repeat' (first | assumption | intro _ | apply queueResult_sound | apply disarm_sound | apply setChan_sound | split | dsimp only)

theorem completeOrder_sound (ch : BitVec 12) (status : Byte) (bytes : BitVec 48) (late : Bool) (replayed : Bool) (s : State) (hs : s.Sound) : (completeOrder ch status bytes late replayed s).Sound := by
  unfold completeOrder
  with_reducible repeat' (first | assumption | intro _ | apply tmAdd_sound | apply completeWith_sound | apply modOwned_sound | split | dsimp only)

theorem completeFree_sound (ch : BitVec 12) (status : Byte) (bytes : BitVec 48) (late : Bool) (replayed : Bool) (s : State) (hs : s.Sound) : (completeFree ch status bytes late replayed s).Sound := by
  unfold completeFree
  with_reducible repeat' (first | assumption | intro _ | apply traceAny_sound | apply completeOrder_sound | split | dsimp only)

theorem completeUnstarted_sound (ch : BitVec 12) (e : CEntry) (status : Byte) (flags : Byte) (s : State) (hs : s.Sound) : (completeUnstarted ch e status flags s).Sound := by
  unfold completeUnstarted
  with_reducible repeat' (first | assumption | intro _ | apply setChan_sound | apply traceAny_sound | apply completeWith_sound | split | dsimp only)

theorem settle_sound (ch : BitVec 12) (s : State) (hs : s.Sound) : (settle ch s).Sound := by
  unfold settle
  with_reducible repeat' (first | assumption | intro _ | apply setChan_sound | split | dsimp only)

theorem startBarrier_sound (ch : BitVec 12) (e : CEntry) (s : State) (hs : s.Sound) : (startBarrier ch e s).Sound := by
  unfold startBarrier
  with_reducible repeat' (first | assumption | intro _ | apply modChan_sound | split | dsimp only)

theorem evalRunAt_sound (ch : BitVec 12) (e : CEntry) (s : State) (hs : s.Sound) : (evalRunAt ch e s).Sound := by
  unfold evalRunAt
  with_reducible repeat' (first | assumption | intro _ | apply judgeCount_sound | apply modChan_sound | apply completeUnstarted_sound | split | dsimp only)

theorem considerOnce_sound (ch : BitVec 12) (s : State) (hs : s.Sound) : (considerOnce ch s).Sound := by
  unfold considerOnce
  with_reducible repeat' (first | assumption | intro _ | apply touch_sound | apply startBarrier_sound | apply evalRunAt_sound | apply modChan_sound | split | dsimp only)

theorem considerN_sound (ch : BitVec 12) (a : Nat) (x2 : State) (hx2 : x2.Sound) : (considerN ch a x2).Sound := by
  induction a generalizing x2 with
  | zero => exact touch_sound ch x2 hx2
  | succ n ih =>
    unfold considerN
    have h1 := considerOnce_sound ch x2 hx2
    have h2 := fun e st => completeUnstarted_sound ch e st 0 x2 hx2
    with_reducible repeat' (first | assumption | apply ih | apply h2 | apply touch_sound | split | dsimp only)

theorem considerHead_sound (ch : BitVec 12) (s : State) (hs : s.Sound) : (considerHead ch s).Sound := by
  unfold considerHead
  with_reducible repeat' (first | assumption | intro _ | apply considerN_sound | split | dsimp only)

theorem mirrorDue_sound (ch : BitVec 12) (s : State) (hs : s.Sound) : (mirrorDue ch s).Sound := by
  unfold mirrorDue
  with_reducible repeat' (first | assumption | intro _ | apply modChan_sound | split | dsimp only)

theorem handOver_sound (ch : BitVec 12) (l : List Release) (s : State) (hs : s.Sound) : (handOver ch l s).Sound := by
  unfold handOver
  with_reducible repeat' (first | assumption | intro _ | apply modChan_sound | split | dsimp only)

theorem supRequest_sound (x : Nat) (v : BitVec 3) (s : State) (hs : s.Sound) : (supRequest x v s).Sound := by
  unfold supRequest
  with_reducible repeat' (first | assumption | intro _ | apply modSup_sound | (simp only [sound_mk]; refine ⟨?_, ?_, ?_, ?_⟩) | apply sound_keys | apply sound_ledger | apply sound_halts | apply sound_rec | (simp; done) | split | dsimp only)

theorem supPolicy_sound (x : Nat) (s : State) (hs : s.Sound) : (supPolicy x s).Sound := by
  unfold supPolicy
  with_reducible repeat' (first | assumption | intro _ | apply modSup_sound | apply supRequest_sound | split | dsimp only)

theorem clkPolicy_sound (c : Nat) (s : State) (hs : s.Sound) : (clkPolicy c s).Sound := by
  unfold clkPolicy
  with_reducible repeat' (first | assumption | intro _ | apply modClk_sound | split | dsimp only)

theorem pmiPolicy_sound (s : State) (hs : s.Sound) : (pmiPolicy s).Sound := by
  unfold pmiPolicy
  with_reducible repeat' (first | assumption | intro _ | apply clkPolicy_sound | apply supPolicy_sound | apply foldS_sound | split | dsimp only)

theorem wakeAdvance_sound (s : State) (hs : s.Sound) : (wakeAdvance s).Sound := by
  unfold wakeAdvance
  with_reducible repeat' (first | assumption | intro _ | apply modDom_sound | apply foldS_sound | split | dsimp only)

theorem wakeRecord_sound (d : Nat) (why : Option (Nat × Nat)) (s : State) (hs : s.Sound) : (wakeRecord d why s).Sound := by
  unfold wakeRecord
  with_reducible repeat' (first | assumption | intro _ | (simp only [sound_mk]; refine ⟨?_, ?_, ?_, ?_⟩) | apply sound_keys | apply sound_ledger | apply sound_halts | apply sound_rec | (simp; done) | split | dsimp only)

theorem startWake_sound (d : Nat) (why : Option (Nat × Nat)) (s : State) (hs : s.Sound) : (startWake d why s).Sound := by
  unfold startWake
  with_reducible repeat' (first | assumption | intro _ | apply modDom_sound | apply wakeAdvance_sound | apply pmiPolicy_sound | apply wakeRecord_sound | split | dsimp only)

theorem beginWake_sound (d : Nat) (src : Nat) (detail : Nat) (s : State) (hs : s.Sound) : (beginWake d src detail s).Sound := by
  unfold beginWake
  with_reducible repeat' (first | assumption | intro _ | apply startWake_sound | apply foldS_sound | split | dsimp only)

theorem issue_sound (t : Txn) (s : State) (hs : s.Sound) : (issue t s).Sound := by
  unfold issue
  with_reducible repeat' (first | assumption | intro _ | apply beginWake_sound | (simp only [sound_mk]; refine ⟨?_, ?_, ?_, ?_⟩) | apply sound_keys | apply sound_ledger | apply sound_halts | apply sound_rec | (simp; done) | split | dsimp only)

theorem modTxn_sound (s : State) (t : Nat) (f : Txn → Txn) (hs : s.Sound) : (State.modTxn s t f).Sound := by
  unfold State.modTxn
  with_reducible repeat' (first | assumption | intro _ | (simp only [sound_mk]; refine ⟨?_, ?_, ?_, ?_⟩) | apply sound_keys | apply sound_ledger | apply sound_halts | apply sound_rec | (simp; done) | split | dsimp only)

theorem dropTxn_sound (s : State) (t : Nat) (hs : s.Sound) : (State.dropTxn s t).Sound :=
  ⟨hs.keys, hs.ledger, hs.halts, hs.recoveries⟩

theorem endGrant_sound (t : Txn) (s : State) (hs : s.Sound) : (endGrant t s).Sound := by
  unfold endGrant
  with_reducible repeat' (first | assumption | intro _ | apply modArb_sound | split | dsimp only)

theorem withdrawTxn_sound (t : Txn) (s : State) (hs : s.Sound) : (withdrawTxn t s).Sound := by
  unfold withdrawTxn
  with_reducible repeat' (first | assumption | intro _ | apply endGrant_sound | apply dropTxn_sound | apply modArb_sound | split | dsimp only)

theorem withdrawAll_sound (f : Txn → Bool) (s : State) (hs : s.Sound) : (withdrawAll f s).Sound := by
  unfold withdrawAll
  with_reducible repeat' (first | assumption | intro _ | apply withdrawTxn_sound | apply foldS_sound | split | dsimp only)

theorem evictFrom_sound (k : Nat) (l : Nat) (s : State) (hs : s.Sound) : (evictFrom k l s).Sound := by
  unfold evictFrom
  with_reducible repeat' (first | assumption | intro _ | apply modLine_sound | apply issue_sound | split | dsimp only)

theorem makeRoom_sound (k : Nat) (l : Nat) (a : Nat) (x3 : State) (hx3 : x3.Sound) : (makeRoom k l a x3).Sound := by
  induction a generalizing x3 with
  | zero => exact hx3
  | succ n ih =>
    unfold makeRoom
    have h1 := ih _ hx3
    with_reducible repeat' (first | assumption | apply evictFrom_sound | apply ih | apply draw_sound | refine of_pair ?_ (by assumption) | split | dsimp only)

theorem obtain__sound (k : Nat) (l : Nat) (s : State) (hs : s.Sound) : (obtain_ k l s).Sound := by
  unfold obtain_
  with_reducible repeat' (first | assumption | intro _ | apply modLine_sound | apply makeRoom_sound | split | dsimp only)

theorem lineRead_sound (e : EngId) (what : Nat) (a : Nat) (s : State) (hs : s.Sound) : GotSound (lineRead e what a s) := by
  unfold lineRead
  with_reducible repeat' (first | assumption | intro _ | apply obtain__sound | apply modEng_sound | apply issue_sound | apply gotSound_ok | apply gotSound_wait | split | dsimp only)

theorem linesRead_sound (e : EngId) (what : Nat) (x2 : Nat) (x3 : Nat) (x4 : State) (hx4 : x4.Sound) : GotSound (linesRead e what x2 x3 x4) := by
  induction x2 generalizing x3 x4 with
  | zero => exact gotSound_ok hx4
  | succ n ih =>
    unfold linesRead
    exact gotBind_sound (lineRead_sound _ _ _ _ hx4) (fun _ _ h => gotBind_sound (ih _ _ h) (fun _ _ h => gotSound_ok h))

theorem psRead_sound (e : EngId) (what : Nat) (off : Nat) (n : Nat) (s : State) (hs : s.Sound) : GotSound (psRead e what off n s) := by
  unfold psRead
  with_reducible repeat' (first | assumption | intro _ | apply linesRead_sound | apply gotBind_sound | apply gotSound_ok | apply gotSound_wait | refine of_gotOk ?_ (by assumption) | refine of_gotWait ?_ (by assumption) | split | dsimp only)

theorem lineWrite_sound (w : BitVec 2) (l : Nat) (o : Nat) (b : List Byte) (s : State) (hs : s.Sound) : (lineWrite w l o b s).2.Sound := by
  unfold lineWrite
  with_reducible repeat' (first | assumption | intro _ | apply modLine_sound | apply makeRoom_sound | apply beginWake_sound | apply issue_sound | split | dsimp only)

theorem dataWrite_sound (e : EngId) (ss : BitVec 3) (d : Desc) (addr : DWord) (b : List Byte) (counted : Bool) (s : State) (hs : s.Sound) : (dataWrite e ss d addr b counted s).Sound := by
  unfold dataWrite
  with_reducible repeat' (first | assumption | intro _ | apply modEng_sound | apply issue_sound | split | dsimp only)

theorem dataBursts_sound (e : EngId) (ss : BitVec 3) (d : Desc) (fuel : Nat) (a : DWord) (b : List Byte) (s : State) (hs : s.Sound) : (dataBursts e ss d fuel a b s).Sound := by
  induction fuel generalizing a b s with
  | zero => exact hs
  | succ n ih =>
    unfold dataBursts
    split
    · exact hs
    · exact ih _ _ _ (dataWrite_sound _ _ _ _ _ _ _ hs)

theorem flush_sound (e : EngId) (s : State) (hs : s.Sound) : (flush e s).Sound := by
  unfold flush
  with_reducible repeat' (first | assumption | intro _ | apply modEng_sound | apply dataBursts_sound | split | dsimp only)

theorem takeExc_sound (e : EngId) (cause : Nat) (info : Word) (epc : BitVec 32) (eaddr : DWord) (strm : Option (BitVec 3)) (s : State) (hs : s.Sound) : (takeExc e cause info epc eaddr strm s).Sound := by
  unfold takeExc
  with_reducible repeat' (first | assumption | intro _ | apply flush_sound | apply setEng_sound | split | dsimp only)

theorem excAt_sound (e : EngId) (cause : Nat) (info : Word) (eaddr : DWord) (strm : Option (BitVec 3)) (s : State) (hs : s.Sound) : (excAt e cause info eaddr strm s).Sound := by
  unfold excAt
  with_reducible repeat' (first | assumption | intro _ | apply takeExc_sound | split | dsimp only)

theorem illegal_sound (e : EngId) (op : Nat) (w : IW) (s : State) (hs : s.Sound) : (illegal e op w s).Sound := by
  unfold illegal
  with_reducible repeat' (first | assumption | intro _ | apply excAt_sound | split | dsimp only)

theorem strmExc_sound (e : EngId) (cause : Nat) (i : BitVec 3) (s : State) (hs : s.Sound) : (strmExc e cause i s).Sound := by
  unfold strmExc
  with_reducible repeat' (first | assumption | intro _ | apply excAt_sound | split | dsimp only)

theorem descExc_sound (e : EngId) (i : BitVec 3) (s : State) (hs : s.Sound) : (descExc e i s).Sound := by
  unfold descExc
  with_reducible repeat' (first | assumption | intro _ | apply excAt_sound | split | dsimp only)

theorem xformExc_sound (e : EngId) (sub : Nat) (bnd : Nat) (s : State) (hs : s.Sound) : (xformExc e sub bnd s).Sound := by
  unfold xformExc
  with_reducible repeat' (first | assumption | intro _ | apply excAt_sound | split | dsimp only)

theorem raiseRead_sound (e : EngId) (s : State) (hs : s.Sound) : (raiseRead e s).Sound := by
  unfold raiseRead
  with_reducible repeat' (first | assumption | intro _ | apply excAt_sound | apply modEng_sound | split | dsimp only)

theorem fetch_sound (e : EngId) (s : State) (hs : s.Sound) : (fetch e s).Sound := by
  unfold fetch
  with_reducible repeat' (first | assumption | intro _ | apply psRead_sound | apply draw_sound | apply modEng_sound | apply gotRun_sound | refine of_pair ?_ (by assumption) | refine of_gotOk ?_ (by assumption) | refine of_gotWait ?_ (by assumption) | split | dsimp only)

theorem entryRaises_sound (e : EngId) (op : Nat) (w : IW) (cause : Nat) (s : State) (hs : s.Sound) : (entryRaises e op w cause s).Sound := by
  unfold entryRaises
  with_reducible repeat' (first | assumption | intro _ | apply illegal_sound | apply draw_sound | apply excAt_sound | refine of_pair ?_ (by assumption) | split | dsimp only)

theorem insn_sound (e : EngId) (op : Nat) (w : IW) (ok : Bool) (body : State → State) (s : State) (hbody : ∀ u, State.Sound u → (body u).Sound) (hs : s.Sound) : (insn e op w ok body s).Sound := by
  unfold insn
  with_reducible repeat' (first | assumption | intro _ | apply raiseRead_sound | apply fetch_sound | apply entryRaises_sound | apply illegal_sound | apply hbody | split | dsimp only)

theorem insnB_sound (e : EngId) (op : Nat) (w : IW) (ok : Bool) (body : State → State) (s : State) (hbody : ∀ u, State.Sound u → (body u).Sound) (hs : s.Sound) : (insnB e op w ok body s).Sound := by
  unfold insnB
  with_reducible repeat' (first | assumption | intro _ | apply insn_sound | apply modEng_sound | apply hbody | split | dsimp only)

theorem regInsn_sound (e : EngId) (op : Nat) (w : IW) (ok : Bool) (f : Engine → Engine) (s : State) (hs : s.Sound) : (regInsn e op w ok f s).Sound := by
  unfold regInsn
  with_reducible repeat' (first | assumption | intro _ | apply insn_sound | apply modEng_sound | split | dsimp only)

theorem startCkpt_sound (e : EngId) (pc : BitVec 32) (k : AfterCk) (s : State) (hs : s.Sound) : (startCkpt e pc k s).Sound := by
  unfold startCkpt
  with_reducible repeat' (first | assumption | intro _ | apply modEng_sound | split | dsimp only)

theorem ckptAt_sound (e : EngId) (pc : BitVec 32) (k : AfterCk) (s : State) (hs : s.Sound) : (ckptAt e pc k s).Sound := by
  unfold ckptAt
  with_reducible repeat' (first | assumption | intro _ | apply startCkpt_sound | apply flush_sound | split | dsimp only)

theorem withEffect_sound (e : EngId) (body : State → State) (s : State) (hbody : ∀ u, State.Sound u → (body u).Sound) (hs : s.Sound) : (withEffect e body s).Sound := by
  unfold withEffect
  with_reducible repeat' (first | assumption | intro _ | apply ckptAt_sound | apply hbody | split | dsimp only)

theorem markDue_sound (e : EngId) (s : State) (hs : s.Sound) : (markDue e s).Sound := by
  unfold markDue
  with_reducible repeat' (first | assumption | intro _ | apply modEng_sound | split | dsimp only)

theorem freeEng_sound (e : EngId) (s : State) (hs : s.Sound) : (freeEng e s).Sound := by
  unfold freeEng
  with_reducible repeat' (first | assumption | intro _ | apply modEng_sound | split | dsimp only)

theorem dropEffects_sound (e : EngId) (s : State) (hs : s.Sound) : (dropEffects e s).Sound := by
  unfold dropEffects
  with_reducible repeat' (first | assumption | intro _ | apply modEng_sound | apply modChan_sound | split | dsimp only)

theorem releaseTo_sound (e : EngId) (r : WaitReason) (s : State) (hs : s.Sound) : (releaseTo e r s).Sound := by
  unfold releaseTo
  with_reducible repeat' (first | assumption | intro _ | apply touch_sound | apply modChan_sound | apply freeEng_sound | split | dsimp only)

theorem endOrder_sound (e : EngId) (status : Byte) (bytes : Nat) (s : State) (hs : s.Sound) : (endOrder e status bytes s).Sound := by
  unfold endOrder
  with_reducible repeat' (first | assumption | intro _ | apply completeOrder_sound | apply freeEng_sound | apply considerHead_sound | apply traceWord_sound | split | dsimp only)

theorem fireActs_sound (ch : BitVec 12) (s : State) (hs : s.Sound) : (fireActs ch s).Sound := by
  unfold fireActs
  with_reducible repeat' (first | assumption | intro _ | apply touch_sound | apply modChan_sound | split | dsimp only)

theorem fireChan_sound (ch : BitVec 12) (s : State) (hs : s.Sound) : (fireChan ch s).Sound := by
  unfold fireChan
  with_reducible repeat' (first | assumption | intro _ | apply modChan_sound | apply tmAdd_sound | apply disarm_sound | apply fireActs_sound | (simp only [sound_mk]; refine ⟨?_, ?_, ?_, ?_⟩) | apply sound_keys | apply sound_ledger | apply sound_halts | apply sound_rec | (simp; done) | split | dsimp only)

theorem lateActions_sound (s : State) (hs : s.Sound) : (lateActions s).Sound := by
  unfold lateActions
  with_reducible repeat' (first | assumption | intro _ | apply fireActs_sound | apply emitT_sound | apply foldS_sound | (simp only [sound_mk]; refine ⟨?_, ?_, ?_, ?_⟩) | apply sound_keys | apply sound_ledger | apply sound_halts | apply sound_rec | (simp; done) | split | dsimp only)

theorem waitTake_sound (ch : BitVec 12) (s : State) (hs : s.Sound) : (waitTake ch s).Sound := by
  unfold waitTake
  with_reducible repeat' (first | assumption | intro _ | apply consume_sound | apply fireChan_sound | split | dsimp only)

theorem commitStep_sound (e : EngId) (pc : BitVec 32) (s : State) (hs : s.Sound) : (commitStep e pc s).Sound := by
  unfold commitStep
  with_reducible repeat' (first | assumption | intro _ | apply modChan_sound | apply modOwned_sound | apply setEng_sound | apply traceWord_sound | apply tmAdd_sound | split | dsimp only)

theorem migrate_sound (e : EngId) (s : State) (hs : s.Sound) : (migrate e s).Sound := by
  unfold migrate
  with_reducible repeat' (first | assumption | intro _ | apply releaseTo_sound | apply tmAdd_sound | split | dsimp only)

theorem afterCommit_sound (e : EngId) (pc : BitVec 32) (k : AfterCk) (s : State) (hs : s.Sound) : (afterCommit e pc k s).Sound := by
  unfold afterCommit
  with_reducible repeat' (first | assumption | intro _ | apply modEng_sound | apply migrate_sound | apply releaseTo_sound | apply endOrder_sound | apply waitTake_sound | apply modChan_sound | apply takeExc_sound | split | dsimp only)

theorem raiseImprecise_sound (e : EngId) (s : State) (hs : s.Sound) : (raiseImprecise e s).Sound := by
  unfold raiseImprecise
  with_reducible repeat' (first | assumption | intro _ | apply takeExc_sound | apply modEng_sound | split | dsimp only)

end Sys2Proof.Machine
end

