-- ==== Sys2Proof/Laws/SoundChan.lean ====
section
/-! SUPPORT. Keeping State.Sound: loads, faults, channels and the dispatcher; one lemma per definition. -/

namespace Sys2Proof.Machine

theorem setJob_sound (k : Nat) (j : Option ReadJob) (s : State) (hs : s.Sound) : (setJob k j s).Sound :=
  ⟨hs.keys, hs.ledger, hs.halts, hs.recoveries⟩

theorem readNext_sound (key : Nat) (a : Nat) (x2 : State) (hx2 : x2.Sound) : (readNext key a x2).Sound := by
  induction a generalizing x2 with
  | zero => exact hx2
  | succ n ih =>
    unfold readNext
    with_reducible repeat' (first | apply ih | assumption | intro _ | apply beginWake_sound | apply draw_sound | apply issue_sound | apply setJob_sound | refine of_pair ?_ (by assumption) | split | dsimp only)

theorem pumpLoads_sound (s : State) (hs : s.Sound) : (pumpLoads s).Sound := by
  unfold pumpLoads
  with_reducible repeat' (first | assumption | intro _ | apply readNext_sound | apply foldS_sound | split | dsimp only)

theorem loaderAnswered_sound (x : Txn) (key : Nat) (code : BitVec 3) (data : List Byte) (s : State) (hs : s.Sound) : (loaderAnswered x key code data s).Sound := by
  unfold loaderAnswered
  with_reducible repeat' (first | assumption | intro _ | apply issue_sound | apply setJob_sound | split | dsimp only)

theorem startRead_sound (key : Nat) (port : Nat) (a : DWord) (len : Nat) (sig : Bool) (s : State) (hs : s.Sound) : (startRead key port a len sig s).Sound := by
  unfold startRead
  with_reducible repeat' (first | assumption | intro _ | apply readNext_sound | apply setJob_sound | split | dsimp only)

theorem startReloads_sound (g : Nat) (s : State) (hs : s.Sound) : (startReloads g s).Sound := by
  unfold startReloads
  with_reducible repeat' (first | assumption | intro _ | apply startRead_sound | split | dsimp only)

theorem modFcr_sound (s : State) (f : Fcr → Fcr) (hs : s.Sound) : (State.modFcr s f).Sound :=
  ⟨hs.keys, hs.ledger, hs.halts, hs.recoveries⟩

theorem feCapture_sound (n : Nat) (sev : Nat) (i : FaultInfo) (rail : Bool) (s : State) (hs : s.Sound) : (feCapture n sev i rail s).Sound := by
  unfold feCapture
  with_reducible repeat' (first | assumption | intro _ | apply emitT_sound | (simp only [sound_mk]; refine ⟨?_, ?_, ?_, ?_⟩) | apply sound_keys | apply sound_ledger | apply sound_halts | apply sound_rec | (simp; done) | split | dsimp only)

theorem fltAct_sound (sev : Nat) (s : State) (hs : s.Sound) : (fltAct sev s).Sound := by
  unfold fltAct
  with_reducible repeat' (first | assumption | intro _ | apply modFcr_sound | split | dsimp only)

theorem recordFault_sound (n : Nat) (i : FaultInfo) (rail : Bool) (s : State) (hs : s.Sound) : (recordFault n i rail s).Sound := by
  unfold recordFault
  with_reducible repeat' (first | assumption | intro _ | apply modFcr_sound | apply lgRecord_sound | apply fltAct_sound | apply feCapture_sound | split | dsimp only)

theorem enterSpare_sound (g : Nat) (s : State) (hs : s.Sound) : (enterSpare g s).Sound := by
  unfold enterSpare
  with_reducible repeat' (first | assumption | intro _ | apply modSlot_sound | split | dsimp only)

theorem retireSlot_sound (e : EngId) (s : State) (hs : s.Sound) : (retireSlot e s).Sound := by
  unfold retireSlot
  with_reducible repeat' (first | assumption | intro _ | apply enterSpare_sound | apply modSlot_sound | split | dsimp only)

theorem returnSlot_sound (e : EngId) (s : State) (hs : s.Sound) : (returnSlot e s).Sound := by
  unfold returnSlot
  with_reducible repeat' (first | assumption | intro _ | apply modSlot_sound | split | dsimp only)

theorem rotationDone_sound (g : Nat) (r : Fin 17) (x : Fin 17) (s : State) (hs : s.Sound) : (rotationDone g r x s).Sound := by
  unfold rotationDone
  with_reducible repeat' (first | assumption | intro _ | apply modSlot_sound | apply modGal_sound | apply lgRecord_sound | apply modDoc_sound | apply sound_rec | split | dsimp only | (simp; omega))

theorem cordonSlot_sound (e : EngId) (s : State) (hs : s.Sound) : (cordonSlot e s).Sound := by
  unfold cordonSlot
  with_reducible repeat' (first | assumption | intro _ | apply traceWord_sound | apply modSlot_sound | apply rotationDone_sound | apply modGal_sound | split | dsimp only)

theorem stopEngine_sound (e : EngId) (s : State) (hs : s.Sound) : (stopEngine e s).Sound := by
  unfold stopEngine
  with_reducible repeat' (first | assumption | intro _ | apply withdrawAll_sound | apply modEng_sound | split | dsimp only)

theorem stopGal_sound (g : Nat) (s : State) (hs : s.Sound) : (stopGal g s).Sound := by
  unfold stopGal
  with_reducible repeat' (first | assumption | intro _ | apply stopEngine_sound | apply foldS_sound | split | dsimp only)

theorem rehomeAes_sound (e : EngId) (s : State) (hs : s.Sound) : (rehomeAes e s).Sound := by
  unfold rehomeAes
  with_reducible repeat' (first | assumption | intro _ | apply stopEngine_sound | apply modChan_sound | split | dsimp only)

theorem cordonPipe_sound (g : Nat) (p : Bool) (s : State) (hs : s.Sound) : (cordonPipe g p s).Sound := by
  unfold cordonPipe
  with_reducible repeat' (first | assumption | intro _ | apply traceAny_sound | apply modGal_sound | apply rehomeAes_sound | apply foldS_sound | split | dsimp only)

theorem cordonGal_sound (g : Nat) (key : Nat) (s : State) (hs : s.Sound) : (cordonGal g key s).Sound := by
  unfold cordonGal
  with_reducible repeat' (first | assumption | intro _ | apply stopGal_sound | apply traceAny_sound | apply modGal_sound | split | dsimp only)

theorem cordonSlice_sound (w : Nat) (s : State) (hs : s.Sound) : (cordonSlice w s).Sound := by
  unfold cordonSlice
  with_reducible repeat' (first | assumption | intro _ | apply traceAny_sound | apply evictFrom_sound | apply foldS_sound | (simp only [sound_mk]; refine ⟨?_, ?_, ?_, ?_⟩) | apply sound_keys | apply sound_ledger | apply sound_halts | apply sound_rec | (simp; done) | split | dsimp only)

theorem cordonPath_sound (w : Nat) (p : Nat) (s : State) (hs : s.Sound) : (cordonPath w p s).Sound := by
  unfold cordonPath
  with_reducible repeat' (first | assumption | intro _ | apply stopEngine_sound | apply modChan_sound | apply traceAny_sound | apply modArb_sound | apply withdrawAll_sound | apply foldS_sound | split | dsimp only)

theorem leavePath_sound (e : EngId) (s : State) (hs : s.Sound) : (leavePath e s).Sound := by
  unfold leavePath
  with_reducible repeat' (first | assumption | intro _ | apply stopEngine_sound | apply modChan_sound | split | dsimp only)

theorem stopWing_sound (w : Nat) (s : State) (hs : s.Sound) : (stopWing w s).Sound := by
  unfold stopWing
  with_reducible repeat' (first | assumption | intro _ | apply stopGal_sound | apply withdrawAll_sound | apply foldS_sound | split | dsimp only)

theorem cordonWing_sound (w : Nat) (s : State) (hs : s.Sound) : (cordonWing w s).Sound := by
  unfold cordonWing
  with_reducible repeat' (first | assumption | intro _ | apply stopWing_sound | apply traceAny_sound | apply modArb_sound | split | dsimp only)

theorem cordonPair_sound (n : Nat) (s : State) (hs : s.Sound) : (cordonPair n s).Sound := by
  unfold cordonPair
  with_reducible repeat' (first | assumption | intro _ | apply traceAny_sound | apply modPair_sound | split | dsimp only)

theorem endInternalChan_sound (ch : BitVec 12) (s : State) (hs : s.Sound) : (endInternalChan ch s).Sound := by
  unfold endInternalChan
  with_reducible repeat' (first | assumption | intro _ | apply considerHead_sound | apply completeUnstarted_sound | apply modEng_sound | apply dropEffects_sound | apply completeFree_sound | split | dsimp only)

theorem catUe_sound (ch : BitVec 12) (o : Nat) (s : State) (hs : s.Sound) : (catUe ch o s).Sound := by
  unfold catUe
  with_reducible repeat' (first | assumption | intro _ | apply setChan_sound | apply endInternalChan_sound | apply enterHalted_sound | apply disarm_sound | split | dsimp only)

theorem modBank_sound (g : Nat) (b : Bool) (f : Bank → Bank) (s : State) (hs : s.Sound) : (modBank g b f s).Sound := by
  unfold modBank
  with_reducible repeat' (first | assumption | intro _ | apply modGal_sound | split | dsimp only)

theorem loseBank_sound (g : Nat) (b : Bool) (s : State) (hs : s.Sound) : (loseBank g b s).Sound := by
  unfold loseBank
  with_reducible repeat' (first | assumption | intro _ | apply stopEngine_sound | apply modBank_sound | apply foldS_sound | split | dsimp only)

theorem loadFail_sound (reason : Nat) (id : Option Word) (s : State) (hs : s.Sound) : (loadFail reason id s).Sound := by
  unfold loadFail
  with_reducible repeat' (first | assumption | intro _ | apply draw_sound | apply setJob_sound | apply lgRecord_sound | apply modBank_sound | apply foldS_sound | refine of_pair ?_ (by assumption) | (simp only [sound_mk]; refine ⟨?_, ?_, ?_, ?_⟩) | apply sound_keys | apply sound_ledger | apply sound_halts | apply sound_rec | (simp; done) | split | dsimp only)

theorem loaderFault_sound (s : State) (hs : s.Sound) : (loaderFault s).Sound := by
  unfold loaderFault
  with_reducible repeat' (first | assumption | intro _ | apply draw_sound | apply loadFail_sound | refine of_pair ?_ (by assumption) | split | dsimp only)

theorem returnUnit_sound (n : Nat) (inst : Nat) (s : State) (hs : s.Sound) : (returnUnit n inst s).Sound := by
  unfold returnUnit
  dsimp only
  repeat' (first | with_reducible assumption | intro _ | with_reducible apply sound_ite | with_reducible apply modGal_sound | with_reducible apply modArb_sound | with_reducible apply modPair_sound | (simp only [sound_mk]; refine ⟨?_, ?_, ?_, ?_⟩) | with_reducible apply sound_keys | with_reducible apply sound_ledger | with_reducible apply sound_halts | with_reducible apply sound_rec | split | dsimp only)

theorem applyVerdict_sound (r : Recovery) (lasting : Bool) (s : State) (hs : s.Sound) : (applyVerdict r lasting s).Sound := by
  unfold applyVerdict
  with_reducible repeat' (first | assumption | intro _ | apply modGal_sound | apply retireSlot_sound | apply modSlot_sound | apply returnSlot_sound | apply loseBank_sound | apply returnUnit_sound | split | dsimp only)

theorem verdictCount_sound (lasting : Bool) (s : State) (hs : s.Sound) : (verdictCount lasting s).Sound := by
  unfold verdictCount
  with_reducible repeat' (first | assumption | intro _ | apply modFcr_sound | split | dsimp only)

theorem docVerdict_sound (code : Nat) (step : Nat) (r : Recovery) (tested : Bool) (s : State) (hs : s.Sound) : (docVerdict code step r tested s).Sound := by
  unfold docVerdict
  with_reducible repeat' (first | assumption | intro _ | apply verdictCount_sound | apply applyVerdict_sound | apply modDoc_sound | apply lgRecord_sound | apply tmAdd_sound | apply sound_rec | split | dsimp only | (simp; omega))

theorem fcrVerdict_sound (r : Recovery) (s : State) (hs : s.Sound) : (fcrVerdict r s).Sound := by
  unfold fcrVerdict
  with_reducible repeat' (first | assumption | intro _ | apply verdictCount_sound | apply applyVerdict_sound | split | dsimp only)

theorem setUnit_sound (i : Nat) (r : Option Recovery) (s : State) (hs : s.Sound) : (setUnit i r s).Sound := by
  unfold setUnit
  with_reducible repeat' (first | assumption | intro _ | apply modDoc_sound | apply sound_rec | split | dsimp only | (simp; omega))

theorem openRecovery_sound (r : Recovery) (s : State) (hs : s.Sound) : (openRecovery r s).Sound := by
  unfold openRecovery
  with_reducible repeat' (first | assumption | intro _ | apply fcrVerdict_sound | apply docVerdict_sound | apply setUnit_sound | apply modDoc_sound | apply modFcr_sound | apply sound_rec | split | dsimp only | (simp; omega))

theorem docFault_sound (s : State) (hs : s.Sound) : (docFault s).Sound := by
  unfold docFault
  apply foldS_sound
  · apply foldS_sound
    · apply modFcr_sound
      exact modDoc_sound _ _ hs (by simp)
    · intro a u hu
      exact fcrVerdict_sound a u hu
  · intro g u hu
    apply modGal_sound
    apply foldS_sound _ _ _ hu
    intro e v hv
    split
    · exact modSlot_sound _ _ _ hv
    · exact hv

theorem coreReact_sound (n : Nat) (ch : Option (BitVec 12)) (s : State) (hs : s.Sound) : (coreReact n ch s).Sound := by
  unfold coreReact
  with_reducible repeat' (first | assumption | intro _ | apply modFcr_sound | apply endInternalChan_sound | split | dsimp only)

theorem coreDone_sound (ns : List Nat) (ch : BitVec 12) (s : State) (hs : s.Sound) : (coreDone ns ch s).Sound := by
  unfold coreDone
  with_reducible repeat' (first | assumption | intro _ | apply modFcr_sound | split | dsimp only)

theorem slotFault_sound (n : Nat) (e : EngId) (s : State) (hs : s.Sound) : (slotFault n e s).Sound := by
  unfold slotFault
  with_reducible repeat' (first | assumption | intro _ | apply openRecovery_sound | apply cordonSlot_sound | apply stopEngine_sound | split | dsimp only)

theorem biteReact_sound (n : Nat) (req : Nat) (i : FaultInfo) (s : State) (hs : s.Sound) : (biteReact n req i s).Sound := by
  unfold biteReact
  dsimp only
  repeat' (first | with_reducible assumption | intro _ | with_reducible apply sound_ite | with_reducible apply coreReact_sound | with_reducible apply recordFault_sound | with_reducible apply docFault_sound | with_reducible apply openRecovery_sound | with_reducible apply cordonSlice_sound | with_reducible apply slotFault_sound | with_reducible apply cordonGal_sound | with_reducible apply cordonPath_sound | split | dsimp only)

theorem setHeld_sound (n : Nat) (inst : Nat) (s : State) (hs : s.Sound) : (setHeld n inst s).Sound := by
  unfold setHeld
  with_reducible repeat' (first | assumption | intro _ | apply modFcr_sound | split | dsimp only)

theorem stgReset_sound (a : Nat) (lsb : Nat) (s : State) (hs : s.Sound) : (stgReset a lsb s).Sound := by
  unfold stgReset
  with_reducible repeat' (first | assumption | intro _ | apply setApp_sound | apply setStg_sound | split | dsimp only)

theorem discardEntries_sound (ch : BitVec 12) (s : State) (hs : s.Sound) : (discardEntries ch s).Sound := by
  unfold discardEntries
  with_reducible repeat' (first | assumption | intro _ | apply disarm_sound | apply modChan_sound | split | dsimp only)

theorem csCorrected_sound (g : Nat) (inst : Nat) (s : State) (hs : s.Sound) : (csCorrected g inst s).Sound := by
  unfold csCorrected
  with_reducible repeat' (first | assumption | intro _ | apply modBank_sound | split | dsimp only)

theorem reactFault_sound (n : Nat) (i : FaultInfo) (s : State) (hs : s.Sound) : (reactFault n i s).Sound := by
  unfold reactFault
  extract_lets inst key stopIt k
  have h1 : State.Sound stopIt := by
    unfold stopIt
    split
    · exact stopEngine_sound _ _ hs
    · exact hs
  clear_value stopIt
  repeat' (first | with_reducible assumption | intro _ | with_reducible apply stopEngine_sound | with_reducible apply slotFault_sound | with_reducible apply loseBank_sound | with_reducible apply startReloads_sound | with_reducible apply modBank_sound | with_reducible apply openRecovery_sound | with_reducible apply cordonPipe_sound | with_reducible apply cordonGal_sound | with_reducible apply biteReact_sound | with_reducible apply csCorrected_sound | with_reducible apply cordonWing_sound | with_reducible apply cordonSlice_sound | with_reducible apply touch_sound | with_reducible apply discardEntries_sound | with_reducible apply cordonPair_sound | with_reducible apply modPair_sound | with_reducible apply setHeld_sound | with_reducible apply catUe_sound | with_reducible apply coreReact_sound | with_reducible apply setKey_sound | with_reducible apply docFault_sound | with_reducible apply stgReset_sound | with_reducible apply loaderFault_sound | with_reducible apply sound_ite | split | dsimp only)
  all_goals (simp [KeySlot.ok])

theorem reissueRing_sound (x : Txn) (s : State) (hs : s.Sound) : (reissueRing x s).Sound := by
  unfold reissueRing
  extract_lets n y
  clear_value n y
  generalize x.purpose = p
  cases p with
  | entry ch idx => exact issue_sound _ _ (modChan_sound _ _ _ hs)
  | release ch =>
    refine sound_ite (fun _ => ?_) (fun _ => hs)
    exact issue_sound _ _ (modChan_sound _ _ _ hs)
  | mirror ch => exact issue_sound _ _ hs
  | haltNotice ch => exact issue_sound _ _ hs
  | writeBack => exact issue_sound _ _ hs
  | engRead e w => exact hs
  | data e i c => exact hs
  | fill w => exact hs
  | unique w => exact hs
  | evict => exact hs
  | loader k =>
    dsimp only
    split
    · exact sound_ite (fun _ => issue_sound _ _ (setJob_sound _ _ _ hs)) (fun _ => hs)
    · exact hs
  | docent => exact hs

theorem withhold_sound (n : Nat) (i : FaultInfo) (s : State) (hs : s.Sound) : (withhold n i s).Sound := by
  unfold withhold
  with_reducible repeat' (first | assumption | intro _ | apply reissueRing_sound | apply withdrawTxn_sound | apply foldS_sound | split | dsimp only)

theorem assertFault_sound (n : Nat) (i : FaultInfo) (s : State) (hs : s.Sound) : (assertFault n i s).Sound := by
  unfold assertFault
  with_reducible repeat' (first | assumption | intro _ | apply reactFault_sound | apply withhold_sound | apply recordFault_sound | split | dsimp only)

theorem ecacheLoss_sound (w : Nat) (s : State) (hs : s.Sound) : (ecacheLoss w s).Sound := by
  unfold ecacheLoss
  with_reducible repeat' (first | assumption | intro _ | apply draw_sound | apply touch_sound | apply discardEntries_sound | refine of_pair ?_ (by assumption) | split | dsimp only)

theorem railReact_sound (n : Nat) (inst : Nat) (s : State) (hs : s.Sound) : (railReact n inst s).Sound := by
  unfold railReact
  with_reducible repeat' (first | apply sound_ite | assumption | intro _ | apply stopGal_sound | apply startReloads_sound | apply modBank_sound | apply ecacheLoss_sound | apply coreReact_sound | apply stopWing_sound | apply evictFrom_sound | apply modPair_sound | apply setHeld_sound | apply loaderFault_sound | apply docFault_sound | apply foldS_sound)

theorem waitJudged_sound (ch : BitVec 12) (j : Judged) (s : State) (hs : s.Sound) : (waitJudged ch j s).Sound := by
  unfold waitJudged
  with_reducible repeat' (first | assumption | intro _ | apply modChan_sound | apply touch_sound | apply considerHead_sound | apply completeFree_sound | split | dsimp only)

theorem commitJudged_sound (e : EngId) (pc : BitVec 32) (j : Judged) (s : State) (hs : s.Sound) : (commitJudged e pc j s).Sound := by
  unfold commitJudged
  with_reducible repeat' (first | assumption | intro _ | apply modEng_sound | split | dsimp only)

theorem rejudge_sound (ch : BitVec 12) (s : State) (hs : s.Sound) : (rejudge ch s).Sound := by
  unfold rejudge
  with_reducible repeat' (first | assumption | intro _ | apply fireChan_sound | apply modChan_sound | apply judgeCount_sound | apply touch_sound | apply considerHead_sound | apply completeUnstarted_sound | apply waitJudged_sound | apply commitJudged_sound | split | dsimp only)

theorem mirrorIssue_sound (ch : BitVec 12) (s : State) (hs : s.Sound) : (mirrorIssue ch s).Sound := by
  unfold mirrorIssue
  with_reducible repeat' (first | assumption | intro _ | apply issue_sound | apply setChan_sound | split | dsimp only)

theorem markerDone_sound (ch : BitVec 12) (e : CEntry) (s : State) (hs : s.Sound) : (markerDone ch e s).Sound := by
  unfold markerDone
  with_reducible repeat' (first | assumption | intro _ | apply considerHead_sound | apply modChan_sound | split | dsimp only)

theorem noticeRetry_sound (ch : BitVec 12) (s : State) (hs : s.Sound) : (noticeRetry ch s).Sound := by
  unfold noticeRetry
  with_reducible repeat' (first | assumption | intro _ | apply queueResult_sound | apply considerHead_sound | apply modChan_sound | apply markerDone_sound | apply touch_sound | split | dsimp only)

theorem ntHeadTo_sound (ch : BitVec 12) (v : BitVec 16) (s : State) (hs : s.Sound) : (ntHeadTo ch v s).Sound := by
  unfold ntHeadTo
  with_reducible repeat' (first | assumption | intro _ | apply noticeRetry_sound | apply setChan_sound | split | dsimp only)

theorem pauseNow_sound (ch : BitVec 12) (s : State) (hs : s.Sound) : (pauseNow ch s).Sound := by
  unfold pauseNow
  with_reducible repeat' (first | assumption | intro _ | apply touch_sound | apply modChan_sound | apply disarm_sound | split | dsimp only)

theorem pauseEngine_sound (ch : BitVec 12) (e : EngId) (s : State) (hs : s.Sound) : (pauseEngine ch e s).Sound := by
  unfold pauseEngine
  with_reducible repeat' (first | assumption | intro _ | apply modEng_sound | apply modChan_sound | split | dsimp only)

theorem haltNow_sound (ch : BitVec 12) (cause : Byte) (status : Byte) (s : State) (hs : s.Sound) : (haltNow ch cause status s).Sound := by
  unfold haltNow
  with_reducible repeat' (first | assumption | intro _ | apply touch_sound | apply enterHalted_sound | apply modChan_sound | apply disarm_sound | split | dsimp only)

theorem stopArrives_sound (ch : BitVec 12) (s : State) (hs : s.Sound) : (stopArrives ch s).Sound := by
  unfold stopArrives
  with_reducible repeat' (first | assumption | intro _ | apply haltNow_sound | apply haltPush_sound | apply setChan_sound | split | dsimp only)

theorem stopEntry_sound (ch : BitVec 12) (e : CEntry) (s : State) (hs : s.Sound) : (stopEntry ch e s).Sound := by
  unfold stopEntry
  with_reducible repeat' (first | assumption | intro _ | apply modChan_sound | apply queueResult_sound | split | dsimp only)

theorem stopEntries_sound (ch : BitVec 12) (x1 : Nat) (x2 : State) (hx2 : x2.Sound) : (stopEntries ch x1 x2).Sound := by
  induction x1 generalizing x2 with
  | zero => exact hx2
  | succ n ih =>
    unfold stopEntries
    dsimp only
    split
    · exact hx2
    · split
      · exact ih _ (stopEntry_sound _ _ _ hx2)
      · exact hx2

theorem stopEnd_sound (ch : BitVec 12) (s : State) (hs : s.Sound) : (stopEnd ch s).Sound := by
  unfold stopEnd
  with_reducible repeat' (first | assumption | intro _ | apply setChan_sound | apply haltNow_sound | split | dsimp only)

theorem abandonRing_sound (ch : BitVec 12) (s : State) (hs : s.Sound) : (abandonRing ch s).Sound := by
  unfold abandonRing
  with_reducible repeat' (first | assumption | intro _ | apply modChan_sound | apply disarm_sound | apply modEng_sound | apply dropEffects_sound | apply settle_sound | apply modOwned_sound | split | dsimp only)

theorem resumeHalted_sound (ch : BitVec 12) (s : State) (hs : s.Sound) : (resumeHalted ch s).Sound := by
  unfold resumeHalted
  with_reducible repeat' (first | assumption | intro _ | apply abandonRing_sound | apply mirrorIssue_sound | apply modEng_sound | apply setChan_sound | apply noticeRetry_sound | apply touch_sound | apply settle_sound | apply considerHead_sound | split | dsimp only)

theorem resumePaused_sound (ch : BitVec 12) (s : State) (hs : s.Sound) : (resumePaused ch s).Sound := by
  unfold resumePaused
  with_reducible repeat' (first | assumption | intro _ | apply modEng_sound | apply setChan_sound | apply noticeRetry_sound | apply touch_sound | apply rejudge_sound | apply settle_sound | apply considerHead_sound | split | dsimp only)

theorem invalidate_sound (ch : BitVec 12) (s : State) (hs : s.Sound) : (invalidate ch s).Sound := by
  unfold invalidate
  with_reducible repeat' (first | assumption | intro _ | apply touch_sound | apply discardEntries_sound | split | dsimp only)

theorem cmdReject_sound (ch : BitVec 12) (s : State) (hs : s.Sound) : (cmdReject ch s).Sound := by
  unfold cmdReject
  with_reducible repeat' (first | assumption | intro _ | apply modChan_sound | split | dsimp only)

theorem withdrawn_sound (ch : BitVec 12) (s : State) (hs : s.Sound) : (withdrawn ch s).Sound := by
  unfold withdrawn
  with_reducible repeat' (first | assumption | intro _ | apply setChan_sound | apply modEng_sound | split | dsimp only)

theorem doResume_sound (ch : BitVec 12) (s : State) (hs : s.Sound) : (doResume ch s).Sound := by
  unfold doResume
  with_reducible repeat' (first | assumption | intro _ | apply resumePaused_sound | apply cmdReject_sound | apply resumeHalted_sound | apply considerHead_sound | apply withdrawn_sound | split | dsimp only)

theorem doCommand_sound (ch : BitVec 12) (code : Nat) (s : State) (hs : s.Sound) : (doCommand ch code s).Sound := by
  unfold doCommand
  with_reducible repeat' (first | assumption | intro _ | apply cmdReject_sound | apply invalidate_sound | apply doResume_sound | apply withdrawn_sound | apply touch_sound | apply stopArrives_sound | apply modChan_sound | apply setChan_sound | split | dsimp only)

theorem freeChan_sound (ch : BitVec 12) (s : State) (hs : s.Sound) : (freeChan ch s).Sound := by
  unfold freeChan
  with_reducible repeat' (first | assumption | intro _ | apply setChan_sound | apply modSub_sound | apply rqRecheck_sound | apply foldS_sound | (simp only [sound_mk]; refine ⟨?_, ?_, ?_, ?_⟩) | apply sound_keys | apply sound_ledger | apply sound_halts | apply sound_rec | (simp; done) | split | dsimp only)

theorem writeCtrl_sound (ch : BitVec 12) (v : Word) (s : State) (hs : s.Sound) : OptSound (writeCtrl ch v s) := by
  unfold writeCtrl
  with_reducible repeat' (first | assumption | intro _ | apply considerHead_sound | apply setChan_sound | apply freeChan_sound | apply touch_sound | apply optSound_none | apply optSound_some | split | dsimp only)

theorem ctxWrite_sound (ch : BitVec 12) (o : Nat) (v : Word) (s : State) (hs : s.Sound) : OptSound (ctxWrite ch o v s) := by
  unfold ctxWrite
  with_reducible repeat' (first | assumption | intro _ | apply writeCtrl_sound | apply touch_sound | apply setChan_sound | apply optSound_none | apply optSound_some | refine of_optSound ?_ (by assumption) | split | dsimp only)

theorem discardReads_sound (e : EngId) (s : State) (hs : s.Sound) : (discardReads e s).Sound := by
  unfold discardReads
  with_reducible repeat' (first | assumption | intro _ | apply withdrawAll_sound | (simp only [sound_mk]; refine ⟨?_, ?_, ?_, ?_⟩) | apply sound_keys | apply sound_ledger | apply sound_halts | apply sound_rec | (simp; done) | split | dsimp only)

theorem finishStop_sound (ch : BitVec 12) (e : EngId) (status : Byte) (s : State) (hs : s.Sound) : (finishStop ch e status s).Sound := by
  unfold finishStop
  with_reducible repeat' (first | assumption | intro _ | apply discardReads_sound | apply settle_sound | apply modChan_sound | apply modOwned_sound | apply freeEng_sound | apply endOrder_sound | split | dsimp only)

theorem abortStop_sound (e : EngId) (s : State) (hs : s.Sound) : (abortStop e s).Sound := by
  unfold abortStop
  with_reducible repeat' (first | assumption | intro _ | apply modEng_sound | apply dropEffects_sound | split | dsimp only)

theorem killStop_sound (e : EngId) (s : State) (hs : s.Sound) : (killStop e s).Sound := by
  unfold killStop
  with_reducible repeat' (first | assumption | intro _ | apply modEng_sound | apply dropEffects_sound | apply withdrawAll_sound | (simp only [sound_mk]; refine ⟨?_, ?_, ?_, ?_⟩) | apply sound_keys | apply sound_ledger | apply sound_halts | apply sound_rec | (simp; done) | split | dsimp only)

theorem endHeld_sound (ch : BitVec 12) (status : Byte) (s : State) (hs : s.Sound) : (endHeld ch status s).Sound := by
  unfold endHeld
  with_reducible repeat' (first | assumption | intro _ | apply setChan_sound | apply considerHead_sound | apply completeFree_sound | apply completeUnstarted_sound | split | dsimp only)

theorem execPauseStopPoint_sound (ch : BitVec 12) (s : State) (hs : s.Sound) : OutSound (execPauseStopPoint ch s) := by
  unfold execPauseStopPoint
  with_reducible repeat' (first | assumption | intro _ | apply pauseEngine_sound | apply modEng_sound | apply pauseNow_sound | apply outSound_act | apply outSound_next | split | dsimp only)

theorem execAbortStopPoint_sound (ch : BitVec 12) (s : State) (hs : s.Sound) : OutSound (execAbortStopPoint ch s) := by
  unfold execAbortStopPoint
  with_reducible repeat' (first | assumption | intro _ | apply finishStop_sound | apply abortStop_sound | apply endHeld_sound | apply outSound_act | apply outSound_next | split | dsimp only)

theorem execKillStopPoint_sound (ch : BitVec 12) (s : State) (hs : s.Sound) : OutSound (execKillStopPoint ch s) := by
  unfold execKillStopPoint
  with_reducible repeat' (first | assumption | intro _ | apply finishStop_sound | apply killStop_sound | apply endHeld_sound | apply haltNow_sound | apply outSound_act | apply outSound_next | split | dsimp only)

theorem execStopWorkOrderBoundary_sound (ch : BitVec 12) (s : State) (hs : s.Sound) : OutSound (execStopWorkOrderBoundary ch s) := by
  unfold execStopWorkOrderBoundary
  with_reducible repeat' (first | assumption | intro _ | apply stopEntries_sound | apply settle_sound | apply stopEnd_sound | apply outSound_act | apply outSound_next | split | dsimp only)

theorem execEntryFetch_sound (ch : BitVec 12) (s : State) (hs : s.Sound) : OutSound (execEntryFetch ch s) := by
  unfold execEntryFetch
  with_reducible repeat' (first | assumption | intro _ | apply setChan_sound | apply issue_sound | apply outSound_act | apply outSound_next | split | dsimp only)

theorem execEntryFetchComplete_sound (ch : BitVec 12) (s : State) (hs : s.Sound) : OutSound (execEntryFetchComplete ch s) := by
  unfold execEntryFetchComplete
  with_reducible repeat' (first | assumption | intro _ | apply coreDone_sound | apply considerHead_sound | apply setChan_sound | apply outSound_act | apply outSound_next | split | dsimp only)

theorem execEntryMalformed_sound (ch : BitVec 12) (s : State) (hs : s.Sound) : OutSound (execEntryMalformed ch s) := by
  unfold execEntryMalformed
  with_reducible repeat' (first | assumption | intro _ | apply considerHead_sound | apply completeUnstarted_sound | apply outSound_act | apply outSound_next | split | dsimp only)

theorem execMarkerEntry_sound (ch : BitVec 12) (s : State) (hs : s.Sound) : OutSound (execMarkerEntry ch s) := by
  unfold execMarkerEntry
  with_reducible repeat' (first | assumption | intro _ | apply modChan_sound | apply markerDone_sound | apply outSound_act | apply outSound_next | split | dsimp only)

theorem execBarrierComplete_sound (ch : BitVec 12) (s : State) (hs : s.Sound) : OutSound (execBarrierComplete ch s) := by
  unfold execBarrierComplete
  with_reducible repeat' (first | assumption | intro _ | apply considerHead_sound | apply completeFree_sound | apply outSound_act | apply outSound_next | split | dsimp only)

theorem noticeIssue_sound (ch : BitVec 12) (ty : Byte) (flags : Byte) (payload : List Byte) (time : Option DWord) (s : State) (hs : s.Sound) : (noticeIssue ch ty flags payload time s).Sound := by
  unfold noticeIssue
  with_reducible repeat' (first | assumption | intro _ | apply setChan_sound | apply issue_sound | split | dsimp only)

theorem releaseDone_sound (ch : BitVec 12) (s : State) (hs : s.Sound) : (releaseDone ch s).Sound := by
  unfold releaseDone
  with_reducible repeat' (first | assumption | intro _ | apply touch_sound | apply settle_sound | apply tmAdd_sound | apply modChan_sound | split | dsimp only)

theorem psWrite_sound (ch : BitVec 12) (off : Nat) (b : List Byte) (s : State) (hs : s.Sound) : (psWrite ch off b s).2.Sound := by
  unfold psWrite
  with_reducible repeat' (first | assumption | intro _ | apply lineWrite_sound | refine of_pair ?_ (by assumption) | split | dsimp only)

theorem execEffectRelease_sound (ch : BitVec 12) (s : State) (hs : s.Sound) : OutSound (execEffectRelease ch s) := by
  unfold execEffectRelease
  with_reducible repeat' (first | assumption | intro _ | apply noticeIssue_sound | apply coreDone_sound | apply mirrorIssue_sound | apply mirrorDue_sound | apply releaseDone_sound | apply setChan_sound | apply signalTake_sound | apply psWrite_sound | apply modChan_sound | apply outSound_act | apply outSound_next | refine of_pair ?_ (by assumption) | split | dsimp only)

theorem published_sound (ch : BitVec 12) (idx : BitVec 16) (status : Byte) (s : State) (hs : s.Sound) : (published ch idx status s).Sound := by
  unfold published
  with_reducible repeat' (first | assumption | intro _ | apply modChan_sound | apply mirrorIssue_sound | apply mirrorDue_sound | apply tmAdd_sound | apply enterHalted_sound | apply considerHead_sound | apply settle_sound | split | dsimp only)

theorem execResultPublication_sound (ch : BitVec 12) (s : State) (hs : s.Sound) : OutSound (execResultPublication ch s) := by
  unfold execResultPublication
  with_reducible repeat' (first | assumption | intro _ | apply issue_sound | apply setChan_sound | apply coreDone_sound | apply published_sound | apply outSound_act | apply outSound_next | split | dsimp only)

theorem execRingError_sound (ch : BitVec 12) (s : State) (hs : s.Sound) : OutSound (execRingError ch s) := by
  unfold execRingError
  with_reducible repeat' (first | assumption | intro _ | apply disarm_sound | apply haltPush_sound | apply setChan_sound | apply issue_sound | apply outSound_act | apply outSound_next | split | dsimp only)

theorem takeWaited_sound (ch : BitVec 12) (s : State) (hs : s.Sound) : (takeWaited ch s).Sound := by
  unfold takeWaited
  with_reducible repeat' (first | assumption | intro _ | apply consume_sound | apply modChan_sound | split | dsimp only)

theorem takeEngine_sound (ch : BitVec 12) (e : EngId) (s : State) (hs : s.Sound) : (takeEngine ch e s).Sound := by
  unfold takeEngine
  with_reducible repeat' (first | assumption | intro _ | apply takeWaited_sound | apply modEng_sound | apply setChan_sound | apply consume_sound | apply modDsp_sound | apply traceWord_sound | split | dsimp only)

theorem startFails_sound (e : EngId) (status : Byte) (s : State) (hs : s.Sound) : (startFails e status s).Sound := by
  unfold startFails
  with_reducible repeat' (first | assumption | intro _ | apply endOrder_sound | split | dsimp only)

theorem beginRun_sound (e : EngId) (s : State) (hs : s.Sound) : (beginRun e s).Sound := by
  unfold beginRun
  with_reducible repeat' (first | assumption | intro _ | apply modEng_sound | apply excAt_sound | split | dsimp only)

theorem loadBinds_sound (e : EngId) (rec : List Byte) (x2 : Nat) (x3 : Nat) (x4 : State) (hx4 : x4.Sound) : GotSound (loadBinds e rec x2 x3 x4) := by
  induction x2 generalizing x3 x4 with
  | zero => exact gotSound_ok hx4
  | succ n ih =>
    unfold loadBinds
    dsimp only
    split
    · exact ih _ _ hx4
    · exact gotBind_sound (psRead_sound _ _ _ _ _ hx4) (fun _ _ h => ih _ _ (modEng_sound _ _ _ h))

theorem startStep_sound (e : EngId) (s : State) (hs : s.Sound) : (startStep e s).Sound := by
  unfold startStep
  with_reducible repeat' (first | assumption | intro _ | apply startFails_sound | apply beginRun_sound | apply psRead_sound | apply modChan_sound | apply loadBinds_sound | apply gotRun_sound | refine of_gotOk ?_ (by assumption) | refine of_gotWait ?_ (by assumption) | split | dsimp only)

theorem decide__sound (wing : Nat) (s : State) (hs : s.Sound) : (decide_ wing s).Sound := by
  unfold decide_
  with_reducible repeat' (first | assumption | intro _ | apply modDsp_sound | apply startStep_sound | apply takeEngine_sound | apply beginWake_sound | apply modChan_sound | apply foldS_sound | split | dsimp only)

theorem execDispatchDecision_sound (wing : BitVec 2) (s : State) (hs : s.Sound) : OutSound (execDispatchDecision wing s) := by
  unfold execDispatchDecision
  with_reducible repeat' (first | assumption | intro _ | apply startStep_sound | apply decide__sound | apply foldS_sound | apply outSound_act | apply outSound_next | split | dsimp only)

end Sys2Proof.Machine
end

