-- ==== Sys2Proof/Laws/SoundFabric.lean ====
section
/-! SUPPORT. Keeping State.Sound: the fabric, coherence, the Concourse, the time base and the Stream Links; one lemma per definition. -/

namespace Sys2Proof.Machine

theorem rxConsume_sound (l : Nat) (n : Nat) (s : State) (hs : s.Sound) : (rxConsume l n s).Sound := by
  unfold rxConsume
  with_reducible repeat' (first | assumption | intro _ | apply modLink_sound | split | dsimp only)

theorem starved_sound (a : Nat) (r : Nat) (s : State) (hs : s.Sound) : (starved a r s).Sound := by
  unfold starved
  with_reducible repeat' (first | assumption | intro _ | apply emitT_sound | apply tmAdd_sound | apply modArb_sound | (simp only [sound_mk]; refine ⟨?_, ?_, ?_, ?_⟩) | apply sound_keys | apply sound_ledger | apply sound_halts | apply sound_rec | (simp; done) | split | dsimp only)

theorem arbLeft_sound (r : Nat) (a : Nat) (s : State) (hs : s.Sound) : (arbLeft r a s).Sound := by
  unfold arbLeft
  with_reducible repeat' (first | assumption | intro _ | apply modArb_sound | split | dsimp only)

theorem dataDone_sound (e : EngId) (x : Txn) (counted : Bool) (code : BitVec 3) (s : State) (hs : s.Sound) : (dataDone e x counted code s).Sound := by
  unfold dataDone
  with_reducible repeat' (first | assumption | intro _ | apply modEng_sound | apply pauseEngine_sound | split | dsimp only)

theorem linkGrant_sound (t : Txn) (s : State) (hs : s.Sound) : (linkGrant t s).Sound := by
  unfold linkGrant
  with_reducible repeat' (first | assumption | intro _ | apply dropTxn_sound | apply modEng_sound | apply settle_sound | apply dataDone_sound | apply tmAdd_sound | apply modLink_sound | split | dsimp only)

theorem holdTraffic_sound (p : Nat) (s : State) (hs : s.Sound) : (holdTraffic p s).Sound := by
  unfold holdTraffic
  with_reducible repeat' (first | assumption | intro _ | apply beginWake_sound | (simp only [sound_mk]; refine ⟨?_, ?_, ?_, ?_⟩) | apply sound_keys | apply sound_ledger | apply sound_halts | apply sound_rec | (simp; done) | split | dsimp only)

theorem docentBurst_sound (i : Nat) (r : Recovery) (s : State) (hs : s.Sound) : (docentBurst i r s).Sound := by
  unfold docentBurst
  with_reducible repeat' (first | assumption | intro _ | apply draw_sound | apply drawBytes_sound | refine of_pair ?_ (by assumption) | (simp only [sound_mk]; refine ⟨?_, ?_, ?_, ?_⟩) | apply sound_keys | apply sound_ledger | apply sound_halts | apply sound_rec | (simp; done) | split | dsimp only)

theorem docentAsk_sound (a : Nat) (s : State) (hs : s.Sound) : (docentAsk a s).Sound := by
  unfold docentAsk
  with_reducible repeat' (first | assumption | intro _ | apply withdrawAll_sound | apply draw_sound | apply docentBurst_sound | refine of_pair ?_ (by assumption) | split | dsimp only)

theorem docentGranted_sound (a : Nat) (x : Txn) (s : State) (hs : s.Sound) : (docentGranted a x s).Sound := by
  unfold docentGranted
  with_reducible repeat' (first | assumption | intro _ | apply setUnit_sound | apply modArb_sound | split | dsimp only)

theorem advanceTxn_sound (t : Txn) (s : State) (hs : s.Sound) : (advanceTxn t s).Sound := by
  unfold advanceTxn
  with_reducible repeat' (first | assumption | intro _ | apply modTxn_sound | split | dsimp only)

theorem grantTo_sound (a : Nat) (t : Txn) (s : State) (hs : s.Sound) : (grantTo a t s).2.Sound := by
  unfold grantTo
  with_reducible repeat' (first | assumption | intro _ | apply modTxn_sound | apply dropTxn_sound | apply linkGrant_sound | apply advanceTxn_sound | split | dsimp only)

theorem execArbiterGrantPoint_sound (arb : ArbId) (s0 : State) (hs0 : s0.Sound) : OutSound (execArbiterGrantPoint arb s0) := by
  unfold execArbiterGrantPoint
  with_reducible repeat' (first | assumption | intro _ | apply holdTraffic_sound | apply docentAsk_sound | apply grantTo_sound | apply docentGranted_sound | apply arbLeft_sound | apply modArb_sound | apply starved_sound | apply outSound_act | apply outSound_next | refine of_pair ?_ (by assumption) | split | dsimp only)

theorem sendReq_sound (x : Txn) (s : State) (hs : s.Sound) : (sendReq x s).Sound := by
  unfold sendReq
  with_reducible repeat' (first | assumption | intro _ | apply draw_sound | apply modTxn_sound | apply endGrant_sound | refine of_pair ?_ (by assumption) | (simp only [sound_mk]; refine ⟨?_, ?_, ?_, ?_⟩) | apply sound_keys | apply sound_ledger | apply sound_halts | apply sound_rec | (simp; done) | split | dsimp only)

theorem execBeatTransfer_sound (t : Nat) (s : State) (hs : s.Sound) : OutSound (execBeatTransfer t s) := by
  unfold execBeatTransfer
  with_reducible repeat' (first | assumption | intro _ | apply endGrant_sound | apply dropTxn_sound | apply sendReq_sound | apply modTxn_sound | apply tmAdd_sound | apply outSound_act | apply outSound_next | split | dsimp only)

theorem portError_sound (x : Txn) (code : BitVec 3) (s : State) (hs : s.Sound) : (portError x code s).Sound := by
  unfold portError
  with_reducible repeat' (first | assumption | intro _ | apply modPort_sound | split | dsimp only)

theorem retryExhausted_sound (x : Txn) (s : State) (hs : s.Sound) : (retryExhausted x s).Sound := by
  unfold retryExhausted
  with_reducible repeat' (first | assumption | intro _ | apply assertFault_sound | apply modPort_sound | split | dsimp only)

theorem answered_sound (x : Txn) (code : BitVec 3) (s : State) (hs : s.Sound) : (answered x code s).2.Sound := by
  unfold answered
  with_reducible repeat' (first | assumption | intro _ | apply modPort_sound | apply retryExhausted_sound | apply modTxn_sound | apply portError_sound | split | dsimp only)

theorem engReadFails_sound (e : EngId) (code : BitVec 3) (hit : EngRead → Bool) (s : State) (hs : s.Sound) : (engReadFails e code hit s).Sound := by
  unfold engReadFails
  with_reducible repeat' (first | assumption | intro _ | apply modEng_sound | apply raiseRead_sound | apply startStep_sound | split | dsimp only)

theorem lineFails_sound (l : Nat) (code : BitVec 3) (s : State) (hs : s.Sound) : (lineFails l code s).Sound := by
  unfold lineFails
  with_reducible repeat' (first | assumption | intro _ | apply engReadFails_sound | apply foldS_sound | split | dsimp only)

theorem lineFilled_sound (l : Nat) (s : State) (hs : s.Sound) : (lineFilled l s).Sound := by
  unfold lineFilled
  with_reducible repeat' (first | assumption | intro _ | apply modEng_sound | apply foldS_sound | split | dsimp only)

theorem install_sound (k : Nat) (l : Nat) (st : LineSt) (d : List Byte) (s : State) (hs : s.Sound) : (install k l st d s).Sound := by
  unfold install
  with_reducible repeat' (first | assumption | intro _ | apply modLine_sound | apply makeRoom_sound | apply evictFrom_sound | split | dsimp only)

theorem flushDone_sound (s : State) (hs : s.Sound) : (flushDone s).Sound := by
  unfold flushDone
  with_reducible repeat' (first | assumption | intro _ | apply pumpLoads_sound | (simp only [sound_mk]; refine ⟨?_, ?_, ?_, ?_⟩) | apply sound_keys | apply sound_ledger | apply sound_halts | apply sound_rec | (simp; done) | split | dsimp only)

theorem entryAnswered_sound (ch : BitVec 12) (idx : BitVec 16) (t : Nat) (e : CEntry) (s : State) (hs : s.Sound) : (entryAnswered ch idx t e s).Sound := by
  unfold entryAnswered
  with_reducible repeat' (first | assumption | intro _ | apply modChan_sound | split | dsimp only)

theorem readDone_sound (x : Txn) (code : BitVec 3) (data : List Byte) (grantE : Bool) (s : State) (hs : s.Sound) : (readDone x code data grantE s).Sound := by
  unfold readDone
  with_reducible repeat' (first | assumption | intro _ | apply modEng_sound | apply engReadFails_sound | apply entryAnswered_sound | apply lineFilled_sound | apply install_sound | apply lineFails_sound | apply assertFault_sound | apply loaderAnswered_sound | split | dsimp only)

theorem cohFailed_sound (x : Txn) (s : State) (hs : s.Sound) : (cohFailed x s).Sound := by
  unfold cohFailed
  with_reducible repeat' (first | assumption | intro _ | apply modTxn_sound | apply assertFault_sound | split | dsimp only)

theorem execReadResponse_sound (t : Nat) (codes : List (BitVec 3)) (data : List Byte) (grantE : Bool) (s : State) (hs : s.Sound) : OutSound (execReadResponse t codes data grantE s) := by
  unfold execReadResponse
  with_reducible repeat' (first | assumption | intro _ | apply answered_sound | apply tmAdd_sound | apply cohFailed_sound | apply lineFails_sound | apply modLine_sound | apply flushDone_sound | apply readDone_sound | apply dropTxn_sound | apply settle_sound | apply outSound_act | apply outSound_next | refine of_pair ?_ (by assumption) | split | dsimp only)

theorem ringFails_sound (ch : BitVec 12) (f : Chan → Chan) (s : State) (hs : s.Sound) : (ringFails ch f s).Sound := by
  unfold ringFails
  with_reducible repeat' (first | assumption | intro _ | apply modChan_sound | split | dsimp only)

theorem ringDone_sound (x : Txn) (code : BitVec 3) (s : State) (hs : s.Sound) : (ringDone x code s).Sound := by
  unfold ringDone
  with_reducible repeat' (first | assumption | intro _ | apply modChan_sound | apply ringFails_sound | apply mirrorIssue_sound | apply mirrorDue_sound | split | dsimp only)

theorem execWriteResponse_sound (t : Nat) (code : BitVec 3) (s : State) (hs : s.Sound) : OutSound (execWriteResponse t code s) := by
  unfold execWriteResponse
  with_reducible repeat' (first | assumption | intro _ | apply answered_sound | apply dropTxn_sound | apply settle_sound | apply dataDone_sound | apply ringDone_sound | apply outSound_act | apply outSound_next | refine of_pair ?_ (by assumption) | split | dsimp only)

theorem execRetryReissue_sound (t : Nat) (s : State) (hs : s.Sound) : OutSound (execRetryReissue t s) := by
  unfold execRetryReissue
  with_reducible repeat' (first | assumption | intro _ | apply modTxn_sound | apply outSound_act | apply outSound_next | (simp only [sound_mk]; refine ⟨?_, ?_, ?_, ?_⟩) | apply sound_keys | apply sound_ledger | apply sound_halts | apply sound_rec | (simp; done) | split | dsimp only)

theorem wdogTick_sound (a : Nat) (s : State) (hs : s.Sound) : (wdogTick a s).Sound := by
  unfold wdogTick
  with_reducible repeat' (first | assumption | intro _ | apply modArb_sound | split | dsimp only)

theorem execGrantWatchdogBite_sound (arb : ArbId) (s : State) (hs : s.Sound) : OutSound (execGrantWatchdogBite arb s) := by
  unfold execGrantWatchdogBite
  with_reducible repeat' (first | assumption | intro _ | apply modTxn_sound | apply modArb_sound | apply reissueRing_sound | apply assertFault_sound | apply outSound_act | apply outSound_next | split | dsimp only)

theorem snpAnswer_sound (cp : Bool) (code : BitVec 3) (data : List Byte) (s : State) (hs : s.Sound) : (snpAnswer cp code data s).Sound :=
  ⟨hs.keys, hs.ledger, hs.halts, hs.recoveries⟩

theorem snooped_sound (inval : Bool) (l : Nat) (s : State) (hs : s.Sound) : (snooped inval l s).Sound := by
  unfold snooped
  with_reducible repeat' (first | assumption | intro _ | apply modLine_sound | split | dsimp only)

theorem snoop_sound (inval : Bool) (cp : Bool) (l : Nat) (s : State) (hs : s.Sound) : (snoop inval cp l s).Sound := by
  unfold snoop
  with_reducible repeat' (first | assumption | intro _ | apply snpAnswer_sound | apply modLine_sound | apply snooped_sound | split | dsimp only)

theorem execSnpShared_sound (cp : Bool) (line : BitVec 58) (s : State) (hs : s.Sound) : OutSound (execSnpShared cp line s) := by
  unfold execSnpShared
  with_reducible repeat' (first | assumption | intro _ | apply snoop_sound | apply outSound_act | apply outSound_next | split | dsimp only)

theorem execSnpInvalid_sound (cp : Bool) (line : BitVec 58) (s : State) (hs : s.Sound) : OutSound (execSnpInvalid cp line s) := by
  unfold execSnpInvalid
  with_reducible repeat' (first | assumption | intro _ | apply snoop_sound | apply outSound_act | apply outSound_next | split | dsimp only)

theorem execEvictAck_sound (t : AckBeat) (s : State) (hs : s.Sound) : OutSound (execEvictAck t s) := by
  unfold execEvictAck
  with_reducible repeat' (first | assumption | intro _ | apply answered_sound | apply flushDone_sound | apply dropTxn_sound | apply outSound_act | apply outSound_next | refine of_pair ?_ (by assumption) | split | dsimp only)

theorem execWbAck_sound (t : Nat) (code : BitVec 3) (s : State) (hs : s.Sound) : OutSound (execWbAck t code s) := by
  unfold execWbAck
  apply outSound_act
  split
  · have h := answered_sound (‹Txn›) code s hs
    split
    · exact of_pair h ‹_›
    · have hu := of_pair h ‹_›
      split
      · exact flushDone_sound _ (dropTxn_sound _ _ hu)
      · exact cohFailed_sound _ _ (install_sound _ _ _ _ _ hu)
  · exact hs

theorem execCoherentReissue_sound (t : Nat) (s : State) (hs : s.Sound) : OutSound (execCoherentReissue t s) := by
  unfold execCoherentReissue
  with_reducible repeat' (first | assumption | intro _ | apply modLine_sound | apply modTxn_sound | apply flushDone_sound | apply dropTxn_sound | apply outSound_act | apply outSound_next | split | dsimp only)

theorem rqEvents_sound (ns : List Nat) (s : State) (hs : s.Sound) : (rqEvents ns s).Sound := by
  unfold rqEvents
  with_reducible repeat' (first | assumption | intro _ | apply emitT_sound | apply modRq_sound | apply rqAckNow_sound | apply foldS_sound | split | dsimp only)

theorem rqEvent_sound (n : Nat) (s : State) (hs : s.Sound) : (rqEvent n s).Sound := by
  unfold rqEvent
  with_reducible repeat' (first | assumption | intro _ | apply rqEvents_sound | split | dsimp only)

theorem levelSample_sound (n : Nat) (s : State) (hs : s.Sound) : (levelSample n s).Sound := by
  unfold levelSample
  with_reducible repeat' (first | assumption | intro _ | apply rqEvent_sound | split | dsimp only)

theorem execRequestLineChange_sound (n : BitVec 7) (lvl : Bool) (last : Bool) (s : State) (hs : s.Sound) : OutSound (execRequestLineChange n lvl last s) := by
  unfold execRequestLineChange
  with_reducible repeat' (first | assumption | intro _ | apply modRq_sound | apply beginWake_sound | apply rqEvent_sound | apply levelSample_sound | apply outSound_act | apply outSound_next | split | dsimp only)

theorem execHoldoffExpiry_sound (n : BitVec 7) (s : State) (hs : s.Sound) : OutSound (execHoldoffExpiry n s) := by
  unfold execHoldoffExpiry
  with_reducible repeat' (first | assumption | intro _ | apply levelSample_sound | apply modRq_sound | apply outSound_act | apply outSound_next | split | dsimp only)

theorem execAoRequestLatch_sound (n : BitVec 7) (s : State) (hs : s.Sound) : OutSound (execAoRequestLatch n s) := by
  unfold execAoRequestLatch
  with_reducible repeat' (first | assumption | intro _ | apply modRq_sound | apply beginWake_sound | apply outSound_act | apply outSound_next | split | dsimp only)

theorem wakeSamples_sound (s : State) (hs : s.Sound) : (wakeSamples s).Sound := by
  unfold wakeSamples
  with_reducible repeat' (first | assumption | intro _ | apply rqEvents_sound | apply modRq_sound | apply foldS_sound | split | dsimp only)

theorem released_sound (s : State) (t : State) (ht : t.Sound) : (released s t).Sound := by
  unfold released
  with_reducible repeat' (first | assumption | intro _ | apply wakeSamples_sound | split | dsimp only)

theorem swRaise_sound (sec : Bool) (v : Word) (s : State) (hs : s.Sound) : (swRaise sec v s).Sound := by
  unfold swRaise
  with_reducible repeat' (first | assumption | intro _ | apply emitT_sound | split | dsimp only)

theorem subWrite_sound (j : Nat) (sec : Bool) (v : Word) (s : State) (hs : s.Sound) : OptSound (subWrite j sec v s) := by
  unfold subWrite
  with_reducible repeat' (first | assumption | intro _ | apply touch_sound | apply rqRecheck_sound | apply modSub_sound | apply optSound_none | apply optSound_some | split | dsimp only)

theorem execEvoPulseEnd_sound (m : BitVec 6) (s : State) (hs : s.Sound) : OutSound (execEvoPulseEnd m s) := by
  unfold execEvoPulseEnd
  with_reducible repeat' (first | assumption | intro _ | apply modEvo_sound | apply outSound_act | apply outSound_next | split | dsimp only)

theorem execIrqCoalTimeout_sound (i : BitVec 5) (s : State) (hs : s.Sound) : OutSound (execIrqCoalTimeout i s) := by
  unfold execIrqCoalTimeout
  with_reducible repeat' (first | assumption | intro _ | apply modIrq_sound | apply outSound_act | apply outSound_next | split | dsimp only)

theorem irqClear_sound (sec : Bool) (v : Word) (s : State) (hs : s.Sound) : (irqClear sec v s).Sound := by
  unfold irqClear
  with_reducible repeat' (first | assumption | intro _ | apply modIrq_sound | apply foldS_sound | split | dsimp only)

theorem irqCoalChanged_sound (i : Nat) (s : State) (hs : s.Sound) : (irqCoalChanged i s).Sound := by
  unfold irqCoalChanged
  with_reducible repeat' (first | assumption | intro _ | apply irqCheck_sound | apply modIrq_sound | split | dsimp only)

theorem modTbs_sound (s : State) (f : Tbs → Tbs) (hs : s.Sound) : (State.modTbs s f).Sound :=
  ⟨hs.keys, hs.ledger, hs.halts, hs.recoveries⟩

theorem tbiFail_sound (s : State) (hs : s.Sound) : (tbiFail s).Sound := by
  unfold tbiFail
  with_reducible repeat' (first | assumption | intro _ | apply assertFault_sound | split | dsimp only)

theorem epochWith_sound (ps : List Nat) (ks : List Nat) (s : State) (hs : s.Sound) : (epochWith ps ks s).Sound := by
  unfold epochWith
  with_reducible repeat' (first | assumption | intro _ | apply modTbs_sound | apply emitUp_sound | apply foldS_sound | (simp only [sound_mk]; refine ⟨?_, ?_, ?_, ?_⟩) | apply sound_keys | apply sound_ledger | apply sound_halts | apply sound_rec | (simp; done) | split | dsimp only)

theorem epochBoundary_sound (ks : List Nat) (s : State) (hs : s.Sound) : (epochBoundary ks s).Sound := by
  unfold epochBoundary
  with_reducible repeat' (first | assumption | intro _ | apply epochWith_sound | split | dsimp only)

theorem scMove_sound (n : Nat) (w : DWord) (s : State) (hs : s.Sound) : (scMove n w s).Sound := by
  unfold scMove
  with_reducible repeat' (first | assumption | intro _ | apply setReg_sound | split | dsimp only)

theorem scFires_sound (n : Nat) (s : State) (hs : s.Sound) : (scFires n s).Sound := by
  unfold scFires
  with_reducible repeat' (first | assumption | intro _ | apply beginWake_sound | apply modSc_sound | apply emitUp_sound | apply emitAll_sound | split | dsimp only)

theorem scFire_sound (n : Nat) (s : State) (hs : s.Sound) : (scFire n s).Sound := by
  unfold scFire
  with_reducible repeat' (first | assumption | intro _ | apply scFires_sound | apply tmAdd_sound | split | dsimp only)

theorem scJudge_sound (n : Nat) (s : State) (hs : s.Sound) : (scJudge n s).Sound := by
  unfold scJudge
  with_reducible repeat' (first | assumption | intro _ | apply judgeCount_sound | apply modSc_sound | apply scMove_sound | apply scFires_sound | split | dsimp only)

theorem scDrop_sound (n : Nat) (s : State) (hs : s.Sound) : (scDrop n s).Sound := by
  unfold scDrop
  with_reducible repeat' (first | assumption | intro _ | apply modSc_sound | split | dsimp only)

theorem scWrite_sound (n : Nat) (v : Word) (s : State) (hs : s.Sound) : OptSound (scWrite n v s) := by
  unfold scWrite
  with_reducible repeat' (first | assumption | intro _ | apply modSc_sound | apply scJudge_sound | apply optSound_none | apply optSound_some | split | dsimp only)

theorem sweepPairs_sound (s : State) (hs : s.Sound) : (sweepPairs s).Sound := by
  unfold sweepPairs
  with_reducible repeat' (first | assumption | intro _ | apply modPair_sound | apply foldS_sound | split | dsimp only)

theorem holdAngular_sound (s : State) (hs : s.Sound) : (holdAngular s).Sound := by
  unfold holdAngular
  with_reducible repeat' (first | assumption | intro _ | apply modChan_sound | apply modSc_sound | apply sweepPairs_sound | apply foldS_sound | split | dsimp only)

theorem releaseHeld_sound (s : State) (hs : s.Sound) : (releaseHeld s).Sound := by
  unfold releaseHeld
  with_reducible repeat' (first | assumption | intro _ | apply rejudge_sound | apply scJudge_sound | apply foldS_sound | split | dsimp only)

theorem unlock_sound (s : State) (hs : s.Sound) : (unlock s).Sound := by
  unfold unlock
  with_reducible repeat' (first | assumption | intro _ | apply modTbs_sound | apply emitUp_sound | apply holdAngular_sound | split | dsimp only)

theorem revsLost_sound (s : State) (hs : s.Sound) : (revsLost s).2.Sound := by
  unfold revsLost
  with_reducible repeat' (first | assumption | intro _ | apply draw_sound | refine of_pair ?_ (by assumption) | split | dsimp only)

theorem entryRev_sound (first : Nat) (s : State) (hs : s.Sound) : (entryRev first s).2.Sound := by
  unfold entryRev
  with_reducible repeat' (first | assumption | intro _ | apply revsLost_sound | refine of_pair ?_ (by assumption) | split | dsimp only)

theorem enterLock_sound (l : Lock) (first : Nat) (phase : Nat) (ks : List Nat) (s : State) (hs : s.Sound) : (enterLock l first phase ks s).Sound := by
  unfold enterLock
  with_reducible repeat' (first | assumption | intro _ | apply entryRev_sound | apply modTbs_sound | apply releaseHeld_sound | apply epochWith_sound | refine of_pair ?_ (by assumption) | split | dsimp only)

theorem tbReconfigured_sound (s : State) (hs : s.Sound) : (tbReconfigured s).Sound := by
  unfold tbReconfigured
  with_reducible repeat' (first | assumption | intro _ | apply enterLock_sound | apply modTbs_sound | apply holdAngular_sound | apply unlock_sound | split | dsimp only)

theorem acqStart_sound (s : State) (hs : s.Sound) : (acqStart s).Sound := by
  unfold acqStart
  with_reducible repeat' (first | assumption | intro _ | apply epochWith_sound | apply modTbs_sound | split | dsimp only)

theorem acqStrobe_sound (index : Bool) (phase : BitVec 16) (s : State) (hs : s.Sound) : (acqStrobe index phase s).Sound := by
  unfold acqStrobe
  with_reducible repeat' (first | assumption | intro _ | apply unlock_sound | apply tbiFail_sound | apply modTbs_sound | apply enterLock_sound | apply epochBoundary_sound | split | dsimp only)

theorem missStrobe_sound (s : State) (hs : s.Sound) : (missStrobe s).Sound := by
  unfold missStrobe
  with_reducible repeat' (first | assumption | intro _ | apply modTbs_sound | apply unlock_sound | apply emitUp_sound | split | dsimp only)

theorem acceptStrobe_sound (index : Bool) (phase : BitVec 16) (s : State) (hs : s.Sound) : (acceptStrobe index phase s).Sound := by
  unfold acceptStrobe
  with_reducible repeat' (first | assumption | intro _ | apply modTbs_sound | apply tbiFail_sound | apply epochWith_sound | split | dsimp only)

theorem lockedStrobe_sound (index : Bool) (phase : BitVec 16) (s : State) (hs : s.Sound) : (lockedStrobe index phase s).Sound := by
  unfold lockedStrobe
  with_reducible repeat' (first | assumption | intro _ | apply tbiFail_sound | apply missStrobe_sound | apply acceptStrobe_sound | split | dsimp only)

theorem execWedgeStrobe_sound (index : Bool) (phase : BitVec 16) (s : State) (hs : s.Sound) : OutSound (execWedgeStrobe index phase s) := by
  unfold execWedgeStrobe
  with_reducible repeat' (first | assumption | intro _ | apply acqStart_sound | apply acqStrobe_sound | apply lockedStrobe_sound | apply outSound_act | apply outSound_next | split | dsimp only)

theorem execIndexWithoutStrobe_sound (s : State) (hs : s.Sound) : OutSound (execIndexWithoutStrobe s) := by
  unfold execIndexWithoutStrobe
  with_reducible repeat' (first | assumption | intro _ | apply tbiFail_sound | apply outSound_act | apply outSound_next | split | dsimp only)

theorem execToleranceWindowExpiry_sound (s : State) (hs : s.Sound) : OutSound (execToleranceWindowExpiry s) := by
  unfold execToleranceWindowExpiry
  with_reducible repeat' (first | assumption | intro _ | apply missStrobe_sound | apply outSound_act | apply outSound_next | split | dsimp only)

theorem execSpinValidChange_sound (v : Bool) (s : State) (hs : s.Sound) : OutSound (execSpinValidChange v s) := by
  unfold execSpinValidChange
  with_reducible repeat' (first | assumption | intro _ | apply modTbs_sound | apply outSound_act | apply outSound_next | split | dsimp only)

theorem spinTo_sound (v : Bool) (s : State) (hs : s.Sound) : (spinTo v s).Sound := by
  unfold spinTo
  with_reducible repeat' (first | assumption | intro _ | apply modTbs_sound | apply unlock_sound | split | dsimp only)

theorem spinTick_sound (s : State) (hs : s.Sound) : (spinTick s).Sound := by
  unfold spinTick
  with_reducible repeat' (first | assumption | intro _ | apply modTbs_sound | apply spinTo_sound | split | dsimp only)

theorem execSynthStrobe_sound (s : State) (hs : s.Sound) : OutSound (execSynthStrobe s) := by
  unfold execSynthStrobe
  with_reducible repeat' (first | assumption | intro _ | apply modTbs_sound | apply epochBoundary_sound | apply outSound_act | apply outSound_next | split | dsimp only)

theorem execEpochTimeN_sound (s : State) (hs : s.Sound) : OutSound (execEpochTimeN s) := by
  unfold execEpochTimeN
  with_reducible repeat' (first | assumption | intro _ | apply epochBoundary_sound | apply outSound_act | apply outSound_next | split | dsimp only)

theorem loadAnchor_sound (ch : BitVec 12) (s : State) (hs : s.Sound) : (loadAnchor ch s).Sound := by
  unfold loadAnchor
  with_reducible repeat' (first | assumption | intro _ | apply sweepPairs_sound | apply rejudge_sound | apply emitUp_sound | apply modTbs_sound | apply modPair_sound | apply foldS_sound | split | dsimp only)

theorem poolLoad_sound (s : State) (hs : s.Sound) : (poolLoad s).Sound := by
  unfold poolLoad
  with_reducible repeat' (first | assumption | intro _ | apply modPair_sound | apply loadAnchor_sound | apply foldS_sound | split | dsimp only)

theorem execPoolLoad_sound (s : State) (hs : s.Sound) : OutSound (execPoolLoad s) := by
  unfold execPoolLoad
  with_reducible repeat' (first | assumption | intro _ | apply poolLoad_sound | apply outSound_act | apply outSound_next | split | dsimp only)

theorem anchorFires_sound (ch : BitVec 12) (s : State) (hs : s.Sound) : (anchorFires ch s).Sound := by
  unfold anchorFires
  with_reducible repeat' (first | assumption | intro _ | apply fireChan_sound | apply beginWake_sound | split | dsimp only)

theorem execAnchorFire_sound (n : BitVec 6) (s : State) (hs : s.Sound) : OutSound (execAnchorFire n s) := by
  unfold execAnchorFire
  with_reducible repeat' (first | assumption | intro _ | apply scFire_sound | apply anchorFires_sound | apply outSound_act | apply outSound_next | split | dsimp only)

theorem execDelayParityError_sound (n : BitVec 6) (_shadow : Bool) (s : State) (hs : s.Sound) : OutSound (execDelayParityError n _shadow s) := by
  unfold execDelayParityError
  with_reducible repeat' (first | assumption | intro _ | apply assertFault_sound | apply outSound_act | apply outSound_next | split | dsimp only)

theorem execDelayRegisterLost_sound (n : BitVec 6) (s : State) (hs : s.Sound) : OutSound (execDelayRegisterLost n s) := by
  unfold execDelayRegisterLost
  with_reducible repeat' (first | assumption | intro _ | apply modTbs_sound | apply assertFault_sound | apply emitUp_sound | apply beginWake_sound | apply outSound_act | apply outSound_next | split | dsimp only)

theorem anchorLost_sound (ch : BitVec 12) (s : State) (hs : s.Sound) : (anchorLost ch s).Sound := by
  unfold anchorLost
  with_reducible repeat' (first | assumption | intro _ | apply endInternalChan_sound | apply disarm_sound | apply considerHead_sound | apply completeUnstarted_sound | split | dsimp only)

theorem execDelayRegisterReload_sound (n : BitVec 6) (authOk : Bool) (s : State) (hs : s.Sound) : OutSound (execDelayRegisterReload n authOk s) := by
  unfold execDelayRegisterReload
  with_reducible repeat' (first | assumption | intro _ | apply modTbs_sound | apply scJudge_sound | apply scDrop_sound | apply sweepPairs_sound | apply rejudge_sound | apply anchorLost_sound | apply outSound_act | apply outSound_next | split | dsimp only)

theorem disagree_sound (k : Nat) (s : State) (hs : s.Sound) : (disagree k s).Sound := by
  unfold disagree
  with_reducible repeat' (first | assumption | intro _ | apply modPair_sound | apply assertFault_sound | apply emitUp_sound | apply modTbs_sound | apply scDrop_sound | apply anchorFires_sound | split | dsimp only)

theorem execComparatorDisagreement_sound (n : BitVec 6) (s : State) (hs : s.Sound) : OutSound (execComparatorDisagreement n s) := by
  unfold execComparatorDisagreement
  with_reducible repeat' (first | assumption | intro _ | apply disagree_sound | apply outSound_act | apply outSound_next | split | dsimp only)

theorem execSlowCheckReevaluation_sound (n : BitVec 6) (s : State) (hs : s.Sound) : OutSound (execSlowCheckReevaluation n s) := by
  unfold execSlowCheckReevaluation
  with_reducible repeat' (first | assumption | intro _ | apply modPair_sound | apply scJudge_sound | apply sweepPairs_sound | apply rejudge_sound | apply outSound_act | apply outSound_next | split | dsimp only)

theorem execSlowCheckSweep_sound (s : State) (hs : s.Sound) : OutSound (execSlowCheckSweep s) := by
  unfold execSlowCheckSweep
  with_reducible repeat' (first | assumption | intro _ | apply disagree_sound | apply foldS_sound | apply outSound_act | apply outSound_next | split | dsimp only)

theorem linkFail_sound (l : BitVec 5) (cause : BitVec 4) (s : State) (hs : s.Sound) : (linkFail l cause s).Sound := by
  unfold linkFail
  with_reducible repeat' (first | assumption | intro _ | apply modLink_sound | apply assertFault_sound | apply emitUp_sound | split | dsimp only)

theorem linkRecover_sound (l : BitVec 5) (s : State) (hs : s.Sound) : (linkRecover l s).Sound := by
  unfold linkRecover
  with_reducible repeat' (first | assumption | intro _ | apply modLink_sound | apply linkFail_sound | split | dsimp only)

theorem linkReplay_sound (l : BitVec 5) (s : State) (hs : s.Sound) : (linkReplay l s).Sound := by
  unfold linkReplay
  with_reducible repeat' (first | assumption | intro _ | apply modLink_sound | apply linkRecover_sound | split | dsimp only)

theorem linkActivate_sound (l : BitVec 5) (s : State) (hs : s.Sound) : (linkActivate l s).Sound := by
  unfold linkActivate
  with_reducible repeat' (first | assumption | intro _ | apply emitUp_sound | apply modLink_sound | split | dsimp only)

theorem configDone_sound (l : BitVec 5) (s : State) (hs : s.Sound) : (configDone l s).Sound := by
  unfold configDone
  with_reducible repeat' (first | assumption | intro _ | apply linkActivate_sound | split | dsimp only)

theorem laneFault_sound (l : BitVec 5) (s : State) (hs : s.Sound) : (laneFault l s).Sound := by
  unfold laneFault
  with_reducible repeat' (first | assumption | intro _ | apply assertFault_sound | split | dsimp only)

theorem laneFailing_sound (l : BitVec 5) (lane : Bool) (s : State) (hs : s.Sound) : (laneFailing l lane s).Sound := by
  unfold laneFailing
  with_reducible repeat' (first | assumption | intro _ | apply modLink_sound | apply linkFail_sound | apply laneFault_sound | apply linkRecover_sound | split | dsimp only)

theorem txFailing_sound (l : BitVec 5) (s : State) (hs : s.Sound) : (txFailing l s).Sound := by
  unfold txFailing
  with_reducible repeat' (first | assumption | intro _ | apply linkFail_sound | apply modLink_sound | apply laneFault_sound | apply linkRecover_sound | split | dsimp only)

theorem nakSeen_sound (l : BitVec 5) (s : State) (hs : s.Sound) : (nakSeen l s).Sound := by
  unfold nakSeen
  with_reducible repeat' (first | assumption | intro _ | apply modLink_sound | apply txFailing_sound | split | dsimp only)

theorem execBlockLockAcquired_sound (l : BitVec 5) (lane : Bool) (s : State) (hs : s.Sound) : OutSound (execBlockLockAcquired l lane s) := by
  unfold execBlockLockAcquired
  with_reducible repeat' (first | assumption | intro _ | apply modLink_sound | apply outSound_act | apply outSound_next | split | dsimp only)

theorem execBlockLockLost_sound (l : BitVec 5) (lane : Bool) (s : State) (hs : s.Sound) : OutSound (execBlockLockLost l lane s) := by
  unfold execBlockLockLost
  with_reducible repeat' (first | assumption | intro _ | apply laneFailing_sound | apply modLink_sound | apply outSound_act | apply outSound_next | split | dsimp only)

theorem trainDone_sound (l : BitVec 5) (s : State) (hs : s.Sound) : (trainDone l s).Sound := by
  unfold trainDone
  with_reducible repeat' (first | assumption | intro _ | apply modLink_sound | split | dsimp only)

theorem execTs_sound (l : BitVec 5) (t : TsBlock) (s : State) (hs : s.Sound) : OutSound (execTs l t s) := by
  unfold execTs
  with_reducible repeat' (first | assumption | intro _ | apply modLink_sound | apply trainDone_sound | apply linkRecover_sound | apply linkReplay_sound | apply linkActivate_sound | apply outSound_act | apply outSound_next | split | dsimp only)

theorem execEqAdapted_sound (l : BitVec 5) (s : State) (hs : s.Sound) : OutSound (execEqAdapted l s) := by
  unfold execEqAdapted
  with_reducible repeat' (first | assumption | intro _ | apply draw_sound | apply trainDone_sound | apply modLink_sound | apply outSound_act | apply outSound_next | refine of_pair ?_ (by assumption) | split | dsimp only)

theorem execLsw_sound (l : BitVec 5) (lane : Bool) (_seq : BitVec 12) (s : State) (hs : s.Sound) : OutSound (execLsw l lane _seq s) := by
  unfold execLsw
  with_reducible repeat' (first | assumption | intro _ | apply modLink_sound | apply outSound_act | apply outSound_next | split | dsimp only)

theorem execTrainTimeout_sound (l : BitVec 5) (s : State) (hs : s.Sound) : OutSound (execTrainTimeout l s) := by
  unfold execTrainTimeout
  with_reducible repeat' (first | assumption | intro _ | apply linkFail_sound | apply outSound_act | apply outSound_next | split | dsimp only)

theorem execConfigTimeout_sound (l : BitVec 5) (s : State) (hs : s.Sound) : OutSound (execConfigTimeout l s) := by
  unfold execConfigTimeout
  with_reducible repeat' (first | assumption | intro _ | apply linkFail_sound | apply outSound_act | apply outSound_next | split | dsimp only)

theorem execRecoveryTimeout_sound (l : BitVec 5) (s : State) (hs : s.Sound) : OutSound (execRecoveryTimeout l s) := by
  unfold execRecoveryTimeout
  with_reducible repeat' (first | assumption | intro _ | apply linkFail_sound | apply outSound_act | apply outSound_next | split | dsimp only)

theorem crcFail_sound (l : BitVec 5) (lane : Bool) (s : State) (hs : s.Sound) : (crcFail l lane s).Sound := by
  unfold crcFail
  with_reducible repeat' (first | assumption | intro _ | apply modLink_sound | apply laneFailing_sound | split | dsimp only)

theorem trailer_sound (l : BitVec 5) (f : Frame) (s : State) (hs : s.Sound) : (trailer l f s).Sound := by
  unfold trailer
  with_reducible repeat' (first | assumption | intro _ | apply modLink_sound | apply nakSeen_sound | apply linkReplay_sound | split | dsimp only)

theorem rxFrame_sound (l : BitVec 5) (ty : Nat) (f : Frame) (accept : State → State) (s : State) (haccept : ∀ u, State.Sound u → (accept u).Sound) (hs : s.Sound) : (rxFrame l ty f accept s).Sound := by
  unfold rxFrame
  with_reducible repeat' (first | assumption | intro _ | apply crcFail_sound | apply trailer_sound | apply modLink_sound | apply haccept | split | dsimp only)

theorem dataReady_sound (l : BitVec 5) (s : State) (hs : s.Sound) : (dataReady l s).Sound := by
  unfold dataReady
  with_reducible repeat' (first | assumption | intro _ | apply modLink_sound | apply emitUp_sound | split | dsimp only)

theorem execStreamData_sound (l : BitVec 5) (f : Frame) (s : State) (hs : s.Sound) : OutSound (execStreamData l f s) := by
  unfold execStreamData
  with_reducible repeat' (first | assumption | intro _ | apply rxFrame_sound | apply dataReady_sound | apply tmAdd_sound | apply modLink_sound | apply outSound_act | apply outSound_next | split | dsimp only)

theorem stqPush_sound (l : BitVec 5) (e : StqEntry) (s : State) (hs : s.Sound) : (stqPush l e s).Sound := by
  unfold stqPush
  with_reducible repeat' (first | assumption | intro _ | apply emitUp_sound | apply modLink_sound | split | dsimp only)

theorem execStreamStatus_sound (l : BitVec 5) (f : Frame) (s : State) (hs : s.Sound) : OutSound (execStreamStatus l f s) := by
  unfold execStreamStatus
  with_reducible repeat' (first | assumption | intro _ | apply rxFrame_sound | apply modLink_sound | apply stqPush_sound | apply outSound_act | apply outSound_next | split | dsimp only)

theorem execMark_sound (l : BitVec 5) (f : Frame) (s : State) (hs : s.Sound) : OutSound (execMark l f s) := by
  unfold execMark
  with_reducible repeat' (first | assumption | intro _ | apply rxFrame_sound | apply stqPush_sound | apply outSound_act | apply outSound_next | split | dsimp only)

theorem execAck_sound (l : BitVec 5) (f : Frame) (s : State) (hs : s.Sound) : OutSound (execAck l f s) := by
  unfold execAck
  with_reducible repeat' (first | assumption | intro _ | apply rxFrame_sound | apply outSound_act | apply outSound_next | split | dsimp only)

theorem execCredit_sound (l : BitVec 5) (f : Frame) (s : State) (hs : s.Sound) : OutSound (execCredit l f s) := by
  unfold execCredit
  with_reducible repeat' (first | assumption | intro _ | apply rxFrame_sound | apply configDone_sound | apply modLink_sound | apply outSound_act | apply outSound_next | split | dsimp only)

theorem capTake_sound (l : BitVec 5) (f : Frame) (s : State) (hs : s.Sound) : (capTake l f s).Sound := by
  unfold capTake
  with_reducible repeat' (first | assumption | intro _ | apply linkFail_sound | apply configDone_sound | apply modLink_sound | split | dsimp only)

theorem execCap_sound (l : BitVec 5) (f : Frame) (s : State) (hs : s.Sound) : OutSound (execCap l f s) := by
  unfold execCap
  with_reducible repeat' (first | assumption | intro _ | apply rxFrame_sound | apply capTake_sound | apply outSound_act | apply outSound_next | split | dsimp only)

theorem execLinkReplayTimeout_sound (l : BitVec 5) (s : State) (hs : s.Sound) : OutSound (execLinkReplayTimeout l s) := by
  unfold execLinkReplayTimeout
  with_reducible repeat' (first | assumption | intro _ | apply linkReplay_sound | apply outSound_act | apply outSound_next | split | dsimp only)

theorem execAckFrameSend_sound (l : BitVec 5) (s : State) (hs : s.Sound) : OutSound (execAckFrameSend l s) := by
  unfold execAckFrameSend
  with_reducible repeat' (first | assumption | intro _ | apply modLink_sound | apply outSound_act | apply outSound_next | split | dsimp only)

theorem linkCtrlTo_sound (l : BitVec 5) (en : Bool) (retrain : Bool) (s : State) (hs : s.Sound) : (linkCtrlTo l en retrain s).Sound := by
  unfold linkCtrlTo
  with_reducible repeat' (first | assumption | intro _ | apply modLink_sound | split | dsimp only)

theorem linkFlush_sound (l : BitVec 5) (s : State) (hs : s.Sound) : OptSound (linkFlush l s) := by
  unfold linkFlush
  with_reducible repeat' (first | assumption | intro _ | apply modLink_sound | apply optSound_none | apply optSound_some | split | dsimp only)

theorem stqPop_sound (l : BitVec 5) (s : State) (hs : s.Sound) : (stqPop l s).2.Sound := by
  unfold stqPop
  with_reducible repeat' (first | assumption | intro _ | apply modLink_sound | split | dsimp only)

end Sys2Proof.Machine
end

