-- ==== Sys2Proof/Laws/SoundPower.lean ====
section
/-! SUPPORT. Keeping State.Sound: power, staging and the control store; one lemma per definition. -/

namespace Sys2Proof.Machine

theorem enterDom_sound (d : Nat) (t : DomSt) (s : State) (hs : s.Sound) : (enterDom d t s).Sound := by
  unfold enterDom
  with_reducible repeat' (first | assumption | intro _ | apply modDom_sound | apply touch_sound | apply discardEntries_sound | apply evictFrom_sound | apply foldS_sound | split | dsimp only)

theorem requestLeave_sound (d : Nat) (t : DomSt) (s : State) (hs : s.Sound) : (requestLeave d t s).Sound := by
  unfold requestLeave
  with_reducible repeat' (first | assumption | intro _ | apply enterDom_sound | split | dsimp only)

theorem closeOutside_sound (x : Nat) (s : State) (hs : s.Sound) : (closeOutside x s).Sound := by
  unfold closeOutside
  with_reducible repeat' (first | assumption | intro _ | apply modDom_sound | apply requestLeave_sound | apply foldS_sound | split | dsimp only)

theorem dropLeaves_sound (x : Nat) (s : State) (hs : s.Sound) : (dropLeaves x s).Sound := by
  unfold dropLeaves
  with_reducible repeat' (first | assumption | intro _ | apply modDom_sound | apply foldS_sound | split | dsimp only)

theorem freqChange_sound (x : Nat) (s : State) (hs : s.Sound) : (freqChange x s).Sound := by
  unfold freqChange
  with_reducible repeat' (first | assumption | intro _ | apply modSup_sound | split | dsimp only)

theorem oppStep_sound (x : Nat) (s0 : State) (hs0 : s0.Sound) : (oppStep x s0).Sound := by
  unfold oppStep
  with_reducible repeat' (first | assumption | intro _ | apply dropLeaves_sound | apply closeOutside_sound | apply modSup_sound | apply supRequest_sound | apply freqChange_sound | split | dsimp only)

theorem execOppClockRestart_sound (sup : SupId) (s : State) (hs : s.Sound) : OutSound (execOppClockRestart sup s) := by
  unfold execOppClockRestart
  with_reducible repeat' (first | assumption | intro _ | apply modSup_sound | apply wakeSamples_sound | apply lateActions_sound | apply oppStep_sound | apply outSound_act | apply outSound_next | split | dsimp only)

theorem execOppRaiseDelayExpiry_sound (sup : SupId) (s : State) (hs : s.Sound) : OutSound (execOppRaiseDelayExpiry sup s) := by
  unfold execOppRaiseDelayExpiry
  with_reducible repeat' (first | assumption | intro _ | apply freqChange_sound | apply modSup_sound | apply outSound_act | apply outSound_next | split | dsimp only)

theorem execIdleDlyExpiry_sound (dm : DomId) (s : State) (hs : s.Sound) : OutSound (execIdleDlyExpiry dm s) := by
  unfold execIdleDlyExpiry
  with_reducible repeat' (first | assumption | intro _ | apply requestLeave_sound | apply enterDom_sound | apply outSound_act | apply outSound_next | split | dsimp only)

theorem abandonEntry_sound (d : Nat) (k : Nat) (s0 : State) (hs0 : s0.Sound) : (abandonEntry d k s0).Sound := by
  unfold abandonEntry
  with_reducible repeat' (first | assumption | intro _ | apply modDom_sound | apply wakeAdvance_sound | apply wakeSamples_sound | apply oppStep_sound | split | dsimp only)

theorem execDomainDrainComplete_sound (dm : DomId) (s : State) (hs : s.Sound) : OutSound (execDomainDrainComplete dm s) := by
  unfold execDomainDrainComplete
  with_reducible repeat' (first | assumption | intro _ | apply abandonEntry_sound | apply modDom_sound | apply outSound_act | apply outSound_next | split | dsimp only)

theorem execEntryAbandon_sound (dm : DomId) (s : State) (hs : s.Sound) : OutSound (execEntryAbandon dm s) := by
  unfold execEntryAbandon
  with_reducible repeat' (first | assumption | intro _ | apply abandonEntry_sound | apply draw_sound | apply outSound_act | apply outSound_next | refine of_pair ?_ (by assumption) | split | dsimp only)

theorem rwReset_sound (p : Nat → Bool) (s : State) (hs : s.Sound) : (rwReset p s).Sound :=
  ⟨hs.keys, hs.ledger, hs.halts, hs.recoveries⟩

theorem arbReset_sound (d : Nat) (s : State) (hs : s.Sound) : (arbReset d s).Sound := by
  unfold arbReset
  with_reducible repeat' (first | assumption | intro _ | apply modArb_sound | apply foldS_sound | split | dsimp only)

theorem syncStaging_sound (s : State) (hs : s.Sound) : (syncStaging s).Sound :=
  ⟨hs.keys, hs.ledger, hs.halts, hs.recoveries⟩

theorem coreLoss_sound (s : State) (hs : s.Sound) : (coreLoss s).Sound := by
  have h := arbReset_sound 2 _ (syncStaging_sound _ hs)
  exact ⟨rfl, h.ledger, by simp [coreLoss], h.recoveries⟩

theorem galLoss_sound (g : Nat) (s : State) (hs : s.Sound) : (galLoss g s).Sound := by
  unfold galLoss
  with_reducible repeat' (first | assumption | intro _ | apply setEng_sound | apply arbReset_sound | apply modGal_sound | apply rwReset_sound | apply foldS_sound | split | dsimp only)

theorem tbsLoss_sound (s : State) (hs : s.Sound) : (tbsLoss s).Sound := by
  unfold tbsLoss
  with_reducible repeat' (first | assumption | intro _ | apply modTbs_sound | apply rwReset_sound | split | dsimp only)

theorem offLoss_sound (d : Nat) (s : State) (hs : s.Sound) : (offLoss d s).Sound := by
  unfold offLoss
  with_reducible repeat' (first | assumption | intro _ | apply tbsLoss_sound | apply coreLoss_sound | apply arbReset_sound | apply galLoss_sound | apply rwReset_sound | apply modLink_sound | apply foldS_sound | split | dsimp only)

theorem savedReset_sound (d : Nat) (s : State) (hs : s.Sound) : (savedReset d s).Sound := by
  unfold savedReset
  with_reducible repeat' (first | assumption | intro _ | apply modTbs_sound | apply rwReset_sound | apply modSlot_sound | apply setEng_sound | apply modGal_sound | apply setLink_sound | apply foldS_sound | (simp only [sound_mk]; refine ⟨?_, ?_, ?_, ?_⟩) | apply sound_keys | apply sound_ledger | apply sound_halts | apply sound_rec | (simp; done) | split | dsimp only)

theorem tbsLeaves_sound (s : State) (hs : s.Sound) : (tbsLeaves s).Sound :=
  ⟨hs.keys, hs.ledger, hs.halts, hs.recoveries⟩

theorem slgLeaves_sound (k : Nat) (s : State) (hs : s.Sound) : (slgLeaves k s).Sound := by
  unfold slgLeaves
  with_reducible repeat' (first | assumption | intro _ | apply modLink_sound | apply foldS_sound | split | dsimp only)

theorem cohPolicy_sound (s : State) (hs : s.Sound) : (cohPolicy s).Sound :=
  ⟨hs.keys, hs.ledger, hs.halts, hs.recoveries⟩

theorem snsLost_sound (d : Nat) (s : State) (hs : s.Sound) : (snsLost d s).Sound :=
  ⟨hs.keys, hs.ledger, hs.halts, hs.recoveries⟩

theorem lineWake_sound (s : State) (hs : s.Sound) : (lineWake s).Sound := by
  unfold lineWake
  with_reducible repeat' (first | assumption | intro _ | apply beginWake_sound | split | dsimp only)

theorem execCutComplete_sound (dm : DomId) (s : State) (hs : s.Sound) : OutSound (execCutComplete dm s) := by
  unfold execCutComplete
  with_reducible repeat' (first | assumption | intro _ | apply tbsLeaves_sound | apply slgLeaves_sound | apply offLoss_sound | apply snsLost_sound | apply modDom_sound | apply cohPolicy_sound | apply pmiPolicy_sound | apply lgRecord_sound | apply oppStep_sound | apply lineWake_sound | apply outSound_act | apply outSound_next | split | dsimp only)

theorem reloadBanks_sound (g : Nat) (s : State) (hs : s.Sound) : (reloadBanks g s).Sound := by
  unfold reloadBanks
  with_reducible repeat' (first | assumption | intro _ | apply startReloads_sound | apply modGal_sound | split | dsimp only)

theorem slgWakes_sound (k : Nat) (s : State) (hs : s.Sound) : (slgWakes k s).Sound := by
  unfold slgWakes
  with_reducible repeat' (first | assumption | intro _ | apply modLink_sound | apply foldS_sound | split | dsimp only)

theorem tbsWakes_sound (s : State) (hs : s.Sound) : (tbsWakes s).Sound := by
  unfold tbsWakes
  with_reducible repeat' (first | assumption | intro _ | apply enterLock_sound | (simp only [sound_mk]; refine ⟨?_, ?_, ?_, ?_⟩) | apply sound_keys | apply sound_ledger | apply sound_halts | apply sound_rec | (simp; done) | split | dsimp only)

theorem sbpHand_sound (s : State) (hs : s.Sound) : (sbpHand s).Sound := by
  unfold sbpHand
  with_reducible repeat' (first | assumption | intro _ | (simp only [sound_mk]; refine ⟨?_, ?_, ?_, ?_⟩) | apply sound_keys | apply sound_ledger | apply sound_halts | apply sound_rec | (simp; done) | split | dsimp only)

theorem domSequel_sound (d : Nat) (fromOff : Bool) (s : State) (hs : s.Sound) : (domSequel d fromOff s).Sound := by
  unfold domSequel
  with_reducible repeat' (first | assumption | intro _ | apply tbsWakes_sound | apply sbpHand_sound | apply wakeSamples_sound | apply cohPolicy_sound | apply reloadBanks_sound | apply startReloads_sound | apply slgWakes_sound | split | dsimp only)

theorem becomeOn_sound (d : Nat) (s : State) (hs : s.Sound) : (becomeOn d s).Sound := by
  unfold becomeOn
  with_reducible repeat' (first | assumption | intro _ | apply modDom_sound | apply domSequel_sound | apply lgRecord_sound | apply wakeAdvance_sound | apply pmiPolicy_sound | apply tmAdd_sound | apply emitUp_sound | apply oppStep_sound | (simp only [sound_mk]; refine ⟨?_, ?_, ?_, ?_⟩) | apply sound_keys | apply sound_ledger | apply sound_halts | apply sound_rec | (simp; done) | split | dsimp only)

theorem execWakeRailDone_sound (dm : DomId) (s : State) (hs : s.Sound) : OutSound (execWakeRailDone dm s) := by
  unfold execWakeRailDone
  with_reducible repeat' (first | assumption | intro _ | apply modDom_sound | apply outSound_act | apply outSound_next | split | dsimp only)

theorem execWakeClockDone_sound (dm : DomId) (s : State) (hs : s.Sound) : OutSound (execWakeClockDone dm s) := by
  unfold execWakeClockDone
  with_reducible repeat' (first | assumption | intro _ | apply modDom_sound | apply outSound_act | apply outSound_next | split | dsimp only)

theorem execWakeSettleDone_sound (dm : DomId) (s : State) (hs : s.Sound) : OutSound (execWakeSettleDone dm s) := by
  unfold execWakeSettleDone
  with_reducible repeat' (first | assumption | intro _ | apply modDom_sound | apply becomeOn_sound | apply outSound_act | apply outSound_next | split | dsimp only)

theorem execRestoreComplete_sound (dm : DomId) (bad : Bool) (s : State) (hs : s.Sound) : OutSound (execRestoreComplete dm bad s) := by
  unfold execRestoreComplete
  with_reducible repeat' (first | assumption | intro _ | apply savedReset_sound | apply becomeOn_sound | apply assertFault_sound | apply outSound_act | apply outSound_next | split | dsimp only)

theorem execWakeStart_sound (dm : DomId) (src : BitVec 4) (detail : BitVec 13) (s : State) (hs : s.Sound) : OutSound (execWakeStart dm src detail s) := by
  unfold execWakeStart
  with_reducible repeat' (first | assumption | intro _ | apply beginWake_sound | apply outSound_act | apply outSound_next | split | dsimp only)

theorem domCtrlTo_sound (d : Nat) (v : Word) (s : State) (hs : s.Sound) : (domCtrlTo d v s).Sound := by
  unfold domCtrlTo
  with_reducible repeat' (first | assumption | intro _ | apply setReg_sound | apply beginWake_sound | apply requestLeave_sound | split | dsimp only)

theorem holdRelease_sound (i : Nat) (v : Word) (s : State) (hs : s.Sound) : (holdRelease i v s).Sound := by
  unfold holdRelease
  with_reducible repeat' (first | assumption | intro _ | apply modDom_sound | apply slgWakes_sound | apply foldS_sound | split | dsimp only)

theorem alarmFire_sound (s : State) (hs : s.Sound) : (alarmFire s).Sound := by
  unfold alarmFire
  with_reducible repeat' (first | assumption | intro _ | apply beginWake_sound | (simp only [sound_mk]; refine ⟨?_, ?_, ?_, ?_⟩) | apply sound_keys | apply sound_ledger | apply sound_halts | apply sound_rec | (simp; done) | split | dsimp only)

theorem execAlarmFire_sound (s : State) (hs : s.Sound) : OutSound (execAlarmFire s) := by
  unfold execAlarmFire
  with_reducible repeat' (first | assumption | intro _ | apply alarmFire_sound | apply outSound_act | apply outSound_next | split | dsimp only)

theorem alarmCtrlTo_sound (v : Word) (s : State) (hs : s.Sound) : (alarmCtrlTo v s).Sound := by
  unfold alarmCtrlTo
  with_reducible repeat' (first | assumption | intro _ | apply alarmFire_sound | (simp only [sound_mk]; refine ⟨?_, ?_, ?_, ?_⟩) | apply sound_keys | apply sound_ledger | apply sound_halts | apply sound_rec | (simp; done) | split | dsimp only)

theorem pmiOver_sound (k : Nat) (s : State) (hs : s.Sound) : (pmiOver k s).Sound := by
  unfold pmiOver
  with_reducible repeat' (first | assumption | intro _ | apply modFcr_sound | split | dsimp only)

theorem supAck_sound (x : Nat) (s : State) (hs : s.Sound) : (supAck x s).Sound := by
  unfold supAck
  with_reducible repeat' (first | assumption | intro _ | apply modSup_sound | apply pmiOver_sound | apply released_sound | apply oppStep_sound | apply wakeAdvance_sound | apply pmiPolicy_sound | split | dsimp only)

theorem execPmiAck_sound (p : PmiSig) (s : State) (hs : s.Sound) : OutSound (execPmiAck p s) := by
  unfold execPmiAck
  with_reducible repeat' (first | assumption | intro _ | apply supAck_sound | apply modClk_sound | apply pmiOver_sound | apply released_sound | apply wakeAdvance_sound | apply clkPolicy_sound | apply outSound_act | apply outSound_next | split | dsimp only)

theorem execPmiAckTimeout_sound (p : PmiSig) (s : State) (hs : s.Sound) : OutSound (execPmiAckTimeout p s) := by
  unfold execPmiAckTimeout
  with_reducible repeat' (first | assumption | intro _ | apply assertFault_sound | apply modSup_sound | apply outSound_act | apply outSound_next | split | dsimp only)

theorem modStage_sound (s : State) (f : Staging → Staging) (hs : s.Sound) : (State.modStage s f).Sound :=
  ⟨hs.keys, hs.ledger, hs.halts, hs.recoveries⟩

theorem clampAdd_sound (c : Clamp) (s : State) (hs : s.Sound) : (clampAdd c s).Sound := by
  unfold clampAdd
  with_reducible repeat' (first | assumption | intro _ | apply emitT_sound | apply modStage_sound | split | dsimp only)

theorem clampFields_sound (r : Reg) (sec : Bool) (old : Word) (v : Word) (s : State) (hs : s.Sound) : (clampFields r sec old v s).Sound := by
  unfold clampFields
  with_reducible repeat' (first | assumption | intro _ | apply clampAdd_sound | apply foldS_sound | split | dsimp only)

theorem stageWrite_sound (r : Reg) (sec : Bool) (v : Word) (s : State) (hs : s.Sound) : OptSound (stageWrite r sec v s) := by
  unfold stageWrite
  with_reducible repeat' (first | assumption | intro _ | apply setStg_sound | apply modStage_sound | apply clampFields_sound | apply optSound_none | apply optSound_some | split | dsimp only)

theorem clampStatTo_sound (v : Word) (s : State) (hs : s.Sound) : (clampStatTo v s).Sound := by
  unfold clampStatTo
  with_reducible repeat' (first | assumption | intro _ | apply modStage_sound | split | dsimp only)

theorem resulting_sound (sets : BitVec 16) (s : State) (hs : s.Sound) : (resulting sets s).Sound := by
  unfold resulting
  with_reducible repeat' (first | assumption | intro _ | apply setApp_sound | apply foldS_sound | split | dsimp only)

theorem commitRecord_sound (code : Nat) (s : State) (hs : s.Sound) : (commitRecord code s).Sound := by
  unfold commitRecord
  with_reducible repeat' (first | assumption | intro _ | apply lgRecord_sound | split | dsimp only)

theorem statusTo_sound (f : Staging → Staging) (s : State) (hs : s.Sound) : (statusTo f s).Sound := by
  unfold statusTo
  with_reducible repeat' (first | assumption | intro _ | apply modStage_sound | apply emitT_sound | split | dsimp only)

theorem commitEnd_sound (st : CommitSt) (f : Staging → Staging) (s : State) (hs : s.Sound) : (commitEnd st f s).Sound := by
  unfold commitEnd
  with_reducible repeat' (first | assumption | intro _ | apply statusTo_sound | split | dsimp only)

theorem commitAccept_sound (sec : Bool) (v : Word) (s : State) (hs : s.Sound) : (commitAccept sec v s).Sound := by
  unfold commitAccept
  with_reducible repeat' (first | assumption | intro _ | apply emitT_sound | apply modStage_sound | apply statusTo_sound | apply beginWake_sound | split | dsimp only)

theorem commitCancel_sound (s : State) (hs : s.Sound) : (commitCancel s).Sound := by
  unfold commitCancel
  with_reducible repeat' (first | assumption | intro _ | apply commitEnd_sound | split | dsimp only)

theorem commitRevert_sound (v : Word) (s : State) (hs : s.Sound) : (commitRevert v s).Sound := by
  unfold commitRevert
  with_reducible repeat' (first | assumption | intro _ | apply modStage_sound | apply setStg_sound | apply foldS_sound | split | dsimp only)

theorem commitWrite_sound (sec : Bool) (v : Word) (s : State) (hs : s.Sound) : (commitWrite sec v s).Sound := by
  unfold commitWrite
  with_reducible repeat' (first | assumption | intro _ | apply commitAccept_sound | apply commitCancel_sound | apply commitRevert_sound | split | dsimp only)

theorem execCommitCheckDone_sound (s : State) (hs : s.Sound) : OutSound (execCommitCheckDone s) := by
  unfold execCommitCheckDone
  with_reducible repeat' (first | assumption | intro _ | apply statusTo_sound | apply commitRecord_sound | apply commitEnd_sound | apply outSound_act | apply outSound_next | split | dsimp only)

theorem rqModesTo_sound (old : State) (s : State) (hs : s.Sound) : (rqModesTo old s).Sound := by
  unfold rqModesTo
  with_reducible repeat' (first | assumption | intro _ | apply modRq_sound | apply foldS_sound | split | dsimp only)

theorem evoModesTo_sound (s : State) (hs : s.Sound) : (evoModesTo s).Sound := by
  unfold evoModesTo
  with_reducible repeat' (first | assumption | intro _ | apply modEvo_sound | apply foldS_sound | split | dsimp only)

theorem pairsReserved_sound (s : State) (hs : s.Sound) : (pairsReserved s).Sound := by
  unfold pairsReserved
  with_reducible repeat' (first | assumption | intro _ | apply modPair_sound | apply foldS_sound | split | dsimp only)

theorem vitEvict_sound (s : State) (hs : s.Sound) : (vitEvict s).Sound := by
  unfold vitEvict
  with_reducible repeat' (first | assumption | intro _ | apply evictFrom_sound | apply foldS_sound | (simp only [sound_mk]; refine ⟨?_, ?_, ?_, ?_⟩) | apply sound_keys | apply sound_ledger | apply sound_halts | apply sound_rec | (simp; done) | split | dsimp only)

theorem commitSequels_sound (old : State) (s : State) (hs : s.Sound) : (commitSequels old s).Sound := by
  unfold commitSequels
  with_reducible repeat' (first | assumption | intro _ | apply tbReconfigured_sound | apply pairsReserved_sound | apply rqRecheck_sound | apply evoModesTo_sound | apply rqModesTo_sound | apply rqEvents_sound | apply oppStep_sound | apply foldS_sound | split | dsimp only)

theorem execCommitBoundary_sound (s : State) (hs : s.Sound) : OutSound (execCommitBoundary s) := by
  unfold execCommitBoundary
  with_reducible repeat' (first | assumption | intro _ | apply resulting_sound | apply vitEvict_sound | apply commitEnd_sound | apply commitSequels_sound | apply commitRecord_sound | apply outSound_act | apply outSound_next | split | dsimp only)

theorem execCommitExpiry_sound (s : State) (hs : s.Sound) : OutSound (execCommitExpiry s) := by
  unfold execCommitExpiry
  with_reducible repeat' (first | assumption | intro _ | apply commitEnd_sound | apply outSound_act | apply outSound_next | split | dsimp only)

theorem csCtrlWrite_sound (g : Nat) (v : Word) (s : State) (hs : s.Sound) : OptSound (csCtrlWrite g v s) := by
  unfold csCtrlWrite
  with_reducible repeat' (first | assumption | intro _ | apply lgRecord_sound | apply modGal_sound | apply optSound_none | apply optSound_some | split | dsimp only)

theorem targetBanks_sound (f : Bank → Bank) (s : State) (hs : s.Sound) : (targetBanks f s).Sound := by
  unfold targetBanks
  with_reducible repeat' (first | assumption | intro _ | apply modBank_sound | apply foldS_sound | split | dsimp only)

theorem loadStart_sound (src : Nat) (bank : Bool) (addr : DWord) (mask : Word) (s : State) (hs : s.Sound) : (loadStart src bank addr mask s).Sound := by
  unfold loadStart
  with_reducible repeat' (first | assumption | intro _ | apply loadFail_sound | apply startRead_sound | (simp only [sound_mk]; refine ⟨?_, ?_, ?_, ?_⟩) | apply sound_keys | apply sound_ledger | apply sound_halts | apply sound_rec | (simp; done) | split | dsimp only)

theorem loadCancel_sound (s : State) (hs : s.Sound) : (loadCancel s).Sound := by
  unfold loadCancel
  with_reducible repeat' (first | assumption | intro _ | apply setJob_sound | apply targetBanks_sound | (simp only [sound_mk]; refine ⟨?_, ?_, ?_, ?_⟩) | apply sound_keys | apply sound_ledger | apply sound_halts | apply sound_rec | (simp; done) | split | dsimp only)

theorem loadCtrlWrite_sound (v : Word) (s : State) (hs : s.Sound) : OptSound (loadCtrlWrite v s) := by
  unfold loadCtrlWrite
  with_reducible repeat' (first | assumption | intro _ | apply setReg_sound | apply loadStart_sound | apply loadCancel_sound | apply optSound_none | apply optSound_some | split | dsimp only)

theorem bootLoad_sound (s : State) (hs : s.Sound) : (bootLoad s).Sound := by
  unfold bootLoad
  with_reducible repeat' (first | assumption | intro _ | apply loadStart_sound | split | dsimp only)

theorem raiseTargets_sound (s : State) (hs : s.Sound) : (raiseTargets s).Sound := by
  unfold raiseTargets
  with_reducible repeat' (first | assumption | intro _ | apply beginWake_sound | apply foldS_sound | split | dsimp only)

theorem execLoadVerifyDone_sound (x : Unit) (s : State) (hs : s.Sound) : OutSound (execLoadVerifyDone x s) := by
  unfold execLoadVerifyDone
  with_reducible repeat' (first | assumption | intro _ | apply pumpLoads_sound | apply loadFail_sound | apply raiseTargets_sound | apply startRead_sound | apply targetBanks_sound | apply outSound_act | apply outSound_next | (simp only [sound_mk]; refine ⟨?_, ?_, ?_, ?_⟩) | apply sound_keys | apply sound_ledger | apply sound_halts | apply sound_rec | (simp; done) | split | dsimp only)

theorem execLoadWriteDone_sound (x : Unit) (s : State) (hs : s.Sound) : OutSound (execLoadWriteDone x s) := by
  unfold execLoadWriteDone
  with_reducible repeat' (first | assumption | intro _ | apply pumpLoads_sound | apply loadFail_sound | apply setJob_sound | apply targetBanks_sound | apply lgRecord_sound | apply outSound_act | apply outSound_next | (simp only [sound_mk]; refine ⟨?_, ?_, ?_, ?_⟩) | apply sound_keys | apply sound_ledger | apply sound_halts | apply sound_rec | (simp; done) | split | dsimp only)

theorem execBankReload_sound (g : BitVec 5) (b : Bool) (x : Unit) (s : State) (hs : s.Sound) : OutSound (execBankReload g b x s) := by
  unfold execBankReload
  with_reducible repeat' (first | assumption | intro _ | apply pumpLoads_sound | apply setJob_sound | apply startReloads_sound | apply modBank_sound | apply openRecovery_sound | apply assertFault_sound | apply loseBank_sound | apply outSound_act | apply outSound_next | split | dsimp only)

end Sys2Proof.Machine
end

