-- ==== Sys2Proof/Laws/SoundDamcon.lean ====
section
/-! SUPPORT. Keeping State.Sound: the instructions; one lemma per definition. -/

namespace Sys2Proof.Machine

theorem aluInsn_sound (e : EngId) (op : Nat) (w : IW) (wr : Bool) (imm : Nat) (f : Nat → Nat → Nat → Alu) (s : State) (hs : s.Sound) : (aluInsn e op w wr imm f s).Sound := by
  unfold aluInsn
  with_reducible repeat' (first | assumption | intro _ | apply insn_sound | apply excAt_sound | apply setEng_sound | split | dsimp only)

theorem shiftInsn_sound (e : EngId) (op : Nat) (w : IW) (f : Nat → Nat → Nat → Alu) (s : State) (hs : s.Sound) : (shiftInsn e op w f s).Sound := by
  unfold shiftInsn
  with_reducible repeat' (first | assumption | intro _ | apply aluInsn_sound | split | dsimp only)

theorem unInsn_sound (e : EngId) (op : Nat) (w : IW) (md : Nat) (imm : Nat) (ok : Bool) (f : Engine → Nat → Nat → Alu) (s : State) (hs : s.Sound) : (unInsn e op w md imm ok f s).Sound := by
  unfold unInsn
  with_reducible repeat' (first | assumption | intro _ | apply insn_sound | apply excAt_sound | apply setEng_sound | split | dsimp only)

theorem execAdd_sound (e : EngId) (w : IW) (s : State) (hs : s.Sound) : OutSound (execAdd e w s) := by
  unfold execAdd
  with_reducible repeat' (first | assumption | intro _ | apply aluInsn_sound | apply outSound_act | apply outSound_next | split | dsimp only)

theorem execSub_sound (e : EngId) (w : IW) (s : State) (hs : s.Sound) : OutSound (execSub e w s) := by
  unfold execSub
  with_reducible repeat' (first | assumption | intro _ | apply aluInsn_sound | apply outSound_act | apply outSound_next | split | dsimp only)

theorem execAnd_sound (e : EngId) (w : IW) (s : State) (hs : s.Sound) : OutSound (execAnd e w s) := by
  unfold execAnd
  with_reducible repeat' (first | assumption | intro _ | apply aluInsn_sound | apply outSound_act | apply outSound_next | split | dsimp only)

theorem execOr_sound (e : EngId) (w : IW) (s : State) (hs : s.Sound) : OutSound (execOr e w s) := by
  unfold execOr
  with_reducible repeat' (first | assumption | intro _ | apply aluInsn_sound | apply outSound_act | apply outSound_next | split | dsimp only)

theorem execXor_sound (e : EngId) (w : IW) (s : State) (hs : s.Sound) : OutSound (execXor e w s) := by
  unfold execXor
  with_reducible repeat' (first | assumption | intro _ | apply aluInsn_sound | apply outSound_act | apply outSound_next | split | dsimp only)

theorem execNeg_sound (e : EngId) (w : IW) (s : State) (hs : s.Sound) : OutSound (execNeg e w s) := by
  unfold execNeg
  with_reducible repeat' (first | assumption | intro _ | apply unInsn_sound | apply outSound_act | apply outSound_next | split | dsimp only)

theorem execCmp_sound (e : EngId) (w : IW) (s : State) (hs : s.Sound) : OutSound (execCmp e w s) := by
  unfold execCmp
  with_reducible repeat' (first | assumption | intro _ | apply aluInsn_sound | apply outSound_act | apply outSound_next | split | dsimp only)

theorem execTst_sound (e : EngId) (w : IW) (s : State) (hs : s.Sound) : OutSound (execTst e w s) := by
  unfold execTst
  with_reducible repeat' (first | assumption | intro _ | apply aluInsn_sound | apply outSound_act | apply outSound_next | split | dsimp only)

theorem execLi_sound (e : EngId) (w : IW) (s : State) (hs : s.Sound) : OutSound (execLi e w s) := by
  unfold execLi
  with_reducible repeat' (first | assumption | intro _ | apply regInsn_sound | apply outSound_act | apply outSound_next | split | dsimp only)

theorem execSll_sound (e : EngId) (w : IW) (s : State) (hs : s.Sound) : OutSound (execSll e w s) := by
  unfold execSll
  with_reducible repeat' (first | assumption | intro _ | apply shiftInsn_sound | apply outSound_act | apply outSound_next | split | dsimp only)

theorem execSrl_sound (e : EngId) (w : IW) (s : State) (hs : s.Sound) : OutSound (execSrl e w s) := by
  unfold execSrl
  with_reducible repeat' (first | assumption | intro _ | apply shiftInsn_sound | apply outSound_act | apply outSound_next | split | dsimp only)

theorem execSra_sound (e : EngId) (w : IW) (s : State) (hs : s.Sound) : OutSound (execSra e w s) := by
  unfold execSra
  with_reducible repeat' (first | assumption | intro _ | apply shiftInsn_sound | apply outSound_act | apply outSound_next | split | dsimp only)

theorem execRot_sound (e : EngId) (w : IW) (s : State) (hs : s.Sound) : OutSound (execRot e w s) := by
  unfold execRot
  with_reducible repeat' (first | assumption | intro _ | apply shiftInsn_sound | apply outSound_act | apply outSound_next | split | dsimp only)

theorem execMuls_sound (e : EngId) (w : IW) (s : State) (hs : s.Sound) : OutSound (execMuls e w s) := by
  unfold execMuls
  with_reducible repeat' (first | assumption | intro _ | apply aluInsn_sound | apply outSound_act | apply outSound_next | split | dsimp only)

theorem execMulu_sound (e : EngId) (w : IW) (s : State) (hs : s.Sound) : OutSound (execMulu e w s) := by
  unfold execMulu
  with_reducible repeat' (first | assumption | intro _ | apply aluInsn_sound | apply outSound_act | apply outSound_next | split | dsimp only)

theorem execMulhs_sound (e : EngId) (w : IW) (s : State) (hs : s.Sound) : OutSound (execMulhs e w s) := by
  unfold execMulhs
  with_reducible repeat' (first | assumption | intro _ | apply aluInsn_sound | apply outSound_act | apply outSound_next | split | dsimp only)

theorem execMulhu_sound (e : EngId) (w : IW) (s : State) (hs : s.Sound) : OutSound (execMulhu e w s) := by
  unfold execMulhu
  with_reducible repeat' (first | assumption | intro _ | apply aluInsn_sound | apply outSound_act | apply outSound_next | split | dsimp only)

theorem execDivs_sound (e : EngId) (w : IW) (s : State) (hs : s.Sound) : OutSound (execDivs e w s) := by
  unfold execDivs
  with_reducible repeat' (first | assumption | intro _ | apply aluInsn_sound | apply outSound_act | apply outSound_next | split | dsimp only)

theorem execDivu_sound (e : EngId) (w : IW) (s : State) (hs : s.Sound) : OutSound (execDivu e w s) := by
  unfold execDivu
  with_reducible repeat' (first | assumption | intro _ | apply aluInsn_sound | apply outSound_act | apply outSound_next | split | dsimp only)

theorem execRems_sound (e : EngId) (w : IW) (s : State) (hs : s.Sound) : OutSound (execRems e w s) := by
  unfold execRems
  with_reducible repeat' (first | assumption | intro _ | apply aluInsn_sound | apply outSound_act | apply outSound_next | split | dsimp only)

theorem execRemu_sound (e : EngId) (w : IW) (s : State) (hs : s.Sound) : OutSound (execRemu e w s) := by
  unfold execRemu
  with_reducible repeat' (first | assumption | intro _ | apply aluInsn_sound | apply outSound_act | apply outSound_next | split | dsimp only)

theorem execExt_sound (e : EngId) (w : IW) (s : State) (hs : s.Sound) : OutSound (execExt e w s) := by
  unfold execExt
  with_reducible repeat' (first | assumption | intro _ | apply unInsn_sound | apply outSound_act | apply outSound_next | split | dsimp only)

theorem execExts_sound (e : EngId) (w : IW) (s : State) (hs : s.Sound) : OutSound (execExts e w s) := by
  unfold execExts
  with_reducible repeat' (first | assumption | intro _ | apply unInsn_sound | apply outSound_act | apply outSound_next | split | dsimp only)

theorem execIns_sound (e : EngId) (w : IW) (s : State) (hs : s.Sound) : OutSound (execIns e w s) := by
  unfold execIns
  with_reducible repeat' (first | assumption | intro _ | apply unInsn_sound | apply outSound_act | apply outSound_next | split | dsimp only)

theorem execClz_sound (e : EngId) (w : IW) (s : State) (hs : s.Sound) : OutSound (execClz e w s) := by
  unfold execClz
  with_reducible repeat' (first | assumption | intro _ | apply unInsn_sound | apply outSound_act | apply outSound_next | split | dsimp only)

theorem execCtz_sound (e : EngId) (w : IW) (s : State) (hs : s.Sound) : OutSound (execCtz e w s) := by
  unfold execCtz
  with_reducible repeat' (first | assumption | intro _ | apply unInsn_sound | apply outSound_act | apply outSound_next | split | dsimp only)

theorem execPopc_sound (e : EngId) (w : IW) (s : State) (hs : s.Sound) : OutSound (execPopc e w s) := by
  unfold execPopc
  with_reducible repeat' (first | assumption | intro _ | apply unInsn_sound | apply outSound_act | apply outSound_next | split | dsimp only)

theorem execBswap_sound (e : EngId) (w : IW) (s : State) (hs : s.Sound) : OutSound (execBswap e w s) := by
  unfold execBswap
  with_reducible repeat' (first | assumption | intro _ | apply unInsn_sound | apply outSound_act | apply outSound_next | split | dsimp only)

theorem execRdsr_sound (e : EngId) (w : IW) (s : State) (hs : s.Sound) : OutSound (execRdsr e w s) := by
  unfold execRdsr
  with_reducible repeat' (first | assumption | intro _ | apply insn_sound | apply modEng_sound | apply illegal_sound | apply outSound_act | apply outSound_next | split | dsimp only)

theorem execWrsr_sound (e : EngId) (w : IW) (s : State) (hs : s.Sound) : OutSound (execWrsr e w s) := by
  unfold execWrsr
  with_reducible repeat' (first | assumption | intro _ | apply regInsn_sound | apply outSound_act | apply outSound_next | split | dsimp only)

theorem execBCond_sound (e : EngId) (w : IW) (s : State) (hs : s.Sound) : OutSound (execBCond e w s) := by
  unfold execBCond
  with_reducible repeat' (first | assumption | intro _ | apply insn_sound | apply illegal_sound | apply modEng_sound | apply outSound_act | apply outSound_next | split | dsimp only)

theorem execDbnz_sound (e : EngId) (w : IW) (s : State) (hs : s.Sound) : OutSound (execDbnz e w s) := by
  unfold execDbnz
  with_reducible repeat' (first | assumption | intro _ | apply insn_sound | apply modEng_sound | apply outSound_act | apply outSound_next | split | dsimp only)

theorem execCall_sound (e : EngId) (w : IW) (s : State) (hs : s.Sound) : OutSound (execCall e w s) := by
  unfold execCall
  with_reducible repeat' (first | assumption | intro _ | apply insn_sound | apply modEng_sound | apply outSound_act | apply outSound_next | split | dsimp only)

theorem jumpTo_sound (e : EngId) (v : DWord) (link : Bool) (s : State) (hs : s.Sound) : (jumpTo e v link s).Sound := by
  unfold jumpTo
  with_reducible repeat' (first | assumption | intro _ | apply excAt_sound | apply modEng_sound | split | dsimp only)

theorem execJr_sound (e : EngId) (w : IW) (s : State) (hs : s.Sound) : OutSound (execJr e w s) := by
  unfold execJr
  with_reducible repeat' (first | assumption | intro _ | apply insn_sound | apply jumpTo_sound | apply outSound_act | apply outSound_next | split | dsimp only)

theorem execCallr_sound (e : EngId) (w : IW) (s : State) (hs : s.Sound) : OutSound (execCallr e w s) := by
  unfold execCallr
  with_reducible repeat' (first | assumption | intro _ | apply insn_sound | apply jumpTo_sound | apply outSound_act | apply outSound_next | split | dsimp only)

theorem execRet_sound (e : EngId) (w : IW) (s : State) (hs : s.Sound) : OutSound (execRet e w s) := by
  unfold execRet
  with_reducible repeat' (first | assumption | intro _ | apply insn_sound | apply jumpTo_sound | apply outSound_act | apply outSound_next | split | dsimp only)

theorem execTrap_sound (e : EngId) (w : IW) (s : State) (hs : s.Sound) : OutSound (execTrap e w s) := by
  unfold execTrap
  with_reducible repeat' (first | assumption | intro _ | apply insn_sound | apply takeExc_sound | apply outSound_act | apply outSound_next | split | dsimp only)

theorem execEret_sound (e : EngId) (w : IW) (s : State) (hs : s.Sound) : OutSound (execEret e w s) := by
  unfold execEret
  with_reducible repeat' (first | assumption | intro _ | apply insn_sound | apply excAt_sound | apply setEng_sound | apply outSound_act | apply outSound_next | split | dsimp only)

theorem execSyncI_sound (e : EngId) (w : IW) (s : State) (hs : s.Sound) : OutSound (execSyncI e w s) := by
  unfold execSyncI
  with_reducible repeat' (first | assumption | intro _ | apply insn_sound | apply modEng_sound | apply outSound_act | apply outSound_next | split | dsimp only)

theorem fenceInsn_sound (e : EngId) (g : Bool) (w : IW) (s : State) (hs : s.Sound) : (fenceInsn e g w s).Sound := by
  unfold fenceInsn
  with_reducible repeat' (first | assumption | intro _ | apply insnB_sound | apply raiseImprecise_sound | apply modEng_sound | split | dsimp only)

theorem execFence_sound (e : EngId) (w : IW) (s : State) (hs : s.Sound) : OutSound (execFence e w s) := by
  unfold execFence
  with_reducible repeat' (first | assumption | intro _ | apply fenceInsn_sound | apply outSound_act | apply outSound_next | split | dsimp only)

theorem execFenceG_sound (e : EngId) (w : IW) (s : State) (hs : s.Sound) : OutSound (execFenceG e w s) := by
  unfold execFenceG
  with_reducible repeat' (first | assumption | intro _ | apply fenceInsn_sound | apply outSound_act | apply outSound_next | split | dsimp only)

theorem execIllegalOpcode_sound (e : EngId) (w : BitVec 64) (s : State) (hs : s.Sound) : OutSound (execIllegalOpcode e w s) := by
  unfold execIllegalOpcode
  with_reducible repeat' (first | assumption | intro _ | apply fetch_sound | apply excAt_sound | apply outSound_act | apply outSound_next | split | dsimp only)

theorem execInstructionFetchFault_sound (e : EngId) (k : FetchFault) (s : State) (hs : s.Sound) : OutSound (execInstructionFetchFault e k s) := by
  unfold execInstructionFetchFault
  with_reducible repeat' (first | assumption | intro _ | apply excAt_sound | apply outSound_act | apply outSound_next | split | dsimp only)

theorem execUnhandledExceptionEnd_sound (e : EngId) (s : State) (hs : s.Sound) : OutSound (execUnhandledExceptionEnd e s) := by
  unfold execUnhandledExceptionEnd
  with_reducible repeat' (first | assumption | intro _ | apply endOrder_sound | apply handOver_sound | apply outSound_act | apply outSound_next | split | dsimp only)

theorem execResidueForcedFlush_sound (e : EngId) (s : State) (hs : s.Sound) : OutSound (execResidueForcedFlush e s) := by
  unfold execResidueForcedFlush
  with_reducible repeat' (first | assumption | intro _ | apply startCkpt_sound | apply flush_sound | apply outSound_act | apply outSound_next | split | dsimp only)

theorem execCkptByteIntervalExpiry_sound (e : EngId) (s : State) (hs : s.Sound) : OutSound (execCkptByteIntervalExpiry e s) := by
  unfold execCkptByteIntervalExpiry
  with_reducible repeat' (first | assumption | intro _ | apply markDue_sound | apply outSound_act | apply outSound_next | split | dsimp only)

theorem execCkptTimeIntervalExpiry_sound (e : EngId) (s : State) (hs : s.Sound) : OutSound (execCkptTimeIntervalExpiry e s) := by
  unfold execCkptTimeIntervalExpiry
  with_reducible repeat' (first | assumption | intro _ | apply markDue_sound | apply outSound_act | apply outSound_next | split | dsimp only)

theorem execCheckpointCommit_sound (e : EngId) (s : State) (hs : s.Sound) : OutSound (execCheckpointCommit e s) := by
  unfold execCheckpointCommit
  with_reducible repeat' (first | assumption | intro _ | apply raiseImprecise_sound | apply afterCommit_sound | apply commitStep_sound | apply outSound_act | apply outSound_next | split | dsimp only)

theorem alcoveAt_sound (e : EngId) (a : DWord) (n : Nat) (f : Engine → Engine) (s : State) (hs : s.Sound) : (alcoveAt e a n f s).Sound := by
  unfold alcoveAt
  with_reducible repeat' (first | assumption | intro _ | apply excAt_sound | apply modEng_sound | split | dsimp only)

theorem execLd_sound (e : EngId) (w : IW) (s : State) (hs : s.Sound) : OutSound (execLd e w s) := by
  unfold execLd
  with_reducible repeat' (first | assumption | intro _ | apply insn_sound | apply alcoveAt_sound | apply outSound_act | apply outSound_next | split | dsimp only)

theorem execSt_sound (e : EngId) (w : IW) (s : State) (hs : s.Sound) : OutSound (execSt e w s) := by
  unfold execSt
  with_reducible repeat' (first | assumption | intro _ | apply insn_sound | apply alcoveAt_sound | apply outSound_act | apply outSound_next | split | dsimp only)

theorem execLdv_sound (e : EngId) (w : IW) (s : State) (hs : s.Sound) : OutSound (execLdv e w s) := by
  unfold execLdv
  with_reducible repeat' (first | assumption | intro _ | apply insnB_sound | apply excAt_sound | apply psRead_sound | apply modEng_sound | apply gotRun_sound | apply outSound_act | apply outSound_next | refine of_gotOk ?_ (by assumption) | refine of_gotWait ?_ (by assumption) | split | dsimp only)

theorem counterRead_sound (e : EngId) (off : Nat) (s : State) (hs : s.Sound) : GotSound (counterRead e off s) := by
  unfold counterRead
  with_reducible repeat' (first | assumption | intro _ | apply psRead_sound | apply gotSound_ok | apply gotSound_wait | refine of_gotOk ?_ (by assumption) | refine of_gotWait ?_ (by assumption) | split | dsimp only)

theorem execTcld_sound (e : EngId) (w : IW) (s : State) (hs : s.Sound) : OutSound (execTcld e w s) := by
  unfold execTcld
  with_reducible repeat' (first | assumption | intro _ | apply insnB_sound | apply xformExc_sound | apply counterRead_sound | apply modEng_sound | apply gotRun_sound | apply outSound_act | apply outSound_next | refine of_gotOk ?_ (by assumption) | refine of_gotWait ?_ (by assumption) | split | dsimp only)

theorem execSignal_sound (e : EngId) (w : IW) (s : State) (hs : s.Sound) : OutSound (execSignal e w s) := by
  unfold execSignal
  with_reducible repeat' (first | assumption | intro _ | apply insnB_sound | apply illegal_sound | apply withEffect_sound | apply modEng_sound | apply outSound_act | apply outSound_next | split | dsimp only)

theorem execEvtst_sound (e : EngId) (w : IW) (s : State) (hs : s.Sound) : OutSound (execEvtst e w s) := by
  unfold execEvtst
  with_reducible repeat' (first | assumption | intro _ | apply insn_sound | apply illegal_sound | apply modEng_sound | apply outSound_act | apply outSound_next | split | dsimp only)

theorem timeInsn_sound (e : EngId) (op : Nat) (w : IW) (ok : Bool) (f : State → Engine → Option DWord) (s : State) (hs : s.Sound) : (timeInsn e op w ok f s).Sound := by
  unfold timeInsn
  with_reducible repeat' (first | assumption | intro _ | apply insn_sound | apply modEng_sound | split | dsimp only)

theorem execTnow_sound (e : EngId) (w : IW) (s : State) (hs : s.Sound) : OutSound (execTnow e w s) := by
  unfold execTnow
  with_reducible repeat' (first | assumption | intro _ | apply regInsn_sound | apply outSound_act | apply outSound_next | split | dsimp only)

theorem execAnow_sound (e : EngId) (w : IW) (s : State) (hs : s.Sound) : OutSound (execAnow e w s) := by
  unfold execAnow
  with_reducible repeat' (first | assumption | intro _ | apply timeInsn_sound | apply outSound_act | apply outSound_next | split | dsimp only)

theorem execA2t_sound (e : EngId) (w : IW) (s : State) (hs : s.Sound) : OutSound (execA2t e w s) := by
  unfold execA2t
  with_reducible repeat' (first | assumption | intro _ | apply timeInsn_sound | apply outSound_act | apply outSound_next | split | dsimp only)

theorem execT2a_sound (e : EngId) (w : IW) (s : State) (hs : s.Sound) : OutSound (execT2a e w s) := by
  unfold execT2a
  with_reducible repeat' (first | assumption | intro _ | apply timeInsn_sound | apply outSound_act | apply outSound_next | split | dsimp only)

theorem execAadd_sound (e : EngId) (w : IW) (s : State) (hs : s.Sound) : OutSound (execAadd e w s) := by
  unfold execAadd
  with_reducible repeat' (first | assumption | intro _ | apply timeInsn_sound | apply outSound_act | apply outSound_next | split | dsimp only)

theorem must_sound (b : Bool) (exc : State → State) (s : State) (hexc : ∀ u, State.Sound u → (exc u).Sound) (hs : s.Sound) : FlowSound (must b exc s) := by
  unfold must
  with_reducible repeat' (first | assumption | intro _ | apply hexc | apply flowSound_ok | apply flowSound_stop | split | dsimp only)

theorem needDefined_sound (e : EngId) (i : BitVec 3) (s : State) (hs : s.Sound) : FlowSound (needDefined e i s) := by
  unfold needDefined
  with_reducible repeat' (first | assumption | intro _ | apply must_sound | apply strmExc_sound | apply flowSound_ok | apply flowSound_stop | apply flowSound_ok | apply flowSound_stop | refine of_flowOk ?_ (by assumption) | refine of_flowStop ?_ (by assumption) | split | dsimp only)

theorem needDesc_sound (e : EngId) (i : BitVec 3) (s : State) (hs : s.Sound) : FlowSound (needDesc e i s) := by
  unfold needDesc
  with_reducible repeat' (first | assumption | intro _ | apply psRead_sound | apply modEng_sound | apply descExc_sound | apply flowBind_sound | apply gotFlow_sound | apply flowSound_ok | apply flowSound_stop | refine of_gotOk ?_ (by assumption) | refine of_gotWait ?_ (by assumption) | apply flowSound_ok | apply flowSound_stop | refine of_flowOk ?_ (by assumption) | refine of_flowStop ?_ (by assumption) | split | dsimp only)

theorem dropReads_sound (e : EngId) (what : Nat) (s : State) (hs : s.Sound) : (dropReads e what s).Sound := by
  unfold dropReads
  with_reducible repeat' (first | assumption | intro _ | apply modEng_sound | split | dsimp only)

theorem dropReadAt_sound (e : EngId) (what : Nat) (a : DWord) (s : State) (hs : s.Sound) : (dropReadAt e what a s).Sound := by
  unfold dropReadAt
  with_reducible repeat' (first | assumption | intro _ | apply modEng_sound | split | dsimp only)

theorem issueRead_sound (e : EngId) (i : Option (BitVec 3)) (what : Nat) (port : Nat) (sec : Bool) (cache : BitVec 2) (order : BitVec 2) (a : DWord) (n : Nat) (s : State) (hs : s.Sound) : (issueRead e i what port sec cache order a n s).Sound := by
  unfold issueRead
  with_reducible repeat' (first | assumption | intro _ | apply modEng_sound | apply issue_sound | split | dsimp only)

theorem setWalk_sound (e : EngId) (i : BitVec 3) (w : SgWalk) (s : State) (hs : s.Sound) : (setWalk e i w s).Sound := by
  unfold setWalk
  with_reducible repeat' (first | assumption | intro _ | apply modEng_sound | split | dsimp only)

theorem sgFind_sound (e : EngId) (i : BitVec 3) (d : Desc) (head : DWord) (p : Nat) (edge : Bool) (s : State) (hs : s.Sound) : FlowSound (sgFind e i d head p edge s) := by
  unfold sgFind
  with_reducible repeat' (first | assumption | intro _ | apply dropReadAt_sound | apply setWalk_sound | apply descExc_sound | apply strmExc_sound | apply issueRead_sound | apply flowSound_ok | apply flowSound_stop | split | dsimp only)

theorem streamAddr_sound (e : EngId) (i : BitVec 3) (d : Desc) (base : DWord) (p : Nat) (s : State) (hs : s.Sound) : FlowSound (streamAddr e i d base p s) := by
  unfold streamAddr
  with_reducible repeat' (first | assumption | intro _ | apply sgFind_sound | apply flowSound_ok | apply flowSound_stop | apply flowSound_ok | apply flowSound_stop | refine of_flowOk ?_ (by assumption) | refine of_flowStop ?_ (by assumption) | split | dsimp only)

theorem issueSource_sound (e : EngId) (i : BitVec 3) (d : Desc) (base : DWord) (x4 : Nat) (x5 : Nat) (x6 : Nat) (x7 : State) (hx7 : x7.Sound) : FlowSound (issueSource e i d base x4 x5 x6 x7) := by
  induction x4 generalizing x5 x6 x7 with
  | zero => exact flowSound_ok hx7
  | succ n ih =>
    unfold issueSource
    split
    · exact flowSound_ok hx7
    · refine flowBind_sound (streamAddr_sound _ _ _ _ _ _ hx7) (fun ar t ht => ?_)
      dsimp only
      split
      · exact flowSound_stop ht
      · exact ih _ _ _ (issueRead_sound _ _ _ _ _ _ _ _ _ _ ht)

theorem slGate_sound (e : EngId) (d : Desc) (s : State) (hs : s.Sound) : FlowSound (slGate e d s) := by
  unfold slGate
  with_reducible repeat' (first | assumption | intro _ | apply beginWake_sound | apply excAt_sound | apply flowSound_ok | apply flowSound_stop | split | dsimp only)

theorem issueRx_sound (e : EngId) (i : BitVec 3) (l : Nat) (a : Nat) (x4 : Nat) (x5 : Nat) (x6 : State) (hx6 : x6.Sound) : (issueRx e i l a x4 x5 x6).Sound := by
  induction a generalizing x4 x5 x6 with
  | zero => exact hx6
  | succ n ih =>
    unfold issueRx
    split
    · exact hx6
    · exact ih _ _ _ (issueRead_sound _ _ _ _ _ _ _ _ _ _ hx6)

theorem source_sound (e : EngId) (i : BitVec 3) (d : Desc) (base : DWord) (p : Nat) (back : Nat) (n : Nat) (missing : State → State) (s : State) (hmissing : ∀ u, State.Sound u → (missing u).Sound) (hs : s.Sound) : FlowSound (source e i d base p back n missing s) := by
  unfold source
  with_reducible repeat' (first | assumption | intro _ | apply slGate_sound | apply issueRx_sound | apply issueSource_sound | apply hmissing | apply flowBind_sound | apply flowSound_ok | apply flowSound_stop | apply flowSound_ok | apply flowSound_stop | refine of_flowOk ?_ (by assumption) | refine of_flowStop ?_ (by assumption) | split | dsimp only)

theorem advanceSource_sound (e : EngId) (i : BitVec 3) (d : Desc) (n : Nat) (s : State) (hs : s.Sound) : (advanceSource e i d n s).Sound := by
  unfold advanceSource
  with_reducible repeat' (first | assumption | intro _ | apply modEng_sound | apply dropReads_sound | apply rxConsume_sound | split | dsimp only)

theorem destReady_sound (e : EngId) (d : Desc) (a : DWord) (n : Nat) (s : State) (hs : s.Sound) : FlowSound (destReady e d a n s) := by
  unfold destReady
  with_reducible repeat' (first | assumption | intro _ | apply excAt_sound | apply slGate_sound | apply flowBind_sound | apply flowSound_ok | apply flowSound_stop | apply flowSound_ok | apply flowSound_stop | refine of_flowOk ?_ (by assumption) | refine of_flowStop ?_ (by assumption) | split | dsimp only)

theorem destWrite_sound (e : EngId) (i : BitVec 3) (d : Desc) (a : DWord) (b : List Byte) (s : State) (hs : s.Sound) : (destWrite e i d a b s).Sound := by
  unfold destWrite
  with_reducible repeat' (first | assumption | intro _ | apply modEng_sound | apply issue_sound | apply dataWrite_sound | split | dsimp only)

theorem checkMove_sound (e : EngId) (src : Option (BitVec 3)) (dst : BitVec 3) (bad : Bool → Side → Bool) (over_ : Bool → Side → Bool) (s : State) (hs : s.Sound) : FlowSound (checkMove e src dst bad over_ s) := by
  have hfold : ∀ {α β : Type} (l : List α) (k : Flow β → α → Flow β) (f : Flow β),
      (∀ g a, FlowSound g → FlowSound (k g a)) → FlowSound f → FlowSound (l.foldl k f) := by
    intro α β l k
    induction l with
    | nil => intro f _ h; exact h
    | cons a r ih => intro f hk h; exact ih _ hk (hk f a h)
  unfold checkMove
  dsimp only
  refine flowBind_sound (hfold _ _ _ (fun g a hg => flowBind_sound hg (fun _ t ht => needDefined_sound _ _ _ ht)) (flowSound_ok hs))
    (fun _ s1 h1 => ?_)
  refine flowBind_sound (hfold _ _ _ (fun g a hg => flowBind_sound hg (fun _ t ht =>
    flowBind_sound (needDesc_sound _ _ _ ht) (fun _ _ hu => flowSound_ok hu))) (flowSound_ok h1)) (fun ds s2 h2 => ?_)
  refine flowBind_sound (needDesc_sound _ _ _ h2) (fun dd s3 h3 => ?_)
  refine flowBind_sound (must_sound _ _ _ (strmExc_sound _ _ _) h3) (fun _ s4 h4 => ?_)
  refine flowBind_sound (must_sound _ _ _ (strmExc_sound _ _ _) h4) (fun _ s5 h5 => ?_)
  refine flowBind_sound (must_sound _ _ _ (descExc_sound _ _) h5) (fun _ s6 h6 => ?_)
  refine flowBind_sound (must_sound _ _ _ (descExc_sound _ _) h6) (fun _ s7 h7 => ?_)
  refine flowBind_sound (must_sound _ _ _ (strmExc_sound _ _ _) h7) (fun _ s8 h8 => ?_)
  exact flowBind_sound (must_sound _ _ _ (strmExc_sound _ _ _) h8) (fun _ s9 h9 => flowSound_ok h9)

theorem atBoundary_sound (e : EngId) (rd : BitVec 5) (elig : Bool) (s0 : State) (hs0 : s0.Sound) : (atBoundary e rd elig s0).Sound := by
  unfold atBoundary
  with_reducible repeat' (first | assumption | intro _ | apply flush_sound | apply startCkpt_sound | apply modEng_sound | split | dsimp only)

theorem flushFirst_sound (e : EngId) (need : Residue → Bool) (s : State) (hs : s.Sound) : (flushFirst e need s).Sound := by
  unfold flushFirst
  with_reducible repeat' (first | assumption | intro _ | apply flush_sound | split | dsimp only)

theorem execSdef_sound (e : EngId) (w : IW) (s : State) (hs : s.Sound) : OutSound (execSdef e w s) := by
  unfold execSdef
  with_reducible repeat' (first | assumption | intro _ | apply insnB_sound | apply flushFirst_sound | apply modEng_sound | apply excAt_sound | apply psRead_sound | apply leavePath_sound | apply gotRun_sound | apply outSound_act | apply outSound_next | refine of_gotOk ?_ (by assumption) | refine of_gotWait ?_ (by assumption) | split | dsimp only)

theorem seekTo_sound (e : EngId) (w : IW) (i : BitVec 3) (d : Desc) (v : DWord) (s : State) (hs : s.Sound) : (seekTo e w i d v s).Sound := by
  unfold seekTo
  with_reducible repeat' (first | assumption | intro _ | apply descExc_sound | apply strmExc_sound | apply modEng_sound | apply setWalk_sound | apply sgFind_sound | apply flowRun_sound | apply flowSound_ok | apply flowSound_stop | refine of_flowOk ?_ (by assumption) | refine of_flowStop ?_ (by assumption) | split | dsimp only)

theorem execSseek_sound (e : EngId) (w : IW) (s : State) (hs : s.Sound) : OutSound (execSseek e w s) := by
  unfold execSseek
  with_reducible repeat' (first | assumption | intro _ | apply insnB_sound | apply needDefined_sound | apply flushFirst_sound | apply needDesc_sound | apply seekTo_sound | apply flowRun_sound | apply outSound_act | apply outSound_next | apply flowSound_ok | apply flowSound_stop | refine of_flowOk ?_ (by assumption) | refine of_flowStop ?_ (by assumption) | split | dsimp only)

theorem execSpos_sound (e : EngId) (w : IW) (s : State) (hs : s.Sound) : OutSound (execSpos e w s) := by
  unfold execSpos
  with_reducible repeat' (first | assumption | intro _ | apply insnB_sound | apply needDefined_sound | apply needDesc_sound | apply modEng_sound | apply flowRun_sound | apply outSound_act | apply outSound_next | apply flowSound_ok | apply flowSound_stop | refine of_flowOk ?_ (by assumption) | refine of_flowStop ?_ (by assumption) | split | dsimp only)

theorem startMove_sound (e : EngId) (cap : Bool) (w : IW) (src : Option (BitVec 3)) (bad : Bool → Side → Bool) (over_ : Bool → Side → Bool) (s : State) (hs : s.Sound) : FlowSound (startMove e cap w src bad over_ s) := by
  unfold startMove
  with_reducible repeat' (first | assumption | intro _ | apply checkMove_sound | apply modEng_sound | apply needDesc_sound | apply flowBind_sound | apply flowSound_ok | apply flowSound_stop | apply flowSound_ok | apply flowSound_stop | refine of_flowOk ?_ (by assumption) | refine of_flowStop ?_ (by assumption) | split | dsimp only)

theorem countBurst_sound (e : EngId) (rd : BitVec 5) (src : Option Side) (dst : BitVec 3) (n : Nat) (s : State) (hs : s.Sound) : (countBurst e rd src dst n s).Sound := by
  unfold countBurst
  with_reducible repeat' (first | assumption | intro _ | apply advanceSource_sound | apply modEng_sound | split | dsimp only)

/-- A stage that keeps State.Sound in all it does. -/
structure StageSound (st : Stage) : Prop where
  plan : ∀ n u, State.Sound u → FlowSound (st.plan n u)
  pass : ∀ a b l u, State.Sound u → (st.pass a b l u).2.Sound
  claim : ∀ u, State.Sound u → FlowSound (st.claim u)
  missing : ∀ u, State.Sound u → (st.missing u).Sound

theorem noStage_sound : StageSound noStage :=
  ⟨fun _ _ h => flowSound_ok h, fun _ _ _ _ h => h, fun _ h => flowSound_ok h, fun _ h => h⟩

theorem burstPass_sound (e : EngId) (w : IW) (src : Option Side) (dst : Side) (st : Stage) (fill : Nat → Byte) (s : State) (hst : StageSound st) (hs : s.Sound) : (burstPass e w src dst st fill s).Sound := by
  unfold burstPass
  extract_lets n p
  refine sound_ite (fun _ => modEng_sound _ _ _ hs) (fun _ => ?_)
  refine flowRun_sound (streamAddr_sound _ _ _ _ _ _ hs) (fun ar s1 h1 => ?_)
  refine flowRun_sound (hst.plan _ _ h1) (fun pl s2 h2 => ?_)
  extract_lets b
  refine flowRun_sound (destReady_sound _ _ _ _ _ h2) (fun _ s2 h2 => ?_)
  refine flowRun_sound (hst.claim _ h2) (fun _ s2 h2 => ?_)
  refine flowRun_sound ?_ (fun gf s3 h3 => ?_)
  · split
    · exact source_sound _ _ _ _ _ _ _ _ _ hst.missing h2
    · exact flowSound_ok h2
  · have h5 : ∀ (k : Nat) (q : List Byte × State), q.2.Sound → State.Sound (if k = 0 then q.2
        else countBurst e w.rd src w.ss k (destWrite e w.ss dst.d ar.1 q.1 q.2)) := fun k q hq =>
      sound_ite (fun _ => hq) (fun _ => countBurst_sound _ _ _ _ _ _ (destWrite_sound _ _ _ _ _ _ hq))
    dsimp only
    split
    · exact excAt_sound _ _ _ _ _ _ (h5 _ _ (hst.pass _ _ _ _ h3))
    · exact atBoundary_sound _ _ _ _ (h5 _ _ (hst.pass _ _ _ _ h3))

theorem cmdPass_sound (e : EngId) (w : IW) (a : Side) (dst : Side) (s : State) (hs : s.Sound) : (cmdPass e w a dst s).Sound := by
  unfold cmdPass
  with_reducible repeat' (first | assumption | intro _ | apply modEng_sound | apply excAt_sound | apply slGate_sound | apply source_sound | apply advanceSource_sound | apply atBoundary_sound | apply modLink_sound | apply strmExc_sound | apply dropReads_sound | apply issue_sound | apply flowRun_sound | apply flowSound_ok | apply flowSound_stop | refine of_flowOk ?_ (by assumption) | refine of_flowStop ?_ (by assumption) | split | dsimp only)

theorem execMove_sound (e : EngId) (w : IW) (s : State) (hs : s.Sound) : OutSound (execMove e w s) := by
  unfold execMove
  refine outSound_act _ (insnB_sound _ _ _ _ _ _ (fun t ht => ?_) hs)
  refine flowRun_sound (startMove_sound _ _ _ _ _ _ _ (flushFirst_sound _ _ _ ht)) (fun p v hv => ?_)
  split
  · split
    · exact cmdPass_sound _ _ _ _ _ hv
    · exact burstPass_sound _ _ _ _ _ _ _ noStage_sound hv
  · exact hv

theorem execFill_sound (e : EngId) (w : IW) (s : State) (hs : s.Sound) : OutSound (execFill e w s) := by
  unfold execFill
  refine outSound_act _ (insnB_sound _ _ _ _ _ _ (fun t ht => ?_) hs)
  refine flowRun_sound (startMove_sound _ _ _ _ _ _ _ (flushFirst_sound _ _ _ ht)) (fun p v hv => ?_)
  exact burstPass_sound _ _ _ _ _ _ _ noStage_sound (modEng_sound _ _ _ hv)

theorem holdResidue_sound (e : EngId) (dst : BitVec 3) (src : BitVec 3) (b : List Byte) (s : State) (hs : s.Sound) : (holdResidue e dst src b s).Sound := by
  unfold holdResidue
  with_reducible repeat' (first | assumption | intro _ | apply modEng_sound | split | dsimp only)

theorem funnelEnd_sound (e : EngId) (rd : BitVec 5) (f : Bool) (s : State) (hs : s.Sound) : (funnelEnd e rd f s).Sound := by
  unfold funnelEnd
  with_reducible repeat' (first | assumption | intro _ | apply atBoundary_sound | apply flush_sound | apply modEng_sound | split | dsimp only)

theorem funnelTake_sound (e : EngId) (w : IW) (a : Side) (rest : List Byte) (b : List Byte) (s : State) (hs : s.Sound) : (funnelTake e w a rest b s).Sound := by
  unfold funnelTake
  with_reducible repeat' (first | assumption | intro _ | apply holdResidue_sound | apply modEng_sound | apply advanceSource_sound | split | dsimp only)

theorem funnelPass_sound (e : EngId) (w : IW) (a : Side) (dst : Side) (s : State) (hs : s.Sound) : (funnelPass e w a dst s).Sound := by
  unfold funnelPass
  with_reducible repeat' (first | assumption | intro _ | apply funnelEnd_sound | apply source_sound | apply modEng_sound | apply dataWrite_sound | apply funnelTake_sound | apply excAt_sound | apply atBoundary_sound | apply flowRun_sound | apply flowSound_ok | apply flowSound_stop | refine of_flowOk ?_ (by assumption) | refine of_flowStop ?_ (by assumption) | split | dsimp only)

theorem execFunnel_sound (e : EngId) (w : IW) (s : State) (hs : s.Sound) : OutSound (execFunnel e w s) := by
  unfold execFunnel
  with_reducible repeat' (first | assumption | intro _ | apply insnB_sound | apply flushFirst_sound | apply startMove_sound | apply funnelPass_sound | apply flowRun_sound | apply outSound_act | apply outSound_next | apply flowSound_ok | apply flowSound_stop | refine of_flowOk ?_ (by assumption) | refine of_flowStop ?_ (by assumption) | split | dsimp only)

theorem captWrites_sound (e : EngId) (w : IW) (a : Side) (dst : Side) (x4 : Nat) (x5 : State) (hx5 : x5.Sound) : (captWrites e w a dst x4 x5).Sound := by
  induction x4 generalizing x5 with
  | zero => exact hx5
  | succ n ih =>
    unfold captWrites
    split
    · exact hx5
    · split
      · exact startCkpt_sound _ _ _ _ hx5
      · refine flowRun_sound (streamAddr_sound _ _ _ _ _ _ hx5) (fun ar t ht => ?_)
        refine flowRun_sound (destReady_sound _ _ _ _ _ ht) (fun _ u hu => ?_)
        exact ih _ (modEng_sound _ _ _ (destWrite_sound _ _ _ _ _ _ hu))

theorem captPass_sound (e : EngId) (form : Bool) (w : IW) (a : Side) (dst : Side) (s : State) (hs : s.Sound) : (captPass e form w a dst s).Sound := by
  unfold captPass
  with_reducible repeat' (first | assumption | intro _ | apply modEng_sound | apply captWrites_sound | apply ckptAt_sound | apply streamAddr_sound | apply destReady_sound | apply source_sound | apply excAt_sound | apply dropReads_sound | apply rxConsume_sound | apply flowRun_sound | apply flowBind_sound | apply flowSound_ok | apply flowSound_stop | refine of_flowOk ?_ (by assumption) | refine of_flowStop ?_ (by assumption) | split | dsimp only)

theorem captInsn_sound (e : EngId) (form : Bool) (w : IW) (s : State) (hs : s.Sound) : (captInsn e form w s).Sound := by
  unfold captInsn
  with_reducible repeat' (first | assumption | intro _ | apply insnB_sound | apply flushFirst_sound | apply startMove_sound | apply excAt_sound | apply captPass_sound | apply flowRun_sound | apply flowSound_ok | apply flowSound_stop | refine of_flowOk ?_ (by assumption) | refine of_flowStop ?_ (by assumption) | split | dsimp only)

theorem execCaptRead_sound (e : EngId) (w : IW) (s : State) (hs : s.Sound) : OutSound (execCaptRead e w s) := by
  unfold execCaptRead
  with_reducible repeat' (first | assumption | intro _ | apply captInsn_sound | apply outSound_act | apply outSound_next | split | dsimp only)

theorem execCaptWrite_sound (e : EngId) (w : IW) (s : State) (hs : s.Sound) : OutSound (execCaptWrite e w s) := by
  unfold execCaptWrite
  with_reducible repeat' (first | assumption | intro _ | apply captInsn_sound | apply outSound_act | apply outSound_next | split | dsimp only)

theorem placeNotice_sound (e : EngId) (b : List Byte) (s : State) (hs : s.Sound) : (placeNotice e b s).Sound := by
  unfold placeNotice
  with_reducible repeat' (first | assumption | intro _ | apply modEng_sound | apply modChan_sound | split | dsimp only)

theorem execNotify_sound (e : EngId) (w : IW) (s : State) (hs : s.Sound) : OutSound (execNotify e w s) := by
  unfold execNotify
  with_reducible repeat' (first | assumption | intro _ | apply insnB_sound | apply ckptAt_sound | apply withEffect_sound | apply placeNotice_sound | apply outSound_act | apply outSound_next | split | dsimp only)

theorem waitWith_sound (e : EngId) (sch : Sched) (late : Bool) (k : AfterCk) (s : State) (hs : s.Sound) : (waitWith e sch late k s).Sound := by
  unfold waitWith
  with_reducible repeat' (first | assumption | intro _ | apply modChan_sound | apply flush_sound | apply startCkpt_sound | apply modEng_sound | split | dsimp only)

theorem waitAnchor_sound (e : EngId) (ang : Bool) (w : IW) (s : State) (hs : s.Sound) : (waitAnchor e ang w s).Sound := by
  unfold waitAnchor
  with_reducible repeat' (first | assumption | intro _ | apply judgeCount_sound | apply waitWith_sound | split | dsimp only)

theorem waitTimeInsn_sound (e : EngId) (w : IW) (s : State) (hs : s.Sound) : (waitTimeInsn e w s).Sound := by
  unfold waitTimeInsn
  with_reducible repeat' (first | assumption | intro _ | apply insnB_sound | apply waitAnchor_sound | split | dsimp only)

theorem execWaitTime_sound (e : EngId) (w : IW) (s : State) (hs : s.Sound) : OutSound (execWaitTime e w s) := by
  unfold execWaitTime
  with_reducible repeat' (first | assumption | intro _ | apply waitTimeInsn_sound | apply outSound_act | apply outSound_next | split | dsimp only)

theorem waitAngleInsn_sound (e : EngId) (w : IW) (s : State) (hs : s.Sound) : (waitAngleInsn e w s).Sound := by
  unfold waitAngleInsn
  with_reducible repeat' (first | assumption | intro _ | apply insnB_sound | apply waitAnchor_sound | split | dsimp only)

theorem execWaitAngle_sound (e : EngId) (w : IW) (s : State) (hs : s.Sound) : OutSound (execWaitAngle e w s) := by
  unfold execWaitAngle
  with_reducible repeat' (first | assumption | intro _ | apply waitAngleInsn_sound | apply outSound_act | apply outSound_next | split | dsimp only)

theorem waitDelayInsn_sound (e : EngId) (w : IW) (s : State) (hs : s.Sound) : (waitDelayInsn e w s).Sound := by
  unfold waitDelayInsn
  with_reducible repeat' (first | assumption | intro _ | apply insnB_sound | apply waitWith_sound | split | dsimp only)

theorem execWaitDelay_sound (e : EngId) (w : IW) (s : State) (hs : s.Sound) : OutSound (execWaitDelay e w s) := by
  unfold execWaitDelay
  with_reducible repeat' (first | assumption | intro _ | apply waitDelayInsn_sound | apply outSound_act | apply outSound_next | split | dsimp only)

theorem waitEventInsn_sound (e : EngId) (w : IW) (s : State) (hs : s.Sound) : (waitEventInsn e w s).Sound := by
  unfold waitEventInsn
  with_reducible repeat' (first | assumption | intro _ | apply insnB_sound | apply illegal_sound | apply waitWith_sound | split | dsimp only)

theorem execWaitEvent_sound (e : EngId) (w : IW) (s : State) (hs : s.Sound) : OutSound (execWaitEvent e w s) := by
  unfold execWaitEvent
  with_reducible repeat' (first | assumption | intro _ | apply waitEventInsn_sound | apply outSound_act | apply outSound_next | split | dsimp only)

theorem execYield_sound (e : EngId) (w : IW) (s : State) (hs : s.Sound) : OutSound (execYield e w s) := by
  unfold execYield
  with_reducible repeat' (first | assumption | intro _ | apply insn_sound | apply ckptAt_sound | apply outSound_act | apply outSound_next | split | dsimp only)

theorem execCkpt_sound (e : EngId) (w : IW) (s : State) (hs : s.Sound) : OutSound (execCkpt e w s) := by
  unfold execCkpt
  with_reducible repeat' (first | assumption | intro _ | apply insn_sound | apply ckptAt_sound | apply outSound_act | apply outSound_next | split | dsimp only)

theorem execDone_sound (e : EngId) (w : IW) (s : State) (hs : s.Sound) : OutSound (execDone e w s) := by
  unfold execDone
  with_reducible repeat' (first | assumption | intro _ | apply insn_sound | apply ckptAt_sound | apply outSound_act | apply outSound_next | split | dsimp only)

theorem execXset_sound (e : EngId) (w : IW) (s : State) (hs : s.Sound) : OutSound (execXset e w s) := by
  unfold execXset
  with_reducible repeat' (first | assumption | intro _ | apply insnB_sound | apply setEng_sound | apply excAt_sound | apply xformExc_sound | apply psRead_sound | apply modEng_sound | apply gotRun_sound | apply outSound_act | apply outSound_next | refine of_gotOk ?_ (by assumption) | refine of_gotWait ?_ (by assumption) | split | dsimp only)

theorem execXfold_sound (e : EngId) (w : IW) (s : State) (hs : s.Sound) : OutSound (execXfold e w s) := by
  unfold execXfold
  with_reducible repeat' (first | assumption | intro _ | apply insnB_sound | apply xformExc_sound | apply setEng_sound | apply outSound_act | apply outSound_next | split | dsimp only)

theorem execXget_sound (e : EngId) (w : IW) (s : State) (hs : s.Sound) : OutSound (execXget e w s) := by
  unfold execXget
  with_reducible repeat' (first | assumption | intro _ | apply insnB_sound | apply xformExc_sound | apply modEng_sound | apply outSound_act | apply outSound_next | split | dsimp only)

theorem execXrst_sound (e : EngId) (w : IW) (s : State) (hs : s.Sound) : OutSound (execXrst e w s) := by
  unfold execXrst
  with_reducible repeat' (first | assumption | intro _ | apply insnB_sound | apply xformExc_sound | apply setEng_sound | apply outSound_act | apply outSound_next | split | dsimp only)

theorem mapSegs_sound (e : EngId) (k : Nat) (base : DWord) (o : Nat) (b : Nat) (x5 : Nat) (x6 : Nat) (x7 : Nat) (x8 : Nat) (x9 : List Byte) (x10 : State) (hx10 : x10.Sound) : FlowSound (mapSegs e k base o b x5 x6 x7 x8 x9 x10) := by
  induction x5 generalizing x6 x7 x8 x9 x10 with
  | zero => exact flowSound_stop hx10
  | succ n ih =>
    unfold mapSegs
    dsimp only
    split
    · exact flowSound_stop (xformExc_sound _ _ _ _ hx10)
    · split
      · exact flowSound_stop (issueRead_sound _ _ _ _ _ _ _ _ _ _ hx10)
      · split
        · exact flowSound_stop hx10
        · split
          · exact flowSound_stop (xformExc_sound _ _ _ _ hx10)
          · split
            · exact ih _ _ _ _ _ (modEng_sound _ _ _ hx10)
            · split
              · exact flowSound_ok hx10
              · split
                · exact flowSound_stop (xformExc_sound _ _ _ _ hx10)
                · exact flowBind_sound (ih _ _ _ _ _ hx10) (fun _ _ h => flowSound_ok h)

theorem passBlocks_sound (blk : Nat → Option Nat) (f : Nat → List Byte → List Byte → List Byte × List Byte) (l : List Byte) (lo : Nat) (fuel : Nat) (o : Nat) (n : Nat) (h : List Byte) (s : State) (hs : s.Sound) : (passBlocks blk f l lo fuel o n h s).2.2.Sound := by
  induction fuel generalizing o n h s with
  | zero => exact hs
  | succ k ih =>
    unfold passBlocks
    split
    · exact hs
    · split
      · exact ih _ _ _ _ hs
      · dsimp only
        refine ih _ _ _ _ ?_
        split
        · exact hs
        · exact drawBytes_sound _ _ hs

theorem endInternal_sound (e : EngId) (s : State) (hs : s.Sound) : (endInternal e s).Sound := by
  unfold endInternal
  with_reducible repeat' (first | assumption | intro _ | apply modEng_sound | apply dropEffects_sound | split | dsimp only)

theorem claim_sound (e : EngId) (k : Nat) (s : State) (hs : s.Sound) : FlowSound (claim e k s) := by
  unfold claim
  with_reducible repeat' (first | assumption | intro _ | apply rehomeAes_sound | apply modEng_sound | apply endInternal_sound | apply xformExc_sound | apply modGal_sound | apply flowSound_ok | apply flowSound_stop | split | dsimp only)

theorem unclaim_sound (e : EngId) (s : State) (hs : s.Sound) : (unclaim e s).Sound := by
  unfold unclaim
  with_reducible repeat' (first | assumption | intro _ | apply modEng_sound | split | dsimp only)

theorem segsFor_sound (e : EngId) (k : Nat) (n : Nat) (s : State) (hs : s.Sound) : FlowSound (segsFor e k n s) := by
  unfold segsFor
  with_reducible repeat' (first | assumption | intro _ | apply mapSegs_sound | apply flowSound_ok | apply flowSound_stop | apply flowSound_ok | apply flowSound_stop | refine of_flowOk ?_ (by assumption) | refine of_flowStop ?_ (by assumption) | split | dsimp only)

theorem planChain_sound (e : EngId) (w : IW) (n : Nat) (s : State) (hs : s.Sound) : FlowSound (planChain e w n s) := by
  unfold planChain
  with_reducible repeat' (first | assumption | intro _ | apply segsFor_sound | apply flowBind_sound | apply flowSound_ok | apply flowSound_stop | apply flowSound_ok | apply flowSound_stop | refine of_flowOk ?_ (by assumption) | refine of_flowStop ?_ (by assumption) | split | dsimp only)

theorem aesPass_sound (e : EngId) (k : Nat) (back : Nat) (n : Nat) (raw : List Byte) (s : State) (hs : s.Sound) : (aesPass e k back n raw s).2.Sound := by
  unfold aesPass
  with_reducible repeat' (first | assumption | intro _ | apply tmAdd_sound | apply setEng_sound | apply passBlocks_sound | refine of_pair2 ?_ (by assumption) | split | dsimp only)

theorem passChain_sound (e : EngId) (w : IW) (back : Nat) (n : Nat) (raw : List Byte) (s : State) (hs : s.Sound) : (passChain e w back n raw s).2.Sound := by
  unfold passChain
  refine unclaim_sound _ _ ?_
  generalize (raw.drop back).take n = d
  generalize chainOf w = l
  induction l generalizing d s with
  | nil => exact hs
  | cons a r ih =>
    rw [List.foldl_cons]
    dsimp only
    split
    · exact ih _ (aesPass_sound _ _ _ _ _ _ hs) _
    · exact ih _ (setEng_sound _ _ _ hs) _

theorem heldFull_sound (e : EngId) (w : IW) (link : Option Nat) (s0 : State) (hs0 : s0.Sound) : (heldFull e w link s0).Sound := by
  unfold heldFull
  with_reducible repeat' (first | assumption | intro _ | apply unclaim_sound | apply xformExc_sound | split | dsimp only)

theorem chainStage_sound (e : EngId) (w : IW) (link : Option Nat) : StageSound (chainStage e w link) := by
  refine ⟨fun _ _ h => planChain_sound _ _ _ _ h, fun _ _ _ _ h => passChain_sound _ _ _ _ _ _ h, fun u h => ?_,
    fun _ h => heldFull_sound _ _ _ _ h⟩
  unfold chainStage
  dsimp only
  split
  · exact claim_sound _ _ _ h
  · exact flowSound_ok h

theorem checkChain_sound (e : EngId) (w : IW) (s : State) (hs : s.Sound) : FlowSound (checkChain e w s) := by
  unfold checkChain
  with_reducible repeat' (first | assumption | intro _ | apply xformExc_sound | apply setEng_sound | apply flowSound_ok | apply flowSound_stop | split | dsimp only)

theorem execMovex_sound (e : EngId) (w : IW) (s : State) (hs : s.Sound) : OutSound (execMovex e w s) := by
  unfold execMovex
  refine outSound_act _ (insnB_sound _ _ _ _ _ _ (fun t ht => ?_) hs)
  refine flowRun_sound (startMove_sound _ _ _ _ _ _ _ (flushFirst_sound _ _ _ ht)) (fun p v hv => ?_)
  dsimp only
  split
  · refine flowRun_sound (checkChain_sound _ _ _ hv) (fun _ z hz => ?_)
    exact burstPass_sound _ _ _ _ _ _ _ (chainStage_sound _ _ _) (modEng_sound _ _ _ hz)
  · exact burstPass_sound _ _ _ _ _ _ _ (chainStage_sound _ _ _) hv

theorem sampleCtrs_sound (e : EngId) (x1 : List Nat) (x2 : State) (hx2 : x2.Sound) : FlowSound (sampleCtrs e x1 x2) := by
  induction x1 generalizing x2 with
  | nil => exact flowSound_ok hx2
  | cons o r ih =>
    unfold sampleCtrs
    refine flowBind_sound (gotFlow_sound (counterRead_sound _ _ _ hx2)) (fun _ _ h => ?_)
    exact flowBind_sound (ih _ h) (fun _ _ hu => flowSound_ok hu)

theorem sampleLens_sound (e : EngId) (x1 : List Nat) (x2 : State) (hx2 : x2.Sound) : FlowSound (sampleLens e x1 x2) := by
  induction x1 generalizing x2 with
  | nil => exact flowSound_ok hx2
  | cons i r ih =>
    unfold sampleLens
    refine flowBind_sound (needDesc_sound _ _ _ hx2) (fun d t ht => ?_)
    exact flowBind_sound (ih _ ht) (fun _ _ hu => flowSound_ok hu)

theorem readTempl_sound (e : EngId) (o : Nat) (a0 : DWord) (a1 : DWord) (s : State) (hs : s.Sound) : FlowSound (readTempl e o a0 a1 s) := by
  unfold readTempl
  with_reducible repeat' (first | assumption | intro _ | apply xformExc_sound | apply psRead_sound | apply flowBind_sound | apply gotFlow_sound | apply flowSound_ok | apply flowSound_stop | refine of_gotOk ?_ (by assumption) | refine of_gotWait ?_ (by assumption) | apply flowSound_ok | apply flowSound_stop | refine of_flowOk ?_ (by assumption) | refine of_flowStop ?_ (by assumption) | split | dsimp only)

theorem startEmit_sound (e : EngId) (w : IW) (s : State) (hs : s.Sound) : FlowSound (startEmit e w s) := by
  unfold startEmit
  with_reducible repeat' (first | assumption | intro _ | apply needDefined_sound | apply needDesc_sound | apply must_sound | apply strmExc_sound | apply descExc_sound | apply readTempl_sound | apply xformExc_sound | apply sgFind_sound | apply ckptAt_sound | apply sampleCtrs_sound | apply sampleLens_sound | apply modEng_sound | apply flowBind_sound | apply flowSound_ok | apply flowSound_stop | apply flowSound_ok | apply flowSound_stop | refine of_flowOk ?_ (by assumption) | refine of_flowStop ?_ (by assumption) | split | dsimp only)

theorem emitEnd_sound (e : EngId) (s : State) (hs : s.Sound) : (emitEnd e s).Sound := by
  unfold emitEnd
  with_reducible repeat' (first | assumption | intro _ | apply modEng_sound | split | dsimp only)

theorem emitWrites_sound (e : EngId) (w : IW) (dst : Side) (a : Nat) (x4 : State) (hx4 : x4.Sound) : (emitWrites e w dst a x4).Sound := by
  induction a generalizing x4 with
  | zero => exact hx4
  | succ n ih =>
    unfold emitWrites
    dsimp only
    split
    · exact hx4
    · refine flowRun_sound (streamAddr_sound _ _ _ _ _ _ hx4) (fun ar t ht => ?_)
      refine sound_ite (fun _ => ?_) (fun _ => ?_)
      · apply emitEnd_sound
        split
        · exact holdResidue_sound _ _ _ _ _ ht
        · exact ht
      · refine flowRun_sound (destReady_sound _ _ _ _ _ ht) (fun _ u hu => ?_)
        have h5 : ∀ v : State, v.Sound → State.Sound (if overdue v e then flush e v else v) := fun v hv =>
          sound_ite (fun _ => flush_sound _ _ hv) (fun _ => hv)
        refine sound_ite (fun _ => ?_) (fun _ => ?_)
        · exact emitEnd_sound _ _ (h5 _ (modEng_sound _ _ _ (destWrite_sound _ _ _ _ _ _ hu)))
        · exact ih _ (h5 _ (modEng_sound _ _ _ (destWrite_sound _ _ _ _ _ _ hu)))

theorem execEmit_sound (e : EngId) (w : IW) (s : State) (hs : s.Sound) : OutSound (execEmit e w s) := by
  unfold execEmit
  with_reducible repeat' (first | assumption | intro _ | apply insnB_sound | apply startEmit_sound | apply flushFirst_sound | apply emitWrites_sound | apply flowRun_sound | apply outSound_act | apply outSound_next | apply flowSound_ok | apply flowSound_stop | refine of_flowOk ?_ (by assumption) | refine of_flowStop ?_ (by assumption) | split | dsimp only)

theorem patchWrites_sound (e : EngId) (i : BitVec 3) (d : Desc) (x3 : Nat) (x4 : State) (hx4 : x4.Sound) : (patchWrites e i d x3 x4).Sound := by
  induction x3 generalizing x4 with
  | zero => exact hx4
  | succ n ih =>
    unfold patchWrites
    split
    · exact hx4
    · refine sound_ite (fun _ => modEng_sound _ _ _ hx4) (fun _ => ?_)
      refine flowRun_sound (streamAddr_sound _ _ _ _ _ _ hx4) (fun ar t ht => ?_)
      refine sound_ite (fun _ => ht) (fun _ => ?_)
      refine ih _ (modEng_sound _ _ _ ?_)
      split
      · exact modEng_sound _ _ _ ht
      · exact dataWrite_sound _ _ _ _ _ _ _ ht

theorem execPatch_sound (e : EngId) (w : IW) (s : State) (hs : s.Sound) : OutSound (execPatch e w s) := by
  unfold execPatch
  with_reducible repeat' (first | assumption | intro _ | apply insnB_sound | apply needDefined_sound | apply flushFirst_sound | apply needDesc_sound | apply patchWrites_sound | apply descExc_sound | apply strmExc_sound | apply raiseImprecise_sound | apply modEng_sound | apply setWalk_sound | apply flowRun_sound | apply outSound_act | apply outSound_next | apply flowSound_ok | apply flowSound_stop | refine of_flowOk ?_ (by assumption) | refine of_flowStop ?_ (by assumption) | split | dsimp only)

end Sys2Proof.Machine
end

