-- ==== Sys2Proof/Laws/SoundDocent.lean ====
section
/-! SUPPORT. Keeping State.Sound: fault commands, Docent, the Ledger and the key cabinet; one lemma per definition. -/

namespace Sys2Proof.Machine

theorem execFaultAssertion_sound (n : SrcId) (i : FaultInfo) (s : State) (hs : s.Sound) : OutSound (execFaultAssertion n i s) := by
  unfold execFaultAssertion
  with_reducible repeat' (first | assumption | intro _ | apply assertFault_sound | apply outSound_act | apply outSound_next | split | dsimp only)

theorem execEngineFault_sound (e : EngId) (s : State) (hs : s.Sound) : OutSound (execEngineFault e s) := by
  unfold execEngineFault
  with_reducible repeat' (first | assumption | intro _ | apply assertFault_sound | apply outSound_act | apply outSound_next | split | dsimp only)

theorem railFault_sound (n : Nat) (inst : Byte) (inj : Bool) (s : State) (hs : s.Sound) : (railFault n inst inj s).Sound := by
  unfold railFault
  with_reducible repeat' (first | assumption | intro _ | apply modFcr_sound | apply railReact_sound | apply recordFault_sound | split | dsimp only)

theorem execRailFault_sound (n : SrcId) (s : State) (hs : s.Sound) : OutSound (execRailFault n s) := by
  unfold execRailFault
  with_reducible repeat' (first | assumption | intro _ | apply railFault_sound | apply outSound_act | apply outSound_next | split | dsimp only)

theorem execStuckSourceClear_sound (n : SrcId) (s : State) (hs : s.Sound) : OutSound (execStuckSourceClear n s) := by
  unfold execStuckSourceClear
  with_reducible repeat' (first | assumption | intro _ | apply modFcr_sound | apply outSound_act | apply outSound_next | split | dsimp only)

theorem execFaultSourceQuiet_sound (n : SrcId) (s : State) (hs : s.Sound) : OutSound (execFaultSourceQuiet n s) := by
  unfold execFaultSourceQuiet
  with_reducible repeat' (first | assumption | intro _ | apply released_sound | apply wakeAdvance_sound | apply modFcr_sound | apply outSound_act | apply outSound_next | split | dsimp only)

theorem endFaulted_sound (e : EngId) (status : Byte) (s : State) (hs : s.Sound) : (endFaulted e status s).Sound := by
  unfold endFaulted
  with_reducible repeat' (first | assumption | intro _ | apply considerHead_sound | apply traceWord_sound | apply completeOrder_sound | apply freeEng_sound | split | dsimp only)

theorem replayChan_sound (e : EngId) (s : State) (hs : s.Sound) : (replayChan e s).Sound := by
  unfold replayChan
  with_reducible repeat' (first | assumption | intro _ | apply rewindOwned_sound | apply tmAdd_sound | apply freeEng_sound | apply touch_sound | apply modChan_sound | split | dsimp only)

theorem execReplayReady_sound (e : EngId) (s : State) (hs : s.Sound) : OutSound (execReplayReady e s) := by
  unfold execReplayReady
  with_reducible repeat' (first | assumption | intro _ | apply dropEffects_sound | apply discardReads_sound | apply endFaulted_sound | apply replayChan_sound | apply outSound_act | apply outSound_next | split | dsimp only)

theorem execFltPulseEnd_sound (s : State) (hs : s.Sound) : OutSound (execFltPulseEnd s) := by
  unfold execFltPulseEnd
  with_reducible repeat' (first | assumption | intro _ | apply modFcr_sound | apply outSound_act | apply outSound_next | split | dsimp only)

theorem fltCtrlTo_sound (v : Word) (s : State) (hs : s.Sound) : (fltCtrlTo v s).Sound := by
  unfold fltCtrlTo
  with_reducible repeat' (first | assumption | intro _ | apply setReg_sound | apply modFcr_sound | split | dsimp only)

theorem execFaultQuietEnd_sound (s : State) (hs : s.Sound) : OutSound (execFaultQuietEnd s) := by
  unfold execFaultQuietEnd
  with_reducible repeat' (first | assumption | intro _ | apply emitT_sound | apply modFcr_sound | apply outSound_act | apply outSound_next | split | dsimp only)

theorem injCtrlWrite_sound (sec : Bool) (v : Word) (s : State) (hs : s.Sound) : OptSound (injCtrlWrite sec v s) := by
  unfold injCtrlWrite
  with_reducible repeat' (first | assumption | intro _ | apply setReg_sound | apply modFcr_sound | apply optSound_none | apply optSound_some | split | dsimp only)

theorem injFire_sound (n : Nat) (inst : Nat) (mode : Nat) (s : State) (hs : s.Sound) : (injFire n inst mode s).Sound := by
  unfold injFire
  with_reducible repeat' (first | assumption | intro _ | apply draw_sound | apply railFault_sound | apply assertFault_sound | refine of_pair ?_ (by assumption) | split | dsimp only)

theorem execInjectionSeen_sound (s : State) (hs : s.Sound) : OutSound (execInjectionSeen s) := by
  unfold execInjectionSeen
  with_reducible repeat' (first | assumption | intro _ | apply injFire_sound | apply modFcr_sound | apply outSound_act | apply outSound_next | split | dsimp only)

theorem useRow_sound (r : Recovery) (s : State) (hs : s.Sound) : (useRow r s).Sound := by
  unfold useRow
  with_reducible repeat' (first | assumption | intro _ | apply modDoc_sound | apply sound_rec | split | dsimp only | (simp; omega))

theorem slotTested_sound (e : EngId) (s : State) (hs : s.Sound) : (slotTested e s).Sound := by
  unfold slotTested
  with_reducible repeat' (first | assumption | intro _ | apply modSlot_sound | split | dsimp only)

theorem raiseFor_sound (r : Recovery) (s : State) (hs : s.Sound) : (raiseFor r s).Sound := by
  unfold raiseFor
  with_reducible repeat' (first | assumption | intro _ | apply beginWake_sound | apply foldS_sound | split | dsimp only)

theorem nextStep_sound (k : Nat) (r : Recovery) (s : State) (hs : s.Sound) : (nextStep k r s).Sound := by
  unfold nextStep
  with_reducible repeat' (first | assumption | intro _ | apply setUnit_sound | apply slotTested_sound | apply raiseFor_sound | split | dsimp only)

theorem execTestStart_sound (i : BitVec 2) (s : State) (hs : s.Sound) : OutSound (execTestStart i s) := by
  unfold execTestStart
  apply outSound_act
  dsimp only
  split
  · exact hs
  · split
    · exact nextStep_sound _ _ _ hs
    · rename_i r q _ hq
      refine nextStep_sound _ _ _ (modDoc_sound _ _ hs ?_)
      have := hs.recoveries
      rw [hq] at this
      simp at this
      show q.length ≤ 32
      omega
    · exact hs

theorem pretestEnd_sound (g : Nat) (x : Fin 17) (pass : Bool) (s : State) (hs : s.Sound) : (pretestEnd g x pass s).Sound := by
  unfold pretestEnd
  with_reducible repeat' (first | assumption | intro _ | apply modGal_sound | apply modSlot_sound | split | dsimp only)

theorem bgEnd_sound (k : Nat) (r : Recovery) (pass : Bool) (s : State) (hs : s.Sound) : (bgEnd k r pass s).Sound := by
  unfold bgEnd
  with_reducible repeat' (first | assumption | intro _ | apply setUnit_sound | apply returnSlot_sound | apply pretestEnd_sound | apply assertFault_sound | split | dsimp only)

theorem execTestVerdict_sound (i : BitVec 2) (o : TestOutcome) (s : State) (hs : s.Sound) : OutSound (execTestVerdict i o s) := by
  unfold execTestVerdict
  with_reducible repeat' (first | assumption | intro _ | apply bgEnd_sound | apply docVerdict_sound | apply setUnit_sound | apply useRow_sound | apply outSound_act | apply outSound_next | split | dsimp only)

theorem bgCordon_sound (r : Recovery) (s : State) (hs : s.Sound) : (bgCordon r s).Sound := by
  unfold bgCordon
  with_reducible repeat' (first | assumption | intro _ | apply pretestEnd_sound | apply cordonPipe_sound | apply cordonPair_sound | split | dsimp only)

theorem execTestLimitExpiry_sound (i : BitVec 2) (s : State) (hs : s.Sound) : OutSound (execTestLimitExpiry i s) := by
  unfold execTestLimitExpiry
  with_reducible repeat' (first | assumption | intro _ | apply assertFault_sound | apply docVerdict_sound | apply setUnit_sound | apply bgCordon_sound | apply outSound_act | apply outSound_next | split | dsimp only)

theorem docRetireSlot_sound (e : EngId) (s : State) (hs : s.Sound) : (docRetireSlot e s).Sound := by
  unfold docRetireSlot
  with_reducible repeat' (first | assumption | intro _ | apply modSlot_sound | apply retireSlot_sound | apply modGal_sound | split | dsimp only)

theorem docCmdWrite_sound (v : Word) (s : State) (hs : s.Sound) : (docCmdWrite v s).Sound := by
  unfold docCmdWrite
  with_reducible repeat' (first | assumption | intro _ | apply modDoc_sound | apply openRecovery_sound | apply traceWord_sound | apply modSlot_sound | apply docRetireSlot_sound | apply modGal_sound | apply sound_rec | split | dsimp only | (simp; omega))

theorem execRotationDue_sound (g : BitVec 5) (s : State) (hs : s.Sound) : OutSound (execRotationDue g s) := by
  unfold execRotationDue
  with_reducible repeat' (first | assumption | intro _ | apply modGal_sound | apply outSound_act | apply outSound_next | split | dsimp only)

theorem bgStart_sound (k : Nat) (key : Nat) (r : Recovery) (s : State) (hs : s.Sound) : (bgStart k key r s).Sound := by
  unfold bgStart
  with_reducible repeat' (first | assumption | intro _ | apply modDoc_sound | apply traceWord_sound | apply modSlot_sound | apply nextStep_sound | apply sound_rec | split | dsimp only | (simp; omega))

theorem bgTest_sound (key : Nat) (r : Recovery) (can : Bool) (pass : Bool) (s : State) (hs : s.Sound) : (bgTest key r can pass s).Sound := by
  unfold bgTest
  with_reducible repeat' (first | assumption | intro _ | apply bgEnd_sound | apply bgStart_sound | split | dsimp only)

theorem execRotationStart_sound (g : BitVec 5) (pass : Bool) (s : State) (hs : s.Sound) : OutSound (execRotationStart g pass s) := by
  unfold execRotationStart
  with_reducible repeat' (first | assumption | intro _ | apply bgTest_sound | apply modGal_sound | apply outSound_act | apply outSound_next | split | dsimp only)

theorem retireDrained_sound (g : Nat) (s : State) (hs : s.Sound) : (retireDrained g s).Sound := by
  unfold retireDrained
  with_reducible repeat' (first | assumption | intro _ | apply retireSlot_sound | apply modGal_sound | apply foldS_sound | split | dsimp only)

theorem abandonRot_sound (g : Nat) (r : Fin 17) (s : State) (hs : s.Sound) : (abandonRot g r s).Sound := by
  unfold abandonRot
  with_reducible repeat' (first | assumption | intro _ | apply modGal_sound | apply modSlot_sound | apply modDoc_sound | apply sound_rec | split | dsimp only | (simp; omega))

theorem execRotationSwap_sound (g : BitVec 5) (s : State) (hs : s.Sound) : OutSound (execRotationSwap g s) := by
  unfold execRotationSwap
  with_reducible repeat' (first | assumption | intro _ | apply retireDrained_sound | apply abandonRot_sound | apply modSlot_sound | apply rotationDone_sound | apply modGal_sound | apply outSound_act | apply outSound_next | split | dsimp only)

theorem execRotationAbandon_sound (g : BitVec 5) (s : State) (hs : s.Sound) : OutSound (execRotationAbandon g s) := by
  unfold execRotationAbandon
  with_reducible repeat' (first | assumption | intro _ | apply abandonRot_sound | apply outSound_act | apply outSound_next | split | dsimp only)

theorem execWearHourTick_sound (e : EngId) (s : State) (hs : s.Sound) : OutSound (execWearHourTick e s) := by
  unfold execWearHourTick
  with_reducible repeat' (first | assumption | intro _ | apply modSlot_sound | apply outSound_act | apply outSound_next | split | dsimp only)

theorem execPeriodicSpareTest_sound (e : EngId) (pass : Bool) (s : State) (hs : s.Sound) : OutSound (execPeriodicSpareTest e pass s) := by
  unfold execPeriodicSpareTest
  with_reducible repeat' (first | assumption | intro _ | apply bgTest_sound | apply outSound_act | apply outSound_next | split | dsimp only)

theorem execPeriodicComparatorTest_sound (n : BitVec 6) (pass : Bool) (s : State) (hs : s.Sound) : OutSound (execPeriodicComparatorTest n pass s) := by
  unfold execPeriodicComparatorTest
  with_reducible repeat' (first | assumption | intro _ | apply bgTest_sound | apply outSound_act | apply outSound_next | split | dsimp only)

theorem execPeriodicAesTest_sound (g : BitVec 5) (p : Bool) (pass : Bool) (s : State) (hs : s.Sound) : OutSound (execPeriodicAesTest g p pass s) := by
  unfold execPeriodicAesTest
  with_reducible repeat' (first | assumption | intro _ | apply bgTest_sound | apply outSound_act | apply outSound_next | split | dsimp only)

theorem catRow_sound (idx : Nat) (s : State) (hs : s.Sound) : (catRow idx s).Sound := by
  unfold catRow
  with_reducible repeat' (first | assumption | intro _ | apply draw_sound | apply modDoc_sound | refine of_pair ?_ (by assumption) | apply sound_rec | split | dsimp only | (simp; omega))

theorem scrubCe_sound (a : ScrubArray) (idx : Nat) (s : State) (hs : s.Sound) : (scrubCe a idx s).Sound := by
  unfold scrubCe
  with_reducible repeat' (first | assumption | intro _ | apply assertFault_sound | apply catRow_sound | split | dsimp only)

theorem scrubUe_sound (a : ScrubArray) (idx : Nat) (s : State) (hs : s.Sound) : (scrubUe a idx s).Sound := by
  unfold scrubUe
  with_reducible repeat' (first | assumption | intro _ | apply assertFault_sound | split | dsimp only)

theorem execScrubAccess_sound (arr : ScrubArray) (idx : Nat) (o : ScrubOutcome) (s : State) (hs : s.Sound) : OutSound (execScrubAccess arr idx o s) := by
  unfold execScrubAccess
  with_reducible repeat' (first | assumption | intro _ | apply modDoc_sound | apply scrubUe_sound | apply scrubCe_sound | apply outSound_act | apply outSound_next | apply sound_rec | split | dsimp only | (simp; omega))

theorem execInterpolatorCalibration_sound (s : State) (hs : s.Sound) : OutSound (execInterpolatorCalibration s) := by
  unfold execInterpolatorCalibration
  with_reducible repeat' (first | assumption | intro _ | apply modDoc_sound | apply outSound_act | apply outSound_next | apply sound_rec | split | dsimp only | (simp; omega))

theorem execLinkCalibration_sound (l : BitVec 5) (s : State) (hs : s.Sound) : OutSound (execLinkCalibration l s) := by
  unfold execLinkCalibration
  with_reducible repeat' (first | assumption | intro _ | apply modDoc_sound | apply outSound_act | apply outSound_next | apply sound_rec | split | dsimp only | (simp; omega))

theorem execAtclkCalibration_sound (s : State) (hs : s.Sound) : OutSound (execAtclkCalibration s) := by
  unfold execAtclkCalibration
  with_reducible repeat' (first | assumption | intro _ | apply modDoc_sound | apply outSound_act | apply outSound_next | apply sound_rec | split | dsimp only | (simp; omega))

theorem execSensorSample_sound (dm : DomId) (temp : BitVec 12) (volt : BitVec 12) (s : State) (hs : s.Sound) : OutSound (execSensorSample dm temp volt s) := by
  unfold execSensorSample
  with_reducible repeat' (first | assumption | intro _ | apply lgRecord_sound | apply outSound_act | apply outSound_next | (simp only [sound_mk]; refine ⟨?_, ?_, ?_, ?_⟩) | apply sound_keys | apply sound_ledger | apply sound_halts | apply sound_rec | (simp; done) | split | dsimp only)

theorem execAgeingSample_sound (g : BitVec 5) (freq : BitVec 20) (s : State) (hs : s.Sound) : OutSound (execAgeingSample g freq s) := by
  unfold execAgeingSample
  with_reducible repeat' (first | assumption | intro _ | apply outSound_act | apply outSound_next | (simp only [sound_mk]; refine ⟨?_, ?_, ?_, ?_⟩) | apply sound_keys | apply sound_ledger | apply sound_halts | apply sound_rec | (simp; done) | split | dsimp only)

theorem lgDropped_sound (s : State) (hs : s.Sound) : (lgDropped s).Sound := by
  unfold lgDropped
  with_reducible repeat' (first | assumption | intro _ | apply lgEnqueue_sound | (simp only [sound_mk]; refine ⟨?_, ?_, ?_, ?_⟩) | apply sound_keys | apply sound_ledger | apply sound_halts | apply sound_rec | (simp; done) | split | dsimp only)

theorem execLedgerRecordWrite_sound (s : State) (hs : s.Sound) : OutSound (execLedgerRecordWrite s) := by
  unfold execLedgerRecordWrite
  apply outSound_act
  split
  · exact hs
  · rename_i r q hq
    split
    · exact hs
    · apply lgDropped_sound
      have := hs.ledger
      rw [hq] at this
      simp at this
      exact ⟨hs.keys, by show q.length ≤ 16; omega, hs.halts, hs.recoveries⟩

theorem execLedgerWindowClose_sound (code : BitVec 16) (s : State) (hs : s.Sound) : OutSound (execLedgerWindowClose code s) := by
  unfold execLedgerWindowClose
  with_reducible repeat' (first | assumption | intro _ | apply lgClose_sound | apply outSound_act | apply outSound_next | split | dsimp only)

theorem execOpTimeTick_sound (s : State) (hs : s.Sound) : OutSound (execOpTimeTick s) := by
  unfold execOpTimeTick
  with_reducible repeat' (first | assumption | intro _ | apply outSound_act | apply outSound_next | (simp only [sound_mk]; refine ⟨?_, ?_, ?_, ?_⟩) | apply sound_keys | apply sound_ledger | apply sound_halts | apply sound_rec | (simp; done) | split | dsimp only)

theorem lgStatClear_sound (s : State) (hs : s.Sound) : (lgStatClear s).Sound :=
  ⟨hs.keys, hs.ledger, hs.halts, hs.recoveries⟩

theorem lgSnap_sound (s : State) (hs : s.Sound) : (lgSnap s).Sound :=
  ⟨hs.keys, hs.ledger, hs.halts, hs.recoveries⟩

theorem lgSwWrite_sound (sec : Bool) (v : Word) (s : State) (hs : s.Sound) : OptSound (lgSwWrite sec v s) := by
  unfold lgSwWrite
  with_reducible repeat' (first | assumption | intro _ | apply lgRecord_sound | apply optSound_none | apply optSound_some | split | dsimp only)

theorem lgCtrlTo_sound (v : Word) (s : State) (hs : s.Sound) : (lgCtrlTo v s).Sound := by
  unfold lgCtrlTo
  with_reducible repeat' (first | assumption | intro _ | apply lgRecord_sound | (simp only [sound_mk]; refine ⟨?_, ?_, ?_, ?_⟩) | apply sound_keys | apply sound_ledger | apply sound_halts | apply sound_rec | (simp; done) | split | dsimp only)

theorem lgSeedOpt_sound (v : Word) (s : State) (hs : s.Sound) : OptSound (lgSeedOpt v s) := by
  unfold lgSeedOpt
  with_reducible repeat' (first | assumption | intro _ | apply lgRecord_sound | apply optSound_none | apply optSound_some | (simp only [sound_mk]; refine ⟨?_, ?_, ?_, ?_⟩) | apply sound_keys | apply sound_ledger | apply sound_halts | apply sound_rec | (simp; done) | split | dsimp only)

theorem lgSeedPwr_sound (v : Word) (s : State) (hs : s.Sound) : OptSound (lgSeedPwr v s) := by
  unfold lgSeedPwr
  with_reducible repeat' (first | assumption | intro _ | apply lgRecord_sound | apply optSound_none | apply optSound_some | (simp only [sound_mk]; refine ⟨?_, ?_, ?_, ?_⟩) | apply sound_keys | apply sound_ledger | apply sound_halts | apply sound_rec | (simp; done) | split | dsimp only)

theorem toLe_length (n v : Nat) : (toLe n v).length = n := by
  induction n generalizing v with
  | zero => rfl
  | succ n ih => simp [toLe, ih]

theorem keyBytes_length (x : KeyWin) : (keyBytes x).length = 64 := by
  simp [keyBytes, toLe_length, upTo, List.range, List.range.loop]

theorem keyLoaded_ok (x : KeyWin) (v : Word) (h : keyLoadBad x v = false) : (keyLoaded x v).ok = true := by
  simp [keyLoadBad] at h
  simp only [KeySlot.ok, keyLoaded, keyBytes_length]
  simp
  cases hb : bit v 22 with
  | false => exact .inl rfl
  | true => exact .inr (h.2 hb)

theorem keyCmdWrite_sound (i : Nat) (sec : Bool) (v : Word) (s : State) (hs : s.Sound) : OptSound (keyCmdWrite i sec v s) := by
  unfold keyCmdWrite
  dsimp only
  split
  · exact optSound_none
  · split
    · apply optSound_some
      split
      · exact modKeyWin_sound _ _ _ hs
      · rename_i h
        exact modKeyWin_sound _ _ _ (setKey_sound _ _ _ hs (keyLoaded_ok _ _ (by simpa using h)))
    · split
      · exact optSound_some (modKeyWin_sound _ _ _ (setKey_sound _ _ _ hs (by decide)))
      · exact optSound_some (modKeyWin_sound _ _ _ hs)

theorem keyDataTo_sound (i : Nat) (w : Nat) (sec : Bool) (v : Word) (s : State) (hs : s.Sound) : (keyDataTo i w sec v s).Sound := by
  unfold keyDataTo
  with_reducible repeat' (first | assumption | intro _ | apply modKeyWin_sound | split | dsimp only)

end Sys2Proof.Machine
end

