-- ==== Sys2Proof/Laws/SoundRegs.lean ====
section
/-! SUPPORT. Keeping State.Sound: register access, the sideband, resets and the tick; one lemma per definition. -/

namespace Sys2Proof.Machine

theorem readSequel_sound (sec : Bool) (r : Reg) (s : State) (hs : s.Sound) : (readSequel sec r s).Sound := by
  unfold readSequel
  with_reducible repeat' (first | assumption | intro _ | apply lgStatClear_sound | apply haltPop_sound | apply modEvo_sound | apply modKeyWin_sound | apply modFcr_sound | apply modDoc_sound | apply modGal_sound | apply modPort_sound | apply modArb_sound | apply modLink_sound | apply stqPop_sound | refine of_pair ?_ (by assumption) | (simp only [sound_mk]; refine ⟨?_, ?_, ?_, ?_⟩) | apply sound_keys | apply sound_ledger | apply sound_halts | apply sound_rec | (simp; done) | split | dsimp only | (simp; omega))

theorem winRead_live_sound (i : Nat) (o : Nat) (s : State) (w : CatWin) (hs : s.Sound) : (winRead.live i o s w).2.Sound := by
  unfold winRead.live
  with_reducible repeat' (first | assumption | intro _ | apply modWin_sound | split | dsimp only)

theorem winRead_sound (i : Nat) (o : Nat) (s : State) (hs : s.Sound) : (winRead i o s).2.Sound := by
  unfold winRead
  with_reducible repeat' (first | assumption | apply modWin_sound | apply winRead_live_sound | split | dsimp only)

theorem bellRead_sound (ch : BitVec 12) (k : Nat) (s : State) (hs : s.Sound) : (bellRead ch k s).2.Sound := by
  unfold bellRead
  with_reducible repeat' (first | assumption | intro _ | apply modChan_sound | split | dsimp only)

theorem pairRead_sound (sec : Bool) (lo : Reg) (hi : Reg) (isHi : Bool) (s : State) (hs : s.Sound) : (pairRead sec lo hi isHi s).2.Sound := by
  unfold pairRead
  with_reducible repeat' (first | assumption | intro _ | (simp only [sound_mk]; refine ⟨?_, ?_, ?_, ?_⟩) | apply sound_keys | apply sound_ledger | apply sound_halts | apply sound_rec | (simp; done) | split | dsimp only)

theorem regRead_sound (sec : Bool) (owner : Byte) (r : Reg) (s : State) (hs : s.Sound) : OptWSound (regRead sec owner r s) := by
  unfold regRead
  with_reducible repeat' (first | assumption | intro _ | apply winRead_sound | apply bellRead_sound | apply readSequel_sound | apply lgSnap_sound | apply pairRead_sound | apply optWSound_none | apply optWSound_some | refine of_pair ?_ (by assumption) | split | dsimp only)

theorem rwWrite_sound (r : Reg) (v : Word) (s : State) (hs : s.Sound) : (rwWrite r v s).Sound := by
  unfold rwWrite
  with_reducible repeat' (first | assumption | intro _ | apply setReg_sound | split | dsimp only)

theorem tmCtrlTo_sound (v : Word) (s : State) (hs : s.Sound) : (tmCtrlTo v s).Sound := by
  unfold tmCtrlTo
  with_reducible repeat' (first | assumption | intro _ | apply rwWrite_sound | (simp only [sound_mk]; refine ⟨?_, ?_, ?_, ?_⟩) | apply sound_keys | apply sound_ledger | apply sound_halts | apply sound_rec | (simp; done) | split | dsimp only)

theorem engCtrlTo_sound (g : Nat) (v : Word) (s : State) (hs : s.Sound) : (engCtrlTo g v s).Sound := by
  unfold engCtrlTo
  with_reducible repeat' (first | assumption | intro _ | apply rwWrite_sound | apply modGal_sound | split | dsimp only)

theorem nsDenyWrite_sound (v : Word) (s : State) (hs : s.Sound) : OptSound (nsDenyWrite v s) := by
  unfold nsDenyWrite
  with_reducible repeat' (first | assumption | intro _ | apply rwWrite_sound | apply optSound_none | apply optSound_some | split | dsimp only)

theorem svnTo_sound (v : Word) (s : State) (hs : s.Sound) : (svnTo v s).Sound := by
  unfold svnTo
  with_reducible repeat' (first | assumption | intro _ | apply rwWrite_sound | split | dsimp only)

theorem pendTo_sound (k : Nat) (v : Word) (s : State) (hs : s.Sound) : (pendTo k v s).Sound := by
  unfold pendTo
  with_reducible repeat' (first | assumption | intro _ | apply modFcr_sound | apply foldS_sound | split | dsimp only)

theorem linkCtrlWrite_sound (l : Nat) (v : Word) (s : State) (hs : s.Sound) : (linkCtrlWrite l v s).Sound := by
  unfold linkCtrlWrite
  with_reducible repeat' (first | assumption | intro _ | apply linkCtrlTo_sound | apply rwWrite_sound | split | dsimp only)

theorem rxCfgWrite_sound (l : Nat) (v : Word) (s : State) (hs : s.Sound) : OptSound (rxCfgWrite l v s) := by
  unfold rxCfgWrite
  with_reducible repeat' (first | assumption | intro _ | apply rwWrite_sound | apply modLink_sound | apply optSound_none | apply optSound_some | split | dsimp only)

theorem mstWrite_sound (sec : Bool) (r : Reg) (v : Word) (s : State) (hs : s.Sound) : Opt2Sound (mstWrite sec r v s) := by
  unfold mstWrite
  with_reducible repeat' (first | assumption | intro _ | apply commitWrite_sound | apply modStage_sound | apply clampStatTo_sound | apply tmCtrlTo_sound | apply nsDenyWrite_sound | apply lgCtrlTo_sound | apply lgSeedOpt_sound | apply lgSeedPwr_sound | apply lgSwWrite_sound | apply opt2Sound_none | apply opt2Sound_some | apply optSound_none | apply optSound_some | refine of_optSound ?_ (by assumption) | (simp only [sound_mk]; refine ⟨?_, ?_, ?_, ?_⟩) | apply sound_keys | apply sound_ledger | apply sound_halts | apply sound_rec | (simp; done) | split | dsimp only)

theorem evcWrite_sound (sec : Bool) (r : Reg) (v : Word) (s : State) (hs : s.Sound) : Opt2Sound (evcWrite sec r v s) := by
  unfold evcWrite
  with_reducible repeat' (first | assumption | intro _ | apply modRq_sound | apply swRaise_sound | apply irqClear_sound | apply setReg_sound | apply stageWrite_sound | apply irqCoalChanged_sound | apply rwWrite_sound | apply subWrite_sound | apply modSub_sound | apply modTbs_sound | apply epochBoundary_sound | apply scWrite_sound | apply keyCmdWrite_sound | apply keyDataTo_sound | apply opt2Sound_none | apply opt2Sound_some | apply optSound_none | apply optSound_some | refine of_optSound ?_ (by assumption) | split | dsimp only)

theorem fcrWrite_sound (sec : Bool) (r : Reg) (v : Word) (s : State) (hs : s.Sound) : Opt2Sound (fcrWrite sec r v s) := by
  unfold fcrWrite
  with_reducible repeat' (first | assumption | intro _ | apply loadCtrlWrite_sound | apply svnTo_sound | apply modFcr_sound | apply fltCtrlTo_sound | apply pendTo_sound | apply injCtrlWrite_sound | apply modDoc_sound | apply docCmdWrite_sound | apply alarmFire_sound | apply rwWrite_sound | apply alarmCtrlTo_sound | apply holdRelease_sound | apply domCtrlTo_sound | apply opt2Sound_none | apply opt2Sound_some | apply optSound_none | apply optSound_some | refine of_optSound ?_ (by assumption) | apply sound_rec | split | dsimp only | (simp; omega))

theorem blockWrite_sound (sec : Bool) (r : Reg) (v : Word) (s : State) (hs : s.Sound) : Opt2Sound (blockWrite sec r v s) := by
  unfold blockWrite
  with_reducible repeat' (first | assumption | intro _ | apply modPort_sound | apply modArb_sound | apply linkCtrlWrite_sound | apply rxCfgWrite_sound | apply linkFlush_sound | apply csCtrlWrite_sound | apply engCtrlTo_sound | apply modSlot_sound | apply modEng_sound | apply opt2Sound_none | apply opt2Sound_some | apply optSound_none | apply optSound_some | refine of_optSound ?_ (by assumption) | split | dsimp only)

theorem catSelTo_sound (i : Nat) (v : Word) (s : State) (hs : s.Sound) : (catSelTo i v s).Sound := by
  unfold catSelTo
  with_reducible repeat' (first | assumption | intro _ | apply modWin_sound | apply rwWrite_sound | split | dsimp only)

theorem bellWrite_sound (ch : BitVec 12) (k : Nat) (v : Word) (s : State) (hs : s.Sound) : (bellWrite ch k v s).Sound := by
  unfold bellWrite
  with_reducible repeat' (first | assumption | intro _ | apply considerHead_sound | apply touch_sound | apply modChan_sound | apply ntHeadTo_sound | apply doCommand_sound | split | dsimp only)

theorem opt2Sound_or {a b : Option (Option State)} (ha : Opt2Sound a) (hb : Opt2Sound b) : Opt2Sound (a <|> b) := by
  cases a with
  | none => simpa using hb
  | some x => simpa using ha

theorem regWrite_sound (sec : Bool) (owner : Byte) (r : Reg) (v : Word) (s : State) (hs : s.Sound) : OptSound (regWrite sec owner r v s) := by
  have h := opt2Sound_or (mstWrite_sound sec r v s hs) (opt2Sound_or (evcWrite_sound sec r v s hs)
    (opt2Sound_or (fcrWrite_sound sec r v s hs) (blockWrite_sound sec r v s hs)))
  unfold regWrite
  split
  · exact optSound_some (catSelTo_sound _ _ _ hs)
  · split
    · exact optSound_none
    · exact ctxWrite_sound _ _ _ _ hs
  · split
    · exact optSound_none
    · exact optSound_some (bellWrite_sound _ _ _ _ hs)
  · split
    · exact optSound_none
    · split
      · exact h.all _ ‹_›
      · split
        · exact stageWrite_sound _ _ _ _ hs
        · exact optSound_some (rwWrite_sound _ _ _ hs)

theorem ownerRules_sound (sec : Bool) (owner : Byte) (wr : Bool) (r : Reg) (d : Word) (s : State) (hs : s.Sound) : (ownerRules sec owner wr r d s).2.Sound := by
  unfold ownerRules
  split
  · split
    · exact of_optSound (regWrite_sound _ _ _ _ _ hs) ‹_›
    · exact hs
  · split
    · exact of_optWSound (regRead_sound _ _ _ _ hs) ‹_›
    · exact hs

theorem access_sound (sec : Bool) (owner : Byte) (wr : Bool) (addr : Nat) (d : Word) (s : State) (hs : s.Sound) : (access sec owner wr addr d s).2.Sound := by
  unfold access
  with_reducible repeat' (first | assumption | intro _ | apply beginWake_sound | apply ownerRules_sound | refine of_pair ?_ (by assumption) | split | dsimp only)

theorem attend_sound (addr : Nat) (wr : Bool) (s : State) (hs : s.Sound) : (attend addr wr s).2.Sound := by
  unfold attend
  with_reducible repeat' (first | assumption | intro _ | apply beginWake_sound | split | dsimp only)

theorem discarded_sound (addr : Nat) (s : State) (hs : s.Sound) : (discarded addr s).Sound := by
  unfold discarded
  with_reducible repeat' (first | assumption | intro _ | (simp only [sound_mk]; refine ⟨?_, ?_, ?_, ?_⟩) | apply sound_keys | apply sound_ledger | apply sound_halts | apply sound_rec | (simp; done) | split | dsimp only)

theorem aoDiscarded_sound (s : State) (hs : s.Sound) : (aoDiscarded s).Sound :=
  ⟨hs.keys, hs.ledger, hs.halts, hs.recoveries⟩

theorem answer_sound (r : Option Resp) (s : State) (hs : s.Sound) : (answer r s).Sound :=
  ⟨hs.keys, hs.ledger, hs.halts, hs.recoveries⟩

theorem coreAnswer_sound (a : TpAttr) (wr : Bool) (addr : BitVec 20) (d : Word) (s : State) (hs : s.Sound) : (coreAnswer a wr addr d s).2.Sound := by
  unfold coreAnswer
  with_reducible repeat' (first | assumption | intro _ | apply access_sound | refine of_pair ?_ (by assumption) | split | dsimp only)

theorem aoAnswer_sound (a : TpAttr) (wr : Bool) (addr : BitVec 20) (s : State) (hs : s.Sound) : (aoAnswer a wr addr s).2.Sound := by
  unfold aoAnswer
  with_reducible repeat' (first | assumption | intro _ | apply attend_sound | refine of_pair ?_ (by assumption) | split | dsimp only)

theorem tpAccess_sound (a : TpAttr) (wr : Bool) (addr : BitVec 20) (d : Word) (s : State) (hs : s.Sound) : (tpAccess a wr addr d s).Sound := by
  unfold tpAccess
  with_reducible repeat' (first | assumption | intro _ | apply coreAnswer_sound | apply answer_sound | apply discarded_sound | apply aoDiscarded_sound | apply aoAnswer_sound | refine of_pair ?_ (by assumption) | split | dsimp only)

theorem tpWrite_sound (a : TpAttr) (addr : Nat) (d : Word) (s : State) (hs : s.Sound) : (tpWrite a addr d s).Sound := by
  unfold tpWrite
  with_reducible repeat' (first | assumption | intro _ | apply tpAccess_sound | split | dsimp only)

theorem tpRead_sound (a : TpAttr) (addr : Nat) (s : State) (hs : s.Sound) : (tpRead a addr s).Sound := by
  unfold tpRead
  with_reducible repeat' (first | assumption | intro _ | apply tpAccess_sound | split | dsimp only)

theorem execWrTailWrite_sound (a : TpAttr) (ch : BitVec 12) (d : Word) (s : State) (hs : s.Sound) : OutSound (execWrTailWrite a ch d s) := by
  unfold execWrTailWrite
  with_reducible repeat' (first | assumption | intro _ | apply tpWrite_sound | apply outSound_act | apply outSound_next | split | dsimp only)

theorem execNtHeadWrite_sound (a : TpAttr) (ch : BitVec 12) (d : Word) (s : State) (hs : s.Sound) : OutSound (execNtHeadWrite a ch d s) := by
  unfold execNtHeadWrite
  with_reducible repeat' (first | assumption | intro _ | apply tpWrite_sound | apply outSound_act | apply outSound_next | split | dsimp only)

theorem execInvalidate_sound (a : TpAttr) (ch : BitVec 12) (d : Word) (s : State) (hs : s.Sound) : OutSound (execInvalidate a ch d s) := by
  unfold execInvalidate
  with_reducible repeat' (first | assumption | intro _ | apply tpWrite_sound | apply outSound_act | apply outSound_next | split | dsimp only)

theorem execPause_sound (a : TpAttr) (ch : BitVec 12) (d : Word) (s : State) (hs : s.Sound) : OutSound (execPause a ch d s) := by
  unfold execPause
  with_reducible repeat' (first | assumption | intro _ | apply tpWrite_sound | apply outSound_act | apply outSound_next | split | dsimp only)

theorem execStop_sound (a : TpAttr) (ch : BitVec 12) (d : Word) (s : State) (hs : s.Sound) : OutSound (execStop a ch d s) := by
  unfold execStop
  with_reducible repeat' (first | assumption | intro _ | apply tpWrite_sound | apply outSound_act | apply outSound_next | split | dsimp only)

theorem execAbort_sound (a : TpAttr) (ch : BitVec 12) (d : Word) (s : State) (hs : s.Sound) : OutSound (execAbort a ch d s) := by
  unfold execAbort
  with_reducible repeat' (first | assumption | intro _ | apply tpWrite_sound | apply outSound_act | apply outSound_next | split | dsimp only)

theorem execKill_sound (a : TpAttr) (ch : BitVec 12) (d : Word) (s : State) (hs : s.Sound) : OutSound (execKill a ch d s) := by
  unfold execKill
  with_reducible repeat' (first | assumption | intro _ | apply tpWrite_sound | apply outSound_act | apply outSound_next | split | dsimp only)

theorem execResume_sound (a : TpAttr) (ch : BitVec 12) (d : Word) (s : State) (hs : s.Sound) : OutSound (execResume a ch d s) := by
  unfold execResume
  with_reducible repeat' (first | assumption | intro _ | apply tpWrite_sound | apply outSound_act | apply outSound_next | split | dsimp only)

theorem execChAllocate_sound (a : TpAttr) (i : BitVec 2) (d : Word) (s : State) (hs : s.Sound) : OutSound (execChAllocate a i d s) := by
  unfold execChAllocate
  with_reducible repeat' (first | assumption | intro _ | apply tpWrite_sound | apply outSound_act | apply outSound_next | split | dsimp only)

theorem execChFree_sound (a : TpAttr) (i : BitVec 2) (d : Word) (s : State) (hs : s.Sound) : OutSound (execChFree a i d s) := by
  unfold execChFree
  with_reducible repeat' (first | assumption | intro _ | apply tpWrite_sound | apply outSound_act | apply outSound_next | split | dsimp only)

theorem execChEnable_sound (a : TpAttr) (i : BitVec 2) (d : Word) (s : State) (hs : s.Sound) : OutSound (execChEnable a i d s) := by
  unfold execChEnable
  with_reducible repeat' (first | assumption | intro _ | apply tpWrite_sound | apply outSound_act | apply outSound_next | split | dsimp only)

theorem execChDisable_sound (a : TpAttr) (i : BitVec 2) (d : Word) (s : State) (hs : s.Sound) : OutSound (execChDisable a i d s) := by
  unfold execChDisable
  with_reducible repeat' (first | assumption | intro _ | apply tpWrite_sound | apply outSound_act | apply outSound_next | split | dsimp only)

theorem execRingConfigWrite_sound (a : TpAttr) (i : BitVec 2) (off : BitVec 8) (d : Word) (s : State) (hs : s.Sound) : OutSound (execRingConfigWrite a i off d s) := by
  unfold execRingConfigWrite
  with_reducible repeat' (first | assumption | intro _ | apply tpWrite_sound | apply outSound_act | apply outSound_next | split | dsimp only)

theorem execCatSelWrite_sound (a : TpAttr) (i : BitVec 2) (d : Word) (s : State) (hs : s.Sound) : OutSound (execCatSelWrite a i d s) := by
  unfold execCatSelWrite
  with_reducible repeat' (first | assumption | intro _ | apply tpWrite_sound | apply outSound_act | apply outSound_next | split | dsimp only)

theorem execChCkPcRead_sound (a : TpAttr) (i : BitVec 2) (s : State) (hs : s.Sound) : OutSound (execChCkPcRead a i s) := by
  unfold execChCkPcRead
  with_reducible repeat' (first | assumption | intro _ | apply tpRead_sound | apply outSound_act | apply outSound_next | split | dsimp only)

theorem execLoHalfRead_sound (a : TpAttr) (addr : BitVec 20) (s : State) (hs : s.Sound) : OutSound (execLoHalfRead a addr s) := by
  unfold execLoHalfRead
  with_reducible repeat' (first | assumption | intro _ | apply tpAccess_sound | apply outSound_act | apply outSound_next | split | dsimp only)

theorem execRcFieldRead_sound (a : TpAttr) (addr : BitVec 20) (s : State) (hs : s.Sound) : OutSound (execRcFieldRead a addr s) := by
  unfold execRcFieldRead
  with_reducible repeat' (first | assumption | intro _ | apply tpAccess_sound | apply outSound_act | apply outSound_next | split | dsimp only)

theorem execRegisterWrite_sound (a : TpAttr) (addr : BitVec 20) (d : Word) (s : State) (hs : s.Sound) : OutSound (execRegisterWrite a addr d s) := by
  unfold execRegisterWrite
  with_reducible repeat' (first | assumption | intro _ | apply tpAccess_sound | apply outSound_act | apply outSound_next | split | dsimp only)

theorem execAttendantAccess_sound (a : TpAttr) (addr : BitVec 20) (wr : Bool) (d : Word) (s : State) (hs : s.Sound) : OutSound (execAttendantAccess a addr wr d s) := by
  unfold execAttendantAccess
  with_reducible repeat' (first | assumption | intro _ | apply tpAccess_sound | apply outSound_act | apply outSound_next | split | dsimp only)

theorem execTpHandshakeViolation_sound (a : TpAttr) (s : State) (hs : s.Sound) : OutSound (execTpHandshakeViolation a s) := by
  unfold execTpHandshakeViolation
  with_reducible repeat' (first | assumption | intro _ | apply assertFault_sound | apply draw_sound | apply answer_sound | apply outSound_act | apply outSound_next | refine of_pair ?_ (by assumption) | (simp only [sound_mk]; refine ⟨?_, ?_, ?_, ?_⟩) | apply sound_keys | apply sound_ledger | apply sound_halts | apply sound_rec | (simp; done) | split | dsimp only)

theorem execStagingWrite_sound (a : TpAttr) (addr : BitVec 20) (d : Word) (s : State) (hs : s.Sound) : OutSound (execStagingWrite a addr d s) := by
  unfold execStagingWrite
  with_reducible repeat' (first | assumption | intro _ | apply tpAccess_sound | apply outSound_act | apply outSound_next | split | dsimp only)

theorem execCommit_sound (a : TpAttr) (d : Word) (s : State) (hs : s.Sound) : OutSound (execCommit a d s) := by
  unfold execCommit
  with_reducible repeat' (first | assumption | intro _ | apply tpWrite_sound | apply outSound_act | apply outSound_next | split | dsimp only)

theorem execCancel_sound (a : TpAttr) (d : Word) (s : State) (hs : s.Sound) : OutSound (execCancel a d s) := by
  unfold execCancel
  with_reducible repeat' (first | assumption | intro _ | apply tpWrite_sound | apply outSound_act | apply outSound_next | split | dsimp only)

theorem execRevert_sound (a : TpAttr) (d : Word) (s : State) (hs : s.Sound) : OutSound (execRevert a d s) := by
  unfold execRevert
  with_reducible repeat' (first | assumption | intro _ | apply tpWrite_sound | apply outSound_act | apply outSound_next | split | dsimp only)

theorem execClampLogClear_sound (a : TpAttr) (d : Word) (s : State) (hs : s.Sound) : OutSound (execClampLogClear a d s) := by
  unfold execClampLogClear
  with_reducible repeat' (first | assumption | intro _ | apply tpWrite_sound | apply outSound_act | apply outSound_next | split | dsimp only)

theorem execScCtrlWrite_sound (a : TpAttr) (n : BitVec 5) (d : Word) (s : State) (hs : s.Sound) : OutSound (execScCtrlWrite a n d s) := by
  unfold execScCtrlWrite
  with_reducible repeat' (first | assumption | intro _ | apply tpWrite_sound | apply outSound_act | apply outSound_next | split | dsimp only)

theorem execEpochStrobe_sound (a : TpAttr) (d : Word) (s : State) (hs : s.Sound) : OutSound (execEpochStrobe a d s) := by
  unfold execEpochStrobe
  with_reducible repeat' (first | assumption | intro _ | apply tpWrite_sound | apply outSound_act | apply outSound_next | split | dsimp only)

theorem execSwRaise_sound (a : TpAttr) (d : Word) (s : State) (hs : s.Sound) : OutSound (execSwRaise a d s) := by
  unfold execSwRaise
  with_reducible repeat' (first | assumption | intro _ | apply tpWrite_sound | apply outSound_act | apply outSound_next | split | dsimp only)

theorem execSubWrite_sound (a : TpAttr) (j : BitVec 10) (d : Word) (s : State) (hs : s.Sound) : OutSound (execSubWrite a j d s) := by
  unfold execSubWrite
  with_reducible repeat' (first | assumption | intro _ | apply tpWrite_sound | apply outSound_act | apply outSound_next | split | dsimp only)

theorem execHaltQRead_sound (a : TpAttr) (s : State) (hs : s.Sound) : OutSound (execHaltQRead a s) := by
  unfold execHaltQRead
  with_reducible repeat' (first | assumption | intro _ | apply tpRead_sound | apply outSound_act | apply outSound_next | split | dsimp only)

theorem execIrqPendClear_sound (a : TpAttr) (d : Word) (s : State) (hs : s.Sound) : OutSound (execIrqPendClear a d s) := by
  unfold execIrqPendClear
  with_reducible repeat' (first | assumption | intro _ | apply tpWrite_sound | apply outSound_act | apply outSound_next | split | dsimp only)

theorem execLinkEnable_sound (a : TpAttr) (l : BitVec 5) (d : Word) (s : State) (hs : s.Sound) : OutSound (execLinkEnable a l d s) := by
  unfold execLinkEnable
  with_reducible repeat' (first | assumption | intro _ | apply tpWrite_sound | apply outSound_act | apply outSound_next | split | dsimp only)

theorem execLinkDisable_sound (a : TpAttr) (l : BitVec 5) (d : Word) (s : State) (hs : s.Sound) : OutSound (execLinkDisable a l d s) := by
  unfold execLinkDisable
  with_reducible repeat' (first | assumption | intro _ | apply tpWrite_sound | apply outSound_act | apply outSound_next | split | dsimp only)

theorem execRetrain_sound (a : TpAttr) (l : BitVec 5) (d : Word) (s : State) (hs : s.Sound) : OutSound (execRetrain a l d s) := by
  unfold execRetrain
  with_reducible repeat' (first | assumption | intro _ | apply tpWrite_sound | apply outSound_act | apply outSound_next | split | dsimp only)

theorem execRxFlush_sound (a : TpAttr) (l : BitVec 5) (d : Word) (s : State) (hs : s.Sound) : OutSound (execRxFlush a l d s) := by
  unfold execRxFlush
  with_reducible repeat' (first | assumption | intro _ | apply tpWrite_sound | apply outSound_act | apply outSound_next | split | dsimp only)

theorem execRxCfgWrite_sound (a : TpAttr) (l : BitVec 5) (d : Word) (s : State) (hs : s.Sound) : OutSound (execRxCfgWrite a l d s) := by
  unfold execRxCfgWrite
  with_reducible repeat' (first | assumption | intro _ | apply tpWrite_sound | apply outSound_act | apply outSound_next | split | dsimp only)

theorem execStqHdrRead_sound (a : TpAttr) (l : BitVec 5) (s : State) (hs : s.Sound) : OutSound (execStqHdrRead a l s) := by
  unfold execStqHdrRead
  with_reducible repeat' (first | assumption | intro _ | apply tpRead_sound | apply outSound_act | apply outSound_next | split | dsimp only)

theorem execLoadGo_sound (a : TpAttr) (d : Word) (s : State) (hs : s.Sound) : OutSound (execLoadGo a d s) := by
  unfold execLoadGo
  with_reducible repeat' (first | assumption | intro _ | apply tpWrite_sound | apply outSound_act | apply outSound_next | split | dsimp only)

theorem execLoadCancel_sound (a : TpAttr) (d : Word) (s : State) (hs : s.Sound) : OutSound (execLoadCancel a d s) := by
  unfold execLoadCancel
  with_reducible repeat' (first | assumption | intro _ | apply tpWrite_sound | apply outSound_act | apply outSound_next | split | dsimp only)

theorem execBankSwap_sound (a : TpAttr) (g : BitVec 5) (d : Word) (s : State) (hs : s.Sound) : OutSound (execBankSwap a g d s) := by
  unfold execBankSwap
  with_reducible repeat' (first | assumption | intro _ | apply tpWrite_sound | apply outSound_act | apply outSound_next | split | dsimp only)

theorem execSvnMinWrite_sound (a : TpAttr) (d : Word) (s : State) (hs : s.Sound) : OutSound (execSvnMinWrite a d s) := by
  unfold execSvnMinWrite
  with_reducible repeat' (first | assumption | intro _ | apply tpWrite_sound | apply outSound_act | apply outSound_next | split | dsimp only)

theorem execFltRelease_sound (a : TpAttr) (d : Word) (s : State) (hs : s.Sound) : OutSound (execFltRelease a d s) := by
  unfold execFltRelease
  with_reducible repeat' (first | assumption | intro _ | apply tpWrite_sound | apply outSound_act | apply outSound_next | split | dsimp only)

theorem execInjectionGo_sound (a : TpAttr) (d : Word) (s : State) (hs : s.Sound) : OutSound (execInjectionGo a d s) := by
  unfold execInjectionGo
  with_reducible repeat' (first | assumption | intro _ | apply tpWrite_sound | apply outSound_act | apply outSound_next | split | dsimp only)

theorem execDocTest_sound (a : TpAttr) (d : Word) (s : State) (hs : s.Sound) : OutSound (execDocTest a d s) := by
  unfold execDocTest
  with_reducible repeat' (first | assumption | intro _ | apply tpWrite_sound | apply outSound_act | apply outSound_next | split | dsimp only)

theorem execDocRetire_sound (a : TpAttr) (d : Word) (s : State) (hs : s.Sound) : OutSound (execDocRetire a d s) := by
  unfold execDocRetire
  with_reducible repeat' (first | assumption | intro _ | apply tpWrite_sound | apply outSound_act | apply outSound_next | split | dsimp only)

theorem execDocRotate_sound (a : TpAttr) (d : Word) (s : State) (hs : s.Sound) : OutSound (execDocRotate a d s) := by
  unfold execDocRotate
  with_reducible repeat' (first | assumption | intro _ | apply tpWrite_sound | apply outSound_act | apply outSound_next | split | dsimp only)

theorem execDomCtrlWrite_sound (a : TpAttr) (dm : DomId) (d : Word) (s : State) (hs : s.Sound) : OutSound (execDomCtrlWrite a dm d s) := by
  unfold execDomCtrlWrite
  with_reducible repeat' (first | assumption | intro _ | apply tpWrite_sound | apply outSound_act | apply outSound_next | split | dsimp only)

theorem execHoldRelease_sound (a : TpAttr) (hi : Bool) (d : Word) (s : State) (hs : s.Sound) : OutSound (execHoldRelease a hi d s) := by
  unfold execHoldRelease
  with_reducible repeat' (first | assumption | intro _ | apply tpWrite_sound | apply outSound_act | apply outSound_next | split | dsimp only)

theorem execLgDataRead_sound (a : TpAttr) (s : State) (hs : s.Sound) : OutSound (execLgDataRead a s) := by
  unfold execLgDataRead
  with_reducible repeat' (first | assumption | intro _ | apply tpRead_sound | apply outSound_act | apply outSound_next | split | dsimp only)

theorem execLgSwCodeWrite_sound (a : TpAttr) (d : Word) (s : State) (hs : s.Sound) : OutSound (execLgSwCodeWrite a d s) := by
  unfold execLgSwCodeWrite
  with_reducible repeat' (first | assumption | intro _ | apply tpWrite_sound | apply outSound_act | apply outSound_next | split | dsimp only)

theorem execLgClear_sound (a : TpAttr) (d : Word) (s : State) (hs : s.Sound) : OutSound (execLgClear a d s) := by
  unfold execLgClear
  with_reducible repeat' (first | assumption | intro _ | apply tpWrite_sound | apply outSound_act | apply outSound_next | split | dsimp only)

theorem execLgSeedOptWrite_sound (a : TpAttr) (d : Word) (s : State) (hs : s.Sound) : OutSound (execLgSeedOptWrite a d s) := by
  unfold execLgSeedOptWrite
  with_reducible repeat' (first | assumption | intro _ | apply tpWrite_sound | apply outSound_act | apply outSound_next | split | dsimp only)

theorem execLgSeedPwrWrite_sound (a : TpAttr) (d : Word) (s : State) (hs : s.Sound) : OutSound (execLgSeedPwrWrite a d s) := by
  unfold execLgSeedPwrWrite
  with_reducible repeat' (first | assumption | intro _ | apply tpWrite_sound | apply outSound_act | apply outSound_next | split | dsimp only)

theorem execTmTake_sound (a : TpAttr) (d : Word) (s : State) (hs : s.Sound) : OutSound (execTmTake a d s) := by
  unfold execTmTake
  with_reducible repeat' (first | assumption | intro _ | apply tpWrite_sound | apply outSound_act | apply outSound_next | split | dsimp only)

theorem execEngStatTake_sound (a : TpAttr) (g : BitVec 5) (d : Word) (s : State) (hs : s.Sound) : OutSound (execEngStatTake a g d s) := by
  unfold execEngStatTake
  with_reducible repeat' (first | assumption | intro _ | apply tpWrite_sound | apply outSound_act | apply outSound_next | split | dsimp only)

theorem execNsDenyWrite_sound (a : TpAttr) (d : Word) (s : State) (hs : s.Sound) : OutSound (execNsDenyWrite a d s) := by
  unfold execNsDenyWrite
  with_reducible repeat' (first | assumption | intro _ | apply tpWrite_sound | apply outSound_act | apply outSound_next | split | dsimp only)

theorem execKeyLoad_sound (a : TpAttr) (i : BitVec 2) (d : Word) (s : State) (hs : s.Sound) : OutSound (execKeyLoad a i d s) := by
  unfold execKeyLoad
  with_reducible repeat' (first | assumption | intro _ | apply tpWrite_sound | apply outSound_act | apply outSound_next | split | dsimp only)

theorem execKeyClear_sound (a : TpAttr) (i : BitVec 2) (d : Word) (s : State) (hs : s.Sound) : OutSound (execKeyClear a i d s) := by
  unfold execKeyClear
  with_reducible repeat' (first | assumption | intro _ | apply tpWrite_sound | apply outSound_act | apply outSound_next | split | dsimp only)

theorem execKeyDataWrite_sound (a : TpAttr) (i : BitVec 2) (k : BitVec 4) (d : Word) (s : State) (hs : s.Sound) : OutSound (execKeyDataWrite a i k d s) := by
  unfold execKeyDataWrite
  with_reducible repeat' (first | assumption | intro _ | apply tpWrite_sound | apply outSound_act | apply outSound_next | split | dsimp only)

theorem modSbp_sound (s : State) (f : Sbp → Sbp) (hs : s.Sound) : (State.modSbp s f).Sound :=
  ⟨hs.keys, hs.ledger, hs.halts, hs.recoveries⟩

theorem execSbpAddressMatch_sound (s : State) (hs : s.Sound) : OutSound (execSbpAddressMatch s) := by
  unfold execSbpAddressMatch
  with_reducible repeat' (first | assumption | intro _ | apply sbpHand_sound | apply beginWake_sound | apply modSbp_sound | apply outSound_act | apply outSound_next | split | dsimp only)

theorem execSbpStretchTimeout_sound (s : State) (hs : s.Sound) : OutSound (execSbpStretchTimeout s) := by
  unfold execSbpStretchTimeout
  with_reducible repeat' (first | assumption | intro _ | apply assertFault_sound | apply modSbp_sound | apply outSound_act | apply outSound_next | split | dsimp only)

theorem sbpEnd_sound (s : State) (hs : s.Sound) : (sbpEnd s).Sound := by
  unfold sbpEnd
  with_reducible repeat' (first | assumption | intro _ | apply modSbp_sound | split | dsimp only)

theorem execSbpStop_sound (s : State) (hs : s.Sound) : OutSound (execSbpStop s) := by
  unfold execSbpStop
  with_reducible repeat' (first | assumption | intro _ | apply sbpEnd_sound | apply outSound_act | apply outSound_next | split | dsimp only)

theorem execSbpIdleTimeout_sound (s : State) (hs : s.Sound) : OutSound (execSbpIdleTimeout s) := by
  unfold execSbpIdleTimeout
  with_reducible repeat' (first | assumption | intro _ | apply sbpEnd_sound | apply outSound_act | apply outSound_next | split | dsimp only)

theorem sbpNak_sound (s : State) (hs : s.Sound) : (sbpNak s).Sound := by
  unfold sbpNak
  with_reducible repeat' (first | assumption | intro _ | apply modSbp_sound | split | dsimp only)

theorem sbpGive_sound (code : Byte) (pre : List Byte) (b : List Byte) (s : State) (hs : s.Sound) : (sbpGive code pre b s).Sound := by
  unfold sbpGive
  with_reducible repeat' (first | assumption | intro _ | apply modSbp_sound | split | dsimp only)

theorem sbpBlock_sound (code : Byte) (b : List Byte) (s : State) (hs : s.Sound) : (sbpBlock code b s).Sound := by
  unfold sbpBlock
  with_reducible repeat' (first | assumption | intro _ | apply sbpGive_sound | split | dsimp only)

theorem sbpTake_sound (code : Byte) (b : List Byte) (pec : Option Byte) (f : State → State) (s : State) (hf : ∀ u, State.Sound u → (f u).Sound) (hs : s.Sound) : (sbpTake code b pec f s).Sound := by
  unfold sbpTake
  with_reducible repeat' (first | assumption | intro _ | apply modSbp_sound | apply sbpNak_sound | apply hf | split | dsimp only)

theorem sbpPut_sound (code : Byte) (b : List Byte) (pec : Option Byte) (f : State → State) (s : State) (hf : ∀ u, State.Sound u → (f u).Sound) (hs : s.Sound) : (sbpPut code b pec f s).Sound := by
  unfold sbpPut
  with_reducible repeat' (first | assumption | intro _ | apply sbpTake_sound | apply hf | split | dsimp only)

theorem sbpSetAddr_sound (b : List Byte) (pec : Option Byte) (s : State) (hs : s.Sound) : (sbpSetAddr b pec s).Sound := by
  unfold sbpSetAddr
  with_reducible repeat' (first | assumption | intro _ | apply sbpNak_sound | apply sbpPut_sound | apply modSbp_sound | split | dsimp only)

theorem sbpAccess_sound (wr : Bool) (d : Word) (s : State) (hs : s.Sound) : (sbpAccess wr d s).2.Sound := by
  unfold sbpAccess
  with_reducible repeat' (first | assumption | intro _ | apply coreAnswer_sound | apply modSbp_sound | refine of_pair ?_ (by assumption) | split | dsimp only)

theorem sbpRd_sound (s : State) (hs : s.Sound) : (sbpRd s).Sound := by
  unfold sbpRd
  with_reducible repeat' (first | assumption | intro _ | apply sbpAccess_sound | apply sbpBlock_sound | refine of_pair ?_ (by assumption) | split | dsimp only)

theorem sbpWr_sound (b : List Byte) (s : State) (hs : s.Sound) : (sbpWr b s).Sound := by
  unfold sbpWr
  with_reducible repeat' (first | assumption | intro _ | apply sbpAccess_sound | apply modSbp_sound | refine of_pair ?_ (by assumption) | split | dsimp only)

theorem sbpTmIdx_sound (b : Byte) (s : State) (hs : s.Sound) : (sbpTmIdx b s).Sound := by
  unfold sbpTmIdx
  with_reducible repeat' (first | assumption | intro _ | apply modSbp_sound | apply draw_sound | refine of_pair ?_ (by assumption) | split | dsimp only)

theorem sbpRun_sound (code : Byte) (b : List Byte) (pec : Option Byte) (s : State) (hs : s.Sound) : (sbpRun code b pec s).Sound := by
  unfold sbpRun
  with_reducible repeat' (first | assumption | intro _ | apply sbpBlock_sound | apply sbpSetAddr_sound | apply sbpRd_sound | apply sbpPut_sound | apply sbpWr_sound | apply sbpGive_sound | apply lgStatClear_sound | apply modSbp_sound | apply sbpTake_sound | apply sbpTmIdx_sound | apply sbpNak_sound | split | dsimp only)

theorem execInfo_sound (s : State) (hs : s.Sound) : OutSound (execInfo s) := by
  unfold execInfo
  with_reducible repeat' (first | assumption | intro _ | apply sbpRun_sound | apply outSound_act | apply outSound_next | split | dsimp only)

theorem execAddr_sound (d : Word) (pec : Option Byte) (s : State) (hs : s.Sound) : OutSound (execAddr d pec s) := by
  unfold execAddr
  with_reducible repeat' (first | assumption | intro _ | apply sbpRun_sound | apply outSound_act | apply outSound_next | split | dsimp only)

theorem execRd_sound (s : State) (hs : s.Sound) : OutSound (execRd s) := by
  unfold execRd
  with_reducible repeat' (first | assumption | intro _ | apply sbpRun_sound | apply outSound_act | apply outSound_next | split | dsimp only)

theorem execWr_sound (d : Word) (pec : Option Byte) (s : State) (hs : s.Sound) : OutSound (execWr d pec s) := by
  unfold execWr
  with_reducible repeat' (first | assumption | intro _ | apply sbpRun_sound | apply outSound_act | apply outSound_next | split | dsimp only)

theorem execWrResp_sound (s : State) (hs : s.Sound) : OutSound (execWrResp s) := by
  unfold execWrResp
  with_reducible repeat' (first | assumption | intro _ | apply sbpRun_sound | apply outSound_act | apply outSound_next | split | dsimp only)

theorem execLgHead_sound (s : State) (hs : s.Sound) : OutSound (execLgHead s) := by
  unfold execLgHead
  with_reducible repeat' (first | assumption | intro _ | apply sbpRun_sound | apply outSound_act | apply outSound_next | split | dsimp only)

theorem execLgSeq_sound (d : Word) (pec : Option Byte) (s : State) (hs : s.Sound) : OutSound (execLgSeq d pec s) := by
  unfold execLgSeq
  with_reducible repeat' (first | assumption | intro _ | apply sbpRun_sound | apply outSound_act | apply outSound_next | split | dsimp only)

theorem execLgRead_sound (s : State) (hs : s.Sound) : OutSound (execLgRead s) := by
  unfold execLgRead
  with_reducible repeat' (first | assumption | intro _ | apply sbpRun_sound | apply outSound_act | apply outSound_next | split | dsimp only)

theorem execTmIdx_sound (b : Byte) (pec : Option Byte) (s : State) (hs : s.Sound) : OutSound (execTmIdx b pec s) := by
  unfold execTmIdx
  with_reducible repeat' (first | assumption | intro _ | apply sbpRun_sound | apply outSound_act | apply outSound_next | split | dsimp only)

theorem execTmRead_sound (s : State) (hs : s.Sound) : OutSound (execTmRead s) := by
  unfold execTmRead
  with_reducible repeat' (first | assumption | intro _ | apply sbpRun_sound | apply outSound_act | apply outSound_next | split | dsimp only)

theorem coreReset_sound (s : State) (hs : s.Sound) : (coreReset s).Sound := by
  exact ⟨rfl, hs.ledger, Nat.zero_le _, Nat.zero_le _⟩

theorem execRstNAssert_sound (s : State) (hs : s.Sound) : OutSound (execRstNAssert s) := by
  unfold execRstNAssert
  with_reducible repeat' (first | assumption | intro _ | apply coreReset_sound | apply lgRecord_sound | apply outSound_act | apply outSound_next | split | dsimp only)

theorem oppDefault_sound (straps : Word) (s : State) (hs : s.Sound) : (oppDefault straps s).Sound := by
  unfold oppDefault
  with_reducible repeat' (first | assumption | intro _ | apply modSup_sound | apply foldS_sound | split | dsimp only)

theorem execRstNRelease_sound (str : Word) (s : State) (hs : s.Sound) : OutSound (execRstNRelease str s) := by
  unfold execRstNRelease
  apply outSound_act
  dsimp only
  split
  · exact hs
  · apply wakeAdvance_sound
    apply pmiPolicy_sound
    apply modDom_sound
    apply modDom_sound
    apply oppDefault_sound
    exact ⟨hs.keys, hs.ledger, hs.halts, hs.recoveries⟩

theorem dropLatches_sound (s : State) (hs : s.Sound) : (dropLatches s).Sound :=
  ⟨hs.keys, hs.ledger, hs.halts, hs.recoveries⟩

theorem execResetSequenceComplete_sound (s : State) (hs : s.Sound) : OutSound (execResetSequenceComplete s) := by
  unfold execResetSequenceComplete
  apply outSound_act
  split
  · exact hs
  · dsimp only
    have ht : State.Sound (((({ s with boot := { s.boot with ready := true }, tbs := { spinPin := s.tbs.spinPin } } : State).modDom 1
        (fun x => { x with st := .on, step := .none, target := .on }))).modDom 2
        (fun x => { x with st := .on, step := .none, target := .on })) :=
      modDom_sound _ _ _ (modDom_sound _ _ _ ⟨hs.keys, hs.ledger, hs.halts, hs.recoveries⟩)
    apply sbpHand_sound
    apply bootLoad_sound
    apply pmiPolicy_sound
    apply dropLatches_sound
    split
    · exact enterLock_sound _ _ _ _ _ ht
    · exact ht

theorem execRstAoAssert_sound (s : State) (hs : s.Sound) : OutSound (execRstAoAssert s) := by
  unfold execRstAoAssert
  exact outSound_next ⟨rfl, Nat.zero_le _, Nat.zero_le _, Nat.zero_le _⟩

theorem execRstAoRelease_sound (s : State) (hs : s.Sound) : OutSound (execRstAoRelease s) := by
  unfold execRstAoRelease
  apply outSound_next
  split
  · exact ⟨hs.keys, Nat.zero_le _, hs.halts, hs.recoveries⟩
  · exact hs

theorem execTapReset_sound (s : State) (hs : s.Sound) : OutSound (execTapReset s) := by
  unfold execTapReset
  with_reducible repeat' (first | assumption | intro _ | apply outSound_act | apply outSound_next | (simp only [sound_mk]; refine ⟨?_, ?_, ?_, ?_⟩) | apply sound_keys | apply sound_ledger | apply sound_halts | apply sound_rec | (simp; done) | split | dsimp only)

theorem execShellIsoChange_sound (v : Bool) (s : State) (hs : s.Sound) : OutSound (execShellIsoChange v s) := by
  unfold execShellIsoChange
  with_reducible repeat' (first | assumption | intro _ | apply outSound_act | apply outSound_next | (simp only [sound_mk]; refine ⟨?_, ?_, ?_, ?_⟩) | apply sound_keys | apply sound_ledger | apply sound_halts | apply sound_rec | (simp; done) | split | dsimp only)

theorem execTestModeEntry_sound (s : State) (hs : s.Sound) : OutSound (execTestModeEntry s) := by
  unfold execTestModeEntry
  exact outSound_next ⟨rfl, hs.ledger, hs.halts, hs.recoveries⟩

theorem execDbgHalt_sound (v : Bool) (s : State) (hs : s.Sound) : OutSound (execDbgHalt v s) := by
  unfold execDbgHalt
  with_reducible repeat' (first | assumption | intro _ | apply modEng_sound | apply foldS_sound | apply outSound_act | apply outSound_next | (simp only [sound_mk]; refine ⟨?_, ?_, ?_, ?_⟩) | apply sound_keys | apply sound_ledger | apply sound_halts | apply sound_rec | (simp; done) | split | dsimp only)

theorem execDbgStep_sound (s : State) (hs : s.Sound) : OutSound (execDbgStep s) := by
  unfold execDbgStep
  with_reducible repeat' (first | assumption | intro _ | apply modEng_sound | apply foldS_sound | apply outSound_act | apply outSound_next | split | dsimp only)

theorem tmTime_sound (s : State) (hs : s.Sound) : (tmTime s).Sound := by
  unfold tmTime
  with_reducible repeat' (first | assumption | intro _ | apply tmAdd_sound | (simp only [sound_mk]; refine ⟨?_, ?_, ?_, ?_⟩) | apply sound_keys | apply sound_ledger | apply sound_halts | apply sound_rec | (simp; done) | split | dsimp only)

theorem tickTime_sound (s : State) (hs : s.Sound) : (tickTime s).Sound := by
  unfold tickTime
  with_reducible repeat' (first | assumption | intro _ | apply spinTick_sound | (simp only [sound_mk]; refine ⟨?_, ?_, ?_, ?_⟩) | apply sound_keys | apply sound_ledger | apply sound_halts | apply sound_rec | (simp; done) | split | dsimp only)

theorem ledgerTime_sound (s : State) (hs : s.Sound) : (ledgerTime s).Sound := by
  unfold ledgerTime
  with_reducible repeat' (first | assumption | intro _ | (simp only [sound_mk]; refine ⟨?_, ?_, ?_, ?_⟩) | apply sound_keys | apply sound_ledger | apply sound_halts | apply sound_rec | (simp; done) | split | dsimp only)

theorem rqAcksFall_sound (s : State) (hs : s.Sound) : (rqAcksFall s).Sound := by
  unfold rqAcksFall
  with_reducible repeat' (first | assumption | intro _ | apply modRq_sound | apply foldS_sound | split | dsimp only)

theorem wdogTicks_sound (s : State) (hs : s.Sound) : (wdogTicks s).Sound := by
  unfold wdogTicks
  with_reducible repeat' (first | assumption | intro _ | apply wdogTick_sound | apply foldS_sound | split | dsimp only)

theorem tick_sound (s : State) (hs : s.Sound) : (tick s).Sound := by
  unfold tick
  with_reducible repeat' (first | assumption | intro _ | apply ledgerTime_sound | apply wdogTicks_sound | apply tmTime_sound | apply tickTime_sound | apply rqAcksFall_sound | split | dsimp only)

theorem withFetchWord_sound (s : State) (nbits : Nat) (w : Nat) (hs : s.Sound) : (State.withFetchWord s nbits w).Sound := by
  unfold State.withFetchWord
  with_reducible repeat' (first | assumption | intro _ | (simp only [sound_mk]; refine ⟨?_, ?_, ?_, ?_⟩) | apply sound_keys | apply sound_ledger | apply sound_halts | apply sound_rec | (simp; done) | split | dsimp only)

end Sys2Proof.Machine
end

