-- ==== Sys2Proof/Laws/State.lean ====
section
/-! SUPPORT. State: what each named update leaves unchanged, field by field and accessor by accessor. -/

namespace Sys2Proof.Machine.State

/-! ## setChan -/

@[simp] theorem setChan_boot (s : State) (n : BitVec 12) (c : Chan) : (s.setChan n c).boot = s.boot := rfl
@[simp] theorem setChan_tbs (s : State) (n : BitVec 12) (c : Chan) : (s.setChan n c).tbs = s.tbs := rfl
@[simp] theorem setChan_wins (s : State) (n : BitVec 12) (c : Chan) : (s.setChan n c).wins = s.wins := rfl
@[simp] theorem setChan_engs (s : State) (n : BitVec 12) (c : Chan) : (s.setChan n c).engs = s.engs := rfl
@[simp] theorem setChan_gals (s : State) (n : BitVec 12) (c : Chan) : (s.setChan n c).gals = s.gals := rfl
@[simp] theorem setChan_slots (s : State) (n : BitVec 12) (c : Chan) : (s.setChan n c).slots = s.slots := rfl
@[simp] theorem setChan_evc (s : State) (n : BitVec 12) (c : Chan) : (s.setChan n c).evc = s.evc := rfl
@[simp] theorem setChan_links (s : State) (n : BitVec 12) (c : Chan) : (s.setChan n c).links = s.links := rfl
@[simp] theorem setChan_arbs (s : State) (n : BitVec 12) (c : Chan) : (s.setChan n c).arbs = s.arbs := rfl
@[simp] theorem setChan_ports (s : State) (n : BitVec 12) (c : Chan) : (s.setChan n c).ports = s.ports := rfl
@[simp] theorem setChan_txns (s : State) (n : BitVec 12) (c : Chan) : (s.setChan n c).txns = s.txns := rfl
@[simp] theorem setChan_nextTxn (s : State) (n : BitVec 12) (c : Chan) : (s.setChan n c).nextTxn = s.nextTxn := rfl
@[simp] theorem setChan_lines (s : State) (n : BitVec 12) (c : Chan) : (s.setChan n c).lines = s.lines := rfl
@[simp] theorem setChan_vitFlush (s : State) (n : BitVec 12) (c : Chan) : (s.setChan n c).vitFlush = s.vitFlush := rfl
@[simp] theorem setChan_vitOld (s : State) (n : BitVec 12) (c : Chan) : (s.setChan n c).vitOld = s.vitOld := rfl
@[simp] theorem setChan_sliceCord (s : State) (n : BitVec 12) (c : Chan) : (s.setChan n c).sliceCord = s.sliceCord := rfl
@[simp] theorem setChan_dsp (s : State) (n : BitVec 12) (c : Chan) : (s.setChan n c).dsp = s.dsp := rfl
@[simp] theorem setChan_rw (s : State) (n : BitVec 12) (c : Chan) : (s.setChan n c).rw = s.rw := rfl
@[simp] theorem setChan_hold (s : State) (n : BitVec 12) (c : Chan) : (s.setChan n c).hold = s.hold := rfl
@[simp] theorem setChan_stage (s : State) (n : BitVec 12) (c : Chan) : (s.setChan n c).stage = s.stage := rfl
@[simp] theorem setChan_loader (s : State) (n : BitVec 12) (c : Chan) : (s.setChan n c).loader = s.loader := rfl
@[simp] theorem setChan_keys (s : State) (n : BitVec 12) (c : Chan) : (s.setChan n c).keys = s.keys := rfl
@[simp] theorem setChan_keyWins (s : State) (n : BitVec 12) (c : Chan) : (s.setChan n c).keyWins = s.keyWins := rfl
@[simp] theorem setChan_fcr (s : State) (n : BitVec 12) (c : Chan) : (s.setChan n c).fcr = s.fcr := rfl
@[simp] theorem setChan_doc (s : State) (n : BitVec 12) (c : Chan) : (s.setChan n c).doc = s.doc := rfl
@[simp] theorem setChan_doms (s : State) (n : BitVec 12) (c : Chan) : (s.setChan n c).doms = s.doms := rfl
@[simp] theorem setChan_pcm (s : State) (n : BitVec 12) (c : Chan) : (s.setChan n c).pcm = s.pcm := rfl
@[simp] theorem setChan_ledger (s : State) (n : BitVec 12) (c : Chan) : (s.setChan n c).ledger = s.ledger := rfl
@[simp] theorem setChan_sbp (s : State) (n : BitVec 12) (c : Chan) : (s.setChan n c).sbp = s.sbp := rfl
@[simp] theorem setChan_mst (s : State) (n : BitVec 12) (c : Chan) : (s.setChan n c).mst = s.mst := rfl
@[simp] theorem setChan_resp (s : State) (n : BitVec 12) (c : Chan) : (s.setChan n c).resp = s.resp := rfl
@[simp] theorem setChan_snpRsp (s : State) (n : BitVec 12) (c : Chan) : (s.setChan n c).snpRsp = s.snpRsp := rfl
@[simp] theorem setChan_trace (s : State) (n : BitVec 12) (c : Chan) : (s.setChan n c).trace = s.trace := rfl
@[simp] theorem setChan_fresh (s : State) (n : BitVec 12) (c : Chan) : (s.setChan n c).fresh = s.fresh := rfl
@[simp] theorem setChan_pending (s : State) (n : BitVec 12) (c : Chan) : (s.setChan n c).pending = s.pending := rfl
@[simp] theorem setChan_eng_of (s : State) (n : BitVec 12) (c : Chan) (k : EngId) : (s.setChan n c).eng k = s.eng k := rfl
@[simp] theorem setChan_gal_of (s : State) (n : BitVec 12) (c : Chan) (k : Nat) : (s.setChan n c).gal k = s.gal k := rfl
@[simp] theorem setChan_slot_of (s : State) (n : BitVec 12) (c : Chan) (k : EngId) : (s.setChan n c).slot k = s.slot k := rfl
@[simp] theorem setChan_link_of (s : State) (n : BitVec 12) (c : Chan) (k : BitVec 5) : (s.setChan n c).link k = s.link k := rfl
@[simp] theorem setChan_arb_of (s : State) (n : BitVec 12) (c : Chan) (k : Nat) : (s.setChan n c).arb k = s.arb k := rfl
@[simp] theorem setChan_port_of (s : State) (n : BitVec 12) (c : Chan) (k : Nat) : (s.setChan n c).port k = s.port k := rfl
@[simp] theorem setChan_dom_of (s : State) (n : BitVec 12) (c : Chan) (k : Nat) : (s.setChan n c).dom k = s.dom k := rfl
@[simp] theorem setChan_domOn_of (s : State) (n : BitVec 12) (c : Chan) (k : Nat) : (s.setChan n c).domOn k = s.domOn k := rfl
@[simp] theorem setChan_pair_of (s : State) (n : BitVec 12) (c : Chan) (k : Nat) : (s.setChan n c).pair k = s.pair k := rfl
@[simp] theorem setChan_sc_of (s : State) (n : BitVec 12) (c : Chan) (k : Nat) : (s.setChan n c).sc k = s.sc k := rfl
@[simp] theorem setChan_rq_of (s : State) (n : BitVec 12) (c : Chan) (k : Nat) : (s.setChan n c).rq k = s.rq k := rfl
@[simp] theorem setChan_sub_of (s : State) (n : BitVec 12) (c : Chan) (k : Nat) : (s.setChan n c).sub k = s.sub k := rfl
@[simp] theorem setChan_evo_of (s : State) (n : BitVec 12) (c : Chan) (k : Nat) : (s.setChan n c).evo k = s.evo k := rfl
@[simp] theorem setChan_irq_of (s : State) (n : BitVec 12) (c : Chan) (k : Nat) : (s.setChan n c).irq k = s.irq k := rfl
@[simp] theorem setChan_line_of (s : State) (n : BitVec 12) (c : Chan) (k : Nat) : (s.setChan n c).line k = s.line k := rfl
@[simp] theorem setChan_dspOf_of (s : State) (n : BitVec 12) (c : Chan) (m : BitVec 12) : (s.setChan n c).dspOf m = s.dspOf m := rfl
@[simp] theorem setChan_sup_of (s : State) (n : BitVec 12) (c : Chan) (k : Nat) : (s.setChan n c).sup k = s.sup k := rfl
@[simp] theorem setChan_clk_of (s : State) (n : BitVec 12) (c : Chan) (k : Nat) : (s.setChan n c).clk k = s.clk k := rfl
@[simp] theorem setChan_key_of (s : State) (n : BitVec 12) (c : Chan) (k : Nat) : (s.setChan n c).key k = s.key k := rfl
@[simp] theorem setChan_keyWin_of (s : State) (n : BitVec 12) (c : Chan) (k : Nat) : (s.setChan n c).keyWin k = s.keyWin k := rfl
@[simp] theorem setChan_win_of (s : State) (n : BitVec 12) (c : Chan) (k : Nat) : (s.setChan n c).win k = s.win k := rfl
@[simp] theorem setChan_app_of (s : State) (n : BitVec 12) (c : Chan) (r : Reg) : (s.setChan n c).app r = s.app r := rfl
@[simp] theorem setChan_stg_of (s : State) (n : BitVec 12) (c : Chan) (r : Reg) : (s.setChan n c).stg r = s.stg r := rfl
@[simp] theorem setChan_reg_of (s : State) (n : BitVec 12) (c : Chan) (r : Reg) : (s.setChan n c).reg r = s.reg r := rfl
@[simp] theorem setChan_now_of (s : State) (n : BitVec 12) (c : Chan) : (s.setChan n c).now = s.now := rfl
@[simp] theorem setChan_coreOn_of (s : State) (n : BitVec 12) (c : Chan) : (s.setChan n c).coreOn = s.coreOn := rfl

/-! ## setEng -/

@[simp] theorem setEng_boot (s : State) (e : EngId) (x : Engine) : (s.setEng e x).boot = s.boot := rfl
@[simp] theorem setEng_tbs (s : State) (e : EngId) (x : Engine) : (s.setEng e x).tbs = s.tbs := rfl
@[simp] theorem setEng_chans (s : State) (e : EngId) (x : Engine) : (s.setEng e x).chans = s.chans := rfl
@[simp] theorem setEng_wins (s : State) (e : EngId) (x : Engine) : (s.setEng e x).wins = s.wins := rfl
@[simp] theorem setEng_gals (s : State) (e : EngId) (x : Engine) : (s.setEng e x).gals = s.gals := rfl
@[simp] theorem setEng_slots (s : State) (e : EngId) (x : Engine) : (s.setEng e x).slots = s.slots := rfl
@[simp] theorem setEng_evc (s : State) (e : EngId) (x : Engine) : (s.setEng e x).evc = s.evc := rfl
@[simp] theorem setEng_links (s : State) (e : EngId) (x : Engine) : (s.setEng e x).links = s.links := rfl
@[simp] theorem setEng_arbs (s : State) (e : EngId) (x : Engine) : (s.setEng e x).arbs = s.arbs := rfl
@[simp] theorem setEng_ports (s : State) (e : EngId) (x : Engine) : (s.setEng e x).ports = s.ports := rfl
@[simp] theorem setEng_txns (s : State) (e : EngId) (x : Engine) : (s.setEng e x).txns = s.txns := rfl
@[simp] theorem setEng_nextTxn (s : State) (e : EngId) (x : Engine) : (s.setEng e x).nextTxn = s.nextTxn := rfl
@[simp] theorem setEng_lines (s : State) (e : EngId) (x : Engine) : (s.setEng e x).lines = s.lines := rfl
@[simp] theorem setEng_vitFlush (s : State) (e : EngId) (x : Engine) : (s.setEng e x).vitFlush = s.vitFlush := rfl
@[simp] theorem setEng_vitOld (s : State) (e : EngId) (x : Engine) : (s.setEng e x).vitOld = s.vitOld := rfl
@[simp] theorem setEng_sliceCord (s : State) (e : EngId) (x : Engine) : (s.setEng e x).sliceCord = s.sliceCord := rfl
@[simp] theorem setEng_dsp (s : State) (e : EngId) (x : Engine) : (s.setEng e x).dsp = s.dsp := rfl
@[simp] theorem setEng_rw (s : State) (e : EngId) (x : Engine) : (s.setEng e x).rw = s.rw := rfl
@[simp] theorem setEng_hold (s : State) (e : EngId) (x : Engine) : (s.setEng e x).hold = s.hold := rfl
@[simp] theorem setEng_stage (s : State) (e : EngId) (x : Engine) : (s.setEng e x).stage = s.stage := rfl
@[simp] theorem setEng_loader (s : State) (e : EngId) (x : Engine) : (s.setEng e x).loader = s.loader := rfl
@[simp] theorem setEng_keys (s : State) (e : EngId) (x : Engine) : (s.setEng e x).keys = s.keys := rfl
@[simp] theorem setEng_keyWins (s : State) (e : EngId) (x : Engine) : (s.setEng e x).keyWins = s.keyWins := rfl
@[simp] theorem setEng_fcr (s : State) (e : EngId) (x : Engine) : (s.setEng e x).fcr = s.fcr := rfl
@[simp] theorem setEng_doc (s : State) (e : EngId) (x : Engine) : (s.setEng e x).doc = s.doc := rfl
@[simp] theorem setEng_doms (s : State) (e : EngId) (x : Engine) : (s.setEng e x).doms = s.doms := rfl
@[simp] theorem setEng_pcm (s : State) (e : EngId) (x : Engine) : (s.setEng e x).pcm = s.pcm := rfl
@[simp] theorem setEng_ledger (s : State) (e : EngId) (x : Engine) : (s.setEng e x).ledger = s.ledger := rfl
@[simp] theorem setEng_sbp (s : State) (e : EngId) (x : Engine) : (s.setEng e x).sbp = s.sbp := rfl
@[simp] theorem setEng_mst (s : State) (e : EngId) (x : Engine) : (s.setEng e x).mst = s.mst := rfl
@[simp] theorem setEng_resp (s : State) (e : EngId) (x : Engine) : (s.setEng e x).resp = s.resp := rfl
@[simp] theorem setEng_snpRsp (s : State) (e : EngId) (x : Engine) : (s.setEng e x).snpRsp = s.snpRsp := rfl
@[simp] theorem setEng_trace (s : State) (e : EngId) (x : Engine) : (s.setEng e x).trace = s.trace := rfl
@[simp] theorem setEng_fresh (s : State) (e : EngId) (x : Engine) : (s.setEng e x).fresh = s.fresh := rfl
@[simp] theorem setEng_pending (s : State) (e : EngId) (x : Engine) : (s.setEng e x).pending = s.pending := rfl
@[simp] theorem setEng_chan_of (s : State) (e : EngId) (x : Engine) (m : BitVec 12) : (s.setEng e x).chan m = s.chan m := rfl
@[simp] theorem setEng_gal_of (s : State) (e : EngId) (x : Engine) (k : Nat) : (s.setEng e x).gal k = s.gal k := rfl
@[simp] theorem setEng_slot_of (s : State) (e : EngId) (x : Engine) (k : EngId) : (s.setEng e x).slot k = s.slot k := rfl
@[simp] theorem setEng_link_of (s : State) (e : EngId) (x : Engine) (k : BitVec 5) : (s.setEng e x).link k = s.link k := rfl
@[simp] theorem setEng_arb_of (s : State) (e : EngId) (x : Engine) (k : Nat) : (s.setEng e x).arb k = s.arb k := rfl
@[simp] theorem setEng_port_of (s : State) (e : EngId) (x : Engine) (k : Nat) : (s.setEng e x).port k = s.port k := rfl
@[simp] theorem setEng_dom_of (s : State) (e : EngId) (x : Engine) (k : Nat) : (s.setEng e x).dom k = s.dom k := rfl
@[simp] theorem setEng_domOn_of (s : State) (e : EngId) (x : Engine) (k : Nat) : (s.setEng e x).domOn k = s.domOn k := rfl
@[simp] theorem setEng_pair_of (s : State) (e : EngId) (x : Engine) (k : Nat) : (s.setEng e x).pair k = s.pair k := rfl
@[simp] theorem setEng_sc_of (s : State) (e : EngId) (x : Engine) (k : Nat) : (s.setEng e x).sc k = s.sc k := rfl
@[simp] theorem setEng_rq_of (s : State) (e : EngId) (x : Engine) (k : Nat) : (s.setEng e x).rq k = s.rq k := rfl
@[simp] theorem setEng_sub_of (s : State) (e : EngId) (x : Engine) (k : Nat) : (s.setEng e x).sub k = s.sub k := rfl
@[simp] theorem setEng_evo_of (s : State) (e : EngId) (x : Engine) (k : Nat) : (s.setEng e x).evo k = s.evo k := rfl
@[simp] theorem setEng_irq_of (s : State) (e : EngId) (x : Engine) (k : Nat) : (s.setEng e x).irq k = s.irq k := rfl
@[simp] theorem setEng_line_of (s : State) (e : EngId) (x : Engine) (k : Nat) : (s.setEng e x).line k = s.line k := rfl
@[simp] theorem setEng_dspOf_of (s : State) (e : EngId) (x : Engine) (m : BitVec 12) : (s.setEng e x).dspOf m = s.dspOf m := rfl
@[simp] theorem setEng_sup_of (s : State) (e : EngId) (x : Engine) (k : Nat) : (s.setEng e x).sup k = s.sup k := rfl
@[simp] theorem setEng_clk_of (s : State) (e : EngId) (x : Engine) (k : Nat) : (s.setEng e x).clk k = s.clk k := rfl
@[simp] theorem setEng_key_of (s : State) (e : EngId) (x : Engine) (k : Nat) : (s.setEng e x).key k = s.key k := rfl
@[simp] theorem setEng_keyWin_of (s : State) (e : EngId) (x : Engine) (k : Nat) : (s.setEng e x).keyWin k = s.keyWin k := rfl
@[simp] theorem setEng_win_of (s : State) (e : EngId) (x : Engine) (k : Nat) : (s.setEng e x).win k = s.win k := rfl
@[simp] theorem setEng_app_of (s : State) (e : EngId) (x : Engine) (r : Reg) : (s.setEng e x).app r = s.app r := rfl
@[simp] theorem setEng_stg_of (s : State) (e : EngId) (x : Engine) (r : Reg) : (s.setEng e x).stg r = s.stg r := rfl
@[simp] theorem setEng_reg_of (s : State) (e : EngId) (x : Engine) (r : Reg) : (s.setEng e x).reg r = s.reg r := rfl
@[simp] theorem setEng_now_of (s : State) (e : EngId) (x : Engine) : (s.setEng e x).now = s.now := rfl
@[simp] theorem setEng_coreOn_of (s : State) (e : EngId) (x : Engine) : (s.setEng e x).coreOn = s.coreOn := rfl

/-! ## modGal -/

@[simp] theorem modGal_boot (s : State) (g : Nat) (f : Gal → Gal) : (s.modGal g f).boot = s.boot := rfl
@[simp] theorem modGal_tbs (s : State) (g : Nat) (f : Gal → Gal) : (s.modGal g f).tbs = s.tbs := rfl
@[simp] theorem modGal_chans (s : State) (g : Nat) (f : Gal → Gal) : (s.modGal g f).chans = s.chans := rfl
@[simp] theorem modGal_wins (s : State) (g : Nat) (f : Gal → Gal) : (s.modGal g f).wins = s.wins := rfl
@[simp] theorem modGal_engs (s : State) (g : Nat) (f : Gal → Gal) : (s.modGal g f).engs = s.engs := rfl
@[simp] theorem modGal_slots (s : State) (g : Nat) (f : Gal → Gal) : (s.modGal g f).slots = s.slots := rfl
@[simp] theorem modGal_evc (s : State) (g : Nat) (f : Gal → Gal) : (s.modGal g f).evc = s.evc := rfl
@[simp] theorem modGal_links (s : State) (g : Nat) (f : Gal → Gal) : (s.modGal g f).links = s.links := rfl
@[simp] theorem modGal_arbs (s : State) (g : Nat) (f : Gal → Gal) : (s.modGal g f).arbs = s.arbs := rfl
@[simp] theorem modGal_ports (s : State) (g : Nat) (f : Gal → Gal) : (s.modGal g f).ports = s.ports := rfl
@[simp] theorem modGal_txns (s : State) (g : Nat) (f : Gal → Gal) : (s.modGal g f).txns = s.txns := rfl
@[simp] theorem modGal_nextTxn (s : State) (g : Nat) (f : Gal → Gal) : (s.modGal g f).nextTxn = s.nextTxn := rfl
@[simp] theorem modGal_lines (s : State) (g : Nat) (f : Gal → Gal) : (s.modGal g f).lines = s.lines := rfl
@[simp] theorem modGal_vitFlush (s : State) (g : Nat) (f : Gal → Gal) : (s.modGal g f).vitFlush = s.vitFlush := rfl
@[simp] theorem modGal_vitOld (s : State) (g : Nat) (f : Gal → Gal) : (s.modGal g f).vitOld = s.vitOld := rfl
@[simp] theorem modGal_sliceCord (s : State) (g : Nat) (f : Gal → Gal) : (s.modGal g f).sliceCord = s.sliceCord := rfl
@[simp] theorem modGal_dsp (s : State) (g : Nat) (f : Gal → Gal) : (s.modGal g f).dsp = s.dsp := rfl
@[simp] theorem modGal_rw (s : State) (g : Nat) (f : Gal → Gal) : (s.modGal g f).rw = s.rw := rfl
@[simp] theorem modGal_hold (s : State) (g : Nat) (f : Gal → Gal) : (s.modGal g f).hold = s.hold := rfl
@[simp] theorem modGal_stage (s : State) (g : Nat) (f : Gal → Gal) : (s.modGal g f).stage = s.stage := rfl
@[simp] theorem modGal_loader (s : State) (g : Nat) (f : Gal → Gal) : (s.modGal g f).loader = s.loader := rfl
@[simp] theorem modGal_keys (s : State) (g : Nat) (f : Gal → Gal) : (s.modGal g f).keys = s.keys := rfl
@[simp] theorem modGal_keyWins (s : State) (g : Nat) (f : Gal → Gal) : (s.modGal g f).keyWins = s.keyWins := rfl
@[simp] theorem modGal_fcr (s : State) (g : Nat) (f : Gal → Gal) : (s.modGal g f).fcr = s.fcr := rfl
@[simp] theorem modGal_doc (s : State) (g : Nat) (f : Gal → Gal) : (s.modGal g f).doc = s.doc := rfl
@[simp] theorem modGal_doms (s : State) (g : Nat) (f : Gal → Gal) : (s.modGal g f).doms = s.doms := rfl
@[simp] theorem modGal_pcm (s : State) (g : Nat) (f : Gal → Gal) : (s.modGal g f).pcm = s.pcm := rfl
@[simp] theorem modGal_ledger (s : State) (g : Nat) (f : Gal → Gal) : (s.modGal g f).ledger = s.ledger := rfl
@[simp] theorem modGal_sbp (s : State) (g : Nat) (f : Gal → Gal) : (s.modGal g f).sbp = s.sbp := rfl
@[simp] theorem modGal_mst (s : State) (g : Nat) (f : Gal → Gal) : (s.modGal g f).mst = s.mst := rfl
@[simp] theorem modGal_resp (s : State) (g : Nat) (f : Gal → Gal) : (s.modGal g f).resp = s.resp := rfl
@[simp] theorem modGal_snpRsp (s : State) (g : Nat) (f : Gal → Gal) : (s.modGal g f).snpRsp = s.snpRsp := rfl
@[simp] theorem modGal_trace (s : State) (g : Nat) (f : Gal → Gal) : (s.modGal g f).trace = s.trace := rfl
@[simp] theorem modGal_fresh (s : State) (g : Nat) (f : Gal → Gal) : (s.modGal g f).fresh = s.fresh := rfl
@[simp] theorem modGal_pending (s : State) (g : Nat) (f : Gal → Gal) : (s.modGal g f).pending = s.pending := rfl
@[simp] theorem modGal_chan_of (s : State) (g : Nat) (f : Gal → Gal) (m : BitVec 12) : (s.modGal g f).chan m = s.chan m := rfl
@[simp] theorem modGal_eng_of (s : State) (g : Nat) (f : Gal → Gal) (k : EngId) : (s.modGal g f).eng k = s.eng k := rfl
@[simp] theorem modGal_slot_of (s : State) (g : Nat) (f : Gal → Gal) (k : EngId) : (s.modGal g f).slot k = s.slot k := rfl
@[simp] theorem modGal_link_of (s : State) (g : Nat) (f : Gal → Gal) (k : BitVec 5) : (s.modGal g f).link k = s.link k := rfl
@[simp] theorem modGal_arb_of (s : State) (g : Nat) (f : Gal → Gal) (k : Nat) : (s.modGal g f).arb k = s.arb k := rfl
@[simp] theorem modGal_port_of (s : State) (g : Nat) (f : Gal → Gal) (k : Nat) : (s.modGal g f).port k = s.port k := rfl
@[simp] theorem modGal_dom_of (s : State) (g : Nat) (f : Gal → Gal) (k : Nat) : (s.modGal g f).dom k = s.dom k := rfl
@[simp] theorem modGal_domOn_of (s : State) (g : Nat) (f : Gal → Gal) (k : Nat) : (s.modGal g f).domOn k = s.domOn k := rfl
@[simp] theorem modGal_pair_of (s : State) (g : Nat) (f : Gal → Gal) (k : Nat) : (s.modGal g f).pair k = s.pair k := rfl
@[simp] theorem modGal_sc_of (s : State) (g : Nat) (f : Gal → Gal) (k : Nat) : (s.modGal g f).sc k = s.sc k := rfl
@[simp] theorem modGal_rq_of (s : State) (g : Nat) (f : Gal → Gal) (k : Nat) : (s.modGal g f).rq k = s.rq k := rfl
@[simp] theorem modGal_sub_of (s : State) (g : Nat) (f : Gal → Gal) (k : Nat) : (s.modGal g f).sub k = s.sub k := rfl
@[simp] theorem modGal_evo_of (s : State) (g : Nat) (f : Gal → Gal) (k : Nat) : (s.modGal g f).evo k = s.evo k := rfl
@[simp] theorem modGal_irq_of (s : State) (g : Nat) (f : Gal → Gal) (k : Nat) : (s.modGal g f).irq k = s.irq k := rfl
@[simp] theorem modGal_line_of (s : State) (g : Nat) (f : Gal → Gal) (k : Nat) : (s.modGal g f).line k = s.line k := rfl
@[simp] theorem modGal_dspOf_of (s : State) (g : Nat) (f : Gal → Gal) (m : BitVec 12) : (s.modGal g f).dspOf m = s.dspOf m := rfl
@[simp] theorem modGal_sup_of (s : State) (g : Nat) (f : Gal → Gal) (k : Nat) : (s.modGal g f).sup k = s.sup k := rfl
@[simp] theorem modGal_clk_of (s : State) (g : Nat) (f : Gal → Gal) (k : Nat) : (s.modGal g f).clk k = s.clk k := rfl
@[simp] theorem modGal_key_of (s : State) (g : Nat) (f : Gal → Gal) (k : Nat) : (s.modGal g f).key k = s.key k := rfl
@[simp] theorem modGal_keyWin_of (s : State) (g : Nat) (f : Gal → Gal) (k : Nat) : (s.modGal g f).keyWin k = s.keyWin k := rfl
@[simp] theorem modGal_win_of (s : State) (g : Nat) (f : Gal → Gal) (k : Nat) : (s.modGal g f).win k = s.win k := rfl
@[simp] theorem modGal_app_of (s : State) (g : Nat) (f : Gal → Gal) (r : Reg) : (s.modGal g f).app r = s.app r := rfl
@[simp] theorem modGal_stg_of (s : State) (g : Nat) (f : Gal → Gal) (r : Reg) : (s.modGal g f).stg r = s.stg r := rfl
@[simp] theorem modGal_reg_of (s : State) (g : Nat) (f : Gal → Gal) (r : Reg) : (s.modGal g f).reg r = s.reg r := rfl
@[simp] theorem modGal_now_of (s : State) (g : Nat) (f : Gal → Gal) : (s.modGal g f).now = s.now := rfl
@[simp] theorem modGal_coreOn_of (s : State) (g : Nat) (f : Gal → Gal) : (s.modGal g f).coreOn = s.coreOn := rfl

/-! ## modSlot -/

@[simp] theorem modSlot_boot (s : State) (e : EngId) (f : Slot → Slot) : (s.modSlot e f).boot = s.boot := rfl
@[simp] theorem modSlot_tbs (s : State) (e : EngId) (f : Slot → Slot) : (s.modSlot e f).tbs = s.tbs := rfl
@[simp] theorem modSlot_chans (s : State) (e : EngId) (f : Slot → Slot) : (s.modSlot e f).chans = s.chans := rfl
@[simp] theorem modSlot_wins (s : State) (e : EngId) (f : Slot → Slot) : (s.modSlot e f).wins = s.wins := rfl
@[simp] theorem modSlot_engs (s : State) (e : EngId) (f : Slot → Slot) : (s.modSlot e f).engs = s.engs := rfl
@[simp] theorem modSlot_gals (s : State) (e : EngId) (f : Slot → Slot) : (s.modSlot e f).gals = s.gals := rfl
@[simp] theorem modSlot_evc (s : State) (e : EngId) (f : Slot → Slot) : (s.modSlot e f).evc = s.evc := rfl
@[simp] theorem modSlot_links (s : State) (e : EngId) (f : Slot → Slot) : (s.modSlot e f).links = s.links := rfl
@[simp] theorem modSlot_arbs (s : State) (e : EngId) (f : Slot → Slot) : (s.modSlot e f).arbs = s.arbs := rfl
@[simp] theorem modSlot_ports (s : State) (e : EngId) (f : Slot → Slot) : (s.modSlot e f).ports = s.ports := rfl
@[simp] theorem modSlot_txns (s : State) (e : EngId) (f : Slot → Slot) : (s.modSlot e f).txns = s.txns := rfl
@[simp] theorem modSlot_nextTxn (s : State) (e : EngId) (f : Slot → Slot) : (s.modSlot e f).nextTxn = s.nextTxn := rfl
@[simp] theorem modSlot_lines (s : State) (e : EngId) (f : Slot → Slot) : (s.modSlot e f).lines = s.lines := rfl
@[simp] theorem modSlot_vitFlush (s : State) (e : EngId) (f : Slot → Slot) : (s.modSlot e f).vitFlush = s.vitFlush := rfl
@[simp] theorem modSlot_vitOld (s : State) (e : EngId) (f : Slot → Slot) : (s.modSlot e f).vitOld = s.vitOld := rfl
@[simp] theorem modSlot_sliceCord (s : State) (e : EngId) (f : Slot → Slot) : (s.modSlot e f).sliceCord = s.sliceCord := rfl
@[simp] theorem modSlot_dsp (s : State) (e : EngId) (f : Slot → Slot) : (s.modSlot e f).dsp = s.dsp := rfl
@[simp] theorem modSlot_rw (s : State) (e : EngId) (f : Slot → Slot) : (s.modSlot e f).rw = s.rw := rfl
@[simp] theorem modSlot_hold (s : State) (e : EngId) (f : Slot → Slot) : (s.modSlot e f).hold = s.hold := rfl
@[simp] theorem modSlot_stage (s : State) (e : EngId) (f : Slot → Slot) : (s.modSlot e f).stage = s.stage := rfl
@[simp] theorem modSlot_loader (s : State) (e : EngId) (f : Slot → Slot) : (s.modSlot e f).loader = s.loader := rfl
@[simp] theorem modSlot_keys (s : State) (e : EngId) (f : Slot → Slot) : (s.modSlot e f).keys = s.keys := rfl
@[simp] theorem modSlot_keyWins (s : State) (e : EngId) (f : Slot → Slot) : (s.modSlot e f).keyWins = s.keyWins := rfl
@[simp] theorem modSlot_fcr (s : State) (e : EngId) (f : Slot → Slot) : (s.modSlot e f).fcr = s.fcr := rfl
@[simp] theorem modSlot_doc (s : State) (e : EngId) (f : Slot → Slot) : (s.modSlot e f).doc = s.doc := rfl
@[simp] theorem modSlot_doms (s : State) (e : EngId) (f : Slot → Slot) : (s.modSlot e f).doms = s.doms := rfl
@[simp] theorem modSlot_pcm (s : State) (e : EngId) (f : Slot → Slot) : (s.modSlot e f).pcm = s.pcm := rfl
@[simp] theorem modSlot_ledger (s : State) (e : EngId) (f : Slot → Slot) : (s.modSlot e f).ledger = s.ledger := rfl
@[simp] theorem modSlot_sbp (s : State) (e : EngId) (f : Slot → Slot) : (s.modSlot e f).sbp = s.sbp := rfl
@[simp] theorem modSlot_mst (s : State) (e : EngId) (f : Slot → Slot) : (s.modSlot e f).mst = s.mst := rfl
@[simp] theorem modSlot_resp (s : State) (e : EngId) (f : Slot → Slot) : (s.modSlot e f).resp = s.resp := rfl
@[simp] theorem modSlot_snpRsp (s : State) (e : EngId) (f : Slot → Slot) : (s.modSlot e f).snpRsp = s.snpRsp := rfl
@[simp] theorem modSlot_trace (s : State) (e : EngId) (f : Slot → Slot) : (s.modSlot e f).trace = s.trace := rfl
@[simp] theorem modSlot_fresh (s : State) (e : EngId) (f : Slot → Slot) : (s.modSlot e f).fresh = s.fresh := rfl
@[simp] theorem modSlot_pending (s : State) (e : EngId) (f : Slot → Slot) : (s.modSlot e f).pending = s.pending := rfl
@[simp] theorem modSlot_chan_of (s : State) (e : EngId) (f : Slot → Slot) (m : BitVec 12) : (s.modSlot e f).chan m = s.chan m := rfl
@[simp] theorem modSlot_eng_of (s : State) (e : EngId) (f : Slot → Slot) (k : EngId) : (s.modSlot e f).eng k = s.eng k := rfl
@[simp] theorem modSlot_gal_of (s : State) (e : EngId) (f : Slot → Slot) (k : Nat) : (s.modSlot e f).gal k = s.gal k := rfl
@[simp] theorem modSlot_link_of (s : State) (e : EngId) (f : Slot → Slot) (k : BitVec 5) : (s.modSlot e f).link k = s.link k := rfl
@[simp] theorem modSlot_arb_of (s : State) (e : EngId) (f : Slot → Slot) (k : Nat) : (s.modSlot e f).arb k = s.arb k := rfl
@[simp] theorem modSlot_port_of (s : State) (e : EngId) (f : Slot → Slot) (k : Nat) : (s.modSlot e f).port k = s.port k := rfl
@[simp] theorem modSlot_dom_of (s : State) (e : EngId) (f : Slot → Slot) (k : Nat) : (s.modSlot e f).dom k = s.dom k := rfl
@[simp] theorem modSlot_domOn_of (s : State) (e : EngId) (f : Slot → Slot) (k : Nat) : (s.modSlot e f).domOn k = s.domOn k := rfl
@[simp] theorem modSlot_pair_of (s : State) (e : EngId) (f : Slot → Slot) (k : Nat) : (s.modSlot e f).pair k = s.pair k := rfl
@[simp] theorem modSlot_sc_of (s : State) (e : EngId) (f : Slot → Slot) (k : Nat) : (s.modSlot e f).sc k = s.sc k := rfl
@[simp] theorem modSlot_rq_of (s : State) (e : EngId) (f : Slot → Slot) (k : Nat) : (s.modSlot e f).rq k = s.rq k := rfl
@[simp] theorem modSlot_sub_of (s : State) (e : EngId) (f : Slot → Slot) (k : Nat) : (s.modSlot e f).sub k = s.sub k := rfl
@[simp] theorem modSlot_evo_of (s : State) (e : EngId) (f : Slot → Slot) (k : Nat) : (s.modSlot e f).evo k = s.evo k := rfl
@[simp] theorem modSlot_irq_of (s : State) (e : EngId) (f : Slot → Slot) (k : Nat) : (s.modSlot e f).irq k = s.irq k := rfl
@[simp] theorem modSlot_line_of (s : State) (e : EngId) (f : Slot → Slot) (k : Nat) : (s.modSlot e f).line k = s.line k := rfl
@[simp] theorem modSlot_dspOf_of (s : State) (e : EngId) (f : Slot → Slot) (m : BitVec 12) : (s.modSlot e f).dspOf m = s.dspOf m := rfl
@[simp] theorem modSlot_sup_of (s : State) (e : EngId) (f : Slot → Slot) (k : Nat) : (s.modSlot e f).sup k = s.sup k := rfl
@[simp] theorem modSlot_clk_of (s : State) (e : EngId) (f : Slot → Slot) (k : Nat) : (s.modSlot e f).clk k = s.clk k := rfl
@[simp] theorem modSlot_key_of (s : State) (e : EngId) (f : Slot → Slot) (k : Nat) : (s.modSlot e f).key k = s.key k := rfl
@[simp] theorem modSlot_keyWin_of (s : State) (e : EngId) (f : Slot → Slot) (k : Nat) : (s.modSlot e f).keyWin k = s.keyWin k := rfl
@[simp] theorem modSlot_win_of (s : State) (e : EngId) (f : Slot → Slot) (k : Nat) : (s.modSlot e f).win k = s.win k := rfl
@[simp] theorem modSlot_app_of (s : State) (e : EngId) (f : Slot → Slot) (r : Reg) : (s.modSlot e f).app r = s.app r := rfl
@[simp] theorem modSlot_stg_of (s : State) (e : EngId) (f : Slot → Slot) (r : Reg) : (s.modSlot e f).stg r = s.stg r := rfl
@[simp] theorem modSlot_reg_of (s : State) (e : EngId) (f : Slot → Slot) (r : Reg) : (s.modSlot e f).reg r = s.reg r := rfl
@[simp] theorem modSlot_now_of (s : State) (e : EngId) (f : Slot → Slot) : (s.modSlot e f).now = s.now := rfl
@[simp] theorem modSlot_coreOn_of (s : State) (e : EngId) (f : Slot → Slot) : (s.modSlot e f).coreOn = s.coreOn := rfl

/-! ## setLink -/

@[simp] theorem setLink_boot (s : State) (l : BitVec 5) (x : Link) : (s.setLink l x).boot = s.boot := rfl
@[simp] theorem setLink_tbs (s : State) (l : BitVec 5) (x : Link) : (s.setLink l x).tbs = s.tbs := rfl
@[simp] theorem setLink_chans (s : State) (l : BitVec 5) (x : Link) : (s.setLink l x).chans = s.chans := rfl
@[simp] theorem setLink_wins (s : State) (l : BitVec 5) (x : Link) : (s.setLink l x).wins = s.wins := rfl
@[simp] theorem setLink_engs (s : State) (l : BitVec 5) (x : Link) : (s.setLink l x).engs = s.engs := rfl
@[simp] theorem setLink_gals (s : State) (l : BitVec 5) (x : Link) : (s.setLink l x).gals = s.gals := rfl
@[simp] theorem setLink_slots (s : State) (l : BitVec 5) (x : Link) : (s.setLink l x).slots = s.slots := rfl
@[simp] theorem setLink_evc (s : State) (l : BitVec 5) (x : Link) : (s.setLink l x).evc = s.evc := rfl
@[simp] theorem setLink_arbs (s : State) (l : BitVec 5) (x : Link) : (s.setLink l x).arbs = s.arbs := rfl
@[simp] theorem setLink_ports (s : State) (l : BitVec 5) (x : Link) : (s.setLink l x).ports = s.ports := rfl
@[simp] theorem setLink_txns (s : State) (l : BitVec 5) (x : Link) : (s.setLink l x).txns = s.txns := rfl
@[simp] theorem setLink_nextTxn (s : State) (l : BitVec 5) (x : Link) : (s.setLink l x).nextTxn = s.nextTxn := rfl
@[simp] theorem setLink_lines (s : State) (l : BitVec 5) (x : Link) : (s.setLink l x).lines = s.lines := rfl
@[simp] theorem setLink_vitFlush (s : State) (l : BitVec 5) (x : Link) : (s.setLink l x).vitFlush = s.vitFlush := rfl
@[simp] theorem setLink_vitOld (s : State) (l : BitVec 5) (x : Link) : (s.setLink l x).vitOld = s.vitOld := rfl
@[simp] theorem setLink_sliceCord (s : State) (l : BitVec 5) (x : Link) : (s.setLink l x).sliceCord = s.sliceCord := rfl
@[simp] theorem setLink_dsp (s : State) (l : BitVec 5) (x : Link) : (s.setLink l x).dsp = s.dsp := rfl
@[simp] theorem setLink_rw (s : State) (l : BitVec 5) (x : Link) : (s.setLink l x).rw = s.rw := rfl
@[simp] theorem setLink_hold (s : State) (l : BitVec 5) (x : Link) : (s.setLink l x).hold = s.hold := rfl
@[simp] theorem setLink_stage (s : State) (l : BitVec 5) (x : Link) : (s.setLink l x).stage = s.stage := rfl
@[simp] theorem setLink_loader (s : State) (l : BitVec 5) (x : Link) : (s.setLink l x).loader = s.loader := rfl
@[simp] theorem setLink_keys (s : State) (l : BitVec 5) (x : Link) : (s.setLink l x).keys = s.keys := rfl
@[simp] theorem setLink_keyWins (s : State) (l : BitVec 5) (x : Link) : (s.setLink l x).keyWins = s.keyWins := rfl
@[simp] theorem setLink_fcr (s : State) (l : BitVec 5) (x : Link) : (s.setLink l x).fcr = s.fcr := rfl
@[simp] theorem setLink_doc (s : State) (l : BitVec 5) (x : Link) : (s.setLink l x).doc = s.doc := rfl
@[simp] theorem setLink_doms (s : State) (l : BitVec 5) (x : Link) : (s.setLink l x).doms = s.doms := rfl
@[simp] theorem setLink_pcm (s : State) (l : BitVec 5) (x : Link) : (s.setLink l x).pcm = s.pcm := rfl
@[simp] theorem setLink_ledger (s : State) (l : BitVec 5) (x : Link) : (s.setLink l x).ledger = s.ledger := rfl
@[simp] theorem setLink_sbp (s : State) (l : BitVec 5) (x : Link) : (s.setLink l x).sbp = s.sbp := rfl
@[simp] theorem setLink_mst (s : State) (l : BitVec 5) (x : Link) : (s.setLink l x).mst = s.mst := rfl
@[simp] theorem setLink_resp (s : State) (l : BitVec 5) (x : Link) : (s.setLink l x).resp = s.resp := rfl
@[simp] theorem setLink_snpRsp (s : State) (l : BitVec 5) (x : Link) : (s.setLink l x).snpRsp = s.snpRsp := rfl
@[simp] theorem setLink_trace (s : State) (l : BitVec 5) (x : Link) : (s.setLink l x).trace = s.trace := rfl
@[simp] theorem setLink_fresh (s : State) (l : BitVec 5) (x : Link) : (s.setLink l x).fresh = s.fresh := rfl
@[simp] theorem setLink_pending (s : State) (l : BitVec 5) (x : Link) : (s.setLink l x).pending = s.pending := rfl
@[simp] theorem setLink_chan_of (s : State) (l : BitVec 5) (x : Link) (m : BitVec 12) : (s.setLink l x).chan m = s.chan m := rfl
@[simp] theorem setLink_eng_of (s : State) (l : BitVec 5) (x : Link) (k : EngId) : (s.setLink l x).eng k = s.eng k := rfl
@[simp] theorem setLink_gal_of (s : State) (l : BitVec 5) (x : Link) (k : Nat) : (s.setLink l x).gal k = s.gal k := rfl
@[simp] theorem setLink_slot_of (s : State) (l : BitVec 5) (x : Link) (k : EngId) : (s.setLink l x).slot k = s.slot k := rfl
@[simp] theorem setLink_arb_of (s : State) (l : BitVec 5) (x : Link) (k : Nat) : (s.setLink l x).arb k = s.arb k := rfl
@[simp] theorem setLink_port_of (s : State) (l : BitVec 5) (x : Link) (k : Nat) : (s.setLink l x).port k = s.port k := rfl
@[simp] theorem setLink_dom_of (s : State) (l : BitVec 5) (x : Link) (k : Nat) : (s.setLink l x).dom k = s.dom k := rfl
@[simp] theorem setLink_domOn_of (s : State) (l : BitVec 5) (x : Link) (k : Nat) : (s.setLink l x).domOn k = s.domOn k := rfl
@[simp] theorem setLink_pair_of (s : State) (l : BitVec 5) (x : Link) (k : Nat) : (s.setLink l x).pair k = s.pair k := rfl
@[simp] theorem setLink_sc_of (s : State) (l : BitVec 5) (x : Link) (k : Nat) : (s.setLink l x).sc k = s.sc k := rfl
@[simp] theorem setLink_rq_of (s : State) (l : BitVec 5) (x : Link) (k : Nat) : (s.setLink l x).rq k = s.rq k := rfl
@[simp] theorem setLink_sub_of (s : State) (l : BitVec 5) (x : Link) (k : Nat) : (s.setLink l x).sub k = s.sub k := rfl
@[simp] theorem setLink_evo_of (s : State) (l : BitVec 5) (x : Link) (k : Nat) : (s.setLink l x).evo k = s.evo k := rfl
@[simp] theorem setLink_irq_of (s : State) (l : BitVec 5) (x : Link) (k : Nat) : (s.setLink l x).irq k = s.irq k := rfl
@[simp] theorem setLink_line_of (s : State) (l : BitVec 5) (x : Link) (k : Nat) : (s.setLink l x).line k = s.line k := rfl
@[simp] theorem setLink_dspOf_of (s : State) (l : BitVec 5) (x : Link) (m : BitVec 12) : (s.setLink l x).dspOf m = s.dspOf m := rfl
@[simp] theorem setLink_sup_of (s : State) (l : BitVec 5) (x : Link) (k : Nat) : (s.setLink l x).sup k = s.sup k := rfl
@[simp] theorem setLink_clk_of (s : State) (l : BitVec 5) (x : Link) (k : Nat) : (s.setLink l x).clk k = s.clk k := rfl
@[simp] theorem setLink_key_of (s : State) (l : BitVec 5) (x : Link) (k : Nat) : (s.setLink l x).key k = s.key k := rfl
@[simp] theorem setLink_keyWin_of (s : State) (l : BitVec 5) (x : Link) (k : Nat) : (s.setLink l x).keyWin k = s.keyWin k := rfl
@[simp] theorem setLink_win_of (s : State) (l : BitVec 5) (x : Link) (k : Nat) : (s.setLink l x).win k = s.win k := rfl
@[simp] theorem setLink_app_of (s : State) (l : BitVec 5) (x : Link) (r : Reg) : (s.setLink l x).app r = s.app r := rfl
@[simp] theorem setLink_stg_of (s : State) (l : BitVec 5) (x : Link) (r : Reg) : (s.setLink l x).stg r = s.stg r := rfl
@[simp] theorem setLink_reg_of (s : State) (l : BitVec 5) (x : Link) (r : Reg) : (s.setLink l x).reg r = s.reg r := rfl
@[simp] theorem setLink_now_of (s : State) (l : BitVec 5) (x : Link) : (s.setLink l x).now = s.now := rfl
@[simp] theorem setLink_coreOn_of (s : State) (l : BitVec 5) (x : Link) : (s.setLink l x).coreOn = s.coreOn := rfl

/-! ## modArb -/

@[simp] theorem modArb_boot (s : State) (a : Nat) (f : Arb → Arb) : (s.modArb a f).boot = s.boot := rfl
@[simp] theorem modArb_tbs (s : State) (a : Nat) (f : Arb → Arb) : (s.modArb a f).tbs = s.tbs := rfl
@[simp] theorem modArb_chans (s : State) (a : Nat) (f : Arb → Arb) : (s.modArb a f).chans = s.chans := rfl
@[simp] theorem modArb_wins (s : State) (a : Nat) (f : Arb → Arb) : (s.modArb a f).wins = s.wins := rfl
@[simp] theorem modArb_engs (s : State) (a : Nat) (f : Arb → Arb) : (s.modArb a f).engs = s.engs := rfl
@[simp] theorem modArb_gals (s : State) (a : Nat) (f : Arb → Arb) : (s.modArb a f).gals = s.gals := rfl
@[simp] theorem modArb_slots (s : State) (a : Nat) (f : Arb → Arb) : (s.modArb a f).slots = s.slots := rfl
@[simp] theorem modArb_evc (s : State) (a : Nat) (f : Arb → Arb) : (s.modArb a f).evc = s.evc := rfl
@[simp] theorem modArb_links (s : State) (a : Nat) (f : Arb → Arb) : (s.modArb a f).links = s.links := rfl
@[simp] theorem modArb_ports (s : State) (a : Nat) (f : Arb → Arb) : (s.modArb a f).ports = s.ports := rfl
@[simp] theorem modArb_txns (s : State) (a : Nat) (f : Arb → Arb) : (s.modArb a f).txns = s.txns := rfl
@[simp] theorem modArb_nextTxn (s : State) (a : Nat) (f : Arb → Arb) : (s.modArb a f).nextTxn = s.nextTxn := rfl
@[simp] theorem modArb_lines (s : State) (a : Nat) (f : Arb → Arb) : (s.modArb a f).lines = s.lines := rfl
@[simp] theorem modArb_vitFlush (s : State) (a : Nat) (f : Arb → Arb) : (s.modArb a f).vitFlush = s.vitFlush := rfl
@[simp] theorem modArb_vitOld (s : State) (a : Nat) (f : Arb → Arb) : (s.modArb a f).vitOld = s.vitOld := rfl
@[simp] theorem modArb_sliceCord (s : State) (a : Nat) (f : Arb → Arb) : (s.modArb a f).sliceCord = s.sliceCord := rfl
@[simp] theorem modArb_dsp (s : State) (a : Nat) (f : Arb → Arb) : (s.modArb a f).dsp = s.dsp := rfl
@[simp] theorem modArb_rw (s : State) (a : Nat) (f : Arb → Arb) : (s.modArb a f).rw = s.rw := rfl
@[simp] theorem modArb_hold (s : State) (a : Nat) (f : Arb → Arb) : (s.modArb a f).hold = s.hold := rfl
@[simp] theorem modArb_stage (s : State) (a : Nat) (f : Arb → Arb) : (s.modArb a f).stage = s.stage := rfl
@[simp] theorem modArb_loader (s : State) (a : Nat) (f : Arb → Arb) : (s.modArb a f).loader = s.loader := rfl
@[simp] theorem modArb_keys (s : State) (a : Nat) (f : Arb → Arb) : (s.modArb a f).keys = s.keys := rfl
@[simp] theorem modArb_keyWins (s : State) (a : Nat) (f : Arb → Arb) : (s.modArb a f).keyWins = s.keyWins := rfl
@[simp] theorem modArb_fcr (s : State) (a : Nat) (f : Arb → Arb) : (s.modArb a f).fcr = s.fcr := rfl
@[simp] theorem modArb_doc (s : State) (a : Nat) (f : Arb → Arb) : (s.modArb a f).doc = s.doc := rfl
@[simp] theorem modArb_doms (s : State) (a : Nat) (f : Arb → Arb) : (s.modArb a f).doms = s.doms := rfl
@[simp] theorem modArb_pcm (s : State) (a : Nat) (f : Arb → Arb) : (s.modArb a f).pcm = s.pcm := rfl
@[simp] theorem modArb_ledger (s : State) (a : Nat) (f : Arb → Arb) : (s.modArb a f).ledger = s.ledger := rfl
@[simp] theorem modArb_sbp (s : State) (a : Nat) (f : Arb → Arb) : (s.modArb a f).sbp = s.sbp := rfl
@[simp] theorem modArb_mst (s : State) (a : Nat) (f : Arb → Arb) : (s.modArb a f).mst = s.mst := rfl
@[simp] theorem modArb_resp (s : State) (a : Nat) (f : Arb → Arb) : (s.modArb a f).resp = s.resp := rfl
@[simp] theorem modArb_snpRsp (s : State) (a : Nat) (f : Arb → Arb) : (s.modArb a f).snpRsp = s.snpRsp := rfl
@[simp] theorem modArb_trace (s : State) (a : Nat) (f : Arb → Arb) : (s.modArb a f).trace = s.trace := rfl
@[simp] theorem modArb_fresh (s : State) (a : Nat) (f : Arb → Arb) : (s.modArb a f).fresh = s.fresh := rfl
@[simp] theorem modArb_pending (s : State) (a : Nat) (f : Arb → Arb) : (s.modArb a f).pending = s.pending := rfl
@[simp] theorem modArb_chan_of (s : State) (a : Nat) (f : Arb → Arb) (m : BitVec 12) : (s.modArb a f).chan m = s.chan m := rfl
@[simp] theorem modArb_eng_of (s : State) (a : Nat) (f : Arb → Arb) (k : EngId) : (s.modArb a f).eng k = s.eng k := rfl
@[simp] theorem modArb_gal_of (s : State) (a : Nat) (f : Arb → Arb) (k : Nat) : (s.modArb a f).gal k = s.gal k := rfl
@[simp] theorem modArb_slot_of (s : State) (a : Nat) (f : Arb → Arb) (k : EngId) : (s.modArb a f).slot k = s.slot k := rfl
@[simp] theorem modArb_link_of (s : State) (a : Nat) (f : Arb → Arb) (k : BitVec 5) : (s.modArb a f).link k = s.link k := rfl
@[simp] theorem modArb_port_of (s : State) (a : Nat) (f : Arb → Arb) (k : Nat) : (s.modArb a f).port k = s.port k := rfl
@[simp] theorem modArb_dom_of (s : State) (a : Nat) (f : Arb → Arb) (k : Nat) : (s.modArb a f).dom k = s.dom k := rfl
@[simp] theorem modArb_domOn_of (s : State) (a : Nat) (f : Arb → Arb) (k : Nat) : (s.modArb a f).domOn k = s.domOn k := rfl
@[simp] theorem modArb_pair_of (s : State) (a : Nat) (f : Arb → Arb) (k : Nat) : (s.modArb a f).pair k = s.pair k := rfl
@[simp] theorem modArb_sc_of (s : State) (a : Nat) (f : Arb → Arb) (k : Nat) : (s.modArb a f).sc k = s.sc k := rfl
@[simp] theorem modArb_rq_of (s : State) (a : Nat) (f : Arb → Arb) (k : Nat) : (s.modArb a f).rq k = s.rq k := rfl
@[simp] theorem modArb_sub_of (s : State) (a : Nat) (f : Arb → Arb) (k : Nat) : (s.modArb a f).sub k = s.sub k := rfl
@[simp] theorem modArb_evo_of (s : State) (a : Nat) (f : Arb → Arb) (k : Nat) : (s.modArb a f).evo k = s.evo k := rfl
@[simp] theorem modArb_irq_of (s : State) (a : Nat) (f : Arb → Arb) (k : Nat) : (s.modArb a f).irq k = s.irq k := rfl
@[simp] theorem modArb_line_of (s : State) (a : Nat) (f : Arb → Arb) (k : Nat) : (s.modArb a f).line k = s.line k := rfl
@[simp] theorem modArb_dspOf_of (s : State) (a : Nat) (f : Arb → Arb) (m : BitVec 12) : (s.modArb a f).dspOf m = s.dspOf m := rfl
@[simp] theorem modArb_sup_of (s : State) (a : Nat) (f : Arb → Arb) (k : Nat) : (s.modArb a f).sup k = s.sup k := rfl
@[simp] theorem modArb_clk_of (s : State) (a : Nat) (f : Arb → Arb) (k : Nat) : (s.modArb a f).clk k = s.clk k := rfl
@[simp] theorem modArb_key_of (s : State) (a : Nat) (f : Arb → Arb) (k : Nat) : (s.modArb a f).key k = s.key k := rfl
@[simp] theorem modArb_keyWin_of (s : State) (a : Nat) (f : Arb → Arb) (k : Nat) : (s.modArb a f).keyWin k = s.keyWin k := rfl
@[simp] theorem modArb_win_of (s : State) (a : Nat) (f : Arb → Arb) (k : Nat) : (s.modArb a f).win k = s.win k := rfl
@[simp] theorem modArb_app_of (s : State) (a : Nat) (f : Arb → Arb) (r : Reg) : (s.modArb a f).app r = s.app r := rfl
@[simp] theorem modArb_stg_of (s : State) (a : Nat) (f : Arb → Arb) (r : Reg) : (s.modArb a f).stg r = s.stg r := rfl
@[simp] theorem modArb_reg_of (s : State) (a : Nat) (f : Arb → Arb) (r : Reg) : (s.modArb a f).reg r = s.reg r := rfl
@[simp] theorem modArb_now_of (s : State) (a : Nat) (f : Arb → Arb) : (s.modArb a f).now = s.now := rfl
@[simp] theorem modArb_coreOn_of (s : State) (a : Nat) (f : Arb → Arb) : (s.modArb a f).coreOn = s.coreOn := rfl

/-! ## modPort -/

@[simp] theorem modPort_boot (s : State) (p : Nat) (f : Port → Port) : (s.modPort p f).boot = s.boot := rfl
@[simp] theorem modPort_tbs (s : State) (p : Nat) (f : Port → Port) : (s.modPort p f).tbs = s.tbs := rfl
@[simp] theorem modPort_chans (s : State) (p : Nat) (f : Port → Port) : (s.modPort p f).chans = s.chans := rfl
@[simp] theorem modPort_wins (s : State) (p : Nat) (f : Port → Port) : (s.modPort p f).wins = s.wins := rfl
@[simp] theorem modPort_engs (s : State) (p : Nat) (f : Port → Port) : (s.modPort p f).engs = s.engs := rfl
@[simp] theorem modPort_gals (s : State) (p : Nat) (f : Port → Port) : (s.modPort p f).gals = s.gals := rfl
@[simp] theorem modPort_slots (s : State) (p : Nat) (f : Port → Port) : (s.modPort p f).slots = s.slots := rfl
@[simp] theorem modPort_evc (s : State) (p : Nat) (f : Port → Port) : (s.modPort p f).evc = s.evc := rfl
@[simp] theorem modPort_links (s : State) (p : Nat) (f : Port → Port) : (s.modPort p f).links = s.links := rfl
@[simp] theorem modPort_arbs (s : State) (p : Nat) (f : Port → Port) : (s.modPort p f).arbs = s.arbs := rfl
@[simp] theorem modPort_txns (s : State) (p : Nat) (f : Port → Port) : (s.modPort p f).txns = s.txns := rfl
@[simp] theorem modPort_nextTxn (s : State) (p : Nat) (f : Port → Port) : (s.modPort p f).nextTxn = s.nextTxn := rfl
@[simp] theorem modPort_lines (s : State) (p : Nat) (f : Port → Port) : (s.modPort p f).lines = s.lines := rfl
@[simp] theorem modPort_vitFlush (s : State) (p : Nat) (f : Port → Port) : (s.modPort p f).vitFlush = s.vitFlush := rfl
@[simp] theorem modPort_vitOld (s : State) (p : Nat) (f : Port → Port) : (s.modPort p f).vitOld = s.vitOld := rfl
@[simp] theorem modPort_sliceCord (s : State) (p : Nat) (f : Port → Port) : (s.modPort p f).sliceCord = s.sliceCord := rfl
@[simp] theorem modPort_dsp (s : State) (p : Nat) (f : Port → Port) : (s.modPort p f).dsp = s.dsp := rfl
@[simp] theorem modPort_rw (s : State) (p : Nat) (f : Port → Port) : (s.modPort p f).rw = s.rw := rfl
@[simp] theorem modPort_hold (s : State) (p : Nat) (f : Port → Port) : (s.modPort p f).hold = s.hold := rfl
@[simp] theorem modPort_stage (s : State) (p : Nat) (f : Port → Port) : (s.modPort p f).stage = s.stage := rfl
@[simp] theorem modPort_loader (s : State) (p : Nat) (f : Port → Port) : (s.modPort p f).loader = s.loader := rfl
@[simp] theorem modPort_keys (s : State) (p : Nat) (f : Port → Port) : (s.modPort p f).keys = s.keys := rfl
@[simp] theorem modPort_keyWins (s : State) (p : Nat) (f : Port → Port) : (s.modPort p f).keyWins = s.keyWins := rfl
@[simp] theorem modPort_fcr (s : State) (p : Nat) (f : Port → Port) : (s.modPort p f).fcr = s.fcr := rfl
@[simp] theorem modPort_doc (s : State) (p : Nat) (f : Port → Port) : (s.modPort p f).doc = s.doc := rfl
@[simp] theorem modPort_doms (s : State) (p : Nat) (f : Port → Port) : (s.modPort p f).doms = s.doms := rfl
@[simp] theorem modPort_pcm (s : State) (p : Nat) (f : Port → Port) : (s.modPort p f).pcm = s.pcm := rfl
@[simp] theorem modPort_ledger (s : State) (p : Nat) (f : Port → Port) : (s.modPort p f).ledger = s.ledger := rfl
@[simp] theorem modPort_sbp (s : State) (p : Nat) (f : Port → Port) : (s.modPort p f).sbp = s.sbp := rfl
@[simp] theorem modPort_mst (s : State) (p : Nat) (f : Port → Port) : (s.modPort p f).mst = s.mst := rfl
@[simp] theorem modPort_resp (s : State) (p : Nat) (f : Port → Port) : (s.modPort p f).resp = s.resp := rfl
@[simp] theorem modPort_snpRsp (s : State) (p : Nat) (f : Port → Port) : (s.modPort p f).snpRsp = s.snpRsp := rfl
@[simp] theorem modPort_trace (s : State) (p : Nat) (f : Port → Port) : (s.modPort p f).trace = s.trace := rfl
@[simp] theorem modPort_fresh (s : State) (p : Nat) (f : Port → Port) : (s.modPort p f).fresh = s.fresh := rfl
@[simp] theorem modPort_pending (s : State) (p : Nat) (f : Port → Port) : (s.modPort p f).pending = s.pending := rfl
@[simp] theorem modPort_chan_of (s : State) (p : Nat) (f : Port → Port) (m : BitVec 12) : (s.modPort p f).chan m = s.chan m := rfl
@[simp] theorem modPort_eng_of (s : State) (p : Nat) (f : Port → Port) (k : EngId) : (s.modPort p f).eng k = s.eng k := rfl
@[simp] theorem modPort_gal_of (s : State) (p : Nat) (f : Port → Port) (k : Nat) : (s.modPort p f).gal k = s.gal k := rfl
@[simp] theorem modPort_slot_of (s : State) (p : Nat) (f : Port → Port) (k : EngId) : (s.modPort p f).slot k = s.slot k := rfl
@[simp] theorem modPort_link_of (s : State) (p : Nat) (f : Port → Port) (k : BitVec 5) : (s.modPort p f).link k = s.link k := rfl
@[simp] theorem modPort_arb_of (s : State) (p : Nat) (f : Port → Port) (k : Nat) : (s.modPort p f).arb k = s.arb k := rfl
@[simp] theorem modPort_dom_of (s : State) (p : Nat) (f : Port → Port) (k : Nat) : (s.modPort p f).dom k = s.dom k := rfl
@[simp] theorem modPort_domOn_of (s : State) (p : Nat) (f : Port → Port) (k : Nat) : (s.modPort p f).domOn k = s.domOn k := rfl
@[simp] theorem modPort_pair_of (s : State) (p : Nat) (f : Port → Port) (k : Nat) : (s.modPort p f).pair k = s.pair k := rfl
@[simp] theorem modPort_sc_of (s : State) (p : Nat) (f : Port → Port) (k : Nat) : (s.modPort p f).sc k = s.sc k := rfl
@[simp] theorem modPort_rq_of (s : State) (p : Nat) (f : Port → Port) (k : Nat) : (s.modPort p f).rq k = s.rq k := rfl
@[simp] theorem modPort_sub_of (s : State) (p : Nat) (f : Port → Port) (k : Nat) : (s.modPort p f).sub k = s.sub k := rfl
@[simp] theorem modPort_evo_of (s : State) (p : Nat) (f : Port → Port) (k : Nat) : (s.modPort p f).evo k = s.evo k := rfl
@[simp] theorem modPort_irq_of (s : State) (p : Nat) (f : Port → Port) (k : Nat) : (s.modPort p f).irq k = s.irq k := rfl
@[simp] theorem modPort_line_of (s : State) (p : Nat) (f : Port → Port) (k : Nat) : (s.modPort p f).line k = s.line k := rfl
@[simp] theorem modPort_dspOf_of (s : State) (p : Nat) (f : Port → Port) (m : BitVec 12) : (s.modPort p f).dspOf m = s.dspOf m := rfl
@[simp] theorem modPort_sup_of (s : State) (p : Nat) (f : Port → Port) (k : Nat) : (s.modPort p f).sup k = s.sup k := rfl
@[simp] theorem modPort_clk_of (s : State) (p : Nat) (f : Port → Port) (k : Nat) : (s.modPort p f).clk k = s.clk k := rfl
@[simp] theorem modPort_key_of (s : State) (p : Nat) (f : Port → Port) (k : Nat) : (s.modPort p f).key k = s.key k := rfl
@[simp] theorem modPort_keyWin_of (s : State) (p : Nat) (f : Port → Port) (k : Nat) : (s.modPort p f).keyWin k = s.keyWin k := rfl
@[simp] theorem modPort_win_of (s : State) (p : Nat) (f : Port → Port) (k : Nat) : (s.modPort p f).win k = s.win k := rfl
@[simp] theorem modPort_app_of (s : State) (p : Nat) (f : Port → Port) (r : Reg) : (s.modPort p f).app r = s.app r := rfl
@[simp] theorem modPort_stg_of (s : State) (p : Nat) (f : Port → Port) (r : Reg) : (s.modPort p f).stg r = s.stg r := rfl
@[simp] theorem modPort_reg_of (s : State) (p : Nat) (f : Port → Port) (r : Reg) : (s.modPort p f).reg r = s.reg r := rfl
@[simp] theorem modPort_now_of (s : State) (p : Nat) (f : Port → Port) : (s.modPort p f).now = s.now := rfl
@[simp] theorem modPort_coreOn_of (s : State) (p : Nat) (f : Port → Port) : (s.modPort p f).coreOn = s.coreOn := rfl

/-! ## modDom -/

@[simp] theorem modDom_boot (s : State) (d : Nat) (f : Dom → Dom) : (s.modDom d f).boot = s.boot := rfl
@[simp] theorem modDom_tbs (s : State) (d : Nat) (f : Dom → Dom) : (s.modDom d f).tbs = s.tbs := rfl
@[simp] theorem modDom_chans (s : State) (d : Nat) (f : Dom → Dom) : (s.modDom d f).chans = s.chans := rfl
@[simp] theorem modDom_wins (s : State) (d : Nat) (f : Dom → Dom) : (s.modDom d f).wins = s.wins := rfl
@[simp] theorem modDom_engs (s : State) (d : Nat) (f : Dom → Dom) : (s.modDom d f).engs = s.engs := rfl
@[simp] theorem modDom_gals (s : State) (d : Nat) (f : Dom → Dom) : (s.modDom d f).gals = s.gals := rfl
@[simp] theorem modDom_slots (s : State) (d : Nat) (f : Dom → Dom) : (s.modDom d f).slots = s.slots := rfl
@[simp] theorem modDom_evc (s : State) (d : Nat) (f : Dom → Dom) : (s.modDom d f).evc = s.evc := rfl
@[simp] theorem modDom_links (s : State) (d : Nat) (f : Dom → Dom) : (s.modDom d f).links = s.links := rfl
@[simp] theorem modDom_arbs (s : State) (d : Nat) (f : Dom → Dom) : (s.modDom d f).arbs = s.arbs := rfl
@[simp] theorem modDom_ports (s : State) (d : Nat) (f : Dom → Dom) : (s.modDom d f).ports = s.ports := rfl
@[simp] theorem modDom_txns (s : State) (d : Nat) (f : Dom → Dom) : (s.modDom d f).txns = s.txns := rfl
@[simp] theorem modDom_nextTxn (s : State) (d : Nat) (f : Dom → Dom) : (s.modDom d f).nextTxn = s.nextTxn := rfl
@[simp] theorem modDom_lines (s : State) (d : Nat) (f : Dom → Dom) : (s.modDom d f).lines = s.lines := rfl
@[simp] theorem modDom_vitFlush (s : State) (d : Nat) (f : Dom → Dom) : (s.modDom d f).vitFlush = s.vitFlush := rfl
@[simp] theorem modDom_vitOld (s : State) (d : Nat) (f : Dom → Dom) : (s.modDom d f).vitOld = s.vitOld := rfl
@[simp] theorem modDom_sliceCord (s : State) (d : Nat) (f : Dom → Dom) : (s.modDom d f).sliceCord = s.sliceCord := rfl
@[simp] theorem modDom_dsp (s : State) (d : Nat) (f : Dom → Dom) : (s.modDom d f).dsp = s.dsp := rfl
@[simp] theorem modDom_rw (s : State) (d : Nat) (f : Dom → Dom) : (s.modDom d f).rw = s.rw := rfl
@[simp] theorem modDom_hold (s : State) (d : Nat) (f : Dom → Dom) : (s.modDom d f).hold = s.hold := rfl
@[simp] theorem modDom_stage (s : State) (d : Nat) (f : Dom → Dom) : (s.modDom d f).stage = s.stage := rfl
@[simp] theorem modDom_loader (s : State) (d : Nat) (f : Dom → Dom) : (s.modDom d f).loader = s.loader := rfl
@[simp] theorem modDom_keys (s : State) (d : Nat) (f : Dom → Dom) : (s.modDom d f).keys = s.keys := rfl
@[simp] theorem modDom_keyWins (s : State) (d : Nat) (f : Dom → Dom) : (s.modDom d f).keyWins = s.keyWins := rfl
@[simp] theorem modDom_fcr (s : State) (d : Nat) (f : Dom → Dom) : (s.modDom d f).fcr = s.fcr := rfl
@[simp] theorem modDom_doc (s : State) (d : Nat) (f : Dom → Dom) : (s.modDom d f).doc = s.doc := rfl
@[simp] theorem modDom_pcm (s : State) (d : Nat) (f : Dom → Dom) : (s.modDom d f).pcm = s.pcm := rfl
@[simp] theorem modDom_ledger (s : State) (d : Nat) (f : Dom → Dom) : (s.modDom d f).ledger = s.ledger := rfl
@[simp] theorem modDom_sbp (s : State) (d : Nat) (f : Dom → Dom) : (s.modDom d f).sbp = s.sbp := rfl
@[simp] theorem modDom_mst (s : State) (d : Nat) (f : Dom → Dom) : (s.modDom d f).mst = s.mst := rfl
@[simp] theorem modDom_resp (s : State) (d : Nat) (f : Dom → Dom) : (s.modDom d f).resp = s.resp := rfl
@[simp] theorem modDom_snpRsp (s : State) (d : Nat) (f : Dom → Dom) : (s.modDom d f).snpRsp = s.snpRsp := rfl
@[simp] theorem modDom_trace (s : State) (d : Nat) (f : Dom → Dom) : (s.modDom d f).trace = s.trace := rfl
@[simp] theorem modDom_fresh (s : State) (d : Nat) (f : Dom → Dom) : (s.modDom d f).fresh = s.fresh := rfl
@[simp] theorem modDom_pending (s : State) (d : Nat) (f : Dom → Dom) : (s.modDom d f).pending = s.pending := rfl
@[simp] theorem modDom_chan_of (s : State) (d : Nat) (f : Dom → Dom) (m : BitVec 12) : (s.modDom d f).chan m = s.chan m := rfl
@[simp] theorem modDom_eng_of (s : State) (d : Nat) (f : Dom → Dom) (k : EngId) : (s.modDom d f).eng k = s.eng k := rfl
@[simp] theorem modDom_gal_of (s : State) (d : Nat) (f : Dom → Dom) (k : Nat) : (s.modDom d f).gal k = s.gal k := rfl
@[simp] theorem modDom_slot_of (s : State) (d : Nat) (f : Dom → Dom) (k : EngId) : (s.modDom d f).slot k = s.slot k := rfl
@[simp] theorem modDom_link_of (s : State) (d : Nat) (f : Dom → Dom) (k : BitVec 5) : (s.modDom d f).link k = s.link k := rfl
@[simp] theorem modDom_arb_of (s : State) (d : Nat) (f : Dom → Dom) (k : Nat) : (s.modDom d f).arb k = s.arb k := rfl
@[simp] theorem modDom_port_of (s : State) (d : Nat) (f : Dom → Dom) (k : Nat) : (s.modDom d f).port k = s.port k := rfl
@[simp] theorem modDom_pair_of (s : State) (d : Nat) (f : Dom → Dom) (k : Nat) : (s.modDom d f).pair k = s.pair k := rfl
@[simp] theorem modDom_sc_of (s : State) (d : Nat) (f : Dom → Dom) (k : Nat) : (s.modDom d f).sc k = s.sc k := rfl
@[simp] theorem modDom_rq_of (s : State) (d : Nat) (f : Dom → Dom) (k : Nat) : (s.modDom d f).rq k = s.rq k := rfl
@[simp] theorem modDom_sub_of (s : State) (d : Nat) (f : Dom → Dom) (k : Nat) : (s.modDom d f).sub k = s.sub k := rfl
@[simp] theorem modDom_evo_of (s : State) (d : Nat) (f : Dom → Dom) (k : Nat) : (s.modDom d f).evo k = s.evo k := rfl
@[simp] theorem modDom_irq_of (s : State) (d : Nat) (f : Dom → Dom) (k : Nat) : (s.modDom d f).irq k = s.irq k := rfl
@[simp] theorem modDom_line_of (s : State) (d : Nat) (f : Dom → Dom) (k : Nat) : (s.modDom d f).line k = s.line k := rfl
@[simp] theorem modDom_dspOf_of (s : State) (d : Nat) (f : Dom → Dom) (m : BitVec 12) : (s.modDom d f).dspOf m = s.dspOf m := rfl
@[simp] theorem modDom_sup_of (s : State) (d : Nat) (f : Dom → Dom) (k : Nat) : (s.modDom d f).sup k = s.sup k := rfl
@[simp] theorem modDom_clk_of (s : State) (d : Nat) (f : Dom → Dom) (k : Nat) : (s.modDom d f).clk k = s.clk k := rfl
@[simp] theorem modDom_key_of (s : State) (d : Nat) (f : Dom → Dom) (k : Nat) : (s.modDom d f).key k = s.key k := rfl
@[simp] theorem modDom_keyWin_of (s : State) (d : Nat) (f : Dom → Dom) (k : Nat) : (s.modDom d f).keyWin k = s.keyWin k := rfl
@[simp] theorem modDom_win_of (s : State) (d : Nat) (f : Dom → Dom) (k : Nat) : (s.modDom d f).win k = s.win k := rfl
@[simp] theorem modDom_app_of (s : State) (d : Nat) (f : Dom → Dom) (r : Reg) : (s.modDom d f).app r = s.app r := rfl
@[simp] theorem modDom_stg_of (s : State) (d : Nat) (f : Dom → Dom) (r : Reg) : (s.modDom d f).stg r = s.stg r := rfl
@[simp] theorem modDom_reg_of (s : State) (d : Nat) (f : Dom → Dom) (r : Reg) : (s.modDom d f).reg r = s.reg r := rfl
@[simp] theorem modDom_now_of (s : State) (d : Nat) (f : Dom → Dom) : (s.modDom d f).now = s.now := rfl

/-! ## modPair -/

@[simp] theorem modPair_boot (s : State) (n : Nat) (f : Pair → Pair) : (s.modPair n f).boot = s.boot := rfl
@[simp] theorem modPair_chans (s : State) (n : Nat) (f : Pair → Pair) : (s.modPair n f).chans = s.chans := rfl
@[simp] theorem modPair_wins (s : State) (n : Nat) (f : Pair → Pair) : (s.modPair n f).wins = s.wins := rfl
@[simp] theorem modPair_engs (s : State) (n : Nat) (f : Pair → Pair) : (s.modPair n f).engs = s.engs := rfl
@[simp] theorem modPair_gals (s : State) (n : Nat) (f : Pair → Pair) : (s.modPair n f).gals = s.gals := rfl
@[simp] theorem modPair_slots (s : State) (n : Nat) (f : Pair → Pair) : (s.modPair n f).slots = s.slots := rfl
@[simp] theorem modPair_evc (s : State) (n : Nat) (f : Pair → Pair) : (s.modPair n f).evc = s.evc := rfl
@[simp] theorem modPair_links (s : State) (n : Nat) (f : Pair → Pair) : (s.modPair n f).links = s.links := rfl
@[simp] theorem modPair_arbs (s : State) (n : Nat) (f : Pair → Pair) : (s.modPair n f).arbs = s.arbs := rfl
@[simp] theorem modPair_ports (s : State) (n : Nat) (f : Pair → Pair) : (s.modPair n f).ports = s.ports := rfl
@[simp] theorem modPair_txns (s : State) (n : Nat) (f : Pair → Pair) : (s.modPair n f).txns = s.txns := rfl
@[simp] theorem modPair_nextTxn (s : State) (n : Nat) (f : Pair → Pair) : (s.modPair n f).nextTxn = s.nextTxn := rfl
@[simp] theorem modPair_lines (s : State) (n : Nat) (f : Pair → Pair) : (s.modPair n f).lines = s.lines := rfl
@[simp] theorem modPair_vitFlush (s : State) (n : Nat) (f : Pair → Pair) : (s.modPair n f).vitFlush = s.vitFlush := rfl
@[simp] theorem modPair_vitOld (s : State) (n : Nat) (f : Pair → Pair) : (s.modPair n f).vitOld = s.vitOld := rfl
@[simp] theorem modPair_sliceCord (s : State) (n : Nat) (f : Pair → Pair) : (s.modPair n f).sliceCord = s.sliceCord := rfl
@[simp] theorem modPair_dsp (s : State) (n : Nat) (f : Pair → Pair) : (s.modPair n f).dsp = s.dsp := rfl
@[simp] theorem modPair_rw (s : State) (n : Nat) (f : Pair → Pair) : (s.modPair n f).rw = s.rw := rfl
@[simp] theorem modPair_hold (s : State) (n : Nat) (f : Pair → Pair) : (s.modPair n f).hold = s.hold := rfl
@[simp] theorem modPair_stage (s : State) (n : Nat) (f : Pair → Pair) : (s.modPair n f).stage = s.stage := rfl
@[simp] theorem modPair_loader (s : State) (n : Nat) (f : Pair → Pair) : (s.modPair n f).loader = s.loader := rfl
@[simp] theorem modPair_keys (s : State) (n : Nat) (f : Pair → Pair) : (s.modPair n f).keys = s.keys := rfl
@[simp] theorem modPair_keyWins (s : State) (n : Nat) (f : Pair → Pair) : (s.modPair n f).keyWins = s.keyWins := rfl
@[simp] theorem modPair_fcr (s : State) (n : Nat) (f : Pair → Pair) : (s.modPair n f).fcr = s.fcr := rfl
@[simp] theorem modPair_doc (s : State) (n : Nat) (f : Pair → Pair) : (s.modPair n f).doc = s.doc := rfl
@[simp] theorem modPair_doms (s : State) (n : Nat) (f : Pair → Pair) : (s.modPair n f).doms = s.doms := rfl
@[simp] theorem modPair_pcm (s : State) (n : Nat) (f : Pair → Pair) : (s.modPair n f).pcm = s.pcm := rfl
@[simp] theorem modPair_ledger (s : State) (n : Nat) (f : Pair → Pair) : (s.modPair n f).ledger = s.ledger := rfl
@[simp] theorem modPair_sbp (s : State) (n : Nat) (f : Pair → Pair) : (s.modPair n f).sbp = s.sbp := rfl
@[simp] theorem modPair_mst (s : State) (n : Nat) (f : Pair → Pair) : (s.modPair n f).mst = s.mst := rfl
@[simp] theorem modPair_resp (s : State) (n : Nat) (f : Pair → Pair) : (s.modPair n f).resp = s.resp := rfl
@[simp] theorem modPair_snpRsp (s : State) (n : Nat) (f : Pair → Pair) : (s.modPair n f).snpRsp = s.snpRsp := rfl
@[simp] theorem modPair_trace (s : State) (n : Nat) (f : Pair → Pair) : (s.modPair n f).trace = s.trace := rfl
@[simp] theorem modPair_fresh (s : State) (n : Nat) (f : Pair → Pair) : (s.modPair n f).fresh = s.fresh := rfl
@[simp] theorem modPair_pending (s : State) (n : Nat) (f : Pair → Pair) : (s.modPair n f).pending = s.pending := rfl
@[simp] theorem modPair_chan_of (s : State) (n : Nat) (f : Pair → Pair) (m : BitVec 12) : (s.modPair n f).chan m = s.chan m := rfl
@[simp] theorem modPair_eng_of (s : State) (n : Nat) (f : Pair → Pair) (k : EngId) : (s.modPair n f).eng k = s.eng k := rfl
@[simp] theorem modPair_gal_of (s : State) (n : Nat) (f : Pair → Pair) (k : Nat) : (s.modPair n f).gal k = s.gal k := rfl
@[simp] theorem modPair_slot_of (s : State) (n : Nat) (f : Pair → Pair) (k : EngId) : (s.modPair n f).slot k = s.slot k := rfl
@[simp] theorem modPair_link_of (s : State) (n : Nat) (f : Pair → Pair) (k : BitVec 5) : (s.modPair n f).link k = s.link k := rfl
@[simp] theorem modPair_arb_of (s : State) (n : Nat) (f : Pair → Pair) (k : Nat) : (s.modPair n f).arb k = s.arb k := rfl
@[simp] theorem modPair_port_of (s : State) (n : Nat) (f : Pair → Pair) (k : Nat) : (s.modPair n f).port k = s.port k := rfl
@[simp] theorem modPair_dom_of (s : State) (n : Nat) (f : Pair → Pair) (k : Nat) : (s.modPair n f).dom k = s.dom k := rfl
@[simp] theorem modPair_domOn_of (s : State) (n : Nat) (f : Pair → Pair) (k : Nat) : (s.modPair n f).domOn k = s.domOn k := rfl
@[simp] theorem modPair_sc_of (s : State) (n : Nat) (f : Pair → Pair) (k : Nat) : (s.modPair n f).sc k = s.sc k := rfl
@[simp] theorem modPair_rq_of (s : State) (n : Nat) (f : Pair → Pair) (k : Nat) : (s.modPair n f).rq k = s.rq k := rfl
@[simp] theorem modPair_sub_of (s : State) (n : Nat) (f : Pair → Pair) (k : Nat) : (s.modPair n f).sub k = s.sub k := rfl
@[simp] theorem modPair_evo_of (s : State) (n : Nat) (f : Pair → Pair) (k : Nat) : (s.modPair n f).evo k = s.evo k := rfl
@[simp] theorem modPair_irq_of (s : State) (n : Nat) (f : Pair → Pair) (k : Nat) : (s.modPair n f).irq k = s.irq k := rfl
@[simp] theorem modPair_line_of (s : State) (n : Nat) (f : Pair → Pair) (k : Nat) : (s.modPair n f).line k = s.line k := rfl
@[simp] theorem modPair_dspOf_of (s : State) (n : Nat) (f : Pair → Pair) (m : BitVec 12) : (s.modPair n f).dspOf m = s.dspOf m := rfl
@[simp] theorem modPair_sup_of (s : State) (n : Nat) (f : Pair → Pair) (k : Nat) : (s.modPair n f).sup k = s.sup k := rfl
@[simp] theorem modPair_clk_of (s : State) (n : Nat) (f : Pair → Pair) (k : Nat) : (s.modPair n f).clk k = s.clk k := rfl
@[simp] theorem modPair_key_of (s : State) (n : Nat) (f : Pair → Pair) (k : Nat) : (s.modPair n f).key k = s.key k := rfl
@[simp] theorem modPair_keyWin_of (s : State) (n : Nat) (f : Pair → Pair) (k : Nat) : (s.modPair n f).keyWin k = s.keyWin k := rfl
@[simp] theorem modPair_win_of (s : State) (n : Nat) (f : Pair → Pair) (k : Nat) : (s.modPair n f).win k = s.win k := rfl
@[simp] theorem modPair_app_of (s : State) (n : Nat) (f : Pair → Pair) (r : Reg) : (s.modPair n f).app r = s.app r := rfl
@[simp] theorem modPair_stg_of (s : State) (n : Nat) (f : Pair → Pair) (r : Reg) : (s.modPair n f).stg r = s.stg r := rfl
@[simp] theorem modPair_reg_of (s : State) (n : Nat) (f : Pair → Pair) (r : Reg) : (s.modPair n f).reg r = s.reg r := rfl
@[simp] theorem modPair_now_of (s : State) (n : Nat) (f : Pair → Pair) : (s.modPair n f).now = s.now := rfl
@[simp] theorem modPair_coreOn_of (s : State) (n : Nat) (f : Pair → Pair) : (s.modPair n f).coreOn = s.coreOn := rfl

/-! ## modSc -/

@[simp] theorem modSc_boot (s : State) (n : Nat) (f : SwCmp → SwCmp) : (s.modSc n f).boot = s.boot := rfl
@[simp] theorem modSc_chans (s : State) (n : Nat) (f : SwCmp → SwCmp) : (s.modSc n f).chans = s.chans := rfl
@[simp] theorem modSc_wins (s : State) (n : Nat) (f : SwCmp → SwCmp) : (s.modSc n f).wins = s.wins := rfl
@[simp] theorem modSc_engs (s : State) (n : Nat) (f : SwCmp → SwCmp) : (s.modSc n f).engs = s.engs := rfl
@[simp] theorem modSc_gals (s : State) (n : Nat) (f : SwCmp → SwCmp) : (s.modSc n f).gals = s.gals := rfl
@[simp] theorem modSc_slots (s : State) (n : Nat) (f : SwCmp → SwCmp) : (s.modSc n f).slots = s.slots := rfl
@[simp] theorem modSc_evc (s : State) (n : Nat) (f : SwCmp → SwCmp) : (s.modSc n f).evc = s.evc := rfl
@[simp] theorem modSc_links (s : State) (n : Nat) (f : SwCmp → SwCmp) : (s.modSc n f).links = s.links := rfl
@[simp] theorem modSc_arbs (s : State) (n : Nat) (f : SwCmp → SwCmp) : (s.modSc n f).arbs = s.arbs := rfl
@[simp] theorem modSc_ports (s : State) (n : Nat) (f : SwCmp → SwCmp) : (s.modSc n f).ports = s.ports := rfl
@[simp] theorem modSc_txns (s : State) (n : Nat) (f : SwCmp → SwCmp) : (s.modSc n f).txns = s.txns := rfl
@[simp] theorem modSc_nextTxn (s : State) (n : Nat) (f : SwCmp → SwCmp) : (s.modSc n f).nextTxn = s.nextTxn := rfl
@[simp] theorem modSc_lines (s : State) (n : Nat) (f : SwCmp → SwCmp) : (s.modSc n f).lines = s.lines := rfl
@[simp] theorem modSc_vitFlush (s : State) (n : Nat) (f : SwCmp → SwCmp) : (s.modSc n f).vitFlush = s.vitFlush := rfl
@[simp] theorem modSc_vitOld (s : State) (n : Nat) (f : SwCmp → SwCmp) : (s.modSc n f).vitOld = s.vitOld := rfl
@[simp] theorem modSc_sliceCord (s : State) (n : Nat) (f : SwCmp → SwCmp) : (s.modSc n f).sliceCord = s.sliceCord := rfl
@[simp] theorem modSc_dsp (s : State) (n : Nat) (f : SwCmp → SwCmp) : (s.modSc n f).dsp = s.dsp := rfl
@[simp] theorem modSc_rw (s : State) (n : Nat) (f : SwCmp → SwCmp) : (s.modSc n f).rw = s.rw := rfl
@[simp] theorem modSc_hold (s : State) (n : Nat) (f : SwCmp → SwCmp) : (s.modSc n f).hold = s.hold := rfl
@[simp] theorem modSc_stage (s : State) (n : Nat) (f : SwCmp → SwCmp) : (s.modSc n f).stage = s.stage := rfl
@[simp] theorem modSc_loader (s : State) (n : Nat) (f : SwCmp → SwCmp) : (s.modSc n f).loader = s.loader := rfl
@[simp] theorem modSc_keys (s : State) (n : Nat) (f : SwCmp → SwCmp) : (s.modSc n f).keys = s.keys := rfl
@[simp] theorem modSc_keyWins (s : State) (n : Nat) (f : SwCmp → SwCmp) : (s.modSc n f).keyWins = s.keyWins := rfl
@[simp] theorem modSc_fcr (s : State) (n : Nat) (f : SwCmp → SwCmp) : (s.modSc n f).fcr = s.fcr := rfl
@[simp] theorem modSc_doc (s : State) (n : Nat) (f : SwCmp → SwCmp) : (s.modSc n f).doc = s.doc := rfl
@[simp] theorem modSc_doms (s : State) (n : Nat) (f : SwCmp → SwCmp) : (s.modSc n f).doms = s.doms := rfl
@[simp] theorem modSc_pcm (s : State) (n : Nat) (f : SwCmp → SwCmp) : (s.modSc n f).pcm = s.pcm := rfl
@[simp] theorem modSc_ledger (s : State) (n : Nat) (f : SwCmp → SwCmp) : (s.modSc n f).ledger = s.ledger := rfl
@[simp] theorem modSc_sbp (s : State) (n : Nat) (f : SwCmp → SwCmp) : (s.modSc n f).sbp = s.sbp := rfl
@[simp] theorem modSc_mst (s : State) (n : Nat) (f : SwCmp → SwCmp) : (s.modSc n f).mst = s.mst := rfl
@[simp] theorem modSc_resp (s : State) (n : Nat) (f : SwCmp → SwCmp) : (s.modSc n f).resp = s.resp := rfl
@[simp] theorem modSc_snpRsp (s : State) (n : Nat) (f : SwCmp → SwCmp) : (s.modSc n f).snpRsp = s.snpRsp := rfl
@[simp] theorem modSc_trace (s : State) (n : Nat) (f : SwCmp → SwCmp) : (s.modSc n f).trace = s.trace := rfl
@[simp] theorem modSc_fresh (s : State) (n : Nat) (f : SwCmp → SwCmp) : (s.modSc n f).fresh = s.fresh := rfl
@[simp] theorem modSc_pending (s : State) (n : Nat) (f : SwCmp → SwCmp) : (s.modSc n f).pending = s.pending := rfl
@[simp] theorem modSc_chan_of (s : State) (n : Nat) (f : SwCmp → SwCmp) (m : BitVec 12) : (s.modSc n f).chan m = s.chan m := rfl
@[simp] theorem modSc_eng_of (s : State) (n : Nat) (f : SwCmp → SwCmp) (k : EngId) : (s.modSc n f).eng k = s.eng k := rfl
@[simp] theorem modSc_gal_of (s : State) (n : Nat) (f : SwCmp → SwCmp) (k : Nat) : (s.modSc n f).gal k = s.gal k := rfl
@[simp] theorem modSc_slot_of (s : State) (n : Nat) (f : SwCmp → SwCmp) (k : EngId) : (s.modSc n f).slot k = s.slot k := rfl
@[simp] theorem modSc_link_of (s : State) (n : Nat) (f : SwCmp → SwCmp) (k : BitVec 5) : (s.modSc n f).link k = s.link k := rfl
@[simp] theorem modSc_arb_of (s : State) (n : Nat) (f : SwCmp → SwCmp) (k : Nat) : (s.modSc n f).arb k = s.arb k := rfl
@[simp] theorem modSc_port_of (s : State) (n : Nat) (f : SwCmp → SwCmp) (k : Nat) : (s.modSc n f).port k = s.port k := rfl
@[simp] theorem modSc_dom_of (s : State) (n : Nat) (f : SwCmp → SwCmp) (k : Nat) : (s.modSc n f).dom k = s.dom k := rfl
@[simp] theorem modSc_domOn_of (s : State) (n : Nat) (f : SwCmp → SwCmp) (k : Nat) : (s.modSc n f).domOn k = s.domOn k := rfl
@[simp] theorem modSc_pair_of (s : State) (n : Nat) (f : SwCmp → SwCmp) (k : Nat) : (s.modSc n f).pair k = s.pair k := rfl
@[simp] theorem modSc_rq_of (s : State) (n : Nat) (f : SwCmp → SwCmp) (k : Nat) : (s.modSc n f).rq k = s.rq k := rfl
@[simp] theorem modSc_sub_of (s : State) (n : Nat) (f : SwCmp → SwCmp) (k : Nat) : (s.modSc n f).sub k = s.sub k := rfl
@[simp] theorem modSc_evo_of (s : State) (n : Nat) (f : SwCmp → SwCmp) (k : Nat) : (s.modSc n f).evo k = s.evo k := rfl
@[simp] theorem modSc_irq_of (s : State) (n : Nat) (f : SwCmp → SwCmp) (k : Nat) : (s.modSc n f).irq k = s.irq k := rfl
@[simp] theorem modSc_line_of (s : State) (n : Nat) (f : SwCmp → SwCmp) (k : Nat) : (s.modSc n f).line k = s.line k := rfl
@[simp] theorem modSc_dspOf_of (s : State) (n : Nat) (f : SwCmp → SwCmp) (m : BitVec 12) : (s.modSc n f).dspOf m = s.dspOf m := rfl
@[simp] theorem modSc_sup_of (s : State) (n : Nat) (f : SwCmp → SwCmp) (k : Nat) : (s.modSc n f).sup k = s.sup k := rfl
@[simp] theorem modSc_clk_of (s : State) (n : Nat) (f : SwCmp → SwCmp) (k : Nat) : (s.modSc n f).clk k = s.clk k := rfl
@[simp] theorem modSc_key_of (s : State) (n : Nat) (f : SwCmp → SwCmp) (k : Nat) : (s.modSc n f).key k = s.key k := rfl
@[simp] theorem modSc_keyWin_of (s : State) (n : Nat) (f : SwCmp → SwCmp) (k : Nat) : (s.modSc n f).keyWin k = s.keyWin k := rfl
@[simp] theorem modSc_win_of (s : State) (n : Nat) (f : SwCmp → SwCmp) (k : Nat) : (s.modSc n f).win k = s.win k := rfl
@[simp] theorem modSc_app_of (s : State) (n : Nat) (f : SwCmp → SwCmp) (r : Reg) : (s.modSc n f).app r = s.app r := rfl
@[simp] theorem modSc_stg_of (s : State) (n : Nat) (f : SwCmp → SwCmp) (r : Reg) : (s.modSc n f).stg r = s.stg r := rfl
@[simp] theorem modSc_reg_of (s : State) (n : Nat) (f : SwCmp → SwCmp) (r : Reg) : (s.modSc n f).reg r = s.reg r := rfl
@[simp] theorem modSc_now_of (s : State) (n : Nat) (f : SwCmp → SwCmp) : (s.modSc n f).now = s.now := rfl
@[simp] theorem modSc_coreOn_of (s : State) (n : Nat) (f : SwCmp → SwCmp) : (s.modSc n f).coreOn = s.coreOn := rfl

/-! ## modRq -/

@[simp] theorem modRq_boot (s : State) (n : Nat) (f : RqLine → RqLine) : (s.modRq n f).boot = s.boot := rfl
@[simp] theorem modRq_tbs (s : State) (n : Nat) (f : RqLine → RqLine) : (s.modRq n f).tbs = s.tbs := rfl
@[simp] theorem modRq_chans (s : State) (n : Nat) (f : RqLine → RqLine) : (s.modRq n f).chans = s.chans := rfl
@[simp] theorem modRq_wins (s : State) (n : Nat) (f : RqLine → RqLine) : (s.modRq n f).wins = s.wins := rfl
@[simp] theorem modRq_engs (s : State) (n : Nat) (f : RqLine → RqLine) : (s.modRq n f).engs = s.engs := rfl
@[simp] theorem modRq_gals (s : State) (n : Nat) (f : RqLine → RqLine) : (s.modRq n f).gals = s.gals := rfl
@[simp] theorem modRq_slots (s : State) (n : Nat) (f : RqLine → RqLine) : (s.modRq n f).slots = s.slots := rfl
@[simp] theorem modRq_links (s : State) (n : Nat) (f : RqLine → RqLine) : (s.modRq n f).links = s.links := rfl
@[simp] theorem modRq_arbs (s : State) (n : Nat) (f : RqLine → RqLine) : (s.modRq n f).arbs = s.arbs := rfl
@[simp] theorem modRq_ports (s : State) (n : Nat) (f : RqLine → RqLine) : (s.modRq n f).ports = s.ports := rfl
@[simp] theorem modRq_txns (s : State) (n : Nat) (f : RqLine → RqLine) : (s.modRq n f).txns = s.txns := rfl
@[simp] theorem modRq_nextTxn (s : State) (n : Nat) (f : RqLine → RqLine) : (s.modRq n f).nextTxn = s.nextTxn := rfl
@[simp] theorem modRq_lines (s : State) (n : Nat) (f : RqLine → RqLine) : (s.modRq n f).lines = s.lines := rfl
@[simp] theorem modRq_vitFlush (s : State) (n : Nat) (f : RqLine → RqLine) : (s.modRq n f).vitFlush = s.vitFlush := rfl
@[simp] theorem modRq_vitOld (s : State) (n : Nat) (f : RqLine → RqLine) : (s.modRq n f).vitOld = s.vitOld := rfl
@[simp] theorem modRq_sliceCord (s : State) (n : Nat) (f : RqLine → RqLine) : (s.modRq n f).sliceCord = s.sliceCord := rfl
@[simp] theorem modRq_dsp (s : State) (n : Nat) (f : RqLine → RqLine) : (s.modRq n f).dsp = s.dsp := rfl
@[simp] theorem modRq_rw (s : State) (n : Nat) (f : RqLine → RqLine) : (s.modRq n f).rw = s.rw := rfl
@[simp] theorem modRq_hold (s : State) (n : Nat) (f : RqLine → RqLine) : (s.modRq n f).hold = s.hold := rfl
@[simp] theorem modRq_stage (s : State) (n : Nat) (f : RqLine → RqLine) : (s.modRq n f).stage = s.stage := rfl
@[simp] theorem modRq_loader (s : State) (n : Nat) (f : RqLine → RqLine) : (s.modRq n f).loader = s.loader := rfl
@[simp] theorem modRq_keys (s : State) (n : Nat) (f : RqLine → RqLine) : (s.modRq n f).keys = s.keys := rfl
@[simp] theorem modRq_keyWins (s : State) (n : Nat) (f : RqLine → RqLine) : (s.modRq n f).keyWins = s.keyWins := rfl
@[simp] theorem modRq_fcr (s : State) (n : Nat) (f : RqLine → RqLine) : (s.modRq n f).fcr = s.fcr := rfl
@[simp] theorem modRq_doc (s : State) (n : Nat) (f : RqLine → RqLine) : (s.modRq n f).doc = s.doc := rfl
@[simp] theorem modRq_doms (s : State) (n : Nat) (f : RqLine → RqLine) : (s.modRq n f).doms = s.doms := rfl
@[simp] theorem modRq_pcm (s : State) (n : Nat) (f : RqLine → RqLine) : (s.modRq n f).pcm = s.pcm := rfl
@[simp] theorem modRq_ledger (s : State) (n : Nat) (f : RqLine → RqLine) : (s.modRq n f).ledger = s.ledger := rfl
@[simp] theorem modRq_sbp (s : State) (n : Nat) (f : RqLine → RqLine) : (s.modRq n f).sbp = s.sbp := rfl
@[simp] theorem modRq_mst (s : State) (n : Nat) (f : RqLine → RqLine) : (s.modRq n f).mst = s.mst := rfl
@[simp] theorem modRq_resp (s : State) (n : Nat) (f : RqLine → RqLine) : (s.modRq n f).resp = s.resp := rfl
@[simp] theorem modRq_snpRsp (s : State) (n : Nat) (f : RqLine → RqLine) : (s.modRq n f).snpRsp = s.snpRsp := rfl
@[simp] theorem modRq_trace (s : State) (n : Nat) (f : RqLine → RqLine) : (s.modRq n f).trace = s.trace := rfl
@[simp] theorem modRq_fresh (s : State) (n : Nat) (f : RqLine → RqLine) : (s.modRq n f).fresh = s.fresh := rfl
@[simp] theorem modRq_pending (s : State) (n : Nat) (f : RqLine → RqLine) : (s.modRq n f).pending = s.pending := rfl
@[simp] theorem modRq_chan_of (s : State) (n : Nat) (f : RqLine → RqLine) (m : BitVec 12) : (s.modRq n f).chan m = s.chan m := rfl
@[simp] theorem modRq_eng_of (s : State) (n : Nat) (f : RqLine → RqLine) (k : EngId) : (s.modRq n f).eng k = s.eng k := rfl
@[simp] theorem modRq_gal_of (s : State) (n : Nat) (f : RqLine → RqLine) (k : Nat) : (s.modRq n f).gal k = s.gal k := rfl
@[simp] theorem modRq_slot_of (s : State) (n : Nat) (f : RqLine → RqLine) (k : EngId) : (s.modRq n f).slot k = s.slot k := rfl
@[simp] theorem modRq_link_of (s : State) (n : Nat) (f : RqLine → RqLine) (k : BitVec 5) : (s.modRq n f).link k = s.link k := rfl
@[simp] theorem modRq_arb_of (s : State) (n : Nat) (f : RqLine → RqLine) (k : Nat) : (s.modRq n f).arb k = s.arb k := rfl
@[simp] theorem modRq_port_of (s : State) (n : Nat) (f : RqLine → RqLine) (k : Nat) : (s.modRq n f).port k = s.port k := rfl
@[simp] theorem modRq_dom_of (s : State) (n : Nat) (f : RqLine → RqLine) (k : Nat) : (s.modRq n f).dom k = s.dom k := rfl
@[simp] theorem modRq_domOn_of (s : State) (n : Nat) (f : RqLine → RqLine) (k : Nat) : (s.modRq n f).domOn k = s.domOn k := rfl
@[simp] theorem modRq_pair_of (s : State) (n : Nat) (f : RqLine → RqLine) (k : Nat) : (s.modRq n f).pair k = s.pair k := rfl
@[simp] theorem modRq_sc_of (s : State) (n : Nat) (f : RqLine → RqLine) (k : Nat) : (s.modRq n f).sc k = s.sc k := rfl
@[simp] theorem modRq_sub_of (s : State) (n : Nat) (f : RqLine → RqLine) (k : Nat) : (s.modRq n f).sub k = s.sub k := rfl
@[simp] theorem modRq_evo_of (s : State) (n : Nat) (f : RqLine → RqLine) (k : Nat) : (s.modRq n f).evo k = s.evo k := rfl
@[simp] theorem modRq_irq_of (s : State) (n : Nat) (f : RqLine → RqLine) (k : Nat) : (s.modRq n f).irq k = s.irq k := rfl
@[simp] theorem modRq_line_of (s : State) (n : Nat) (f : RqLine → RqLine) (k : Nat) : (s.modRq n f).line k = s.line k := rfl
@[simp] theorem modRq_dspOf_of (s : State) (n : Nat) (f : RqLine → RqLine) (m : BitVec 12) : (s.modRq n f).dspOf m = s.dspOf m := rfl
@[simp] theorem modRq_sup_of (s : State) (n : Nat) (f : RqLine → RqLine) (k : Nat) : (s.modRq n f).sup k = s.sup k := rfl
@[simp] theorem modRq_clk_of (s : State) (n : Nat) (f : RqLine → RqLine) (k : Nat) : (s.modRq n f).clk k = s.clk k := rfl
@[simp] theorem modRq_key_of (s : State) (n : Nat) (f : RqLine → RqLine) (k : Nat) : (s.modRq n f).key k = s.key k := rfl
@[simp] theorem modRq_keyWin_of (s : State) (n : Nat) (f : RqLine → RqLine) (k : Nat) : (s.modRq n f).keyWin k = s.keyWin k := rfl
@[simp] theorem modRq_win_of (s : State) (n : Nat) (f : RqLine → RqLine) (k : Nat) : (s.modRq n f).win k = s.win k := rfl
@[simp] theorem modRq_app_of (s : State) (n : Nat) (f : RqLine → RqLine) (r : Reg) : (s.modRq n f).app r = s.app r := rfl
@[simp] theorem modRq_stg_of (s : State) (n : Nat) (f : RqLine → RqLine) (r : Reg) : (s.modRq n f).stg r = s.stg r := rfl
@[simp] theorem modRq_reg_of (s : State) (n : Nat) (f : RqLine → RqLine) (r : Reg) : (s.modRq n f).reg r = s.reg r := rfl
@[simp] theorem modRq_now_of (s : State) (n : Nat) (f : RqLine → RqLine) : (s.modRq n f).now = s.now := rfl
@[simp] theorem modRq_coreOn_of (s : State) (n : Nat) (f : RqLine → RqLine) : (s.modRq n f).coreOn = s.coreOn := rfl

/-! ## modSub -/

@[simp] theorem modSub_boot (s : State) (j : Nat) (f : Sub → Sub) : (s.modSub j f).boot = s.boot := rfl
@[simp] theorem modSub_tbs (s : State) (j : Nat) (f : Sub → Sub) : (s.modSub j f).tbs = s.tbs := rfl
@[simp] theorem modSub_chans (s : State) (j : Nat) (f : Sub → Sub) : (s.modSub j f).chans = s.chans := rfl
@[simp] theorem modSub_wins (s : State) (j : Nat) (f : Sub → Sub) : (s.modSub j f).wins = s.wins := rfl
@[simp] theorem modSub_engs (s : State) (j : Nat) (f : Sub → Sub) : (s.modSub j f).engs = s.engs := rfl
@[simp] theorem modSub_gals (s : State) (j : Nat) (f : Sub → Sub) : (s.modSub j f).gals = s.gals := rfl
@[simp] theorem modSub_slots (s : State) (j : Nat) (f : Sub → Sub) : (s.modSub j f).slots = s.slots := rfl
@[simp] theorem modSub_links (s : State) (j : Nat) (f : Sub → Sub) : (s.modSub j f).links = s.links := rfl
@[simp] theorem modSub_arbs (s : State) (j : Nat) (f : Sub → Sub) : (s.modSub j f).arbs = s.arbs := rfl
@[simp] theorem modSub_ports (s : State) (j : Nat) (f : Sub → Sub) : (s.modSub j f).ports = s.ports := rfl
@[simp] theorem modSub_txns (s : State) (j : Nat) (f : Sub → Sub) : (s.modSub j f).txns = s.txns := rfl
@[simp] theorem modSub_nextTxn (s : State) (j : Nat) (f : Sub → Sub) : (s.modSub j f).nextTxn = s.nextTxn := rfl
@[simp] theorem modSub_lines (s : State) (j : Nat) (f : Sub → Sub) : (s.modSub j f).lines = s.lines := rfl
@[simp] theorem modSub_vitFlush (s : State) (j : Nat) (f : Sub → Sub) : (s.modSub j f).vitFlush = s.vitFlush := rfl
@[simp] theorem modSub_vitOld (s : State) (j : Nat) (f : Sub → Sub) : (s.modSub j f).vitOld = s.vitOld := rfl
@[simp] theorem modSub_sliceCord (s : State) (j : Nat) (f : Sub → Sub) : (s.modSub j f).sliceCord = s.sliceCord := rfl
@[simp] theorem modSub_dsp (s : State) (j : Nat) (f : Sub → Sub) : (s.modSub j f).dsp = s.dsp := rfl
@[simp] theorem modSub_rw (s : State) (j : Nat) (f : Sub → Sub) : (s.modSub j f).rw = s.rw := rfl
@[simp] theorem modSub_hold (s : State) (j : Nat) (f : Sub → Sub) : (s.modSub j f).hold = s.hold := rfl
@[simp] theorem modSub_stage (s : State) (j : Nat) (f : Sub → Sub) : (s.modSub j f).stage = s.stage := rfl
@[simp] theorem modSub_loader (s : State) (j : Nat) (f : Sub → Sub) : (s.modSub j f).loader = s.loader := rfl
@[simp] theorem modSub_keys (s : State) (j : Nat) (f : Sub → Sub) : (s.modSub j f).keys = s.keys := rfl
@[simp] theorem modSub_keyWins (s : State) (j : Nat) (f : Sub → Sub) : (s.modSub j f).keyWins = s.keyWins := rfl
@[simp] theorem modSub_fcr (s : State) (j : Nat) (f : Sub → Sub) : (s.modSub j f).fcr = s.fcr := rfl
@[simp] theorem modSub_doc (s : State) (j : Nat) (f : Sub → Sub) : (s.modSub j f).doc = s.doc := rfl
@[simp] theorem modSub_doms (s : State) (j : Nat) (f : Sub → Sub) : (s.modSub j f).doms = s.doms := rfl
@[simp] theorem modSub_pcm (s : State) (j : Nat) (f : Sub → Sub) : (s.modSub j f).pcm = s.pcm := rfl
@[simp] theorem modSub_ledger (s : State) (j : Nat) (f : Sub → Sub) : (s.modSub j f).ledger = s.ledger := rfl
@[simp] theorem modSub_sbp (s : State) (j : Nat) (f : Sub → Sub) : (s.modSub j f).sbp = s.sbp := rfl
@[simp] theorem modSub_mst (s : State) (j : Nat) (f : Sub → Sub) : (s.modSub j f).mst = s.mst := rfl
@[simp] theorem modSub_resp (s : State) (j : Nat) (f : Sub → Sub) : (s.modSub j f).resp = s.resp := rfl
@[simp] theorem modSub_snpRsp (s : State) (j : Nat) (f : Sub → Sub) : (s.modSub j f).snpRsp = s.snpRsp := rfl
@[simp] theorem modSub_trace (s : State) (j : Nat) (f : Sub → Sub) : (s.modSub j f).trace = s.trace := rfl
@[simp] theorem modSub_fresh (s : State) (j : Nat) (f : Sub → Sub) : (s.modSub j f).fresh = s.fresh := rfl
@[simp] theorem modSub_pending (s : State) (j : Nat) (f : Sub → Sub) : (s.modSub j f).pending = s.pending := rfl
@[simp] theorem modSub_chan_of (s : State) (j : Nat) (f : Sub → Sub) (m : BitVec 12) : (s.modSub j f).chan m = s.chan m := rfl
@[simp] theorem modSub_eng_of (s : State) (j : Nat) (f : Sub → Sub) (k : EngId) : (s.modSub j f).eng k = s.eng k := rfl
@[simp] theorem modSub_gal_of (s : State) (j : Nat) (f : Sub → Sub) (k : Nat) : (s.modSub j f).gal k = s.gal k := rfl
@[simp] theorem modSub_slot_of (s : State) (j : Nat) (f : Sub → Sub) (k : EngId) : (s.modSub j f).slot k = s.slot k := rfl
@[simp] theorem modSub_link_of (s : State) (j : Nat) (f : Sub → Sub) (k : BitVec 5) : (s.modSub j f).link k = s.link k := rfl
@[simp] theorem modSub_arb_of (s : State) (j : Nat) (f : Sub → Sub) (k : Nat) : (s.modSub j f).arb k = s.arb k := rfl
@[simp] theorem modSub_port_of (s : State) (j : Nat) (f : Sub → Sub) (k : Nat) : (s.modSub j f).port k = s.port k := rfl
@[simp] theorem modSub_dom_of (s : State) (j : Nat) (f : Sub → Sub) (k : Nat) : (s.modSub j f).dom k = s.dom k := rfl
@[simp] theorem modSub_domOn_of (s : State) (j : Nat) (f : Sub → Sub) (k : Nat) : (s.modSub j f).domOn k = s.domOn k := rfl
@[simp] theorem modSub_pair_of (s : State) (j : Nat) (f : Sub → Sub) (k : Nat) : (s.modSub j f).pair k = s.pair k := rfl
@[simp] theorem modSub_sc_of (s : State) (j : Nat) (f : Sub → Sub) (k : Nat) : (s.modSub j f).sc k = s.sc k := rfl
@[simp] theorem modSub_rq_of (s : State) (j : Nat) (f : Sub → Sub) (k : Nat) : (s.modSub j f).rq k = s.rq k := rfl
@[simp] theorem modSub_evo_of (s : State) (j : Nat) (f : Sub → Sub) (k : Nat) : (s.modSub j f).evo k = s.evo k := rfl
@[simp] theorem modSub_irq_of (s : State) (j : Nat) (f : Sub → Sub) (k : Nat) : (s.modSub j f).irq k = s.irq k := rfl
@[simp] theorem modSub_line_of (s : State) (j : Nat) (f : Sub → Sub) (k : Nat) : (s.modSub j f).line k = s.line k := rfl
@[simp] theorem modSub_dspOf_of (s : State) (j : Nat) (f : Sub → Sub) (m : BitVec 12) : (s.modSub j f).dspOf m = s.dspOf m := rfl
@[simp] theorem modSub_sup_of (s : State) (j : Nat) (f : Sub → Sub) (k : Nat) : (s.modSub j f).sup k = s.sup k := rfl
@[simp] theorem modSub_clk_of (s : State) (j : Nat) (f : Sub → Sub) (k : Nat) : (s.modSub j f).clk k = s.clk k := rfl
@[simp] theorem modSub_key_of (s : State) (j : Nat) (f : Sub → Sub) (k : Nat) : (s.modSub j f).key k = s.key k := rfl
@[simp] theorem modSub_keyWin_of (s : State) (j : Nat) (f : Sub → Sub) (k : Nat) : (s.modSub j f).keyWin k = s.keyWin k := rfl
@[simp] theorem modSub_win_of (s : State) (j : Nat) (f : Sub → Sub) (k : Nat) : (s.modSub j f).win k = s.win k := rfl
@[simp] theorem modSub_app_of (s : State) (j : Nat) (f : Sub → Sub) (r : Reg) : (s.modSub j f).app r = s.app r := rfl
@[simp] theorem modSub_stg_of (s : State) (j : Nat) (f : Sub → Sub) (r : Reg) : (s.modSub j f).stg r = s.stg r := rfl
@[simp] theorem modSub_reg_of (s : State) (j : Nat) (f : Sub → Sub) (r : Reg) : (s.modSub j f).reg r = s.reg r := rfl
@[simp] theorem modSub_now_of (s : State) (j : Nat) (f : Sub → Sub) : (s.modSub j f).now = s.now := rfl
@[simp] theorem modSub_coreOn_of (s : State) (j : Nat) (f : Sub → Sub) : (s.modSub j f).coreOn = s.coreOn := rfl

/-! ## modEvo -/

@[simp] theorem modEvo_boot (s : State) (m : Nat) (f : Evo → Evo) : (s.modEvo m f).boot = s.boot := rfl
@[simp] theorem modEvo_tbs (s : State) (m : Nat) (f : Evo → Evo) : (s.modEvo m f).tbs = s.tbs := rfl
@[simp] theorem modEvo_chans (s : State) (m : Nat) (f : Evo → Evo) : (s.modEvo m f).chans = s.chans := rfl
@[simp] theorem modEvo_wins (s : State) (m : Nat) (f : Evo → Evo) : (s.modEvo m f).wins = s.wins := rfl
@[simp] theorem modEvo_engs (s : State) (m : Nat) (f : Evo → Evo) : (s.modEvo m f).engs = s.engs := rfl
@[simp] theorem modEvo_gals (s : State) (m : Nat) (f : Evo → Evo) : (s.modEvo m f).gals = s.gals := rfl
@[simp] theorem modEvo_slots (s : State) (m : Nat) (f : Evo → Evo) : (s.modEvo m f).slots = s.slots := rfl
@[simp] theorem modEvo_links (s : State) (m : Nat) (f : Evo → Evo) : (s.modEvo m f).links = s.links := rfl
@[simp] theorem modEvo_arbs (s : State) (m : Nat) (f : Evo → Evo) : (s.modEvo m f).arbs = s.arbs := rfl
@[simp] theorem modEvo_ports (s : State) (m : Nat) (f : Evo → Evo) : (s.modEvo m f).ports = s.ports := rfl
@[simp] theorem modEvo_txns (s : State) (m : Nat) (f : Evo → Evo) : (s.modEvo m f).txns = s.txns := rfl
@[simp] theorem modEvo_nextTxn (s : State) (m : Nat) (f : Evo → Evo) : (s.modEvo m f).nextTxn = s.nextTxn := rfl
@[simp] theorem modEvo_lines (s : State) (m : Nat) (f : Evo → Evo) : (s.modEvo m f).lines = s.lines := rfl
@[simp] theorem modEvo_vitFlush (s : State) (m : Nat) (f : Evo → Evo) : (s.modEvo m f).vitFlush = s.vitFlush := rfl
@[simp] theorem modEvo_vitOld (s : State) (m : Nat) (f : Evo → Evo) : (s.modEvo m f).vitOld = s.vitOld := rfl
@[simp] theorem modEvo_sliceCord (s : State) (m : Nat) (f : Evo → Evo) : (s.modEvo m f).sliceCord = s.sliceCord := rfl
@[simp] theorem modEvo_dsp (s : State) (m : Nat) (f : Evo → Evo) : (s.modEvo m f).dsp = s.dsp := rfl
@[simp] theorem modEvo_rw (s : State) (m : Nat) (f : Evo → Evo) : (s.modEvo m f).rw = s.rw := rfl
@[simp] theorem modEvo_hold (s : State) (m : Nat) (f : Evo → Evo) : (s.modEvo m f).hold = s.hold := rfl
@[simp] theorem modEvo_stage (s : State) (m : Nat) (f : Evo → Evo) : (s.modEvo m f).stage = s.stage := rfl
@[simp] theorem modEvo_loader (s : State) (m : Nat) (f : Evo → Evo) : (s.modEvo m f).loader = s.loader := rfl
@[simp] theorem modEvo_keys (s : State) (m : Nat) (f : Evo → Evo) : (s.modEvo m f).keys = s.keys := rfl
@[simp] theorem modEvo_keyWins (s : State) (m : Nat) (f : Evo → Evo) : (s.modEvo m f).keyWins = s.keyWins := rfl
@[simp] theorem modEvo_fcr (s : State) (m : Nat) (f : Evo → Evo) : (s.modEvo m f).fcr = s.fcr := rfl
@[simp] theorem modEvo_doc (s : State) (m : Nat) (f : Evo → Evo) : (s.modEvo m f).doc = s.doc := rfl
@[simp] theorem modEvo_doms (s : State) (m : Nat) (f : Evo → Evo) : (s.modEvo m f).doms = s.doms := rfl
@[simp] theorem modEvo_pcm (s : State) (m : Nat) (f : Evo → Evo) : (s.modEvo m f).pcm = s.pcm := rfl
@[simp] theorem modEvo_ledger (s : State) (m : Nat) (f : Evo → Evo) : (s.modEvo m f).ledger = s.ledger := rfl
@[simp] theorem modEvo_sbp (s : State) (m : Nat) (f : Evo → Evo) : (s.modEvo m f).sbp = s.sbp := rfl
@[simp] theorem modEvo_mst (s : State) (m : Nat) (f : Evo → Evo) : (s.modEvo m f).mst = s.mst := rfl
@[simp] theorem modEvo_resp (s : State) (m : Nat) (f : Evo → Evo) : (s.modEvo m f).resp = s.resp := rfl
@[simp] theorem modEvo_snpRsp (s : State) (m : Nat) (f : Evo → Evo) : (s.modEvo m f).snpRsp = s.snpRsp := rfl
@[simp] theorem modEvo_trace (s : State) (m : Nat) (f : Evo → Evo) : (s.modEvo m f).trace = s.trace := rfl
@[simp] theorem modEvo_fresh (s : State) (m : Nat) (f : Evo → Evo) : (s.modEvo m f).fresh = s.fresh := rfl
@[simp] theorem modEvo_pending (s : State) (m : Nat) (f : Evo → Evo) : (s.modEvo m f).pending = s.pending := rfl
@[simp] theorem modEvo_chan_of (s : State) (m : Nat) (f : Evo → Evo) (z : BitVec 12) : (s.modEvo m f).chan z = s.chan z := rfl
@[simp] theorem modEvo_eng_of (s : State) (m : Nat) (f : Evo → Evo) (k : EngId) : (s.modEvo m f).eng k = s.eng k := rfl
@[simp] theorem modEvo_gal_of (s : State) (m : Nat) (f : Evo → Evo) (k : Nat) : (s.modEvo m f).gal k = s.gal k := rfl
@[simp] theorem modEvo_slot_of (s : State) (m : Nat) (f : Evo → Evo) (k : EngId) : (s.modEvo m f).slot k = s.slot k := rfl
@[simp] theorem modEvo_link_of (s : State) (m : Nat) (f : Evo → Evo) (k : BitVec 5) : (s.modEvo m f).link k = s.link k := rfl
@[simp] theorem modEvo_arb_of (s : State) (m : Nat) (f : Evo → Evo) (k : Nat) : (s.modEvo m f).arb k = s.arb k := rfl
@[simp] theorem modEvo_port_of (s : State) (m : Nat) (f : Evo → Evo) (k : Nat) : (s.modEvo m f).port k = s.port k := rfl
@[simp] theorem modEvo_dom_of (s : State) (m : Nat) (f : Evo → Evo) (k : Nat) : (s.modEvo m f).dom k = s.dom k := rfl
@[simp] theorem modEvo_domOn_of (s : State) (m : Nat) (f : Evo → Evo) (k : Nat) : (s.modEvo m f).domOn k = s.domOn k := rfl
@[simp] theorem modEvo_pair_of (s : State) (m : Nat) (f : Evo → Evo) (k : Nat) : (s.modEvo m f).pair k = s.pair k := rfl
@[simp] theorem modEvo_sc_of (s : State) (m : Nat) (f : Evo → Evo) (k : Nat) : (s.modEvo m f).sc k = s.sc k := rfl
@[simp] theorem modEvo_rq_of (s : State) (m : Nat) (f : Evo → Evo) (k : Nat) : (s.modEvo m f).rq k = s.rq k := rfl
@[simp] theorem modEvo_sub_of (s : State) (m : Nat) (f : Evo → Evo) (k : Nat) : (s.modEvo m f).sub k = s.sub k := rfl
@[simp] theorem modEvo_irq_of (s : State) (m : Nat) (f : Evo → Evo) (k : Nat) : (s.modEvo m f).irq k = s.irq k := rfl
@[simp] theorem modEvo_line_of (s : State) (m : Nat) (f : Evo → Evo) (k : Nat) : (s.modEvo m f).line k = s.line k := rfl
@[simp] theorem modEvo_dspOf_of (s : State) (m : Nat) (f : Evo → Evo) (z : BitVec 12) : (s.modEvo m f).dspOf z = s.dspOf z := rfl
@[simp] theorem modEvo_sup_of (s : State) (m : Nat) (f : Evo → Evo) (k : Nat) : (s.modEvo m f).sup k = s.sup k := rfl
@[simp] theorem modEvo_clk_of (s : State) (m : Nat) (f : Evo → Evo) (k : Nat) : (s.modEvo m f).clk k = s.clk k := rfl
@[simp] theorem modEvo_key_of (s : State) (m : Nat) (f : Evo → Evo) (k : Nat) : (s.modEvo m f).key k = s.key k := rfl
@[simp] theorem modEvo_keyWin_of (s : State) (m : Nat) (f : Evo → Evo) (k : Nat) : (s.modEvo m f).keyWin k = s.keyWin k := rfl
@[simp] theorem modEvo_win_of (s : State) (m : Nat) (f : Evo → Evo) (k : Nat) : (s.modEvo m f).win k = s.win k := rfl
@[simp] theorem modEvo_app_of (s : State) (m : Nat) (f : Evo → Evo) (r : Reg) : (s.modEvo m f).app r = s.app r := rfl
@[simp] theorem modEvo_stg_of (s : State) (m : Nat) (f : Evo → Evo) (r : Reg) : (s.modEvo m f).stg r = s.stg r := rfl
@[simp] theorem modEvo_reg_of (s : State) (m : Nat) (f : Evo → Evo) (r : Reg) : (s.modEvo m f).reg r = s.reg r := rfl
@[simp] theorem modEvo_now_of (s : State) (m : Nat) (f : Evo → Evo) : (s.modEvo m f).now = s.now := rfl
@[simp] theorem modEvo_coreOn_of (s : State) (m : Nat) (f : Evo → Evo) : (s.modEvo m f).coreOn = s.coreOn := rfl

/-! ## modIrq -/

@[simp] theorem modIrq_boot (s : State) (i : Nat) (f : Irq → Irq) : (s.modIrq i f).boot = s.boot := rfl
@[simp] theorem modIrq_tbs (s : State) (i : Nat) (f : Irq → Irq) : (s.modIrq i f).tbs = s.tbs := rfl
@[simp] theorem modIrq_chans (s : State) (i : Nat) (f : Irq → Irq) : (s.modIrq i f).chans = s.chans := rfl
@[simp] theorem modIrq_wins (s : State) (i : Nat) (f : Irq → Irq) : (s.modIrq i f).wins = s.wins := rfl
@[simp] theorem modIrq_engs (s : State) (i : Nat) (f : Irq → Irq) : (s.modIrq i f).engs = s.engs := rfl
@[simp] theorem modIrq_gals (s : State) (i : Nat) (f : Irq → Irq) : (s.modIrq i f).gals = s.gals := rfl
@[simp] theorem modIrq_slots (s : State) (i : Nat) (f : Irq → Irq) : (s.modIrq i f).slots = s.slots := rfl
@[simp] theorem modIrq_links (s : State) (i : Nat) (f : Irq → Irq) : (s.modIrq i f).links = s.links := rfl
@[simp] theorem modIrq_arbs (s : State) (i : Nat) (f : Irq → Irq) : (s.modIrq i f).arbs = s.arbs := rfl
@[simp] theorem modIrq_ports (s : State) (i : Nat) (f : Irq → Irq) : (s.modIrq i f).ports = s.ports := rfl
@[simp] theorem modIrq_txns (s : State) (i : Nat) (f : Irq → Irq) : (s.modIrq i f).txns = s.txns := rfl
@[simp] theorem modIrq_nextTxn (s : State) (i : Nat) (f : Irq → Irq) : (s.modIrq i f).nextTxn = s.nextTxn := rfl
@[simp] theorem modIrq_lines (s : State) (i : Nat) (f : Irq → Irq) : (s.modIrq i f).lines = s.lines := rfl
@[simp] theorem modIrq_vitFlush (s : State) (i : Nat) (f : Irq → Irq) : (s.modIrq i f).vitFlush = s.vitFlush := rfl
@[simp] theorem modIrq_vitOld (s : State) (i : Nat) (f : Irq → Irq) : (s.modIrq i f).vitOld = s.vitOld := rfl
@[simp] theorem modIrq_sliceCord (s : State) (i : Nat) (f : Irq → Irq) : (s.modIrq i f).sliceCord = s.sliceCord := rfl
@[simp] theorem modIrq_dsp (s : State) (i : Nat) (f : Irq → Irq) : (s.modIrq i f).dsp = s.dsp := rfl
@[simp] theorem modIrq_rw (s : State) (i : Nat) (f : Irq → Irq) : (s.modIrq i f).rw = s.rw := rfl
@[simp] theorem modIrq_hold (s : State) (i : Nat) (f : Irq → Irq) : (s.modIrq i f).hold = s.hold := rfl
@[simp] theorem modIrq_stage (s : State) (i : Nat) (f : Irq → Irq) : (s.modIrq i f).stage = s.stage := rfl
@[simp] theorem modIrq_loader (s : State) (i : Nat) (f : Irq → Irq) : (s.modIrq i f).loader = s.loader := rfl
@[simp] theorem modIrq_keys (s : State) (i : Nat) (f : Irq → Irq) : (s.modIrq i f).keys = s.keys := rfl
@[simp] theorem modIrq_keyWins (s : State) (i : Nat) (f : Irq → Irq) : (s.modIrq i f).keyWins = s.keyWins := rfl
@[simp] theorem modIrq_fcr (s : State) (i : Nat) (f : Irq → Irq) : (s.modIrq i f).fcr = s.fcr := rfl
@[simp] theorem modIrq_doc (s : State) (i : Nat) (f : Irq → Irq) : (s.modIrq i f).doc = s.doc := rfl
@[simp] theorem modIrq_doms (s : State) (i : Nat) (f : Irq → Irq) : (s.modIrq i f).doms = s.doms := rfl
@[simp] theorem modIrq_pcm (s : State) (i : Nat) (f : Irq → Irq) : (s.modIrq i f).pcm = s.pcm := rfl
@[simp] theorem modIrq_ledger (s : State) (i : Nat) (f : Irq → Irq) : (s.modIrq i f).ledger = s.ledger := rfl
@[simp] theorem modIrq_sbp (s : State) (i : Nat) (f : Irq → Irq) : (s.modIrq i f).sbp = s.sbp := rfl
@[simp] theorem modIrq_mst (s : State) (i : Nat) (f : Irq → Irq) : (s.modIrq i f).mst = s.mst := rfl
@[simp] theorem modIrq_resp (s : State) (i : Nat) (f : Irq → Irq) : (s.modIrq i f).resp = s.resp := rfl
@[simp] theorem modIrq_snpRsp (s : State) (i : Nat) (f : Irq → Irq) : (s.modIrq i f).snpRsp = s.snpRsp := rfl
@[simp] theorem modIrq_trace (s : State) (i : Nat) (f : Irq → Irq) : (s.modIrq i f).trace = s.trace := rfl
@[simp] theorem modIrq_fresh (s : State) (i : Nat) (f : Irq → Irq) : (s.modIrq i f).fresh = s.fresh := rfl
@[simp] theorem modIrq_pending (s : State) (i : Nat) (f : Irq → Irq) : (s.modIrq i f).pending = s.pending := rfl
@[simp] theorem modIrq_chan_of (s : State) (i : Nat) (f : Irq → Irq) (m : BitVec 12) : (s.modIrq i f).chan m = s.chan m := rfl
@[simp] theorem modIrq_eng_of (s : State) (i : Nat) (f : Irq → Irq) (k : EngId) : (s.modIrq i f).eng k = s.eng k := rfl
@[simp] theorem modIrq_gal_of (s : State) (i : Nat) (f : Irq → Irq) (k : Nat) : (s.modIrq i f).gal k = s.gal k := rfl
@[simp] theorem modIrq_slot_of (s : State) (i : Nat) (f : Irq → Irq) (k : EngId) : (s.modIrq i f).slot k = s.slot k := rfl
@[simp] theorem modIrq_link_of (s : State) (i : Nat) (f : Irq → Irq) (k : BitVec 5) : (s.modIrq i f).link k = s.link k := rfl
@[simp] theorem modIrq_arb_of (s : State) (i : Nat) (f : Irq → Irq) (k : Nat) : (s.modIrq i f).arb k = s.arb k := rfl
@[simp] theorem modIrq_port_of (s : State) (i : Nat) (f : Irq → Irq) (k : Nat) : (s.modIrq i f).port k = s.port k := rfl
@[simp] theorem modIrq_dom_of (s : State) (i : Nat) (f : Irq → Irq) (k : Nat) : (s.modIrq i f).dom k = s.dom k := rfl
@[simp] theorem modIrq_domOn_of (s : State) (i : Nat) (f : Irq → Irq) (k : Nat) : (s.modIrq i f).domOn k = s.domOn k := rfl
@[simp] theorem modIrq_pair_of (s : State) (i : Nat) (f : Irq → Irq) (k : Nat) : (s.modIrq i f).pair k = s.pair k := rfl
@[simp] theorem modIrq_sc_of (s : State) (i : Nat) (f : Irq → Irq) (k : Nat) : (s.modIrq i f).sc k = s.sc k := rfl
@[simp] theorem modIrq_rq_of (s : State) (i : Nat) (f : Irq → Irq) (k : Nat) : (s.modIrq i f).rq k = s.rq k := rfl
@[simp] theorem modIrq_sub_of (s : State) (i : Nat) (f : Irq → Irq) (k : Nat) : (s.modIrq i f).sub k = s.sub k := rfl
@[simp] theorem modIrq_evo_of (s : State) (i : Nat) (f : Irq → Irq) (k : Nat) : (s.modIrq i f).evo k = s.evo k := rfl
@[simp] theorem modIrq_line_of (s : State) (i : Nat) (f : Irq → Irq) (k : Nat) : (s.modIrq i f).line k = s.line k := rfl
@[simp] theorem modIrq_dspOf_of (s : State) (i : Nat) (f : Irq → Irq) (m : BitVec 12) : (s.modIrq i f).dspOf m = s.dspOf m := rfl
@[simp] theorem modIrq_sup_of (s : State) (i : Nat) (f : Irq → Irq) (k : Nat) : (s.modIrq i f).sup k = s.sup k := rfl
@[simp] theorem modIrq_clk_of (s : State) (i : Nat) (f : Irq → Irq) (k : Nat) : (s.modIrq i f).clk k = s.clk k := rfl
@[simp] theorem modIrq_key_of (s : State) (i : Nat) (f : Irq → Irq) (k : Nat) : (s.modIrq i f).key k = s.key k := rfl
@[simp] theorem modIrq_keyWin_of (s : State) (i : Nat) (f : Irq → Irq) (k : Nat) : (s.modIrq i f).keyWin k = s.keyWin k := rfl
@[simp] theorem modIrq_win_of (s : State) (i : Nat) (f : Irq → Irq) (k : Nat) : (s.modIrq i f).win k = s.win k := rfl
@[simp] theorem modIrq_app_of (s : State) (i : Nat) (f : Irq → Irq) (r : Reg) : (s.modIrq i f).app r = s.app r := rfl
@[simp] theorem modIrq_stg_of (s : State) (i : Nat) (f : Irq → Irq) (r : Reg) : (s.modIrq i f).stg r = s.stg r := rfl
@[simp] theorem modIrq_reg_of (s : State) (i : Nat) (f : Irq → Irq) (r : Reg) : (s.modIrq i f).reg r = s.reg r := rfl
@[simp] theorem modIrq_now_of (s : State) (i : Nat) (f : Irq → Irq) : (s.modIrq i f).now = s.now := rfl
@[simp] theorem modIrq_coreOn_of (s : State) (i : Nat) (f : Irq → Irq) : (s.modIrq i f).coreOn = s.coreOn := rfl

/-! ## modLine -/

@[simp] theorem modLine_boot (s : State) (l : Nat) (f : VLine → VLine) : (s.modLine l f).boot = s.boot := rfl
@[simp] theorem modLine_tbs (s : State) (l : Nat) (f : VLine → VLine) : (s.modLine l f).tbs = s.tbs := rfl
@[simp] theorem modLine_chans (s : State) (l : Nat) (f : VLine → VLine) : (s.modLine l f).chans = s.chans := rfl
@[simp] theorem modLine_wins (s : State) (l : Nat) (f : VLine → VLine) : (s.modLine l f).wins = s.wins := rfl
@[simp] theorem modLine_engs (s : State) (l : Nat) (f : VLine → VLine) : (s.modLine l f).engs = s.engs := rfl
@[simp] theorem modLine_gals (s : State) (l : Nat) (f : VLine → VLine) : (s.modLine l f).gals = s.gals := rfl
@[simp] theorem modLine_slots (s : State) (l : Nat) (f : VLine → VLine) : (s.modLine l f).slots = s.slots := rfl
@[simp] theorem modLine_evc (s : State) (l : Nat) (f : VLine → VLine) : (s.modLine l f).evc = s.evc := rfl
@[simp] theorem modLine_links (s : State) (l : Nat) (f : VLine → VLine) : (s.modLine l f).links = s.links := rfl
@[simp] theorem modLine_arbs (s : State) (l : Nat) (f : VLine → VLine) : (s.modLine l f).arbs = s.arbs := rfl
@[simp] theorem modLine_ports (s : State) (l : Nat) (f : VLine → VLine) : (s.modLine l f).ports = s.ports := rfl
@[simp] theorem modLine_txns (s : State) (l : Nat) (f : VLine → VLine) : (s.modLine l f).txns = s.txns := rfl
@[simp] theorem modLine_nextTxn (s : State) (l : Nat) (f : VLine → VLine) : (s.modLine l f).nextTxn = s.nextTxn := rfl
@[simp] theorem modLine_vitFlush (s : State) (l : Nat) (f : VLine → VLine) : (s.modLine l f).vitFlush = s.vitFlush := rfl
@[simp] theorem modLine_vitOld (s : State) (l : Nat) (f : VLine → VLine) : (s.modLine l f).vitOld = s.vitOld := rfl
@[simp] theorem modLine_sliceCord (s : State) (l : Nat) (f : VLine → VLine) : (s.modLine l f).sliceCord = s.sliceCord := rfl
@[simp] theorem modLine_dsp (s : State) (l : Nat) (f : VLine → VLine) : (s.modLine l f).dsp = s.dsp := rfl
@[simp] theorem modLine_rw (s : State) (l : Nat) (f : VLine → VLine) : (s.modLine l f).rw = s.rw := rfl
@[simp] theorem modLine_hold (s : State) (l : Nat) (f : VLine → VLine) : (s.modLine l f).hold = s.hold := rfl
@[simp] theorem modLine_stage (s : State) (l : Nat) (f : VLine → VLine) : (s.modLine l f).stage = s.stage := rfl
@[simp] theorem modLine_loader (s : State) (l : Nat) (f : VLine → VLine) : (s.modLine l f).loader = s.loader := rfl
@[simp] theorem modLine_keys (s : State) (l : Nat) (f : VLine → VLine) : (s.modLine l f).keys = s.keys := rfl
@[simp] theorem modLine_keyWins (s : State) (l : Nat) (f : VLine → VLine) : (s.modLine l f).keyWins = s.keyWins := rfl
@[simp] theorem modLine_fcr (s : State) (l : Nat) (f : VLine → VLine) : (s.modLine l f).fcr = s.fcr := rfl
@[simp] theorem modLine_doc (s : State) (l : Nat) (f : VLine → VLine) : (s.modLine l f).doc = s.doc := rfl
@[simp] theorem modLine_doms (s : State) (l : Nat) (f : VLine → VLine) : (s.modLine l f).doms = s.doms := rfl
@[simp] theorem modLine_pcm (s : State) (l : Nat) (f : VLine → VLine) : (s.modLine l f).pcm = s.pcm := rfl
@[simp] theorem modLine_ledger (s : State) (l : Nat) (f : VLine → VLine) : (s.modLine l f).ledger = s.ledger := rfl
@[simp] theorem modLine_sbp (s : State) (l : Nat) (f : VLine → VLine) : (s.modLine l f).sbp = s.sbp := rfl
@[simp] theorem modLine_mst (s : State) (l : Nat) (f : VLine → VLine) : (s.modLine l f).mst = s.mst := rfl
@[simp] theorem modLine_resp (s : State) (l : Nat) (f : VLine → VLine) : (s.modLine l f).resp = s.resp := rfl
@[simp] theorem modLine_snpRsp (s : State) (l : Nat) (f : VLine → VLine) : (s.modLine l f).snpRsp = s.snpRsp := rfl
@[simp] theorem modLine_trace (s : State) (l : Nat) (f : VLine → VLine) : (s.modLine l f).trace = s.trace := rfl
@[simp] theorem modLine_fresh (s : State) (l : Nat) (f : VLine → VLine) : (s.modLine l f).fresh = s.fresh := rfl
@[simp] theorem modLine_pending (s : State) (l : Nat) (f : VLine → VLine) : (s.modLine l f).pending = s.pending := rfl
@[simp] theorem modLine_chan_of (s : State) (l : Nat) (f : VLine → VLine) (m : BitVec 12) : (s.modLine l f).chan m = s.chan m := rfl
@[simp] theorem modLine_eng_of (s : State) (l : Nat) (f : VLine → VLine) (k : EngId) : (s.modLine l f).eng k = s.eng k := rfl
@[simp] theorem modLine_gal_of (s : State) (l : Nat) (f : VLine → VLine) (k : Nat) : (s.modLine l f).gal k = s.gal k := rfl
@[simp] theorem modLine_slot_of (s : State) (l : Nat) (f : VLine → VLine) (k : EngId) : (s.modLine l f).slot k = s.slot k := rfl
@[simp] theorem modLine_link_of (s : State) (l : Nat) (f : VLine → VLine) (k : BitVec 5) : (s.modLine l f).link k = s.link k := rfl
@[simp] theorem modLine_arb_of (s : State) (l : Nat) (f : VLine → VLine) (k : Nat) : (s.modLine l f).arb k = s.arb k := rfl
@[simp] theorem modLine_port_of (s : State) (l : Nat) (f : VLine → VLine) (k : Nat) : (s.modLine l f).port k = s.port k := rfl
@[simp] theorem modLine_dom_of (s : State) (l : Nat) (f : VLine → VLine) (k : Nat) : (s.modLine l f).dom k = s.dom k := rfl
@[simp] theorem modLine_domOn_of (s : State) (l : Nat) (f : VLine → VLine) (k : Nat) : (s.modLine l f).domOn k = s.domOn k := rfl
@[simp] theorem modLine_pair_of (s : State) (l : Nat) (f : VLine → VLine) (k : Nat) : (s.modLine l f).pair k = s.pair k := rfl
@[simp] theorem modLine_sc_of (s : State) (l : Nat) (f : VLine → VLine) (k : Nat) : (s.modLine l f).sc k = s.sc k := rfl
@[simp] theorem modLine_rq_of (s : State) (l : Nat) (f : VLine → VLine) (k : Nat) : (s.modLine l f).rq k = s.rq k := rfl
@[simp] theorem modLine_sub_of (s : State) (l : Nat) (f : VLine → VLine) (k : Nat) : (s.modLine l f).sub k = s.sub k := rfl
@[simp] theorem modLine_evo_of (s : State) (l : Nat) (f : VLine → VLine) (k : Nat) : (s.modLine l f).evo k = s.evo k := rfl
@[simp] theorem modLine_irq_of (s : State) (l : Nat) (f : VLine → VLine) (k : Nat) : (s.modLine l f).irq k = s.irq k := rfl
@[simp] theorem modLine_dspOf_of (s : State) (l : Nat) (f : VLine → VLine) (m : BitVec 12) : (s.modLine l f).dspOf m = s.dspOf m := rfl
@[simp] theorem modLine_sup_of (s : State) (l : Nat) (f : VLine → VLine) (k : Nat) : (s.modLine l f).sup k = s.sup k := rfl
@[simp] theorem modLine_clk_of (s : State) (l : Nat) (f : VLine → VLine) (k : Nat) : (s.modLine l f).clk k = s.clk k := rfl
@[simp] theorem modLine_key_of (s : State) (l : Nat) (f : VLine → VLine) (k : Nat) : (s.modLine l f).key k = s.key k := rfl
@[simp] theorem modLine_keyWin_of (s : State) (l : Nat) (f : VLine → VLine) (k : Nat) : (s.modLine l f).keyWin k = s.keyWin k := rfl
@[simp] theorem modLine_win_of (s : State) (l : Nat) (f : VLine → VLine) (k : Nat) : (s.modLine l f).win k = s.win k := rfl
@[simp] theorem modLine_app_of (s : State) (l : Nat) (f : VLine → VLine) (r : Reg) : (s.modLine l f).app r = s.app r := rfl
@[simp] theorem modLine_stg_of (s : State) (l : Nat) (f : VLine → VLine) (r : Reg) : (s.modLine l f).stg r = s.stg r := rfl
@[simp] theorem modLine_reg_of (s : State) (l : Nat) (f : VLine → VLine) (r : Reg) : (s.modLine l f).reg r = s.reg r := rfl
@[simp] theorem modLine_now_of (s : State) (l : Nat) (f : VLine → VLine) : (s.modLine l f).now = s.now := rfl
@[simp] theorem modLine_coreOn_of (s : State) (l : Nat) (f : VLine → VLine) : (s.modLine l f).coreOn = s.coreOn := rfl

/-! ## modDsp -/

@[simp] theorem modDsp_boot (s : State) (n : BitVec 12) (f : Dsp → Dsp) : (s.modDsp n f).boot = s.boot := rfl
@[simp] theorem modDsp_tbs (s : State) (n : BitVec 12) (f : Dsp → Dsp) : (s.modDsp n f).tbs = s.tbs := rfl
@[simp] theorem modDsp_chans (s : State) (n : BitVec 12) (f : Dsp → Dsp) : (s.modDsp n f).chans = s.chans := rfl
@[simp] theorem modDsp_wins (s : State) (n : BitVec 12) (f : Dsp → Dsp) : (s.modDsp n f).wins = s.wins := rfl
@[simp] theorem modDsp_engs (s : State) (n : BitVec 12) (f : Dsp → Dsp) : (s.modDsp n f).engs = s.engs := rfl
@[simp] theorem modDsp_gals (s : State) (n : BitVec 12) (f : Dsp → Dsp) : (s.modDsp n f).gals = s.gals := rfl
@[simp] theorem modDsp_slots (s : State) (n : BitVec 12) (f : Dsp → Dsp) : (s.modDsp n f).slots = s.slots := rfl
@[simp] theorem modDsp_evc (s : State) (n : BitVec 12) (f : Dsp → Dsp) : (s.modDsp n f).evc = s.evc := rfl
@[simp] theorem modDsp_links (s : State) (n : BitVec 12) (f : Dsp → Dsp) : (s.modDsp n f).links = s.links := rfl
@[simp] theorem modDsp_arbs (s : State) (n : BitVec 12) (f : Dsp → Dsp) : (s.modDsp n f).arbs = s.arbs := rfl
@[simp] theorem modDsp_ports (s : State) (n : BitVec 12) (f : Dsp → Dsp) : (s.modDsp n f).ports = s.ports := rfl
@[simp] theorem modDsp_txns (s : State) (n : BitVec 12) (f : Dsp → Dsp) : (s.modDsp n f).txns = s.txns := rfl
@[simp] theorem modDsp_nextTxn (s : State) (n : BitVec 12) (f : Dsp → Dsp) : (s.modDsp n f).nextTxn = s.nextTxn := rfl
@[simp] theorem modDsp_lines (s : State) (n : BitVec 12) (f : Dsp → Dsp) : (s.modDsp n f).lines = s.lines := rfl
@[simp] theorem modDsp_vitFlush (s : State) (n : BitVec 12) (f : Dsp → Dsp) : (s.modDsp n f).vitFlush = s.vitFlush := rfl
@[simp] theorem modDsp_vitOld (s : State) (n : BitVec 12) (f : Dsp → Dsp) : (s.modDsp n f).vitOld = s.vitOld := rfl
@[simp] theorem modDsp_sliceCord (s : State) (n : BitVec 12) (f : Dsp → Dsp) : (s.modDsp n f).sliceCord = s.sliceCord := rfl
@[simp] theorem modDsp_rw (s : State) (n : BitVec 12) (f : Dsp → Dsp) : (s.modDsp n f).rw = s.rw := rfl
@[simp] theorem modDsp_hold (s : State) (n : BitVec 12) (f : Dsp → Dsp) : (s.modDsp n f).hold = s.hold := rfl
@[simp] theorem modDsp_stage (s : State) (n : BitVec 12) (f : Dsp → Dsp) : (s.modDsp n f).stage = s.stage := rfl
@[simp] theorem modDsp_loader (s : State) (n : BitVec 12) (f : Dsp → Dsp) : (s.modDsp n f).loader = s.loader := rfl
@[simp] theorem modDsp_keys (s : State) (n : BitVec 12) (f : Dsp → Dsp) : (s.modDsp n f).keys = s.keys := rfl
@[simp] theorem modDsp_keyWins (s : State) (n : BitVec 12) (f : Dsp → Dsp) : (s.modDsp n f).keyWins = s.keyWins := rfl
@[simp] theorem modDsp_fcr (s : State) (n : BitVec 12) (f : Dsp → Dsp) : (s.modDsp n f).fcr = s.fcr := rfl
@[simp] theorem modDsp_doc (s : State) (n : BitVec 12) (f : Dsp → Dsp) : (s.modDsp n f).doc = s.doc := rfl
@[simp] theorem modDsp_doms (s : State) (n : BitVec 12) (f : Dsp → Dsp) : (s.modDsp n f).doms = s.doms := rfl
@[simp] theorem modDsp_pcm (s : State) (n : BitVec 12) (f : Dsp → Dsp) : (s.modDsp n f).pcm = s.pcm := rfl
@[simp] theorem modDsp_ledger (s : State) (n : BitVec 12) (f : Dsp → Dsp) : (s.modDsp n f).ledger = s.ledger := rfl
@[simp] theorem modDsp_sbp (s : State) (n : BitVec 12) (f : Dsp → Dsp) : (s.modDsp n f).sbp = s.sbp := rfl
@[simp] theorem modDsp_mst (s : State) (n : BitVec 12) (f : Dsp → Dsp) : (s.modDsp n f).mst = s.mst := rfl
@[simp] theorem modDsp_resp (s : State) (n : BitVec 12) (f : Dsp → Dsp) : (s.modDsp n f).resp = s.resp := rfl
@[simp] theorem modDsp_snpRsp (s : State) (n : BitVec 12) (f : Dsp → Dsp) : (s.modDsp n f).snpRsp = s.snpRsp := rfl
@[simp] theorem modDsp_trace (s : State) (n : BitVec 12) (f : Dsp → Dsp) : (s.modDsp n f).trace = s.trace := rfl
@[simp] theorem modDsp_fresh (s : State) (n : BitVec 12) (f : Dsp → Dsp) : (s.modDsp n f).fresh = s.fresh := rfl
@[simp] theorem modDsp_pending (s : State) (n : BitVec 12) (f : Dsp → Dsp) : (s.modDsp n f).pending = s.pending := rfl
@[simp] theorem modDsp_chan_of (s : State) (n : BitVec 12) (f : Dsp → Dsp) (m : BitVec 12) : (s.modDsp n f).chan m = s.chan m := rfl
@[simp] theorem modDsp_eng_of (s : State) (n : BitVec 12) (f : Dsp → Dsp) (k : EngId) : (s.modDsp n f).eng k = s.eng k := rfl
@[simp] theorem modDsp_gal_of (s : State) (n : BitVec 12) (f : Dsp → Dsp) (k : Nat) : (s.modDsp n f).gal k = s.gal k := rfl
@[simp] theorem modDsp_slot_of (s : State) (n : BitVec 12) (f : Dsp → Dsp) (k : EngId) : (s.modDsp n f).slot k = s.slot k := rfl
@[simp] theorem modDsp_link_of (s : State) (n : BitVec 12) (f : Dsp → Dsp) (k : BitVec 5) : (s.modDsp n f).link k = s.link k := rfl
@[simp] theorem modDsp_arb_of (s : State) (n : BitVec 12) (f : Dsp → Dsp) (k : Nat) : (s.modDsp n f).arb k = s.arb k := rfl
@[simp] theorem modDsp_port_of (s : State) (n : BitVec 12) (f : Dsp → Dsp) (k : Nat) : (s.modDsp n f).port k = s.port k := rfl
@[simp] theorem modDsp_dom_of (s : State) (n : BitVec 12) (f : Dsp → Dsp) (k : Nat) : (s.modDsp n f).dom k = s.dom k := rfl
@[simp] theorem modDsp_domOn_of (s : State) (n : BitVec 12) (f : Dsp → Dsp) (k : Nat) : (s.modDsp n f).domOn k = s.domOn k := rfl
@[simp] theorem modDsp_pair_of (s : State) (n : BitVec 12) (f : Dsp → Dsp) (k : Nat) : (s.modDsp n f).pair k = s.pair k := rfl
@[simp] theorem modDsp_sc_of (s : State) (n : BitVec 12) (f : Dsp → Dsp) (k : Nat) : (s.modDsp n f).sc k = s.sc k := rfl
@[simp] theorem modDsp_rq_of (s : State) (n : BitVec 12) (f : Dsp → Dsp) (k : Nat) : (s.modDsp n f).rq k = s.rq k := rfl
@[simp] theorem modDsp_sub_of (s : State) (n : BitVec 12) (f : Dsp → Dsp) (k : Nat) : (s.modDsp n f).sub k = s.sub k := rfl
@[simp] theorem modDsp_evo_of (s : State) (n : BitVec 12) (f : Dsp → Dsp) (k : Nat) : (s.modDsp n f).evo k = s.evo k := rfl
@[simp] theorem modDsp_irq_of (s : State) (n : BitVec 12) (f : Dsp → Dsp) (k : Nat) : (s.modDsp n f).irq k = s.irq k := rfl
@[simp] theorem modDsp_line_of (s : State) (n : BitVec 12) (f : Dsp → Dsp) (k : Nat) : (s.modDsp n f).line k = s.line k := rfl
@[simp] theorem modDsp_sup_of (s : State) (n : BitVec 12) (f : Dsp → Dsp) (k : Nat) : (s.modDsp n f).sup k = s.sup k := rfl
@[simp] theorem modDsp_clk_of (s : State) (n : BitVec 12) (f : Dsp → Dsp) (k : Nat) : (s.modDsp n f).clk k = s.clk k := rfl
@[simp] theorem modDsp_key_of (s : State) (n : BitVec 12) (f : Dsp → Dsp) (k : Nat) : (s.modDsp n f).key k = s.key k := rfl
@[simp] theorem modDsp_keyWin_of (s : State) (n : BitVec 12) (f : Dsp → Dsp) (k : Nat) : (s.modDsp n f).keyWin k = s.keyWin k := rfl
@[simp] theorem modDsp_win_of (s : State) (n : BitVec 12) (f : Dsp → Dsp) (k : Nat) : (s.modDsp n f).win k = s.win k := rfl
@[simp] theorem modDsp_app_of (s : State) (n : BitVec 12) (f : Dsp → Dsp) (r : Reg) : (s.modDsp n f).app r = s.app r := rfl
@[simp] theorem modDsp_stg_of (s : State) (n : BitVec 12) (f : Dsp → Dsp) (r : Reg) : (s.modDsp n f).stg r = s.stg r := rfl
@[simp] theorem modDsp_reg_of (s : State) (n : BitVec 12) (f : Dsp → Dsp) (r : Reg) : (s.modDsp n f).reg r = s.reg r := rfl
@[simp] theorem modDsp_now_of (s : State) (n : BitVec 12) (f : Dsp → Dsp) : (s.modDsp n f).now = s.now := rfl
@[simp] theorem modDsp_coreOn_of (s : State) (n : BitVec 12) (f : Dsp → Dsp) : (s.modDsp n f).coreOn = s.coreOn := rfl

/-! ## modSup -/

@[simp] theorem modSup_boot (s : State) (x : Nat) (f : Supply → Supply) : (s.modSup x f).boot = s.boot := rfl
@[simp] theorem modSup_tbs (s : State) (x : Nat) (f : Supply → Supply) : (s.modSup x f).tbs = s.tbs := rfl
@[simp] theorem modSup_chans (s : State) (x : Nat) (f : Supply → Supply) : (s.modSup x f).chans = s.chans := rfl
@[simp] theorem modSup_wins (s : State) (x : Nat) (f : Supply → Supply) : (s.modSup x f).wins = s.wins := rfl
@[simp] theorem modSup_engs (s : State) (x : Nat) (f : Supply → Supply) : (s.modSup x f).engs = s.engs := rfl
@[simp] theorem modSup_gals (s : State) (x : Nat) (f : Supply → Supply) : (s.modSup x f).gals = s.gals := rfl
@[simp] theorem modSup_slots (s : State) (x : Nat) (f : Supply → Supply) : (s.modSup x f).slots = s.slots := rfl
@[simp] theorem modSup_evc (s : State) (x : Nat) (f : Supply → Supply) : (s.modSup x f).evc = s.evc := rfl
@[simp] theorem modSup_links (s : State) (x : Nat) (f : Supply → Supply) : (s.modSup x f).links = s.links := rfl
@[simp] theorem modSup_arbs (s : State) (x : Nat) (f : Supply → Supply) : (s.modSup x f).arbs = s.arbs := rfl
@[simp] theorem modSup_ports (s : State) (x : Nat) (f : Supply → Supply) : (s.modSup x f).ports = s.ports := rfl
@[simp] theorem modSup_txns (s : State) (x : Nat) (f : Supply → Supply) : (s.modSup x f).txns = s.txns := rfl
@[simp] theorem modSup_nextTxn (s : State) (x : Nat) (f : Supply → Supply) : (s.modSup x f).nextTxn = s.nextTxn := rfl
@[simp] theorem modSup_lines (s : State) (x : Nat) (f : Supply → Supply) : (s.modSup x f).lines = s.lines := rfl
@[simp] theorem modSup_vitFlush (s : State) (x : Nat) (f : Supply → Supply) : (s.modSup x f).vitFlush = s.vitFlush := rfl
@[simp] theorem modSup_vitOld (s : State) (x : Nat) (f : Supply → Supply) : (s.modSup x f).vitOld = s.vitOld := rfl
@[simp] theorem modSup_sliceCord (s : State) (x : Nat) (f : Supply → Supply) : (s.modSup x f).sliceCord = s.sliceCord := rfl
@[simp] theorem modSup_dsp (s : State) (x : Nat) (f : Supply → Supply) : (s.modSup x f).dsp = s.dsp := rfl
@[simp] theorem modSup_rw (s : State) (x : Nat) (f : Supply → Supply) : (s.modSup x f).rw = s.rw := rfl
@[simp] theorem modSup_hold (s : State) (x : Nat) (f : Supply → Supply) : (s.modSup x f).hold = s.hold := rfl
@[simp] theorem modSup_stage (s : State) (x : Nat) (f : Supply → Supply) : (s.modSup x f).stage = s.stage := rfl
@[simp] theorem modSup_loader (s : State) (x : Nat) (f : Supply → Supply) : (s.modSup x f).loader = s.loader := rfl
@[simp] theorem modSup_keys (s : State) (x : Nat) (f : Supply → Supply) : (s.modSup x f).keys = s.keys := rfl
@[simp] theorem modSup_keyWins (s : State) (x : Nat) (f : Supply → Supply) : (s.modSup x f).keyWins = s.keyWins := rfl
@[simp] theorem modSup_fcr (s : State) (x : Nat) (f : Supply → Supply) : (s.modSup x f).fcr = s.fcr := rfl
@[simp] theorem modSup_doc (s : State) (x : Nat) (f : Supply → Supply) : (s.modSup x f).doc = s.doc := rfl
@[simp] theorem modSup_doms (s : State) (x : Nat) (f : Supply → Supply) : (s.modSup x f).doms = s.doms := rfl
@[simp] theorem modSup_ledger (s : State) (x : Nat) (f : Supply → Supply) : (s.modSup x f).ledger = s.ledger := rfl
@[simp] theorem modSup_sbp (s : State) (x : Nat) (f : Supply → Supply) : (s.modSup x f).sbp = s.sbp := rfl
@[simp] theorem modSup_mst (s : State) (x : Nat) (f : Supply → Supply) : (s.modSup x f).mst = s.mst := rfl
@[simp] theorem modSup_resp (s : State) (x : Nat) (f : Supply → Supply) : (s.modSup x f).resp = s.resp := rfl
@[simp] theorem modSup_snpRsp (s : State) (x : Nat) (f : Supply → Supply) : (s.modSup x f).snpRsp = s.snpRsp := rfl
@[simp] theorem modSup_trace (s : State) (x : Nat) (f : Supply → Supply) : (s.modSup x f).trace = s.trace := rfl
@[simp] theorem modSup_fresh (s : State) (x : Nat) (f : Supply → Supply) : (s.modSup x f).fresh = s.fresh := rfl
@[simp] theorem modSup_pending (s : State) (x : Nat) (f : Supply → Supply) : (s.modSup x f).pending = s.pending := rfl
@[simp] theorem modSup_chan_of (s : State) (x : Nat) (f : Supply → Supply) (m : BitVec 12) : (s.modSup x f).chan m = s.chan m := rfl
@[simp] theorem modSup_eng_of (s : State) (x : Nat) (f : Supply → Supply) (k : EngId) : (s.modSup x f).eng k = s.eng k := rfl
@[simp] theorem modSup_gal_of (s : State) (x : Nat) (f : Supply → Supply) (k : Nat) : (s.modSup x f).gal k = s.gal k := rfl
@[simp] theorem modSup_slot_of (s : State) (x : Nat) (f : Supply → Supply) (k : EngId) : (s.modSup x f).slot k = s.slot k := rfl
@[simp] theorem modSup_link_of (s : State) (x : Nat) (f : Supply → Supply) (k : BitVec 5) : (s.modSup x f).link k = s.link k := rfl
@[simp] theorem modSup_arb_of (s : State) (x : Nat) (f : Supply → Supply) (k : Nat) : (s.modSup x f).arb k = s.arb k := rfl
@[simp] theorem modSup_port_of (s : State) (x : Nat) (f : Supply → Supply) (k : Nat) : (s.modSup x f).port k = s.port k := rfl
@[simp] theorem modSup_dom_of (s : State) (x : Nat) (f : Supply → Supply) (k : Nat) : (s.modSup x f).dom k = s.dom k := rfl
@[simp] theorem modSup_domOn_of (s : State) (x : Nat) (f : Supply → Supply) (k : Nat) : (s.modSup x f).domOn k = s.domOn k := rfl
@[simp] theorem modSup_pair_of (s : State) (x : Nat) (f : Supply → Supply) (k : Nat) : (s.modSup x f).pair k = s.pair k := rfl
@[simp] theorem modSup_sc_of (s : State) (x : Nat) (f : Supply → Supply) (k : Nat) : (s.modSup x f).sc k = s.sc k := rfl
@[simp] theorem modSup_rq_of (s : State) (x : Nat) (f : Supply → Supply) (k : Nat) : (s.modSup x f).rq k = s.rq k := rfl
@[simp] theorem modSup_sub_of (s : State) (x : Nat) (f : Supply → Supply) (k : Nat) : (s.modSup x f).sub k = s.sub k := rfl
@[simp] theorem modSup_evo_of (s : State) (x : Nat) (f : Supply → Supply) (k : Nat) : (s.modSup x f).evo k = s.evo k := rfl
@[simp] theorem modSup_irq_of (s : State) (x : Nat) (f : Supply → Supply) (k : Nat) : (s.modSup x f).irq k = s.irq k := rfl
@[simp] theorem modSup_line_of (s : State) (x : Nat) (f : Supply → Supply) (k : Nat) : (s.modSup x f).line k = s.line k := rfl
@[simp] theorem modSup_dspOf_of (s : State) (x : Nat) (f : Supply → Supply) (m : BitVec 12) : (s.modSup x f).dspOf m = s.dspOf m := rfl
@[simp] theorem modSup_clk_of (s : State) (x : Nat) (f : Supply → Supply) (k : Nat) : (s.modSup x f).clk k = s.clk k := rfl
@[simp] theorem modSup_key_of (s : State) (x : Nat) (f : Supply → Supply) (k : Nat) : (s.modSup x f).key k = s.key k := rfl
@[simp] theorem modSup_keyWin_of (s : State) (x : Nat) (f : Supply → Supply) (k : Nat) : (s.modSup x f).keyWin k = s.keyWin k := rfl
@[simp] theorem modSup_win_of (s : State) (x : Nat) (f : Supply → Supply) (k : Nat) : (s.modSup x f).win k = s.win k := rfl
@[simp] theorem modSup_app_of (s : State) (x : Nat) (f : Supply → Supply) (r : Reg) : (s.modSup x f).app r = s.app r := rfl
@[simp] theorem modSup_stg_of (s : State) (x : Nat) (f : Supply → Supply) (r : Reg) : (s.modSup x f).stg r = s.stg r := rfl
@[simp] theorem modSup_reg_of (s : State) (x : Nat) (f : Supply → Supply) (r : Reg) : (s.modSup x f).reg r = s.reg r := rfl
@[simp] theorem modSup_now_of (s : State) (x : Nat) (f : Supply → Supply) : (s.modSup x f).now = s.now := rfl
@[simp] theorem modSup_coreOn_of (s : State) (x : Nat) (f : Supply → Supply) : (s.modSup x f).coreOn = s.coreOn := rfl

/-! ## modClk -/

@[simp] theorem modClk_boot (s : State) (c : Nat) (f : ClkReq → ClkReq) : (s.modClk c f).boot = s.boot := rfl
@[simp] theorem modClk_tbs (s : State) (c : Nat) (f : ClkReq → ClkReq) : (s.modClk c f).tbs = s.tbs := rfl
@[simp] theorem modClk_chans (s : State) (c : Nat) (f : ClkReq → ClkReq) : (s.modClk c f).chans = s.chans := rfl
@[simp] theorem modClk_wins (s : State) (c : Nat) (f : ClkReq → ClkReq) : (s.modClk c f).wins = s.wins := rfl
@[simp] theorem modClk_engs (s : State) (c : Nat) (f : ClkReq → ClkReq) : (s.modClk c f).engs = s.engs := rfl
@[simp] theorem modClk_gals (s : State) (c : Nat) (f : ClkReq → ClkReq) : (s.modClk c f).gals = s.gals := rfl
@[simp] theorem modClk_slots (s : State) (c : Nat) (f : ClkReq → ClkReq) : (s.modClk c f).slots = s.slots := rfl
@[simp] theorem modClk_evc (s : State) (c : Nat) (f : ClkReq → ClkReq) : (s.modClk c f).evc = s.evc := rfl
@[simp] theorem modClk_links (s : State) (c : Nat) (f : ClkReq → ClkReq) : (s.modClk c f).links = s.links := rfl
@[simp] theorem modClk_arbs (s : State) (c : Nat) (f : ClkReq → ClkReq) : (s.modClk c f).arbs = s.arbs := rfl
@[simp] theorem modClk_ports (s : State) (c : Nat) (f : ClkReq → ClkReq) : (s.modClk c f).ports = s.ports := rfl
@[simp] theorem modClk_txns (s : State) (c : Nat) (f : ClkReq → ClkReq) : (s.modClk c f).txns = s.txns := rfl
@[simp] theorem modClk_nextTxn (s : State) (c : Nat) (f : ClkReq → ClkReq) : (s.modClk c f).nextTxn = s.nextTxn := rfl
@[simp] theorem modClk_lines (s : State) (c : Nat) (f : ClkReq → ClkReq) : (s.modClk c f).lines = s.lines := rfl
@[simp] theorem modClk_vitFlush (s : State) (c : Nat) (f : ClkReq → ClkReq) : (s.modClk c f).vitFlush = s.vitFlush := rfl
@[simp] theorem modClk_vitOld (s : State) (c : Nat) (f : ClkReq → ClkReq) : (s.modClk c f).vitOld = s.vitOld := rfl
@[simp] theorem modClk_sliceCord (s : State) (c : Nat) (f : ClkReq → ClkReq) : (s.modClk c f).sliceCord = s.sliceCord := rfl
@[simp] theorem modClk_dsp (s : State) (c : Nat) (f : ClkReq → ClkReq) : (s.modClk c f).dsp = s.dsp := rfl
@[simp] theorem modClk_rw (s : State) (c : Nat) (f : ClkReq → ClkReq) : (s.modClk c f).rw = s.rw := rfl
@[simp] theorem modClk_hold (s : State) (c : Nat) (f : ClkReq → ClkReq) : (s.modClk c f).hold = s.hold := rfl
@[simp] theorem modClk_stage (s : State) (c : Nat) (f : ClkReq → ClkReq) : (s.modClk c f).stage = s.stage := rfl
@[simp] theorem modClk_loader (s : State) (c : Nat) (f : ClkReq → ClkReq) : (s.modClk c f).loader = s.loader := rfl
@[simp] theorem modClk_keys (s : State) (c : Nat) (f : ClkReq → ClkReq) : (s.modClk c f).keys = s.keys := rfl
@[simp] theorem modClk_keyWins (s : State) (c : Nat) (f : ClkReq → ClkReq) : (s.modClk c f).keyWins = s.keyWins := rfl
@[simp] theorem modClk_fcr (s : State) (c : Nat) (f : ClkReq → ClkReq) : (s.modClk c f).fcr = s.fcr := rfl
@[simp] theorem modClk_doc (s : State) (c : Nat) (f : ClkReq → ClkReq) : (s.modClk c f).doc = s.doc := rfl
@[simp] theorem modClk_doms (s : State) (c : Nat) (f : ClkReq → ClkReq) : (s.modClk c f).doms = s.doms := rfl
@[simp] theorem modClk_ledger (s : State) (c : Nat) (f : ClkReq → ClkReq) : (s.modClk c f).ledger = s.ledger := rfl
@[simp] theorem modClk_sbp (s : State) (c : Nat) (f : ClkReq → ClkReq) : (s.modClk c f).sbp = s.sbp := rfl
@[simp] theorem modClk_mst (s : State) (c : Nat) (f : ClkReq → ClkReq) : (s.modClk c f).mst = s.mst := rfl
@[simp] theorem modClk_resp (s : State) (c : Nat) (f : ClkReq → ClkReq) : (s.modClk c f).resp = s.resp := rfl
@[simp] theorem modClk_snpRsp (s : State) (c : Nat) (f : ClkReq → ClkReq) : (s.modClk c f).snpRsp = s.snpRsp := rfl
@[simp] theorem modClk_trace (s : State) (c : Nat) (f : ClkReq → ClkReq) : (s.modClk c f).trace = s.trace := rfl
@[simp] theorem modClk_fresh (s : State) (c : Nat) (f : ClkReq → ClkReq) : (s.modClk c f).fresh = s.fresh := rfl
@[simp] theorem modClk_pending (s : State) (c : Nat) (f : ClkReq → ClkReq) : (s.modClk c f).pending = s.pending := rfl
@[simp] theorem modClk_chan_of (s : State) (c : Nat) (f : ClkReq → ClkReq) (m : BitVec 12) : (s.modClk c f).chan m = s.chan m := rfl
@[simp] theorem modClk_eng_of (s : State) (c : Nat) (f : ClkReq → ClkReq) (k : EngId) : (s.modClk c f).eng k = s.eng k := rfl
@[simp] theorem modClk_gal_of (s : State) (c : Nat) (f : ClkReq → ClkReq) (k : Nat) : (s.modClk c f).gal k = s.gal k := rfl
@[simp] theorem modClk_slot_of (s : State) (c : Nat) (f : ClkReq → ClkReq) (k : EngId) : (s.modClk c f).slot k = s.slot k := rfl
@[simp] theorem modClk_link_of (s : State) (c : Nat) (f : ClkReq → ClkReq) (k : BitVec 5) : (s.modClk c f).link k = s.link k := rfl
@[simp] theorem modClk_arb_of (s : State) (c : Nat) (f : ClkReq → ClkReq) (k : Nat) : (s.modClk c f).arb k = s.arb k := rfl
@[simp] theorem modClk_port_of (s : State) (c : Nat) (f : ClkReq → ClkReq) (k : Nat) : (s.modClk c f).port k = s.port k := rfl
@[simp] theorem modClk_dom_of (s : State) (c : Nat) (f : ClkReq → ClkReq) (k : Nat) : (s.modClk c f).dom k = s.dom k := rfl
@[simp] theorem modClk_domOn_of (s : State) (c : Nat) (f : ClkReq → ClkReq) (k : Nat) : (s.modClk c f).domOn k = s.domOn k := rfl
@[simp] theorem modClk_pair_of (s : State) (c : Nat) (f : ClkReq → ClkReq) (k : Nat) : (s.modClk c f).pair k = s.pair k := rfl
@[simp] theorem modClk_sc_of (s : State) (c : Nat) (f : ClkReq → ClkReq) (k : Nat) : (s.modClk c f).sc k = s.sc k := rfl
@[simp] theorem modClk_rq_of (s : State) (c : Nat) (f : ClkReq → ClkReq) (k : Nat) : (s.modClk c f).rq k = s.rq k := rfl
@[simp] theorem modClk_sub_of (s : State) (c : Nat) (f : ClkReq → ClkReq) (k : Nat) : (s.modClk c f).sub k = s.sub k := rfl
@[simp] theorem modClk_evo_of (s : State) (c : Nat) (f : ClkReq → ClkReq) (k : Nat) : (s.modClk c f).evo k = s.evo k := rfl
@[simp] theorem modClk_irq_of (s : State) (c : Nat) (f : ClkReq → ClkReq) (k : Nat) : (s.modClk c f).irq k = s.irq k := rfl
@[simp] theorem modClk_line_of (s : State) (c : Nat) (f : ClkReq → ClkReq) (k : Nat) : (s.modClk c f).line k = s.line k := rfl
@[simp] theorem modClk_dspOf_of (s : State) (c : Nat) (f : ClkReq → ClkReq) (m : BitVec 12) : (s.modClk c f).dspOf m = s.dspOf m := rfl
@[simp] theorem modClk_sup_of (s : State) (c : Nat) (f : ClkReq → ClkReq) (k : Nat) : (s.modClk c f).sup k = s.sup k := rfl
@[simp] theorem modClk_key_of (s : State) (c : Nat) (f : ClkReq → ClkReq) (k : Nat) : (s.modClk c f).key k = s.key k := rfl
@[simp] theorem modClk_keyWin_of (s : State) (c : Nat) (f : ClkReq → ClkReq) (k : Nat) : (s.modClk c f).keyWin k = s.keyWin k := rfl
@[simp] theorem modClk_win_of (s : State) (c : Nat) (f : ClkReq → ClkReq) (k : Nat) : (s.modClk c f).win k = s.win k := rfl
@[simp] theorem modClk_app_of (s : State) (c : Nat) (f : ClkReq → ClkReq) (r : Reg) : (s.modClk c f).app r = s.app r := rfl
@[simp] theorem modClk_stg_of (s : State) (c : Nat) (f : ClkReq → ClkReq) (r : Reg) : (s.modClk c f).stg r = s.stg r := rfl
@[simp] theorem modClk_reg_of (s : State) (c : Nat) (f : ClkReq → ClkReq) (r : Reg) : (s.modClk c f).reg r = s.reg r := rfl
@[simp] theorem modClk_now_of (s : State) (c : Nat) (f : ClkReq → ClkReq) : (s.modClk c f).now = s.now := rfl
@[simp] theorem modClk_coreOn_of (s : State) (c : Nat) (f : ClkReq → ClkReq) : (s.modClk c f).coreOn = s.coreOn := rfl

/-! ## setKey -/

@[simp] theorem setKey_boot (s : State) (k : Nat) (x : KeySlot) : (s.setKey k x).boot = s.boot := rfl
@[simp] theorem setKey_tbs (s : State) (k : Nat) (x : KeySlot) : (s.setKey k x).tbs = s.tbs := rfl
@[simp] theorem setKey_chans (s : State) (k : Nat) (x : KeySlot) : (s.setKey k x).chans = s.chans := rfl
@[simp] theorem setKey_wins (s : State) (k : Nat) (x : KeySlot) : (s.setKey k x).wins = s.wins := rfl
@[simp] theorem setKey_engs (s : State) (k : Nat) (x : KeySlot) : (s.setKey k x).engs = s.engs := rfl
@[simp] theorem setKey_gals (s : State) (k : Nat) (x : KeySlot) : (s.setKey k x).gals = s.gals := rfl
@[simp] theorem setKey_slots (s : State) (k : Nat) (x : KeySlot) : (s.setKey k x).slots = s.slots := rfl
@[simp] theorem setKey_evc (s : State) (k : Nat) (x : KeySlot) : (s.setKey k x).evc = s.evc := rfl
@[simp] theorem setKey_links (s : State) (k : Nat) (x : KeySlot) : (s.setKey k x).links = s.links := rfl
@[simp] theorem setKey_arbs (s : State) (k : Nat) (x : KeySlot) : (s.setKey k x).arbs = s.arbs := rfl
@[simp] theorem setKey_ports (s : State) (k : Nat) (x : KeySlot) : (s.setKey k x).ports = s.ports := rfl
@[simp] theorem setKey_txns (s : State) (k : Nat) (x : KeySlot) : (s.setKey k x).txns = s.txns := rfl
@[simp] theorem setKey_nextTxn (s : State) (k : Nat) (x : KeySlot) : (s.setKey k x).nextTxn = s.nextTxn := rfl
@[simp] theorem setKey_lines (s : State) (k : Nat) (x : KeySlot) : (s.setKey k x).lines = s.lines := rfl
@[simp] theorem setKey_vitFlush (s : State) (k : Nat) (x : KeySlot) : (s.setKey k x).vitFlush = s.vitFlush := rfl
@[simp] theorem setKey_vitOld (s : State) (k : Nat) (x : KeySlot) : (s.setKey k x).vitOld = s.vitOld := rfl
@[simp] theorem setKey_sliceCord (s : State) (k : Nat) (x : KeySlot) : (s.setKey k x).sliceCord = s.sliceCord := rfl
@[simp] theorem setKey_dsp (s : State) (k : Nat) (x : KeySlot) : (s.setKey k x).dsp = s.dsp := rfl
@[simp] theorem setKey_rw (s : State) (k : Nat) (x : KeySlot) : (s.setKey k x).rw = s.rw := rfl
@[simp] theorem setKey_hold (s : State) (k : Nat) (x : KeySlot) : (s.setKey k x).hold = s.hold := rfl
@[simp] theorem setKey_stage (s : State) (k : Nat) (x : KeySlot) : (s.setKey k x).stage = s.stage := rfl
@[simp] theorem setKey_loader (s : State) (k : Nat) (x : KeySlot) : (s.setKey k x).loader = s.loader := rfl
@[simp] theorem setKey_keyWins (s : State) (k : Nat) (x : KeySlot) : (s.setKey k x).keyWins = s.keyWins := rfl
@[simp] theorem setKey_fcr (s : State) (k : Nat) (x : KeySlot) : (s.setKey k x).fcr = s.fcr := rfl
@[simp] theorem setKey_doc (s : State) (k : Nat) (x : KeySlot) : (s.setKey k x).doc = s.doc := rfl
@[simp] theorem setKey_doms (s : State) (k : Nat) (x : KeySlot) : (s.setKey k x).doms = s.doms := rfl
@[simp] theorem setKey_pcm (s : State) (k : Nat) (x : KeySlot) : (s.setKey k x).pcm = s.pcm := rfl
@[simp] theorem setKey_ledger (s : State) (k : Nat) (x : KeySlot) : (s.setKey k x).ledger = s.ledger := rfl
@[simp] theorem setKey_sbp (s : State) (k : Nat) (x : KeySlot) : (s.setKey k x).sbp = s.sbp := rfl
@[simp] theorem setKey_mst (s : State) (k : Nat) (x : KeySlot) : (s.setKey k x).mst = s.mst := rfl
@[simp] theorem setKey_resp (s : State) (k : Nat) (x : KeySlot) : (s.setKey k x).resp = s.resp := rfl
@[simp] theorem setKey_snpRsp (s : State) (k : Nat) (x : KeySlot) : (s.setKey k x).snpRsp = s.snpRsp := rfl
@[simp] theorem setKey_trace (s : State) (k : Nat) (x : KeySlot) : (s.setKey k x).trace = s.trace := rfl
@[simp] theorem setKey_fresh (s : State) (k : Nat) (x : KeySlot) : (s.setKey k x).fresh = s.fresh := rfl
@[simp] theorem setKey_pending (s : State) (k : Nat) (x : KeySlot) : (s.setKey k x).pending = s.pending := rfl
@[simp] theorem setKey_chan_of (s : State) (k : Nat) (x : KeySlot) (m : BitVec 12) : (s.setKey k x).chan m = s.chan m := rfl
@[simp] theorem setKey_eng_of (s : State) (k : Nat) (x : KeySlot) (z : EngId) : (s.setKey k x).eng z = s.eng z := rfl
@[simp] theorem setKey_gal_of (s : State) (k : Nat) (x : KeySlot) (z : Nat) : (s.setKey k x).gal z = s.gal z := rfl
@[simp] theorem setKey_slot_of (s : State) (k : Nat) (x : KeySlot) (z : EngId) : (s.setKey k x).slot z = s.slot z := rfl
@[simp] theorem setKey_link_of (s : State) (k : Nat) (x : KeySlot) (z : BitVec 5) : (s.setKey k x).link z = s.link z := rfl
@[simp] theorem setKey_arb_of (s : State) (k : Nat) (x : KeySlot) (z : Nat) : (s.setKey k x).arb z = s.arb z := rfl
@[simp] theorem setKey_port_of (s : State) (k : Nat) (x : KeySlot) (z : Nat) : (s.setKey k x).port z = s.port z := rfl
@[simp] theorem setKey_dom_of (s : State) (k : Nat) (x : KeySlot) (z : Nat) : (s.setKey k x).dom z = s.dom z := rfl
@[simp] theorem setKey_domOn_of (s : State) (k : Nat) (x : KeySlot) (z : Nat) : (s.setKey k x).domOn z = s.domOn z := rfl
@[simp] theorem setKey_pair_of (s : State) (k : Nat) (x : KeySlot) (z : Nat) : (s.setKey k x).pair z = s.pair z := rfl
@[simp] theorem setKey_sc_of (s : State) (k : Nat) (x : KeySlot) (z : Nat) : (s.setKey k x).sc z = s.sc z := rfl
@[simp] theorem setKey_rq_of (s : State) (k : Nat) (x : KeySlot) (z : Nat) : (s.setKey k x).rq z = s.rq z := rfl
@[simp] theorem setKey_sub_of (s : State) (k : Nat) (x : KeySlot) (z : Nat) : (s.setKey k x).sub z = s.sub z := rfl
@[simp] theorem setKey_evo_of (s : State) (k : Nat) (x : KeySlot) (z : Nat) : (s.setKey k x).evo z = s.evo z := rfl
@[simp] theorem setKey_irq_of (s : State) (k : Nat) (x : KeySlot) (z : Nat) : (s.setKey k x).irq z = s.irq z := rfl
@[simp] theorem setKey_line_of (s : State) (k : Nat) (x : KeySlot) (z : Nat) : (s.setKey k x).line z = s.line z := rfl
@[simp] theorem setKey_dspOf_of (s : State) (k : Nat) (x : KeySlot) (m : BitVec 12) : (s.setKey k x).dspOf m = s.dspOf m := rfl
@[simp] theorem setKey_sup_of (s : State) (k : Nat) (x : KeySlot) (z : Nat) : (s.setKey k x).sup z = s.sup z := rfl
@[simp] theorem setKey_clk_of (s : State) (k : Nat) (x : KeySlot) (z : Nat) : (s.setKey k x).clk z = s.clk z := rfl
@[simp] theorem setKey_keyWin_of (s : State) (k : Nat) (x : KeySlot) (z : Nat) : (s.setKey k x).keyWin z = s.keyWin z := rfl
@[simp] theorem setKey_win_of (s : State) (k : Nat) (x : KeySlot) (z : Nat) : (s.setKey k x).win z = s.win z := rfl
@[simp] theorem setKey_app_of (s : State) (k : Nat) (x : KeySlot) (r : Reg) : (s.setKey k x).app r = s.app r := rfl
@[simp] theorem setKey_stg_of (s : State) (k : Nat) (x : KeySlot) (r : Reg) : (s.setKey k x).stg r = s.stg r := rfl
@[simp] theorem setKey_reg_of (s : State) (k : Nat) (x : KeySlot) (r : Reg) : (s.setKey k x).reg r = s.reg r := rfl
@[simp] theorem setKey_now_of (s : State) (k : Nat) (x : KeySlot) : (s.setKey k x).now = s.now := rfl
@[simp] theorem setKey_coreOn_of (s : State) (k : Nat) (x : KeySlot) : (s.setKey k x).coreOn = s.coreOn := rfl

/-! ## modKeyWin -/

@[simp] theorem modKeyWin_boot (s : State) (i : Nat) (f : KeyWin → KeyWin) : (s.modKeyWin i f).boot = s.boot := rfl
@[simp] theorem modKeyWin_tbs (s : State) (i : Nat) (f : KeyWin → KeyWin) : (s.modKeyWin i f).tbs = s.tbs := rfl
@[simp] theorem modKeyWin_chans (s : State) (i : Nat) (f : KeyWin → KeyWin) : (s.modKeyWin i f).chans = s.chans := rfl
@[simp] theorem modKeyWin_wins (s : State) (i : Nat) (f : KeyWin → KeyWin) : (s.modKeyWin i f).wins = s.wins := rfl
@[simp] theorem modKeyWin_engs (s : State) (i : Nat) (f : KeyWin → KeyWin) : (s.modKeyWin i f).engs = s.engs := rfl
@[simp] theorem modKeyWin_gals (s : State) (i : Nat) (f : KeyWin → KeyWin) : (s.modKeyWin i f).gals = s.gals := rfl
@[simp] theorem modKeyWin_slots (s : State) (i : Nat) (f : KeyWin → KeyWin) : (s.modKeyWin i f).slots = s.slots := rfl
@[simp] theorem modKeyWin_evc (s : State) (i : Nat) (f : KeyWin → KeyWin) : (s.modKeyWin i f).evc = s.evc := rfl
@[simp] theorem modKeyWin_links (s : State) (i : Nat) (f : KeyWin → KeyWin) : (s.modKeyWin i f).links = s.links := rfl
@[simp] theorem modKeyWin_arbs (s : State) (i : Nat) (f : KeyWin → KeyWin) : (s.modKeyWin i f).arbs = s.arbs := rfl
@[simp] theorem modKeyWin_ports (s : State) (i : Nat) (f : KeyWin → KeyWin) : (s.modKeyWin i f).ports = s.ports := rfl
@[simp] theorem modKeyWin_txns (s : State) (i : Nat) (f : KeyWin → KeyWin) : (s.modKeyWin i f).txns = s.txns := rfl
@[simp] theorem modKeyWin_nextTxn (s : State) (i : Nat) (f : KeyWin → KeyWin) : (s.modKeyWin i f).nextTxn = s.nextTxn := rfl
@[simp] theorem modKeyWin_lines (s : State) (i : Nat) (f : KeyWin → KeyWin) : (s.modKeyWin i f).lines = s.lines := rfl
@[simp] theorem modKeyWin_vitFlush (s : State) (i : Nat) (f : KeyWin → KeyWin) : (s.modKeyWin i f).vitFlush = s.vitFlush := rfl
@[simp] theorem modKeyWin_vitOld (s : State) (i : Nat) (f : KeyWin → KeyWin) : (s.modKeyWin i f).vitOld = s.vitOld := rfl
@[simp] theorem modKeyWin_sliceCord (s : State) (i : Nat) (f : KeyWin → KeyWin) : (s.modKeyWin i f).sliceCord = s.sliceCord := rfl
@[simp] theorem modKeyWin_dsp (s : State) (i : Nat) (f : KeyWin → KeyWin) : (s.modKeyWin i f).dsp = s.dsp := rfl
@[simp] theorem modKeyWin_rw (s : State) (i : Nat) (f : KeyWin → KeyWin) : (s.modKeyWin i f).rw = s.rw := rfl
@[simp] theorem modKeyWin_hold (s : State) (i : Nat) (f : KeyWin → KeyWin) : (s.modKeyWin i f).hold = s.hold := rfl
@[simp] theorem modKeyWin_stage (s : State) (i : Nat) (f : KeyWin → KeyWin) : (s.modKeyWin i f).stage = s.stage := rfl
@[simp] theorem modKeyWin_loader (s : State) (i : Nat) (f : KeyWin → KeyWin) : (s.modKeyWin i f).loader = s.loader := rfl
@[simp] theorem modKeyWin_keys (s : State) (i : Nat) (f : KeyWin → KeyWin) : (s.modKeyWin i f).keys = s.keys := rfl
@[simp] theorem modKeyWin_fcr (s : State) (i : Nat) (f : KeyWin → KeyWin) : (s.modKeyWin i f).fcr = s.fcr := rfl
@[simp] theorem modKeyWin_doc (s : State) (i : Nat) (f : KeyWin → KeyWin) : (s.modKeyWin i f).doc = s.doc := rfl
@[simp] theorem modKeyWin_doms (s : State) (i : Nat) (f : KeyWin → KeyWin) : (s.modKeyWin i f).doms = s.doms := rfl
@[simp] theorem modKeyWin_pcm (s : State) (i : Nat) (f : KeyWin → KeyWin) : (s.modKeyWin i f).pcm = s.pcm := rfl
@[simp] theorem modKeyWin_ledger (s : State) (i : Nat) (f : KeyWin → KeyWin) : (s.modKeyWin i f).ledger = s.ledger := rfl
@[simp] theorem modKeyWin_sbp (s : State) (i : Nat) (f : KeyWin → KeyWin) : (s.modKeyWin i f).sbp = s.sbp := rfl
@[simp] theorem modKeyWin_mst (s : State) (i : Nat) (f : KeyWin → KeyWin) : (s.modKeyWin i f).mst = s.mst := rfl
@[simp] theorem modKeyWin_resp (s : State) (i : Nat) (f : KeyWin → KeyWin) : (s.modKeyWin i f).resp = s.resp := rfl
@[simp] theorem modKeyWin_snpRsp (s : State) (i : Nat) (f : KeyWin → KeyWin) : (s.modKeyWin i f).snpRsp = s.snpRsp := rfl
@[simp] theorem modKeyWin_trace (s : State) (i : Nat) (f : KeyWin → KeyWin) : (s.modKeyWin i f).trace = s.trace := rfl
@[simp] theorem modKeyWin_fresh (s : State) (i : Nat) (f : KeyWin → KeyWin) : (s.modKeyWin i f).fresh = s.fresh := rfl
@[simp] theorem modKeyWin_pending (s : State) (i : Nat) (f : KeyWin → KeyWin) : (s.modKeyWin i f).pending = s.pending := rfl
@[simp] theorem modKeyWin_chan_of (s : State) (i : Nat) (f : KeyWin → KeyWin) (m : BitVec 12) : (s.modKeyWin i f).chan m = s.chan m := rfl
@[simp] theorem modKeyWin_eng_of (s : State) (i : Nat) (f : KeyWin → KeyWin) (k : EngId) : (s.modKeyWin i f).eng k = s.eng k := rfl
@[simp] theorem modKeyWin_gal_of (s : State) (i : Nat) (f : KeyWin → KeyWin) (k : Nat) : (s.modKeyWin i f).gal k = s.gal k := rfl
@[simp] theorem modKeyWin_slot_of (s : State) (i : Nat) (f : KeyWin → KeyWin) (k : EngId) : (s.modKeyWin i f).slot k = s.slot k := rfl
@[simp] theorem modKeyWin_link_of (s : State) (i : Nat) (f : KeyWin → KeyWin) (k : BitVec 5) : (s.modKeyWin i f).link k = s.link k := rfl
@[simp] theorem modKeyWin_arb_of (s : State) (i : Nat) (f : KeyWin → KeyWin) (k : Nat) : (s.modKeyWin i f).arb k = s.arb k := rfl
@[simp] theorem modKeyWin_port_of (s : State) (i : Nat) (f : KeyWin → KeyWin) (k : Nat) : (s.modKeyWin i f).port k = s.port k := rfl
@[simp] theorem modKeyWin_dom_of (s : State) (i : Nat) (f : KeyWin → KeyWin) (k : Nat) : (s.modKeyWin i f).dom k = s.dom k := rfl
@[simp] theorem modKeyWin_domOn_of (s : State) (i : Nat) (f : KeyWin → KeyWin) (k : Nat) : (s.modKeyWin i f).domOn k = s.domOn k := rfl
@[simp] theorem modKeyWin_pair_of (s : State) (i : Nat) (f : KeyWin → KeyWin) (k : Nat) : (s.modKeyWin i f).pair k = s.pair k := rfl
@[simp] theorem modKeyWin_sc_of (s : State) (i : Nat) (f : KeyWin → KeyWin) (k : Nat) : (s.modKeyWin i f).sc k = s.sc k := rfl
@[simp] theorem modKeyWin_rq_of (s : State) (i : Nat) (f : KeyWin → KeyWin) (k : Nat) : (s.modKeyWin i f).rq k = s.rq k := rfl
@[simp] theorem modKeyWin_sub_of (s : State) (i : Nat) (f : KeyWin → KeyWin) (k : Nat) : (s.modKeyWin i f).sub k = s.sub k := rfl
@[simp] theorem modKeyWin_evo_of (s : State) (i : Nat) (f : KeyWin → KeyWin) (k : Nat) : (s.modKeyWin i f).evo k = s.evo k := rfl
@[simp] theorem modKeyWin_irq_of (s : State) (i : Nat) (f : KeyWin → KeyWin) (k : Nat) : (s.modKeyWin i f).irq k = s.irq k := rfl
@[simp] theorem modKeyWin_line_of (s : State) (i : Nat) (f : KeyWin → KeyWin) (k : Nat) : (s.modKeyWin i f).line k = s.line k := rfl
@[simp] theorem modKeyWin_dspOf_of (s : State) (i : Nat) (f : KeyWin → KeyWin) (m : BitVec 12) : (s.modKeyWin i f).dspOf m = s.dspOf m := rfl
@[simp] theorem modKeyWin_sup_of (s : State) (i : Nat) (f : KeyWin → KeyWin) (k : Nat) : (s.modKeyWin i f).sup k = s.sup k := rfl
@[simp] theorem modKeyWin_clk_of (s : State) (i : Nat) (f : KeyWin → KeyWin) (k : Nat) : (s.modKeyWin i f).clk k = s.clk k := rfl
@[simp] theorem modKeyWin_key_of (s : State) (i : Nat) (f : KeyWin → KeyWin) (k : Nat) : (s.modKeyWin i f).key k = s.key k := rfl
@[simp] theorem modKeyWin_win_of (s : State) (i : Nat) (f : KeyWin → KeyWin) (k : Nat) : (s.modKeyWin i f).win k = s.win k := rfl
@[simp] theorem modKeyWin_app_of (s : State) (i : Nat) (f : KeyWin → KeyWin) (r : Reg) : (s.modKeyWin i f).app r = s.app r := rfl
@[simp] theorem modKeyWin_stg_of (s : State) (i : Nat) (f : KeyWin → KeyWin) (r : Reg) : (s.modKeyWin i f).stg r = s.stg r := rfl
@[simp] theorem modKeyWin_reg_of (s : State) (i : Nat) (f : KeyWin → KeyWin) (r : Reg) : (s.modKeyWin i f).reg r = s.reg r := rfl
@[simp] theorem modKeyWin_now_of (s : State) (i : Nat) (f : KeyWin → KeyWin) : (s.modKeyWin i f).now = s.now := rfl
@[simp] theorem modKeyWin_coreOn_of (s : State) (i : Nat) (f : KeyWin → KeyWin) : (s.modKeyWin i f).coreOn = s.coreOn := rfl

/-! ## modWin -/

@[simp] theorem modWin_boot (s : State) (i : Nat) (f : CatWin → CatWin) : (s.modWin i f).boot = s.boot := rfl
@[simp] theorem modWin_tbs (s : State) (i : Nat) (f : CatWin → CatWin) : (s.modWin i f).tbs = s.tbs := rfl
@[simp] theorem modWin_chans (s : State) (i : Nat) (f : CatWin → CatWin) : (s.modWin i f).chans = s.chans := rfl
@[simp] theorem modWin_engs (s : State) (i : Nat) (f : CatWin → CatWin) : (s.modWin i f).engs = s.engs := rfl
@[simp] theorem modWin_gals (s : State) (i : Nat) (f : CatWin → CatWin) : (s.modWin i f).gals = s.gals := rfl
@[simp] theorem modWin_slots (s : State) (i : Nat) (f : CatWin → CatWin) : (s.modWin i f).slots = s.slots := rfl
@[simp] theorem modWin_evc (s : State) (i : Nat) (f : CatWin → CatWin) : (s.modWin i f).evc = s.evc := rfl
@[simp] theorem modWin_links (s : State) (i : Nat) (f : CatWin → CatWin) : (s.modWin i f).links = s.links := rfl
@[simp] theorem modWin_arbs (s : State) (i : Nat) (f : CatWin → CatWin) : (s.modWin i f).arbs = s.arbs := rfl
@[simp] theorem modWin_ports (s : State) (i : Nat) (f : CatWin → CatWin) : (s.modWin i f).ports = s.ports := rfl
@[simp] theorem modWin_txns (s : State) (i : Nat) (f : CatWin → CatWin) : (s.modWin i f).txns = s.txns := rfl
@[simp] theorem modWin_nextTxn (s : State) (i : Nat) (f : CatWin → CatWin) : (s.modWin i f).nextTxn = s.nextTxn := rfl
@[simp] theorem modWin_lines (s : State) (i : Nat) (f : CatWin → CatWin) : (s.modWin i f).lines = s.lines := rfl
@[simp] theorem modWin_vitFlush (s : State) (i : Nat) (f : CatWin → CatWin) : (s.modWin i f).vitFlush = s.vitFlush := rfl
@[simp] theorem modWin_vitOld (s : State) (i : Nat) (f : CatWin → CatWin) : (s.modWin i f).vitOld = s.vitOld := rfl
@[simp] theorem modWin_sliceCord (s : State) (i : Nat) (f : CatWin → CatWin) : (s.modWin i f).sliceCord = s.sliceCord := rfl
@[simp] theorem modWin_dsp (s : State) (i : Nat) (f : CatWin → CatWin) : (s.modWin i f).dsp = s.dsp := rfl
@[simp] theorem modWin_rw (s : State) (i : Nat) (f : CatWin → CatWin) : (s.modWin i f).rw = s.rw := rfl
@[simp] theorem modWin_hold (s : State) (i : Nat) (f : CatWin → CatWin) : (s.modWin i f).hold = s.hold := rfl
@[simp] theorem modWin_stage (s : State) (i : Nat) (f : CatWin → CatWin) : (s.modWin i f).stage = s.stage := rfl
@[simp] theorem modWin_loader (s : State) (i : Nat) (f : CatWin → CatWin) : (s.modWin i f).loader = s.loader := rfl
@[simp] theorem modWin_keys (s : State) (i : Nat) (f : CatWin → CatWin) : (s.modWin i f).keys = s.keys := rfl
@[simp] theorem modWin_keyWins (s : State) (i : Nat) (f : CatWin → CatWin) : (s.modWin i f).keyWins = s.keyWins := rfl
@[simp] theorem modWin_fcr (s : State) (i : Nat) (f : CatWin → CatWin) : (s.modWin i f).fcr = s.fcr := rfl
@[simp] theorem modWin_doc (s : State) (i : Nat) (f : CatWin → CatWin) : (s.modWin i f).doc = s.doc := rfl
@[simp] theorem modWin_doms (s : State) (i : Nat) (f : CatWin → CatWin) : (s.modWin i f).doms = s.doms := rfl
@[simp] theorem modWin_pcm (s : State) (i : Nat) (f : CatWin → CatWin) : (s.modWin i f).pcm = s.pcm := rfl
@[simp] theorem modWin_ledger (s : State) (i : Nat) (f : CatWin → CatWin) : (s.modWin i f).ledger = s.ledger := rfl
@[simp] theorem modWin_sbp (s : State) (i : Nat) (f : CatWin → CatWin) : (s.modWin i f).sbp = s.sbp := rfl
@[simp] theorem modWin_mst (s : State) (i : Nat) (f : CatWin → CatWin) : (s.modWin i f).mst = s.mst := rfl
@[simp] theorem modWin_resp (s : State) (i : Nat) (f : CatWin → CatWin) : (s.modWin i f).resp = s.resp := rfl
@[simp] theorem modWin_snpRsp (s : State) (i : Nat) (f : CatWin → CatWin) : (s.modWin i f).snpRsp = s.snpRsp := rfl
@[simp] theorem modWin_trace (s : State) (i : Nat) (f : CatWin → CatWin) : (s.modWin i f).trace = s.trace := rfl
@[simp] theorem modWin_fresh (s : State) (i : Nat) (f : CatWin → CatWin) : (s.modWin i f).fresh = s.fresh := rfl
@[simp] theorem modWin_pending (s : State) (i : Nat) (f : CatWin → CatWin) : (s.modWin i f).pending = s.pending := rfl
@[simp] theorem modWin_chan_of (s : State) (i : Nat) (f : CatWin → CatWin) (m : BitVec 12) : (s.modWin i f).chan m = s.chan m := rfl
@[simp] theorem modWin_eng_of (s : State) (i : Nat) (f : CatWin → CatWin) (k : EngId) : (s.modWin i f).eng k = s.eng k := rfl
@[simp] theorem modWin_gal_of (s : State) (i : Nat) (f : CatWin → CatWin) (k : Nat) : (s.modWin i f).gal k = s.gal k := rfl
@[simp] theorem modWin_slot_of (s : State) (i : Nat) (f : CatWin → CatWin) (k : EngId) : (s.modWin i f).slot k = s.slot k := rfl
@[simp] theorem modWin_link_of (s : State) (i : Nat) (f : CatWin → CatWin) (k : BitVec 5) : (s.modWin i f).link k = s.link k := rfl
@[simp] theorem modWin_arb_of (s : State) (i : Nat) (f : CatWin → CatWin) (k : Nat) : (s.modWin i f).arb k = s.arb k := rfl
@[simp] theorem modWin_port_of (s : State) (i : Nat) (f : CatWin → CatWin) (k : Nat) : (s.modWin i f).port k = s.port k := rfl
@[simp] theorem modWin_dom_of (s : State) (i : Nat) (f : CatWin → CatWin) (k : Nat) : (s.modWin i f).dom k = s.dom k := rfl
@[simp] theorem modWin_domOn_of (s : State) (i : Nat) (f : CatWin → CatWin) (k : Nat) : (s.modWin i f).domOn k = s.domOn k := rfl
@[simp] theorem modWin_pair_of (s : State) (i : Nat) (f : CatWin → CatWin) (k : Nat) : (s.modWin i f).pair k = s.pair k := rfl
@[simp] theorem modWin_sc_of (s : State) (i : Nat) (f : CatWin → CatWin) (k : Nat) : (s.modWin i f).sc k = s.sc k := rfl
@[simp] theorem modWin_rq_of (s : State) (i : Nat) (f : CatWin → CatWin) (k : Nat) : (s.modWin i f).rq k = s.rq k := rfl
@[simp] theorem modWin_sub_of (s : State) (i : Nat) (f : CatWin → CatWin) (k : Nat) : (s.modWin i f).sub k = s.sub k := rfl
@[simp] theorem modWin_evo_of (s : State) (i : Nat) (f : CatWin → CatWin) (k : Nat) : (s.modWin i f).evo k = s.evo k := rfl
@[simp] theorem modWin_irq_of (s : State) (i : Nat) (f : CatWin → CatWin) (k : Nat) : (s.modWin i f).irq k = s.irq k := rfl
@[simp] theorem modWin_line_of (s : State) (i : Nat) (f : CatWin → CatWin) (k : Nat) : (s.modWin i f).line k = s.line k := rfl
@[simp] theorem modWin_dspOf_of (s : State) (i : Nat) (f : CatWin → CatWin) (m : BitVec 12) : (s.modWin i f).dspOf m = s.dspOf m := rfl
@[simp] theorem modWin_sup_of (s : State) (i : Nat) (f : CatWin → CatWin) (k : Nat) : (s.modWin i f).sup k = s.sup k := rfl
@[simp] theorem modWin_clk_of (s : State) (i : Nat) (f : CatWin → CatWin) (k : Nat) : (s.modWin i f).clk k = s.clk k := rfl
@[simp] theorem modWin_key_of (s : State) (i : Nat) (f : CatWin → CatWin) (k : Nat) : (s.modWin i f).key k = s.key k := rfl
@[simp] theorem modWin_keyWin_of (s : State) (i : Nat) (f : CatWin → CatWin) (k : Nat) : (s.modWin i f).keyWin k = s.keyWin k := rfl
@[simp] theorem modWin_app_of (s : State) (i : Nat) (f : CatWin → CatWin) (r : Reg) : (s.modWin i f).app r = s.app r := rfl
@[simp] theorem modWin_stg_of (s : State) (i : Nat) (f : CatWin → CatWin) (r : Reg) : (s.modWin i f).stg r = s.stg r := rfl
@[simp] theorem modWin_reg_of (s : State) (i : Nat) (f : CatWin → CatWin) (r : Reg) : (s.modWin i f).reg r = s.reg r := rfl
@[simp] theorem modWin_now_of (s : State) (i : Nat) (f : CatWin → CatWin) : (s.modWin i f).now = s.now := rfl
@[simp] theorem modWin_coreOn_of (s : State) (i : Nat) (f : CatWin → CatWin) : (s.modWin i f).coreOn = s.coreOn := rfl

/-! ## setApp -/

@[simp] theorem setApp_boot (s : State) (r : Reg) (v : Word) : (s.setApp r v).boot = s.boot := rfl
@[simp] theorem setApp_tbs (s : State) (r : Reg) (v : Word) : (s.setApp r v).tbs = s.tbs := rfl
@[simp] theorem setApp_chans (s : State) (r : Reg) (v : Word) : (s.setApp r v).chans = s.chans := rfl
@[simp] theorem setApp_wins (s : State) (r : Reg) (v : Word) : (s.setApp r v).wins = s.wins := rfl
@[simp] theorem setApp_engs (s : State) (r : Reg) (v : Word) : (s.setApp r v).engs = s.engs := rfl
@[simp] theorem setApp_gals (s : State) (r : Reg) (v : Word) : (s.setApp r v).gals = s.gals := rfl
@[simp] theorem setApp_slots (s : State) (r : Reg) (v : Word) : (s.setApp r v).slots = s.slots := rfl
@[simp] theorem setApp_evc (s : State) (r : Reg) (v : Word) : (s.setApp r v).evc = s.evc := rfl
@[simp] theorem setApp_links (s : State) (r : Reg) (v : Word) : (s.setApp r v).links = s.links := rfl
@[simp] theorem setApp_arbs (s : State) (r : Reg) (v : Word) : (s.setApp r v).arbs = s.arbs := rfl
@[simp] theorem setApp_ports (s : State) (r : Reg) (v : Word) : (s.setApp r v).ports = s.ports := rfl
@[simp] theorem setApp_txns (s : State) (r : Reg) (v : Word) : (s.setApp r v).txns = s.txns := rfl
@[simp] theorem setApp_nextTxn (s : State) (r : Reg) (v : Word) : (s.setApp r v).nextTxn = s.nextTxn := rfl
@[simp] theorem setApp_lines (s : State) (r : Reg) (v : Word) : (s.setApp r v).lines = s.lines := rfl
@[simp] theorem setApp_vitFlush (s : State) (r : Reg) (v : Word) : (s.setApp r v).vitFlush = s.vitFlush := rfl
@[simp] theorem setApp_vitOld (s : State) (r : Reg) (v : Word) : (s.setApp r v).vitOld = s.vitOld := rfl
@[simp] theorem setApp_sliceCord (s : State) (r : Reg) (v : Word) : (s.setApp r v).sliceCord = s.sliceCord := rfl
@[simp] theorem setApp_dsp (s : State) (r : Reg) (v : Word) : (s.setApp r v).dsp = s.dsp := rfl
@[simp] theorem setApp_rw (s : State) (r : Reg) (v : Word) : (s.setApp r v).rw = s.rw := rfl
@[simp] theorem setApp_hold (s : State) (r : Reg) (v : Word) : (s.setApp r v).hold = s.hold := rfl
@[simp] theorem setApp_loader (s : State) (r : Reg) (v : Word) : (s.setApp r v).loader = s.loader := rfl
@[simp] theorem setApp_keys (s : State) (r : Reg) (v : Word) : (s.setApp r v).keys = s.keys := rfl
@[simp] theorem setApp_keyWins (s : State) (r : Reg) (v : Word) : (s.setApp r v).keyWins = s.keyWins := rfl
@[simp] theorem setApp_fcr (s : State) (r : Reg) (v : Word) : (s.setApp r v).fcr = s.fcr := rfl
@[simp] theorem setApp_doc (s : State) (r : Reg) (v : Word) : (s.setApp r v).doc = s.doc := rfl
@[simp] theorem setApp_doms (s : State) (r : Reg) (v : Word) : (s.setApp r v).doms = s.doms := rfl
@[simp] theorem setApp_pcm (s : State) (r : Reg) (v : Word) : (s.setApp r v).pcm = s.pcm := rfl
@[simp] theorem setApp_ledger (s : State) (r : Reg) (v : Word) : (s.setApp r v).ledger = s.ledger := rfl
@[simp] theorem setApp_sbp (s : State) (r : Reg) (v : Word) : (s.setApp r v).sbp = s.sbp := rfl
@[simp] theorem setApp_mst (s : State) (r : Reg) (v : Word) : (s.setApp r v).mst = s.mst := rfl
@[simp] theorem setApp_resp (s : State) (r : Reg) (v : Word) : (s.setApp r v).resp = s.resp := rfl
@[simp] theorem setApp_snpRsp (s : State) (r : Reg) (v : Word) : (s.setApp r v).snpRsp = s.snpRsp := rfl
@[simp] theorem setApp_trace (s : State) (r : Reg) (v : Word) : (s.setApp r v).trace = s.trace := rfl
@[simp] theorem setApp_fresh (s : State) (r : Reg) (v : Word) : (s.setApp r v).fresh = s.fresh := rfl
@[simp] theorem setApp_pending (s : State) (r : Reg) (v : Word) : (s.setApp r v).pending = s.pending := rfl
@[simp] theorem setApp_chan_of (s : State) (r : Reg) (v : Word) (m : BitVec 12) : (s.setApp r v).chan m = s.chan m := rfl
@[simp] theorem setApp_eng_of (s : State) (r : Reg) (v : Word) (k : EngId) : (s.setApp r v).eng k = s.eng k := rfl
@[simp] theorem setApp_gal_of (s : State) (r : Reg) (v : Word) (k : Nat) : (s.setApp r v).gal k = s.gal k := rfl
@[simp] theorem setApp_slot_of (s : State) (r : Reg) (v : Word) (k : EngId) : (s.setApp r v).slot k = s.slot k := rfl
@[simp] theorem setApp_link_of (s : State) (r : Reg) (v : Word) (k : BitVec 5) : (s.setApp r v).link k = s.link k := rfl
@[simp] theorem setApp_arb_of (s : State) (r : Reg) (v : Word) (k : Nat) : (s.setApp r v).arb k = s.arb k := rfl
@[simp] theorem setApp_port_of (s : State) (r : Reg) (v : Word) (k : Nat) : (s.setApp r v).port k = s.port k := rfl
@[simp] theorem setApp_dom_of (s : State) (r : Reg) (v : Word) (k : Nat) : (s.setApp r v).dom k = s.dom k := rfl
@[simp] theorem setApp_domOn_of (s : State) (r : Reg) (v : Word) (k : Nat) : (s.setApp r v).domOn k = s.domOn k := rfl
@[simp] theorem setApp_pair_of (s : State) (r : Reg) (v : Word) (k : Nat) : (s.setApp r v).pair k = s.pair k := rfl
@[simp] theorem setApp_sc_of (s : State) (r : Reg) (v : Word) (k : Nat) : (s.setApp r v).sc k = s.sc k := rfl
@[simp] theorem setApp_rq_of (s : State) (r : Reg) (v : Word) (k : Nat) : (s.setApp r v).rq k = s.rq k := rfl
@[simp] theorem setApp_sub_of (s : State) (r : Reg) (v : Word) (k : Nat) : (s.setApp r v).sub k = s.sub k := rfl
@[simp] theorem setApp_evo_of (s : State) (r : Reg) (v : Word) (k : Nat) : (s.setApp r v).evo k = s.evo k := rfl
@[simp] theorem setApp_irq_of (s : State) (r : Reg) (v : Word) (k : Nat) : (s.setApp r v).irq k = s.irq k := rfl
@[simp] theorem setApp_line_of (s : State) (r : Reg) (v : Word) (k : Nat) : (s.setApp r v).line k = s.line k := rfl
@[simp] theorem setApp_dspOf_of (s : State) (r : Reg) (v : Word) (m : BitVec 12) : (s.setApp r v).dspOf m = s.dspOf m := rfl
@[simp] theorem setApp_sup_of (s : State) (r : Reg) (v : Word) (k : Nat) : (s.setApp r v).sup k = s.sup k := rfl
@[simp] theorem setApp_clk_of (s : State) (r : Reg) (v : Word) (k : Nat) : (s.setApp r v).clk k = s.clk k := rfl
@[simp] theorem setApp_key_of (s : State) (r : Reg) (v : Word) (k : Nat) : (s.setApp r v).key k = s.key k := rfl
@[simp] theorem setApp_keyWin_of (s : State) (r : Reg) (v : Word) (k : Nat) : (s.setApp r v).keyWin k = s.keyWin k := rfl
@[simp] theorem setApp_win_of (s : State) (r : Reg) (v : Word) (k : Nat) : (s.setApp r v).win k = s.win k := rfl
@[simp] theorem setApp_stg_of (s : State) (r : Reg) (v : Word) (z : Reg) : (s.setApp r v).stg z = s.stg z := rfl
@[simp] theorem setApp_reg_of (s : State) (r : Reg) (v : Word) (z : Reg) : (s.setApp r v).reg z = s.reg z := rfl
@[simp] theorem setApp_now_of (s : State) (r : Reg) (v : Word) : (s.setApp r v).now = s.now := rfl
@[simp] theorem setApp_coreOn_of (s : State) (r : Reg) (v : Word) : (s.setApp r v).coreOn = s.coreOn := rfl

/-! ## setStg -/

@[simp] theorem setStg_boot (s : State) (r : Reg) (v : Word) : (s.setStg r v).boot = s.boot := rfl
@[simp] theorem setStg_tbs (s : State) (r : Reg) (v : Word) : (s.setStg r v).tbs = s.tbs := rfl
@[simp] theorem setStg_chans (s : State) (r : Reg) (v : Word) : (s.setStg r v).chans = s.chans := rfl
@[simp] theorem setStg_wins (s : State) (r : Reg) (v : Word) : (s.setStg r v).wins = s.wins := rfl
@[simp] theorem setStg_engs (s : State) (r : Reg) (v : Word) : (s.setStg r v).engs = s.engs := rfl
@[simp] theorem setStg_gals (s : State) (r : Reg) (v : Word) : (s.setStg r v).gals = s.gals := rfl
@[simp] theorem setStg_slots (s : State) (r : Reg) (v : Word) : (s.setStg r v).slots = s.slots := rfl
@[simp] theorem setStg_evc (s : State) (r : Reg) (v : Word) : (s.setStg r v).evc = s.evc := rfl
@[simp] theorem setStg_links (s : State) (r : Reg) (v : Word) : (s.setStg r v).links = s.links := rfl
@[simp] theorem setStg_arbs (s : State) (r : Reg) (v : Word) : (s.setStg r v).arbs = s.arbs := rfl
@[simp] theorem setStg_ports (s : State) (r : Reg) (v : Word) : (s.setStg r v).ports = s.ports := rfl
@[simp] theorem setStg_txns (s : State) (r : Reg) (v : Word) : (s.setStg r v).txns = s.txns := rfl
@[simp] theorem setStg_nextTxn (s : State) (r : Reg) (v : Word) : (s.setStg r v).nextTxn = s.nextTxn := rfl
@[simp] theorem setStg_lines (s : State) (r : Reg) (v : Word) : (s.setStg r v).lines = s.lines := rfl
@[simp] theorem setStg_vitFlush (s : State) (r : Reg) (v : Word) : (s.setStg r v).vitFlush = s.vitFlush := rfl
@[simp] theorem setStg_vitOld (s : State) (r : Reg) (v : Word) : (s.setStg r v).vitOld = s.vitOld := rfl
@[simp] theorem setStg_sliceCord (s : State) (r : Reg) (v : Word) : (s.setStg r v).sliceCord = s.sliceCord := rfl
@[simp] theorem setStg_dsp (s : State) (r : Reg) (v : Word) : (s.setStg r v).dsp = s.dsp := rfl
@[simp] theorem setStg_rw (s : State) (r : Reg) (v : Word) : (s.setStg r v).rw = s.rw := rfl
@[simp] theorem setStg_hold (s : State) (r : Reg) (v : Word) : (s.setStg r v).hold = s.hold := rfl
@[simp] theorem setStg_loader (s : State) (r : Reg) (v : Word) : (s.setStg r v).loader = s.loader := rfl
@[simp] theorem setStg_keys (s : State) (r : Reg) (v : Word) : (s.setStg r v).keys = s.keys := rfl
@[simp] theorem setStg_keyWins (s : State) (r : Reg) (v : Word) : (s.setStg r v).keyWins = s.keyWins := rfl
@[simp] theorem setStg_fcr (s : State) (r : Reg) (v : Word) : (s.setStg r v).fcr = s.fcr := rfl
@[simp] theorem setStg_doc (s : State) (r : Reg) (v : Word) : (s.setStg r v).doc = s.doc := rfl
@[simp] theorem setStg_doms (s : State) (r : Reg) (v : Word) : (s.setStg r v).doms = s.doms := rfl
@[simp] theorem setStg_pcm (s : State) (r : Reg) (v : Word) : (s.setStg r v).pcm = s.pcm := rfl
@[simp] theorem setStg_ledger (s : State) (r : Reg) (v : Word) : (s.setStg r v).ledger = s.ledger := rfl
@[simp] theorem setStg_sbp (s : State) (r : Reg) (v : Word) : (s.setStg r v).sbp = s.sbp := rfl
@[simp] theorem setStg_mst (s : State) (r : Reg) (v : Word) : (s.setStg r v).mst = s.mst := rfl
@[simp] theorem setStg_resp (s : State) (r : Reg) (v : Word) : (s.setStg r v).resp = s.resp := rfl
@[simp] theorem setStg_snpRsp (s : State) (r : Reg) (v : Word) : (s.setStg r v).snpRsp = s.snpRsp := rfl
@[simp] theorem setStg_trace (s : State) (r : Reg) (v : Word) : (s.setStg r v).trace = s.trace := rfl
@[simp] theorem setStg_fresh (s : State) (r : Reg) (v : Word) : (s.setStg r v).fresh = s.fresh := rfl
@[simp] theorem setStg_pending (s : State) (r : Reg) (v : Word) : (s.setStg r v).pending = s.pending := rfl
@[simp] theorem setStg_chan_of (s : State) (r : Reg) (v : Word) (m : BitVec 12) : (s.setStg r v).chan m = s.chan m := rfl
@[simp] theorem setStg_eng_of (s : State) (r : Reg) (v : Word) (k : EngId) : (s.setStg r v).eng k = s.eng k := rfl
@[simp] theorem setStg_gal_of (s : State) (r : Reg) (v : Word) (k : Nat) : (s.setStg r v).gal k = s.gal k := rfl
@[simp] theorem setStg_slot_of (s : State) (r : Reg) (v : Word) (k : EngId) : (s.setStg r v).slot k = s.slot k := rfl
@[simp] theorem setStg_link_of (s : State) (r : Reg) (v : Word) (k : BitVec 5) : (s.setStg r v).link k = s.link k := rfl
@[simp] theorem setStg_arb_of (s : State) (r : Reg) (v : Word) (k : Nat) : (s.setStg r v).arb k = s.arb k := rfl
@[simp] theorem setStg_port_of (s : State) (r : Reg) (v : Word) (k : Nat) : (s.setStg r v).port k = s.port k := rfl
@[simp] theorem setStg_dom_of (s : State) (r : Reg) (v : Word) (k : Nat) : (s.setStg r v).dom k = s.dom k := rfl
@[simp] theorem setStg_domOn_of (s : State) (r : Reg) (v : Word) (k : Nat) : (s.setStg r v).domOn k = s.domOn k := rfl
@[simp] theorem setStg_pair_of (s : State) (r : Reg) (v : Word) (k : Nat) : (s.setStg r v).pair k = s.pair k := rfl
@[simp] theorem setStg_sc_of (s : State) (r : Reg) (v : Word) (k : Nat) : (s.setStg r v).sc k = s.sc k := rfl
@[simp] theorem setStg_rq_of (s : State) (r : Reg) (v : Word) (k : Nat) : (s.setStg r v).rq k = s.rq k := rfl
@[simp] theorem setStg_sub_of (s : State) (r : Reg) (v : Word) (k : Nat) : (s.setStg r v).sub k = s.sub k := rfl
@[simp] theorem setStg_evo_of (s : State) (r : Reg) (v : Word) (k : Nat) : (s.setStg r v).evo k = s.evo k := rfl
@[simp] theorem setStg_irq_of (s : State) (r : Reg) (v : Word) (k : Nat) : (s.setStg r v).irq k = s.irq k := rfl
@[simp] theorem setStg_line_of (s : State) (r : Reg) (v : Word) (k : Nat) : (s.setStg r v).line k = s.line k := rfl
@[simp] theorem setStg_dspOf_of (s : State) (r : Reg) (v : Word) (m : BitVec 12) : (s.setStg r v).dspOf m = s.dspOf m := rfl
@[simp] theorem setStg_sup_of (s : State) (r : Reg) (v : Word) (k : Nat) : (s.setStg r v).sup k = s.sup k := rfl
@[simp] theorem setStg_clk_of (s : State) (r : Reg) (v : Word) (k : Nat) : (s.setStg r v).clk k = s.clk k := rfl
@[simp] theorem setStg_key_of (s : State) (r : Reg) (v : Word) (k : Nat) : (s.setStg r v).key k = s.key k := rfl
@[simp] theorem setStg_keyWin_of (s : State) (r : Reg) (v : Word) (k : Nat) : (s.setStg r v).keyWin k = s.keyWin k := rfl
@[simp] theorem setStg_win_of (s : State) (r : Reg) (v : Word) (k : Nat) : (s.setStg r v).win k = s.win k := rfl
@[simp] theorem setStg_app_of (s : State) (r : Reg) (v : Word) (z : Reg) : (s.setStg r v).app z = s.app z := rfl
@[simp] theorem setStg_reg_of (s : State) (r : Reg) (v : Word) (z : Reg) : (s.setStg r v).reg z = s.reg z := rfl
@[simp] theorem setStg_now_of (s : State) (r : Reg) (v : Word) : (s.setStg r v).now = s.now := rfl
@[simp] theorem setStg_coreOn_of (s : State) (r : Reg) (v : Word) : (s.setStg r v).coreOn = s.coreOn := rfl

/-! ## setReg -/

@[simp] theorem setReg_boot (s : State) (r : Reg) (v : Word) : (s.setReg r v).boot = s.boot := rfl
@[simp] theorem setReg_tbs (s : State) (r : Reg) (v : Word) : (s.setReg r v).tbs = s.tbs := rfl
@[simp] theorem setReg_chans (s : State) (r : Reg) (v : Word) : (s.setReg r v).chans = s.chans := rfl
@[simp] theorem setReg_wins (s : State) (r : Reg) (v : Word) : (s.setReg r v).wins = s.wins := rfl
@[simp] theorem setReg_engs (s : State) (r : Reg) (v : Word) : (s.setReg r v).engs = s.engs := rfl
@[simp] theorem setReg_gals (s : State) (r : Reg) (v : Word) : (s.setReg r v).gals = s.gals := rfl
@[simp] theorem setReg_slots (s : State) (r : Reg) (v : Word) : (s.setReg r v).slots = s.slots := rfl
@[simp] theorem setReg_evc (s : State) (r : Reg) (v : Word) : (s.setReg r v).evc = s.evc := rfl
@[simp] theorem setReg_links (s : State) (r : Reg) (v : Word) : (s.setReg r v).links = s.links := rfl
@[simp] theorem setReg_arbs (s : State) (r : Reg) (v : Word) : (s.setReg r v).arbs = s.arbs := rfl
@[simp] theorem setReg_ports (s : State) (r : Reg) (v : Word) : (s.setReg r v).ports = s.ports := rfl
@[simp] theorem setReg_txns (s : State) (r : Reg) (v : Word) : (s.setReg r v).txns = s.txns := rfl
@[simp] theorem setReg_nextTxn (s : State) (r : Reg) (v : Word) : (s.setReg r v).nextTxn = s.nextTxn := rfl
@[simp] theorem setReg_lines (s : State) (r : Reg) (v : Word) : (s.setReg r v).lines = s.lines := rfl
@[simp] theorem setReg_vitFlush (s : State) (r : Reg) (v : Word) : (s.setReg r v).vitFlush = s.vitFlush := rfl
@[simp] theorem setReg_vitOld (s : State) (r : Reg) (v : Word) : (s.setReg r v).vitOld = s.vitOld := rfl
@[simp] theorem setReg_sliceCord (s : State) (r : Reg) (v : Word) : (s.setReg r v).sliceCord = s.sliceCord := rfl
@[simp] theorem setReg_dsp (s : State) (r : Reg) (v : Word) : (s.setReg r v).dsp = s.dsp := rfl
@[simp] theorem setReg_hold (s : State) (r : Reg) (v : Word) : (s.setReg r v).hold = s.hold := rfl
@[simp] theorem setReg_stage (s : State) (r : Reg) (v : Word) : (s.setReg r v).stage = s.stage := rfl
@[simp] theorem setReg_loader (s : State) (r : Reg) (v : Word) : (s.setReg r v).loader = s.loader := rfl
@[simp] theorem setReg_keys (s : State) (r : Reg) (v : Word) : (s.setReg r v).keys = s.keys := rfl
@[simp] theorem setReg_keyWins (s : State) (r : Reg) (v : Word) : (s.setReg r v).keyWins = s.keyWins := rfl
@[simp] theorem setReg_fcr (s : State) (r : Reg) (v : Word) : (s.setReg r v).fcr = s.fcr := rfl
@[simp] theorem setReg_doc (s : State) (r : Reg) (v : Word) : (s.setReg r v).doc = s.doc := rfl
@[simp] theorem setReg_doms (s : State) (r : Reg) (v : Word) : (s.setReg r v).doms = s.doms := rfl
@[simp] theorem setReg_pcm (s : State) (r : Reg) (v : Word) : (s.setReg r v).pcm = s.pcm := rfl
@[simp] theorem setReg_ledger (s : State) (r : Reg) (v : Word) : (s.setReg r v).ledger = s.ledger := rfl
@[simp] theorem setReg_sbp (s : State) (r : Reg) (v : Word) : (s.setReg r v).sbp = s.sbp := rfl
@[simp] theorem setReg_mst (s : State) (r : Reg) (v : Word) : (s.setReg r v).mst = s.mst := rfl
@[simp] theorem setReg_resp (s : State) (r : Reg) (v : Word) : (s.setReg r v).resp = s.resp := rfl
@[simp] theorem setReg_snpRsp (s : State) (r : Reg) (v : Word) : (s.setReg r v).snpRsp = s.snpRsp := rfl
@[simp] theorem setReg_trace (s : State) (r : Reg) (v : Word) : (s.setReg r v).trace = s.trace := rfl
@[simp] theorem setReg_fresh (s : State) (r : Reg) (v : Word) : (s.setReg r v).fresh = s.fresh := rfl
@[simp] theorem setReg_pending (s : State) (r : Reg) (v : Word) : (s.setReg r v).pending = s.pending := rfl
@[simp] theorem setReg_chan_of (s : State) (r : Reg) (v : Word) (m : BitVec 12) : (s.setReg r v).chan m = s.chan m := rfl
@[simp] theorem setReg_eng_of (s : State) (r : Reg) (v : Word) (k : EngId) : (s.setReg r v).eng k = s.eng k := rfl
@[simp] theorem setReg_gal_of (s : State) (r : Reg) (v : Word) (k : Nat) : (s.setReg r v).gal k = s.gal k := rfl
@[simp] theorem setReg_slot_of (s : State) (r : Reg) (v : Word) (k : EngId) : (s.setReg r v).slot k = s.slot k := rfl
@[simp] theorem setReg_link_of (s : State) (r : Reg) (v : Word) (k : BitVec 5) : (s.setReg r v).link k = s.link k := rfl
@[simp] theorem setReg_arb_of (s : State) (r : Reg) (v : Word) (k : Nat) : (s.setReg r v).arb k = s.arb k := rfl
@[simp] theorem setReg_port_of (s : State) (r : Reg) (v : Word) (k : Nat) : (s.setReg r v).port k = s.port k := rfl
@[simp] theorem setReg_dom_of (s : State) (r : Reg) (v : Word) (k : Nat) : (s.setReg r v).dom k = s.dom k := rfl
@[simp] theorem setReg_domOn_of (s : State) (r : Reg) (v : Word) (k : Nat) : (s.setReg r v).domOn k = s.domOn k := rfl
@[simp] theorem setReg_pair_of (s : State) (r : Reg) (v : Word) (k : Nat) : (s.setReg r v).pair k = s.pair k := rfl
@[simp] theorem setReg_sc_of (s : State) (r : Reg) (v : Word) (k : Nat) : (s.setReg r v).sc k = s.sc k := rfl
@[simp] theorem setReg_rq_of (s : State) (r : Reg) (v : Word) (k : Nat) : (s.setReg r v).rq k = s.rq k := rfl
@[simp] theorem setReg_sub_of (s : State) (r : Reg) (v : Word) (k : Nat) : (s.setReg r v).sub k = s.sub k := rfl
@[simp] theorem setReg_evo_of (s : State) (r : Reg) (v : Word) (k : Nat) : (s.setReg r v).evo k = s.evo k := rfl
@[simp] theorem setReg_irq_of (s : State) (r : Reg) (v : Word) (k : Nat) : (s.setReg r v).irq k = s.irq k := rfl
@[simp] theorem setReg_line_of (s : State) (r : Reg) (v : Word) (k : Nat) : (s.setReg r v).line k = s.line k := rfl
@[simp] theorem setReg_dspOf_of (s : State) (r : Reg) (v : Word) (m : BitVec 12) : (s.setReg r v).dspOf m = s.dspOf m := rfl
@[simp] theorem setReg_sup_of (s : State) (r : Reg) (v : Word) (k : Nat) : (s.setReg r v).sup k = s.sup k := rfl
@[simp] theorem setReg_clk_of (s : State) (r : Reg) (v : Word) (k : Nat) : (s.setReg r v).clk k = s.clk k := rfl
@[simp] theorem setReg_key_of (s : State) (r : Reg) (v : Word) (k : Nat) : (s.setReg r v).key k = s.key k := rfl
@[simp] theorem setReg_keyWin_of (s : State) (r : Reg) (v : Word) (k : Nat) : (s.setReg r v).keyWin k = s.keyWin k := rfl
@[simp] theorem setReg_win_of (s : State) (r : Reg) (v : Word) (k : Nat) : (s.setReg r v).win k = s.win k := rfl
@[simp] theorem setReg_app_of (s : State) (r : Reg) (v : Word) (z : Reg) : (s.setReg r v).app z = s.app z := rfl
@[simp] theorem setReg_stg_of (s : State) (r : Reg) (v : Word) (z : Reg) : (s.setReg r v).stg z = s.stg z := rfl
@[simp] theorem setReg_now_of (s : State) (r : Reg) (v : Word) : (s.setReg r v).now = s.now := rfl
@[simp] theorem setReg_coreOn_of (s : State) (r : Reg) (v : Word) : (s.setReg r v).coreOn = s.coreOn := rfl

/-! ## modFcr -/

@[simp] theorem modFcr_boot (s : State) (f : Fcr → Fcr) : (s.modFcr f).boot = s.boot := rfl
@[simp] theorem modFcr_tbs (s : State) (f : Fcr → Fcr) : (s.modFcr f).tbs = s.tbs := rfl
@[simp] theorem modFcr_chans (s : State) (f : Fcr → Fcr) : (s.modFcr f).chans = s.chans := rfl
@[simp] theorem modFcr_wins (s : State) (f : Fcr → Fcr) : (s.modFcr f).wins = s.wins := rfl
@[simp] theorem modFcr_engs (s : State) (f : Fcr → Fcr) : (s.modFcr f).engs = s.engs := rfl
@[simp] theorem modFcr_gals (s : State) (f : Fcr → Fcr) : (s.modFcr f).gals = s.gals := rfl
@[simp] theorem modFcr_slots (s : State) (f : Fcr → Fcr) : (s.modFcr f).slots = s.slots := rfl
@[simp] theorem modFcr_evc (s : State) (f : Fcr → Fcr) : (s.modFcr f).evc = s.evc := rfl
@[simp] theorem modFcr_links (s : State) (f : Fcr → Fcr) : (s.modFcr f).links = s.links := rfl
@[simp] theorem modFcr_arbs (s : State) (f : Fcr → Fcr) : (s.modFcr f).arbs = s.arbs := rfl
@[simp] theorem modFcr_ports (s : State) (f : Fcr → Fcr) : (s.modFcr f).ports = s.ports := rfl
@[simp] theorem modFcr_txns (s : State) (f : Fcr → Fcr) : (s.modFcr f).txns = s.txns := rfl
@[simp] theorem modFcr_nextTxn (s : State) (f : Fcr → Fcr) : (s.modFcr f).nextTxn = s.nextTxn := rfl
@[simp] theorem modFcr_lines (s : State) (f : Fcr → Fcr) : (s.modFcr f).lines = s.lines := rfl
@[simp] theorem modFcr_vitFlush (s : State) (f : Fcr → Fcr) : (s.modFcr f).vitFlush = s.vitFlush := rfl
@[simp] theorem modFcr_vitOld (s : State) (f : Fcr → Fcr) : (s.modFcr f).vitOld = s.vitOld := rfl
@[simp] theorem modFcr_sliceCord (s : State) (f : Fcr → Fcr) : (s.modFcr f).sliceCord = s.sliceCord := rfl
@[simp] theorem modFcr_dsp (s : State) (f : Fcr → Fcr) : (s.modFcr f).dsp = s.dsp := rfl
@[simp] theorem modFcr_rw (s : State) (f : Fcr → Fcr) : (s.modFcr f).rw = s.rw := rfl
@[simp] theorem modFcr_hold (s : State) (f : Fcr → Fcr) : (s.modFcr f).hold = s.hold := rfl
@[simp] theorem modFcr_stage (s : State) (f : Fcr → Fcr) : (s.modFcr f).stage = s.stage := rfl
@[simp] theorem modFcr_loader (s : State) (f : Fcr → Fcr) : (s.modFcr f).loader = s.loader := rfl
@[simp] theorem modFcr_keys (s : State) (f : Fcr → Fcr) : (s.modFcr f).keys = s.keys := rfl
@[simp] theorem modFcr_keyWins (s : State) (f : Fcr → Fcr) : (s.modFcr f).keyWins = s.keyWins := rfl
@[simp] theorem modFcr_doc (s : State) (f : Fcr → Fcr) : (s.modFcr f).doc = s.doc := rfl
@[simp] theorem modFcr_doms (s : State) (f : Fcr → Fcr) : (s.modFcr f).doms = s.doms := rfl
@[simp] theorem modFcr_pcm (s : State) (f : Fcr → Fcr) : (s.modFcr f).pcm = s.pcm := rfl
@[simp] theorem modFcr_ledger (s : State) (f : Fcr → Fcr) : (s.modFcr f).ledger = s.ledger := rfl
@[simp] theorem modFcr_sbp (s : State) (f : Fcr → Fcr) : (s.modFcr f).sbp = s.sbp := rfl
@[simp] theorem modFcr_mst (s : State) (f : Fcr → Fcr) : (s.modFcr f).mst = s.mst := rfl
@[simp] theorem modFcr_resp (s : State) (f : Fcr → Fcr) : (s.modFcr f).resp = s.resp := rfl
@[simp] theorem modFcr_snpRsp (s : State) (f : Fcr → Fcr) : (s.modFcr f).snpRsp = s.snpRsp := rfl
@[simp] theorem modFcr_trace (s : State) (f : Fcr → Fcr) : (s.modFcr f).trace = s.trace := rfl
@[simp] theorem modFcr_fresh (s : State) (f : Fcr → Fcr) : (s.modFcr f).fresh = s.fresh := rfl
@[simp] theorem modFcr_pending (s : State) (f : Fcr → Fcr) : (s.modFcr f).pending = s.pending := rfl
@[simp] theorem modFcr_chan_of (s : State) (f : Fcr → Fcr) (m : BitVec 12) : (s.modFcr f).chan m = s.chan m := rfl
@[simp] theorem modFcr_eng_of (s : State) (f : Fcr → Fcr) (k : EngId) : (s.modFcr f).eng k = s.eng k := rfl
@[simp] theorem modFcr_gal_of (s : State) (f : Fcr → Fcr) (k : Nat) : (s.modFcr f).gal k = s.gal k := rfl
@[simp] theorem modFcr_slot_of (s : State) (f : Fcr → Fcr) (k : EngId) : (s.modFcr f).slot k = s.slot k := rfl
@[simp] theorem modFcr_link_of (s : State) (f : Fcr → Fcr) (k : BitVec 5) : (s.modFcr f).link k = s.link k := rfl
@[simp] theorem modFcr_arb_of (s : State) (f : Fcr → Fcr) (k : Nat) : (s.modFcr f).arb k = s.arb k := rfl
@[simp] theorem modFcr_port_of (s : State) (f : Fcr → Fcr) (k : Nat) : (s.modFcr f).port k = s.port k := rfl
@[simp] theorem modFcr_dom_of (s : State) (f : Fcr → Fcr) (k : Nat) : (s.modFcr f).dom k = s.dom k := rfl
@[simp] theorem modFcr_domOn_of (s : State) (f : Fcr → Fcr) (k : Nat) : (s.modFcr f).domOn k = s.domOn k := rfl
@[simp] theorem modFcr_pair_of (s : State) (f : Fcr → Fcr) (k : Nat) : (s.modFcr f).pair k = s.pair k := rfl
@[simp] theorem modFcr_sc_of (s : State) (f : Fcr → Fcr) (k : Nat) : (s.modFcr f).sc k = s.sc k := rfl
@[simp] theorem modFcr_rq_of (s : State) (f : Fcr → Fcr) (k : Nat) : (s.modFcr f).rq k = s.rq k := rfl
@[simp] theorem modFcr_sub_of (s : State) (f : Fcr → Fcr) (k : Nat) : (s.modFcr f).sub k = s.sub k := rfl
@[simp] theorem modFcr_evo_of (s : State) (f : Fcr → Fcr) (k : Nat) : (s.modFcr f).evo k = s.evo k := rfl
@[simp] theorem modFcr_irq_of (s : State) (f : Fcr → Fcr) (k : Nat) : (s.modFcr f).irq k = s.irq k := rfl
@[simp] theorem modFcr_line_of (s : State) (f : Fcr → Fcr) (k : Nat) : (s.modFcr f).line k = s.line k := rfl
@[simp] theorem modFcr_dspOf_of (s : State) (f : Fcr → Fcr) (m : BitVec 12) : (s.modFcr f).dspOf m = s.dspOf m := rfl
@[simp] theorem modFcr_sup_of (s : State) (f : Fcr → Fcr) (k : Nat) : (s.modFcr f).sup k = s.sup k := rfl
@[simp] theorem modFcr_clk_of (s : State) (f : Fcr → Fcr) (k : Nat) : (s.modFcr f).clk k = s.clk k := rfl
@[simp] theorem modFcr_key_of (s : State) (f : Fcr → Fcr) (k : Nat) : (s.modFcr f).key k = s.key k := rfl
@[simp] theorem modFcr_keyWin_of (s : State) (f : Fcr → Fcr) (k : Nat) : (s.modFcr f).keyWin k = s.keyWin k := rfl
@[simp] theorem modFcr_win_of (s : State) (f : Fcr → Fcr) (k : Nat) : (s.modFcr f).win k = s.win k := rfl
@[simp] theorem modFcr_app_of (s : State) (f : Fcr → Fcr) (r : Reg) : (s.modFcr f).app r = s.app r := rfl
@[simp] theorem modFcr_stg_of (s : State) (f : Fcr → Fcr) (r : Reg) : (s.modFcr f).stg r = s.stg r := rfl
@[simp] theorem modFcr_reg_of (s : State) (f : Fcr → Fcr) (r : Reg) : (s.modFcr f).reg r = s.reg r := rfl
@[simp] theorem modFcr_now_of (s : State) (f : Fcr → Fcr) : (s.modFcr f).now = s.now := rfl
@[simp] theorem modFcr_coreOn_of (s : State) (f : Fcr → Fcr) : (s.modFcr f).coreOn = s.coreOn := rfl

/-! ## modDoc -/

@[simp] theorem modDoc_boot (s : State) (f : Doc → Doc) : (s.modDoc f).boot = s.boot := rfl
@[simp] theorem modDoc_tbs (s : State) (f : Doc → Doc) : (s.modDoc f).tbs = s.tbs := rfl
@[simp] theorem modDoc_chans (s : State) (f : Doc → Doc) : (s.modDoc f).chans = s.chans := rfl
@[simp] theorem modDoc_wins (s : State) (f : Doc → Doc) : (s.modDoc f).wins = s.wins := rfl
@[simp] theorem modDoc_engs (s : State) (f : Doc → Doc) : (s.modDoc f).engs = s.engs := rfl
@[simp] theorem modDoc_gals (s : State) (f : Doc → Doc) : (s.modDoc f).gals = s.gals := rfl
@[simp] theorem modDoc_slots (s : State) (f : Doc → Doc) : (s.modDoc f).slots = s.slots := rfl
@[simp] theorem modDoc_evc (s : State) (f : Doc → Doc) : (s.modDoc f).evc = s.evc := rfl
@[simp] theorem modDoc_links (s : State) (f : Doc → Doc) : (s.modDoc f).links = s.links := rfl
@[simp] theorem modDoc_arbs (s : State) (f : Doc → Doc) : (s.modDoc f).arbs = s.arbs := rfl
@[simp] theorem modDoc_ports (s : State) (f : Doc → Doc) : (s.modDoc f).ports = s.ports := rfl
@[simp] theorem modDoc_txns (s : State) (f : Doc → Doc) : (s.modDoc f).txns = s.txns := rfl
@[simp] theorem modDoc_nextTxn (s : State) (f : Doc → Doc) : (s.modDoc f).nextTxn = s.nextTxn := rfl
@[simp] theorem modDoc_lines (s : State) (f : Doc → Doc) : (s.modDoc f).lines = s.lines := rfl
@[simp] theorem modDoc_vitFlush (s : State) (f : Doc → Doc) : (s.modDoc f).vitFlush = s.vitFlush := rfl
@[simp] theorem modDoc_vitOld (s : State) (f : Doc → Doc) : (s.modDoc f).vitOld = s.vitOld := rfl
@[simp] theorem modDoc_sliceCord (s : State) (f : Doc → Doc) : (s.modDoc f).sliceCord = s.sliceCord := rfl
@[simp] theorem modDoc_dsp (s : State) (f : Doc → Doc) : (s.modDoc f).dsp = s.dsp := rfl
@[simp] theorem modDoc_rw (s : State) (f : Doc → Doc) : (s.modDoc f).rw = s.rw := rfl
@[simp] theorem modDoc_hold (s : State) (f : Doc → Doc) : (s.modDoc f).hold = s.hold := rfl
@[simp] theorem modDoc_stage (s : State) (f : Doc → Doc) : (s.modDoc f).stage = s.stage := rfl
@[simp] theorem modDoc_loader (s : State) (f : Doc → Doc) : (s.modDoc f).loader = s.loader := rfl
@[simp] theorem modDoc_keys (s : State) (f : Doc → Doc) : (s.modDoc f).keys = s.keys := rfl
@[simp] theorem modDoc_keyWins (s : State) (f : Doc → Doc) : (s.modDoc f).keyWins = s.keyWins := rfl
@[simp] theorem modDoc_fcr (s : State) (f : Doc → Doc) : (s.modDoc f).fcr = s.fcr := rfl
@[simp] theorem modDoc_doms (s : State) (f : Doc → Doc) : (s.modDoc f).doms = s.doms := rfl
@[simp] theorem modDoc_pcm (s : State) (f : Doc → Doc) : (s.modDoc f).pcm = s.pcm := rfl
@[simp] theorem modDoc_ledger (s : State) (f : Doc → Doc) : (s.modDoc f).ledger = s.ledger := rfl
@[simp] theorem modDoc_sbp (s : State) (f : Doc → Doc) : (s.modDoc f).sbp = s.sbp := rfl
@[simp] theorem modDoc_mst (s : State) (f : Doc → Doc) : (s.modDoc f).mst = s.mst := rfl
@[simp] theorem modDoc_resp (s : State) (f : Doc → Doc) : (s.modDoc f).resp = s.resp := rfl
@[simp] theorem modDoc_snpRsp (s : State) (f : Doc → Doc) : (s.modDoc f).snpRsp = s.snpRsp := rfl
@[simp] theorem modDoc_trace (s : State) (f : Doc → Doc) : (s.modDoc f).trace = s.trace := rfl
@[simp] theorem modDoc_fresh (s : State) (f : Doc → Doc) : (s.modDoc f).fresh = s.fresh := rfl
@[simp] theorem modDoc_pending (s : State) (f : Doc → Doc) : (s.modDoc f).pending = s.pending := rfl
@[simp] theorem modDoc_chan_of (s : State) (f : Doc → Doc) (m : BitVec 12) : (s.modDoc f).chan m = s.chan m := rfl
@[simp] theorem modDoc_eng_of (s : State) (f : Doc → Doc) (k : EngId) : (s.modDoc f).eng k = s.eng k := rfl
@[simp] theorem modDoc_gal_of (s : State) (f : Doc → Doc) (k : Nat) : (s.modDoc f).gal k = s.gal k := rfl
@[simp] theorem modDoc_slot_of (s : State) (f : Doc → Doc) (k : EngId) : (s.modDoc f).slot k = s.slot k := rfl
@[simp] theorem modDoc_link_of (s : State) (f : Doc → Doc) (k : BitVec 5) : (s.modDoc f).link k = s.link k := rfl
@[simp] theorem modDoc_arb_of (s : State) (f : Doc → Doc) (k : Nat) : (s.modDoc f).arb k = s.arb k := rfl
@[simp] theorem modDoc_port_of (s : State) (f : Doc → Doc) (k : Nat) : (s.modDoc f).port k = s.port k := rfl
@[simp] theorem modDoc_dom_of (s : State) (f : Doc → Doc) (k : Nat) : (s.modDoc f).dom k = s.dom k := rfl
@[simp] theorem modDoc_domOn_of (s : State) (f : Doc → Doc) (k : Nat) : (s.modDoc f).domOn k = s.domOn k := rfl
@[simp] theorem modDoc_pair_of (s : State) (f : Doc → Doc) (k : Nat) : (s.modDoc f).pair k = s.pair k := rfl
@[simp] theorem modDoc_sc_of (s : State) (f : Doc → Doc) (k : Nat) : (s.modDoc f).sc k = s.sc k := rfl
@[simp] theorem modDoc_rq_of (s : State) (f : Doc → Doc) (k : Nat) : (s.modDoc f).rq k = s.rq k := rfl
@[simp] theorem modDoc_sub_of (s : State) (f : Doc → Doc) (k : Nat) : (s.modDoc f).sub k = s.sub k := rfl
@[simp] theorem modDoc_evo_of (s : State) (f : Doc → Doc) (k : Nat) : (s.modDoc f).evo k = s.evo k := rfl
@[simp] theorem modDoc_irq_of (s : State) (f : Doc → Doc) (k : Nat) : (s.modDoc f).irq k = s.irq k := rfl
@[simp] theorem modDoc_line_of (s : State) (f : Doc → Doc) (k : Nat) : (s.modDoc f).line k = s.line k := rfl
@[simp] theorem modDoc_dspOf_of (s : State) (f : Doc → Doc) (m : BitVec 12) : (s.modDoc f).dspOf m = s.dspOf m := rfl
@[simp] theorem modDoc_sup_of (s : State) (f : Doc → Doc) (k : Nat) : (s.modDoc f).sup k = s.sup k := rfl
@[simp] theorem modDoc_clk_of (s : State) (f : Doc → Doc) (k : Nat) : (s.modDoc f).clk k = s.clk k := rfl
@[simp] theorem modDoc_key_of (s : State) (f : Doc → Doc) (k : Nat) : (s.modDoc f).key k = s.key k := rfl
@[simp] theorem modDoc_keyWin_of (s : State) (f : Doc → Doc) (k : Nat) : (s.modDoc f).keyWin k = s.keyWin k := rfl
@[simp] theorem modDoc_win_of (s : State) (f : Doc → Doc) (k : Nat) : (s.modDoc f).win k = s.win k := rfl
@[simp] theorem modDoc_app_of (s : State) (f : Doc → Doc) (r : Reg) : (s.modDoc f).app r = s.app r := rfl
@[simp] theorem modDoc_stg_of (s : State) (f : Doc → Doc) (r : Reg) : (s.modDoc f).stg r = s.stg r := rfl
@[simp] theorem modDoc_reg_of (s : State) (f : Doc → Doc) (r : Reg) : (s.modDoc f).reg r = s.reg r := rfl
@[simp] theorem modDoc_now_of (s : State) (f : Doc → Doc) : (s.modDoc f).now = s.now := rfl
@[simp] theorem modDoc_coreOn_of (s : State) (f : Doc → Doc) : (s.modDoc f).coreOn = s.coreOn := rfl

/-! ## modSbp -/

@[simp] theorem modSbp_boot (s : State) (f : Sbp → Sbp) : (s.modSbp f).boot = s.boot := rfl
@[simp] theorem modSbp_tbs (s : State) (f : Sbp → Sbp) : (s.modSbp f).tbs = s.tbs := rfl
@[simp] theorem modSbp_chans (s : State) (f : Sbp → Sbp) : (s.modSbp f).chans = s.chans := rfl
@[simp] theorem modSbp_wins (s : State) (f : Sbp → Sbp) : (s.modSbp f).wins = s.wins := rfl
@[simp] theorem modSbp_engs (s : State) (f : Sbp → Sbp) : (s.modSbp f).engs = s.engs := rfl
@[simp] theorem modSbp_gals (s : State) (f : Sbp → Sbp) : (s.modSbp f).gals = s.gals := rfl
@[simp] theorem modSbp_slots (s : State) (f : Sbp → Sbp) : (s.modSbp f).slots = s.slots := rfl
@[simp] theorem modSbp_evc (s : State) (f : Sbp → Sbp) : (s.modSbp f).evc = s.evc := rfl
@[simp] theorem modSbp_links (s : State) (f : Sbp → Sbp) : (s.modSbp f).links = s.links := rfl
@[simp] theorem modSbp_arbs (s : State) (f : Sbp → Sbp) : (s.modSbp f).arbs = s.arbs := rfl
@[simp] theorem modSbp_ports (s : State) (f : Sbp → Sbp) : (s.modSbp f).ports = s.ports := rfl
@[simp] theorem modSbp_txns (s : State) (f : Sbp → Sbp) : (s.modSbp f).txns = s.txns := rfl
@[simp] theorem modSbp_nextTxn (s : State) (f : Sbp → Sbp) : (s.modSbp f).nextTxn = s.nextTxn := rfl
@[simp] theorem modSbp_lines (s : State) (f : Sbp → Sbp) : (s.modSbp f).lines = s.lines := rfl
@[simp] theorem modSbp_vitFlush (s : State) (f : Sbp → Sbp) : (s.modSbp f).vitFlush = s.vitFlush := rfl
@[simp] theorem modSbp_vitOld (s : State) (f : Sbp → Sbp) : (s.modSbp f).vitOld = s.vitOld := rfl
@[simp] theorem modSbp_sliceCord (s : State) (f : Sbp → Sbp) : (s.modSbp f).sliceCord = s.sliceCord := rfl
@[simp] theorem modSbp_dsp (s : State) (f : Sbp → Sbp) : (s.modSbp f).dsp = s.dsp := rfl
@[simp] theorem modSbp_rw (s : State) (f : Sbp → Sbp) : (s.modSbp f).rw = s.rw := rfl
@[simp] theorem modSbp_hold (s : State) (f : Sbp → Sbp) : (s.modSbp f).hold = s.hold := rfl
@[simp] theorem modSbp_stage (s : State) (f : Sbp → Sbp) : (s.modSbp f).stage = s.stage := rfl
@[simp] theorem modSbp_loader (s : State) (f : Sbp → Sbp) : (s.modSbp f).loader = s.loader := rfl
@[simp] theorem modSbp_keys (s : State) (f : Sbp → Sbp) : (s.modSbp f).keys = s.keys := rfl
@[simp] theorem modSbp_keyWins (s : State) (f : Sbp → Sbp) : (s.modSbp f).keyWins = s.keyWins := rfl
@[simp] theorem modSbp_fcr (s : State) (f : Sbp → Sbp) : (s.modSbp f).fcr = s.fcr := rfl
@[simp] theorem modSbp_doc (s : State) (f : Sbp → Sbp) : (s.modSbp f).doc = s.doc := rfl
@[simp] theorem modSbp_doms (s : State) (f : Sbp → Sbp) : (s.modSbp f).doms = s.doms := rfl
@[simp] theorem modSbp_pcm (s : State) (f : Sbp → Sbp) : (s.modSbp f).pcm = s.pcm := rfl
@[simp] theorem modSbp_ledger (s : State) (f : Sbp → Sbp) : (s.modSbp f).ledger = s.ledger := rfl
@[simp] theorem modSbp_mst (s : State) (f : Sbp → Sbp) : (s.modSbp f).mst = s.mst := rfl
@[simp] theorem modSbp_resp (s : State) (f : Sbp → Sbp) : (s.modSbp f).resp = s.resp := rfl
@[simp] theorem modSbp_snpRsp (s : State) (f : Sbp → Sbp) : (s.modSbp f).snpRsp = s.snpRsp := rfl
@[simp] theorem modSbp_trace (s : State) (f : Sbp → Sbp) : (s.modSbp f).trace = s.trace := rfl
@[simp] theorem modSbp_fresh (s : State) (f : Sbp → Sbp) : (s.modSbp f).fresh = s.fresh := rfl
@[simp] theorem modSbp_pending (s : State) (f : Sbp → Sbp) : (s.modSbp f).pending = s.pending := rfl
@[simp] theorem modSbp_chan_of (s : State) (f : Sbp → Sbp) (m : BitVec 12) : (s.modSbp f).chan m = s.chan m := rfl
@[simp] theorem modSbp_eng_of (s : State) (f : Sbp → Sbp) (k : EngId) : (s.modSbp f).eng k = s.eng k := rfl
@[simp] theorem modSbp_gal_of (s : State) (f : Sbp → Sbp) (k : Nat) : (s.modSbp f).gal k = s.gal k := rfl
@[simp] theorem modSbp_slot_of (s : State) (f : Sbp → Sbp) (k : EngId) : (s.modSbp f).slot k = s.slot k := rfl
@[simp] theorem modSbp_link_of (s : State) (f : Sbp → Sbp) (k : BitVec 5) : (s.modSbp f).link k = s.link k := rfl
@[simp] theorem modSbp_arb_of (s : State) (f : Sbp → Sbp) (k : Nat) : (s.modSbp f).arb k = s.arb k := rfl
@[simp] theorem modSbp_port_of (s : State) (f : Sbp → Sbp) (k : Nat) : (s.modSbp f).port k = s.port k := rfl
@[simp] theorem modSbp_dom_of (s : State) (f : Sbp → Sbp) (k : Nat) : (s.modSbp f).dom k = s.dom k := rfl
@[simp] theorem modSbp_domOn_of (s : State) (f : Sbp → Sbp) (k : Nat) : (s.modSbp f).domOn k = s.domOn k := rfl
@[simp] theorem modSbp_pair_of (s : State) (f : Sbp → Sbp) (k : Nat) : (s.modSbp f).pair k = s.pair k := rfl
@[simp] theorem modSbp_sc_of (s : State) (f : Sbp → Sbp) (k : Nat) : (s.modSbp f).sc k = s.sc k := rfl
@[simp] theorem modSbp_rq_of (s : State) (f : Sbp → Sbp) (k : Nat) : (s.modSbp f).rq k = s.rq k := rfl
@[simp] theorem modSbp_sub_of (s : State) (f : Sbp → Sbp) (k : Nat) : (s.modSbp f).sub k = s.sub k := rfl
@[simp] theorem modSbp_evo_of (s : State) (f : Sbp → Sbp) (k : Nat) : (s.modSbp f).evo k = s.evo k := rfl
@[simp] theorem modSbp_irq_of (s : State) (f : Sbp → Sbp) (k : Nat) : (s.modSbp f).irq k = s.irq k := rfl
@[simp] theorem modSbp_line_of (s : State) (f : Sbp → Sbp) (k : Nat) : (s.modSbp f).line k = s.line k := rfl
@[simp] theorem modSbp_dspOf_of (s : State) (f : Sbp → Sbp) (m : BitVec 12) : (s.modSbp f).dspOf m = s.dspOf m := rfl
@[simp] theorem modSbp_sup_of (s : State) (f : Sbp → Sbp) (k : Nat) : (s.modSbp f).sup k = s.sup k := rfl
@[simp] theorem modSbp_clk_of (s : State) (f : Sbp → Sbp) (k : Nat) : (s.modSbp f).clk k = s.clk k := rfl
@[simp] theorem modSbp_key_of (s : State) (f : Sbp → Sbp) (k : Nat) : (s.modSbp f).key k = s.key k := rfl
@[simp] theorem modSbp_keyWin_of (s : State) (f : Sbp → Sbp) (k : Nat) : (s.modSbp f).keyWin k = s.keyWin k := rfl
@[simp] theorem modSbp_win_of (s : State) (f : Sbp → Sbp) (k : Nat) : (s.modSbp f).win k = s.win k := rfl
@[simp] theorem modSbp_app_of (s : State) (f : Sbp → Sbp) (r : Reg) : (s.modSbp f).app r = s.app r := rfl
@[simp] theorem modSbp_stg_of (s : State) (f : Sbp → Sbp) (r : Reg) : (s.modSbp f).stg r = s.stg r := rfl
@[simp] theorem modSbp_reg_of (s : State) (f : Sbp → Sbp) (r : Reg) : (s.modSbp f).reg r = s.reg r := rfl
@[simp] theorem modSbp_now_of (s : State) (f : Sbp → Sbp) : (s.modSbp f).now = s.now := rfl
@[simp] theorem modSbp_coreOn_of (s : State) (f : Sbp → Sbp) : (s.modSbp f).coreOn = s.coreOn := rfl

/-! ## modStage -/

@[simp] theorem modStage_boot (s : State) (f : Staging → Staging) : (s.modStage f).boot = s.boot := rfl
@[simp] theorem modStage_tbs (s : State) (f : Staging → Staging) : (s.modStage f).tbs = s.tbs := rfl
@[simp] theorem modStage_chans (s : State) (f : Staging → Staging) : (s.modStage f).chans = s.chans := rfl
@[simp] theorem modStage_wins (s : State) (f : Staging → Staging) : (s.modStage f).wins = s.wins := rfl
@[simp] theorem modStage_engs (s : State) (f : Staging → Staging) : (s.modStage f).engs = s.engs := rfl
@[simp] theorem modStage_gals (s : State) (f : Staging → Staging) : (s.modStage f).gals = s.gals := rfl
@[simp] theorem modStage_slots (s : State) (f : Staging → Staging) : (s.modStage f).slots = s.slots := rfl
@[simp] theorem modStage_evc (s : State) (f : Staging → Staging) : (s.modStage f).evc = s.evc := rfl
@[simp] theorem modStage_links (s : State) (f : Staging → Staging) : (s.modStage f).links = s.links := rfl
@[simp] theorem modStage_arbs (s : State) (f : Staging → Staging) : (s.modStage f).arbs = s.arbs := rfl
@[simp] theorem modStage_ports (s : State) (f : Staging → Staging) : (s.modStage f).ports = s.ports := rfl
@[simp] theorem modStage_txns (s : State) (f : Staging → Staging) : (s.modStage f).txns = s.txns := rfl
@[simp] theorem modStage_nextTxn (s : State) (f : Staging → Staging) : (s.modStage f).nextTxn = s.nextTxn := rfl
@[simp] theorem modStage_lines (s : State) (f : Staging → Staging) : (s.modStage f).lines = s.lines := rfl
@[simp] theorem modStage_vitFlush (s : State) (f : Staging → Staging) : (s.modStage f).vitFlush = s.vitFlush := rfl
@[simp] theorem modStage_vitOld (s : State) (f : Staging → Staging) : (s.modStage f).vitOld = s.vitOld := rfl
@[simp] theorem modStage_sliceCord (s : State) (f : Staging → Staging) : (s.modStage f).sliceCord = s.sliceCord := rfl
@[simp] theorem modStage_dsp (s : State) (f : Staging → Staging) : (s.modStage f).dsp = s.dsp := rfl
@[simp] theorem modStage_rw (s : State) (f : Staging → Staging) : (s.modStage f).rw = s.rw := rfl
@[simp] theorem modStage_hold (s : State) (f : Staging → Staging) : (s.modStage f).hold = s.hold := rfl
@[simp] theorem modStage_loader (s : State) (f : Staging → Staging) : (s.modStage f).loader = s.loader := rfl
@[simp] theorem modStage_keys (s : State) (f : Staging → Staging) : (s.modStage f).keys = s.keys := rfl
@[simp] theorem modStage_keyWins (s : State) (f : Staging → Staging) : (s.modStage f).keyWins = s.keyWins := rfl
@[simp] theorem modStage_fcr (s : State) (f : Staging → Staging) : (s.modStage f).fcr = s.fcr := rfl
@[simp] theorem modStage_doc (s : State) (f : Staging → Staging) : (s.modStage f).doc = s.doc := rfl
@[simp] theorem modStage_doms (s : State) (f : Staging → Staging) : (s.modStage f).doms = s.doms := rfl
@[simp] theorem modStage_pcm (s : State) (f : Staging → Staging) : (s.modStage f).pcm = s.pcm := rfl
@[simp] theorem modStage_ledger (s : State) (f : Staging → Staging) : (s.modStage f).ledger = s.ledger := rfl
@[simp] theorem modStage_sbp (s : State) (f : Staging → Staging) : (s.modStage f).sbp = s.sbp := rfl
@[simp] theorem modStage_mst (s : State) (f : Staging → Staging) : (s.modStage f).mst = s.mst := rfl
@[simp] theorem modStage_resp (s : State) (f : Staging → Staging) : (s.modStage f).resp = s.resp := rfl
@[simp] theorem modStage_snpRsp (s : State) (f : Staging → Staging) : (s.modStage f).snpRsp = s.snpRsp := rfl
@[simp] theorem modStage_trace (s : State) (f : Staging → Staging) : (s.modStage f).trace = s.trace := rfl
@[simp] theorem modStage_fresh (s : State) (f : Staging → Staging) : (s.modStage f).fresh = s.fresh := rfl
@[simp] theorem modStage_pending (s : State) (f : Staging → Staging) : (s.modStage f).pending = s.pending := rfl
@[simp] theorem modStage_chan_of (s : State) (f : Staging → Staging) (m : BitVec 12) : (s.modStage f).chan m = s.chan m := rfl
@[simp] theorem modStage_eng_of (s : State) (f : Staging → Staging) (k : EngId) : (s.modStage f).eng k = s.eng k := rfl
@[simp] theorem modStage_gal_of (s : State) (f : Staging → Staging) (k : Nat) : (s.modStage f).gal k = s.gal k := rfl
@[simp] theorem modStage_slot_of (s : State) (f : Staging → Staging) (k : EngId) : (s.modStage f).slot k = s.slot k := rfl
@[simp] theorem modStage_link_of (s : State) (f : Staging → Staging) (k : BitVec 5) : (s.modStage f).link k = s.link k := rfl
@[simp] theorem modStage_arb_of (s : State) (f : Staging → Staging) (k : Nat) : (s.modStage f).arb k = s.arb k := rfl
@[simp] theorem modStage_port_of (s : State) (f : Staging → Staging) (k : Nat) : (s.modStage f).port k = s.port k := rfl
@[simp] theorem modStage_dom_of (s : State) (f : Staging → Staging) (k : Nat) : (s.modStage f).dom k = s.dom k := rfl
@[simp] theorem modStage_domOn_of (s : State) (f : Staging → Staging) (k : Nat) : (s.modStage f).domOn k = s.domOn k := rfl
@[simp] theorem modStage_pair_of (s : State) (f : Staging → Staging) (k : Nat) : (s.modStage f).pair k = s.pair k := rfl
@[simp] theorem modStage_sc_of (s : State) (f : Staging → Staging) (k : Nat) : (s.modStage f).sc k = s.sc k := rfl
@[simp] theorem modStage_rq_of (s : State) (f : Staging → Staging) (k : Nat) : (s.modStage f).rq k = s.rq k := rfl
@[simp] theorem modStage_sub_of (s : State) (f : Staging → Staging) (k : Nat) : (s.modStage f).sub k = s.sub k := rfl
@[simp] theorem modStage_evo_of (s : State) (f : Staging → Staging) (k : Nat) : (s.modStage f).evo k = s.evo k := rfl
@[simp] theorem modStage_irq_of (s : State) (f : Staging → Staging) (k : Nat) : (s.modStage f).irq k = s.irq k := rfl
@[simp] theorem modStage_line_of (s : State) (f : Staging → Staging) (k : Nat) : (s.modStage f).line k = s.line k := rfl
@[simp] theorem modStage_dspOf_of (s : State) (f : Staging → Staging) (m : BitVec 12) : (s.modStage f).dspOf m = s.dspOf m := rfl
@[simp] theorem modStage_sup_of (s : State) (f : Staging → Staging) (k : Nat) : (s.modStage f).sup k = s.sup k := rfl
@[simp] theorem modStage_clk_of (s : State) (f : Staging → Staging) (k : Nat) : (s.modStage f).clk k = s.clk k := rfl
@[simp] theorem modStage_key_of (s : State) (f : Staging → Staging) (k : Nat) : (s.modStage f).key k = s.key k := rfl
@[simp] theorem modStage_keyWin_of (s : State) (f : Staging → Staging) (k : Nat) : (s.modStage f).keyWin k = s.keyWin k := rfl
@[simp] theorem modStage_win_of (s : State) (f : Staging → Staging) (k : Nat) : (s.modStage f).win k = s.win k := rfl
@[simp] theorem modStage_reg_of (s : State) (f : Staging → Staging) (r : Reg) : (s.modStage f).reg r = s.reg r := rfl
@[simp] theorem modStage_now_of (s : State) (f : Staging → Staging) : (s.modStage f).now = s.now := rfl
@[simp] theorem modStage_coreOn_of (s : State) (f : Staging → Staging) : (s.modStage f).coreOn = s.coreOn := rfl

/-! ## modTbs -/

@[simp] theorem modTbs_boot (s : State) (f : Tbs → Tbs) : (s.modTbs f).boot = s.boot := rfl
@[simp] theorem modTbs_chans (s : State) (f : Tbs → Tbs) : (s.modTbs f).chans = s.chans := rfl
@[simp] theorem modTbs_wins (s : State) (f : Tbs → Tbs) : (s.modTbs f).wins = s.wins := rfl
@[simp] theorem modTbs_engs (s : State) (f : Tbs → Tbs) : (s.modTbs f).engs = s.engs := rfl
@[simp] theorem modTbs_gals (s : State) (f : Tbs → Tbs) : (s.modTbs f).gals = s.gals := rfl
@[simp] theorem modTbs_slots (s : State) (f : Tbs → Tbs) : (s.modTbs f).slots = s.slots := rfl
@[simp] theorem modTbs_evc (s : State) (f : Tbs → Tbs) : (s.modTbs f).evc = s.evc := rfl
@[simp] theorem modTbs_links (s : State) (f : Tbs → Tbs) : (s.modTbs f).links = s.links := rfl
@[simp] theorem modTbs_arbs (s : State) (f : Tbs → Tbs) : (s.modTbs f).arbs = s.arbs := rfl
@[simp] theorem modTbs_ports (s : State) (f : Tbs → Tbs) : (s.modTbs f).ports = s.ports := rfl
@[simp] theorem modTbs_txns (s : State) (f : Tbs → Tbs) : (s.modTbs f).txns = s.txns := rfl
@[simp] theorem modTbs_nextTxn (s : State) (f : Tbs → Tbs) : (s.modTbs f).nextTxn = s.nextTxn := rfl
@[simp] theorem modTbs_lines (s : State) (f : Tbs → Tbs) : (s.modTbs f).lines = s.lines := rfl
@[simp] theorem modTbs_vitFlush (s : State) (f : Tbs → Tbs) : (s.modTbs f).vitFlush = s.vitFlush := rfl
@[simp] theorem modTbs_vitOld (s : State) (f : Tbs → Tbs) : (s.modTbs f).vitOld = s.vitOld := rfl
@[simp] theorem modTbs_sliceCord (s : State) (f : Tbs → Tbs) : (s.modTbs f).sliceCord = s.sliceCord := rfl
@[simp] theorem modTbs_dsp (s : State) (f : Tbs → Tbs) : (s.modTbs f).dsp = s.dsp := rfl
@[simp] theorem modTbs_rw (s : State) (f : Tbs → Tbs) : (s.modTbs f).rw = s.rw := rfl
@[simp] theorem modTbs_hold (s : State) (f : Tbs → Tbs) : (s.modTbs f).hold = s.hold := rfl
@[simp] theorem modTbs_stage (s : State) (f : Tbs → Tbs) : (s.modTbs f).stage = s.stage := rfl
@[simp] theorem modTbs_loader (s : State) (f : Tbs → Tbs) : (s.modTbs f).loader = s.loader := rfl
@[simp] theorem modTbs_keys (s : State) (f : Tbs → Tbs) : (s.modTbs f).keys = s.keys := rfl
@[simp] theorem modTbs_keyWins (s : State) (f : Tbs → Tbs) : (s.modTbs f).keyWins = s.keyWins := rfl
@[simp] theorem modTbs_fcr (s : State) (f : Tbs → Tbs) : (s.modTbs f).fcr = s.fcr := rfl
@[simp] theorem modTbs_doc (s : State) (f : Tbs → Tbs) : (s.modTbs f).doc = s.doc := rfl
@[simp] theorem modTbs_doms (s : State) (f : Tbs → Tbs) : (s.modTbs f).doms = s.doms := rfl
@[simp] theorem modTbs_pcm (s : State) (f : Tbs → Tbs) : (s.modTbs f).pcm = s.pcm := rfl
@[simp] theorem modTbs_ledger (s : State) (f : Tbs → Tbs) : (s.modTbs f).ledger = s.ledger := rfl
@[simp] theorem modTbs_sbp (s : State) (f : Tbs → Tbs) : (s.modTbs f).sbp = s.sbp := rfl
@[simp] theorem modTbs_mst (s : State) (f : Tbs → Tbs) : (s.modTbs f).mst = s.mst := rfl
@[simp] theorem modTbs_resp (s : State) (f : Tbs → Tbs) : (s.modTbs f).resp = s.resp := rfl
@[simp] theorem modTbs_snpRsp (s : State) (f : Tbs → Tbs) : (s.modTbs f).snpRsp = s.snpRsp := rfl
@[simp] theorem modTbs_trace (s : State) (f : Tbs → Tbs) : (s.modTbs f).trace = s.trace := rfl
@[simp] theorem modTbs_fresh (s : State) (f : Tbs → Tbs) : (s.modTbs f).fresh = s.fresh := rfl
@[simp] theorem modTbs_pending (s : State) (f : Tbs → Tbs) : (s.modTbs f).pending = s.pending := rfl
@[simp] theorem modTbs_chan_of (s : State) (f : Tbs → Tbs) (m : BitVec 12) : (s.modTbs f).chan m = s.chan m := rfl
@[simp] theorem modTbs_eng_of (s : State) (f : Tbs → Tbs) (k : EngId) : (s.modTbs f).eng k = s.eng k := rfl
@[simp] theorem modTbs_gal_of (s : State) (f : Tbs → Tbs) (k : Nat) : (s.modTbs f).gal k = s.gal k := rfl
@[simp] theorem modTbs_slot_of (s : State) (f : Tbs → Tbs) (k : EngId) : (s.modTbs f).slot k = s.slot k := rfl
@[simp] theorem modTbs_link_of (s : State) (f : Tbs → Tbs) (k : BitVec 5) : (s.modTbs f).link k = s.link k := rfl
@[simp] theorem modTbs_arb_of (s : State) (f : Tbs → Tbs) (k : Nat) : (s.modTbs f).arb k = s.arb k := rfl
@[simp] theorem modTbs_port_of (s : State) (f : Tbs → Tbs) (k : Nat) : (s.modTbs f).port k = s.port k := rfl
@[simp] theorem modTbs_dom_of (s : State) (f : Tbs → Tbs) (k : Nat) : (s.modTbs f).dom k = s.dom k := rfl
@[simp] theorem modTbs_domOn_of (s : State) (f : Tbs → Tbs) (k : Nat) : (s.modTbs f).domOn k = s.domOn k := rfl
@[simp] theorem modTbs_rq_of (s : State) (f : Tbs → Tbs) (k : Nat) : (s.modTbs f).rq k = s.rq k := rfl
@[simp] theorem modTbs_sub_of (s : State) (f : Tbs → Tbs) (k : Nat) : (s.modTbs f).sub k = s.sub k := rfl
@[simp] theorem modTbs_evo_of (s : State) (f : Tbs → Tbs) (k : Nat) : (s.modTbs f).evo k = s.evo k := rfl
@[simp] theorem modTbs_irq_of (s : State) (f : Tbs → Tbs) (k : Nat) : (s.modTbs f).irq k = s.irq k := rfl
@[simp] theorem modTbs_line_of (s : State) (f : Tbs → Tbs) (k : Nat) : (s.modTbs f).line k = s.line k := rfl
@[simp] theorem modTbs_dspOf_of (s : State) (f : Tbs → Tbs) (m : BitVec 12) : (s.modTbs f).dspOf m = s.dspOf m := rfl
@[simp] theorem modTbs_sup_of (s : State) (f : Tbs → Tbs) (k : Nat) : (s.modTbs f).sup k = s.sup k := rfl
@[simp] theorem modTbs_clk_of (s : State) (f : Tbs → Tbs) (k : Nat) : (s.modTbs f).clk k = s.clk k := rfl
@[simp] theorem modTbs_key_of (s : State) (f : Tbs → Tbs) (k : Nat) : (s.modTbs f).key k = s.key k := rfl
@[simp] theorem modTbs_keyWin_of (s : State) (f : Tbs → Tbs) (k : Nat) : (s.modTbs f).keyWin k = s.keyWin k := rfl
@[simp] theorem modTbs_win_of (s : State) (f : Tbs → Tbs) (k : Nat) : (s.modTbs f).win k = s.win k := rfl
@[simp] theorem modTbs_app_of (s : State) (f : Tbs → Tbs) (r : Reg) : (s.modTbs f).app r = s.app r := rfl
@[simp] theorem modTbs_stg_of (s : State) (f : Tbs → Tbs) (r : Reg) : (s.modTbs f).stg r = s.stg r := rfl
@[simp] theorem modTbs_reg_of (s : State) (f : Tbs → Tbs) (r : Reg) : (s.modTbs f).reg r = s.reg r := rfl
@[simp] theorem modTbs_coreOn_of (s : State) (f : Tbs → Tbs) : (s.modTbs f).coreOn = s.coreOn := rfl

end Sys2Proof.Machine.State
end

