-- ==== Sys2Proof/Tests/Slice0.lean ====
section
/-! SUPPORT. Tests: ill-formed commands that WellFormed refuses, results the manual prints, and for every statement's
hypotheses a concrete state and operands that meet them, each clause at a boundary where it has one. -/

set_option Elab.async false

namespace Sys2Proof.Tests

open Sys2Proof Sys2Proof.Machine

/-! ## Small states -/

/-- After the reset sequence, with every domain ON. -/
def base : State :=
  { State.reset with
    boot := { rstN := false, ready := true }
    doms := (List.range 43).map (fun d => (d, ({ st := .on, target := .on } : Dom))) }

/-- Engine 00.00. -/
def e0 : EngId := ⟨0, 0⟩

/-- A secure access. -/
def sec : TpAttr := .plain true 0

/-- A non-secure access. -/
def nonsec : TpAttr := .plain false 0

/-- A gallery whose image provides every feature. -/
def featured : Gal := { bankA := { st := .valid, imgId := 0x00010000, feat := 0x3F } }

/-- A state in which engine 00.00 runs channel 1. -/
def run (x : Engine) (c : Chan := {}) : State :=
  { base with
    gals := [(0, featured)]
    engs := [(0, { x with phase := .run, ch := 1 })]
    chans := [(1, { c with st := .running, inOrder := true, eng := some e0 })] }

/-- An outstanding data write of engine 00.00 to stream 1. -/
def openWrite : Txn :=
  { id := 0, port := 0, op := 1, addr := 0x1000, n := 16, data := List.replicate 16 0, sec := false, owner := 0, cache := 0, order := 0,
    stage := .sent, wing := some 0, gal := some e0, purpose := .data e0 1 true }

/-- An instruction word. -/
def iw (rd ra rb : BitVec 5) (md : BitVec 6) (imm : BitVec 32) (ss : BitVec 3 := 0) : IW :=
  { rd := rd, ra := ra, rb := rb, ss := ss, md := md, imm := imm }

/-- The outcome is a next state that passes the test. -/
def nxP (o : Host.Outcome State Fault Refusal) (p : State → Bool) : Bool :=
  match o with
  | .next t => p t
  | _ => false

/-- The outcome is this next state. -/
def nx (o : Host.Outcome State Fault Refusal) (t : State) : Bool := nxP o (· == t)

/-! ## WellFormed refuses, each beside the nearest command it admits -/

theorem test_wf_illegal_opcode : (Instr.illegalOpcode e0 0x3000000000000000).wf = false ∧
    (Instr.illegalOpcode e0 0xFF00000000000000).wf = true := by decide +kernel
theorem test_wf_ring_word : (Instr.ringConfigWrite sec 0 0x0D 0).wf = false ∧ (Instr.ringConfigWrite sec 0 0x0C 0).wf = true := by
  decide +kernel
theorem test_wf_lo_half : (Instr.loHalfRead sec 0x08004).wf = false ∧ (Instr.loHalfRead sec 0x08000).wf = true := by decide +kernel
theorem test_wf_rc_field : (Instr.rcFieldRead sec 0x00020).wf = false ∧ (Instr.rcFieldRead sec 0x00024).wf = true := by decide +kernel
theorem test_wf_staging : (Instr.stagingWrite sec 0x01008 0).wf = false ∧ (Instr.stagingWrite sec 0x0A008 0).wf = true := by decide +kernel
theorem test_wf_register : (Instr.registerWrite sec 0x0A008 0).wf = false ∧ (Instr.registerWrite sec 0x80000 0).wf = false ∧
    (Instr.registerWrite sec 0x01008 0).wf = true := by decide +kernel
theorem test_wf_arbiter : (Instr.arbiterGrantPoint (.port 31)).wf = false ∧ (Instr.arbiterGrantPoint (.port 0)).wf = true := by decide +kernel
theorem test_wf_watchdog : (Instr.grantWatchdogBite (.port 14)).wf = false ∧ (Instr.grantWatchdogBite (.port 13)).wf = true := by
  decide +kernel

/-- A frame of 16 payload words that carries `n` bytes. -/
def frameOf (n : Nat) : Frame :=
  { crcOk := true, zerosOk := true, typeOk := true, lane := false, seq := 0, len := 16, tinfo := 0, payload := List.replicate n 0, ackSeq := 0,
    ackV := false, nak := false }

theorem test_wf_frames : (Instr.streamData 0 (frameOf 127)).wf = false ∧ (Instr.streamStatus 0 (frameOf 129)).wf = false ∧
    (Instr.mark 0 (frameOf 0)).wf = false ∧ (Instr.ack 0 (frameOf 0)).wf = false ∧ (Instr.credit 0 (frameOf 0)).wf = false ∧
    (Instr.cap 0 (frameOf 0)).wf = false ∧ (Instr.streamData 0 (frameOf 128)).wf = true := by decide +kernel
theorem test_wf_wake : (Instr.wakeStart 7 0 0).wf = false ∧ (Instr.wakeStart 7 11 0).wf = false ∧ (Instr.wakeStart 7 10 0).wf = true := by
  decide +kernel
theorem test_wf_scrub : (Instr.scrubAccess .key 4096 ⟨false, false, false⟩).wf = false ∧
    (Instr.scrubAccess .key 0 ⟨false, false, false⟩).wf = true := by decide +kernel

/-! ## The hypotheses of the statements: instructions -/
/-- An engine whose registers hold these values from g1 on. -/
def regs (l : List DWord) (psr : Word := 0) : Engine := { g := (l.zipIdx.map (fun p => (p.2 + 1, p.1))).filter (fun p => p.2 != 0), psr := psr, pc := 0x100 }
/-- The state with the word of opcode `op` at engine 00.00's pc in its prefetch buffer. -/
def fetch (op : Nat) (w : IW) (s : State) : State := s.modEng e0 (fun x => { x with buf := [(x.pc, insnWord op w)] })
/-- The outcome is this next state, but for the prefetch buffer. -/
def nxb (o : Host.Outcome State Fault Refusal) (t : State) : Bool :=
  let clr (s : State) := s.modEng e0 (fun x => { x with buf := [] })
  nxP o (fun u => clr u == clr t)
/-- Engine 00.00 executes this word once it is fetched. -/
def runsIt (s : State) (op : Nat) (w : IW) : Bool := (fetch op w s).runs e0 op w
/-- A field check refuses the first word and admits the other, the engine executes both, and its image provides opcode `op`. -/
def bothForms (ok : IW → Bool) (bad good : IW) (s : State) (op : Nat := 0) : Bool :=
  runsIt s op bad && !ok bad && runsIt s op good && ok good && imgGives s e0 (opFeat op) (opMinor op good)
/-- The same with a word of each width. -/
def threeForms (ok : IW → Bool) (bad w32 w64 : IW) (s : State) : Bool :=
  bothForms ok bad w32 s && formW w32 && bothForms ok bad w64 s && !formW w64
/-- An image without features does not provide opcode `op`. -/
def imageLacks (op : Nat) (w : IW) (s : State) : Bool :=
  runsIt s op w && !imgGives { s with gals := [] } e0 (opFeat op) (opMinor op w)

/-- Each arithmetic and shift instruction: a word that R104 refuses, one of each width, with and without the trap. -/
theorem witness_ArithmeticResults :
    ([ threeForms (aluOk · true 0xFFFFFFFF) (iw 3 1 2 0 0 1) (iw 3 1 2 0x20 0) (iw 3 1 2 0 0) (run (regs [5, 7])),
       threeForms (aluOk · false 0xFFFFFFFF) (iw 3 1 2 0 0) (iw 0 1 2 0x20 0) (iw 0 1 0 0x10 5) (run (regs [5, 7])),
       threeForms (fieldsOk · true true false false 0x20 0) (iw 3 1 2 0 0) (iw 3 1 0 0x20 0) (iw 3 1 0 0 0) (run (regs [5])),
       threeForms (aluOk · true 0xFF) (iw 3 1 0 0x10 0x100) (iw 3 1 0 0x30 32) (iw 3 1 0 0x10 255) (run (regs [5])),
       ({ r := (0 : BitVec 64), v := some (BitVec.saddOverflow (0x7FFFFFFFFFFFFFFF : BitVec 64) 1) : Result 64 }.trap 0x200) == some 9,
       ({ r := (0 : BitVec 64), v := some (BitVec.saddOverflow (0x7FFFFFFFFFFFFFFE : BitVec 64) 1) : Result 64 }.trap 0x200) == none,
       ({ r := (0 : BitVec 32), v := some (BitVec.ssubOverflow (0x80000000 : BitVec 32) 1) : Result 32 }.trap 0x200) == some 9,
       ({ r := (0 : BitVec 32), v := some (BitVec.ssubOverflow 0 (0x80000000 : BitVec 32)) : Result 32 }.trap 0x200) == some 9,
       ({ r := (0 : BitVec 32), v := some (BitVec.ssubOverflow 0 (0x80000000 : BitVec 32)) : Result 32 }.trap 0) == none ] : List Bool).all id = true := by decide +kernel

/-- Multiplies and divisions with and without the trap of each enable. -/
theorem witness_MultiplyDivideResults :
    ([ threeForms (aluOk · true 0xFFFFFFFF) (iw 3 1 2 1 0) (iw 3 1 2 0x20 0) (iw 3 1 0 0x10 0) (run (regs [5, 7] 0x300)),
       ({ r := (0 : BitVec 64), v := some (BitVec.smulOverflow (0x4000000000000000 : BitVec 64) 2) : Result 64 }.trap 0x200) == some 9,
       ({ r := (0 : BitVec 32), dz := (0 : BitVec 32) == 0 : Result 32 }.trap 0x100) == some 8,
       ({ r := (0 : BitVec 32), dz := (0 : BitVec 32) == 0 : Result 32 }.trap 0x200) == none,
       ({ r := (0 : BitVec 64), v := some (decide ((0x8000000000000000 : BitVec 64) = BitVec.intMin 64 ∧ (-1 : BitVec 64) = -1)) : Result 64 }.trap 0x200) == some 9 ] : List Bool).all id = true := by decide +kernel

/-- A field that ends at the operand's last bit and one that passes it, at both widths; BSWAP of 2 bytes and of a bad size. -/
theorem witness_BitResults :
    ([ threeForms (fun w => fieldsOk w true true false false 0x20 0x3F3F && bfOk w) (iw 3 1 0 0x20 0x1F01) (iw 3 1 0 0x20 0x1F00)
          (iw 3 1 0 0 0x0000) (run (regs [5])),
       threeForms (fieldsOk · true true false false 0x20 0) (iw 3 1 0 0x10 0) (iw 3 1 0 0x20 0) (iw 3 1 0 0 0) (run (regs [5])),
       runsIt (run (regs [5])) 0x56 (iw 3 1 0 3 0) && fld (3 : BitVec 6) 0 2 == 3,
       runsIt (run (regs [5])) 0x56 (iw 3 1 0 2 0) && fieldsOk (iw 3 1 0 2 0) true true false false 0x03 0 && fld (2 : BitVec 6) 0 2 != 3 ] : List Bool).all id = true := by decide +kernel

/-- LI, RDSR, WRSR and the fences, each with a refused word. -/
theorem witness_MovesAndFences :
    ([ bothForms (fieldsOk · true false false false 0x01 0xFFFFFFFF) (iw 3 1 0 0 0) (iw 3 0 0 1 0xFFFFFFFF) (run (regs [5])),
       bothForms (fieldsOk · true false false false 0 0xFF) (iw 3 0 0 0 0x100) (iw 3 0 0 0 0xFF) (run (regs [5])),
       bothForms (fun w => fieldsOk w false true false false 0 0xFF && w.imm == 0) (iw 0 1 0 0 1) (iw 0 1 0 0 0) (run (regs [5])),
       bothForms (fieldsOk · false false false false 0x01 0) (iw 1 0 0 0 0) (iw 0 0 0 1 0) (run (regs [5])) 0x0B,
       imageLacks 0x0B (iw 0 0 0 1 0) (run (regs [5])),
       runsIt (run (regs [5])) 0x0B (iw 0 0 0 0 0) && writesOpen { run {} with txns := [openWrite] } e0 &&
          !writesOpen (run {}) e0 && ((run { wErr := some (0, 1, 0x1000) }).eng e0).wErr != none && ((run {} { rel := [.signal 1] }).chan 1).rel != [] ] : List Bool).all id = true := by decide +kernel

/-- Each branch with a refused word; DBNZ of g0 is refused. -/
theorem witness_Branches :
    ([ bothForms (fieldsOk · false false false false 0x0F 0xFFFFFFFF) (iw 0 0 0 0x10 0) (iw 0 0 0 0x0F 0xFFFFFFFF) (run (regs [])),
       bothForms (fun w => fieldsOk w true false false false 0 0xFFFFFFFF && w.rd != 0) (iw 0 0 0 0 0) (iw 1 0 0 0 0) (run (regs [1])),
       bothForms (fieldsOk · false false false false 0 0xFFFFFFFF) (iw 1 0 0 0 0) (iw 0 0 0 0 8) (run (regs [])),
       bothForms (fieldsOk · false true false false 0 0) (iw 0 1 0 0 1) (iw 0 1 0 0 0) (run (regs [0x40])),
       bothForms (fieldsOk · false false false false 0 0) (iw 0 1 0 0 0) (iw 0 0 0 0 0) (run (regs [])) ] : List Bool).all id = true := by decide +kernel

/-- A valid stack pointer with and without a handler, with EXL, an invalid one, and a Glovebox that holds a frame. -/
theorem witness_ExceptionEntry :
    ([ spValid ((run (regs [])).chan 1) 0x2000 && !spValid ((run (regs [])).chan 1) 0x2040 && !spValid ((run (regs [])).chan 1) 0x1000,
       ((run (regs []) { handler := 0x400 }).chan 1).handler != 0 && psrExl (0 : Word) == false && psrExl (0x00010000 : Word),
       (run { gbValid := true }).eng e0 |>.gbValid ] : List Bool).all id = true := by decide +kernel

/-- TRAP and ERET with a refused word. -/
theorem witness_TrapAndEret :
    ([ bothForms (fieldsOk · false false false false 0 0xFFFFFFFF) (iw 0 1 0 0 0) (iw 0 0 0 0 0xFFFFFFFF) (run (regs [])),
       bothForms (fieldsOk · false false false false 0 0) (iw 0 0 0 0 1) (iw 0 0 0 0 0) (run (regs [])) ] : List Bool).all id = true := by decide +kernel

/-- The last 8-byte word of the Alcove, the first address past it, and a misaligned one. -/
theorem witness_AlcoveAccess :
    ([ bothForms (fieldsOk · true true false false 0x07 0xFFFFFFFF) (iw 3 1 0 8 0) (iw 3 1 0 7 0) (run (regs [0x1FF8])),
       bothForms (fieldsOk · false true true false 0x03 0xFFFFFFFF) (iw 0 1 2 4 0) (iw 0 1 2 3 0) (run (regs [0x1FF8])),
       !decide (0x1FF8 % 8 ≠ 0 ∨ 0x2000 < 0x1FF8 + 8) && decide (0x2000 % 8 ≠ 0 ∨ 0x2000 < 0x2000 + 8) && decide (0x1FFC % 8 ≠ 0 ∨ 0x2000 < 0x1FFC + 8) ] : List Bool).all id = true := by decide +kernel

/-- Program space of 64 KiB at address 0, one line of it held shared by W0's slice, as channel 1 runs. -/
def spaced (x : Engine) (c : Chan := {}) : State :=
  { run x c with
    stage := { app := [(0xA008, 1), (0xA010, 1)] }
    lines := [(1, { st := .S, slices := 1, data := List.replicate 64 7 }), (2, { st := .S, slices := 1, data := List.replicate 64 0 })] }
/-- A template scratch area of the last page of program space. -/
def scratch : State := let s := spaced {}; { s with stage := { app := [(0xA008, 1), (0xA010, 1), (0xA018, 1)] } }

/-- Offsets at both ends of program space, a held line, and a counter that the engine, the releases or no one holds. -/
theorem witness_ProgramSpaceLoads :
    ([ bothForms (fieldsOk · true true false false 0x03 0xFFFFFFFF) (iw 3 1 2 0 0) (iw 3 1 0 3 0) (spaced (regs [0x40])),
       bothForms (fieldsOk · true true false false 0 0xFFFFFFFF) (iw 3 1 0 1 0) (iw 3 1 0 0 0) (spaced (regs [0x40])) 0x63,
       imageLacks 0x63 (iw 3 1 0 0 0) (spaced (regs [0x40])),
       (spaced {}).psSize == 0x10000 && decide (0x3F < 0x40) && decide ((spaced {}).psSize ≤ 0x10000) && decide (0x10000 - 1 < (spaced {}).psSize),
       (spaced {}).vitFlush == false && ((spaced {}).line (((spaced {}).psBase + 0x40).toNat / 64)).st != .I && decide (0x40 % 64 + 8 ≤ 64),
       counterOk (spaced {}) 0x3F == false && counterOk scratch 0xFFF8 && !counterOk scratch 0x10000 ] : List Bool).all id = true := by decide +kernel

/-- SIGNAL and EVTST with a refused word. -/
theorem witness_EventInstructions :
    ([ bothForms (fieldsOk · false false false false 0 0xFF) (iw 1 0 0 0 0) (iw 0 0 0 0 255) (run (regs [])),
       bothForms (fieldsOk · true false false false 0 0xFF) (iw 1 0 0 0 256) (iw 1 0 0 0 255) (run (regs [])) ] : List Bool).all id = true := by decide +kernel

/-- The time instructions with a refused word. -/
theorem witness_TimeInstructions :
    ([ bothForms (fieldsOk · true false false false 0 0) (iw 1 1 0 0 0) (iw 1 0 0 0 0) (run (regs [])) 0x71,
       bothForms (fieldsOk · true true false false 0 0) (iw 1 1 1 0 0) (iw 1 1 0 0 0) (run (regs [])) 0x73,
       bothForms (fieldsOk · true true false false 0 0xFFFFFFFF) (iw 1 1 0 1 0) (iw 1 1 0 0 0xFFFFFFFF) (run (regs [])) 0x74,
       imageLacks 0x71 (iw 1 0 0 0 0) (run (regs [])) && imageLacks 0x72 (iw 1 1 0 0 0) (run (regs [])) && imageLacks 0x73 (iw 1 1 0 0 0) (run (regs [])) &&
          imageLacks 0x74 (iw 1 1 0 0 1) (run (regs [])) ] : List Bool).all id = true := by decide +kernel

/-- Engine 00.00 of this state in another phase. -/
def inPhase (p : EPhase) (x : Engine := {}) (c : Chan := {}) : State :=
  { base with
    engs := [(0, { x with phase := p, ch := 1 })]
    chans := [(1, { c with st := .running, inOrder := true, eng := some e0 })] }

/-- A residue of 3 bytes for stream 2 from stream 1. -/
def held3 : Residue := { dst := 2, src := 1, bytes := [1, 2, 3] }

/-- An unassigned opcode, offsets just outside program space, a failed fetch, and an ending with and without open writes. -/
theorem witness_EngineExceptions :
    ([ canRun ((run {}).eng e0) && ((run {}).eng e0).busy == none && !((run {}).eng e0).pcOut && ((run { pcOut := true }).eng e0).pcOut && !engHeld (run {}) e0,
       decodeInsn e0 0x01FFFFFF00000000 == none && decodeInsn e0 0x9200000000000000 == none,
       (let s := run { buf := [(0x100, 0x01FFFFFF00000000)], pc := 0x100 }; fetched (s.eng e0) == some 0x01FFFFFF00000000 && failedRead (s.eng e0) == none),
       (let s := spaced { pc := 0x40 }; let x := s.eng e0; x.busy == none && !x.pcOut && decide (0x40 ≤ x.pc.toNat ∧ x.pc.toNat < s.psSize) && fetched x == none &&
          !s.vitFlush && x.reads == [] && (s.psBase + 0x40).toNat % 64 == 0 && (s.line ((s.psBase + 0x40).toNat / 64)).st != .I &&
          inSlice (s.line ((s.psBase + 0x40).toNat / 64)) (sliceOf s 0)),
       (let s := spaced { pc := 0xC0 }; (s.line ((s.psBase + 0xC0).toNat / 64)).st == .I && !lineBusy s ((s.psBase + 0xC0).toNat / 64) && fetched (s.eng e0) == none),
       decide (((run { pc := 0x38 }).eng e0).pc.toNat < 0x40) && decide ((spaced { pc := 0x10000 }).psSize ≤ ((spaced { pc := 0x10000 }).eng e0).pc.toNat),
       ((inPhase (.ending 0x29)).eng e0).phase == .ending 0x29 && !writesOpen (inPhase (.ending 0x29)) e0,
       writesOpen { inPhase (.ending 0x29) with txns := [openWrite] } e0 ] : List Bool).all id = true := by decide +kernel

/-- Both intervals just reached, a forced flush, and a commit with writes open, failed, and answered. -/
theorem witness_Checkpoints :
    ([ decide (0 < ((run {}).chan 1).ckBytes ∧ ((run {}).chan 1).ckBytes ≤ 4096) && ((run { bytesSince := 4096 }).eng e0).bytesSince == 4096,
       decide (0 < ((run {}).chan 1).ckTicks) && decide (((run {}).chan 1).ckTicks ≤ (3200 : DWord).toNat),
       ([true, false].all fun el => let s := { run { due := some 0, residue := some held3, cur := some { w := iw 1 0 0 0 0, elig := el }, sd := [(2, [7, 1])], s := [(2, { desc := 2, pos := 0 })] } with tbs := { time := 3200 } };
          canRun (s.eng e0) && !engHeld s e0 && (s.eng e0).cur != none && (s.eng e0).reads == [] && (s.eng e0).due == some 0 && (s.eng e0).residue != none && decide ((s.chan 1).ckTicks ≤ (s.now - 0).toNat)),
       writesOpen { inPhase (.commit 0x108 .go) with txns := [openWrite] } e0,
       !writesOpen (inPhase (.commit 0x108 .go)) e0 && ((inPhase (.commit 0x108 .go)).eng e0).wErr == none,
       ((inPhase (.commit 0x108 .go) { wErr := some (0, 1, 0x1000) }).eng e0).wErr != none ] : List Bool).all id = true := by decide +kernel

/-- Each instruction with a refused word; NOTIFY with and without a free slot, and with sixteen effects held. -/
theorem witness_CheckpointInstructions :
    ([ bothForms (fieldsOk · false true true false 0 0) (iw 1 1 2 0 0) (iw 0 1 2 0 0) (run (regs [1, 2])),
       bothForms (fieldsOk · false false false false 0 0) (iw 0 0 0 0 1) (iw 0 0 0 0 0) (run (regs [])),
       ((run {}).chan 1).slotFree && !((run {} { reserved := 16 }).chan 1).slotFree && ((run {} { reserved := 15 }).chan 1).slotFree,
       decide (16 ≤ ((run { effects := List.replicate 16 (.signal 0) }).eng e0).effects.length) ] : List Bool).all id = true := by decide +kernel

/-- Each condition with a refused word; an anchor that is late under each policy, one ahead, and one without angular time. -/
theorem witness_WaitInstructions :
    ([ bothForms (fieldsOk · false true false false 0x0F 0) (iw 1 1 0 0 0) (iw 0 1 0 0x0C 0) (run (regs [5])),
       bothForms (fieldsOk · false true false false 0x0F 0) (iw 0 1 0 0x10 0) (iw 0 1 0 0x0D 0) (run (regs [5])),
       bothForms (fieldsOk · false true false false 0x03 0) (iw 0 1 0 6 0) (iw 0 1 0 2 0) (run (regs [5])),
       bothForms (fieldsOk · false true false false 0x03 0xFF) (iw 0 0 0 3 0x100) (iw 0 0 0 3 0xFF) (run (regs [5])),
       (let s := { run (regs [5]) with tbs := { time := 1000000 } };
          judge s 5 false 0 == .fired && judge s 5 false 1 == .fired && judge s 5 false 2 == .drop && (match judge s 5 false 3 with | .trap _ => true | _ => false)),
       judge (run (regs [5])) 0x100000 false 2 == .armed 0x100000 0 false && judge (run (regs [5])) 5 true 2 == .held,
       ((run {}).eng e0).residue == none && runsIt (run (regs [5])) 0x20 (iw 0 1 0 0x0C 0) && imgGives (run {}) e0 16 0 && !imgGives base e0 16 0,
       maySubscribe (run {}) 1 0xFF == false ] : List Bool).all id = true := by decide +kernel

/-- An Alcove descriptor: direction, base, length. -/
def alcDesc (dst : Bool) (b len : Nat) : List Byte :=
  [7, if dst then 1 else 0, 0, 0, 0, 0, 0, 0] ++ toLe 8 b ++ toLe 5 len ++ List.replicate 11 0

/-- A scatter-gather list at this base. -/
def sgDesc (b len : Nat) : List Byte := [3, 0, 0, 0, 0, 0, 0, 0] ++ toLe 8 b ++ toLe 5 len ++ List.replicate 11 0

/-- A memory descriptor over port 0: LINEAR, direction and capture flag, base, length. -/
def memDesc (dst nr : Bool) (b len : Nat) : List Byte :=
  [1, (if dst then 1 else 0) + (if nr then 2 else 0), 0, 0, 0, 0, 0, 0] ++ toLe 8 b ++ toLe 5 len ++ List.replicate 11 0

/-- An engine with stream 1 and stream 2 over these descriptors. -/
def streams (a d : List Byte) (x : Engine) : Engine :=
  { x with s := [(1, { desc := 2, pos := 0 }), (2, { desc := 3, pos := 0 })], sd := [(1, a), (2, d)] }

/-- An Alcove source and an Alcove destination. -/
def alcPair (x : Engine) : Engine := streams (alcDesc false 0x100 0x80) (alcDesc true 0x800 0x80) x

/-- SDEF of 0, of a bad offset, past program space, and of a descriptor at hand; SSEEK and SPOS of no stream, of a link, to the length and past it. -/
theorem witness_StreamCursors :
    ([ bothForms (fieldsOk · false false false true 0 0xFFFFFFFF) { iw 1 0 0 0 0 with ss := 1 } { iw 0 0 0 0 0 with ss := 1 } (run (alcPair (regs []))),
       decide ((0x41 % 32 ≠ 0) ∧ 0x20 < 0x40 ∧ (spaced {}).psSize ≤ 0x10000),
       (match psRead e0 2 0x40 32 (spaced {}) with | .ok c _ => c.length == 32 | _ => false),
       bothForms (fieldsOk · false true false true 0 0) (iw 0 1 1 0 0 1) (iw 0 1 0 0 0 1) (run (alcPair (regs [0x80]))),
       bothForms (fieldsOk · true false false true 0x01 0) (iw 1 1 0 0 0 1) (iw 1 0 0 1 0 1) (run (alcPair (regs [0x80]))),
       ((run (alcPair {})).eng e0 |>.cur_ 3).desc == 0 && ((run (alcPair {})).eng e0 |>.cur_ 1).desc != 0 && Tbl.get [] ((run (alcPair {})).eng e0).sd 1 != [],
       (decDesc (alcDesc false 0x100 0x80)).sl == false && (decDesc (alcDesc false 0x100 0x80)).kind == 7 &&
          (decDesc (alcDesc false 0x100 0x80)).lenOf {} == 0x80 && (decDesc ([4] ++ List.replicate 31 0)).sl,
       (let d := sgDesc 0x1008 0x80; let x := streams d (alcDesc true 0x800 0x80) {};
          (decDesc d).kind == 3 && !(decDesc d).sl && (decDesc d).lenOf x == 0x80 && ((decDesc d).baseOf x).toNat % 16 != 0),
       (let d := sgDesc 0x1000 0x80; let x := { streams d (alcDesc true 0x800 0x80) {} with s := [(1, { desc := 2, pos := 8 })] };
          ((decDesc d).baseOf x).toNat % 16 == 0 && decide (0 < (x.cur_ 1).pos.toNat) && x.cur == none) ] : List Bool).all id = true := by decide +kernel

/-- A MOVE of 0x80 bytes between two buffers, up to both lengths, by a count register that is not carried; and of one byte. -/
theorem witness_AlcoveMove :
    ([ (let w := iw 5 0 0 0 1 2;
          let s := fetch 0x14 w (run (alcPair (regs [0, 0, 0, 0, 0x80])));
          s.runs e0 0x14 w && srcOf w == 1 && (fieldsOk w true false false true 0 0x07 && w.rd != 0) && !carriedReg w.rd && (s.eng e0).rg 5 == 0x80 &&
          (decDesc (alcDesc false 0x100 0x80)).kind == 7 && !(decDesc (alcDesc false 0x100 0x80)).dir && (decDesc (alcDesc true 0x800 0x80)).dir &&
          !(decDesc (alcDesc true 0x800 0x80)).nr && !(decDesc (alcDesc true 0x800 0x80)).bb && !(decDesc (alcDesc true 0x800 0x80)).bl &&
          (decDesc (alcDesc true 0x800 0x80)).len == 0x80 && (decDesc (alcDesc true 0x800 0x80)).base == 0x800 && decide (0x80 ≤ 256 - 0x800 % 256)),
       (let s := run (alcPair (regs [0, 0, 0, 0, 1]));
          (s.eng e0).residue == none && (s.eng e0).cur == none && (s.eng e0).rg 5 == 1) ] : List Bool).all id = true := by decide +kernel

/-- A burst of 8 bytes in the Alcove pair. -/
def mv (rd : BitVec 5) : IW := iw rd 0 0 0 1 2

/-- The checks of the move-class instruction `w` of engine 00.00 pass and leave the test true. -/
def started (w : IW) (src : Option (BitVec 3)) (bad : Bool → Side → Bool) (over_ : Bool → Side → Bool) (s : State)
    (p : Option Side → Side → State → Bool) (cap : Bool := false) : Bool :=
  match startMove e0 cap w src bad over_ s with
  | .ok (a, d) v => p a d v
  | _ => false

/-- One burst of engine 00.00's stream 2 from stream 1 is ready: its address, size and bytes are at hand. -/
def burstReady (a d : Side) (n : Nat) (s : State) : Bool :=
  match streamAddr e0 2 d.d d.base (posOf s e0 2) s with
  | .ok (ad, room) t =>
    let k := min n (d.d.burstAt ad (posOf s e0 2) room)
    (match destReady e0 d.d ad k t with
     | .ok () u => decide (0 < k) && (match source e0 a.i a.d a.base (posOf u e0 a.i) 0 k (fun z => z) u with
       | .ok (b, none) _ => b.length == k
       | _ => false)
     | _ => false)
  | _ => false

/-- CRC32 over an unkeyed binding X0. -/
def crcBind : Bind := { bound := true, desc := 4, bytes := [8] ++ List.replicate 31 0, run := 0xFFFFFFFF }

/-- AES-CTR over key slot 0 as X0. -/
def ctrBind : Bind := { bound := true, desc := 4, bytes := [2] ++ List.replicate 31 0 }

/-- A usable CTR key of every channel in slot 0. -/
def keyed (s : State) : State := { s with keys := [(0, { st := 1 })] }

/-- A burst of MOVEX has passed its chain: what its pass needs is at hand. -/
def passReady (w : IW) (a d : Side) (n : Nat) (s : State) : Bool :=
  match streamAddr e0 w.ss d.d d.base (posOf s e0 w.ss) s with
  | .ok (ad, room) t =>
    (match planChain e0 w (min n (d.d.burstAt ad (posOf s e0 w.ss) room)) t with
     | .ok (k, back, after) u =>
       (match destReady e0 d.d ad k u with
        | .ok () u1 => decide (0 < k) &&
          (match (match aesOf u1 e0 w with | some q => claim e0 q u1 | none => .ok () u1) with
           | .ok () u2 => (match source e0 a.i a.d a.base (posOf u2 e0 a.i) back (k + after) (fun z => z) u2 with
             | .ok (b, none) _ => b.length == k
             | _ => false)
           | _ => false)
        | _ => false)
     | _ => false)
  | _ => false

/-- What `startMove` checks of the sides of an Alcove pair. -/
def sideAt (x : Engine) (i : BitVec 3) : Side := sideOf x i (decDesc (Tbl.get [] x.sd i.toNat))

/-- MOVE, MOVEX through a CRC stage, and FILL, each of 0 bytes, of one burst, and with a refused word; counting a burst. -/
theorem witness_BurstMoves :
    ([ bothForms (fun w => fieldsOk w true false false true 0 0x07 && w.rd != 0) (mv 0) (mv 5) (run (alcPair (regs [0, 0, 0, 0, 0x80]))),
       bothForms (fun w => fieldsOk w true false false true 0 0xFFF7 && w.rd != 0 && stagesOk (stageCodes w)) (iw 5 0 0 0 0xF0F1 2) (iw 5 0 0 0 0xFF01 2) (run (alcPair (regs [0, 0, 0, 0, 0x80]))),
       bothForms (fun w => fieldsOk w true false true true 0 0 && w.rd != 0) (iw 5 1 0 0 0 2) (iw 5 0 1 0 0 2) (run (alcPair (regs [9, 0, 0, 0, 0x80]))),
       (let s := run (alcPair (regs [0, 0, 0, 0, 0x80])); started (mv 5) (some 1) (badMove (mv 5) (fun _ => true)) (overMove s e0 0x80 0x80) s
          (fun a d v => match a with | some a => d.d.kind != 6 && ((v.eng e0).rg 5).toNat == 0x80 && burstReady a d 0x80 v | none => false)),
       (let s := run (alcPair (regs [])); started (mv 5) (some 1) (badMove (mv 5) (fun _ => true)) (overMove s e0 0 0) s
          (fun _ _ v => ((v.eng e0).rg 5).toNat == 0)),
       ([crcBind, ctrBind].all fun b => let w := iw 5 0 0 0 0xFF01 2; let s := fetch 0x15 w (keyed (run { alcPair (regs [0, 0, 0, 0, 0x80]) with x := [(0, b)] }));
          s.runs e0 0x15 w && started w (some 1) (badMove w (fun c => c.kind != 6)) (overMove s e0 0x80 0x80) (s.begins e0 0x15 w) (fun a d v =>
          match a, checkChain e0 w v with | some a, .ok () z => passReady w a d 0x80 z | _, _ => false)),
       (let x := alcPair (regs [0, 0, 0, 0, 0x80]); let d := sideAt x 2; let a := sideAt x 1; let w := mv 5; let s := run x;
          x.cur == none && (x.cur_ 2).desc != 0 && Tbl.get [] x.sd 2 != [] && d.d.dir && !badMove w (fun _ => true) true d && !d.misHead &&
          !overMove s e0 0x80 0x80 true d && (x.cur_ 1).desc != 0 && Tbl.get [] x.sd 1 != [] && !a.d.dir && !badMove w (fun _ => true) false a && !a.misHead &&
          !overMove s e0 0x80 0x80 false a),
       (let s := run (alcPair (regs [9, 0, 0, 0, 0x80])); let w := iw 5 0 1 0 0 2;
          started w none (badMove w (fun c => c.kind != 6)) (overMove s e0 0 0x80) s (fun a d v => a.isNone && d.d.kind == 7 && ((v.eng e0).rg 5) == 0x80)),
       ((run (alcPair {})).eng e0).residue == none && (mv 5).rd != 0 && (sideAt (alcPair {}) 1).d.kind != 4 ] : List Bool).all id = true := by decide +kernel

/-- A FUNNEL of 3 bytes that stay staged, and of 0; captures of 0, before a commit, with a burst to write, and with a misaligned buffer. -/
theorem witness_FunnelAndCapture :
    ([ bothForms (fun w => fieldsOk w true false false true 0x01 0x07 && w.rd != 0) (mv 0) (mv 1) (run (alcPair (regs [3]))) 0x16,
       bothForms (fun w => fieldsOk w true false false true 0x01 0x1FFF07 && carriedReg w.rd) (mv 5) (iw 4 0 0 0 0x100001 2) (run (alcPair (regs [3]))) 0x18,
       bothForms (fun w => fieldsOk w true false false true 0x01 0x07 && carriedReg w.rd) (iw 1 0 0 1 0x101 2) (iw 1 0 0 1 1 2) (run (alcPair (regs [3]))) 0x18,
       imageLacks 0x18 (iw 1 0 0 1 1 2) (run (alcPair (regs [3]))),
       captBuf (iw 1 0 0 0 0x10001 2) == 0x100 && captBuf (iw 1 0 0 0 0x10101 2) == 0x101,
       (let s := run (streams (alcDesc false 0x100 0x80) (memDesc true false 0x1000 0x80) (regs [3]));
          started (mv 1) (some 1) (badMove (mv 1) (fun c => c.kind == 1 && decide (c.port ≤ 11))) (overMove s e0 3 3) s (fun a d v => match a with
          | some a => ((v.eng e0).rg 1).toNat == 3 && a.d.kind == 7 && a.i != 2 && bit (mv 1).md 0 == false && wholeBlocks (d.d.addrAt d.base (posOf v e0 2)).toNat 3 == 0 &&
          (match source e0 a.i a.d a.base (posOf v e0 a.i) 0 3 (fun z => z) v with
          | .ok (b, none) u => b.length == 3 && (u.eng e0).rg 1 == (v.eng e0).rg 1
          | _ => false)
          | none => false)),
       ((run { residue := some held3 }).eng e0).residue != none && ((run {}).eng e0).residue == none,
       (let s := run (streams (memDesc false true 0x1000 0x80) (alcDesc true 0x800 0x80) (regs [8])); let w := iw 1 0 0 0 1 2;
          started w (some 1) (fun isDst x => x.d.nr != (isDst == false) || x.d.binds w.rd || (isDst && x.d.kind == 6)) (overMove s e0 8 8) s
          (fun a _ v => a.isSome && (v.eng e0).rg 1 != 0 && ((v.eng e0).cur.map Cur.out).getD [] == [] && !(v.eng e0).capturing && uncommitted v e0) true),
       (let s := run (streams (alcDesc false 0x100 0x80) (memDesc true true 0x1000 0x80) (regs [])); let w := iw 1 0 0 1 1 2;
          started w (some 1) (fun isDst x => x.d.nr != (isDst == true) || x.d.binds w.rd || (isDst && x.d.kind == 6)) (overMove s e0 0 0) s
          (fun a _ v => a.isSome && (v.eng e0).rg 1 == 0 && !(v.eng e0).capturing) true),
       (let x := streams (memDesc false true 0x1000 0x80) (alcDesc true 0x800 0x80) (regs [8]); let w := iw 1 0 0 0 1 2;
          let s := run { x with capturing := true, cur := some { w := w, out := [1, 2], srcLen := 0x80, dstLen := 0x80 } };
          started w (some 1) (fun _ _ => false) (overMove s e0 8 8) s (fun _ _ v => ((v.eng e0).cur.map Cur.out).getD [] != []) true) ] : List Bool).all id = true := by decide +kernel

/-- XSET of 0, of a bad offset and in each failing check; XFOLD of 1 and 8 bytes; XGET and XRST of an unbound and a bound one. -/
theorem witness_Bindings :
    ([ bothForms (fieldsOk · false true true false 0x07 0xFFFFFFFF) (iw 0 1 0 8 0) (iw 0 1 0 7 0) (run (regs [5])),
       bothForms (fun w => fieldsOk w false true false false 0x03 0x1F && decide (1 ≤ w.imm.toNat % 16 ∧ w.imm.toNat % 16 ≤ 8)) (iw 0 1 0 0 0x19) (iw 0 1 0 3 0x18) (run (regs [5])),
       bothForms (fun w => fieldsOk w false true false false 0x03 0x1F && decide (1 ≤ w.imm.toNat % 16 ∧ w.imm.toNat % 16 ≤ 8)) (iw 0 1 0 0 0x10) (iw 0 1 0 3 0x11) (run (regs [5])),
       bothForms (fieldsOk · true false false false 0x03 0) (iw 1 1 0 0 0) (iw 1 0 0 3 0) (run (regs [5])),
       bothForms (fieldsOk · false false true false 0x07 0) (iw 0 0 1 8 0) (iw 0 0 1 7 0) (run (regs [5])),
       xdescOk crcBind.bytes && !xdescOk (List.replicate 32 0) && !xAes crcBind.bytes && xAes [1] && bit ((run {}).app .xrecBase) 0 == false,
       (match psRead e0 2 0x40 32 (spaced {}) with | .ok b _ => !xdescOk b | _ => false),
       imgGives (run {}) e0 (xFeat [1]) 0 && !imgGives base e0 (xFeat [1]) 0 ] : List Bool).all id = true := by decide +kernel

/-- A template of 16 bytes without fields at offset 0x40, in a line that W0's slice holds, and an Alcove destination with room for
it in its last 256 bytes. -/
def emitter : State :=
  let s := spaced { streams (alcDesc false 0x100 0x80) (alcDesc true 0x800 0x100) (regs []) with s := [(1, { desc := 2, pos := 0 }), (2, { desc := 3, pos := 0xF0 })] }
  { s with lines := [(1, { st := .S, slices := 1, data := [16, 0, 0, 0, 0, 0, 0, 0] ++ (List.range 56).map (BitVec.ofNat 8 ·) })] }

/-- PATCH of 8 bytes just below the stream's position and past it; EMIT with a refused word and with no bytes left. -/
theorem witness_EmitAndPatch :
    ([ bothForms (fieldsOk · false true true true 0x01 0xFFFFFFFF) (iw 1 1 2 0 0x40 2) (iw 0 1 2 1 0x40 2) (run (alcPair (regs [5]))) 0x84,
       bothForms (fieldsOk · false true true true 0x07 0) (iw 0 1 2 8 0 2) (iw 0 1 2 7 0 2) (run (alcPair (regs [5]))) 0x85,
       imageLacks 0x84 (iw 0 1 2 1 0x40 2) (run {}) && imageLacks 0x85 (iw 0 1 2 7 0 2) (run {}),
       (let w := iw 0 1 2 0 0x40 2; let s := fetch 0x84 w emitter; let x := s.eng e0; let d := decDesc (Tbl.get [] x.sd 2); let t0 := (s.psBase + w.imm.setWidth 64).toNat;
          let ln := s.line (t0 / 64); let b := ln.data.drop (t0 % 64); let m := leAt b 0 2; let q := (x.cur_ 2).pos.toNat; let a := d.base.toNat + q;
          s.runs e0 0x84 w && fieldsOk w false true true true 0x01 0xFFFFFFFF && imgGives s e0 4 (fld w.md 0 1) && x.residue == none &&
          !bit w.md 0 && x.cur == none && (x.cur_ 2).desc != 0 && Tbl.get [] x.sd 2 != [] && d.kind == 7 && !d.nr && d.dir && !d.bb && !d.bl && w.imm.toNat % 8 == 0 &&
          decide (0x40 ≤ w.imm.toNat) && decide (w.imm.toNat + templSize b ≤ s.psSize) && !s.vitFlush && ln.st != .I && inSlice ln (sliceOf s 0) &&
          ln.data.length == 64 && decide (t0 % 64 + templSize b ≤ 64) && m == 16 && byteAt b 2 == 0 && byteAt b 3 == 0 && decide (byteAt b 4 < 64) &&
          decide (leAt b 6 2 ≤ m) && decide (q + m ≤ d.len) && decide (a + m ≤ 0x2000) && decide (m ≤ 256 - a % 256)),
       (let s := emitter; match startEmit e0 (iw 0 1 2 0 0x40 2) (s.begins e0 0x84 (iw 0 1 2 0 0x40 2)) with | .ok _ v => (v.eng e0).cur != none | _ => false),
       (let x := alcPair (regs [0, 7]); (x.cur_ 2).desc != 0 && Tbl.get [] x.sd 2 != [] && x.wErr == none && x.cur == none && !writesOpen (run x) e0 &&
          decide ((0 : BitVec 40).toNat < 0 + 8) && (decDesc (alcDesc true 0x800 0x80)).dir && !(decDesc (alcDesc true 0x800 0x80)).bb),
       (let x := { alcPair (regs [0, 7]) with s := [(2, { desc := 3, pos := 0x80 })] }; decide (0x78 + 8 ≤ (x.cur_ 2).pos.toNat) && decide (8 ≤ 256 - (0x800 + 0x78) % 256)) ] : List Bool).all id = true := by decide +kernel

/-- Channel 1 without an engine. -/
def idleChan (c : Chan) : State := { base with chans := [(1, c)] }

/-- Channel 1 with engine 00.00 executing, and a command pending. -/
def pended (k : Cmd) (x : Engine := {}) : State := run x { pend := some k }

/-- A ring entry of 48 order bytes: TYPE, FLAGS, TAG 5, PROG 0x40, then these bytes. -/
def entryOf (ty fl : Byte) (l : List Byte := []) : CEntry :=
  { idx := 0, bytes := [ty, fl, 5, 0, 0x40, 0, 0, 0] ++ l ++ List.replicate (40 - l.length) 0 }

/-- ALLOC and EN. -/
def allocEn : Word := 3

/-- PAUSE, ABORT and KILL of an engine with and without open writes, of a channel without one, and STOP with nothing left. -/
theorem witness_StopPoints :
    ([ (pended .pause).boot.tstMode == false && ((pended .pause).chan 1).eng == some e0 && ((pended .pause).eng e0).phase == .run &&
          atStop ((pended .pause).eng e0) && abortsHere ((pended .abort).eng e0) && ((pended .pause).chan 1).pend == some .pause && ((pended .pause).chan 1).st != .paused,
       !writesOpen (pended .abort) e0 && writesOpen { pended .abort with txns := [openWrite] } e0 && !((pended .abort).chan 1).abandoned,
       (let s := run {} { pend := none, ringErr := true }; let t := { s with chans := [(1, { (s.chan 1) with st := .halted })] };
          (t.chan 1).ringErr && (t.chan 1).st == .halted && (t.chan 1).pend != some .pause && (t.chan 1).eng == some e0 && atStop (t.eng e0)),
       ((pended .kill).chan 1).pend == some .kill && ((pended .kill).eng e0).phase == .run,
       (let c : Chan := { ctrl := allocEn, st := .waiting, inOrder := true, pend := some .pause, wait := .event }; ((idleChan c).chan 1).eng == none && !c.replay && c.haltWith == none),
       inProgress { st := .waiting, inOrder := true, pend := some .kill } && !inProgress { st := .armed, pend := some .kill },
       (let c : Chan := { ctrl := allocEn, st := .paused, pend := some .stop, stopTail := some 0 };
          !inProgress c && c.haltWith == none && c.stopTail == some c.wrStart && c.rel == [] && c.wrDone == c.wrStart) ] : List Bool).all id = true := by decide +kernel

/-- A STOP pending and none, a free slot and none, HALT_Q with room for one and full. -/
theorem witness_HaltedChannels :
    ([ ({ pend := some Cmd.stop } : Chan).pend == some .stop && ({} : Chan).pend != some .stop,
       ({ reserved := 15 } : Chan).slotFree && !({ reserved := 16 } : Chan).slotFree,
       decide ((List.replicate 63 (1 : BitVec 12)).length < 64) && decide (64 ≤ (List.replicate 64 (1 : BitVec 12)).length) ] : List Bool).all id = true := by decide +kernel

/-- A fetch with the cache one short of full, a malformed entry, a MARKER with and without a slot, and a BARRIER that is met. -/
theorem witness_Entries :
    ([ coreUp base && base.boot.tstMode == false,
       (let c : Chan := { ctrl := allocEn, st := .armed, wrFetch := 7, wrTail := 8 }; c.st != .free && c.st != .configured && !c.abandoned && c.wrFetch != c.wrTail &&
          decide ((c.wrFetch - c.wrStart).toNat < 8) && decide (¬ ((8 : BitVec 16) - 0).toNat < 8) &&
          decide (cacheUsed (idleChan c) (cacheWing (idleChan c) 1) < 1024)),
       startable (idleChan { ctrl := allocEn, st := .armed, cache := [entryOf 0 0] }) 1 == some (entryOf 0 0) &&
          malformed (idleChan { ctrl := allocEn, st := .armed }) 1 (entryOf 0 0).bytes,
       (let s := idleChan { ctrl := allocEn, st := .armed, cache := [entryOf 4 0] };
          startable s 1 == some (entryOf 4 0) && !malformed s 1 (entryOf 4 0).bytes && entType (entryOf 4 0).bytes == 4 && (s.chan 1).slotFree),
       (let c : Chan := { ctrl := allocEn, st := .waiting, wait := .barrier, inOrder := true, order := some (entryOf 3 1 [2, 0, 0, 0]) };
          barrierMet (idleChan c) (entryOf 3 1 [2, 0, 0, 0]).bytes && entType (entryOf 3 1 [2, 0, 0, 0]).bytes == 3) ] : List Bool).all id = true := by decide +kernel

/-- A result without a notice, with one, with one that must wait, and a status that halts. -/
theorem witness_ResultsQueueInOrder :
    ([ wantNotice { ctrl := allocEn } (some false) 0 == false && wantNotice { ctrl := allocEn } (some true) 0 && wantNotice { ctrl := 0x13 } none 0x20,
       halts { ctrl := allocEn } 0x7F && !halts { ctrl := allocEn } 0x20 && halts { ctrl := 0x0B } 0x20,
       ({ reserved := 15 } : Chan).slotFree && !({ reserved := 16 } : Chan).slotFree ] : List Bool).all id = true := by decide +kernel

/-- Each kind of release at the head, unissued and acknowledged, and a ring error. -/
theorem witness_Releases :
    ([ (let c : Chan := { ctrl := allocEn, st := .armed, rel := [.notice 1 0 [1]] }; !c.relHeld && c.relTxn == none && coreUp (idleChan c)),
       (let c : Chan := { ctrl := allocEn, st := .armed, rel := [.notice 1 0 [1]], relTxn := some 3, relAck := some 0, reserved := 1 }; c.relTxn != none && c.relAck == some 0),
       (let s := { idleChan { ctrl := allocEn, st := .armed, rel := [.counters [(0x40, 9)]] } with lines := [(1, { st := .E, slices := 1, data := List.replicate 64 0 })] };
          (psWrite 1 0x40 (toLe 8 9) s).1),
       (let s := { idleChan { ctrl := allocEn, st := .armed, rel := [.xrec 0 (List.replicate 16 1)] } with lines := [(1, { st := .E, slices := 1, data := List.replicate 64 0 })] };
          (psWrite 1 (fld (s.app .xrecBase) 18 14 * 2 ^ 18 + 64 * 1 + 16 * 0) (List.replicate 16 1) s).1),
       (let c : Chan := { ctrl := allocEn, st := .armed, relHeld := true, ringDue := true, rel := [.notice 1 0 [1]] }; c.relHeld && c.ringDue),
       !haltOut (idleChan { ctrl := allocEn }) 1 ] : List Bool).all id = true := by decide +kernel

/-- CORE running with `dbg_halt` low and high, and two channels to choose from. -/
theorem witness_DispatchDecisions :
    ([ coreUp base && !base.boot.dbgHalt && coreUp { base with boot := { base.boot with dbgHalt := true } },
       (let s := { base with chans := [(1, { ctrl := 0x1003, readyAt := some 5 }), (2, { ctrl := 0x2003, readyAt := some 9 })], tbs := { time := 10 } };
          bestOf (chanBefore s) [1, 2] == some 2 && chanBefore s 2 1 && !chanBefore s 1 2),
       (let s := { base with chans := [(1, { ctrl := 0x1003, readyAt := some 5 }), (2, { ctrl := 0x1003, readyAt := some 9 })], tbs := { time := 10 } };
          bestOf (chanBefore s) [2, 1] == some 1),
       (let s := { base with gals := [(0, featured)], chans := [(1, { ctrl := 0x1003, st := .armed, home := 1, wrTail := 1, wrFetch := 1, cache := [entryOf 1 0] })] };
          let here := (eligibleSet s 1).1.filter (fun g => g / 8 == 0);
          (wingEngs 0).all (fun e => (s.eng e).phase != .starting) && coreUp s &&
          bestOf (chanBefore s) ((readyChans s).filter (fun c => !recsPending (s.chan c) && !((eligibleSet s c).1.filter (fun g => g / 8 == 0)).isEmpty)) == some 1 &&
          (match bestOf (galBefore s) (here.filter (galFree s)) with
          | some g => (bestOf (engBefore s) ((galEngs g).filter (engFree s))).isSome
          | none => false)) ] : List Bool).all id = true := by decide +kernel

/-- A new entry without a gate, and a resumption. -/
theorem witness_WorkOrdersStart :
    ([ (let s := idleChan { ctrl := allocEn, st := .armed, cache := [entryOf 1 0], wrTail := 1, wrFetch := 1 };
          !(s.chan 1).inOrder && headEntry (s.chan 1) == some (entryOf 1 0) && gateOf s 1 == none),
       (let s := idleChan { ctrl := allocEn, st := .waiting, wait := .ready, inOrder := true, fresh := false, ck := { pc := 0x80, g := [(2, 7)] } };
          (s.chan 1).inOrder && !(s.chan 1).fresh && (s.chan 1).wait != .event) ] : List Bool).all id = true := by decide +kernel

/-- A state with these transactions. -/
def withTxns (l : List Txn) : State := { base with txns := l, nextTxn := 9 }

/-- A read of engine 00.00 at its gallery arbiter. -/
def rdTxn : Txn := { openWrite with id := 1, op := 0, data := [], stage := .atGal, purpose := .engRead e0 0 }

/-- Docent tests engine 00.00 in unit 0. -/
def tested (s : State) : State :=
  { s.setReg .docCfg 0xF0000000 with doc := { units := [(0, some { src := ⟨0, by decide⟩, inst := 0, eng := some e0, step := 3 })] } }

/-- A line request of wing 0 (operation 2 or 3), an Evict or a WriteBack on coherent port 12. -/
def cohT (op : BitVec 3) (st : TStage) (p : Purpose) : Txn :=
  { openWrite with id := 1, port := 12, op := op, addr := 0x40, n := 64, data := [], beats := 0, stage := st, gal := none, purpose := p }

/-- No requester, one that has waited past the limit, one by the wheel's or the priority's choice, and a port whose grant is held. -/
theorem witness_Grants :
    ([ chooseGrant base 0 [] == none && (match chooseGrant base 0 [3, 5] with | some (r, f, _) => r == 3 && !f | none => false),
       (let s := { base with arbs := [(0, { waits := [(5, 200)] })] };
          match chooseGrant s 0 [3, 5] with | some (r, f, _) => r == 5 && f && decide (fld (s.app (.arbCfg 0)) 24 8 ≤ 200) | none => false),
       (let s := withTxns [rdTxn];
          match chooseGrant s 0 (requesting s 0) with | some (r, f, _) => r == 0 && !f && (headOf s 0 r).isSome | none => false),
       (let s := { withTxns [{ openWrite with stage := .atPort }] with arbs := [(64, { grant := some (7, 1) })] };
          domOpen s (portDom 0) && resourceFree s 64),
       (let s := withTxns [{ openWrite with stage := .atPort }];
          resourceFree s 64 && requesting s 64 == [0] && holdTraffic 0 s == s && docentAsk 64 s == s),
       (let s := { withTxns [{ openWrite with stage := .granted }] with arbs := [(64, { grant := some (0, 0) })] }; !resourceFree s 64),
       (let t : Txn := { rdTxn with gal := none, wing := none, purpose := .docent 0 (some 0) .atGal }; let s := tested (withTxns [t]);
          docentAsk 0 s == s && resourceFree s 0 && requesting s 0 == [17] && headOf s 0 17 == some t && t.turns && t.forced == none && (chooseGrant s 0 [17]).isSome),
       (let t : Txn := { openWrite with stage := .atPort, forced := some 4 }; let s := withTxns [t];
          resourceFree s 64 && requesting s 64 == [0] && headOf s 64 0 == some t && docentAsk 64 s == s),
       (let t : Txn := { openWrite with port := 32, stage := .atPort }; let s := { withTxns [t] with links := [(0, { st := .failed })] };
          resourceFree s 96 && requesting s 96 == [0] && headOf s 96 0 == some t && t.forced == none && !t.turns && holdTraffic 32 s == s),
       reqCordoned base 0 3 == false && chooseGrant base 96 [1] != none ] : List Bool).all id = true := by decide +kernel

/-- A grantee's burst in front of the next stage, and one that has passed it. -/
theorem witness_WatchdogBites :
    ([ (let n := 16 * fld (base.app (.arbCfg 64)) 16 8 * 1600; let s (k : Nat) := { withTxns [{ openWrite with stage := .granted }] with arbs := [(64, { grant := some (0, 0), wdog := k })] }
          (bitten (s n) 64).isSome && bitten (s (n - 1)) 64 == none && (grantBurst (s n) 64).isSome && downstreamReady (s n) 64 { openWrite with stage := .granted }),
       (let s := { withTxns [{ openWrite with stage := .atPort }] with arbs := [(32, { grant := some (0, 0) })] }; grantBurst s 32 == some { openWrite with stage := .atPort }),
       (let s := { withTxns [{ openWrite with beats := 0 }] with arbs := [(64, { grant := some (0, 0) })] }; bitten s 64 == none && grantBurst s 64 == none) ] : List Bool).all id = true := by decide +kernel

/-- A REQ beat that may be presented and one that may not, a WDAT beat that is the last and one that is not, and a reissue. -/
theorem witness_BeatsAndRetries :
    ([ (let s := withTxns [{ openWrite with stage := .granted }]; s.txn 0 == some { openWrite with stage := .granted } && portPresents s 0),
       (let t : Txn := { rdTxn with gal := none, purpose := .docent 0 none .granted, stage := .granted, port := 0, addr := 0x2000 };
          !docentMay (withTxns [t]) t && docentMay (withTxns [t]) openWrite && docentMay (((withTxns [t]).setReg .scrLo 0x2010)) { t with n := 16 }),
       !portPresents { withTxns [] with doms := base.doms.map (fun p => if p.1 = 3 then (3, { p.2 with hold := true }) else p) } 0,
       portRuns (withTxns [openWrite]) 0 && !wdatBehind (withTxns [openWrite]) openWrite && wdatBehind (withTxns [openWrite]) { openWrite with ord := 1 } &&
          !portRuns (base.modSup ((supOf (portDom 0)).getD 0) (fun x => { x with clkStop := true })) 0,
       sameStream { openWrite with order := 1, strm := some 2 } { openWrite with order := 1, strm := some 2 } && openWrite.openOn 0 && idWidth 0 == 9 &&
          !(sameStream openWrite openWrite),
       (withTxns [openWrite]).txn 0 == some openWrite && decide (0 < openWrite.beats) && openWrite.forced == none && openWrite.beats == 1,
       (withTxns [{ openWrite with beats := 2 }]).txn 0 == some { openWrite with beats := 2 },
       (withTxns [{ openWrite with stage := .retry }]).txn 0 == some { openWrite with stage := .retry } ] : List Bool).all id = true := by decide +kernel

/-- Each kind of answer to a transaction whose beats have transferred, and one whose beats have not. -/
theorem witness_Responses :
    ([ answerable (withTxns [openWrite]) 0 [1] == none && answerable (withTxns [openWrite]) 0 [0, 2, 3] == none,
       answerable (withTxns [{ rdTxn with stage := .sent, beats := 0 }]) 1 [0, 2, 3] == some { rdTxn with stage := .sent, beats := 0 },
       readShape rdTxn (List.replicate (beatsOf 0 0x1000 16) 0) && readShape rdTxn [5] && readShape rdTxn [4] && readCode [0, 4, 2] == 4 && !readShape rdTxn [0, 0, 0, 0, 0, 0, 0, 0, 0],
       decide (254 < fld (base.reg (.portCfg 0)) 24 8 ∨ 0 < fld (base.reg (.portCfg 0)) 24 8),
       readCode [5] == 5 && decide (fld (base.reg (.portCfg 0)) 24 8 ≤ 255),
       (let t : Txn := { rdTxn with stage := .sent, beats := 0, retries := 255 }; (answerable (withTxns [t]) 1 [0, 2, 3]) == some t && t.forced == none && !t.discard && t.op == 0),
       (let t : Txn := { rdTxn with stage := .sent, beats := 0, gal := none, purpose := .entry 1 0 }; (answerable (withTxns [t]) 1 [0, 2, 3]) == some t && readShape t [1]),
       (let t := cohT 2 .sent (.fill 0); (answerable (withTxns [t]) 1 [0, 2, 3]) == some t && t.forced == none && !t.discard && readShape t [1]),
       (let t := cohT 3 .sent (.unique 0); (answerable (withTxns [t]) 1 [0, 2, 3]) == some t && !t.discard && readShape t [3]),
       (let t : Txn := { openWrite with beats := 0, gal := none, purpose := .release 1 };
          let s := { withTxns [t] with chans := [(1, { ctrl := 3, st := .armed, relTxn := some 0, rel := [.signal 1] })] };
          (((portError t 1 s).dropTxn 0).chan 1).relTxn == some 0 && t.forced == none),
       answerable (withTxns [{ openWrite with beats := 0 }]) 0 [1] == some { openWrite with beats := 0 },
       (let s := { withTxns [{ openWrite with beats := 0, gal := none, purpose := .release 1 }] with chans := [(1, { ctrl := 3, st := .armed, relTxn := some 0, rel := [.signal 1] })] };
          (answerable s 0 [1]).isSome && (s.chan 1).relTxn == some 0),
       (let s := { run {} with txns := [{ openWrite with beats := 0 }] }; (s.eng e0).phase == .run && !(s.eng e0).paused && !openWrite.torn && !openWrite.discard) ] : List Bool).all id = true := by decide +kernel

/-- A snoop of a modified line and of none, the acknowledgements, a failed WriteBack, and reissues. -/
theorem witness_Coherence :
    ([ coreUp base && snoopServed base && [2, 3, 4, 5].all (fun op => !cohOpen base 1 op),
       (let s (op : BitVec 3) := withTxns [cohT op .sent .writeBack]; cohOpen (s 5) 1 5 && !cohOpen (s 4) 1 5 && cohOpen (s 4) 1 4 && !cohOpen (s 2) 1 5 && !cohOpen (s 2) 1 4 && cohOpen (s 2) 1 2 && cohOpen (s 3) 1 3),
       answerable (withTxns [cohT 4 .sent .evict]) 1 [4] == some (cohT 4 .sent .evict),
       answerable (withTxns [cohT 5 .sent .writeBack]) 1 [5] == some (cohT 5 .sent .writeBack) && (cohT 5 .sent .writeBack).forced == none && (cohT 4 .sent .evict).forced == none && !(cohT 5 .sent .writeBack).discard,
       (withTxns [cohT 3 .again (.unique 0)]).txn 1 == some (cohT 3 .again (.unique 0)) && !(withTxns []).vitFlush,
       (let s := { withTxns [cohT 5 .again .writeBack] with lines := [(1, { st := .M, slices := 1, data := List.replicate 64 1 })] }; (s.line 1).st == .M && ((withTxns []).line 1).st != .M) ] : List Bool).all id = true := by decide +kernel

/-- The applied copy of a register. -/
def applied (r : Reg) (v : Word) (s : State) : State := s.setApp r v

/-- CORE in RET. -/
def coreRet : State := { base with doms := base.doms.map (fun p => if p.1 = 2 then (2, { st := .ret, target := .ret }) else p) }

/-- Each mode with a rise, a fall and a high level; an AO latch that is clear and one that is set. -/
theorem witness_RequestLines :
    ([ coreUp base && !coreUp coreRet && !coreRet.boot.rstN && !coreRet.boot.rstAo,
       [0, 1, 2, 3].all (fun m => rqMode (applied (.rqCfg 5) m base) 5 == m.toNat),
       (base.rq 5).req == false && (base.rq 5).ack == false && (base.rq 5).outst == false && (base.rq 5).holdoff == false && (base.rq 5).latch == false ] : List Bool).all id = true := by decide +kernel

/-- `State.takes` as a test. -/
def takesB (s : State) (a : TpAttr) (wr : Bool) (r : Reg) : Bool :=
  s.serves && a.low == 0 && a.len == 0 && a.nbytes == 4 && (!wr || a.be == 15) && !secDenied s a.sec wr r && domainOff s r == none

/-- The test is exact. -/
theorem takesB_iff (s : State) (a : TpAttr) (wr : Bool) (r : Reg) : takesB s a wr r = true ↔ s.takes a wr r := by
  simp only [takesB, State.takes, Bool.and_eq_true, Bool.or_eq_true, Bool.not_eq_true', beq_iff_eq]
  cases wr <;> simp [and_assoc]

/-- A pulse, a coalescing time just reached and not, the interrupt and subscription writes, and HALT_Q full and empty. -/
theorem witness_OutputsAndInterrupts :
    ([ base.coreOn && fld ((applied (.evoCfg 3) 1 base).app (.evoCfg 3)) 0 2 == 1,
       (let s := { (base.setReg (.irqCoal 4) 0x00010001).modIrq 4 (fun _ => { cnt := 1, timer := some 0 }) with tbs := { time := 1600 } };
          (s.irq 4).timer == some (0 : DWord) && decide (0 < fld (s.reg (.irqCoal 4)) 16 16) && decide (fld (s.reg (.irqCoal 4)) 16 16 * 1600 ≤ (s.now - 0).toNat) &&
          decide ((1599 : DWord).toNat < fld (s.reg (.irqCoal 4)) 16 16 * 1600)),
       takesB base sec true .irqPend && takesB base nonsec true .irqPend && takesB base nonsec true .swRaise && takesB base sec false .haltQ,
       takesB base sec true (.subR 0) && takesB base nonsec true (.subR 1023) && takesB base sec true (.subR 1023),
       subRefused base 0 true {} == false && subRefused (idleChan { ctrl := 3, st := .armed }) 0 true { v := true, ch := 1 } ] : List Bool).all id = true := by decide +kernel

/-- Staging machinery in a state, with other parts. -/
def staged_ (g : Staging) (t : DWord := 0) : State := { base with stage := g, tbs := { time := t } }

/-- Staging writes to an open and a locked set, COMMIT free and open, both outcomes of the checks and of the boundary, and an expiry just reached. -/
theorem witness_StagingAndCommit :
    ([ takesB base sec true .psSize && decodeReg base.wings 0x0A008 == some .psSize && Reg.psSize.stagedSet == some 0 && !ecRefused base true .psSize,
       takesB base nonsec true (.rqCfg 127) && decodeReg base.wings (Reg.rqCfg 127).addr == some (.rqCfg 127) && (Reg.rqCfg 127).stagedSet == some 2,
       bit (staged_ { lock := 1 }).stage.lock 0 && !bit base.stage.lock 0,
       takesB base sec true .commit && takesB base sec true .clampStat && !commitOpen base && commitOpen (staged_ { st := .pending }) && commitOpen (staged_ { st := .checking }),
       (let s := staged_ { st := .checking, sets := 1, lock := 1, secWr := true }; s.stage.st == .checking && commitReason s false == 0 && coreUp s),
       (let s := staged_ { st := .checking, sets := 0x800, lock := 0x800, secWr := true }; commitReason s false == 1),
       (let s := staged_ { st := .pending, sets := 1, lock := 1, boundary := true, stg := [(0xA010, 1)] }; s.stage.boundary && commitReason s true == 0),
       (let s := { staged_ { st := .pending, sets := 1, lock := 1, boundary := true, stg := [(0xA010, 1)] } with chans := [(1, { ctrl := 3, st := .running })] }; commitReason s true == 0x11),
       (let s := staged_ { st := .pending, sets := 1, lock := 1, tmo := 15, pendAt := 0 } (BitVec.ofNat 64 (2 ^ 14 * 1600000));
          !s.stage.boundary && s.stage.tmo != 0 && decide (2 ^ (s.stage.tmo.toNat - 1) * 1600000 ≤ (s.now - s.stage.pendAt).toNat)) ] : List Bool).all id = true := by decide +kernel

/-- A load that may start and one that runs, a swap that may and may not happen, the ends of both readings, and reloads of a lost and of a held bank. -/
theorem witness_ControlStoreLoads :
    ([ takesB base sec true .loadCtrl && takesB base sec true .svnMin && takesB base sec true (.csCtrl 0) && base.galPop 0,
       base.loader.st != .verify && base.loader.st != .write && ({ base with loader := { st := .verify } }).loader.st == .verify,
       (let s := base.modGal 0 (fun x => { x with bankB := { st := .valid } }); (bankOf s 0 (!(s.gal 0).act)).st == .valid && !loadInvolves s 0 && (bankOf base 0 true).st != .valid),
       [true, false].all (fun e => readOver { base with loader := { st := .verify, jobs := [(0, some { port := 0, addr := 0, len := 0, err := e, sig := true })] } } 0 == some (if e then none else some [])) &&
          readOver { base with loader := { st := .verify, jobs := [(0, some { port := 0, addr := 0, len := 64 })] } } 0 == none && base.domOn 7 && cannotRaise base 0 == false,
       (let s := { base with loader := { st := .write, targets := 1, words := 0, digest := [], jobs := [(0, some { port := 0, addr := 0, len := 0 })] } };
          readOver s 0 == some (some []) && sha384 (imgBody [] s.loader.words) != s.loader.digest),
       (let s := ({ base with loader := { jobs := [(reloadKey 31 true, some { port := 0, addr := 0, len := 0, sig := true })] } } : State); readOver s (reloadKey 31 true) == some (some [])),
       instAbsent base.wings 0 == false && imgReason base [] == 3 && coreUp base && imgWords [] == 0,
       (let s := { base.modDom 7 (fun d => { d with st := .off }) with loader := { st := .verify, targets := 1 } };
          loadGals s == [0] && !s.domOn 7 && !cannotRaise s 0 && cannotRaise { s with fcr := { asserted := (List.range 320).map (fun k => (k, true)) } } 0),
       ({ base with loader := { st := .verify, targets := 3, jobs := [(0, some { port := 0, addr := 0, len := 0, err := false, sig := true })] } }.loader.st == .verify) &&
          bit (3 : Word) 1 && decide (9 < fld (0x0A000000 : Word) 24 4) && !decide (9 < fld (0x09000000 : Word) 24 4),
       (let x : Bank := { st := .reloading, digest := sha384 (imgBody [] 0) };
          let s := base.modGal 0 (fun g => { g with bankA := x });
          (bankOf s 0 false).st == .reloading && (s.gal 0).act == false && reloadOk s x [] && x.words == [] && ({ x with words := [{}] } : Bank).words != [] && !reloadOk s { x with digest := [] } [] &&
          !reloadOk (s.setReg .svnMin 1) x []) ] : List Bool).all id = true := by decide +kernel

/-- Sources at each severity, the first error and a later one. -/
theorem witness_FaultRecording :
    ([ sevOf (applied (.sev 0) 0 base) 0 == 0 && sevOf (applied (.sev 0) 1 base) 0 == 1 && sevOf (applied (.sev 0) 2 base) 0 == 2 &&
          sevOf (applied (.sev 0) 3 base) 0 == 3 && sevOf (applied (.sev 0) 4 base) 0 == 4,
       base.fcr.feV == false && { base with fcr := { feV := true } }.fcr.feV && fld (base.reg .fltCtrl) 0 2 == 0 && fld ((base.setReg .fltCtrl 1).reg .fltCtrl) 0 2 != 0 ] : List Bool).all id = true := by decide +kernel

/-- A source that is stuck and one that is not, an engine in service, and a faulted engine in each case of its replay. -/
theorem witness_FaultSources :
    ([ fcrOn base && srcPresent base 0 && srcPresent base 319 == false && srcPresent base 283 && !srcStuck base 0 && srcStuck { base with fcr := { stuck := [(0, true)] } } 0,
       base.domOn 7 && (base.slot e0).st != .retired && (run {}).txns == [] && ((run {}).eng e0).phase != .idle && (base.eng e0).phase == .idle,
       (let t : Txn := { openWrite with stage := .granted };
          formedBy 0 { ch := none, eng := some e0, cls := 1, addr := 0x1000, inst := 0, inj := false } t &&
          !formedBy 1 { ch := none, eng := some e0, cls := 1, addr := 0x1000, inst := 0, inj := false } t),
       srcStuck { base with fcr := { stuck := [(319, true)] } } 319,
       (let s := inPhase .faulted; (s.eng e0).phase == .faulted && !writesOpen s e0 && !(s.eng e0).capturing && decide ((s.chan 1).replays < fld (s.app .rcvCfg) 12 4) &&
          decide (fld (s.app .rcvCfg) 12 4 ≤ ((inPhase .faulted {} { replays := 15 }).chan 1).replays)),
       writesOpen { inPhase .faulted with txns := [openWrite] } e0 && ((inPhase .faulted { capturing := true }).eng e0).capturing ] : List Bool).all id = true := by decide +kernel

/-- The fault state at the end of its quiet period and just before, a source that is still stuck, and an injection in each case. -/
theorem witness_FaultState :
    ([ takesB base sec true .fltCtrl && takesB base sec true .injCtrl && !takesB base nonsec true .injCtrl && fcrOn base && fcrSettled base,
       (let s := { base with fcr := { active := true, quietFrom := 0 }, tbs := { time := BitVec.ofNat 64 (fld (base.app .rcvCfg) 24 8 * 1600000) } };
          s.fcr.active && fcrSettled s && decide (fld (s.app .rcvCfg) 24 8 * 1600000 ≤ (s.now - s.fcr.quietFrom).toNat) &&
          decide ((s.now - 1 - s.fcr.quietFrom).toNat < fld (s.app .rcvCfg) 24 8 * 1600000)),
       !fcrSettled { base with fcr := { stuck := [(0, true)] } },
       fld ((base.setReg .injSel 0x01060000).reg .injSel) 16 9 == 262 && !base.fcr.injBusy && !base.fcr.unguarded,
       (let s := { base with fcr := { injBusy := true, injSrc := 5 } }; s.fcr.injBusy && decide (s.fcr.injSrc.toNat < 320) && srcPresent s 5 && s.domOn (srcDom 5)) ] : List Bool).all id = true := by decide +kernel

/-- A queued recovery whose domains are ON and one whose are not, a test under way with each outcome, and DOC.CMD refused and accepted for each operation. -/
theorem witness_DocentTests :
    ([ docUp base && docUnit base 0 == none && (recDoms (recov 0 3 (some e0))).all base.domOn,
       !((recDoms (recov 0 3 (some e0))).all State.reset.domOn) && (recov 0 3 (some e0)).step == 0,
       (let r := recov 0 3 (some e0);
          let s : State := { base with tbs := { time := 64 * 1600 }, doc := { units := [(0, some { r with step := 2 })] } };
          testOf r == (3, 64, 2) && r.bg == false && rowsOf r == (0, 2) && decide (Tbl.get 0 s.doc.rows 0 < 2) && docUnit s 0 == some { r with step := 2 } && testTicks s 0 { r with step := 2 } == 64 * 1600 &&
          testTicks { s with tbs := { time := 64 * 1600 - 1 } } 0 { r with step := 2 } == 64 * 1600 - 1),
       (let s : State := { base with tbs := { time := 500 }, txns := [{ openWrite with stage := .atWing, purpose := .docent 0 (some 0) .atWing, since := 400 }] };
          docentWaits 0 (s.txns.getD 0 openWrite) && testTicks s 0 (recov 0 3 (some e0)) == 400 && testOf (recov 162 9 none) == (1, 100, 1) && rowsOf (recov 162 9 none) == (1026, 4)),
       takesB base sec true .docCmd && docCmdRej (setFld (0x1F00 : Word) 28 4 1) base && !docCmdRej (setFld (0x1000 : Word) 28 4 1) base &&
          !docCmdRej (setFld (0x1000 : Word) 28 4 2) base && !docCmdRej (setFld (0x0000 : Word) 28 4 2) base && !docCmdRej (setFld (0 : Word) 28 4 3) base && docCmdRej (setFld (0x0800 ||| 31 : Word) 28 4 2) base &&
          docCmdRej (setFld (31 : Word) 28 4 3) base,
       (base.slot ⟨0, 16⟩).st == .spare && (base.slot e0).st != .spare && (base.eng e0).phase == .idle && ((run {}).eng e0).phase != .idle ] : List Bool).all id = true := by decide +kernel

/-- A rotation that is due, one that starts, one that swaps, and one that is given up. -/
theorem witness_WearRotation :
    ([ (let s := { (base.setReg .docCfg 0xF0000000).setReg .rotCfg 0x01010101 with tbs := { time := BitVec.ofNat 64 (3600000000 * 1600) } };
          docUp s && s.galPop 0 && rotOn s && rotElapsed s 0 && !rotElapsed base 0 == rotElapsed s 0),
       (let s := (((base.setReg .docCfg 0xF0000000).setReg .rotCfg 0x01010101)).modGal 0 (fun x => { x with rotDue := true });
          rotOn s && (s.gal 0).rotDue && (s.gal 0).rotOut == none && s.domOn 7 && !(s.dom 7).entering && !galRecovers s 0 && spareOf s 0 == some ⟨0, 16⟩ && mostWorn s 0 == some e0),
       (let s := (((base.setReg .docCfg 0xF0000000).setReg .rotCfg 0x01010101)); freeUnit s == some 0 && bgRuns s (recov 0 16 (some ⟨0, 16⟩)) == none && s.domOn 3),
       (let r := { recov 0 16 (some ⟨0, 16⟩) with bg := true, step := 3 };
          let s := { (base.modGal 0 (fun x => { x with rotIn := some 16, rotDue := true })).modSlot ⟨0, 16⟩ (fun x => { x with st := .cordoned }) with doc := { units := [(2, some r)] } };
          (s.gal 0).rotOut == none && (s.gal 0).rotIn == some 16 && bgRuns s (recov 0 16 (some ⟨0, 16⟩)) == some (2, r) && r.eng == some ⟨0, 16⟩ && r.src.val == 0 && r.step != 0 && r.step.toNat == (testOf r).1 &&
          mostWorn s 0 == some e0 && (s.slot ⟨0, 16⟩).st == .cordoned && decide (16 ≤ inService s 0) && ({ r with step := 2 } : Recovery).step.toNat != (testOf r).1),
       (let s := base.modGal 0 (fun x => { x with rotOut := some 0, rotIn := some 16 }); (s.gal 0).retiring == [] && (s.eng e0).phase == .idle && (s.slot ⟨0, 16⟩).st == .spare && (0 : Fin 17) != 16),
       ((run {}).eng e0).phase != .idle && decide (fld (base.reg .rotCfg) 16 8 * 1600000 ≤ (BitVec.ofNat 64 (255 * 1600000) : DWord).toNat),
       (base.slot e0).st == .service ] : List Bool).all id = true := by decide +kernel

/-- Each periodic test, a scrub access that ends its sweep, the calibrations and the samples. -/
theorem witness_ChecksInService :
    ([ (let s := (base.setReg .docCfg 0xF0000000).setReg .rotCfg 0x01010101; perOn s && fld (s.reg .rotCfg) 8 8 != 0 && (s.slot ⟨0, 16⟩).st == .spare && (s.gal 0).rotIn == none &&
          (s.pair 63).ch == none && !(s.sc 63).arm && !scReserved s 0 && !pairCordoned s 0 && s.domOn 1 && !galCordoned s 31 && pipeOk s 31 true),
       (let s := { (base.setReg .docCfg 0xF0000000).setReg .scrubCfg 0x11111111 with doc := { scrubPos := [(0, 131071)] } };
          bit (s.reg .docCfg) 31 && fld (s.reg .scrubCfg) (scrubKey .cat).2 4 != 0 && Tbl.get 0 s.doc.scrubPos (scrubKey .cat).1 == 131071 && decide (131071 < scrubWords .cat) && s.domOn (scrubDom .cat 131071)),
       (let r := { recov 0 16 (some ⟨0, 16⟩) with bg := true, step := 3 };
          let k := { recov 241 7 none with bg := true, step := 1 };
          let p := { recov 95 1 none with bg := true, step := 1 };
          let s : State := { base with doc := { units := [(0, some r), (1, some k), (3, some p)] } };
          bgRuns s (recov 0 16 (some ⟨0, 16⟩)) == some (0, r) && r.step.toNat == (testOf r).1 && (s.gal 0).rotIn == none && freeUnit s == some 2 &&
          bgRuns s (recov (234 + 63 / 8) (63 % 8) none) == some (1, k) && decide (96 ≤ k.src.val) && k.step.toNat == (testOf k).1 &&
          bgRuns s (recov (64 + 31) (b2n true) none) == some (3, p) && decide (p.src.val < 96) && p.step.toNat == (testOf p).1),
       (let s : State := { base with tbs := { time := 1600000000 } }; decide (1600000000 ≤ (s.now - Tbl.get 0 s.doc.bgAt (1024 + 63)).toNat) && freeUnit s == some 0 && !pipeClaimed s 31 true && bgRuns s (recov 95 1 none) == none),
       bit ((base.setReg .docCfg 0xF0000000).reg .docCfg) 29 && base.domOn 1 && base.domOn 42 && base.domOn 2,
       ({ base with links := [(31, { st := .active })] }.link 31).st == .active ] : List Bool).all id = true := by decide +kernel

/-- A queue of none, one, and with drops due; the last sequence number before the wrap; a window over and not; software codes at both limits; the seeds. -/
theorem witness_LedgerRecords :
    ([ base.boot.rstAo == false && base.ledger.queue == [] && { base with ledger := { queue := [{}], head := 0xFFFFFFFF, dropDue := 3 } }.ledger.dropDue == 3,
       (let s := { base with ledger := { wins := [(0x60, some { t0 := 0, n := 1, m := 2 })], up := fld (base.reg .lgRate) 0 16 * 12800000 } };
          Tbl.get none s.ledger.wins (lgKey 0x60) == some { t0 := 0, n := 1, m := 2 } && decide (fld (s.reg .lgRate) 0 16 * 12800000 ≤ s.ledger.up - 0) &&
          decide (s.ledger.up - 1 < fld (s.reg .lgRate) 0 16 * 12800000) && lgKey 0x60 != 0x8000),
       (let q : List LgRec := List.replicate 15 {}; decide (q.length < 16) && decide ((q ++ [({} : LgRec)]).length = 16)),
       (let s := lgEnqueue 2 0 false 0 0 (lgEnqueue 7 0 false 0 0 { base with ledger := { queue := [({ code := 9, time := 4 } : LgRec)] }, tbs := { time := 5 } });
          s.ledger.queue.map LgRec.code == [9, 2, 7] && s.ledger.drop == 0),
       takesB base sec true .lgSwCode && takesB base nonsec true .lgSwCode && takesB base sec true .lgCtrl && takesB base sec true .lgSeedOpt && takesB base sec true .lgSeedPwr && takesB base sec false (.lgData 0),
       base.ledger.seededOpt == false && { base with ledger := { seededOpt := true, seededPwr := true } }.ledger.seededPwr ] : List Bool).all id = true := by decide +kernel

/-- Stream Link 31 in this state. -/
def linked (x : Link) : State := { base with links := [(31, x)] }

/-- A training block that asks for a preset. -/
def tsOf (st req : Nat) (ad : Bool) : TsBlock := { state := BitVec.ofNat 8 st, lane := 0, eqReq := BitVec.ofNat 8 req, adapted := ad }

/-- EN, RETRAIN and lock of each lane; a training block in each state; LSW negotiated and not; every timeout in its state; a transmit lane with and without a spare. -/
theorem witness_LinkTraining :
    ([ takesB base sec true (.linkCtrl 31) && bit (0x80000000 : Word) 31 && (linked {}).link 31 == {} && linkOn base 31,
       [LinkSt.failed, .active, .recovery].all (fun st => ((linked { st := st }).link 31).st == st),
       (let x : Link := { st := .active, rxBad := 1, rxLane := true }; x.rxBad ||| laneBit true == 3 && x.rxBad &&& laneBit true == 0 && x.rxBad &&& laneBit false != 0),
       (let x : Link := { st := .active }; x.rxBad ||| laneBit true != 3 && true != x.rxLane && false == x.rxLane),
       ({ st := .active, ver := 2, feat := 2 } : Link).hasLsw && !({ st := .active, ver := 2, feat := 1 } : Link).hasLsw && !({ st := .active, ver := 1, feat := 3 } : Link).hasLsw,
       ({ lockLane0 := true } : Link).locked && ({ adapted := true, farAdapted := true } : Link).adapted,
       (let x : Link := { st := .active, txBad := 1, txLane := true }; x.txBad ||| laneBit x.txLane == 3) && (let x : Link := { st := .active }; x.txBad ||| laneBit x.txLane != 3) ] : List Bool).all id = true := by decide +kernel

/-- A frame in sequence, repeated, ahead, past its limits, malformed and failing its CRC; the replay timer just reached; FLUSH, RX_CFG and STQ_HDR in each case. -/
theorem witness_LinkFrames :
    ([ (let x : Link := { st := .active }; let f := { frameOf 128 with len := 16 };
          f.lane == x.rxLane && frameForm 1 f && decide (f.len.toNat ≤ x.maxLen) && f.seq == x.expected && withinLimits x 1 f && !f.ackV && !f.nak),
       !frameForm 0x01 { frameOf 128 with len := 16, typeOk := false } && frameForm 0x01 { frameOf 128 with len := 16 } && ({} : Link).nakOut == false,
       !withinLimits { rcvWords := 16384 } 1 (frameOf 8) && withinLimits { rcvWords := 16368 } 1 (frameOf 8) && !withinLimits { rcvMsgs := 16 } 3 (frameOf 8),
       decide ((({ expected := 2048 } : Link).expected - 0).toNat ≤ 2048) && decide (2048 < (({ expected := 2049 } : Link).expected - 0).toNat),
       frameForm 0x03 { frameOf 32 with len := 4 } && frameForm 0x04 { frameOf 0 with len := 0 } && frameForm 0x80 { frameOf 0 with len := 0 } &&
          frameForm 0x81 { frameOf 0 with len := 0 } && frameForm 0x82 { frameOf 8 with len := 1 } && !frameForm 0x82 { frameOf 0 with len := 0 },
       ({ ver := 2, feat := 1 } : Link).hasMark && !({ ver := 1, feat := 1 } : Link).hasMark && decide (({ maxLen := 8 } : Link).maxLen < (frameOf 0).len.toNat),
       ((nakSeen 31 (linked { st := .active })).link 31).st == .active,
       (let s := { linked { st := .active, replayBuf := [{ ty := 1, seq := 0, tinfo := 0, payload := [], tries := 0 }] } with tbs := { time := 160000 } };
          (s.link 31).replayBuf != [] && decide (fld (s.reg (.linkCtrl 31)) 8 8 * 160 ≤ (s.now - (s.link 31).ackAdvAt).toNat)),
       takesB base sec true (.rxCmd 31) && takesB base sec true (.rxCfg 31) && takesB base sec false (.stqHdr 31),
       !ownerBusy base 31 && ownerBusy { base.setReg (.rxCfg 31) 0x80010000 with chans := [(1, { ctrl := 3, st := .paused })] } 31 && !rxCfgRefused base 31 0x80010000 &&
          rxCfgRefused (linked { active := [{ ctag := 1, lba := 0, left := 1, size := 64 }] }) 31 0 ] : List Bool).all id = true := by decide +kernel

/-- Each request, a domain that nothing and something keeps ON, a drain that is over and not, an abort in each step, and a cut. -/
theorem witness_LeavingOn :
    ([ takesB base sec true (.domCtrl 7) && [1, 2, 3].all (fun k => fld (storeFlds (Reg.domCtrl 7).flds (base.reg (.domCtrl 7)) (BitVec.ofNat 32 (k * 2 ^ 30))) 30 2 == k),
       !staysOn base 7 && staysOn base 2 && (base.dom 7).st == .on && (base.dom 7).step == .none && leaveAsked base 7 == none && base.boot.ready,
       leaveAsked (base.setReg (.domCtrl 7) 0xC0000000) 7 == some .off && idleTarget (base.setApp (.pol 7) 0x40000000) 7 == some .ret && idleTarget (base.setApp (.pol 7) 0) 7 == none,
       [DomStep.drain, .iso, .save].all (fun st => let s := base.modDom 7 (fun d => { d with step := st, target := .ret }); !domHeld s 7 && drained s 7 && !abortDue s 7 && (s.dom 7).target != .on),
       (let s := run {}; staysOn s 7 && onlyWork s 7 && (s.dom 7).st == .on && (s.dom 7).step == .none) && !onlyWork { base with fcr := { asserted := (List.range 320).map (fun k => (k, true)) } } 7 && onlyWork base 7,
       (let s := base.setReg (.domCtrl 2) 0xC0000000; (leaveAsked s 2).isSome && pendOf s 2 && staysOn s 2) && (let s := base.setReg (.domCtrl 7) 0xC0000000; (leaveAsked s 7).isSome && !pendOf s 7 && !staysOn s 7),
       (let s := applied (.rqCfg 127) 2 { base.modDom 2 (fun d => { d with step := .iso, target := .ret }) with evc := { rq := [(127, { req := true })] } };
          (s.rq 127).req && rqMode s 127 == 2 && !s.boot.rstN && !s.boot.rstAo),
       domHeld { base with fcr := { asserted := (List.range 320).map (fun k => (k, true)) } } 7,
       [DomStep.drain, .iso, .save].all (fun st => abortDue (base.modDom 7 (fun d => { d with step := st, target := .ret, abort := true })) 7),
       drained { base with txns := [{ openWrite with gal := some e0 }] } 7 == false ] : List Bool).all id = true := by decide +kernel

/-- A domain that wakes through each step, its power on, the alarm at its time and one tick before, a supply that is acknowledged and one that is late. -/
theorem witness_Waking :
    ([ (let s := base.modDom 7 (fun d => { d with st := .ret, target := .ret }); wakeOk 7 10 && !wakeOk 7 11 && domPresent s 7 && autoWake s 7 && (s.gal 0).bankA.st != .reloading && (s.gal 0).bankB.st != .reloading && (depsOf 7).all s.domOn &&
          (s.dom 7).step == .none && (s.dom 7).st != .on && (depsOf 7).all (fun k => (s.dom k).step == .none)),
       [DomStep.rail, .clock, .settle, .restore].all (fun st => wakeFree (base.modDom 7 (fun d => { d with st := .off, step := st, saved := true })) 7) && !wakeFree { base with boot := { rstN := true } } 7,
       clockUp { base with pcm := { clk := [(0, { req := true, ack := true })] } } 7 && !clockUp base 7,
       takesB base sec true (.holdRelease 0) && takesB base sec true (.holdRelease 1),
       (let s := { base with pcm := { alarmArm := true } }; alarmAt s == s.projTime.toNat && s.pcm.alarmArm),
       (let s := { (base.setReg .alarmLo 1) with pcm := { alarmArm := true } }; decide (s.projTime.toNat < alarmAt s)),
       (let s := base.modSup 8 (fun x => { x with vtog := !x.vack, clkStop := true, raiseWait := true }); (s.sup 8).vtog != (s.sup 8).vack && !(s.sup 8).overdue && (s.sup 8).clkStop && (s.sup 8).raiseWait && !(base.sup 8).raiseWait && !(base.sup 8).clkStop),
       ((base.modSup 0 (fun x => { x with clkStop := true })).sup 0).clkStop && (base.clk 4).req == (base.clk 4).ack && ({ base with pcm := { clk := [(4, { req := true })] } }.clk 4).req != ({ base with pcm := { clk := [(4, { req := true })] } }.clk 4).ack ] : List Bool).all id = true := by decide +kernel

/-- The resets before and after their release, test operation, and a debug halt of a secure and of a non-secure work order. -/
theorem witness_ResetsTestAndDebug :
    ([ State.reset.boot.rstN && !State.reset.boot.rstAo && !base.boot.rstN && !base.boot.ready == false && !base.boot.tstMode && base.coreOn,
       (let s := { State.reset with boot := { rstN := false } }; !s.boot.ready && !coreSupplied s && tbSynth s == false),
       (let s := { State.reset with boot := { rstN := false }, pcm := { clk := [(0, { req := true, ack := true })], sup := [(0, { vreq := 1, vack := true, vtog := true })] } };
          coreSupplied s && s.chans == [] && !s.boot.rstAo),
       dbgAdmits (run {}) ((run {}).eng e0) && !dbgAdmits (run {} { ctrl := 0x80000003 }) ((run {} { ctrl := 0x80000003 }).eng e0) == ((run {} { ctrl := 0x80000003 }).chan 1).sec,
       { base with boot := { base.boot with dbgHalt := true } }.boot.dbgHalt && !base.boot.dbgHalt && (1 : Nat) < 544 ] : List Bool).all id = true := by decide +kernel

/-- The matcher, the stretch, the commands while CORE serves and while not, each PEC, and the registers' bounds. -/
theorem witness_SidebandCommands :
    ([ sbpMatcherOn base && !sbpMatcherOn State.reset && base.coreOn && base.boot.ready && (base.dom 2).step == .none && base.domOn 1 && (base.dom 1).step == .none && !coreRet.coreOn,
       (let s := { base with sbp := { active := true } }; sbpServes s && !sbpServes base),
       ({ base with sbp := { stretch := true } }).sbp.stretch && !base.sbp.stretch,
       (let s : State := { base with sbp := { active := true } };
          let q := crc8 ([sbpAddr s false, 0x20, 5]); q != q + 1 && sbpServes s && nxP (execTmIdx 5 (some q) s) (fun u => u.sbp.acked && u.sbp.tmIdx == 5) &&
          nxP (execTmIdx 5 (some (q + 1)) s) (fun u => !u.sbp.acked && u.sbp.tmIdx == 0)),
       !([0x01, 0x02, 0x03, 0x04, 0x05, 0x10, 0x11, 0x12, 0x20, 0x21].contains 0x06) && crc8 ((List.range 9).map (fun k => BitVec.ofNat 8 (0x31 + k))) == 0xF4,
       decide (1048575 < 1048576) && bit (base.reg .sbpCfg) 0 == !bit (((base.setReg .sbpCfg (base.reg .sbpCfg ^^^ 3))).reg .sbpCfg) 0 && bit (base.reg .sbpCfg) 1 == !bit (((base.setReg .sbpCfg (base.reg .sbpCfg ^^^ 3))).reg .sbpCfg) 1,
       (let s := { base.setReg .sbpCfg 7 with sbp := { active := true } }; (coreAnswer (TpAttr.plain (bit (s.reg .sbpCfg) 2) 0) false 0 0 s).1.code == okay) ] : List Bool).all id = true := by decide +kernel

/-- Each lock state, a strobe at the tolerance's edge and past it, an index at a wrong wedge, a window that is over, and the synthetic strobe at its tick. -/
theorem witness_StrobesAndEpochs :
    ([ tbsUp base && !tbSynth base && tbSynth (applied .tbCfg 0x80000000 base),
       (let t : Tbs := { lock := .locked, wedgePeriod := 0x10000, spin := true }; let s := { base with tbs := { t with time := 0x1000 } };
          strobeAccepts s && wedgeNext s == 1 && !strobeAccepts { base with tbs := { t with time := 0x2000 } } && windowOver { base with tbs := { t with time := 0x2000 } } && !windowOver s),
       (let s := applied .tbCfg 0x00584000 { base with tbs := { lock := .locked, wedge := 87, wedgePeriod := 0x10000, time := 0x1000 } }; s.wpr == 88 && wedgeNext s == 0 && wedgeNext { s with tbs := { s.tbs with wedge := 0, missed := 86 } } == 87),
       acqAccepts base 5 && !acqAccepts { base with tbs := { acqN := 1, acqSum := 100 } } 1000,
       (let s := { base with tbs := { lock := .holdover, missed := 1 } }; [Lock.locked, .holdover].all (fun l => ({ base with tbs := { lock := l } }).tbs.lock == l) && s.tbs.missed.toNat + 1 == 2),
       (let s := { base with tbs := { lock := .synth, synthNext := 5, time := 5 } }; decide (s.tbs.synthNext.toNat ≤ s.now.toNat) && decide (({ s with tbs := { s.tbs with time := 4 } } : State).now.toNat < s.tbs.synthNext.toNat)),
       takesB base sec true .epStrobe && decide (base.now.toNat % (1600 * max 1 (fld (base.app .epCfg) 16 16)) = 0) && decide (({ base with tbs := { time := 1 } } : State).now.toNat % (1600 * max 1 (fld (base.app .epCfg) 16 16)) ≠ 0),
       ({ base with tbs := { lock := .holdover } }).tbs.lock != .unlocked,
       (let s := applied .tbCfg 0x00584000 { base with tbs := { lock := .locked, wedge := 87, wedgePeriod := 0x10000, time := 0x1000 } }; strobeAccepts s && wedgeNext s == 0 && s.tbs.missed.toNat == 0),
       (let s := applied .tbCfg 0x00584200 { base with tbs := { lock := .acquiring, acqStrobes := 88, acqRevs := 1, time := 0x1000 } };
          acqAccepts s (sinceStrobe s) && s.wpr == 88 && decide (fld (s.app .tbCfg) 8 4 ≤ s.tbs.acqRevs + 1) && !decide (fld (s.app .tbCfg) 8 4 ≤ ({ s.tbs with acqRevs := 0 } : Tbs).acqRevs + 1) &&
          ({ s.tbs with acqStrobes := 87 } : Tbs).acqStrobes != s.wpr),
       (let x : Tbs := { spinPin := true, spinTicks := 15 }; x.spinPin != x.spin && decide (15 ≤ x.spinTicks) && decide (({ x with spinTicks := 14 } : Tbs).spinTicks < 15)) && base.tbs.spinPin == base.tbs.spin ] : List Bool).all id = true := by decide +kernel

/-- Pair 63 holds channel 1's anchor at tick 100, at this time; pair 62 is a software comparator. -/
def anchored (t : Nat) : State :=
  { applied .scRsv 0 base with
    chans := [(1, { ctrl := 3, st := .waiting, wait := .anchor, sched := { anchor := 100, armed := true, kind := 2 } })]
    tbs := { time := BitVec.ofNat 64 t, pairs := [(63, { ch := some 1 })] } }

/-- The pairs from 62 on are software comparators, and comparator 62 is armed for tick 100. -/
def comparator (t : Nat) : State :=
  let s := (applied .scRsv 2 base).setReg (.scAnchLo 62) 100
  { s with tbs := { time := BitVec.ofNat 64 t, sc := [(62, { arm := true })] } }

/-- A pair whose anchor is 2 ticks early, 2 late and 3 late; a comparator reserved and not, armed and not; a lost register of each kind; a pair that disagrees. -/
theorem witness_AnchorsAndComparators :
    ([ (let s := anchored 100; tbsUp s && !pairBusy s 63 && !scReserved s 63 && (s.pair 63).ch == some 1 && (s.chan 1).sched.armed),
       [98, 100, 102].all (fun t => onTime (anchored t) 100 false) && !onTime (anchored 97) 100 false && !onTime (anchored 103) 100 false,
       (let s := comparator 102; scReserved s 62 && scReserved s 63 && !scReserved s 61 && (s.sc 62).arm && !(s.sc 62).held && onTime s (scAnchor s 62) (s.sc 62).angular && !pairBusy s 62 &&
          !onTime (comparator 97) (scAnchor s 62) false),
       (let s := { anchored 100 with tbs := { (anchored 100).tbs with reload := [63] } }; pairBusy s 63 && s.tbs.reload.contains 63 && s.coreOn && !s.tbs.reload.contains 62),
       (let s := anchored 100; pairArmed s 63 && !s.fcr.unguarded && !pairArmed s 62 && (s.pair 62).ch == none),
       (let s := { anchored 100 with tbs := { (anchored 100).tbs with pairs := [(63, { ch := some 1, dis := true })] } }; (s.pair 63).dis && !scReserved s 63 && pairBusy s 63),
       takesB base sec true (.scCtrl (32 + 31)) && fld (0x30000000 : Word) 28 2 == 3 && bit (0x80000000 : Word) 31,
       chanPast (anchored 100) 1 1 == false,
       (let s := { anchored 97 with tbs := { (anchored 97).tbs with pairs := [] } };
          Tbl.wf ({} : Pair) s.tbs.pairs && Tbl.wf ({} : Pair) (anchored 97).tbs.pairs && (List.range 64).all (fun j => !pairBusy s j) && s.chans.all (fun p => decide (p.1 < 4096) && s.chan (BitVec.ofNat 12 p.1) == p.2) &&
          calendar s == [1] && calendar base == [] && !s.fcr.unguarded && decide (1 ≤ poolSize s) && (poolLoad s).tbs.pairs.any (fun p => p.2.ch == some 1)) ] : List Bool).all id = true := by decide +kernel

/-- Channel 1 in a state that a program has configured, owned by software 0. -/
def inSt (st : ChState) (c : Chan := {}) : State := idleChan { c with ctrl := allocEn, st := st }

/-- Tails at the ring's size, one past it and one back; each command in a state that takes it and one that does not, above and below a pending one; RESUME in each state. -/
theorem witness_ChannelCommands :
    ([ chanRefused (inSt .armed) 1 true 0 == false && takesB base sec true (.doorbell 1 0) && takesB base sec true (.doorbell 1 1) && takesB base sec true (.doorbell 1 2),
       (let c : Chan := {}; decide ((BitVec.ofNat 16 (2 ^ c.wrSize) - c.wrDone).toNat ≤ 2 ^ c.wrSize) && decide (¬ (BitVec.ofNat 16 (2 ^ c.wrSize + 1) - c.wrDone).toNat ≤ 2 ^ c.wrSize)),
       Cmd.pause.strength == 2 && Cmd.abort.strength == 4 && Cmd.kill.strength == 5 && Cmd.stop.strength == 3,
       (let s := inSt .paused { pend := none }; (s.chan 1).st == .paused && (s.chan 1).eng == none) && (let s := inSt .halted { ringErr := true, pend := some .stop }; (s.chan 1).st == .halted && (s.chan 1).ringErr),
       ((inSt .halted { pend := some .stop }).chan 1).pend != none && ((inSt .running { pend := some .pause }).chan 1).pend == some .pause && ((inSt .halted { ringErr := true, pend := some .stop }).chan 1).ringErr,
       headWaits { st := .draining, cache := [entryOf 1 0], wrTail := 1 } || !headWaits { st := .draining },
       (let c : Chan := { st := .draining }; !(c.inOrder || c.stalledDone.isSome || headWaits c)) && (let c : Chan := { st := .draining, inOrder := true }; c.inOrder),
       (let c : Chan := { wrStart := 3, wrDone := 3, wrTail := 3 }; c.wrStart == c.wrTail && c.wrDone == c.wrTail && ({ c with wrTail := 4 } : Chan).wrStart != 4) ] : List Bool).all id = true := by decide +kernel

/-- Window 0 selects channel 1, which is in this state. -/
def windowed (c : Chan) : State := { idleChan c with wins := [(0, { sel := 1 })] }

/-- ALLOC with and without a home gallery and EN, EN with and without one, EN = 0 with and without another change, and a ring word changed and unchanged. -/
theorem witness_ContextCommands :
    ([ takesB base sec true (.catSel 3) && takesB base sec true (.catWin 0 0) && takesB base sec false (.catWin 0 0x80) && !winRefused (windowed {}) 0 true 0,
       homeSet base 1 != [] && homeSet base 0 == [] && bit (2 : Word) 1 && !bit (1 : Word) 1,
       ((windowed { ctrl := 1, st := .configured, home := 1 }).chan 1).st == .configured && bit (1 : Word) 0,
       (let c : Chan := { ctrl := 3, st := .running }; c.en && (ctrlStored c.ctrl 1 &&& 0xFFFF0FFD) == (c.ctrl &&& 0xFFFF0FFD) && (ctrlStored c.ctrl 0x11 &&& 0xFFFF0FFD) != (c.ctrl &&& 0xFFFF0FFD)),
       isRingWord 0x0C && takesB base sec true (.catWin 0 0x0C) && (ctxStored {} 0x0C 0).isSome && ((ctxStored {} 0x10 0x40).map (fun n => n != {}) != some false) ] : List Bool).all id = true := by decide +kernel

/-- A well-formed and a malformed access, an unmapped one, one that security denies, one of a domain that is off, the Attendant's own, and each kind of register named. -/
theorem witness_RegisterAccess :
    ([ base.serves && malformedTp { sec with low := 1 } false 0 && !malformedTp sec false 0 && !malformedTp sec true 0xFFFFC && decodeReg base.wings 0xFFFFC == none && decodeReg base.wings 0 != none,
       secDenied base false true .docCmd && !secDenied base true true .docCmd && domainOff State.reset (.linkCtrl 31) == some 42 && domainOff base (.linkCtrl 31) == none,
       (let s := { State.reset with boot := { rstN := false } }; !s.boot.tstMode && !s.boot.rstAo && !s.boot.shellIso && !coreServes s && !s.boot.ready) && coreServes coreRet == false && coreRet.boot.ready,
       [Reg.tempLim, .lgRate, .lgSel, .dspSel, .loadGal, .injSel, .docCfg, .rotCfg, .scrubCfg, .keySel 3, .portCfg 0].all (fun r => takesB base sec true r && decodeReg base.wings r.addr == some r && r.addr % 4 == 0),
       [Reg.tpStat, .lgStat, .docLast, .scrubStat, .starveLog, .portStat 0, .arbStat 0, .slErrCnt 31, .csInfo 0 1, .evoMrg 63, .srcCnt 0].all (fun r => takesB base sec false r && decodeReg base.wings r.addr == some r),
       takesB base sec false (.doorbell 1 2) && decodeReg base.wings (Reg.doorbell 1 2).addr == some (.doorbell 1 2) && (Reg.doorbell 1 2).addr % 4 == 0 && !chanRefused base 1 true 0 && !ecRefused base true (.evoMrg 63) && !keyHidden base 0 true,
       [Reg.aoDisc, .dbgCfg, .csInfo 0 0, .keyStat 0].all (fun r => takesB base sec false r && decodeReg base.wings r.addr == some r && r.addr % 4 == 0),
       takesB base sec false .timeLo && (Reg.timeLo).pair.isSome && !ecRefused base true .timeLo && takesB base sec true .tmCtrl && takesB base sec true (.engCtrl 0) && takesB base sec true .nsDeny,
       bit (({ base with rw := [(0x34, 0x80000000)] }).reg .nsDeny) 31 || !bit (base.reg .nsDeny) 31 ] : List Bool).all id = true := by decide +kernel

/-- A data word of a secure and of a non-secure access, LOADs that are stored, rejected and refused, and CLEAR of a slot that is hidden and one that is not. -/
theorem witness_KeyCabinet :
    ([ takesB base sec true (.keyData 3 15) && takesB base nonsec true (.keyData 0 0) && takesB base sec true (.keyCmd 0) && takesB base nonsec true (.keyCmd 0),
       (let s := { base with keys := [(0, { st := 1, sec := true, key := List.replicate 64 1 })] }; (s.key 0).sec && fld (s.reg (.keySel 0)) 0 10 == 0),
       ((keyBytes (base.keyWin 0)).take 32 == (keyBytes (base.keyWin 0)).drop 32) && bit (0x00C00000 : Word) 22 && bit (0x00800000 : Word) 23 && ({ nsData := true } : KeyWin).nsData ] : List Bool).all id = true := by decide +kernel

/-- Two states that differ in a slot's and a window's bytes only. -/
theorem witness_KeysUnreadable :
    ([ (let s := { base with keys := [(0, { st := 1, key := List.replicate 64 1 })], keyWins := [(0, { data := [(1, 2)] })] };
          let t := { s with keys := [(0, { st := 1, key := List.replicate 64 2 })], keyWins := [(0, {})] };
          (List.range 3).all (fun i => ({ t.key i with key := [] } : KeySlot) == { s.key i with key := [] } && ({ t.keyWin i with data := [] } : KeyWin) == { s.keyWin i with data := [] }) && t.key 0 != s.key 0) ] : List Bool).all id = true := by decide +kernel

/-- A command that waits with another behind it, and an empty queue with TBS ON and OFF. -/
theorem witness_StepRunsFront :
    ([ (let s := { base with pending := [.info, .rd] }; s.pending == [.info, .rd]) && base.pending == [] && base.domOn 1 && !State.reset.domOn 1 && base.tbs.spinPin == base.tbs.spin && decide (base.tbs.spinTicks < 15) ] : List Bool).all id = true := by decide +kernel

/-- The bounds of the state just reached by HALT_Q, the Ledger's queue and Docent's, and a loaded pair of unequal halves. -/
theorem witness_StepKeepsSound :
    ([ (let s := { base with keys := [(0, { st := 1, kind := true, key := List.replicate 32 1 ++ List.replicate 32 2 })], evc := { haltQ := List.replicate 64 1 }, ledger := { queue := List.replicate 16 {} }, doc := { queue := List.replicate 32 (recov 0 3 (some e0)) } };
          keysOk s.keys && decide (s.ledger.queue.length ≤ 16) && decide (s.evc.haltQ.length ≤ 64) && decide (s.doc.queue.length ≤ 32) && nxP (step s) (fun _ => true)) ] : List Bool).all id = true := by decide +kernel

/-- Values that the manual prints: the check values of Table 6-10, the words of Table 3-4's layout, and the stored values of Table 14-10. -/
theorem witness_ManualValues :
    ([ [((8 : Byte), (0xCBF43926 : DWord)), (9, 0xE3069283), (10, 0x0376E6E7)].all (fun p =>
          let l := (List.range 9).map (fun k => BitVec.ofNat 8 (0x31 + k));
          ({ bytes := [p.1] ++ List.replicate 31 0, run := BitVec.ofNat 64 (l.foldl (foldByte (xMode [p.1])) 0xFFFFFFFF) } : Bind).final == p.2),
       decodeInsn e0 0x3018442000000000 == some (.add e0 (iw 3 1 2 0x20 0)) && decodeInsn e0 0x0B00000000000000 == some (.fence e0 (iw 0 0 0 0 0)) &&
          decodeInsn e0 0x0B00000100000000 == some (.fenceG e0 (iw 0 0 0 1 0)) && decodeInsn e0 0x1400008200000001 != none,
       decodeInsn e0 0x60FFFFFFFFFFFFFF == some (.ld e0 { rd := 31, ra := 31, rb := 31, ss := 7, md := 63, imm := 0xFFFFFFFF }) &&
          decodeInsn e0 0x2000000300000007 == some (.waitEvent e0 (iw 0 0 0 3 7)) && decodeInsn e0 0x8040000000000040 == some (.xset e0 (iw 8 0 0 0 0x40)),
       nxP (execStagingWrite sec (BitVec.ofNat 20 (Reg.arbWheel 73 0).addr) 0x88818281 base) (fun t => t.stg (.arbWheel 73 0) == 0x00818281) &&
          nxP (execStagingWrite sec (BitVec.ofNat 20 (Reg.arbCfg 73).addr) 0x02400000 base) (fun t => t.stg (.arbCfg 73) == 0x04400000) ] : List Bool).all id = true := by decide +kernel

end Sys2Proof.Tests
end

section
/-! Register accesses (Table 20-2): one address for each register, the judgement of an access, the Attendant, what reads hold and
clear, what writes store, and a violated handshake. -/

namespace Sys2Proof.Machine

/-! ## The address map (R655) -/

/-- A lookup of address `a` gives no register but the one that stands at `a`. -/
def NamesAddr (a : Nat) (o : Option Reg) : Prop := ∀ r, o = some r → r.addr = a

theorem namesAddr_none (a : Nat) : NamesAddr a none := fun _ h => nomatch h

theorem namesAddr_some {a : Nat} {r : Reg} (h : r.addr = a) : NamesAddr a (some r) := by
  rintro _ ⟨⟩
  exact h

theorem namesAddr_ite {a : Nat} {c : Prop} [Decidable c] {o p : Option Reg} (ho : c → NamesAddr a o) (hp : ¬c → NamesAddr a p) :
    NamesAddr a (if c then o else p) := by
  split
  · exact ho ‹_›
  · exact hp ‹_›

/-- The lookup that tries `o` first and else `p`. -/
theorem namesAddr_orElse {a : Nat} {o p : Option Reg} :
    NamesAddr a o → NamesAddr a p → NamesAddr a (match o with | some r => some r | none => p) := by
  intro ho hp
  cases o with
  | none => exact hp
  | some r => exact ho

theorem firstRow_names_nil (a : Nat) : NamesAddr a (firstRow []) := namesAddr_none a

theorem firstRow_names_cons {a : Nat} {o : Option Reg} {l : List (Option Reg)} (ho : NamesAddr a o) (hl : NamesAddr a (firstRow l)) :
    NamesAddr a (firstRow (o :: l)) := by
  cases o with
  | none => exact hl
  | some r => exact ho

/-- The offset of a register of a row is the row's base and its index's strides. -/
theorem eq_of_rowIdx {o base stride n i : Nat} (h : rowIdx o base stride n = some i) : o = base + stride * i ∧ i < n := by
  unfold rowIdx at h
  split at h
  · rename_i hc
    obtain ⟨hb, hm, hn⟩ := hc
    cases h
    have := Nat.div_add_mod (o - base) stride
    exact ⟨by omega, hn⟩
  · cases h

/-- A row of registers names its address, if each of its registers stands where the row puts it. -/
theorem rowIdx_names {a o base stride n : Nat} {f : Nat → Reg} (h : ∀ i, o = base + stride * i → (f i).addr = a) :
    NamesAddr a ((rowIdx o base stride n).map f) := by
  cases hi : rowIdx o base stride n with
  | none => exact namesAddr_none a
  | some i => exact namesAddr_some (h i (eq_of_rowIdx hi).1)

theorem decCore_names (a : Nat) : NamesAddr a (decCore a) := by
  unfold decCore
  split
  on_goal -1 => exact namesAddr_none a
  all_goals exact namesAddr_some rfl

theorem decIdx_names (a : Nat) : NamesAddr a (decIdx a) := by
  unfold decIdx
  iterate 41 refine firstRow_names_cons (rowIdx_names fun i hi => by rw [hi]; simp [Reg.addr]) ?_
  refine firstRow_names_cons (namesAddr_ite (fun h => namesAddr_some ?_) fun _ => namesAddr_none a) ?_
  · dsimp only [Reg.addr]
    omega
  refine firstRow_names_cons (namesAddr_ite (fun h => namesAddr_some ?_) fun _ => namesAddr_none a) (firstRow_names_nil a)
  dsimp only [Reg.addr]
  omega

/-- The arbiter group of a block, where the block's base is that of the arbiter. -/
theorem decArb_names {a x o np : Nat} (h : Reg.addr.arbBase x + o = a) : NamesAddr a (decArb x o np) := by
  unfold decArb
  refine namesAddr_ite (fun ho => namesAddr_some ?_) fun _ => namesAddr_ite (fun ho => namesAddr_some ?_) fun _ =>
    firstRow_names_cons (rowIdx_names fun i hi => ?_) (firstRow_names_cons (rowIdx_names fun i hi => ?_) (firstRow_names_nil a))
  all_goals
    dsimp only [Reg.addr]
    omega

/-- A port's or a link's block. -/
theorem decPort_names {a w p o : Nat} (hp : 0x10000 + 0x100 * p + o = a) : NamesAddr a (decPort w p o) := by
  unfold decPort
  refine namesAddr_ite (fun _ => namesAddr_none a) fun _ => namesAddr_orElse (decArb_names ?_) (namesAddr_ite (fun _ => ?_) fun _ => ?_)
  · unfold Reg.addr.arbBase
    rw [if_neg (by omega), if_neg (by omega)]
    omega
  · split
    on_goal -1 => exact namesAddr_none a
    all_goals exact namesAddr_some hp
  · have h32 : 0x12000 + 0x100 * (p - 32) + o = a := by omega
    split
    on_goal -1 =>
      refine rowIdx_names fun i hi => ?_
      dsimp only [Reg.addr]
      omega
    all_goals exact namesAddr_some h32

/-- A gallery's block. -/
theorem decGal_names {a g o : Nat} (hg : g < 32) (h : 0xA0000 + 0x1000 * g + o = a) : NamesAddr a (decGal g o) := by
  unfold decGal
  refine namesAddr_orElse (decArb_names ?_) ?_
  · unfold Reg.addr.arbBase
    rw [if_pos hg]
    exact h
  refine firstRow_names_cons (namesAddr_ite (fun ho => namesAddr_some ?_) fun _ => namesAddr_none a) <|
    firstRow_names_cons (rowIdx_names fun i hi => ?_) <| firstRow_names_cons (rowIdx_names fun i hi => ?_) <|
    firstRow_names_cons (namesAddr_ite (fun ho => namesAddr_some ?_) fun _ => namesAddr_none a) <|
    firstRow_names_cons (namesAddr_ite (fun ho => namesAddr_some ?_) fun _ => namesAddr_none a) <|
    firstRow_names_cons (rowIdx_names fun i hi => ?_) <| firstRow_names_cons (rowIdx_names fun i hi => ?_) <|
    firstRow_names_cons (rowIdx_names fun i hi => ?_) <|
    firstRow_names_cons (namesAddr_ite (fun ho => namesAddr_some ?_) fun _ => namesAddr_none a) <|
    firstRow_names_cons (namesAddr_ite (fun ho => namesAddr_some ?_) fun _ => namesAddr_none a) (firstRow_names_nil a)
  all_goals
    dsimp only [Reg.addr]
    omega

/-- Every register stands at one address: the register that an address decodes to is the one whose address it is. -/
theorem decodeReg_names (wings a : Nat) : NamesAddr a (decodeReg wings a) := by
  unfold decodeReg
  refine namesAddr_ite (fun _ => namesAddr_orElse (decCore_names a) (decIdx_names a)) fun h1 =>
    namesAddr_ite (fun h2 => decPort_names (by omega)) fun h2 => namesAddr_ite (fun h3 => ?_) fun _ =>
    namesAddr_ite (fun h4 => namesAddr_some ?_) fun _ =>
    namesAddr_ite (fun h5 => namesAddr_ite (fun _ => decGal_names (by omega) (by omega)) fun _ => namesAddr_none a) fun _ =>
    namesAddr_none a
  · refine namesAddr_ite (fun _ => decArb_names ?_) fun _ => namesAddr_none a
    unfold Reg.addr.arbBase
    rw [if_neg (by omega), if_pos (by omega)]
    omega
  · dsimp only [Reg.addr]
    omega

/-! ## Plain registers -/

/-- A write leaves every other key alone, whatever the default of the read. -/
theorem Tbl.get_put_ne {α : Type} [DecidableEq α] (d e : α) (t : Tbl α) {k j : Nat} (v : α) (h : j ≠ k) :
    Tbl.get d (Tbl.put e t k v) j = Tbl.get d t j := by
  unfold Tbl.put
  split
  · exact Tbl.get_del_other d t k j h
  · rw [Tbl.get_ins_other d _ k j v h, Tbl.get_del_other d t k j h]

@[simp] theorem reg_setReg (s : State) (r : Reg) (v : Word) : (s.setReg r v).reg r = v := by
  simp [State.reg, State.setReg]

theorem reg_setReg_other (s : State) {r q : Reg} (v : Word) (h : q.addr ≠ r.addr) : (s.setReg r v).reg q = s.reg q :=
  Tbl.get_put_ne _ _ _ v h

@[simp] theorem reg_rwWrite (s : State) (r : Reg) (v : Word) : (rwWrite r v s).reg r = storeFlds r.flds (s.reg r) v :=
  reg_setReg s r _

/-- A gallery after a change of it. -/
@[simp] theorem gal_modGal (s : State) (g : Nat) (f : Gal → Gal) : (s.modGal g f).gal g = f (s.gal g) := by
  simp [State.gal, State.modGal]

theorem gal_modGal_other (s : State) {g k : Nat} (f : Gal → Gal) (h : k ≠ g) : (s.modGal g f).gal k = s.gal k :=
  Tbl.get_put_other _ _ _ _ _ h

/-! ## The judgement (Table 20-2) -/

/-- An access that CORE answers without effect: a code other than OKAY, and a posted write is counted as discarded. -/
theorem serves_refused {s : State} {a : TpAttr} {wr : Bool} {addr : BitVec 20} {d : Word} {c : BitVec 3} (h : s.serves = true)
    (hc : c ≠ okay) (hr : coreAnswer a wr addr d s = ({ code := c, data := 0 }, s)) :
    act s (tpAccess a wr addr d s) =
      if wr then denied a addr.toNat c s else .next { s with resp := some (rspBeat a wr c 0) } := by
  rw [act_next (serves_test h), tpAccess_serves h, hr]
  unfold denied answer
  cases wr <;> cases hp : a.posted <;> simp [hc, Resp.on, rspBeat]

/-- An access that passes step 1 is judged by steps 3 to 6. -/
theorem coreAnswer_formed {a : TpAttr} {wr : Bool} {addr : BitVec 20} (d : Word) (s : State) (hm : malformedTp a wr addr = false) :
    coreAnswer a wr addr d s = access a.sec a.owner wr addr.toNat d s := by
  simp [coreAnswer, hm]

/-- What passes steps 1 to 5 is what CORE takes, at a word address. -/
theorem takes_of_judged {s : State} {a : TpAttr} {wr : Bool} {addr : BitVec 20} {q : Reg} (h : s.serves = true)
    (hm : malformedTp a wr addr = false) (hs : secDenied s a.sec wr q = false) (ho : domainOff s q = none) :
    s.takes a wr q ∧ addr.toNat % 4 = 0 := by
  unfold malformedTp at hm
  simp only [Bool.or_eq_false_iff, bne_eq_false_iff_eq] at hm
  obtain ⟨⟨⟨⟨hlow, h4⟩, hlen⟩, hn⟩, hbe⟩ := hm
  refine ⟨⟨h, hlow, hlen, hn, fun hw => ?_, hs, ho⟩, h4⟩
  simpa [hw] using hbe

/-- A register whose domain is not ON answers POWERED_OFF and wakes it (R451). -/
theorem serves_poweredOff {s : State} {a : TpAttr} {wr : Bool} {addr : BitVec 20} {q : Reg} {m : Nat} (d : Word) (h : s.serves = true)
    (hm : malformedTp a wr addr = false) (hd : decodeReg s.wings addr.toNat = some q) (hs : secDenied s a.sec wr q = false)
    (ho : domainOff s q = some m) (hp : (wr && a.posted) = false) :
    act s (tpAccess a wr addr d s) = .next { beginWake m 6 0 s with resp := some (rspBeat a wr poweredOff 0) } := by
  rw [act_next (serves_test h), tpAccess_serves h, coreAnswer_formed d s hm]
  simp [access, hd, hs, ho, hp, answer, Resp.on, rspBeat]

/-- Step 6 refuses a read. -/
theorem takes_readRefused {s : State} {a : TpAttr} {r : Reg} (h : s.takes a false r) (addr : BitVec 20) (d : Word)
    (h4 : addr.toNat % 4 = 0) (hd : decodeReg s.wings addr.toNat = some r) (hr : regRead a.sec a.owner r s = none) :
    act s (tpAccess a false addr d s) = .next { s with resp := some (rspBeat a false slverr 0) } :=
  serves_refused h.1 (by decide) (by rw [takes_answer h addr d h4 hd]; simp [ownerRules, hr])

/-- A write at the address that a row of the table fixes, if the register's rules take it. -/
theorem takes_wroteAt {s t : State} {a : TpAttr} {r : Reg} (h : s.takes a true r) (n : Nat) (d : Word) (hn : n < 2 ^ 20)
    (h4 : n % 4 = 0) (hd : decodeReg s.wings n = some r) (hw : regWrite a.sec a.owner r d s = some t) :
    act s (tpWrite a n d s) = wrote a t := by
  have e : (BitVec.ofNat 20 n).toNat = n := Nat.mod_eq_of_lt hn
  exact takes_wrote h (BitVec.ofNat 20 n) d (by rw [e]; exact h4) (by rw [e]; exact hd) hw

/-- The same for a write that the register's rules refuse. -/
theorem takes_deniedAt {s : State} {a : TpAttr} {r : Reg} (h : s.takes a true r) (n : Nat) (d : Word) (hn : n < 2 ^ 20)
    (h4 : n % 4 = 0) (hd : decodeReg s.wings n = some r) (hw : regWrite a.sec a.owner r d s = none) :
    act s (tpWrite a n d s) = denied a n slverr s := by
  have e : (BitVec.ofNat 20 n).toNat = n := Nat.mod_eq_of_lt hn
  have hden := takes_denied h (BitVec.ofNat 20 n) d (by rw [e]; exact h4) (by rw [e]; exact hd) hw
  rwa [e] at hden

/-! ## The Attendant (R488, R489) -/

/-- While CORE does not serve TP, the Attendant takes every access of an AO that is up. -/
theorem tpAccess_attended {s : State} (hao : s.boot.rstAo = false) (hsh : s.boot.shellIso = false) (hc : coreServes s = false)
    (a : TpAttr) (wr : Bool) (addr : BitVec 20) (d : Word) :
    tpAccess a wr addr d s =
      if wr && a.posted then answer none (aoDiscarded s)
      else answer (some ((aoAnswer a wr addr s).1.on a wr)) (aoAnswer a wr addr s).2 := by
  simp [tpAccess, hao, hsh, hc]

/-- The Attendant's answer to a well-formed access that is not posted. -/
theorem attended_answer {s : State} (ht : s.boot.tstMode = false) (hao : s.boot.rstAo = false) (hsh : s.boot.shellIso = false)
    (hc : coreServes s = false) {a : TpAttr} {wr : Bool} {addr : BitVec 20} (d : Word) (hp : (wr && a.posted) = false)
    (hm : malformedTp a wr addr = false) :
    act s (tpAccess a wr addr d s) =
      .next { (attend addr.toNat wr s).2 with resp := some ((attend addr.toNat wr s).1.on a wr) } := by
  rw [act_next ht, tpAccess_attended hao hsh hc, hp]
  simp [aoAnswer, hm, answer]

/-- The beat of an OKAY answer whose data is 0 where it is a write. -/
theorem okay_on (a : TpAttr) (wr : Bool) (w : Word) :
    Resp.on { code := okay, data := if wr then 0 else w } a wr = rspBeat a wr okay w := by
  simp [Resp.on, rspBeat]

/-- Any address but those of ID, VERSION and GSTAT. -/
theorem attend_absent {n : Nat} (h0 : n ≠ 0) (h4 : n ≠ 4) (h8 : n ≠ 8) (wr : Bool) (s : State) :
    attend n wr s = ({ code := absent, data := 0 }, if s.boot.ready then beginWake 2 5 0 s else s) := by
  simp [attend, h0, h4, h8]

/-! ## What reads hold and clear (R17, R657, R658) -/

/-- A _LO half that no rule hides loads its holding register with the _HI half. -/
theorem regRead_loHalf {s : State} {lo hi : Reg} {sec : Bool} (owner : Byte) (hp : lo.pair = some (lo, hi, false))
    (he : ecRefused s sec lo = false) :
    regRead sec owner lo s = some (wordOf s sec lo, { s with hold := Tbl.put 0 s.hold lo.addr (wordOf s sec hi) }) := by
  cases lo <;> cases hp <;> simp [regRead, he, Reg.pair, pairRead]

/-- A read of the state word in a channel's doorbell block that the channel's owner checks pass. -/
theorem regRead_stateWord {s : State} {ch : Nat} {sec : Bool} {owner : Byte}
    (hc : chanRefused s (BitVec.ofNat 12 ch) sec owner = false) :
    regRead sec owner (.doorbell ch 2) s = some (stateWord s (BitVec.ofNat 12 ch),
      s.modChan (BitVec.ofNat 12 ch) (fun x => { x with dbErr := false, cmdRej := false })) := by
  simp [regRead, hc, bellRead]

/-- A read of a key window's status that no secure slot hides. -/
theorem regRead_keyStat {s : State} {i : Nat} {sec : Bool} (owner : Byte) (hk : keyHidden s i sec = false) :
    regRead sec owner (.keyStat i) s =
      some (wordOf s sec (.keyStat i), s.modKeyWin i (fun x => { x with rej := false })) := by
  simp [regRead, hk, readSequel]

/-! ## What writes store (R11, R13, R43, R636, R653, R661) -/

/-- The RW registers whose writes only store their fields. -/
def Reg.storesOnly (r : Reg) : Prop :=
  r = .tempLim ∨ r = .lgRate ∨ r = .lgSel ∨ r = .dspSel ∨ r = .loadGal ∨ r = .injSel ∨ r = .docCfg ∨ r = .rotCfg ∨ r = .scrubCfg ∨
    (∃ i, r = .keySel i) ∨ (∃ p, r = .portCfg p)

theorem regWrite_storesOnly {r : Reg} (h : r.storesOnly) (sec : Bool) (owner : Byte) (d : Word) (s : State) :
    regWrite sec owner r d s = some (rwWrite r d s) := by
  rcases h with rfl | rfl | rfl | rfl | rfl | rfl | rfl | rfl | rfl | ⟨i, rfl⟩ | ⟨p, rfl⟩ <;> rfl

/-- VIEW is the one field of TM_CTRL that is stored. -/
theorem bit_storeFlds_tmCtrl (old v : Word) : bit (storeFlds Reg.tmCtrl.flds old v) 0 = bit v 0 := by
  show bit (setFld old 0 1 (fld v 0 1)) 0 = bit v 0
  rw [bit_setFld, if_pos ⟨Nat.le_refl 0, by decide⟩, Nat.testBit_mod_two_pow, fld_testBit]
  simp

/-- TAKE copies every counter, and the write's VIEW is stored. -/
theorem tmCtrlTo_take {v : Word} (h : bit v 1 = true) (s : State) :
    (tmCtrlTo v s).mst = { s.mst with tmSnap := s.mst.tm } ∧ bit ((tmCtrlTo v s).reg .tmCtrl) 0 = bit v 0 := by
  simp only [tmCtrlTo, h, if_true]
  exact ⟨rfl, (congrArg (bit · 0) (reg_rwWrite s .tmCtrl v)).trans (bit_storeFlds_tmCtrl _ v)⟩

/-- TAKE copies a gallery's ENG_STAT values, and no other gallery's. -/
theorem engCtrlTo_take {g : Nat} {v : Word} (h : bit v 1 = true) (s : State) :
    ((engCtrlTo g v s).gal g).snap = (galEngs g).map (engWord s) ∧ ∀ k, k ≠ g → (engCtrlTo g v s).gal k = s.gal k := by
  simp only [engCtrlTo, h, if_true]
  exact ⟨by rw [gal_modGal], fun k hk => gal_modGal_other _ _ hk⟩

/-- The bit that makes a write a TAKE. -/
theorem bit_take (d : Word) : bit (setFld d 1 1 1) 1 = true := by
  rw [bit_setFld, if_pos ⟨Nat.le_refl 1, by decide⟩]
  rfl

/-- A word with its TAKE bit set keeps its VIEW. -/
theorem bit_view_take (d : Word) : bit (setFld d 1 1 1) 0 = bit d 0 := bit_setFld_other d 1 1 1 0 (Or.inl (by decide))

/-- NS_DENY stores its fields until its LOCK is 1. -/
theorem regWrite_nsDeny (sec : Bool) (owner : Byte) (d : Word) (s : State) :
    regWrite sec owner .nsDeny d s = if bit (s.reg .nsDeny) 31 then none else some (rwWrite .nsDeny d s) := rfl

/-! ## The rows that are one access -/

section
variable {a : TpAttr} {addr : BitVec 20} {s : State}

/-- The Attendant's own registers: a read shows the word, a write changes nothing. -/
theorem attended_known (ht : s.boot.tstMode = false) (hao : s.boot.rstAo = false) (hsh : s.boot.shellIso = false)
    (hc : coreServes s = false) {wr : Bool} (d : Word) (hp : (wr && a.posted) = false) (hm : malformedTp a wr addr = false) {w : Word}
    (hw : attend addr.toNat wr s = ({ code := okay, data := if wr then 0 else w }, s)) :
    exec (.attendantAccess a addr wr d) s = .next { s with resp := some (rspBeat a wr okay w) } := by
  refine (attended_answer ht hao hsh hc d hp hm).trans ?_
  rw [hw, okay_on]

/-- Any other register answers ABSENT, and wakes CORE once READY is 1. -/
theorem attended_unknown (ht : s.boot.tstMode = false) (hao : s.boot.rstAo = false) (hsh : s.boot.shellIso = false)
    (hc : coreServes s = false) {wr : Bool} (d : Word) (hp : (wr && a.posted) = false) (hm : malformedTp a wr addr = false)
    (h0 : addr ≠ 0) (h4 : addr ≠ 4) (h8 : addr ≠ 8) :
    exec (.attendantAccess a addr wr d) s =
      .next { (if s.boot.ready then beginWake 2 5 0 s else s) with resp := some (rspBeat a wr absent 0) } := by
  have ne : ∀ {n : Nat}, addr ≠ BitVec.ofNat 20 n → addr.toNat ≠ n :=
    fun hne e => hne (by rw [← e, BitVec.ofNat_toNat, BitVec.setWidth_eq])
  refine (attended_answer ht hao hsh hc d hp hm).trans ?_
  rw [attend_absent (ne h0) (ne h4) (ne h8)]
  simp [Resp.on, rspBeat]

/-- A posted write that the Attendant takes is counted as discarded (R637). -/
theorem attended_posted (ht : s.boot.tstMode = false) (hao : s.boot.rstAo = false) (hsh : s.boot.shellIso = false)
    (hc : coreServes s = false) (d : Word) (hp : a.posted = true) :
    exec (.attendantAccess a addr true d) s = .next { aoDiscarded s with resp := none } := by
  refine (act_next ht _).trans ?_
  rw [tpAccess_attended hao hsh hc, hp]
  rfl

/-- A violated handshake is counted and asserts FS281; an access that is not posted is answered SLVERR, as a read or as a write (R638). -/
theorem handshakeViolation_serves (h : s.serves = true) :
    exec (.tpHandshakeViolation a) s = .next
      (let u := assertFault 281 (faultOf 5 0) { s with mst := { s.mst with viol := satAdd s.mst.viol 1 } }
       if a.posted then u
       else answer (some (Resp.on { code := slverr, data := 0 } a (bit (u.draw.1.truncate 32) 0))) u.draw.2) := by
  have hs := h
  unfold State.serves at hs
  simp only [Bool.and_eq_true, Bool.not_eq_true'] at hs
  obtain ⟨⟨⟨⟨ht, hao⟩, hsh⟩, hc⟩, hu⟩ := hs
  refine (act_next ht _).trans ?_
  simp [hao, hsh, hc, hu]

end

/-! ## The statement -/

/-- Settles O55: the address map row by row, then each access through the judgement of Table 20-2 and its register's own rule. -/
theorem registerAccess : Obligations.RegisterAccess := by
  unfold Obligations.RegisterAccess
  refine ⟨fun wings addr r h _ _ => decodeReg_names wings addr r h, fun a addr s => ⟨?judged, ?attended, ?loHalf, ?clears, ?stores, ?takes⟩⟩
  case judged =>
    intro wr d h
    refine ⟨fun hm => ?_, fun hm hr => ?_, fun q hm hr hs => ?_, fun q m hm hr hs ho hp => ?_, fun q hm hr hs ho => ?_⟩
    · exact serves_refused h (by decide) (by simp [coreAnswer, hm])
    · exact serves_refused h (by decide) (by rw [coreAnswer_formed d s hm]; simp [access, hr])
    · exact serves_refused h (by decide) (by rw [coreAnswer_formed d s hm]; simp [access, hr, hs])
    · exact serves_poweredOff d h hm hr hs ho hp
    · obtain ⟨htk, h4⟩ := takes_of_judged h hm hs ho
      constructor
      · rintro rfl
        exact ⟨fun t hw => takes_wrote htk addr d h4 hr hw, fun hw => takes_denied htk addr d h4 hr hw⟩
      · rintro rfl
        exact ⟨fun w t hw => takes_gave htk addr d h4 hr hw, fun hw => takes_readRefused htk addr d h4 hr hw⟩
  case attended =>
    intro d ht hao hsh hc
    refine ⟨fun wr hp hm => ⟨?_, ?_, ?_, fun h0 h4 h8 => ?_⟩, fun hp => attended_posted ht hao hsh hc d hp⟩
    · rintro rfl
      exact attended_known ht hao hsh hc d hp hm rfl
    · rintro rfl
      exact attended_known ht hao hsh hc d hp hm rfl
    · rintro rfl
      exact attended_known ht hao hsh hc d hp hm rfl
    · exact ⟨_, attended_unknown ht hao hsh hc d hp hm h0 h4 h8, fun h => if_pos h, fun h => if_neg (by simp [h])⟩
  case loHalf =>
    exact fun lo hi htk hd hpair he h4 => takes_gave htk addr 0 h4 hd (regRead_loHalf a.owner hpair he)
  case clears =>
    intro r htk hd h4
    have cleared {q : Reg} {t : State} (e : r = q) (hr : regRead a.sec a.owner q s = some (wordOf s a.sec q, t)) :
        exec (.rcFieldRead a addr) s = gave a (wordOf s a.sec r) t := takes_gave htk addr 0 h4 hd (e ▸ hr)
    refine ⟨fun e => cleared e rfl, fun e => cleared e rfl, fun e => cleared e rfl, fun e => cleared e rfl, fun e => cleared e rfl,
      fun e => cleared e rfl, fun e => cleared e rfl, fun n e => cleared e rfl, fun p e => cleared e rfl, fun x e => cleared e rfl,
      fun l e => cleared e rfl, fun g e => cleared e rfl, fun g e => cleared e rfl, fun m e _ => cleared e rfl,
      fun i e hk => cleared e (e ▸ regRead_keyStat a.owner hk), fun ch e hch => ?_⟩
    subst e
    exact takes_gave htk addr 0 h4 hd (regRead_stateWord hch)
  case stores =>
    intro r d htk hd h4 hr
    exact ⟨_, takes_wrote htk addr d h4 hd (regWrite_storesOnly hr a.sec a.owner d s), reg_rwWrite s r d,
      fun q hq => reg_setReg_other s _ hq, rfl⟩
  case takes =>
    intro d
    refine ⟨fun htk => ?_, fun g htk hpop => ?_, fun htk => ⟨fun hl => ?_, fun hl => ?_⟩, fun h => ?_⟩
    · have hw := takes_wroteAt htk 0x400 (setFld d 1 1 1) (by decide) (by decide) rfl rfl
      obtain ⟨hmst, hview⟩ := tmCtrlTo_take (bit_take d) s
      exact ⟨_, hw, hmst, hview.trans (bit_view_take d)⟩
    · have hg := g.isLt
      have hd := (dec_gal s.wings g (of_decide_eq_true hpop)).2
      exact ⟨_, takes_wroteAt htk _ (setFld d 1 1 1) (by omega) (by omega) hd rfl, engCtrlTo_take (bit_take d) s⟩
    · exact takes_deniedAt htk 0x34 d (by decide) (by decide) rfl (by rw [regWrite_nsDeny, hl]; rfl)
    · exact ⟨_, takes_wroteAt htk 0x34 d (by decide) (by decide) rfl (by rw [regWrite_nsDeny, hl]; rfl), reg_rwWrite s .nsDeny d⟩
    · refine ⟨_, rfl, fun hp => ?_, fun hp => ?_⟩
      · exact (handshakeViolation_serves h).trans (congrArg _ (if_pos hp))
      · refine ⟨_, ?_, ?_, ?_, (handshakeViolation_serves h).trans (congrArg _ (if_neg (by simp [hp])))⟩ <;> rfl

end Sys2Proof.Machine
end

section
/-! The entry cache and the entries that run without an engine (R51, R54 to R57, R79 to R84): fetches, malformed entries, markers
and barriers. -/

namespace Sys2Proof.Machine

/-- Entries ahead on a ring are counted by the 16-bit difference of the indices (R51, R82). -/
theorem sub16_eq (a b : BitVec 16) : sub16 a b = (a - b).toNat := by
  rw [BitVec.toNat_sub]
  have hb := b.isLt
  unfold sub16
  congr 1
  omega

section
variable {s : State} {ch : BitVec 12} {en : CEntry} (ht : s.boot.tstMode = false)
include ht

/-- The entry cache reads the entry at WR_FETCH of a channel that has one posted, within its window of eight and its wing's 1,024
entries (R51, R81, R672). -/
theorem entryFetch_issues (hup : coreUp s = true)
    (hst : ((s.chan ch).st ≠ .free ∧ (s.chan ch).st ≠ .configured) ∨ (s.chan ch).pend = some .stop)
    (hab : (s.chan ch).abandoned = false) (hposted : (s.chan ch).wrFetch ≠ (s.chan ch).wrTail)
    (hahead : ((s.chan ch).wrFetch - (s.chan ch).wrStart).toNat < 8) (hroom : cacheUsed s (cacheWing s ch) < 1024) :
    exec (.entryFetch ch) s = .next (issue
      (ringTxn s ch (s.chan ch).wrPort 0
        ((s.chan ch).wrBase + BitVec.ofNat 64 (64 * ((s.chan ch).wrFetch.toNat % 2 ^ (s.chan ch).wrSize))) 64 [] .atWing
        (some (cacheWing s ch)) (.entry ch (s.chan ch).wrFetch))
      (s.setChan ch { s.chan ch with wrFetch := (s.chan ch).wrFetch + 1,
                                     fet := (s.chan ch).fet ++ [(s.nextTxn, (s.chan ch).wrFetch, none)] })) := by
  have hwindow : sub16 (s.chan ch).wrFetch (s.chan ch).wrStart < 8 := by rwa [sub16_eq]
  refine (act_next ht _).trans (congrArg _ (if_pos ?_))
  simp [hup, hst, hab, hposted, hwindow, hroom]

/-- Answered fetches move from the front of the fetch queue into the entry cache (R51, R79 to R82). -/
theorem entryFetchComplete_caches (hup : coreUp s = true) :
    exec (.entryFetchComplete ch) s = .next (coreDone [254] ch (considerHead ch
      (s.setChan ch { s.chan ch with cache := (s.chan ch).cache ++ (takeFetched (s.chan ch).fet).1,
                                     fet := (takeFetched (s.chan ch).fet).2 }))) :=
  (act_next ht _).trans (congrArg _ (if_pos hup))

/-- A readable entry that is malformed completes with 0x10 (R56, R57). -/
theorem entryMalformed_completes (hen : startable s ch = some en) (herr : en.err = none) (hm : malformed s ch en.bytes = true) :
    exec (.entryMalformed ch) s = .next (considerHead ch (completeUnstarted ch en 0x10 0 s)) := by
  refine (act_next ht _).trans (congrArg _ ?_)
  simp [hen, herr, hm]

/-- A well-formed MARKER at WR_START is taken in order; it is done at once where a notice slot is free, and waits for one otherwise
(R55, R65, R66). -/
theorem markerEntry_taken (hen : startable s ch = some en) (herr : en.err = none) (hm : malformed s ch en.bytes = false)
    (hty : entType en.bytes = 4) :
    exec (.markerEntry ch) s = .next
      (let t := s.modChan ch (fun c =>
         { c with wrStart := c.wrStart + 1, cache := c.cache.filter (fun x => x.idx != en.idx), order := some en, inOrder := true })
       if (t.chan ch).slotFree then markerDone ch en t
       else t.modChan ch (fun d => { d with wait := .noticeSpace, st := if d.st = .armed then .waiting else d.st })) := by
  refine (act_next ht _).trans (congrArg _ ?_)
  simp [hen, herr, hm, hty]

/-- A BARRIER in order whose channels have all passed their indices completes with OK (R54). -/
theorem barrierComplete_completes (hup : coreUp s = true) (hord : (s.chan ch).order = some en) (hin : (s.chan ch).inOrder = true)
    (hty : entType en.bytes = 3) (hw : (s.chan ch).wait = .barrier) (hst : (s.chan ch).st = .waiting ∨ (s.chan ch).st = .draining)
    (hmet : barrierMet s en.bytes = true) :
    exec (.barrierComplete ch) s = .next (considerHead ch (completeFree ch 0 0 false false s)) := by
  refine (act_next ht _).trans (congrArg _ ?_)
  simp [hup, hord, hin, hty, hw, hst, hmet]

end

/-- Settles O24: one rule for each of the five commands of an entry that needs no engine. -/
theorem entries : Obligations.Entries := by
  unfold Obligations.Entries
  intro ch s ht hup
  refine ⟨?fetch, ?complete, fun en hen herr => ⟨?malformed, ?marker⟩, ?barrier⟩
  case fetch => exact entryFetch_issues ht hup
  case complete => exact entryFetchComplete_caches ht hup
  case malformed => exact entryMalformed_completes ht hen herr
  case marker => exact markerEntry_taken ht hen herr
  case barrier => exact fun en => barrierComplete_completes ht hup

end Sys2Proof.Machine
end

section
/-! What the channel operations of the queues leave unchanged (02, 11): events and readiness, checkpoint instructions, halting and
completion. -/

namespace Sys2Proof.Machine

/-! ## Folds and events -/

/-- A fold keeps what each of its steps keeps. -/
theorem foldS_keeps {α σ β : Type} {f : α → σ → σ} (g : σ → β) (h : ∀ a s, g (f a s) = g s) (l : List α) (s : σ) :
    g (foldS l f s) = g s := by
  induction l generalizing s with
  | nil => rfl
  | cons a l ih => exact (ih (f a s)).trans (h a s)

/-- The state without what the Concourse counts and drives: the Concourse keeps only HALT_Q. -/
def State.butEvents (s : State) : State := { s with evc := { haltQ := s.evc.haltQ, haltOvf := s.evc.haltOvf } }

@[simp] theorem butEvents_modSub (s : State) (j : Nat) (f : Sub → Sub) : (s.modSub j f).butEvents = s.butEvents := rfl
@[simp] theorem butEvents_modRq (s : State) (n : Nat) (f : RqLine → RqLine) : (s.modRq n f).butEvents = s.butEvents := rfl
@[simp] theorem butEvents_modEvo (s : State) (m : Nat) (f : Evo → Evo) : (s.modEvo m f).butEvents = s.butEvents := rfl
@[simp] theorem butEvents_modIrq (s : State) (i : Nat) (f : Irq → Irq) : (s.modIrq i f).butEvents = s.butEvents := rfl

@[simp] theorem butEvents_irqEvent (i : Nat) (s : State) : (irqEvent i s).butEvents = s.butEvents := by
  unfold irqEvent irqCheck
  split <;> simp

@[simp] theorem butEvents_evoEvent (m : Nat) (s : State) : (evoEvent m s).butEvents = s.butEvents := by
  unfold evoEvent
  split <;> simp

@[simp] theorem butEvents_ecTake (e : Nat) (s : State) : (ecTake e s).butEvents = s.butEvents := by
  have hsubs (l : List (Nat × Sub)) (t : State) : (foldS l (fun p u => u.modSub p.1 subTake) t).butEvents = t.butEvents :=
    foldS_keeps State.butEvents (fun p u => butEvents_modSub u p.1 subTake) l t
  unfold ecTake
  dsimp only
  split
  · rw [butEvents_irqEvent, hsubs]; rfl
  · rw [hsubs]; rfl

/-- Event channels that take events change counts, subscriptions, output and interrupt lines, and nothing else (R328, R334 to R339). -/
@[simp] theorem butEvents_ecTakeAll (es : List Nat) (s : State) : (ecTakeAll es s).butEvents = s.butEvents := by
  unfold ecTakeAll
  rw [foldS_keeps State.butEvents butEvents_evoEvent, foldS_keeps State.butEvents butEvents_ecTake]

@[simp] theorem butEvents_emitAll (ps : List Nat) (s : State) : (emitAll ps s).butEvents = s.butEvents := butEvents_ecTakeAll _ s

theorem butEvents_rqAckNow (n : Nat) (s : State) : (rqAckNow n s).butEvents = s.butEvents := butEvents_modRq ..

/-- A consumed subscription clears its PEND, and request lines are acknowledged: nothing else changes (R319, R335). -/
@[simp] theorem butEvents_consume (j : Nat) (s : State) : (consume j s).butEvents = s.butEvents := by
  unfold consume
  refine (foldS_keeps State.butEvents (fun n t => ?_) _ _).trans (butEvents_modSub ..)
  dsimp only
  split
  · exact butEvents_rqAckNow n t
  · rfl

section
variable {s t : State} (h : s.butEvents = t.butEvents)
include h

theorem chan_of_butEvents (n : BitVec 12) : s.chan n = t.chan n := by
  have hn := congrArg (fun u : State => u.chan n) h
  exact hn

theorem eng_of_butEvents (e : EngId) : s.eng e = t.eng e := by
  have he := congrArg (fun u : State => u.eng e) h
  exact he

theorem haltQ_of_butEvents : s.evc.haltQ = t.evc.haltQ ∧ s.evc.haltOvf = t.evc.haltOvf := by
  have hq := congrArg (fun u : State => (u.evc.haltQ, u.evc.haltOvf)) h
  exact Prod.mk.inj hq

end

/-! ## Readiness -/

/-- A channel without the two marks of its readiness (R384, R385). -/
def Chan.butReady (c : Chan) : Chan := { c with readyAt := none, wakeAsked := false }

theorem eq_of_butReady {c d : Chan} (h : c.butReady = d.butReady) : ∃ r w, c = { d with readyAt := r, wakeAsked := w } :=
  ⟨c.readyAt, c.wakeAsked, congrArg (fun x : Chan => { x with readyAt := c.readyAt, wakeAsked := c.wakeAsked }) h⟩

/-- Noting readiness changes the two marks of that channel only. -/
theorem chan_touch (ch n : BitVec 12) (s : State) : ((touch ch s).chan n).butReady = (s.chan n).butReady := by
  unfold touch State.modChan
  by_cases hn : n = ch
  · subst hn
    split
    · split
      · rw [chan_setChan]; rfl
      · rfl
    · rw [chan_setChan]; rfl
  · split
    · split
      · rw [chan_setChan_other _ _ _ _ hn]
      · rfl
    · rw [chan_setChan_other _ _ _ _ hn]

@[simp] theorem evc_touch (ch : BitVec 12) (s : State) : (touch ch s).evc = s.evc := by
  unfold touch State.modChan
  split
  · split <;> simp
  · simp

/-- The channels of a list of subscriptions may become ready, and nothing else of them changes. -/
theorem chan_touchSubs (l : List (Nat × Sub)) (n : BitVec 12) (s : State) :
    ((foldS l (fun p u => touch p.2.ch u) s).chan n).butReady = (s.chan n).butReady := by
  have h (p : Nat × Sub) (t : State) : ((touch p.2.ch t).chan n).butReady = (t.chan n).butReady := chan_touch p.2.ch n t
  exact foldS_keeps (f := fun (p : Nat × Sub) u => touch p.2.ch u) (fun t : State => (t.chan n).butReady) h l s

/-- Producers that emit change of a channel no more than its readiness. -/
theorem chan_emitT (ps : List Nat) (n : BitVec 12) (s : State) : ((emitT ps s).chan n).butReady = (s.chan n).butReady :=
  (chan_touchSubs _ n (emitAll ps s)).trans (congrArg Chan.butReady (chan_of_butEvents (butEvents_emitAll ps s) n))

theorem haltQ_emitT (ps : List Nat) (s : State) : (emitT ps s).evc.haltQ = s.evc.haltQ ∧ (emitT ps s).evc.haltOvf = s.evc.haltOvf := by
  unfold emitT
  rw [foldS_keeps State.evc fun (p : Nat × Sub) t => evc_touch p.2.ch t]
  exact haltQ_of_butEvents (butEvents_emitAll ps s)

/-! ## Halting (R64, R66, R327) -/

theorem chan_haltPush (ch n : BitVec 12) (s : State) : ((haltPush ch s).chan n).butReady = (s.chan n).butReady := by
  unfold haltPush
  exact chan_emitT [233] n _

theorem haltQ_haltPush (ch : BitVec 12) (s : State) :
    (s.evc.haltQ.length < 64 → (haltPush ch s).evc.haltQ = s.evc.haltQ ++ [ch]) ∧
    (64 ≤ s.evc.haltQ.length → (haltPush ch s).evc.haltQ = s.evc.haltQ ∧ (haltPush ch s).evc.haltOvf = true) := by
  unfold haltPush
  constructor <;> intro h
  · rw [(haltQ_emitT _ _).1, if_pos h]
  · rw [(haltQ_emitT _ _).1, (haltQ_emitT _ _).2, if_neg (by omega)]
    exact ⟨rfl, rfl⟩

/-- A channel that enters HALTED: its state, its notice where a slot is free, and what is left of a pending command. -/
theorem chan_enterHalted (ch : BitVec 12) (cause status : Byte) (s : State) :
    let c := s.chan ch
    let keep := c.pend == some .stop
    ∃ r w, (enterHalted ch cause status s).chan ch =
      { c with st := .halted, wait := .none, pend := if keep then some .stop else none, stopTail := if keep then c.stopTail else none,
               haltWith := none, replay := false, preSt := .configured, preWait := .none, readyAt := r, wakeAsked := w,
               reserved := if c.slotFree then c.reserved + 1 else c.reserved,
               rel := if c.slotFree then c.rel ++ [.notice 4 0 (haltPayload c cause status)] else c.rel } := by
  dsimp only
  obtain ⟨r, w, h⟩ := eq_of_butReady (chan_haltPush ch ch (s.setChan ch _))
  refine ⟨r, w, h.trans ?_⟩
  rw [chan_setChan]
  cases hf : (s.chan ch).slotFree <;> rfl

/-- Settles O23: the channel that `enterHalted` sets stands in HALT_Q, and the event it raises changes no more than readiness. -/
theorem haltedChannels : Obligations.HaltedChannels := by
  unfold Obligations.HaltedChannels
  intro ch cause status s
  dsimp only
  obtain ⟨hroom, hfull⟩ := haltQ_haltPush ch (s.setChan ch _)
  obtain ⟨r, w, hc⟩ := chan_enterHalted ch cause status s
  rw [hc]
  refine ⟨rfl, rfl, rfl, fun hp => ?_, fun hf => ?_, fun hf => ?_, hroom, hfull⟩
  · simp [hp]
  · simp [hf, haltPayload]
  · simp [hf]

/-! ## Checkpoint instructions (R65, R66, R173 to R175, R180) -/

section
variable {i : EngId → IW → Instr} {op : Nat} {ok : IW → Bool} {f : EngId → IW → State → State}

/-- An instruction whose meaning is its body has the body's effect. -/
theorem does_of_insn (h : ∀ e w s, exec (i e w) s = act s (insn e op w (ok w) (f e w) s)) : does i op ok f := by
  intro e w s hr
  rw [h, act_insn hr]
  exact ⟨fun hg => congrArg _ (if_neg (by rw [hg]; decide)), fun hg => congrArg _ (if_pos hg)⟩

/-- The same for one that may stall: its body meets the engine with the instruction begun. -/
theorem does_of_insnB {b : EngId → IW → State → State} (h : ∀ e w s, exec (i e w) s = act s (insnB e op w (ok w) (b e w) s))
    (hb : ∀ e w s, b e w (s.begins e op w) = f e w s) : does i op ok f := by
  intro e w s hr
  rw [h, act_insnB hr]
  exact ⟨fun hg => congrArg _ (if_neg (by rw [hg]; decide)), fun hg => congrArg _ ((if_pos hg).trans (hb e w s))⟩

end

@[simp] theorem eng_begins (s : State) (e : EngId) (op : Nat) (w : IW) :
    (s.begins e op w).eng e = { s.eng e with busy := some (op, w) } := eng_setEng s e _

@[simp] theorem chan_begins (s : State) (e : EngId) (op : Nat) (w : IW) (n : BitVec 12) : (s.begins e op w).chan n = s.chan n := rfl

/-- The notice of a NOTIFY that has begun: the instruction is over, so nothing is left of its beginning. -/
theorem placeNotice_begins (e : EngId) (op : Nat) (w : IW) (b : List Byte) (s : State) :
    placeNotice e b (s.begins e op w) =
      (s.modChan (s.eng e).ch (fun c => { c with reserved := c.reserved + 1 })).setEng e
        { s.eng e with effects := (s.eng e).effects ++ [Release.notice 1 0 b] }.retire := by
  unfold placeNotice State.modChan State.modEng
  simp only [eng_begins, chan_begins, State.setChan_eng_of]
  exact setEng_setEng (s.setChan (s.eng e).ch _) e _ _

/-- Settles O14: NOTIFY by its three cases, the others by the checkpoint after themselves. -/
theorem checkpointInstructions : Obligations.CheckpointInstructions := by
  unfold Obligations.CheckpointInstructions
  refine ⟨does_of_insnB (fun _ _ _ => rfl) fun e w s => ?notify, does_of_insn fun _ _ _ => rfl, does_of_insn fun _ _ _ => rfl,
    does_of_insn fun _ _ _ => rfl⟩
  case notify =>
    dsimp only
    have hslot : chanOf (s.begins e 0x19 w) e = s.chan (s.eng e).ch := by simp [chanOf]
    cases hf : (s.chan (s.eng e).ch).slotFree with
    | false => 
      rw [if_pos (by rw [hslot, hf]; rfl), if_pos rfl, eng_begins]
      rfl
    | true =>
      rw [if_neg (by rw [hslot, hf]; decide), if_neg (by decide)]
      unfold withEffect
      rw [eng_begins]
      by_cases h16 : 16 ≤ (s.eng e).effects.length
      · rw [if_neg (by dsimp only; omega), if_pos h16]
        rfl
      · rw [if_pos (by dsimp only; omega), if_neg h16]
        dsimp only
        rw [eng_begins]
        exact placeNotice_begins e 0x19 w _ s

/-! ## Completions (R65, R66, R74, R93, R409) -/

@[simp] theorem chan_modChan (s : State) (n : BitVec 12) (f : Chan → Chan) : (s.modChan n f).chan n = f (s.chan n) := chan_setChan ..

theorem chan_modChan_other (s : State) {n m : BitVec 12} (f : Chan → Chan) (h : m ≠ n) : (s.modChan n f).chan m = s.chan m :=
  chan_setChan_other s n m _ h

/-- An anchor that is disarmed: comparator pairs let it go, and the channel's schedule area says so (R315). -/
theorem chan_disarm (ch n : BitVec 12) (s : State) :
    (disarm ch s).chan n = (s.modChan ch (fun c => { c with sched := { c.sched with armed := false, held := false } })).chan n := by
  unfold disarm
  have h (p : Nat × Pair) (t : State) : (t.modPair p.1 (fun x => { x with ch := none })).chan n = t.chan n := rfl
  exact foldS_keeps (fun t : State => t.chan n) h _ _

@[simp] theorem engs_disarm (ch : BitVec 12) (s : State) : (disarm ch s).engs = s.engs := by
  unfold disarm
  have h (p : Nat × Pair) (t : State) : (t.modPair p.1 (fun x => { x with ch := none })).engs = t.engs := rfl
  exact foldS_keeps State.engs h _ _

/-- A channel with a result behind its releases, and its notice before it where one is wanted (R65, R66, R409). -/
def Chan.queued (want : Bool) (p : Release) (flags : Byte) (c : Chan) : Chan :=
  if want then
    (if c.slotFree then { c with reserved := c.reserved + 1, rel := c.rel ++ [.notice 2 flags [], p], stalledDone := none }
    else { c with stalledDone := some p, wait := .noticeSpace, st := if c.st = .armed ∨ c.st = .running then .waiting else c.st })
  else { c with rel := c.rel ++ [p] }

theorem queueResult_eq (ch : BitVec 12) (want : Bool) (p : Release) (flags : Byte) (s : State) :
    queueResult ch want p flags s = s.modChan ch (Chan.queued want p flags) := rfl

/-- What the queued result leaves of the channel as it is. -/
theorem queued_keeps (want : Bool) (p : Release) (flags : Byte) (c : Chan) :
    (c.queued want p flags).inOrder = c.inOrder ∧ (c.queued want p flags).order = c.order ∧ (c.queued want p flags).eng = c.eng ∧
      (c.queued want p flags).sched = c.sched ∧ (c.queued want p flags).haltWith = c.haltWith := by
  unfold Chan.queued
  cases want
  · exact ⟨rfl, rfl, rfl, rfl, rfl⟩
  · cases c.slotFree <;> exact ⟨rfl, rfl, rfl, rfl, rfl⟩

/-- The channel that completes: nothing of the entry is in progress, a halting status is kept, and the result is queued. -/
theorem chan_completeWith (ch : BitVec 12) (idx tag : BitVec 16) (nt : Option Bool) (status flags : Byte) (bytes : BitVec 48)
    (s : State) :
    ∃ d : Chan, (completeWith ch idx nt status flags bytes tag s).chan ch =
        d.queued (wantNotice (s.chan ch) nt status) (.publish idx status flags bytes tag) flags ∧
      d.inOrder = false ∧ d.order = none ∧ d.eng = none ∧ d.sched.armed = false ∧
      (halts (s.chan ch) status = true → d.haltWith = some (if status = 0x32 then 1 else 0, status)) ∧
      d.rel = (s.chan ch).rel ∧ d.reserved = (s.chan ch).reserved ∧ d.slotFree = (s.chan ch).slotFree := by
  unfold completeWith
  rw [queueResult_eq, chan_modChan, chan_disarm, chan_modChan, chan_setChan]
  exact ⟨_, rfl, rfl, rfl, rfl, rfl, fun hh => if_pos hh, rfl, rfl, rfl⟩

/-- Settles O25: the channel as its completion leaves it, by whether a notice is due and whether it finds a slot. -/
theorem resultsQueueInOrder : Obligations.ResultsQueueInOrder := by
  unfold Obligations.ResultsQueueInOrder
  intro ch idx tag nt status flags bytes s
  obtain ⟨d, hd, hin, hord, heng, harm, hhalt, hrel, hres, hslot⟩ := chan_completeWith ch idx tag nt status flags bytes s
  obtain ⟨kin, kord, keng, ksched, khalt⟩ :=
    queued_keeps (wantNotice (s.chan ch) nt status) (.publish idx status flags bytes tag) flags d
  dsimp only
  rw [hd, ← hrel, ← hres, ← hslot]
  refine ⟨kin.trans hin, kord.trans hord, keng.trans heng, by rw [ksched, harm], fun hh => khalt.trans (hhalt hh),
    fun hw => ?plain, fun hw hf => ?notice, fun hw hf => ?waits, fun n hn => ?others, fun e => ?engines⟩
  case plain => simp [Chan.queued, hw]
  case notice => simp [Chan.queued, hw, hf]
  case waits => simp [Chan.queued, hw, hf]
  all_goals unfold completeWith; rw [queueResult_eq]
  case others => rw [chan_modChan_other _ _ hn, chan_disarm, chan_modChan_other _ _ hn, chan_setChan_other _ _ _ _ hn]
  case engines => exact congrArg (Tbl.get {} · (engIdx e)) (engs_disarm ch _)

end Sys2Proof.Machine
end

section
/-! The hub's releases (R64, R74, R76, R409 to R413, R673): one rule for each kind of release, and the ring error. -/

namespace Sys2Proof.Machine

/-! ## What a wake and an issued transaction leave unchanged -/

/-- The state without what PCM drives: domains, supplies and clocks, and the Ledger's count of power cycles. -/
def State.butPower (s : State) : State := { s with doms := [], pcm := {}, ledger := {} }

theorem butPower_supRequest (x : Nat) (v : BitVec 3) (s : State) : (supRequest x v s).butPower = s.butPower := by
  unfold supRequest
  dsimp only
  split
  · split <;> rfl
  · rfl

theorem butPower_supPolicy (x : Nat) (s : State) : (supPolicy x s).butPower = s.butPower := by
  unfold supPolicy
  split
  · split
    · exact butPower_supRequest ..
    · rfl
  · exact butPower_supRequest ..

theorem butPower_clkPolicy (c : Nat) (s : State) : (clkPolicy c s).butPower = s.butPower := by
  unfold clkPolicy
  dsimp only
  split <;> rfl

theorem butPower_pmiPolicy (s : State) : (pmiPolicy s).butPower = s.butPower :=
  (foldS_keeps State.butPower butPower_clkPolicy _ _).trans (foldS_keeps State.butPower butPower_supPolicy _ _)

theorem butPower_wakeAdvance (s : State) : (wakeAdvance s).butPower = s.butPower := by
  refine foldS_keeps State.butPower (fun d t => ?_) _ _
  split <;> rfl

theorem butPower_wakeRecord (d : Nat) (why : Option (Nat × Nat)) (s : State) : (wakeRecord d why s).butPower = s.butPower := by
  cases why <;> rfl

theorem butPower_startWake (d : Nat) (why : Option (Nat × Nat)) (s : State) : (startWake d why s).butPower = s.butPower := by
  unfold startWake
  dsimp only
  split
  · rfl
  · split
    · rfl
    · rw [butPower_wakeAdvance, butPower_pmiPolicy]
      exact butPower_wakeRecord d why s

/-- A wake changes no more than what PCM drives (R621, R622). -/
theorem butPower_beginWake (d src detail : Nat) (s : State) : (beginWake d src detail s).butPower = s.butPower := by
  unfold beginWake
  split
  · rfl
  · split
    · rfl
    · exact (butPower_startWake ..).trans (foldS_keeps State.butPower (fun k t => butPower_startWake k none t) _ _)

theorem chan_of_butPower {s t : State} (h : s.butPower = t.butPower) (n : BitVec 12) : s.chan n = t.chan n := by
  have hn := congrArg (fun u : State => u.chan n) h
  exact hn

/-- An issued transaction stands behind the others, and no channel changes. -/
theorem chan_issue (t : Txn) (s : State) (n : BitVec 12) : (issue t s).chan n = s.chan n := by
  unfold issue
  dsimp only
  split
  · exact chan_of_butPower (butPower_beginWake ..) n
  · rfl

/-! ## The rules -/

/-- What a ring error leaves of a channel whose releases were `r`: it is HALTED, and holds them (R673). -/
def RingHalted (r : List Release) (c : Chan) : Prop :=
  c.st = .halted ∧ c.ringErr = true ∧ c.relHeld = true ∧ c.rel = r ∧ c.wait = .none

section
variable {s : State} {ch : BitVec 12} (ht : s.boot.tstMode = false) (hup : coreUp s = true)
include ht

section
variable (hh : (s.chan ch).relHeld = false)
include hup hh

/-- A notice goes to its slot of the notice ring, with the TIME of its first write (R62, R76). -/
theorem notice_issued {ty fl : Byte} {b : List Byte} {tm : Option DWord} {r : List Release}
    (hr : (s.chan ch).rel = .notice ty fl b tm :: r) (hn : (s.chan ch).relTxn = none) (ho : haltOut s ch = false) :
    exec (.effectRelease ch) s = .next (noticeIssue ch ty fl b tm s) := by
  refine (act_next ht _).trans (congrArg _ ?_)
  simp [hup, hh, hr, hn, ho]

/-- NT_TAIL passes a notice that is acknowledged (R76). -/
theorem notice_acknowledged {ty fl : Byte} {b : List Byte} {tm : Option DWord} {r : List Release}
    (hr : (s.chan ch).rel = .notice ty fl b tm :: r) (hn : (s.chan ch).relTxn ≠ none) (ha : (s.chan ch).relAck = some 0) :
    exec (.effectRelease ch) s = .next (coreDone [255, 259, 260, 261] ch
      (mirrorIssue ch (mirrorDue ch (releaseDone ch (s.setChan ch (noticeAcked (s.chan ch))))))) := by
  refine (act_next ht _).trans (congrArg _ ?_)
  simp [hup, hh, hr, hn, ha]

/-- A SIGNAL is taken by its event channel (R409). -/
theorem signal_released {k : Byte} {r : List Release} (hr : (s.chan ch).rel = .signal k :: r) :
    exec (.effectRelease ch) s = .next (coreDone [256, 261] ch (releaseDone ch (signalTake k.toNat s))) := by
  refine (act_next ht _).trans (congrArg _ ?_)
  simp [hup, hh, hr]

/-- A counter goes into its line; the release is over with its last counter (R278). -/
theorem counter_written {o : Nat} {v : DWord} {l : List (Nat × DWord)} {r : List Release} {u : State}
    (hr : (s.chan ch).rel = .counters ((o, v) :: l) :: r) (hw : psWrite ch o (toLe 8 v.toNat) s = (true, u)) :
    exec (.effectRelease ch) s = .next (
      let w := u.modChan ch (fun d => { d with rel := .counters l :: r })
      if l.isEmpty then coreDone [261] ch (releaseDone ch w) else w) := by
  refine (act_next ht _).trans (congrArg _ ?_)
  simp [hup, hh, hr, hw]

/-- An entry of the transform record goes into its line (R214). -/
theorem record_written {k : BitVec 2} {b : List Byte} {r : List Release} {u : State} (hr : (s.chan ch).rel = .xrec k b :: r)
    (hw : psWrite ch (fld (s.app .xrecBase) 18 14 * 2 ^ 18 + 64 * ch.toNat + 16 * k.toNat) b s = (true, u)) :
    exec (.effectRelease ch) s = .next (coreDone [261] ch (releaseDone ch u)) := by
  refine (act_next ht _).trans (congrArg _ ?_)
  simp [hup, hh, hr, hw, -Nat.reducePow]

/-- A result goes to the last 16 bytes of its entry's slot, with END_TIME of its first write (R74). -/
theorem result_issued {idx tag : BitVec 16} {st fl : Byte} {n : BitVec 48} {r : List Release}
    (hr : (s.chan ch).rel = .publish idx st fl n tag :: r) (hn : (s.chan ch).relTxn = none) :
    exec (.resultPublication ch) s = .next (
      let c := s.chan ch
      let et := c.endTime.getD (s.now.truncate 32)
      issue (ringTxn s ch c.wrPort 1 (c.wrBase + BitVec.ofNat 64 (64 * (idx.toNat % 2 ^ c.wrSize) + 48)) 16 (resultBytes st fl n et tag)
          .atPort none (.release ch))
        (s.setChan ch { c with relTxn := some s.nextTxn, endTime := some et })) := by
  refine (act_next ht _).trans (congrArg _ ?_)
  simp [hup, hh, hr, hn]

/-- WR_DONE passes a result that is acknowledged (R74). -/
theorem result_acknowledged {idx tag : BitVec 16} {st fl : Byte} {n : BitVec 48} {r : List Release}
    (hr : (s.chan ch).rel = .publish idx st fl n tag :: r) (hn : (s.chan ch).relTxn ≠ none) (ha : (s.chan ch).relAck = some 0) :
    exec (.resultPublication ch) s = .next (coreDone [254, 255, 259, 260] ch (published ch idx st s)) := by
  refine (act_next ht _).trans (congrArg _ ?_)
  simp [hup, hh, hr, hn, ha]

end

/-- A ring error halts the channel (R79, R673). -/
theorem ringError_halts (hh : (s.chan ch).relHeld = true) (hd : (s.chan ch).ringDue = true) :
    ∃ t, exec (.ringError ch) s = .next t ∧ RingHalted (s.chan ch).rel (t.chan ch) := by
  refine ⟨_, (act_next ht _).trans (congrArg _ (if_pos (by simp [hh, hd]))), ?_⟩
  extract_lets held s1 c1 c2 s2
  have h1 : c1.rel = (s.chan ch).rel ∧ c1.relHeld = true := by
    unfold c1 s1
    split
    · exact ⟨rfl, hh⟩
    · rw [chan_disarm, chan_modChan]
      exact ⟨rfl, hh⟩
  have h2 : RingHalted (s.chan ch).rel c2 := ⟨rfl, rfl, h1.2, h1.1, rfl⟩
  split
  · rw [chan_issue, chan_setChan]
    exact h2
  · obtain ⟨r, w, hr⟩ := eq_of_butReady ((chan_haltPush ch ch _).trans (congrArg Chan.butReady (chan_setChan s1 ch c2)))
    rw [hr]
    exact h2

end

/-- Settles O26: each release by its rule, and the ring error by the channel it leaves. -/
theorem releases : Obligations.Releases := by
  unfold Obligations.Releases
  intro ch s ht hup
  refine ⟨fun hh => ⟨?notice, ?acked, ?signal, ?counter, ?record, ?result, ?done⟩, ?error⟩
  case notice =>
    intro ty fl b tm r hr hn ho
    refine (notice_issued ht hup hh hr hn ho).trans (congrArg _ ?_)
    simp only [noticeIssue, hr, List.tail_cons]
  case acked => exact fun ty fl b tm r => notice_acknowledged ht hup hh
  case signal => exact fun k r => signal_released ht hup hh
  case counter => exact fun o v l r u => counter_written ht hup hh
  case record => exact fun k b r u => record_written ht hup hh
  case result => exact fun idx st fl n tag r => result_issued ht hup hh
  case done => exact fun idx st fl n tag r => result_acknowledged ht hup hh
  case error => exact fun hh hd => ringError_halts ht hh hd

end Sys2Proof.Machine
end

section
/-! A channel takes an engine (R82, R97, R117, R387, Table 3-1): a new entry, and a work order that has committed. -/

namespace Sys2Proof.Machine

/-! ## What a trace word leaves unchanged -/

/-- A trace word, or the count of those dropped, is all that a traced happening changes (R496). -/
theorem chan_eng_traceWord (kind : Nat) (ch : BitVec 12) (e : EngId) (sec : Bool) (s : State) :
    (∀ n, (traceWord kind ch e sec s).chan n = s.chan n) ∧ ∀ f, (traceWord kind ch e sec s).eng f = s.eng f := by
  unfold traceWord
  split
  · split <;> exact ⟨fun _ => rfl, fun _ => rfl⟩
  · exact ⟨fun _ => rfl, fun _ => rfl⟩

@[simp] theorem eng_modEng (s : State) (e : EngId) (f : Engine → Engine) : (s.modEng e f).eng e = f (s.eng e) := eng_setEng ..

/-! ## The registers at the start (Table 3-1) -/

section
variable (s : State) (ch : BitVec 12) (c : Chan) (b : List Byte) (bank : Bool) (x : Engine)

/-- g31 is the stack's upper bound, g1 to g4 are the entry's arguments, and the others are 0. -/
theorem rg_engAtStart (r : BitVec 5) :
    (engAtStart s ch c b bank x).rg r =
      if r.toNat = 0 then 0 else if r.toNat = 31 then BitVec.ofNat 64 c.stkHi
      else if r.toNat ≤ 4 then BitVec.ofNat 64 (leAt b (16 + 8 * (r.toNat - 1)) 8) else 0 := by
  have h0 : (r = 0) ↔ r.toNat = 0 := by bv_omega
  simp only [engAtStart, Engine.rg, upTo, List.range, List.range.loop, List.foldl, Tbl.get_put, h0]
  obtain h | h | h | h | h | h : r.toNat = 0 ∨ r.toNat = 1 ∨ r.toNat = 2 ∨ r.toNat = 3 ∨ r.toNat = 4 ∨ 4 < r.toNat := by omega
  · simp [h]
  · simp [h]
  · simp [h]
  · simp [h]
  · simp [h]
  · rw [if_neg (by omega : r.toNat ≠ 3 + 1), if_neg (by omega : r.toNat ≠ 2 + 1), if_neg (by omega : r.toNat ≠ 1 + 1),
      if_neg (by omega : r.toNat ≠ 0 + 1), if_neg (by omega : ¬ r.toNat ≤ 4)]
    rfl

theorem rg_engAtResume (r : BitVec 5) :
    (engAtResume s ch c bank x).rg r =
      if r = 0 then 0 else if r = 31 then BitVec.ofNat 64 c.stkHi else Tbl.get 0 c.ck.g r.toNat := by
  have h31 : (r = 31) ↔ r.toNat = 31 := by bv_omega
  simp only [engAtResume, Engine.rg, Tbl.get_put, h31]

end

/-! ## Taking an engine -/

theorem takeWaited_idle {s : State} {ch : BitVec 12} (h : (s.chan ch).wait ≠ .event ∨ (s.chan ch).sched.act ≠ 5) :
    takeWaited ch s = s := by
  unfold takeWaited
  refine if_neg fun hc => ?_
  simp only [Bool.and_eq_true, beq_iff_eq] at hc
  rcases h with h | h
  · exact h hc.1.2
  · exact h hc.2

/-- A consumed event leaves every other channel and every engine as it is (R206). -/
theorem takeWaited_frame (ch : BitVec 12) (s : State) :
    (∀ n, n ≠ ch → (takeWaited ch s).chan n = s.chan n) ∧ ∀ f, (takeWaited ch s).eng f = s.eng f := by
  unfold takeWaited
  dsimp only
  split
  · cases subOf s ch (s.chan ch).sched.ec.toNat with
    | none => exact ⟨fun n hn => chan_modChan_other _ _ hn, fun _ => rfl⟩
    | some j =>
      exact ⟨fun n hn => (chan_modChan_other _ _ hn).trans (chan_of_butEvents (butEvents_consume j s) n),
        fun f => eng_of_butEvents (butEvents_consume j s) f⟩
  · exact ⟨fun _ _ => rfl, fun _ => rfl⟩

/-- The rest of the state that taking an engine leaves: the other channels, and the other engines. -/
theorem takeEngine_frame (ch : BitVec 12) (e : EngId) (s : State) :
    (∀ n, n ≠ ch → (takeEngine ch e s).chan n = s.chan n) ∧ ∀ f, f ≠ e → (takeEngine ch e s).eng f = s.eng f := by
  unfold takeEngine
  extract_lets c bank c1 b t c2 u s1 s2
  have hu : (∀ n, u.chan n = s.chan n) ∧ ∀ f, u.eng f = s.eng f := by
    unfold u
    cases gateOf s ch with
    | none => exact ⟨fun _ => rfl, fun _ => rfl⟩
    | some j => exact ⟨chan_of_butEvents (butEvents_consume j s), eng_of_butEvents (butEvents_consume j s)⟩
  have h1 : (∀ n, n ≠ ch → s1.chan n = s.chan n) ∧ ∀ f, f ≠ e → s1.eng f = s.eng f := by
    unfold s1
    split
    · obtain ⟨hc, he⟩ := takeWaited_frame ch s
      exact ⟨fun n hn => (chan_setChan_other _ _ _ _ hn).trans (hc n hn), fun f hf => (eng_setEng_other _ _ _ _ hf).trans (he f)⟩
    · split
      · exact ⟨fun n hn => (chan_setChan_other _ _ _ _ hn).trans (hu.1 n), fun f hf => (eng_setEng_other _ _ _ _ hf).trans (hu.2 f)⟩
      · exact ⟨fun _ _ => rfl, fun _ _ => rfl⟩
  split
  · exact h1
  · obtain ⟨hc, he⟩ := chan_eng_traceWord (if c.inOrder then 4 else 1) ch e c.sec s2
    exact ⟨fun n hn => (hc n).trans (h1.1 n hn), fun f hf => (he f).trans (h1.2 f hf)⟩

/-- The channel and the engine of a state in which a channel has been given an engine. -/
theorem placed (s : State) (ch : BitVec 12) (c : Chan) (e : EngId) (f : Engine → Engine) (g : Dsp → Dsp) :
    (((s.setChan ch c).modEng e f).modDsp ch g).chan ch = c ∧ (((s.setChan ch c).modEng e f).modDsp ch g).eng e = f (s.eng e) :=
  ⟨chan_setChan s ch c, eng_setEng (s.setChan ch c) e _⟩

section
variable {s : State} {ch : BitVec 12} (e : EngId)

/-- A new entry leaves the entry cache, WR_START passes it, and its engine is at the start values (R82, R97, R387). -/
theorem takeEngine_new {en : CEntry} (hin : (s.chan ch).inOrder = false) (hen : headEntry (s.chan ch) = some en)
    (hg : gateOf s ch = none) :
    let c := s.chan ch
    let d := { c with eng := some e, wait := .none, st := if c.st = .draining then .draining else .running, readyAt := none,
                      wakeAsked := false, replay := false, wrStart := c.wrStart + 1, cache := c.cache.filter (fun x => x.idx != en.idx),
                      order := some en, inOrder := true, fresh := true, replays := 0, ports := [], recAes := false, needAes := false,
                      hdrOk := false }
    (takeEngine ch e s).chan ch = d ∧
      (takeEngine ch e s).eng e = engAtStart s ch d en.bytes (s.gal e.g.toNat).act (s.eng e) := by
  dsimp only
  unfold takeEngine
  simp only [hin, hen, hg, Bool.false_and, Bool.false_eq_true, if_false]
  obtain ⟨hc, he⟩ := chan_eng_traceWord 1 ch e (s.chan ch).sec
    (((s.setChan ch _).modEng e (engAtStart s ch _ en.bytes (s.gal e.g.toNat).act)).modDsp ch (fun d => { d with lastG := e.g }))
  exact ⟨(hc ch).trans (placed ..).1, (he e).trans (placed ..).2⟩

/-- A work order that has committed resumes with its checkpoint area (R97, R117). -/
theorem takeEngine_resumed (hin : (s.chan ch).inOrder = true) (hfr : (s.chan ch).fresh = false)
    (hw : (s.chan ch).wait ≠ .event ∨ (s.chan ch).sched.act ≠ 5) :
    let c := s.chan ch
    let d := { c with eng := some e, wait := .none, st := if c.st = .draining then .draining else .running, readyAt := none,
                      wakeAsked := false, replay := false }
    (takeEngine ch e s).chan ch = d ∧ (takeEngine ch e s).eng e = engAtResume s ch d (s.gal e.g.toNat).act (s.eng e) := by
  dsimp only
  unfold takeEngine
  simp only [hin, hfr, takeWaited_idle hw, Bool.true_and, Bool.false_eq_true, if_true, if_false]
  split
  · exact ⟨(placed ..).1, (placed ..).2⟩
  · obtain ⟨hc, he⟩ := chan_eng_traceWord 4 ch e (s.chan ch).sec
      (((s.setChan ch _).modEng e (engAtResume s ch _ (s.gal e.g.toNat).act)).modDsp ch (fun d => { d with lastG := e.g }))
    exact ⟨(hc ch).trans (placed ..).1, (he e).trans (placed ..).2⟩

end

/-- Settles O28: a new entry by its start values, a resumption by the carried state, and the rest by the frame of both. -/
theorem workOrdersStart : Obligations.WorkOrdersStart := by
  unfold Obligations.WorkOrdersStart
  intro ch e en s
  dsimp only
  refine ⟨fun hin hen hg => ?new, fun hin hfr hw => ?resumed, fun n hn _ => (takeEngine_frame ch e s).1 n hn,
    (takeEngine_frame ch e s).2⟩
  case new =>
    obtain ⟨hc, he⟩ := takeEngine_new e hin hen hg
    rw [hc, he]
    refine ⟨rfl, rfl, rfl, rfl, rfl, rfl, rfl, rfl, rfl, fun i => ?_, ?_, fun r h5 h31 => ?_, rfl, rfl, rfl, rfl, rfl⟩
    · rw [rg_engAtStart]
      have hi := i.isLt
      rw [show (BitVec.ofNat 5 (i + 1)).toNat = i + 1 from Nat.mod_eq_of_lt (by omega), if_neg (by omega), if_neg (by omega),
        if_pos (by omega), Nat.add_sub_cancel]
    · exact rg_engAtStart ..
    · have h31' : r.toNat ≠ 31 := fun h => h31 (BitVec.eq_of_toNat_eq h)
      rw [rg_engAtStart, if_neg (by omega), if_neg h31', if_neg (by omega)]
  case resumed =>
    obtain ⟨hc, he⟩ := takeEngine_resumed e hin hfr hw
    rw [hc, he]
    refine ⟨rfl, rfl, rfl, rfl, rfl, rfl, rfl, rfl, fun r h31 => ?_, ?_, rfl, rfl⟩
    · rw [rg_engAtResume, if_neg h31]
    · exact rg_engAtResume ..

end Sys2Proof.Machine
end

section
/-! Responses of the fabric (R79 to R82, R113, R154, R403, R448 to R453): what an answer means, then what it does for each purpose. -/

namespace Sys2Proof.Machine

/-! ## What an answer means (R449 to R453) -/

/-- RETRY_MAX of the transaction's port. -/
def Txn.retryMax (s : State) (x : Txn) : Nat := fld (s.reg (.portCfg x.port.toNat)) 24 8

/-- A code that is neither OKAY nor a RETRY that waits for a reissue. -/
def FinalCode (s : State) (x : Txn) (c : BitVec 3) : Prop := c ≠ 0 ∧ (c = 5 → x.retryMax s ≤ x.retries)

/-- The error code as which a final code counts: an exhausted RETRY and the reserved codes are SLVERR (R450, R452). -/
def errCode (c : BitVec 3) : BitVec 3 := if 5 ≤ c.toNat then 1 else c

theorem errCode_ne_zero {c : BitVec 3} (h : c ≠ 0) : errCode c ≠ 0 := by
  unfold errCode
  split
  · decide
  · exact h

/-- The port counts a RETRY (R452). -/
def retryCounted (s : State) (x : Txn) : State := s.modPort x.port.toNat (fun q => { q with retryCnt := satAdd q.retryCnt 1 })

/-- The port's record of a final code other than OKAY (R452, R453). -/
def noted (s : State) (x : Txn) (c : BitVec 3) : State :=
  if c = 5 then retryExhausted x (retryCounted s x) else portError x c s

section
variable {s : State} {x : Txn} (hf : x.forced = none)
include hf

theorem answered_okay : answered x 0 s = (some 0, s) := by simp [answered, hf]

theorem answered_retry (h : x.retries < x.retryMax s) :
    answered x 5 s = (none, (retryCounted s x).modTxn x.id (fun y => { y with stage := .retry })) := by
  have hn : ¬ fld ((retryCounted s x).reg (.portCfg x.port.toNat)) 24 8 ≤ x.retries := Nat.not_le.mpr h
  unfold answered
  rw [hf]
  exact if_neg hn

theorem answered_final {c : BitVec 3} (h : FinalCode s x c) : answered x c s = (some (errCode c), noted s x c) := by
  obtain ⟨h0, h5⟩ := h
  unfold answered noted errCode
  rw [hf]
  by_cases hc : c = 5
  · subst hc
    exact if_pos (h5 rfl)
  · have h6 : 5 ≤ c.toNat ↔ 6 ≤ c.toNat := by
      have : c.toNat ≠ 5 := fun h => hc (BitVec.eq_of_toNat_eq h)
      omega
    simp only [h0, hc, h6, if_false]

end

/-! ## Reads -/

/-- A channel whose entry has been read may have drained. -/
def entrySettled (x : Txn) (w : State) : State :=
  match x.purpose with
  | .entry ch _ => settle ch w
  | _ => w

theorem entrySettled_entry {x : Txn} {ch : BitVec 12} {i : BitVec 16} (h : x.purpose = .entry ch i) (w : State) :
    entrySettled x w = settle ch w := by
  unfold entrySettled
  rw [h]

theorem entrySettled_other {x : Txn} (h : ∀ ch i, x.purpose ≠ .entry ch i) (w : State) : entrySettled x w = w := by
  unfold entrySettled
  split
  · exact absurd ‹_› (h _ _)
  · rfl

section
variable {t : Nat} {s : State} {x : Txn} {codes : List (BitVec 3)} (data : List Byte) (g : Bool) (ht : s.boot.tstMode = false)
  (ha : answerable s t [0, 2, 3] = some x) (hf : x.forced = none) (hs : readShape x codes = true)
include ht ha hf hs

/-- A read that is answered OKAY counts its bytes and delivers them (R449). -/
theorem read_okay (hc : readCode codes = 0) :
    exec (.readResponse t codes data g) s = .next (entrySettled x
      (flushDone (readDone x 0 data g ((tmAdd (portTm x.port.toNat) x.n s).dropTxn t)))) := by
  refine (act_next ht _).trans (congrArg _ ?_)
  simp only [ha, hs, hc, answered_okay hf]
  rfl

/-- RETRY below RETRY_MAX waits for a reissue (R452). -/
theorem read_retry (hc : readCode codes = 5) (h : x.retries < x.retryMax s) :
    exec (.readResponse t codes data g) s = .next ((retryCounted s x).modTxn x.id (fun y => { y with stage := .retry })) := by
  refine (act_next ht _).trans (congrArg _ ?_)
  simp only [ha, hs, hc, answered_retry hf h]
  rfl

/-- A read that fails reaches what it was for, but for a ReadUnique, and its pool entry returns (R450). -/
theorem read_fails (hc : FinalCode s x (readCode codes)) (hop : x.op ≠ 3) :
    exec (.readResponse t codes data g) s = .next (entrySettled x
      (flushDone (readDone x (errCode (readCode codes)) data g ((noted s x (readCode codes)).dropTxn t)))) := by
  refine (act_next ht _).trans (congrArg _ ?_)
  simp only [ha, hs, answered_final hf hc, errCode_ne_zero hc.1, hop, false_and, and_false, if_false]
  rfl

/-- A ReadUnique that fails is presented again, and every engine that waits for its line meets the failure (R467). -/
theorem readUnique_fails (hc : FinalCode s x (readCode codes)) (hop : x.op = 3) (hd : x.discard = false) :
    exec (.readResponse t codes data g) s = .next (cohFailed x (lineFails (x.addr.toNat / 64) (errCode (readCode codes))
      ((noted s x (readCode codes)).modLine (x.addr.toNat / 64) (fun _ => {})))) := by
  refine (act_next ht _).trans (congrArg _ ?_)
  simp only [ha, hs, answered_final hf hc, hop, hd]
  rw [if_neg (by decide), if_pos ⟨errCode_ne_zero hc.1, trivial, rfl⟩, if_neg (errCode_ne_zero hc.1)]

end

/-! ## Writes -/

/-- A data write reaches its engine, and a ring write its channel. -/
def writeDone (s : State) (x : Txn) (c : BitVec 3) (v : State) : State :=
  match x.purpose with
  | .data e _ counted => settle (s.eng e).ch (dataDone e x counted c v)
  | p => match p.ring with | some ch => settle ch (ringDone x c v) | none => v

theorem writeDone_data {s : State} {x : Txn} {e : EngId} {k : BitVec 3} {n : Bool} (h : x.purpose = .data e k n) (c : BitVec 3)
    (v : State) : writeDone s x c v = settle (s.eng e).ch (dataDone e x n c v) := by
  unfold writeDone
  rw [h]

theorem writeDone_release {s : State} {x : Txn} {ch : BitVec 12} (h : x.purpose = .release ch) (c : BitVec 3) (v : State) :
    writeDone s x c v = settle ch (ringDone x c v) := by
  unfold writeDone
  rw [h]
  rfl

section
variable {t : Nat} {s : State} {x : Txn} {c : BitVec 3} (ht : s.boot.tstMode = false) (ha : answerable s t [1] = some x)
  (hf : x.forced = none)
include ht ha hf

theorem write_okay : exec (.writeResponse t 0) s = .next (writeDone s x 0 (s.dropTxn t)) := by
  refine (act_next ht _).trans (congrArg _ ?_)
  simp only [ha, answered_okay hf]
  rfl

theorem write_retry (h : x.retries < x.retryMax s) :
    exec (.writeResponse t 5) s = .next ((retryCounted s x).modTxn x.id (fun y => { y with stage := .retry })) := by
  refine (act_next ht _).trans (congrArg _ ?_)
  simp only [ha, answered_retry hf h]

theorem write_fails (hc : FinalCode s x c) :
    exec (.writeResponse t c) s = .next (writeDone s x (errCode c) ((noted s x c).dropTxn t)) := by
  refine (act_next ht _).trans (congrArg _ ?_)
  simp only [ha, answered_final hf hc]
  rfl

end

section
variable {x : Txn} {ch : BitVec 12} {v : State} (hp : x.purpose = .release ch) (hr : (v.chan ch).relTxn = some x.id)
include hp hr

/-- The write of the release in progress is acknowledged (R76). -/
theorem ringDone_release_okay : ringDone x 0 v = v.modChan ch (fun d => { d with relAck := some 0 }) := by
  unfold ringDone
  rw [hp]
  exact (if_neg (not_not.mpr hr)).trans (if_pos rfl)

/-- Or it failed: a ring error is due (R79). -/
theorem ringDone_release_fails {c : BitVec 3} (hc : c ≠ 0) :
    ringDone x c v = v.modChan ch (fun d => { d with relAck := some c, relHeld := true, ringDue := true }) := by
  unfold ringDone
  rw [hp]
  exact (if_neg (not_not.mpr hr)).trans (if_neg hc)

end

/-- The earliest failed write of an engine since its last commit (R113). -/
def earliestErr (x : Txn) (c : BitVec 3) (o : Option (Nat × BitVec 3 × DWord)) : Option (Nat × BitVec 3 × DWord) :=
  match o with
  | some q => if q.1 < x.id then some q else some (x.id, c, x.addr)
  | none => some (x.id, c, x.addr)

/-- An engine after the answer to its write: acknowledged bytes, or the earliest error (R113, R154). -/
def Engine.answered (y : Engine) (x : Txn) (n : Bool) (c : BitVec 3) : Engine :=
  if c = 0 then (if n = true ∧ y.phase ≠ .stopping 0x32 ∧ x.torn = false then { y with acked := y.acked + x.n } else y)
  else { y with wErr := earliestErr x c y.wErr }

/-- An engine that is not paused meets the answer to its write, and nothing else changes (R113, R154, R403). -/
theorem dataDone_eq {e : EngId} {x : Txn} (n : Bool) (c : BitVec 3) {s : State} (hd : x.discard = false)
    (hp : (s.eng e).paused = false) :
    (dataDone e x n c s).eng e = (s.eng e).answered x n c ∧ (∀ f, f ≠ e → (dataDone e x n c s).eng f = s.eng f) ∧
      (dataDone e x n c s).chans = s.chans ∧ (dataDone e x n c s).txns = s.txns := by
  unfold dataDone
  extract_lets y killed s1 d
  rw [if_neg (by simp [y, hp])]
  unfold s1 Engine.answered
  rw [if_neg (by simp [hd])]
  by_cases hc : c = 0
  · rw [if_pos hc, if_pos hc]
    have hcond : (n && !killed && !x.torn) = true ↔ n = true ∧ (s.eng e).phase ≠ .stopping 0x32 ∧ x.torn = false := by
      simp [killed, y, and_assoc]
    by_cases hn : n = true ∧ (s.eng e).phase ≠ .stopping 0x32 ∧ x.torn = false
    · rw [if_pos hn, if_pos (hcond.mpr hn)]
      exact ⟨eng_modEng s e _, fun f hf => eng_setEng_other _ _ _ _ hf, rfl, rfl⟩
    · rw [if_neg hn, if_neg (mt hcond.mp hn)]
      exact ⟨rfl, fun _ _ => rfl, rfl, rfl⟩
  · rw [if_neg hc, if_neg hc]
    refine ⟨(eng_modEng s e _).trans ?_, fun f hf => eng_setEng_other _ _ _ _ hf, rfl, rfl⟩
    cases (s.eng e).wErr <;> simp only [earliestErr]

/-- Settles O32: what an answer means, then the rule of each purpose. -/
theorem responses : Obligations.Responses := by
  unfold Obligations.Responses
  intro t s ht
  dsimp only
  refine ⟨fun codes data g ha => ?noRead, fun c ha => ?noWrite, fun x codes data g ha hf hs => ⟨fun hc => ?okay,
    fun hc h => read_retry data g ht ha hf hs hc h, fun hc => ⟨?engine, ?entry, ?fill, ?unique⟩⟩,
    fun x c ha hf => ⟨fun hc h => ?writeRetry, fun e k n hp => ⟨?dataOkay, fun hc => ?dataFails⟩,
      fun ch hp hr => ⟨?ringOkay, fun hc hru => ?ringFails⟩⟩, fun e x n c hd hp => ?engineAnswered⟩
  case noRead => exact (act_next ht _).trans (congrArg _ (by simp only [ha]))
  case noWrite => exact (act_next ht _).trans (congrArg _ (by simp only [ha]))
  case okay =>
    have h := read_okay data g ht ha hf hs hc
    exact ⟨fun hp => h.trans (congrArg _ (entrySettled_other hp _)), fun ch i hp => h.trans (congrArg _ (entrySettled_entry hp _))⟩
  case engine =>
    intro e what hop hp hd
    refine (read_fails data g ht ha hf hs hc (by rw [hop]; decide)).trans (congrArg _ ?_)
    rw [entrySettled_other (by simp [hp])]
    simp only [readDone, hp, hd, errCode_ne_zero hc.1]
    rfl
  case entry =>
    intro ch idx hop hp
    refine (read_fails data g ht ha hf hs hc (by rw [hop]; decide)).trans (congrArg _ ?_)
    rw [entrySettled_entry hp]
    simp only [readDone, hp, errCode_ne_zero hc.1]
    rfl
  case fill =>
    intro w hop hp hd
    refine (read_fails data g ht ha hf hs hc (by rw [hop]; decide)).trans (congrArg _ ?_)
    rw [entrySettled_other (by simp [hp])]
    simp only [readDone, hp, hd, errCode_ne_zero hc.1]
    rfl
  case unique => exact readUnique_fails data g ht ha hf hs hc
  case writeRetry =>
    subst hc
    exact write_retry ht ha hf h
  case dataOkay =>
    rintro rfl
    exact (write_okay ht ha hf).trans (congrArg _ (writeDone_data hp ..))
  case dataFails => exact (write_fails ht ha hf hc).trans (congrArg _ (writeDone_data hp ..))
  case ringOkay =>
    rintro rfl
    refine (write_okay ht ha hf).trans (congrArg _ ?_)
    rw [writeDone_release hp, ringDone_release_okay (v := s.dropTxn t) hp hr]
  case ringFails =>
    refine (write_fails ht ha hf hc).trans (congrArg _ ?_)
    rw [writeDone_release hp, ringDone_release_fails (v := (noted s x c).dropTxn t) hp hru (errCode_ne_zero hc.1)]
    rfl
  case engineAnswered =>
    obtain ⟨he, hframe⟩ := dataDone_eq n c hd hp
    refine ⟨he.trans ?_, hframe⟩
    rfl

end Sys2Proof.Machine
end

section
/-! Doorbells and channel commands (R69 to R71, R84 to R90, Tables 2-11c, 2-11d). -/

namespace Sys2Proof.Machine

/-! ## Readiness leaves the rest of the state alone -/

theorem chan_touch_other {ch n : BitVec 12} (h : n ≠ ch) (s : State) : (touch ch s).chan n = s.chan n := by
  unfold touch
  split
  · split
    · exact chan_modChan_other _ _ h
    · rfl
  · exact chan_modChan_other _ _ h

@[simp] theorem engs_touch (ch : BitVec 12) (s : State) : (touch ch s).engs = s.engs := by
  unfold touch
  split
  · split <;> rfl
  · rfl

/-! ## The doorbell block -/

section
variable {a : TpAttr} {ch : BitVec 12} {s : State} (hc : chanRefused s ch a.sec a.owner = false)
include hc

/-- A write of a word of a doorbell block that the channel's owner checks pass (R69). -/
theorem doorbell_write {k : Nat} (hk : k < 4) (htk : s.takes a true (.doorbell ch.toNat k)) (d : Word) :
    act s (tpWrite a (0x80000 + 16 * ch.toNat + 4 * k) d s) = wrote a (bellWrite ch k d s) := by
  have hlt := ch.isLt
  refine takes_wroteAt htk _ d (by omega) (by omega) (dec_doorbell s.wings ch k hk) ?_
  have e : BitVec.ofNat 12 ch.toNat = ch := by simp
  simp [regWrite, e, hc]

/-- A command written to the doorbell, by its code (R86). -/
theorem command_write {code : Nat} (h16 : code < 2 ^ 4) (htk : s.takes a true (.doorbell ch.toNat 2)) (d : Word) :
    act s (tpWrite a (0x80000 + 16 * ch.toNat + 8) (setFld d 0 4 code) s) = wrote a (doCommand ch code s) := by
  refine (doorbell_write hc (by decide) htk _).trans (congrArg (wrote a) ?_)
  show doCommand ch (fld (setFld d 0 4 code) 0 4) s = doCommand ch code s
  rw [fld_setFld d 0 4 code (by decide), Nat.mod_eq_of_lt h16]

end

theorem low16 (d : Word) : BitVec.ofNat 16 (fld d 0 16) = d.setWidth 16 := by
  apply BitVec.eq_of_toNat_eq
  simp [fld]

/-- A tail within the ring's size of WR_DONE and of the old tail is taken by a channel that takes entries; any other sets DB_ERR
(R70). -/
theorem wrTailTo_eq (v : BitVec 16) (c : Chan) :
    wrTailTo v c = if (v - c.wrDone).toNat ≤ 2 ^ c.wrSize ∧ (v - c.wrTail).toNat ≤ 2 ^ c.wrSize ∧ c.st ≠ .free ∧ c.st ≠ .draining
      then { c with wrTail := v } else { c with dbErr := true } := by
  unfold wrTailTo
  rw [sub16_eq, sub16_eq]
  refine if_congr ?_ rfl rfl
  simp [and_assoc]

/-- A head that returns slots frees them, and a notice that waits for one goes on (R71). -/
theorem ntHeadTo_eq (ch : BitVec 12) (v : BitVec 16) (s : State) :
    let c := s.chan ch
    ntHeadTo ch v s = if (c.ntTail - v).toNat ≤ (c.ntTail - c.ntHead).toNat ∧ c.st ≠ .free
      then noticeRetry ch (s.setChan ch { c with ntHead := v }) else s.setChan ch { c with dbErr := true } := by
  dsimp only
  unfold ntHeadTo
  dsimp only
  rw [sub16_eq, sub16_eq]
  refine if_congr ?_ rfl rfl
  simp

/-! ## Commands (R86 to R89) -/

theorem cmdOf_strength (k : Cmd) : cmdOf k.strength = some k := by cases k <;> rfl

section
variable {ch : BitVec 12} {s : State}

/-- PAUSE, STOP, ABORT and KILL, whose codes are their strengths, by what pends (R87, R88). -/
theorem doCommand_strength (k : Cmd) :
    doCommand ch k.strength s =
      if accepts (s.chan ch) k = false then cmdReject ch s
      else match (s.chan ch).pend with
        | some p => if p.strength < k.strength then
            touch ch (if k = .stop then stopArrives ch (withdrawn ch s)
              else (withdrawn ch s).modChan ch (fun d => { d with pend := some k }))
          else cmdReject ch s
        | none => touch ch (if k = .stop then stopArrives ch s else s.setChan ch { s.chan ch with pend := some k }) := by
  unfold doCommand
  rw [if_neg (by cases k <;> decide), if_neg (by cases k <;> decide), cmdOf_strength]
  dsimp only
  cases accepts (s.chan ch) k
  · rfl
  · cases (s.chan ch).pend <;> rfl

theorem doCommand_rejected {k : Cmd} (ha : accepts (s.chan ch) k = false) : doCommand ch k.strength s = cmdReject ch s := by
  rw [doCommand_strength, if_pos ha]

theorem doCommand_first {k : Cmd} (ha : accepts (s.chan ch) k = true) (hp : (s.chan ch).pend = none) :
    doCommand ch k.strength s = touch ch (if k = .stop then stopArrives ch s else s.setChan ch { s.chan ch with pend := some k }) := by
  rw [doCommand_strength, if_neg (by simp [ha]), hp]

theorem doCommand_stronger {k p : Cmd} (ha : accepts (s.chan ch) k = true) (hp : (s.chan ch).pend = some p)
    (h : p.strength < k.strength) : doCommand ch k.strength s = touch ch (if k = .stop then stopArrives ch (withdrawn ch s)
      else (withdrawn ch s).modChan ch (fun d => { d with pend := some k })) := by
  rw [doCommand_strength, if_neg (by simp [ha]), hp]
  exact if_pos h

theorem doCommand_weaker {k p : Cmd} (ha : accepts (s.chan ch) k = true) (hp : (s.chan ch).pend = some p)
    (h : k.strength ≤ p.strength) : doCommand ch k.strength s = cmdReject ch s := by
  rw [doCommand_strength, if_neg (by simp [ha]), hp]
  exact if_neg (by omega)

theorem doCommand_invalidate (h : (s.chan ch).st ≠ .free) : doCommand ch 1 s = invalidate ch s := by
  unfold doCommand
  rw [if_pos rfl, if_neg h]

theorem doCommand_resume (h : (s.chan ch).st ≠ .free) : doCommand ch 6 s = doResume ch s := by
  unfold doCommand
  rw [if_neg (by decide), if_pos rfl, if_neg h]

/-- A FREE channel rejects every command (Table 2-11d). -/
theorem doCommand_free (h : (s.chan ch).st = .free) : doCommand ch 1 s = cmdReject ch s ∧ doCommand ch 6 s = cmdReject ch s ∧
    ∀ k : Cmd, doCommand ch k.strength s = cmdReject ch s := by
  refine ⟨?_, ?_, fun k => doCommand_rejected (by simp [accepts, h])⟩
  · unfold doCommand
    rw [if_pos rfl, if_pos h]
  · unfold doCommand
    rw [if_neg (by decide), if_pos rfl, if_pos h]

end

section
variable (c : Chan)

theorem accepts_pause : accepts c .pause = (c.st == .armed || c.st == .running || c.st == .waiting || c.st == .draining) := by
  unfold accepts
  cases c.st <;> rfl

theorem accepts_abort :
    accepts c .abort = (c.st == .running || c.st == .waiting || ((c.st == .draining || c.st == .paused) && inProgress c)) := by
  unfold accepts
  cases c.st <;> rfl

theorem accepts_kill : accepts c .kill =
    (c.st == .armed || c.st == .running || c.st == .waiting || c.st == .draining || c.st == .paused) := by
  unfold accepts
  cases c.st <;> rfl

/-- Every channel but a FREE one takes STOP. -/
theorem accepts_stop {c : Chan} (h : c.st ≠ .free) : accepts c .stop = true := by
  unfold accepts
  cases hs : c.st
  case free => exact absurd hs h
  all_goals rfl

end

/-! ## The rules of the commands -/

section
variable {ch : BitVec 12} {s : State}

/-- INVALIDATE empties the entry cache and its fetches, and the next fetch is that of the entry at WR_START (R84). -/
theorem chan_invalidate (ch : BitVec 12) (s : State) :
    let t := invalidate ch s
    let c := s.chan ch
    (t.chan ch).cache = [] ∧ (t.chan ch).fet = [] ∧ (t.chan ch).wrFetch = c.wrStart ∧ (t.chan ch).wrStart = c.wrStart ∧
      (t.chan ch).wrTail = c.wrTail := by
  obtain ⟨r, w, h⟩ := eq_of_butReady (chan_touch ch ch (discardEntries ch s))
  unfold invalidate
  dsimp only
  rw [h]
  unfold discardEntries
  extract_lets c waits u
  have hu : (u.chan ch).wrStart = c.wrStart ∧ (u.chan ch).wrTail = c.wrTail := by
    unfold u
    split
    · exact ⟨rfl, rfl⟩
    · rw [chan_disarm, chan_modChan]
      exact ⟨rfl, rfl⟩
  rw [chan_modChan]
  dsimp only
  split <;> exact ⟨rfl, rfl, hu.1, hu.1, hu.2⟩

/-- INVALIDATE leaves the other channels and the engines as they are. -/
theorem invalidate_frame (ch : BitVec 12) (s : State) :
    (∀ n, n ≠ ch → (invalidate ch s).chan n = s.chan n) ∧ (invalidate ch s).engs = s.engs := by
  unfold invalidate discardEntries
  extract_lets c waits u
  have hu : (∀ n, n ≠ ch → u.chan n = s.chan n) ∧ u.engs = s.engs := by
    unfold u
    split
    · exact ⟨fun _ _ => rfl, rfl⟩
    · exact ⟨fun n hn => (chan_disarm ch n s).trans (chan_modChan_other s _ hn), engs_disarm ch s⟩
  exact ⟨fun n hn => (chan_touch_other hn _).trans ((chan_modChan_other u _ hn).trans (hu.1 n hn)), (engs_touch ch _).trans hu.2⟩

/-- STOP of a channel that is neither ARMED nor draining without an order: it captures the tail (R421). -/
theorem stopArrives_captures (h : (s.chan ch).st ≠ .armed) (hd : (s.chan ch).st = .draining → inProgress (s.chan ch) = true) :
    stopArrives ch s = s.setChan ch { s.chan ch with pend := some .stop, stopTail := some (s.chan ch).wrTail } := by
  unfold stopArrives
  refine if_neg ?_
  cases hs : (s.chan ch).st <;> simp_all

/-- STOP of a channel that is ARMED, or that drains without an order: it is HALTED at once (Table 2-11d). -/
theorem stopArrives_halts (h : (s.chan ch).st = .armed ∨ ((s.chan ch).st = .draining ∧ inProgress (s.chan ch) = false)) :
    stopArrives ch s = if (s.chan ch).wrStart = (s.chan ch).wrTail ∧ (s.chan ch).wrDone = (s.chan ch).wrTail then haltNow ch 2 0x31 s
      else haltPush ch (s.setChan ch { s.chan ch with pend := some .stop, stopTail := some (s.chan ch).wrTail, st := .halted,
                                                      wait := .none, stopNotice := true }) := by
  unfold stopArrives
  refine if_pos ?_
  rcases h with h | ⟨h, h'⟩
  · rw [h]; rfl
  · rw [h, h']; rfl

/-- A pending command that is withdrawn, and a PAUSE that no longer stops the channel's engine (R88). -/
theorem withdrawn_eq : ((withdrawn ch s).chan ch =
      { s.chan ch with pend := none, stopTail := if (s.chan ch).pend = some .stop then none else (s.chan ch).stopTail }) ∧
    ((s.chan ch).pend = some .pause → ∀ e, (s.chan ch).eng = some e → ((withdrawn ch s).eng e).paused = false) := by
  unfold withdrawn
  dsimp only
  constructor
  · split
    · split
      · exact chan_setChan s ch _
      · exact chan_setChan ..
    · exact chan_setChan ..
  · intro hp e he
    rw [if_pos hp, he]
    exact congrArg Engine.paused (eng_modEng ..)

end

/-- What a command other than STOP does, by whether the state accepts it and what pends (R87, R88). -/
theorem pending_command {a : TpAttr} {ch : BitVec 12} {s : State} {i : Instr} {k : Cmd}
    (hx : exec i s = wrote a (doCommand ch k.strength s)) (hk : k ≠ .stop) :
    (accepts (s.chan ch) k = false → exec i s = wrote a (cmdReject ch s)) ∧
    (accepts (s.chan ch) k = true → (s.chan ch).pend = none →
      exec i s = wrote a (touch ch (s.setChan ch { s.chan ch with pend := some k }))) ∧
    (accepts (s.chan ch) k = true → ∀ p, (s.chan ch).pend = some p → p.strength < k.strength →
      exec i s = wrote a (touch ch ((withdrawn ch s).modChan ch (fun x => { x with pend := some k })))) ∧
    (accepts (s.chan ch) k = true → ∀ p, (s.chan ch).pend = some p → k.strength ≤ p.strength →
      exec i s = wrote a (cmdReject ch s)) := by
  refine ⟨fun ha => ?_, fun ha hp => ?_, fun ha p hp h => ?_, fun ha p hp h => ?_⟩
  · rw [hx, doCommand_rejected ha]
  · rw [hx, doCommand_first ha hp, if_neg hk]
  · rw [hx, doCommand_stronger ha hp h, if_neg hk]
  · rw [hx, doCommand_weaker ha hp h]

/-- Settles O53: the doorbell's words by their rules, and the commands by what the channel accepts and what pends. -/
theorem channelCommands : Obligations.ChannelCommands := by
  unfold Obligations.ChannelCommands
  intro a ch d s hc
  dsimp only
  refine ⟨fun htk => ?tail, fun htk => ?head, fun htk => ?commands⟩
  case tail =>
    refine (doorbell_write hc (by decide) htk d).trans (congrArg (wrote a) ?_)
    show considerHead ch (touch ch (s.modChan ch (wrTailTo (BitVec.ofNat 16 (fld d 0 16))))) = _
    rw [low16, State.modChan, wrTailTo_eq]
  case head =>
    refine (doorbell_write hc (by decide) htk d).trans (congrArg (wrote a) ?_)
    show ntHeadTo ch (BitVec.ofNat 16 (fld d 0 16)) s = _
    rw [low16, ntHeadTo_eq]
  case commands =>
    have hinv : exec (.invalidate a ch d) s = wrote a (doCommand ch 1 s) := command_write hc (by decide) htk d
    have hpause : exec (.pause a ch d) s = wrote a (doCommand ch Cmd.pause.strength s) := command_write hc (by decide) htk d
    have hstop : exec (.stop a ch d) s = wrote a (doCommand ch Cmd.stop.strength s) := command_write hc (by decide) htk d
    have habort : exec (.abort a ch d) s = wrote a (doCommand ch Cmd.abort.strength s) := command_write hc (by decide) htk d
    have hkill : exec (.kill a ch d) s = wrote a (doCommand ch Cmd.kill.strength s) := command_write hc (by decide) htk d
    have hres : exec (.resume a ch d) s = wrote a (doCommand ch 6 s) := command_write hc (by decide) htk d
    rw [hinv, hpause, hstop, habort, hkill, hres]
    refine ⟨fun hfree => ?free, fun hst => ?invalidate, ?pending, fun hst harm hdr hp => ?stop, fun hst => ⟨fun hp => ?stopNow, ?empty, ?posted⟩,
      fun hst harm hdr hp => ?stopOverPause, withdrawn_eq, fun hst e he => ?resumeEngine, fun hst he => ?resumePaused,
      fun hst hp => ?resumeHalted, fun hst hp hr => ?resumeRefused, fun hst hpa hh hp => ?withdraw, fun hpa hh hp => ?resumeRejected⟩
    case free =>
      obtain ⟨h1, h6, hk⟩ := doCommand_free hfree
      rw [h1, h6, hk, hk, hk, hk]
      exact ⟨rfl, rfl, rfl, rfl, rfl, rfl⟩
    case invalidate =>
      obtain ⟨hcache, hfet, hfetch, hstart, htail⟩ := chan_invalidate ch s
      exact ⟨_, congrArg _ (doCommand_invalidate hst), hcache, hfet, hfetch, hstart, htail, invalidate_frame ch s⟩
    case pending =>
      rintro k i rank ok (⟨rfl, rfl, rfl, rfl⟩ | ⟨rfl, rfl, rfl, rfl⟩ | ⟨rfl, rfl, rfl, rfl⟩)
      · rw [← accepts_pause]
        exact pending_command hpause (by decide)
      · have h := pending_command habort (by decide)
        rw [accepts_abort] at h
        exact h
      · rw [← accepts_kill]
        exact pending_command hkill (by decide)
    case stop => rw [doCommand_first (accepts_stop hst) hp, if_pos rfl, stopArrives_captures harm hdr]
    case stopNow =>
      have hfree : (s.chan ch).st ≠ .free := by rcases hst with h | ⟨h, _⟩ <;> simp [h]
      rw [doCommand_first (accepts_stop hfree) hp, if_pos rfl]
    case empty => exact fun h1 h2 => (stopArrives_halts hst).trans (if_pos ⟨h1, h2⟩)
    case posted => exact fun h => (stopArrives_halts hst).trans (if_neg (fun hn => h.elim (· hn.1) (· hn.2)))
    case stopOverPause => rw [doCommand_stronger (accepts_stop hst) hp (by decide), if_pos rfl]
    case resumeEngine =>
      rw [doCommand_resume (by simp [hst])]
      unfold doResume resumePaused
      dsimp only
      rw [if_pos hst, he]
    case resumePaused =>
      rw [doCommand_resume (by simp [hst])]
      unfold doResume
      rw [if_pos hst]
    case resumeHalted =>
      rw [doCommand_resume (by simp [hst])]
      unfold doResume
      rw [if_neg (by simp [hst]), if_pos hst, if_neg (by rcases hp with h | h <;> simp [h])]
    case resumeRefused =>
      rw [doCommand_resume (by simp [hst])]
      unfold doResume
      rw [if_neg (by simp [hst]), if_pos hst, if_pos (by simp [hr, Option.isSome_iff_ne_none, hp])]
      rfl
    case withdraw =>
      rw [doCommand_resume hst]
      unfold doResume
      rw [if_neg hpa, if_neg hh, if_pos hp]
    case resumeRejected =>
      by_cases hst : (s.chan ch).st = .free
      · rw [(doCommand_free hst).2.1]
        rfl
      · rw [doCommand_resume hst]
        unfold doResume
        rw [if_neg hpa, if_neg hh, if_neg hp]
        rfl

end Sys2Proof.Machine
end

section
/-! Catalogue windows and the channel context (R40, R43 to R50, R90, R333, R657, R660, Table 2-7). -/

namespace Sys2Proof.Machine

/-! ## CH_CTRL as a write stores it (Table 2-3, R43) -/

/-- What CH_CTRL stores above ALLOC and EN, divided by 4. -/
def ctrlHigh (old v : Word) : Nat :=
  let own := if fld v 24 8 = 0xFF then fld old 24 8 else fld v 24 8
  own * 2 ^ 22 + b2n (bit v 23) * 2 ^ 21 + b2n (bit v 22) * 2 ^ 20 + keepOver (fld old 20 2) (fld v 20 2) 2 * 2 ^ 18 +
    fld v 12 4 * 2 ^ 10 + b2n (bit v 4) * 2 ^ 2 + b2n (bit v 3) * 2

/-- A field packed over others adds to them. -/
theorem packW_cons {r : List (Nat × Nat)} {m : Nat} (l v : Nat) (h : packW r = BitVec.ofNat 32 m) :
    packW ((l, v) :: r) = BitVec.ofNat 32 (m + v * 2 ^ l) := by
  rw [packW, h, BitVec.ofNat_add]

theorem ctrlStored_eq (old v : Word) :
    ctrlStored old v = BitVec.ofNat 32 (4 * ctrlHigh old v + 2 * b2n (bit v 1) + b2n (bit v 0)) := by
  unfold ctrlStored ctrlHigh
  generalize (if fld v 24 8 = 0xFF then fld old 24 8 else fld v 24 8) = own
  generalize keepOver (fld old 20 2) (fld v 20 2) 2 = arb
  generalize fld v 12 4 = prio
  dsimp only
  have low : packW [(1, b2n (bit v 1)), (0, b2n (bit v 0))] = _ := packW_cons _ _ (packW_cons (m := 0) _ _ rfl)
  rw [packW_cons _ _ (packW_cons _ _ (packW_cons _ _ (packW_cons _ _ (packW_cons _ _ (packW_cons _ _ (packW_cons _ _ low))))))]
  refine congrArg (BitVec.ofNat 32) ?_
  omega

/-- The upper fields do not depend on ALLOC and EN. -/
theorem ctrlHigh_setFld (old v : Word) {l x : Nat} (h : l < 2) : ctrlHigh old (setFld v l 1 x) = ctrlHigh old v := by
  have fld_above (k j : Nat) (hk : 2 ≤ k) : fld (setFld v l 1 x) k j = fld v k j := fld_setFld_other v l 1 x k j (by omega)
  have bit_above (k : Nat) (hk : 2 ≤ k) : bit (setFld v l 1 x) k = bit v k := bit_setFld_other v l 1 x k (by omega)
  unfold ctrlHigh
  simp only [fld_above _ _ (by omega : 2 ≤ 24), fld_above _ _ (by omega : 2 ≤ 20), fld_above _ _ (by omega : 2 ≤ 12),
    bit_above _ (by omega : 2 ≤ 23), bit_above _ (by omega : 2 ≤ 22), bit_above _ (by omega : 2 ≤ 4),
    bit_above _ (by omega : 2 ≤ 3)]

theorem b2n_lt_two (b : Bool) : b2n b < 2 := by cases b <;> decide

theorem decide_b2n (b : Bool) : decide (b2n b = 1) = b := by cases b <;> rfl

/-- The bits of a number by its lowest two. -/
theorem testBit_low (r : Nat) (b a : Bool) (i : Nat) : (4 * r + 2 * b2n b + b2n a).testBit i =
    match i with
    | 0 => a
    | 1 => b
    | i + 2 => r.testBit i := by
  have ha := b2n_lt_two a
  have hb := b2n_lt_two b
  match i with
  | 0 =>
    have low : (4 * r + 2 * b2n b + b2n a) % 2 = b2n a := by omega
    rw [Nat.testBit_zero, low, decide_b2n]
  | 1 =>
    have mid : (4 * r + 2 * b2n b + b2n a) / 2 % 2 = b2n b := by omega
    rw [Nat.testBit_succ, Nat.testBit_zero, mid, decide_b2n]
  | i + 2 =>
    have high : (4 * r + 2 * b2n b + b2n a) / 2 / 2 = r := by omega
    rw [Nat.testBit_succ, Nat.testBit_succ, high]

theorem bit_ctrlStored (old v : Word) (i : Nat) : bit (ctrlStored old v) i =
    (decide (i < 32) && match i with
      | 0 => bit v 0
      | 1 => bit v 1
      | i + 2 => (ctrlHigh old v).testBit i) := by
  rw [ctrlStored_eq, bit, BitVec.getLsbD_ofNat, testBit_low]

/-- ALLOC and EN are stored as written. -/
theorem ctrlStored_setFld (old v : Word) {l x : Nat} (h : l < 2) :
    ctrlStored old (setFld v l 1 x) = setFld (ctrlStored old v) l 1 x := by
  refine BitVec.eq_of_getLsbD_eq fun i hi => ?_
  show bit _ i = bit _ i
  rw [bit_setFld, bit_ctrlStored, bit_ctrlStored, ctrlHigh_setFld old v h]
  match i with
  | 0 => simp [bit_setFld]
  | 1 => simp [bit_setFld]
  | i + 2 =>
    rw [if_neg (by omega)]
    simp

section
variable (x : Word)

theorem two_high (i : Nat) : (2 : Word).getLsbD (i + 2) = false := by
  show (BitVec.ofNat 32 2).getLsbD (i + 2) = false
  rw [BitVec.getLsbD_ofNat, Nat.testBit_succ, Nat.testBit_succ]
  simp

theorem setFld_alloc : setFld x 0 1 1 = x ||| 1 := by
  refine BitVec.eq_of_getLsbD_eq fun i hi => ?_
  show bit _ i = _
  rw [bit_setFld, BitVec.getLsbD_or]
  cases i with
  | zero => simp
  | succ i => simp [bit, hi]

theorem setFld_en : setFld x 1 1 1 = x ||| 2 := by
  refine BitVec.eq_of_getLsbD_eq fun i hi => ?_
  show bit _ i = _
  rw [bit_setFld, BitVec.getLsbD_or]
  match i with
  | 0 => simp [bit]
  | 1 => simp
  | i + 2 =>
    rw [two_high, if_neg (by omega)]
    simp [bit, hi]

theorem setFld_noEn : setFld x 1 1 0 = x &&& ~~~2 := by
  refine BitVec.eq_of_getLsbD_eq fun i hi => ?_
  show bit _ i = _
  rw [bit_setFld, BitVec.getLsbD_and, BitVec.getLsbD_not]
  match i with
  | 0 => simp [bit]
  | 1 => simp
  | i + 2 =>
    rw [two_high, if_neg (by omega)]
    simp [bit, hi]

/-- The fields that are fixed while the channel is enabled do not hold EN. -/
theorem setFld_noEn_fixed : setFld x 1 1 0 &&& 0xFFFF0FFD = x &&& 0xFFFF0FFD := by
  rw [setFld_noEn, BitVec.and_assoc]
  rfl

end

/-! ## Accesses through a window (R40, R48) -/

section
variable {a : TpAttr} {i : BitVec 2} {s : State}

/-- A window selects its channel, and nothing of its old channel stays (R40, R657, R660). -/
theorem catSel_write (htk : s.takes a true (.catSel i.toNat)) (d : Word) :
    exec (.catSelWrite a i d) s = wrote a (catSelTo i.toNat d s) := by
  have hi := i.isLt
  exact takes_wroteAt htk _ d (by omega) (by omega) (dec_catSel s.wings i) rfl

section
variable (hr : winRefused s i.toNat a.sec a.owner = false)
include hr

/-- A write of a context word through a window (R44). -/
theorem window_wrote {off : BitVec 8} (h4 : off.toNat % 4 = 0) (htk : s.takes a true (.catWin i.toNat off.toNat)) {d : Word} {t : State}
    (hw : ctxWrite (s.win i.toNat).sel off.toNat d s = some t) :
    act s (tpWrite a (0x2100 + 0x100 * i.toNat + off.toNat) d s) = wrote a t := by
  have hi := i.isLt
  have ho := off.isLt
  exact takes_wroteAt htk _ d (by omega) (by omega) (dec_catWin s.wings i off h4) (by simp [regWrite, hr, hw])

theorem window_denied {off : BitVec 8} (h4 : off.toNat % 4 = 0) (htk : s.takes a true (.catWin i.toNat off.toNat)) {d : Word}
    (hw : ctxWrite (s.win i.toNat).sel off.toNat d s = none) :
    act s (tpWrite a (0x2100 + 0x100 * i.toNat + off.toNat) d s) = denied a (0x2100 + 0x100 * i.toNat + off.toNat) slverr s := by
  have hi := i.isLt
  have ho := off.isLt
  exact takes_deniedAt htk _ d (by omega) (by omega) (dec_catWin s.wings i off h4) (by simp [regWrite, hr, hw])

theorem ctrl_wrote (htk : s.takes a true (.catWin i.toNat 0)) {d : Word} {t : State} (hw : writeCtrl (s.win i.toNat).sel d s = some t) :
    act s (tpWrite a (0x2100 + 0x100 * i.toNat) d s) = wrote a t :=
  window_wrote hr (off := 0) rfl htk hw

theorem ctrl_denied (htk : s.takes a true (.catWin i.toNat 0)) {d : Word} (hw : writeCtrl (s.win i.toNat).sel d s = none) :
    act s (tpWrite a (0x2100 + 0x100 * i.toNat) d s) = denied a (0x2100 + 0x100 * i.toNat) slverr s :=
  window_denied hr (off := 0) rfl htk hw

/-- A read of CH_CK_PC, which takes the snapshot of the checkpoint and wait areas (R660). -/
theorem ckPc_read (htk : s.takes a false (.catWin i.toNat 0x80)) :
    exec (.chCkPcRead a i) s = gave a (s.chan (s.win i.toNat).sel).ck.pc
      (s.modWin i.toNat (fun x => { x with snap := some (ckSnap s (s.win i.toNat).sel) })) := by
  have hi := i.isLt
  have e : (BitVec.ofNat 20 (0x2180 + 0x100 * i.toNat)).toNat = 0x2100 + 0x100 * i.toNat + (0x80 : BitVec 8).toNat := by
    rw [BitVec.toNat_ofNat, Nat.mod_eq_of_lt (by omega)]
    show _ = 0x2100 + 0x100 * i.toNat + 128
    omega
  refine takes_gave htk (BitVec.ofNat 20 (0x2180 + 0x100 * i.toNat)) 0 (by rw [e]; show (_ + 128) % 4 = 0; omega)
    (by rw [e]; exact dec_catWin s.wings i 0x80 (by decide)) ?_
  simp [regRead, hr, winRead, ctxRead]

end

end

@[simp] theorem win_modWin (s : State) (i : Nat) (f : CatWin → CatWin) : (s.modWin i f).win i = f (s.win i) := Tbl.get_put_same ..

theorem win_modWin_other (s : State) {i j : Nat} (f : CatWin → CatWin) (h : j ≠ i) : (s.modWin i f).win j = s.win j :=
  Tbl.get_put_other _ _ _ _ _ h

/-- A table filled from a list holds at each listed key what was put there. -/
theorem get_foldS_put {α : Type} [DecidableEq α] (d : α) (key : Nat → Nat) (v : Nat → α) (hkey : ∀ j k, key j = key k → j = k)
    (l : List Nat) (t : Tbl α) (k : Nat) :
    Tbl.get d (foldS l (fun j u => Tbl.put d u (key j) (v j)) t) (key k) = if k ∈ l then v k else Tbl.get d t (key k) := by
  induction l generalizing t with
  | nil => rfl
  | cons j l ih =>
    refine (ih _).trans ?_
    by_cases hk : k ∈ l
    · simp [hk]
    · by_cases hj : k = j
      · subst hj
        simp [hk]
      · rw [if_neg hk, if_neg (by simp [hk, hj]), Tbl.get_put_other _ _ _ _ _ (fun h => hj (hkey _ _ h))]

/-- The snapshot holds the words at offsets 0x80 to 0xFF (R660). -/
theorem get_ckSnap (s : State) (ch : BitVec 12) {k : Nat} (hk : k < 32) :
    Tbl.get 0 (ckSnap s ch) (0x80 + 4 * k) = ctxRead s ch (0x80 + 4 * k) := by
  refine (get_foldS_put 0 (fun j => 0x80 + 4 * j) (fun j => ctxRead s ch (0x80 + 4 * j)) (fun j k h => by omega) _ [] k).trans ?_
  exact if_pos (List.mem_range.mpr hk)

/-! ## CH_CTRL (R43, R49, R50, R90, Table 2-7) -/

section
variable {ch : BitVec 12} {v : Word} {s : State}

theorem isEmpty_home (s : State) (w : Word) : (!(homeSet s w).isEmpty) = decide (homeSet s w ≠ []) := by
  cases homeSet s w <;> rfl

theorem ctxWrite_ctrl (ch : BitVec 12) (v : Word) (s : State) : ctxWrite ch 0 v s = writeCtrl ch v s := rfl

theorem bit_ctrlStored_alloc (old v : Word) : bit (ctrlStored old v) 0 = bit v 0 := bit_ctrlStored old v 0

theorem bit_ctrlStored_en (old v : Word) : bit (ctrlStored old v) 1 = bit v 1 := bit_ctrlStored old v 1

/-- ALLOC of a FREE channel without EN, or without a populated home gallery: it is CONFIGURED (R50). -/
theorem writeCtrl_allocates (hs : (s.chan ch).st = .free) (ha : bit v 0 = true) (he : bit v 1 = false ∨ homeSet s (s.chan ch).home = []) :
    writeCtrl ch v s = some (s.setChan ch { s.chan ch with ctrl := setFld (ctrlStored (s.chan ch).ctrl v) 1 1 0, st := .configured }) := by
  unfold writeCtrl
  simp only [hs, bit_ctrlStored_alloc, bit_ctrlStored_en, ha, isEmpty_home, BitVec.ofNat_toNat, BitVec.setWidth_eq, if_true]
  exact if_neg (by rcases he with he | he <;> simp [he])

/-- ALLOC with EN of a FREE channel that has a home: it is ARMED, and its entries are considered (R49). -/
theorem writeCtrl_allocates_armed (hs : (s.chan ch).st = .free) (ha : bit v 0 = true) (he : bit v 1 = true)
    (hh : homeSet s (s.chan ch).home ≠ []) :
    writeCtrl ch v s = some (considerHead ch (s.setChan ch { s.chan ch with ctrl := ctrlStored (s.chan ch).ctrl v, st := .armed })) := by
  unfold writeCtrl
  simp only [hs, bit_ctrlStored_alloc, bit_ctrlStored_en, ha, he, isEmpty_home, if_true]
  exact if_pos (by simp [hh])

/-- ALLOC = 0 frees a CONFIGURED channel (R47, R50). -/
theorem writeCtrl_frees (hs : (s.chan ch).st = .configured) (ha : bit v 0 = false) : writeCtrl ch v s = some (freeChan ch s) := by
  unfold writeCtrl
  simp only [hs, bit_ctrlStored_alloc, ha]
  rfl

/-- EN arms a CONFIGURED channel that has a home (R49). -/
theorem writeCtrl_arms (hs : (s.chan ch).st = .configured) (ha : bit v 0 = true) (he : bit v 1 = true)
    (hh : homeSet s (s.chan ch).home ≠ []) :
    writeCtrl ch v s = some (considerHead ch (s.setChan ch { s.chan ch with ctrl := ctrlStored (s.chan ch).ctrl v, st := .armed })) := by
  unfold writeCtrl
  simp only [hs, bit_ctrlStored_alloc, bit_ctrlStored_en, ha, he, isEmpty_home]
  exact (if_neg (by decide)).trans (if_pos (by simp [hh]))

/-- EN does not take where the channel has no home (R49). -/
theorem writeCtrl_homeless (hs : (s.chan ch).st = .configured) (ha : bit v 0 = true) (hh : homeSet s (s.chan ch).home = []) :
    writeCtrl ch v s = some (s.setChan ch { s.chan ch with ctrl := setFld (ctrlStored (s.chan ch).ctrl v) 1 1 0 }) := by
  unfold writeCtrl
  simp only [hs, bit_ctrlStored_alloc, bit_ctrlStored_en, ha, hh, BitVec.ofNat_toNat, BitVec.setWidth_eq]
  exact (if_neg (by decide)).trans (if_neg (by simp))

/-- EN = 0 starts the drain of a channel that runs or waits (R90). -/
theorem writeCtrl_drains (hs : (s.chan ch).st = .running ∨ (s.chan ch).st = .waiting) (hen : (s.chan ch).en = true)
    (he : bit v 1 = false) (hm : ctrlStored (s.chan ch).ctrl v &&& 0xFFFF0FFD = (s.chan ch).ctrl &&& 0xFFFF0FFD) :
    writeCtrl ch v s = some (touch ch (s.setChan ch { s.chan ch with ctrl := ctrlStored (s.chan ch).ctrl v, st := .draining })) := by
  unfold writeCtrl
  rcases hs with hs | hs <;>
  · simp only [hs, hen, bit_ctrlStored_en, he, if_neg (not_not.mpr hm)]
    rfl

/-- A change of the fields that are fixed while the channel is enabled is refused (R44). -/
theorem writeCtrl_refused (hs : (s.chan ch).st = .running)
    (hm : ctrlStored (s.chan ch).ctrl v &&& 0xFFFF0FFD ≠ (s.chan ch).ctrl &&& 0xFFFF0FFD) : writeCtrl ch v s = none := by
  unfold writeCtrl
  simp only [hs]
  exact if_pos hm

end

/-- A channel that is set and then noted as ready has what was set, apart from the marks of readiness. -/
theorem chan_touch_setChan (ch : BitVec 12) (c : Chan) (s : State) :
    ∃ r w, (touch ch (s.setChan ch c)).chan ch = { c with readyAt := r, wakeAsked := w } :=
  eq_of_butReady ((chan_touch ch ch _).trans (congrArg Chan.butReady (chan_setChan s ch c)))

/-! ## A channel that becomes FREE (R47, R333) -/

@[simp] theorem sub_modSub (s : State) (j : Nat) (f : Sub → Sub) : (s.modSub j f).sub j = f (s.sub j) := Tbl.get_put_same ..

theorem sub_modSub_other (s : State) {j k : Nat} (f : Sub → Sub) (h : k ≠ j) : (s.modSub j f).sub k = s.sub k :=
  Tbl.get_put_other _ _ _ _ _ h

/-- A subscription that FREE clears. -/
def Sub.cleared (x : Sub) : Sub := { x with v := false, pend := false, ovr := false }

/-- The listed subscriptions cleared. -/
def clearSubs (l : List (Nat × Sub)) (s : State) : State := foldS l (fun p t => t.modSub p.1 Sub.cleared) s

theorem clearSubs_keeps (l : List (Nat × Sub)) (j : Nat) (s : State) (h : (s.sub j).v = false) :
    ((clearSubs l s).sub j).v = false := by
  induction l generalizing s with
  | nil => exact h
  | cons p l ih =>
    refine ih _ ?_
    by_cases hj : j = p.1
    · subst hj
      rw [sub_modSub]
      rfl
    · rw [sub_modSub_other _ _ hj]
      exact h

theorem clearSubs_clears (l : List (Nat × Sub)) (s : State) : ∀ p ∈ l, ((clearSubs l s).sub p.1).v = false := by
  induction l generalizing s with
  | nil => exact fun p hp => nomatch hp
  | cons q l ih =>
    intro p hp
    rcases List.mem_cons.mp hp with rfl | hp
    · exact clearSubs_keeps l p.1 _ (by rw [sub_modSub]; rfl)
    · exact ih _ p hp

@[simp] theorem chan_clearSubs (l : List (Nat × Sub)) (s : State) (n : BitVec 12) : (clearSubs l s).chan n = s.chan n :=
  foldS_keeps (fun t : State => t.chan n) (fun (p : Nat × Sub) (t : State) => (rfl : (t.modSub p.1 Sub.cleared).chan n = t.chan n)) l s

/-- One requester's acknowledgement, when it is due. -/
def rqRecheckOne (n : Nat) (t : State) : State := if (t.rq n).outst && rqAccepts t n then rqAckNow n t else t

theorem rqRecheck_eq (s : State) : rqRecheck s = foldS (upTo 128) rqRecheckOne s := rfl

theorem rqRecheckOne_keeps (n : Nat) (t : State) :
    (rqRecheckOne n t).butEvents = t.butEvents ∧ ∀ j, (rqRecheckOne n t).sub j = t.sub j := by
  unfold rqRecheckOne
  split
  · exact ⟨butEvents_rqAckNow n t, fun _ => rfl⟩
  · exact ⟨rfl, fun _ => rfl⟩

theorem butEvents_rqRecheck (s : State) : (rqRecheck s).butEvents = s.butEvents := by
  rw [rqRecheck_eq]
  exact foldS_keeps State.butEvents (fun n t => (rqRecheckOne_keeps n t).1) _ s

theorem sub_rqRecheck (s : State) (j : Nat) : (rqRecheck s).sub j = s.sub j := by
  rw [rqRecheck_eq]
  exact foldS_keeps (fun t : State => t.sub j) (fun n t => (rqRecheckOne_keeps n t).2 j) _ s

/-- The state of a freed channel before the requesters are looked at again. -/
def freed (ch : BitVec 12) (s : State) : State :=
  let s1 := s.setChan ch (chanRst s.boot.straps)
  let s2 := clearSubs (s1.subList.filter (fun p => p.2.ch == ch)) s1
  { s2 with dsp := Tbl.put {} s2.dsp ch.toNat {} }

theorem freeChan_eq (ch : BitVec 12) (s : State) : freeChan ch s = rqRecheck (freed ch s) := rfl

theorem chan_freed (ch : BitVec 12) (s : State) (n : BitVec 12) :
    (freed ch s).chan n = (s.setChan ch (chanRst s.boot.straps)).chan n := chan_clearSubs ..

/-- A channel that becomes FREE: its context at reset, its subscriptions cleared, and the other channels as they are. -/
theorem freeChan_frees (ch : BitVec 12) (s : State) :
    (freeChan ch s).chan ch = chanRst s.boot.straps ∧ (∀ n, n ≠ ch → (freeChan ch s).chan n = s.chan n) ∧
      ∀ p ∈ s.subList, p.2.ch = ch → ((freeChan ch s).sub p.1).v = false := by
  have hc (n : BitVec 12) : (freeChan ch s).chan n = (s.setChan ch (chanRst s.boot.straps)).chan n :=
    (chan_of_butEvents (butEvents_rqRecheck _) n).trans (chan_freed ch s n)
  refine ⟨(hc ch).trans (chan_setChan ..), fun n hn => (hc n).trans (chan_setChan_other _ _ _ _ hn), fun p hp hch => ?_⟩
  rw [freeChan_eq, sub_rqRecheck]
  exact clearSubs_clears _ _ p (List.mem_filter.mpr ⟨hp, by simp [hch]⟩)

/-! ## Ring configuration (R44, R46) -/

/-- The ring words are whole words, apart from CH_CTRL and CH_HOME. -/
theorem ringWord_offset {off : BitVec 8} (h : isRingWord off = true) : off.toNat % 4 = 0 ∧ off.toNat ≠ 0 ∧ off.toNat ≠ 4 := by
  simp only [isRingWord, List.contains_eq_mem, List.mem_cons, List.not_mem_nil, or_false, decide_eq_true_eq] at h
  omega

section
variable {ch : BitVec 12} {o : Nat} {v : Word} {s : State} {n : Chan} (h0 : o ≠ 0) (h4 : o ≠ 4) (hn : ctxStored (s.chan ch) o v = some n)
include h0 h4 hn

theorem ctxWrite_same (h : n = s.chan ch) : ctxWrite ch o v s = some s := by
  unfold ctxWrite
  simp only [h0, h4, if_false, hn, h, if_true]

/-- A changed ring word of a channel that is not enabled is stored, and the ring's indices restart (R46). -/
theorem ctxWrite_changed (h : n ≠ s.chan ch) (hs : (s.chan ch).st = .free ∨ (s.chan ch).st = .configured) :
    ctxWrite ch o v s = some (s.setChan ch (ringIndices (s.chan ch) n)) := by
  unfold ctxWrite
  simp only [h0, h4, if_false, hn, h, hs, if_true]

theorem ctxWrite_refused (h : n ≠ s.chan ch) (hf : (s.chan ch).st ≠ .free) (hc : (s.chan ch).st ≠ .configured) :
    ctxWrite ch o v s = none := by
  unfold ctxWrite
  simp only [h0, h4, if_false, hn, h, hf, hc, or_self]

end

/-- A changed work ring restarts its four indices, a changed notice ring its two, and the words stay as stored (R46). -/
theorem ringIndices_resets (c n : Chan) :
    (n.wrBase ≠ c.wrBase ∨ n.wrSize ≠ c.wrSize → (ringIndices c n).wrTail = 0 ∧ (ringIndices c n).wrDone = 0 ∧
      (ringIndices c n).wrFetch = 0 ∧ (ringIndices c n).wrStart = 0) ∧
    (n.ntBase ≠ c.ntBase ∨ n.ntSize ≠ c.ntSize → (ringIndices c n).ntHead = 0 ∧ (ringIndices c n).ntTail = 0) ∧
    (ringIndices c n).wrBase = n.wrBase ∧ (ringIndices c n).ntBase = n.ntBase ∧ (ringIndices c n).ringCfg = n.ringCfg := by
  unfold ringIndices
  refine ⟨fun hw => ?_, fun hnt => ?_, ?_⟩
  · rw [if_pos hw]
    dsimp only
    split <;> exact ⟨rfl, rfl, rfl, rfl⟩
  · dsimp only
    rw [if_pos hnt]
    exact ⟨rfl, rfl⟩
  · dsimp only
    split <;> split <;> exact ⟨rfl, rfl, rfl⟩

theorem low12 (d : Word) : BitVec.ofNat 12 (fld d 0 12) = d.setWidth 12 := by
  apply BitVec.eq_of_toNat_eq
  simp [fld]

/-- Settles O54: the window's selection, CH_CTRL by the channel's state, the ring words, and the snapshot. -/
theorem contextCommands : Obligations.ContextCommands := by
  unfold Obligations.ContextCommands
  intro a i d s
  dsimp only
  refine ⟨fun htk => ?select, fun htk hr => ⟨fun hs he => ?alloc, fun hs he hh => ?allocArmed, fun hs => ?free,
    fun hs ha hh => ?enable, fun hs ha hh => ?homeless, fun hs hen hm => ?drain, fun hs hm => ?refused⟩,
    fun off hoff htk hr n hn => ⟨fun h => ?same, fun h hs => ?changed, fun h hf hc => ?fixed⟩, fun htk hr => ?snapshot⟩
  case select =>
    refine ⟨_, catSel_write htk d, ?_, fun j hj => win_modWin_other _ _ hj, rfl⟩
    rw [catSelTo, win_modWin, low12]
  case alloc =>
    have hw := writeCtrl_allocates hs (v := setFld d 0 1 1) (by simp [bit_setFld])
      (he.imp (fun he => (bit_setFld_other d 0 1 1 1 (by omega)).trans he) not_not.mp)
    rw [ctrlStored_setFld _ _ (by omega), setFld_alloc (ctrlStored _ d), setFld_noEn] at hw
    refine ⟨_, ctrl_wrote hr htk hw, ?_⟩
    rw [chan_setChan]
    exact ⟨rfl, rfl, fun n hn => chan_setChan_other _ _ _ _ hn⟩
  case allocArmed =>
    have hw := writeCtrl_allocates_armed hs (v := setFld d 0 1 1) (by simp [bit_setFld])
      ((bit_setFld_other d 0 1 1 1 (by omega)).trans he) hh
    rw [ctrlStored_setFld _ _ (by omega), setFld_alloc (ctrlStored _ d)] at hw
    exact ctrl_wrote hr htk hw
  case free =>
    exact ⟨_, ctrl_wrote hr htk (writeCtrl_frees hs (by simp [bit_setFld])), freeChan_frees _ s⟩
  case enable =>
    have hw := writeCtrl_arms hs (v := setFld d 1 1 1) ((bit_setFld_other d 1 1 1 0 (by omega)).trans ha) (by simp [bit_setFld]) hh
    rw [ctrlStored_setFld _ _ (by omega), setFld_en (ctrlStored _ d)] at hw
    exact ctrl_wrote hr htk hw
  case homeless =>
    have hw := writeCtrl_homeless hs (v := setFld d 1 1 1) ((bit_setFld_other d 1 1 1 0 (by omega)).trans ha) (not_not.mp hh)
    refine ⟨_, ctrl_wrote hr htk hw, ?_⟩
    rw [chan_setChan]
    exact ⟨hs, by simp [bit_setFld]⟩
  case drain =>
    have hw := writeCtrl_drains hs hen (v := setFld d 1 1 0) (by simp [bit_setFld])
      (by rw [ctrlStored_setFld _ _ (by omega), setFld_noEn_fixed, hm])
    refine ⟨_, ctrl_wrote hr htk hw, ?_⟩
    obtain ⟨r, w, e⟩ := chan_touch_setChan (s.win i.toNat).sel _ s
    rw [e]
    exact ⟨rfl, rfl, fun n hn => (chan_touch_other hn _).trans (chan_setChan_other _ _ _ _ hn)⟩
  case refused =>
    exact ctrl_denied hr htk (writeCtrl_refused hs (v := setFld d 1 1 0)
      (by rwa [ctrlStored_setFld _ _ (by omega), setFld_noEn_fixed]))
  case same =>
    obtain ⟨hw, h0, h4⟩ := ringWord_offset hoff
    exact window_wrote hr hw htk (ctxWrite_same h0 h4 hn h)
  case changed =>
    obtain ⟨hw, h0, h4⟩ := ringWord_offset hoff
    obtain ⟨h1, h2, h3, h5, h6⟩ := ringIndices_resets (s.chan (s.win i.toNat).sel) n
    refine ⟨_, window_wrote hr hw htk (ctxWrite_changed h0 h4 hn h hs), ?_⟩
    rw [chan_setChan]
    exact ⟨h1, h2, h3, h5, h6, fun m hm => chan_setChan_other _ _ _ _ hm⟩
  case fixed =>
    obtain ⟨hw, h0, h4⟩ := ringWord_offset hoff
    exact window_denied hr hw htk (ctxWrite_refused h0 h4 hn h hf hc)
  case snapshot =>
    refine ⟨_, ckPc_read hr htk, rfl, ?_, ckSnap s (s.win i.toNat).sel, ?_, fun k hk => get_ckSnap s _ hk⟩
    · rw [win_modWin]
    · rw [win_modWin]

end Sys2Proof.Machine
end

section
/-! Exceptions (R121 to R127, R188): the frame in the Alcove, the ways in which an exception is taken, and TRAP and ERET. -/

namespace Sys2Proof.Machine

/-! ## Registers -/

theorem setRg_eq (x : Engine) {r : BitVec 5} (h : r ≠ 0) (v : DWord) : x.setRg r v = { x with g := Tbl.put 0 x.g r.toNat v } :=
  if_neg h

/-! ## Words in the Alcove (R19, R108) -/

theorem length_alcRead (x : Engine) (a n : Nat) : (x.alcRead a n).length = n := by simp [Engine.alcRead, upTo]

theorem getD_alcRead (x : Engine) (a : Nat) {n k : Nat} (h : k < n) : (x.alcRead a n).getD k 0 = x.alcByte (a + k) := by
  simp [Engine.alcRead, upTo, h]

/-- The bytes of a list of words are those of each word in turn. -/
theorem getD_flatMap_toLe {f : List DWord} {k j : Nat} (hk : k < f.length) (hj : j < 8) :
    (f.flatMap (fun v => toLe 8 v.toNat)).getD (8 * k + j) 0 = (toLe 8 (f.getD k 0).toNat).getD j 0 := by
  induction f generalizing k with
  | nil => exact absurd hk (Nat.not_lt_zero k)
  | cons v f ih =>
    rw [List.flatMap_cons]
    cases k with
    | zero => 
      rw [Nat.mul_zero, Nat.zero_add]
      exact List.getD_append _ _ _ _ (by rw [toLe_len]; exact hj)
    | succ k =>
      rw [List.getD_append_right _ _ _ _ (by rw [toLe_len]; omega), toLe_len,
        show 8 * (k + 1) + j - 8 = 8 * k + j by omega]
      exact ih (by simpa using hk)

theorem length_flatMap_toLe (f : List DWord) : (f.flatMap (fun v => toLe 8 v.toNat)).length = 8 * f.length := by
  induction f with
  | nil => rfl
  | cons v f ih => rw [List.flatMap_cons, List.length_append, ih, toLe_len, List.length_cons]; omega

/-- Words written to the Alcove read back. -/
theorem ofLe_alcRead_alcWrite (x : Engine) (a : Nat) {f : List DWord} {k : Nat} (hk : k < f.length) :
    ofLe ((x.alcWrite a (f.flatMap (fun v => toLe 8 v.toNat))).alcRead (a + 8 * k) 8) = (f.getD k 0).toNat := by
  have hread : (x.alcWrite a (f.flatMap (fun v => toLe 8 v.toNat))).alcRead (a + 8 * k) 8 = toLe 8 (f.getD k 0).toNat := by
    refine List.ext_getElem (by rw [length_alcRead, toLe_len]) fun j hj hj' => ?_
    have hj8 : j < 8 := by rwa [toLe_len] at hj'
    rw [← List.getD_eq_getElem _ 0, ← List.getD_eq_getElem _ 0, getD_alcRead _ _ hj8, alcByte_alcWrite, length_flatMap_toLe,
      if_pos (by omega), show a + 8 * k + j - a = 8 * k + j by omega, getD_flatMap_toLe hk hj8]
  rw [hread, ofLe_toLe]
  exact Nat.mod_eq_of_lt (f.getD k 0).isLt

/-! ## Taking an exception -/

/-- The engine with the exception frame `f` below its stack pointer (R122). -/
def Engine.framed (x : Engine) (f : List DWord) : Engine :=
  (x.alcWrite ((x.rg 31).toNat - 64) (f.flatMap (fun v => toLe 8 v.toNat))).setRg 31 (x.rg 31 - 64)

/-- The engine at its handler's first instruction, with ECAUSE in g1 and EADDR in g2 (R122). -/
def Engine.handling (y : Engine) (f : List DWord) (handler : BitVec 32) : Engine :=
  let z := (y.setRg 1 (f.getD 2 0)).setRg 2 (f.getD 3 0)
  { z.goto handler with psr := psrSet z.psr 16 true }

section
variable (e : EngId) (cause : Nat) (info : Word) (epc : BitVec 32) (eaddr : DWord) (strm : Option (BitVec 3)) (s : State)

/-- The three ways of taking an exception, after the residue (R122, R123, R127, R167). -/
theorem takeExc_cases :
    let s1 := flush e s
    let x := s1.eng e
    let c := chanOf s1 e
    let f := excFrame x cause info epc eaddr strm
    (spValid c (x.rg 31) = false → takeExc e cause info epc eaddr strm s = s1.setEng e (beginEnd 0x2F (glovebox f x))) ∧
    (spValid c (x.rg 31) = true → psrExl x.psr = true ∨ c.handler = 0 →
      takeExc e cause info epc eaddr strm s = s1.setEng e (beginEnd (causeStatus cause) (x.framed f))) ∧
    (spValid c (x.rg 31) = true → psrExl x.psr = false → c.handler ≠ 0 →
      takeExc e cause info epc eaddr strm s = s1.setEng e ((x.framed f).handling f c.handler)) := by
  dsimp only
  unfold takeExc
  dsimp only
  refine ⟨fun hsp => ?_, fun hsp hx => ?_, fun hsp hx hh => ?_⟩
  · rw [hsp]; rfl
  · rw [hsp, if_neg (by decide), if_pos]
    · rfl
    · change (psrExl ((flush e s).eng e).psr || _) = true
      simpa using hx
  · rw [hsp, if_neg (by decide), if_neg]
    · rfl
    · change ¬ (psrExl ((flush e s).eng e).psr || _) = true
      simpa [hx] using hh

end

section
variable {x : Engine} {f : List DWord} (hf : f.length = 8)
include hf

theorem ofLe_alcRead_framed (k : Fin 8) : ofLe ((x.framed f).alcRead ((x.rg 31).toNat - 64 + 8 * k) 8) = (f.getD k 0).toNat :=
  ofLe_alcRead_alcWrite x _ (by omega)

theorem alcByte_framed_outside (hsp : 64 ≤ (x.rg 31).toNat) {a : Nat} (ha : a < (x.rg 31).toNat - 64 ∨ (x.rg 31).toNat ≤ a) :
    (x.framed f).alcByte a = x.alcByte a := by
  refine (alcByte_alcWrite x _ _ a).trans (if_neg ?_)
  rw [length_flatMap_toLe, hf]
  omega

end

theorem rg_framed_sp (x : Engine) (f : List DWord) : (x.framed f).rg 31 = x.rg 31 - 64 := rg_setRg ..

theorem rg_framed_other (x : Engine) (f : List DWord) {r : BitVec 5} (h : r ≠ 31) : (x.framed f).rg r = x.rg r :=
  rg_setRg_other _ _ _ _ h

theorem rg_handling (y : Engine) (f : List DWord) (handler : BitVec 32) (r : BitVec 5) :
    (y.handling f handler).rg r = if r = 1 then f.getD 2 0 else if r = 2 then f.getD 3 0 else y.rg r := by
  change ((y.setRg 1 (f.getD 2 0)).setRg 2 (f.getD 3 0)).rg r = _
  by_cases h2 : r = 2
  · subst h2; exact rg_setRg ..
  · rw [rg_setRg_other _ _ _ _ h2, if_neg h2]
    split
    · next h1 => subst h1; exact rg_setRg ..
    · next h1 => exact rg_setRg_other _ _ _ _ h1

theorem alcByte_handling (y : Engine) (f : List DWord) (handler : BitVec 32) (a : Nat) :
    (y.handling f handler).alcByte a = y.alcByte a := rfl

theorem alcRead_handling (y : Engine) (f : List DWord) (handler : BitVec 32) (a n : Nat) :
    (y.handling f handler).alcRead a n = y.alcRead a n := rfl

/-- The Glovebox and the phase are no part of the entry into a handler. -/
theorem handling_keeps (y : Engine) (f : List DWord) (handler : BitVec 32) : (y.handling f handler).gb = y.gb ∧
    (y.handling f handler).gbValid = y.gbValid ∧ (y.handling f handler).gbOvf = y.gbOvf ∧ (y.handling f handler).phase = y.phase := by
  unfold Engine.handling
  rw [setRg_eq _ (by decide), setRg_eq _ (by decide)]
  exact ⟨rfl, rfl, rfl, rfl⟩

theorem psr_handling (y : Engine) (f : List DWord) (handler : BitVec 32) : (y.handling f handler).psr = psrSet y.psr 16 true := rfl

/-- EXL set (Table 3-5). -/
theorem psrSet_exl (p : Word) : psrSet p 16 true = p ||| 0x00010000 := by
  refine BitVec.eq_of_getLsbD_eq fun i hi => ?_
  have h := bit_setFld p 16 1 1 i
  have hm : (0x00010000 : Word) = BitVec.twoPow 32 16 := by decide
  unfold bit at h
  rw [psrSet, b2n, if_pos rfl, h, hm, BitVec.getLsbD_or, BitVec.getLsbD_twoPow]
  by_cases hi16 : i = 16
  · subst hi16; simp
  · rw [if_neg (by omega)]
    simp [hi, Ne.symm hi16]

/-- A valid stack pointer has room for the frame below it (R110). -/
theorem spValid_room {c : Chan} {sp : DWord} (h : spValid c sp = true) : 64 ≤ sp.toNat := by
  simp only [spValid, Bool.and_eq_true, decide_eq_true_eq] at h
  omega

theorem toNat_sub_frame {sp : DWord} (h : 64 ≤ sp.toNat) : (sp - 64).toNat = sp.toNat - 64 := by
  rw [BitVec.toNat_sub_of_le (by simpa [BitVec.le_def] using h)]
  rfl

/-- The frame of Table 3-10 as the statement writes it. -/
theorem excFrame_eq (x : Engine) (cause : Nat) (info : Word) (epc : BitVec 32) (eaddr : DWord) (strm : Option (BitVec 3)) :
    excFrame x cause info epc eaddr strm = [epc.setWidth 64, x.psr.setWidth 64, BitVec.ofNat 64 (cause + info.toNat * 2 ^ 32), eaddr,
      x.rg 1, x.rg 2, estrm x strm, 0] := by
  simp [excFrame, BitVec.ofNat_toNat]

/-- Settles O6: the three ways of taking an exception, and what each leaves of the engine. -/
theorem exceptionEntry : Obligations.ExceptionEntry := by
  unfold Obligations.ExceptionEntry
  intro e cause info epc eaddr strm s
  dsimp only
  obtain ⟨hinvalid, hends, hhandled⟩ := takeExc_cases e cause info epc eaddr strm s
  rw [← excFrame_eq]
  generalize hs1 : flush e s = s1 at *
  generalize hx : s1.eng e = x at *
  generalize hfr : excFrame x cause info epc eaddr strm = f at *
  have hlen : f.length = 8 := hfr ▸ rfl
  have h3 : f.getD 3 0 = eaddr := hfr ▸ rfl
  cases hsp : spValid (chanOf s1 e) (x.rg 31) with
  | false =>
    refine ⟨_, hinvalid hsp, rfl, rfl, rfl, rfl, fun _ => ?_, nofun⟩
    cases hgb : x.gbValid <;> simp [beginEnd, glovebox, hgb]
  | true =>
    have hroom := spValid_room hsp
    by_cases hh : psrExl x.psr = true ∨ (chanOf s1 e).handler = 0
    · refine ⟨_, hends hsp hh, rfl, rfl, rfl, rfl, nofun, fun _ => ⟨ofLe_alcRead_framed hlen, fun a ha => ?_, ?_, fun r _ _ h31 => ?_,
        rfl, rfl, rfl, fun _ => ⟨rfl, ?_, ?_, rfl, rfl⟩, fun hx' hh' => ?_⟩⟩
      · exact alcByte_framed_outside hlen hroom ha
      · exact (congrArg _ (rg_framed_sp x f)).trans (toNat_sub_frame hroom)
      · exact rg_framed_other x f h31
      · exact rg_framed_other x f (by decide)
      · exact rg_framed_other x f (by decide)
      · exact absurd hh (not_or.mpr ⟨by simp [hx'], hh'⟩)
    · obtain ⟨hexl, hne⟩ := not_or.mp hh
      rw [Bool.not_eq_true] at hexl
      obtain ⟨kgb, kvalid, kovf, kphase⟩ := handling_keeps (x.framed f) f (chanOf s1 e).handler
      refine ⟨_, hhandled hsp hexl hne, rfl, rfl, rfl, rfl, nofun, fun _ => ⟨fun k => ?_, fun a ha => ?_, ?_,
        fun r h1 h2 h31 => ?_, kgb, kvalid, kovf, fun h => absurd h hh, fun _ _ => ⟨kphase, ?_, ?_, ?_, rfl⟩⟩⟩
      · rw [alcRead_handling]
        exact ofLe_alcRead_framed hlen k
      · rw [alcByte_handling]
        exact alcByte_framed_outside hlen hroom ha
      · rw [rg_handling, if_neg (by decide), if_neg (by decide), rg_framed_sp, toNat_sub_frame hroom]
      · rw [rg_handling, if_neg h1, if_neg h2, rg_framed_other x f h31]
      · rw [rg_handling, if_pos rfl]
      · rw [rg_handling, if_neg (by decide), if_pos rfl, h3]
      · rw [psr_handling, psrSet_exl]
        rfl

/-! ## TRAP and ERET -/

/-- A register target is the register's low word without its bits [2:0] (R187). -/
theorem regTarget_eq (v : DWord) : regTarget v = v.setWidth 32 &&& 0xFFFFFFF8 := by
  have hmask : ∀ i < 32, BitVec.getLsbD (0xFFFFFFF8 : BitVec 32) i = decide (3 ≤ i) := by decide
  refine BitVec.eq_of_getLsbD_eq fun i hi => ?_
  rw [regTarget, BitVec.getLsbD_ofNat, show (8 : Nat) = 2 ^ 3 from rfl, Nat.testBit_mul_two_pow, fld_testBit, BitVec.getLsbD_and,
    hmask i hi, BitVec.getLsbD_setWidth]
  by_cases h3 : 3 ≤ i
  · have h29 : i - 3 < 29 := by omega
    have hadd : 3 + (i - 3) = i := by omega
    simp [hi, h3, h29, hadd, bit]
  · simp [h3]

theorem ofNat_lowN (v : DWord) : BitVec.ofNat 32 (lowN 32 v) = v.setWidth 32 := by
  refine BitVec.eq_of_toNat_eq ?_
  simp [lowN]

theorem not_frameOk_iff (c : Chan) (x : Engine) : (!frameOk c x) = true ↔
    psrExl x.psr = false ∨ (x.rg 31).toNat % 64 ≠ 0 ∨ (x.rg 31).toNat < c.stkLo ∨ c.stkHi < (x.rg 31).toNat + 64 := by
  simp only [frameOk, Bool.not_eq_true', Bool.and_eq_false_iff, decide_eq_false_iff_not, beq_eq_false_iff_ne, Nat.not_le, or_assoc]

/-- Settles O7: TRAP is its body, and ERET's guards are those of the frame and the target. -/
theorem trapAndEret : Obligations.TrapAndEret := by
  unfold Obligations.TrapAndEret
  refine ⟨does_of_insn fun _ _ _ => rfl, does_of_insn fun e w s => ?eret⟩
  case eret =>
    change execEret e w s = _
    unfold execEret
    simp only [not_frameOk_iff, regTarget_eq, ofNat_lowN]
    rfl
end Sys2Proof.Machine
end

section
/-! Fetching and the exceptions of decoding (R103, R104, R130 to R132, R184, R458, R466), and the end of an unhandled exception (R674). -/

namespace Sys2Proof.Machine

/-! ## Reads of program space (R458, R466) -/

theorem linesRead_one (e : EngId) (what a : Nat) (s : State) : linesRead e what 1 a s = lineRead e what a s := by
  simp only [linesRead]
  cases lineRead e what a s with
  | ok b t => exact congrArg (Got.ok · t) (List.append_nil b)
  | wait t => rfl

/-- A word that does not cross its line is read from that line alone. -/
theorem psRead_word (e : EngId) (what off : Nat) (s : State) (h : (s.psBase + BitVec.ofNat 64 off).toNat % 64 ≤ 56) :
    let a := (s.psBase + BitVec.ofNat 64 off).toNat
    psRead e what off 8 s = (lineRead e what a s).bind fun b t => .ok (slice b (a % 64) 8) t := by
  unfold psRead
  generalize (s.psBase + BitVec.ofNat 64 off).toNat = a at *
  dsimp only
  rw [show (a + 8 - 1) / 64 - a / 64 + 1 = 1 by omega, linesRead_one]

section
variable {e : EngId} {what a : Nat} {s : State} (hfl : s.vitFlush = false)
include hfl

/-- A line that the wing's slice holds is at hand. -/
theorem lineRead_held (hst : (s.line (a / 64)).st ≠ .I) (hin : inSlice (s.line (a / 64)) (sliceOf s (e.g.toNat / 8)) = true) :
    lineRead e what a s = .ok (s.line (a / 64)).data s := by
  unfold lineRead obtain_
  dsimp only
  rw [hfl, if_neg (by decide), if_pos hst, if_pos hin]

/-- The first read of a line that the agent does not hold issues its fill. -/
theorem lineRead_fill (hst : (s.line (a / 64)).st = .I) (hbusy : lineBusy s (a / 64) = false)
    (hr : ∀ r ∈ (s.eng e).reads, r.what ≠ what) :
    let k := BitVec.ofNat 2 (sliceOf s (e.g.toNat / 8))
    lineRead e what a s = .wait (issue (cohTxn s k 2 (a / 64) [] (.fill k))
      (s.modEng e (fun y => { y with reads := y.reads ++ [{ what := what, addr := BitVec.ofNat 64 a, n := 64 }] }))) := by
  have hnone : ((s.eng e).reads.any (fun r => r.what == what && r.addr.toNat / 64 == a / 64)) = false := by
    rw [List.any_eq_false]
    intro r hm hb
    simp only [Bool.and_eq_true, beq_iff_eq] at hb
    exact hr r hm hb.1
  unfold lineRead State.modEng
  dsimp only
  rw [hfl, if_neg (by decide), if_neg (by simp [hst]), hbusy, if_neg (by decide), hnone]
  rfl

end

/-! ## The fetch (R130, R131) -/

/-- The engine reads the instruction at its pc: none has begun, pc lies in program space, the prefetch buffer does not hold the word,
and no read of it has failed. -/
def Fetches (s : State) (x : Engine) : Prop :=
  x.busy = none ∧ x.pcOut = false ∧ 0x40 ≤ x.pc.toNat ∧ x.pc.toNat < s.psSize ∧ fetched x = none ∧
    ∀ r ∈ x.reads, r.what = 5 → r.err = none

/-- The prefetch buffer takes the words from `pc` on that the slice holds; how many is drawn (R131). -/
def refill (e : EngId) (pc : BitVec 32) (t : State) : State :=
  (t.draw).2.modEng e (fun y =>
    { y with buf := bufWords (t.draw).2 (sliceOf (t.draw).2 (e.g.toNat / 8)) (1 + (t.draw).1.toNat % 16) pc.toNat })

theorem fetch_reads {s : State} {e : EngId} (h : Fetches s (s.eng e)) :
    fetch e s = (psRead e 5 (s.eng e).pc.toNat 8 s).run fun _ t => refill e (s.eng e).pc t := by
  obtain ⟨hb, ho, hlo, hhi, hf, hr⟩ := h
  have herr : (s.eng e).reads.any (fun r => r.what == 5 && r.err.isSome) = false := by
    rw [List.any_eq_false]
    intro r hm he
    simp only [Bool.and_eq_true, beq_iff_eq] at he
    simp [hr r hm he.1] at he
  unfold fetch
  dsimp only
  rw [if_neg]
  · rfl
  · simp only [hb, ho, hf, herr, Option.isSome_none, Bool.false_or, Bool.or_false, Bool.or_eq_true, decide_eq_true_eq]
    omega

theorem length_bufWords_le (s : State) (k n o : Nat) : (bufWords s k n o).length ≤ n := by
  induction n generalizing o with
  | zero => exact Nat.le_refl 0
  | succ n ih =>
    unfold bufWords
    dsimp only
    split
    · exact Nat.succ_le_succ (ih _)
    · exact Nat.zero_le _

/-- The first word that the prefetch buffer takes is the one at the offset read. -/
theorem head_bufWords {s : State} {k n o : Nat} (ho : o < s.psSize)
    (hst : (s.line ((s.psBase + BitVec.ofNat 64 o).toNat / 64)).st ≠ .I)
    (hin : inSlice (s.line ((s.psBase + BitVec.ofNat 64 o).toNat / 64)) k = true) :
    (bufWords s k (n + 1) o).head? = some (BitVec.ofNat 32 o, BitVec.ofNat 64 (ofLe
      (slice (s.line ((s.psBase + BitVec.ofNat 64 o).toNat / 64)).data ((s.psBase + BitVec.ofNat 64 o).toNat % 64) 8))) := by
  unfold bufWords
  dsimp only
  rw [if_pos ⟨ho, hst, hin⟩]
  rfl

section
variable {s : State} {e : EngId} (h : Fetches s (s.eng e)) (hfl : s.vitFlush = false)
  (hw : (s.psBase + BitVec.ofNat 64 (s.eng e).pc.toNat).toNat % 64 ≤ 56)
include h hfl hw

/-- A fetch from a line that the slice holds fills the prefetch buffer, from the word at pc on. -/
theorem fetch_held (hst : (s.line ((s.psBase + BitVec.ofNat 64 (s.eng e).pc.toNat).toNat / 64)).st ≠ .I)
    (hin : inSlice (s.line ((s.psBase + BitVec.ofNat 64 (s.eng e).pc.toNat).toNat / 64)) (sliceOf s (e.g.toNat / 8)) = true) :
    fetch e s = refill e (s.eng e).pc s := by
  rw [fetch_reads h, psRead_word e 5 _ s hw, lineRead_held hfl hst hin]
  rfl

/-- A fetch from a line that the agent does not hold waits for its fill. -/
theorem fetch_fills (hst : (s.line ((s.psBase + BitVec.ofNat 64 (s.eng e).pc.toNat).toNat / 64)).st = .I)
    (hbusy : lineBusy s ((s.psBase + BitVec.ofNat 64 (s.eng e).pc.toNat).toNat / 64) = false)
    (hr : ∀ r ∈ (s.eng e).reads, r.what ≠ 5) :
    let k := BitVec.ofNat 2 (sliceOf s (e.g.toNat / 8))
    let a := s.psBase + BitVec.ofNat 64 (s.eng e).pc.toNat
    fetch e s = issue (cohTxn s k 2 (a.toNat / 64) [] (.fill k))
      (s.modEng e (fun y => { y with reads := y.reads ++ [{ what := 5, addr := a, n := 64 }] })) := by
  dsimp only
  rw [fetch_reads h, psRead_word e 5 _ s hw, lineRead_fill hfl hst hbusy hr, BitVec.ofNat_toNat (x := _ + _), BitVec.setWidth_eq]
  rfl

end

/-! ## The exceptions -/

section
variable {e : EngId} {s : State} (ht : s.boot.tstMode = false) (hrun : canRun (s.eng e) = true) (hbusy : (s.eng e).busy = none)
  (hheld : engHeld s e = false)
include ht hrun hbusy hheld

/-- An engine that decodes fetches, and a word whose opcode no instruction has raises ILLEGAL (R104). -/
theorem illegalOpcode_decodes (hfail : failedRead (s.eng e) = none) (w : BitVec 64) :
    let t := fetch e s
    (fetched (t.eng e) = some w → (t.eng e).pcOut = false → decodeInsn e w = none →
      exec (.illegalOpcode e w) s = .next (excAt e 0x01 (w.extractLsb' 32 32) 0 none t)) ∧
    (fetched (t.eng e) ≠ some w ∨ decodeInsn e w ≠ none → exec (.illegalOpcode e w) s = .next t) := by
  have hexec : exec (.illegalOpcode e w) s = .next
      (if fetched ((fetch e s).eng e) == some w && !((fetch e s).eng e).pcOut && (decodeInsn e w).isNone then
        excAt e 0x01 (w.extractLsb' 32 32) 0 none (fetch e s) else fetch e s) := by
    rw [← ofNat_fld]
    refine (act_next ht _).trans (congrArg _ (if_pos ?_))
    simp [hrun, hbusy, hheld, hfail]
  dsimp only
  rw [hexec]
  refine ⟨fun hf ho hd => congrArg _ (if_pos (by simp [hf, ho, hd])), fun hno => congrArg _ (if_neg ?_)⟩
  simp only [Bool.and_eq_true, beq_iff_eq, Option.isNone_iff_eq_none]
  rintro ⟨⟨hf, -⟩, hd⟩
  exact hno.elim (absurd hf) (absurd hd)

/-- A pc outside program space raises PS_RANGE (R132, R184). -/
theorem fetchFault_range (h : (s.eng e).pcOut = true ∨ (s.eng e).pc.toNat < 0x40 ∨ s.psSize ≤ (s.eng e).pc.toNat) :
    exec (.instructionFetchFault e .range) s = .next (excAt e 0x02 0 ((s.eng e).pc.setWidth 64) none s) := by
  refine (act_next ht _).trans (congrArg _ ((if_pos ?_).trans ((if_pos ?_).trans ?_)))
  · simp [hrun, hbusy, hheld]
  · simpa [or_assoc] using h
  · rw [BitVec.ofNat_toNat]

/-- A failed read of the instruction raises its bus cause (R132). -/
theorem fetchFault_bus {code : BitVec 3} (h : ∃ r ∈ (s.eng e).reads, r.what = 5 ∧ r.err = some code) :
    exec (.instructionFetchFault e (.bus code)) s =
      .next (excAt e (busCause code) 2 (s.psBase + (s.eng e).pc.setWidth 64) none s) := by
  refine (act_next ht _).trans (congrArg _ ((if_pos ?_).trans ((if_pos ?_).trans ?_)))
  · simp [hrun, hbusy, hheld]
  · obtain ⟨r, hm, hw, he⟩ := h
    exact List.any_eq_true.mpr ⟨r, hm, by simp [hw, he]⟩
  · rw [BitVec.ofNat_toNat]

end

/-- A work order that ends completes once its writes are answered (R674). -/
theorem unhandledEnd_completes {e : EngId} {s : State} {status : Byte} (ht : s.boot.tstMode = false)
    (h : (s.eng e).phase = .ending status) :
    exec (.unhandledExceptionEnd e) s = .next (if writesOpen s e then s else
      endOrder e status (s.eng e).acked (s.modChan (s.eng e).ch (fun c => { c with rel := c.rel ++ (s.eng e).effects }))) := by
  refine (act_next ht _).trans (congrArg _ ?_)
  rw [h]
  rfl

/-- Settles O12: the fetch by the line's state, and each exception by its guard. -/
theorem engineExceptions : Obligations.EngineExceptions := by
  unfold Obligations.EngineExceptions
  intro e s ht
  dsimp only
  refine ⟨fun w hrun hbusy ho hheld hfail hf hd => ?present,
    fun w hrun hbusy hheld hfail => illegalOpcode_decodes ht hrun hbusy hheld hfail w,
    fun hf => ?kept, fun hbusy ho hlo hhi hf hfl hr hw => ?fetches, fun hrun hbusy hheld h => fetchFault_range ht hrun hbusy hheld h,
    fun code hrun hbusy hheld _ _ _ h => ?bus, fun status h => unhandledEnd_completes ht h⟩
  case present =>
    have hsame : fetch e s = s := fetch_done (.inr (by rw [hf]; rfl))
    have hill := (illegalOpcode_decodes ht hrun hbusy hheld hfail w).1
    rw [hsame] at hill
    exact hill hf ho hd
  case kept => exact fetch_done (.inr (Option.isSome_iff_ne_none.mpr hf))
  case bus =>
    refine (fetchFault_bus ht hrun hbusy hheld h).trans (congrArg (fun c => Host.Outcome.next (excAt e c 2 _ none s)) ?_)
    clear h
    revert code
    decide
  case fetches =>
    have hfetch : Fetches s (s.eng e) := ⟨hbusy, ho, hlo, hhi, hf, hr⟩
    rw [← BitVec.ofNat_toNat] at hw ⊢
    refine ⟨fun hst hin => ⟨_, fetch_held hfetch hfl hw hst hin, ?_, ?_⟩, fun hst hb hr5 => fetch_fills hfetch hfl hw hst hb hr5⟩
    · exact (length_bufWords_le ..).trans (by omega)
    · rw [Nat.add_comm 1]
      have hpc : (s.eng e).pc = BitVec.ofNat 32 (s.eng e).pc.toNat := by simp
      refine (head_bufWords (s := (s.draw).2) hhi hst hin).trans ?_
      rw [← hpc]
      rfl

end Sys2Proof.Machine
end

section
/-! Checkpoints that fall due, the residue they force out, and the commit (R111 to R113, R168, R214, Table 3-7). -/

namespace Sys2Proof.Machine

/-! ## Falling due -/

/-- A mark that a checkpoint is due keeps an earlier one (R111). -/
theorem markDue_eq (e : EngId) (s : State) :
    markDue e s = s.setEng e { s.eng e with due := some ((s.eng e).due.getD s.now) } := by
  refine congrArg (fun d => s.setEng e { s.eng e with due := d }) ?_
  cases (s.eng e).due <;> rfl

section
variable {e : EngId} {s : State} (ht : s.boot.tstMode = false)
include ht

/-- The byte interval marks a running engine's checkpoint due. -/
theorem byteInterval_marks (hr : (s.eng e).phase = .run) (h0 : 0 < (s.chan (s.eng e).ch).ckBytes)
    (h : (s.chan (s.eng e).ch).ckBytes ≤ (s.eng e).bytesSince) : exec (.ckptByteIntervalExpiry e) s = .next (markDue e s) :=
  (act_next ht _).trans (congrArg _ (if_pos (by simp only [chanOf, hr, h0, h, beq_self_eq_true, decide_true, Bool.and_true])))

/-- The time interval marks a running engine's checkpoint due. -/
theorem timeInterval_marks (hr : (s.eng e).phase = .run) (h0 : 0 < (s.chan (s.eng e).ch).ckTicks)
    (h : (s.chan (s.eng e).ch).ckTicks ≤ (s.now - (s.eng e).ckAt).toNat) : exec (.ckptTimeIntervalExpiry e) s = .next (markDue e s) :=
  (act_next ht _).trans (congrArg _ (if_pos (by simp only [chanOf, hr, h0, h, beq_self_eq_true, decide_true, Bool.and_true])))

/-- An overdue checkpoint writes the residue, and begins where the boundary is eligible (R168). -/
theorem residueForcedFlush_flushes {t : DWord} (hrun : canRun (s.eng e) = true) (hheld : engHeld s e = false)
    (hcur : (s.eng e).cur ≠ none) (hreads : ∀ r ∈ (s.eng e).reads, r.what = 4) (hdue : (s.eng e).due = some t)
    (hres : (s.eng e).residue ≠ none) (h : (s.chan (s.eng e).ch).ckTicks ≤ (s.now - t).toNat) :
    exec (.residueForcedFlush e) s = .next
      (if ((s.eng e).cur.map Cur.elig).getD false then startCkpt e (s.eng e).pc .go (flush e s) else flush e s) := by
  have hlate : overdue s e = true := by simp only [overdue, hdue, chanOf, h, decide_true]
  have hall : (s.eng e).reads.all (fun r => r.what == 4) = true := List.all_eq_true.mpr fun r hm => beq_iff_eq.mpr (hreads r hm)
  refine (act_next ht _).trans (congrArg _ (if_pos ?_))
  simp [hrun, hheld, hlate, hall, Option.isSome_iff_ne_none, hcur, hres]

end

/-! ## The commit -/

theorem Tbl.get_keep {α : Type} (d : α) (p : Nat → Bool) (t : Tbl α) {k : Nat} (h : p k = true) :
    Tbl.get d (Tbl.keep p t) k = Tbl.get d t k := by
  induction t with
  | nil => rfl
  | cons q r ih =>
    obtain ⟨k', v⟩ := q
    unfold Tbl.keep at ih ⊢
    by_cases hk : k = k'
    · subst hk
      rw [List.filter_cons, if_pos h, Tbl.get, Tbl.get, if_pos rfl, if_pos rfl]
    · rw [Tbl.get, if_neg hk, List.filter_cons]
      split
      · rw [Tbl.get, if_neg hk, ih]
      · exact ih

/-- What a change of the owned links leaves alone. -/
theorem modOwned_keeps {β : Type} (g : State → β) (hg : ∀ t l x, g (State.setLink t l x) = g t) (ch : BitVec 12) (f : Link → Link)
    (s : State) : g (modOwned ch f s) = g s := by
  refine foldS_keeps g (fun l t => ?_) (upTo 32) s
  split
  · exact hg ..
  · rfl

theorem chan_eng_tmAdd (k n : Nat) (s : State) : (∀ m, (tmAdd k n s).chan m = s.chan m) ∧ ∀ f, (tmAdd k n s).eng f = s.eng f := by
  unfold tmAdd
  split <;> exact ⟨fun _ => rfl, fun _ => rfl⟩

/-- The channel at a commit: the checkpoint area taken, and the effects with the hub, behind the record entries (R113, R214). -/
def committedChan (s : State) (x : Engine) (pc : BitVec 32) (c : Chan) : Chan :=
  { c with ck := ckptOf x pc, ports := portsOf x c.ports, fresh := false, replays := 0, lateTrap := none, recAes := recHoldsAes s x,
           rel := c.rel ++ xrecEffects s x ++ x.effects }

section
variable (e : EngId) (pc : BitVec 32) (s : State)

/-- The channels and the engines after a commit are those of its two writes. -/
theorem commitStep_chan_eng :
    let u := (s.modChan (s.eng e).ch (committedChan s (s.eng e) pc)).setEng e ((s.eng e).committedAt pc s.now)
    (∀ n, (commitStep e pc s).chan n = u.chan n) ∧ ∀ f, (commitStep e pc s).eng f = u.eng f := by
  dsimp only
  unfold commitStep
  extract_lets x ch s1 s2
  obtain ⟨tc, te⟩ := chan_eng_traceWord 2 ch e (s.chan ch).sec (tmAdd 25 1 s2)
  obtain ⟨mc, me⟩ := chan_eng_tmAdd 25 1 s2
  exact ⟨fun n => (tc n).trans ((mc n).trans (modOwned_keeps (State.chan · n) (fun _ _ _ => rfl) ch linkCommit _)),
    fun f => (te f).trans ((me f).trans (modOwned_keeps (State.eng · f) (fun _ _ _ => rfl) ch linkCommit _))⟩

theorem chan_commitStep : (commitStep e pc s).chan (s.eng e).ch = committedChan s (s.eng e) pc (s.chan (s.eng e).ch) :=
  ((commitStep_chan_eng e pc s).1 _).trans (chan_modChan s _ _)

theorem chan_commitStep_other {n : BitVec 12} (h : n ≠ (s.eng e).ch) : (commitStep e pc s).chan n = s.chan n :=
  ((commitStep_chan_eng e pc s).1 _).trans (chan_modChan_other s _ h)

theorem eng_commitStep : (commitStep e pc s).eng e = (s.eng e).committedAt pc s.now :=
  ((commitStep_chan_eng e pc s).2 _).trans (eng_setEng ..)

theorem eng_commitStep_other {f : EngId} (h : f ≠ e) : (commitStep e pc s).eng f = s.eng f :=
  ((commitStep_chan_eng e pc s).2 _).trans (eng_setEng_other _ _ _ _ h)

end

/-- The commit waits for the answers of the data writes, and a failed one raises its exception (R113). -/
theorem checkpointCommit_cases {e : EngId} {pc : BitVec 32} {k : AfterCk} {s : State} (ht : s.boot.tstMode = false)
    (h : (s.eng e).phase = .commit pc k) :
    exec (.checkpointCommit e) s = .next (if writesOpen s e then s else if (s.eng e).wErr.isSome then raiseImprecise e s
      else afterCommit e pc k (commitStep e pc s)) := by
  refine (act_next ht _).trans (congrArg _ ?_)
  rw [h]

/-- Settles O13: each happening by its guard, and the commit by the channel and the engine it leaves. -/
theorem checkpoints : Obligations.Checkpoints := by
  unfold Obligations.Checkpoints
  refine ⟨fun e s ht => ⟨fun hr h0 h => ?bytes, fun hr h0 h => ?time, fun t hrun hheld hcur hreads hdue hres h => ?residue⟩,
    fun e pc k s ht hph => ⟨fun ho => ?waits, fun ho he => ?fails, fun ho he => ⟨commitStep e pc s, ?commits, ?_⟩⟩⟩
  case bytes => rw [← markDue_eq]; exact byteInterval_marks ht hr h0 h
  case time => rw [← markDue_eq]; exact timeInterval_marks ht hr h0 h
  case residue => exact residueForcedFlush_flushes ht hrun hheld hcur hreads hdue hres h
  case waits => rw [checkpointCommit_cases ht hph, if_pos ho]
  case fails => rw [checkpointCommit_cases ht hph, ho, if_neg (by decide), if_pos (Option.isSome_iff_ne_none.mpr he)]
  case commits => rw [checkpointCommit_cases ht hph, ho, he, if_neg (by decide), if_neg (by decide)]
  rw [chan_commitStep, eng_commitStep]
  refine ⟨rfl, rfl, rfl, rfl, rfl, fun r h1 h4 => ?_, rfl, rfl, rfl, rfl, rfl, rfl, rfl, rfl, rfl, rfl, rfl,
    fun f hf => eng_commitStep_other e pc s hf, fun n hn => chan_commitStep_other e pc s hn⟩
  exact Tbl.get_keep 0 (fun k => decide (1 ≤ k ∧ k ≤ 4)) _ (decide_eq_true ⟨h1, h4⟩)

end Sys2Proof.Machine
end

section
/-! A MOVE from Alcove to Alcove (R108, R137, R160, R161): its checks, its one burst, and the engine that it leaves. -/

namespace Sys2Proof.Machine

/-! ## The start of a move-class instruction (R138, R159, R160) -/

theorem needDefined_ok {e : EngId} {i : BitVec 3} {s : State} (h : ((s.eng e).cur_ i).desc ≠ 0) : needDefined e i s = .ok () s :=
  if_pos (bne_iff_ne.mpr h)

/-- A descriptor already checked is at hand (R144). -/
theorem needDesc_checked {e : EngId} {i : BitVec 3} {s : State} (h : Tbl.get [] (s.eng e).sd i.toNat ≠ []) :
    needDesc e i s = .ok (decDesc (Tbl.get [] (s.eng e).sd i.toNat)) s := by
  unfold needDesc
  dsimp only
  split
  · next h0 => exact absurd h0 h
  · rfl

theorem must_ok {b : Bool} (h : b = true) (exc : State → State) (s : State) : must b exc s = .ok () s := if_pos h

/-- Both streams of a move pass the checks of R160, with their descriptors at hand. -/
structure Passes (x : Engine) (i j : BitVec 3) (bad over_ : Bool → Side → Bool) (a b : Side) : Prop where
  defined_src : (x.cur_ i).desc ≠ 0
  defined_dst : (x.cur_ j).desc ≠ 0
  checked_src : Tbl.get [] x.sd i.toNat ≠ []
  checked_dst : Tbl.get [] x.sd j.toNat ≠ []
  side_src : a = sideOf x i (decDesc (Tbl.get [] x.sd i.toNat))
  side_dst : b = sideOf x j (decDesc (Tbl.get [] x.sd j.toNat))
  distinct : i ≠ j
  reads : a.d.dir = false
  writes : b.d.dir = true
  good_src : bad false a = false ∧ a.misHead = false
  good_dst : bad true b = false ∧ b.misHead = false
  fits_src : over_ false a = false
  fits_dst : over_ true b = false

theorem checkMove_passes {e : EngId} {i j : BitVec 3} {bad over_ : Bool → Side → Bool} {s : State} {a b : Side}
    (h : Passes (s.eng e) i j bad over_ a b) : checkMove e (some i) j bad over_ s = .ok (some a, b) s := by
  obtain ⟨hi, hj, hsi, hsj, ha, hb, hij, hr, hw, ⟨hba, hma⟩, ⟨hbb, hmb⟩, hoa, hob⟩ := h
  have hai : a.i = i := by rw [ha]; rfl
  have hbd : (decDesc (Tbl.get [] (s.eng e).sd j.toNat)).dir = true := by rw [hb] at hw; exact hw
  unfold checkMove
  simp only [Option.toList, List.singleton_append, List.foldl, Flow.bind, needDefined_ok hi, needDefined_ok hj, needDesc_checked hsi,
    needDesc_checked hsj]
  rw [← ha, ← hb]
  simp only [Option.getD, hr, hai, hbd, hba, hma, hbb, hmb, hoa, hob, Bool.not_false, Bool.and_true, must_ok, bne_iff_ne.mpr hij]

/-- A move-class instruction that has started, with the bases and lengths sampled (R138). -/
def Cur.sampled (cap : Bool) (w : IW) (a b : Side) : Cur :=
  { w := w, elig := carriedReg w.rd && !cap, srcBase := a.base, srcLen := a.len, dstBase := b.base, dstLen := b.len }

theorem startMove_starts {e : EngId} {cap : Bool} {w : IW} {i : BitVec 3} {bad over_ : Bool → Side → Bool} {s : State} {a b : Side}
    (hc : (s.eng e).cur = none) (h : Passes (s.eng e) i w.ss bad over_ a b) :
    startMove e cap w (some i) bad over_ s = .ok (some a, b) (s.setEng e { s.eng e with cur := some (Cur.sampled cap w a b) }) := by
  unfold startMove
  rw [hc, checkMove_passes h]
  rfl

/-! ## Alcove streams (R137, R145) -/

section
variable {d : Desc} (h : d.kind = 7)
include h

theorem sl_alcove : d.sl = false := by simp [Desc.sl, h]

theorem mem_alcove : d.mem = false := by simp [Desc.mem, h]

theorem addrAt_alcove (base : DWord) (p : Nat) : d.addrAt base p = base + BitVec.ofNat 64 p := if_neg (by omega)

theorem streamAddr_alcove (e : EngId) (i : BitVec 3) (base : DWord) (p : Nat) (s : State) :
    streamAddr e i d base p s = .ok (base + BitVec.ofNat 64 p, 0) s := by
  rw [streamAddr, if_neg (by omega), addrAt_alcove h]

theorem burstAt_alcove (addr : DWord) (p room : Nat) : d.burstAt addr p room = 256 - addr.toNat % 256 := by
  simp [Desc.burstAt, Desc.maxBurst, toBoundary, sl_alcove h, mem_alcove h, h]

theorem destReady_alcove (e : EngId) (a : DWord) (n : Nat) (s : State) : destReady e d a n s = .ok () s := by
  simp [destReady, destDead, slGate, destWaits, Flow.bind, sl_alcove h, mem_alcove h, h]

theorem source_alcove (e : EngId) (i : BitVec 3) (base : DWord) (p n : Nat) (missing : State → State) (s : State) :
    source e i d base p 0 n missing s = .ok ((s.eng e).alcRead (base + BitVec.ofNat 64 p).toNat n, none) s := by
  rw [source, if_pos h, addrAt_alcove h, Nat.sub_zero, Nat.zero_add]

theorem destWrite_alcove (e : EngId) (i : BitVec 3) (a : DWord) (b : List Byte) (s : State) :
    destWrite e i d a b s =
      s.setEng e { (s.eng e).alcWrite a.toNat b with bytesSince := (s.eng e).bytesSince + b.length } := if_pos h

end

/-! ## One burst (R121, R161) -/

theorem cur_setPos (x : Engine) (i k : BitVec 3) (p : Nat) :
    (x.setPos i p).cur_ k = if k = i then { x.cur_ i with pos := BitVec.ofNat 40 p } else x.cur_ k := by
  unfold Engine.cur_ Engine.setPos
  rw [Tbl.get_put]
  exact ite_congr (propext ⟨BitVec.eq_of_toNat_eq, congrArg _⟩) (fun _ => rfl) (fun _ => rfl)

/-- The engine after a burst of `n` bytes is counted: both positions and the count register (R121, R161). -/
def Engine.counted (x : Engine) (rd : BitVec 5) (a : Side) (j : BitVec 3) (n : Nat) : Engine :=
  let y := Engine.setPos { x with reads := x.reads.filter (fun r => r.what != 0) } a.i ((x.cur_ a.i).pos.toNat + n)
  { (y.setPos j ((y.cur_ j).pos.toNat + n)).setRg rd (x.rg rd - BitVec.ofNat 64 n) with
    cur := x.cur.map (fun c => { c with doneBytes := c.doneBytes + n }) }

/-- A burst whose source is no link changes the engine only. -/
theorem countBurst_counted {a : Side} (h : a.d.kind ≠ 4) (e : EngId) (rd : BitVec 5) (j : BitVec 3) (n : Nat) (s : State) :
    countBurst e rd (some a) j n s = s.setEng e ((s.eng e).counted rd a j n) := by
  have hcur (x : Engine) (r : BitVec 5) (v : DWord) : (x.setRg r v).cur = x.cur := by unfold Engine.setRg; split <;> rfl
  unfold countBurst advanceSource dropReads
  dsimp only
  rw [if_neg h]
  simp only [State.modEng, eng_setEng, setEng_setEng, Engine.counted, hcur]
  rfl

section
variable (x : Engine) {rd : BitVec 5} (a : Side) {j : BitVec 3} (n : Nat)

theorem rg_counted : (x.counted rd a j n).rg rd = if rd = 0 then 0 else x.rg rd - BitVec.ofNat 64 n := rg_setRg ..

theorem rg_counted_other {r : BitVec 5} (h : r ≠ rd) : (x.counted rd a j n).rg r = x.rg r := rg_setRg_other _ _ _ _ h

theorem counted_frame (h : rd ≠ 0) : (x.counted rd a j n).alc = x.alc ∧ (x.counted rd a j n).pc = x.pc ∧
    (x.counted rd a j n).psr = x.psr ∧ (x.counted rd a j n).bytesSince = x.bytesSince ∧ (x.counted rd a j n).issued = x.issued ∧
    (x.counted rd a j n).residue = x.residue := by
  simp only [Engine.counted, setRg_eq _ h]
  exact ⟨rfl, rfl, rfl, rfl, rfl, rfl⟩

theorem cur_counted (h : rd ≠ 0) (hij : a.i ≠ j) (k : BitVec 3) : (x.counted rd a j n).cur_ k =
    if k = j ∨ k = a.i then { x.cur_ k with pos := BitVec.ofNat 40 ((x.cur_ k).pos.toNat + n) } else x.cur_ k := by
  have hc (y : Engine) : (y.setRg rd (x.rg rd - BitVec.ofNat 64 n)).cur_ k = y.cur_ k := by rw [setRg_eq _ h]; rfl
  have hr : Engine.cur_ { x with reads := x.reads.filter (fun r => r.what != 0) } = x.cur_ := rfl
  refine (hc _).trans ?_
  simp only [cur_setPos, hr]
  by_cases hj : k = j
  · simp [hj, Ne.symm hij]
  · by_cases hi : k = a.i
    · simp [hi, hij]
    · simp [hj, hi]

end

theorem flush_none {e : EngId} {s : State} (h : (s.eng e).residue = none) : flush e s = s := by
  unfold flush
  dsimp only
  rw [h]

theorem flushFirst_none {e : EngId} {s : State} (need : Residue → Bool) (h : (s.eng e).residue = none) : flushFirst e need s = s := by
  unfold flushFirst
  rw [h]

/-- After the last burst of an instruction that holds no residue and whose count register is not carried, it retires (Table 4-5). -/
theorem atBoundary_retires {e : EngId} {rd : BitVec 5} {s : State} (hres : (s.eng e).residue = none) (hrd : carriedReg rd = false)
    (h0 : (s.eng e).rg rd = 0) : atBoundary e rd true s = s.setEng e (s.eng e).retire := by
  have hflush : (if overdue s e = true then flush e s else s) = s := by
    rw [flush_none hres]
    exact ite_self s
  unfold atBoundary
  dsimp only
  rw [hflush, hrd, if_neg (by simp), h0, if_pos (by decide)]
  rfl

/-- The engine after a burst of `n` bytes from Alcove to Alcove. -/
def Engine.copied (x : Engine) (rd : BitVec 5) (a b : Side) (n : Nat) : Engine :=
  let bytes := x.alcRead (a.base + BitVec.ofNat 64 (x.cur_ a.i).pos.toNat).toNat n
  let y := x.alcWrite (b.base + BitVec.ofNat 64 (x.cur_ b.i).pos.toNat).toNat bytes
  Engine.counted { y with bytesSince := x.bytesSince + n } rd a b.i n

/-- A pass between two Alcove streams whose count fits one burst copies the bytes at once. -/
theorem burstPass_alcove {e : EngId} {w : IW} {a b : Side} {s : State} (ha : a.d.kind = 7) (hb : b.d.kind = 7) (hbi : b.i = w.ss)
    (fill : Nat → Byte)
    (h0 : 0 < ((s.eng e).rg w.rd).toNat)
    (hn : ((s.eng e).rg w.rd).toNat ≤ 256 - (b.base + BitVec.ofNat 64 ((s.eng e).cur_ b.i).pos.toNat).toNat % 256) :
    burstPass e w (some a) b noStage fill s =
      atBoundary e w.rd true (s.setEng e ((s.eng e).copied w.rd a b ((s.eng e).rg w.rd).toNat)) := by
  generalize hm : ((s.eng e).rg w.rd).toNat = m at *
  have hlen : ((s.eng e).alcRead (a.base + BitVec.ofNat 64 ((s.eng e).cur_ a.i).pos.toNat).toNat m).length = m := length_alcRead ..
  rw [hbi] at hn
  unfold burstPass
  dsimp only
  rw [hm, if_neg (by omega), streamAddr_alcove hb]
  simp only [Flow.run, noStage, burstAt_alcove hb, posOf, Nat.min_eq_left hn, destReady_alcove hb, source_alcove ha, Nat.add_zero]
  simp only [Option.isSome_none, Bool.false_eq_true, if_false, List.drop_zero, List.take_of_length_le hlen.le]
  rw [if_neg h0.ne', destWrite_alcove hb, countBurst_counted (by omega), eng_setEng, setEng_setEng, hlen, Engine.copied, hbi]

section
variable {x : Engine} {rd : BitVec 5} {a b : Side} {n : Nat} (hrd : rd ≠ 0)
include hrd

theorem copied_frame : (x.copied rd a b n).pc = x.pc ∧ (x.copied rd a b n).psr = x.psr ∧
    (x.copied rd a b n).bytesSince = x.bytesSince + n ∧ (x.copied rd a b n).issued = x.issued ∧
    (x.copied rd a b n).residue = x.residue := by
  obtain ⟨-, hpc, hpsr, hbytes, hissued, hres⟩ := counted_frame
    { x.alcWrite (b.base + BitVec.ofNat 64 (x.cur_ b.i).pos.toNat).toNat
        (x.alcRead (a.base + BitVec.ofNat 64 (x.cur_ a.i).pos.toNat).toNat n) with bytesSince := x.bytesSince + n } a (j := b.i) n hrd
  exact ⟨hpc, hpsr, hbytes, hissued, hres⟩

/-- A burst of the whole count leaves the count 0. -/
theorem rg_copied_whole : (x.copied rd a b (x.rg rd).toNat).rg rd = 0 := by
  refine (rg_counted _ _ _).trans ((if_neg hrd).trans ?_)
  change x.rg rd - BitVec.ofNat 64 (x.rg rd).toNat = 0
  rw [BitVec.ofNat_toNat, BitVec.setWidth_eq, BitVec.sub_self]
  rfl

/-- The bytes of the source, as they stood, at the destination, and every other byte as it was (R161). -/
theorem alcByte_copied (k : Nat) :
    let p := (a.base + BitVec.ofNat 64 (x.cur_ a.i).pos.toNat).toNat
    let q := (b.base + BitVec.ofNat 64 (x.cur_ b.i).pos.toNat).toNat
    (x.copied rd a b n).alcByte k = if q ≤ k ∧ k < q + n then x.alcByte (p + (k - q)) else x.alcByte k := by
  dsimp only
  have halc := (counted_frame
    { x.alcWrite (b.base + BitVec.ofNat 64 (x.cur_ b.i).pos.toNat).toNat
        (x.alcRead (a.base + BitVec.ofNat 64 (x.cur_ a.i).pos.toNat).toNat n) with bytesSince := x.bytesSince + n } a (j := b.i) n hrd).1
  refine (congrArg (Tbl.get 0 · k) halc).trans ((alcByte_alcWrite x _ _ k).trans ?_)
  rw [length_alcRead]
  split
  · next h => exact getD_alcRead x _ (by omega)
  · rfl

theorem cur_copied (hij : a.i ≠ b.i) {k : BitVec 3} (hk : k = b.i ∨ k = a.i) :
    ((x.copied rd a b n).cur_ k).pos = BitVec.ofNat 40 ((x.cur_ k).pos.toNat + n) := by
  unfold Engine.copied
  dsimp only
  rw [cur_counted _ _ _ hrd hij, if_pos hk]
  rfl

end

/-- What is left of a copy of the whole count once the instruction has retired (R161). -/
theorem copied_retires {x : Engine} {rd : BitVec 5} {a b : Side} {n src dst : Nat} (hrd : rd ≠ 0) (hij : a.i ≠ b.i)
    (hsrc : (a.base + BitVec.ofNat 64 (x.cur_ a.i).pos.toNat).toNat = src)
    (hdst : (b.base + BitVec.ofNat 64 (x.cur_ b.i).pos.toNat).toNat = dst) (hn : n = (x.rg rd).toNat)
    (hi : (x.cur_ a.i).pos.toNat + n < 2 ^ 40) (hj : (x.cur_ b.i).pos.toNat + n < 2 ^ 40) :
    let y := (x.copied rd a b n).retire
    (∀ k, k < n → y.alcByte (dst + k) = x.alcByte (src + k)) ∧
      (∀ k, k < dst ∨ dst + n ≤ k → y.alcByte k = x.alcByte k) ∧
      y.rg rd = 0 ∧ (∀ r, r ≠ rd → y.rg r = x.rg r) ∧ (y.cur_ a.i).pos.toNat = (x.cur_ a.i).pos.toNat + n ∧
      (y.cur_ b.i).pos.toNat = (x.cur_ b.i).pos.toNat + n ∧ y.pc = x.pc + 8 ∧ y.psr = x.psr ∧ y.bytesSince = x.bytesSince + n ∧
      y.issued = x.issued ∧ y.cur = none ∧ y.busy = none := by
  obtain ⟨hpc, hpsr, hbytes, hissued, -⟩ := copied_frame (x := x) (a := a) (b := b) (n := n) hrd
  have halc (k : Nat) : (x.copied rd a b n).retire.alcByte k =
      if dst ≤ k ∧ k < dst + n then x.alcByte (src + (k - dst)) else x.alcByte k := by
    rw [← hsrc, ← hdst]
    exact alcByte_copied hrd k
  have hpos {k : BitVec 3} (hk : k = b.i ∨ k = a.i) (h : (x.cur_ k).pos.toNat + n < 2 ^ 40) :
      ((x.copied rd a b n).retire.cur_ k).pos.toNat = (x.cur_ k).pos.toNat + n :=
    (congrArg BitVec.toNat (cur_copied hrd hij hk)).trans (Nat.mod_eq_of_lt h)
  refine ⟨fun k hk => ?_, fun k hk => ?_, ?_, fun r hr => rg_counted_other _ _ _ hr, hpos (.inr rfl) hi, hpos (.inl rfl) hj,
    congrArg (· + 8) hpc, hpsr, hbytes, hissued, rfl, rfl⟩
  · rw [halc, if_pos (by omega), Nat.add_sub_cancel_left]
  · rw [halc, if_neg (by omega)]
  · rw [hn]
    exact rg_copied_whole hrd

theorem toNat_add_ofNat {v : DWord} {p : Nat} (h : v.toNat + p < 2 ^ 64) : (v + BitVec.ofNat 64 p).toNat = v.toNat + p := by
  rw [BitVec.toNat_add, BitVec.toNat_ofNat, Nat.add_mod_mod, Nat.mod_eq_of_lt h]

/-- An Alcove stream with literal base and length, as a side of a move. -/
theorem sideOf_literal (x : Engine) (i : BitVec 3) {d : Desc} (hb : d.bb = false) (hl : d.bl = false) :
    sideOf x i d = ⟨i, d, d.base, d.len⟩ := by
  simp [sideOf, Desc.baseOf, Desc.lenOf, hb, hl]

/-- Such a side raises nothing of R160 while its bytes lie within its length. -/
theorem alcoveSide_good {s : State} {e : EngId} {w : IW} {i : BitVec 3} {d : Desc} {n : Nat} (hk : d.kind = 7) (hnr : d.nr = false)
    (hb : d.bb = false) (hl : d.bl = false) (hfit : ((s.eng e).cur_ i).pos.toNat + n ≤ d.len) (isDst : Bool) :
    (badMove w (fun _ => true) isDst ⟨i, d, d.base, d.len⟩ = false ∧ Side.misHead ⟨i, d, d.base, d.len⟩ = false) ∧
      overMove s e n n isDst ⟨i, d, d.base, d.len⟩ = false := by
  have hover : ¬ d.len < ((s.eng e).cur_ i).pos.toNat + n := by omega
  refine ⟨⟨?_, ?_⟩, ?_⟩
  · simp [badMove, Desc.binds, hnr, hb, hl]
  · simp [Side.misHead, hk]
  · simp [overMove, posOf, hk, hover]

theorem imgGives_always (s : State) (e : EngId) : imgGives s e 0 0 = true := by simp [imgGives]

/-- A MOVE that holds no residue and whose checks have passed makes its pass (R160, R161). -/
theorem move_passes {e : EngId} {w : IW} {s v : State} {a b : Side} (hrun : s.runs e 0x14 w = true)
    (hok : (fieldsOk w true false false true 0 0x07 && w.rd != 0) = true) (hres : (s.eng e).residue = none) (hk : b.d.kind ≠ 6) :
    let t := s.begins e 0x14 w
    let n := ((s.eng e).rg w.rd).toNat
    startMove e false w (some (srcOf w)) (badMove w (fun _ => true)) (overMove t e n n) t = .ok (some a, b) v →
      exec (.move e w) s = .next (burstPass e w (some a) b noStage (fun _ => 0) v) := by
  intro t n hstart
  have hte : t.eng e = { s.eng e with busy := some (0x14, w) } := eng_begins s e 0x14 w
  have hflush : flushFirst e (fun r => r.dst == w.ss) t = t := flushFirst_none _ (by rw [hte]; exact hres)
  have hcount : ((t.eng e).rg w.rd).toNat = n := by rw [hte]; rfl
  refine (act_insnB hrun _ _).trans (congrArg _ ((if_pos ?_).trans ?_))
  · rw [hok]; exact imgGives_always s e
  · change (let u := flushFirst e (fun r => r.dst == w.ss) t
      let m := ((u.eng e).rg w.rd).toNat
      (startMove e false w (some (srcOf w)) (badMove w (fun _ => true)) (overMove u e m m) u).run _) = _
    rw [hflush]
    dsimp only
    rw [hcount, hstart]
    exact if_neg hk

/-- A MOVE between two Alcove streams whose count fits one burst copies at once and retires, without a checkpoint while its count
register is not carried (R161, Table 4-5). -/
theorem move_alcove {e : EngId} {w : IW} {s : State} {a b : Side} (hrun : s.runs e 0x14 w = true)
    (hok : (fieldsOk w true false false true 0 0x07 && w.rd != 0) = true) (hrd : w.rd ≠ 0) (hcarried : carriedReg w.rd = false)
    (hcur : (s.eng e).cur = none) (hres : (s.eng e).residue = none) (ha : a.d.kind = 7) (hb : b.d.kind = 7) (hbi : b.i = w.ss) :
    let x := s.eng e
    let n := (x.rg w.rd).toNat
    Passes { x with busy := some (0x14, w) } (srcOf w) w.ss (badMove w (fun _ => true)) (overMove (s.begins e 0x14 w) e n n) a b →
      0 < n → n ≤ 256 - (b.base + BitVec.ofNat 64 (x.cur_ b.i).pos.toNat).toNat % 256 →
      exec (.move e w) s = .next (s.setEng e
        (Engine.copied { x with busy := some (0x14, w), cur := some (Cur.sampled false w a b) } w.rd a b n).retire) := by
  intro x n hpass h0 hn
  rw [← eng_begins] at hpass
  have hstart := startMove_starts (cap := false) (by rw [eng_begins]; exact hcur) hpass
  rw [eng_begins, show ∀ z, (s.begins e 0x14 w).setEng e z = s.setEng e z from setEng_setEng s e _] at hstart
  refine (move_passes hrun hok hres (by omega) hstart).trans (congrArg _ ?_)
  rw [burstPass_alcove ha hb hbi, eng_setEng, setEng_setEng]
  · refine (atBoundary_retires ?_ hcarried ?_).trans ?_
    · rw [eng_setEng]
      exact (copied_frame hrd).2.2.2.2.trans hres
    · rw [eng_setEng]
      exact rg_copied_whole hrd
    · rw [eng_setEng, setEng_setEng]
      rfl
  · rw [eng_setEng]; exact h0
  · rw [eng_setEng]; exact hn

/-- Settles O18: the checks pass, one burst copies the bytes, and the instruction retires at its boundary. -/
theorem alcoveMove : Obligations.AlcoveMove := by
  unfold Obligations.AlcoveMove
  intro e w s hrun hres hcur hok hcarried
  extract_lets x i a d n p q
  intro hij hsi hsj hdi hdj hka hkd hra hwd hna hnd hba hla hbd hld hpa hqd haa hdd hn0 hn
  have hrd : w.rd ≠ 0 := by
    simp only [Bool.and_eq_true, bne_iff_ne] at hok
    exact hok.2
  have hte : (s.begins e 0x14 w).eng e = { x with busy := some (0x14, w) } := eng_begins s e 0x14 w
  obtain ⟨hgoodA, hoverA⟩ := alcoveSide_good (w := w) (i := i) (n := n) hka hna hba hla (by rw [hte]; exact hpa) false
  obtain ⟨hgoodB, hoverB⟩ := alcoveSide_good (w := w) (i := w.ss) (n := n) hkd hnd hbd hld (by rw [hte]; exact hqd) true
  have hq : (d.base + BitVec.ofNat 64 q).toNat = d.base.toNat + q := toNat_add_ofNat (by omega)
  have hp : (a.base + BitVec.ofNat 64 p).toNat = a.base.toNat + p := toNat_add_ofNat (by omega)
  have hexec := move_alcove (a := ⟨i, a, a.base, a.len⟩) (b := ⟨w.ss, d, d.base, d.len⟩) hrun hok hrd hcarried hcur hres hka hkd rfl
    ⟨hdi, hdj, hsi, hsj, (sideOf_literal _ i hba hla).symm, (sideOf_literal _ w.ss hbd hld).symm, hij, hra, hwd,
      hgoodA, hgoodB, hoverA, hoverB⟩ hn0 (by rw [hq]; exact hn)
  refine ⟨_, hexec, ?_⟩
  exact copied_retires (x := { x with busy := some (0x14, w), cur := some (Cur.sampled false w _ _) })
    (a := ⟨i, a, a.base, a.len⟩) (b := ⟨w.ss, d, d.base, d.len⟩) hrd hij hp hq rfl (show p + n < 2 ^ 40 by omega)
    (show q + n < 2 ^ 40 by omega)

end Sys2Proof.Machine
end

section
/-! FunnelAndCapture does not hold: a row of CAPT fixes its form (R170), and a word of the other form is not that row's. -/

namespace Sys2Proof.Machine

/-- An engine that executes one word makes nothing of another (R131, R133). -/
theorem insn_other {e : EngId} {op : Nat} {w w' : IW} {s : State} (hb : (s.eng e).busy = some (op, w)) (h : w ≠ w')
    (hf : failedRead (s.eng e) = none) (ok : Bool) (body : State → State) : insn e op w' ok body s = s := by
  have hfetch : fetch e s = s := fetch_done (.inl (by rw [hb]; rfl))
  have hno : admits (s.eng e) op w' = false := by simp [admits, hb, h]
  unfold insn
  split
  · rw [hf]
    simp [hfetch, hno]
  · rfl

theorem captInsn_other {e : EngId} {w w' : IW} {s : State} (form : Bool) (hb : (s.eng e).busy = some (0x18, w)) (h : w ≠ w')
    (hf : failedRead (s.eng e) = none) : captInsn e form w' s = s := by
  unfold captInsn insnB
  exact insn_other hb h hf _ _

/-- The word of a read capture that R104 refuses: its count register is g0 (R155). -/
def refusedCapture : IW := { rd := 0, ra := 0, rb := 0, ss := 0, md := 0, imm := 0 }

/-- Engine 00.00 has begun that capture. -/
def readCaptureBegun : State := { engs := [(0, { phase := .run, busy := some (0x18, refusedCapture) })] }

/-- Refutes O19: the statement puts no condition on the form bit, mod[0], of the word that runs. CAPT_WRITE of a word whose mod[0] is 0
does nothing, since the row stands for the word with mod[0] = 1, where the statement has it raise ILLEGAL. -/
theorem not_funnelAndCapture : ¬ Obligations.FunnelAndCapture := by
  unfold Obligations.FunnelAndCapture
  rintro ⟨-, -, hcapt⟩
  have hruns : readCaptureBegun.runs ⟨0, 0⟩ 0x18 refusedCapture = true := by decide
  have hbegun : (readCaptureBegun.eng ⟨0, 0⟩).busy = some (0x18, refusedCapture) := by decide
  have hill := (hcapt ⟨0, 0⟩ refusedCapture true readCaptureBegun hruns).1 (by decide)
  have hidle : exec (.captWrite ⟨0, 0⟩ refusedCapture) readCaptureBegun = .next readCaptureBegun :=
    (act_next (s := readCaptureBegun) rfl _).trans (congrArg _ (captInsn_other true hbegun (by decide) (by decide)))
  have hsame : readCaptureBegun = illegal ⟨0, 0⟩ 0x18 refusedCapture readCaptureBegun := Host.Outcome.next.inj (hidle.symm.trans hill)
  obtain ⟨y, hy, -, hbusy, -⟩ := exceptionEntry ⟨0, 0⟩ 0x01 (hiWord 0x18 refusedCapture) (readCaptureBegun.eng ⟨0, 0⟩).pc 0
    none readCaptureBegun
  have hover : (readCaptureBegun.eng ⟨0, 0⟩).busy = none := by
    rw [hsame]
    exact (congrArg (fun t : State => (t.eng ⟨0, 0⟩).busy) hy).trans (by rw [eng_setEng]; exact hbusy)
  exact absurd (hbegun.symm.trans hover) (by decide)

end Sys2Proof.Machine
end

section
/-! Branches, calls, register jumps and SYNC.I (R183 to R187). -/

namespace Sys2Proof.Machine

/-- An instruction whose meaning is a body that amounts to `f` has the effect `f`. -/
theorem does_of_body {i : EngId → IW → Instr} {op : Nat} {ok : IW → Bool} {f b : EngId → IW → State → State}
    (h : ∀ e w s, exec (i e w) s = act s (insn e op w (ok w) (b e w) s)) (hb : ∀ e w t, b e w t = f e w t) : does i op ok f := by
  obtain rfl : b = f := funext fun e => funext fun w => funext (hb e w)
  exact does_of_insn h

/-- The engine at the target of a relative branch, as R184 gives it. -/
theorem jump_eq (x : Engine) (w : IW) :
    x.jump w = { x.goto (BitVec.ofInt 32 ((x.pc.toNat : Int) + 8 * w.imm.toInt)) with
      pcOut := decide ((x.pc.toNat : Int) + 8 * w.imm.toInt < 0 ∨ 2 ^ 32 ≤ (x.pc.toNat : Int) + 8 * w.imm.toInt) } := by
  have hout (t : Int) : (!decide (0 ≤ t ∧ t < 2 ^ 32)) = decide (t < 0 ∨ 2 ^ 32 ≤ t) := by
    rw [← decide_not]
    exact decide_eq_decide.mpr (by omega)
  unfold Engine.jump
  dsimp only
  rw [hout]

@[simp] theorem pc_setRg (x : Engine) (r : BitVec 5) (v : DWord) : (x.setRg r v).pc = x.pc := by
  unfold Engine.setRg
  split <;> rfl

/-- A counter register is 0 once decremented exactly when it was 1 (R186). -/
theorem dbnzStep_eq (w : IW) (x : Engine) : dbnzStep w x =
    if x.rg w.rd = 1 then (x.setRg w.rd (x.rg w.rd - 1)).retire else (x.setRg w.rd (x.rg w.rd - 1)).jump w := by
  have hone : x.rg w.rd - 1 = 0 ↔ x.rg w.rd = 1 := sub_eq_zero
  unfold dbnzStep
  simp only [hone]

/-- An indirect branch in the terms of R187. -/
theorem jumpTo_eq (e : EngId) (v : DWord) (link : Bool) (s : State) :
    jumpTo e v link s = if (v.setWidth 32 &&& 0xFFFFFFF8 : BitVec 32).toNat < 0x40 then excAt e 0x05 0 0 none s
      else s.setEng e ((if link then (s.eng e).setRg 30 (((s.eng e).pc + 8).setWidth 64) else s.eng e).goto
        (v.setWidth 32 &&& 0xFFFFFFF8)) := by
  unfold jumpTo State.modEng
  simp only [regTarget_eq, BitVec.ofNat_toNat]

/-- Settles O5: each row is its body, the relative branches by `jump_eq`, the indirect ones by `jumpTo_eq`. -/
theorem branches : Obligations.Branches := by
  unfold Obligations.Branches
  refine ⟨does_of_body (fun _ _ _ => rfl) fun e w t => ?cond, does_of_body (fun _ _ _ => rfl) fun e w t => ?dbnz,
    does_of_body (fun _ _ _ => rfl) fun e w t => ?call, does_of_body (fun _ _ _ => rfl) fun e w t => jumpTo_eq e _ false t,
    does_of_body (fun _ _ _ => rfl) fun e w t => jumpTo_eq e _ true t,
    does_of_body (fun _ _ _ => rfl) fun e _ t => jumpTo_eq e _ false t, does_of_insn fun _ _ _ => rfl⟩
  case cond =>
    have hcode : fld w.md 0 4 = w.md.toNat % 16 := rfl
    dsimp only
    rw [hcode]
    rcases condHolds (w.md.toNat % 16) (t.eng e).psr with _ | _ | _
    · rfl
    · rfl
    · exact congrArg (t.setEng e) (jump_eq ..)
  case dbnz =>
    simp only [State.modEng, dbnzStep_eq, jump_eq, pc_setRg]
  case call =>
    simp only [State.modEng, jump_eq, pc_setRg, BitVec.ofNat_toNat]

end Sys2Proof.Machine
end

section
/-! MovesAndFences and WaitInstructions do not hold: the rows of FENCE and of WAIT fix the bits of mod that name their form (R176, R181,
R182), and a word of another form is not that row's. -/

namespace Sys2Proof.Machine

/-- An exception leaves no instruction under way. -/
theorem busy_illegal (e : EngId) (op : Nat) (w : IW) (s : State) : ((illegal e op w s).eng e).busy = none := by
  obtain ⟨y, hy, -, hbusy, -⟩ := exceptionEntry e 0x01 (hiWord op w) (s.eng e).pc 0 none s
  refine (congrArg (fun t : State => (t.eng e).busy) hy).trans ?_
  rw [eng_setEng]
  exact hbusy

/-- A row that stands for another word than the one under way does not raise ILLEGAL for that one. -/
theorem exec_other_ne_illegal {i : Instr} {e : EngId} {op : Nat} {w : IW} {s : State} (w' : IW) {ok : Bool} {body : State → State}
    (hi : exec i s = act s (insnB e op w' ok body s)) (hb : (s.eng e).busy = some (op, w)) (h : w ≠ w')
    (hf : failedRead (s.eng e) = none) (ht : s.boot.tstMode = false) : exec i s ≠ .next (illegal e op w s) := by
  intro hill
  have hidle : exec i s = .next s := hi.trans ((act_next ht _).trans (congrArg _ (insn_other hb h hf ok _)))
  have hsame : s = illegal e op w s := Host.Outcome.next.inj (hidle.symm.trans hill)
  have hover : (s.eng e).busy = none := (congrArg (fun t : State => (t.eng e).busy) hsame).trans (busy_illegal e op w s)
  exact absurd (hb.symm.trans hover) (Option.some_ne_none _)

/-- A word of FENCE.G and of WAIT ANGLE, with mod[0] set, that R104 refuses for its rd. -/
def refusedSecondForm : IW := { rd := 1, ra := 0, rb := 0, ss := 0, md := 1, imm := 0 }

/-- Engine 00.00 has begun the instruction of this opcode with that word. -/
def secondFormBegun (op : Nat) : State := { engs := [(0, { phase := .run, busy := some (op, refusedSecondForm) })] }

/-- Refutes O4: the statement puts no condition on G, mod[0], of the word that runs. FENCE of a word whose G is 1 does nothing, since the
row stands for the word with G = 0, where the statement has it raise ILLEGAL. -/
theorem not_movesAndFences : ¬ Obligations.MovesAndFences := by
  unfold Obligations.MovesAndFences
  rintro ⟨-, hfence⟩
  have hill := (hfence false ⟨0, 0⟩ refusedSecondForm (secondFormBegun 0x0B) (by decide)).1 (by decide)
  exact exec_other_ne_illegal (rowForm refusedSecondForm 1 0) rfl (by decide) (by decide) (by decide) rfl hill

/-- Refutes O15: the statement puts no condition on mod[1:0] of the word that runs. WAIT TIME of a word whose mod[1:0] is 1 does nothing,
since the row stands for the word with mod[1:0] = 0, where the statement has it raise ILLEGAL. -/
theorem not_waitInstructions : ¬ Obligations.WaitInstructions := by
  unfold Obligations.WaitInstructions
  rintro ⟨htime, -⟩
  have hill := (htime ⟨0, 0⟩ refusedSecondForm (secondFormBegun 0x20) (by decide)).1 (by decide)
  exact exec_other_ne_illegal (rowForm refusedSecondForm 3 0) rfl (by decide) (by decide) (by decide) rfl hill

end Sys2Proof.Machine
end

section
/-! The stream cursors (R157 to R159): SDEF, SSEEK and SPOS where no residue is held and the descriptor bytes are at hand. -/

namespace Sys2Proof.Machine

theorem setEng_begins (s : State) (e : EngId) (op : Nat) (w : IW) (y : Engine) : (s.begins e op w).setEng e y = s.setEng e y :=
  setEng_setEng s e _ y

theorem rg_begins (s : State) (e : EngId) (op : Nat) (w : IW) (r : BitVec 5) : ((s.begins e op w).eng e).rg r = (s.eng e).rg r := by
  rw [eng_begins]
  rfl

theorem modEng_begins (s : State) (e : EngId) (op : Nat) (w : IW) (f : Engine → Engine) :
    (s.begins e op w).modEng e f = s.setEng e (f { s.eng e with busy := some (op, w) }) := by
  unfold State.modEng
  rw [eng_begins, setEng_begins]

/-- An instruction that writes a register and retires leaves nothing of its beginning. -/
theorem modEng_begins_wrote (s : State) (e : EngId) (op : Nat) (w : IW) (r : BitVec 5) (f : Engine → DWord) :
    (s.begins e op w).modEng e (fun x => (x.setRg r (f x)).retire) =
      s.setEng e ((s.eng e).wrote r (f { s.eng e with busy := some (op, w) }) (s.eng e).psr) := by
  rw [modEng_begins]
  unfold Engine.wrote Engine.setRg
  split <;> rfl

/-- A row that needs no feature of the image, and whose fields are good, is its body on the engine that has begun it. -/
theorem runs_body {i : Instr} {e : EngId} {op : Nat} {w : IW} {s : State} {ok : Bool} {body : State → State}
    (h : s.runs e op w = true) (hi : exec i s = act s (insnB e op w ok body s)) (hfeat : opFeat op = 0) (hminor : opMinor op w = 0)
    (hok : ok = true) : exec i s = .next (body (s.begins e op w)) := by
  rw [hi, act_insnB h, hok, hfeat, hminor, imgGives_always]
  rfl

/-- Such a row raises ILLEGAL when a field check fails (R104). -/
theorem runs_illegal {i : Instr} {e : EngId} {op : Nat} {w : IW} {s : State} {ok : Bool} {body : State → State}
    (h : s.runs e op w = true) (hi : exec i s = act s (insnB e op w ok body s)) (hok : ok = false) :
    exec i s = .next (illegal e op w s) := by
  rw [hi, act_insnB h, hok]
  rfl

/-! ## SDEF (R157) -/

section
variable {e : EngId} {w : IW} {s : State} (hres : (s.eng e).residue = none)
include hres

theorem flushFirst_begins (need : Residue → Bool) (op : Nat) : flushFirst e need (s.begins e op w) = s.begins e op w :=
  flushFirst_none need (by rw [eng_begins]; exact hres)

/-- SDEF of a word whose fields are good, with no residue to write. -/
theorem sdef_runs (hr : s.runs e 0x10 w = true) (hok : fieldsOk w false false false true 0 0xFFFFFFFF = true) :
    let t := s.begins e 0x10 w
    let o := w.imm.toNat
    exec (.sdef e w) s = .next (if o = 0 then t.modEng e (fun x => (x.define w.ss 0 []).retire)
      else if !descAt t o then excAt e 0x13 w.imm 0 (some w.ss) t
      else (psRead e 2 o 32 t).run fun b v =>
        if descOkFor v e b then leavePath e (v.modEng e (fun x => (x.define w.ss (BitVec.ofNat 24 (o / 32)) b).retire))
        else excAt e 0x13 w.imm 0 (some w.ss) v) := by
  refine (runs_body hr rfl rfl rfl hok).trans ?_
  rw [flushFirst_begins hres]

/-- SSEEK of a word whose fields are good, with no residue to write. -/
theorem sseek_runs (hr : s.runs e 0x11 w = true) (hok : fieldsOk w false true false true 0 0 = true) :
    exec (.sseek e w) s = .next ((needDefined e w.ss (s.begins e 0x11 w)).run fun _ v =>
      (needDesc e w.ss v).run fun d z => seekTo e w w.ss d ((z.eng e).rg w.ra) z) := by
  refine (runs_body hr rfl rfl rfl hok).trans ?_
  rw [flushFirst_begins hres]

end

/-- The offsets at which SDEF takes no descriptor (R157). -/
theorem not_descAt_iff (s : State) (o : Nat) : (!descAt s o) = true ↔ o % 32 ≠ 0 ∨ o < 0x40 ∨ 2 ^ 29 ≤ o ∨ s.psSize ≤ o := by
  simp only [descAt, Bool.not_eq_true', Bool.and_eq_false_iff, beq_eq_false_iff_ne, decide_eq_false_iff_not]
  omega

/-! ## SSEEK (R158) -/

theorem needDefined_fails {e : EngId} {i : BitVec 3} {s : State} (h : ((s.eng e).cur_ i).desc = 0) :
    needDefined e i s = .stop (strmExc e 0x10 i s) := by
  unfold needDefined must
  rw [h]
  rfl

section
variable {e : EngId} {w : IW} {i : BitVec 3} {d : Desc} {v : DWord} {s : State}

theorem seekTo_link (h : d.sl = true) : seekTo e w i d v s = descExc e i s := if_pos h

section
variable (hsl : d.sl = false)
include hsl

theorem seekTo_beyond (h : 2 ^ 40 ≤ v.toNat ∨ d.lenOf (s.eng e) < v.toNat) : seekTo e w i d v s = strmExc e 0x11 i s := by
  unfold seekTo
  dsimp only
  rw [hsl, if_neg (by decide), if_pos h]

/-- A list stream that moves to its start walks from its head again. -/
theorem seekTo_start (hk : d.kind = 3) (h0 : v.toNat = 0) (hhead : (d.baseOf (s.eng e)).toNat % 16 = 0) (hcur : (s.eng e).cur = none) :
    seekTo e w i d v s = s.setEng e (Engine.retire { (s.eng e).setPos i 0 with
      cur := none
      walk := if 0 < ((s.eng e).cur_ i).pos.toNat then Tbl.put {} (s.eng e).walk i.toNat {} else (s.eng e).walk }) := by
  unfold seekTo
  simp only [hsl, hk, h0, hhead, hcur, Option.isNone_none, and_true, true_and, ne_eq, not_true, if_false]
  rw [if_neg (by decide), if_neg (by omega)]
  by_cases hpos : 0 < ((s.eng e).cur_ i).pos.toNat
  · rw [if_pos hpos, if_pos hpos]
    simp only [setWalk, State.modEng, eng_setEng, setEng_setEng]
    rfl
  · rw [if_neg hpos, if_neg hpos]
    rfl

variable (hmax : v.toNat < 2 ^ 40) (hlen : v.toNat ≤ d.lenOf (s.eng e))
include hmax hlen

theorem seekTo_misaligned (hk : d.kind = 3) (h : (d.baseOf (s.eng e)).toNat % 16 ≠ 0) : seekTo e w i d v s = descExc e i s := by
  unfold seekTo
  dsimp only
  rw [hsl, if_neg (by decide), if_neg (by omega), if_pos ⟨hk, h⟩]

/-- A stream that is no list takes its position at once. -/
theorem seekTo_plain (hk : d.kind ≠ 3) :
    seekTo e w i d v s = s.setEng e (Engine.retire { (s.eng e).setPos i v.toNat with cur := none }) := by
  unfold seekTo
  simp only [hsl, hk, false_and, if_false]
  rw [if_neg (by decide), if_neg (by omega)]
  rfl

end
end

/-- What an instruction over leaves of one that made no walk of its own. -/
theorem retire_cur_none {x : Engine} (h : x.cur = none) : Engine.retire { x with cur := none } = x.retire := by
  unfold Engine.retire Engine.seqTo Engine.walks
  rw [h]

section
variable {e : EngId} {w : IW} {s : State} (hres : (s.eng e).residue = none) (hr : s.runs e 0x11 w = true)
  (hok : fieldsOk w false true false true 0 0 = true)
include hres hr hok

theorem sseek_undefined (h : ((s.eng e).cur_ w.ss).desc = 0) :
    exec (.sseek e w) s = .next (strmExc e 0x10 w.ss (s.begins e 0x11 w)) := by
  rw [sseek_runs hres hr hok, needDefined_fails (by rw [eng_begins]; exact h)]
  rfl

/-- SSEEK of a stream whose descriptor is at hand seeks the position in ra. -/
theorem sseek_seeks (h : ((s.eng e).cur_ w.ss).desc ≠ 0) (hb : Tbl.get [] (s.eng e).sd w.ss.toNat ≠ []) :
    exec (.sseek e w) s = .next
      (seekTo e w w.ss (decDesc (Tbl.get [] (s.eng e).sd w.ss.toNat)) ((s.eng e).rg w.ra) (s.begins e 0x11 w)) := by
  rw [sseek_runs hres hr hok, needDefined_ok (by rw [eng_begins]; exact h)]
  simp only [Flow.run]
  rw [needDesc_checked (by rw [eng_begins]; exact hb)]
  dsimp only
  rw [rg_begins, eng_begins]

end

/-! ## SPOS (R159) -/

section
variable {e : EngId} {w : IW} {s : State} (hr : s.runs e 0x12 w = true) (hok : fieldsOk w true false false true 0x01 0 = true)
include hr hok

theorem spos_undefined (h : ((s.eng e).cur_ w.ss).desc = 0) : exec (.spos e w) s = .next (strmExc e 0x10 w.ss (s.begins e 0x12 w)) := by
  refine (runs_body hr rfl rfl rfl hok).trans (congrArg _ ?_)
  rw [needDefined_fails (by rw [eng_begins]; exact h)]
  rfl

variable (h : ((s.eng e).cur_ w.ss).desc ≠ 0)
include h

/-- SPOS reads the position. -/
theorem spos_position (hl : bit w.md 0 = false) : exec (.spos e w) s =
    .next (s.setEng e ((s.eng e).wrote w.rd (((s.eng e).cur_ w.ss).pos.setWidth 64) (s.eng e).psr)) := by
  refine (runs_body hr rfl rfl rfl hok).trans (congrArg _ ?_)
  rw [needDefined_ok (by rw [eng_begins]; exact h), hl, ← BitVec.ofNat_toNat]
  exact modEng_begins_wrote s e 0x12 w w.rd (fun x => BitVec.ofNat 64 (x.cur_ w.ss).pos.toNat)

/-- With mod[0] SPOS reads the length of a descriptor at hand. -/
theorem spos_length (hl : bit w.md 0 = true) (hb : Tbl.get [] (s.eng e).sd w.ss.toNat ≠ []) : exec (.spos e w) s =
    .next (s.setEng e ((s.eng e).wrote w.rd
      (BitVec.ofNat 64 ((decDesc (Tbl.get [] (s.eng e).sd w.ss.toNat)).lenOf (s.eng e))) (s.eng e).psr)) := by
  refine (runs_body hr rfl rfl rfl hok).trans (congrArg _ ?_)
  rw [needDefined_ok (by rw [eng_begins]; exact h), hl]
  simp only [Flow.run, if_true]
  rw [needDesc_checked (by rw [eng_begins]; exact hb), eng_begins]
  exact modEng_begins_wrote s e 0x12 w w.rd _

end

/-- Settles O16: SDEF by its three cases, SSEEK by those of `seekTo`, SPOS by what it reads. -/
theorem streamCursors : Obligations.StreamCursors := by
  unfold Obligations.StreamCursors
  intro e w s hres
  extract_lets x cur b d o
  refine ⟨fun hr hok => runs_illegal hr rfl hok, fun hr hok => ⟨fun h0 => ?undefines, fun h0 hbad => ?refused,
      fun c u h32 hlo h29 hsz hread => ?defines⟩,
    fun hr hok => runs_illegal hr rfl hok, fun hr hok => ?sseek,
    fun hr hok => runs_illegal hr rfl hok, fun hr hok => ⟨fun hd => spos_undefined hr hok hd, fun hd hl => spos_position hr hok hd hl,
      fun hd hl hb => spos_length hr hok hd hl hb⟩⟩
  case undefines =>
    rw [sdef_runs hres hr hok, if_pos h0, modEng_begins]
    rfl
  case refused =>
    rw [sdef_runs hres hr hok, if_neg h0, if_pos ((not_descAt_iff (s.begins e 0x10 w) o).mpr hbad)]
  case defines =>
    have hat : ¬ (!descAt (s.begins e 0x10 w) o) = true := fun h => by
      have hbad : o % 32 ≠ 0 ∨ o < 0x40 ∨ 2 ^ 29 ≤ o ∨ s.psSize ≤ o := (not_descAt_iff ..).mp h
      omega
    rw [sdef_runs hres hr hok, if_neg (by omega), if_neg hat, hread]
    rfl
  case sseek =>
    refine ⟨fun hd => sseek_undefined hres hr hok hd, fun hd hb => ?_⟩
    have hlen : d.lenOf ((s.begins e 0x11 w).eng e) = d.lenOf x := by rw [eng_begins]; rfl
    have hbase : d.baseOf ((s.begins e 0x11 w).eng e) = d.baseOf x := by rw [eng_begins]; rfl
    rw [sseek_seeks hres hr hok hd hb]
    refine ⟨fun hsl => ?link, fun hsl hp => ?beyond, fun hsl hk hmax hp hal => ?misaligned, fun hsl hk hmax hp => ?plain,
      fun hsl hk h0 hal hcur => ?start⟩
    case link => exact congrArg _ (seekTo_link hsl)
    case beyond => exact congrArg _ (seekTo_beyond hsl (by rw [hlen]; exact hp))
    case misaligned => exact congrArg _ (seekTo_misaligned hsl hmax (by rw [hlen]; exact hp) hk (by rw [hbase]; exact hal))
    case plain =>
      refine congrArg _ ((seekTo_plain hsl hmax (by rw [hlen]; exact hp) hk).trans ?_)
      rw [setEng_begins, eng_begins]
      rfl
    case start =>
      refine congrArg _ ((seekTo_start hsl hk h0 (by rw [hbase]; exact hal) (by rw [eng_begins]; exact hcur)).trans ?_)
      rw [setEng_begins, eng_begins]
      exact congrArg (s.setEng e) (retire_cur_none (x := { Engine.setPos { x with busy := some (0x11, w) } w.ss 0 with
        walk := if 0 < cur.pos.toNat then Tbl.put {} x.walk w.ss.toNat {} else x.walk }) hcur)

end Sys2Proof.Machine
end

section
/-! MOVE, MOVEX and FILL (R155, R160 to R163, R169, R172): their checks, one burst of each, and what a burst counts (R121, R154, R161). -/

namespace Sys2Proof.Machine

/-! ## The checks (R138, R160) -/

section
variable {e : EngId} {cap : Bool} {w : IW} {bad over_ : Bool → Side → Bool} {s : State}

/-- A destination alone passes the checks of R160, with its descriptor at hand. -/
theorem checkMove_destination {j : BitVec 3} {b : Side} (hdef : ((s.eng e).cur_ j).desc ≠ 0)
    (hchecked : Tbl.get [] (s.eng e).sd j.toNat ≠ []) (hb : b = sideOf (s.eng e) j (decDesc (Tbl.get [] (s.eng e).sd j.toNat)))
    (hdir : b.d.dir = true) (hbad : bad true b = false) (hhead : b.misHead = false) (hover : over_ true b = false) :
    checkMove e none j bad over_ s = .ok (none, b) s := by
  have hdd : (decDesc (Tbl.get [] (s.eng e).sd j.toNat)).dir = true := by rw [hb] at hdir; exact hdir
  unfold checkMove
  simp only [Option.toList, List.nil_append, List.foldl, Flow.bind, needDefined_ok hdef, needDesc_checked hchecked]
  rw [← hb]
  simp only [hdd, hbad, hhead, hover, Bool.not_false, Bool.and_true, must_ok]

theorem startMove_destination {b : Side} (hcur : (s.eng e).cur = none) (h : checkMove e none w.ss bad over_ s = .ok (none, b) s) :
    startMove e cap w none bad over_ s = .ok (none, b) (s.setEng e { s.eng e with
      cur := some { w := w, elig := carriedReg w.rd && !cap, dstBase := b.base, dstLen := b.len } }) := by
  unfold startMove
  rw [hcur, h]
  rfl

end

/-! ## The rows (R155, R160, R162, R169) -/

/-- The residue of another destination stays held (R167). -/
theorem flushFirst_other {e : EngId} {i : BitVec 3} {s : State} (h : ∀ r, (s.eng e).residue = some r → r.dst ≠ i) :
    flushFirst e (fun r => r.dst == i) s = s := by
  unfold flushFirst
  cases hr : (s.eng e).residue with
  | none => rfl
  | some r => exact if_neg (by simpa using h r hr)

section
variable {e : EngId} {w : IW} {s v : State} {a d : Side} (hres : ∀ r, (s.eng e).residue = some r → r.dst ≠ w.ss)
include hres

theorem flushFirst_begins_other (op : Nat) : flushFirst e (fun r => r.dst == w.ss) (s.begins e op w) = s.begins e op w :=
  flushFirst_other (by rw [eng_begins]; exact hres)

/-- A MOVE whose checks have passed makes its pass. -/
theorem move_bursts (hr : s.runs e 0x14 w = true) (hok : (fieldsOk w true false false true 0 0x07 && w.rd != 0) = true)
    (hstart : let t := s.begins e 0x14 w
      let n := ((s.eng e).rg w.rd).toNat
      startMove e false w (some (srcOf w)) (badMove w (fun _ => true)) (overMove t e n n) t = .ok (some a, d) v)
    (hk : d.d.kind ≠ 6) : exec (.move e w) s = .next (burstPass e w (some a) d noStage (fun _ => 0) v) := by
  refine (runs_body hr rfl rfl rfl hok).trans (congrArg _ ?_)
  dsimp only at hstart ⊢
  rw [flushFirst_begins_other hres, rg_begins, hstart]
  exact if_neg hk

/-- A MOVEX whose stream checks have passed checks its chain where it starts, and makes its pass. -/
theorem movex_bursts {z1 : State} (hr : s.runs e 0x15 w = true)
    (hok : (fieldsOk w true false false true 0 0xFFF7 && w.rd != 0 && stagesOk (stageCodes w)) = true)
    (hstart : let t := s.begins e 0x15 w
      let n := ((s.eng e).rg w.rd).toNat
      startMove e false w (some (srcOf w)) (badMove w (fun c => c.kind != 6)) (overMove t e n n) t = .ok (some a, d) v)
    (hchain : ((s.eng e).cur = none ∧ ∃ z, checkChain e w v = .ok () z ∧
        z1 = z.modEng e (fun x => { x with cur := x.cur.map (fun c => { c with mapBase := mapBaseOf x w }) })) ∨
      ((s.eng e).cur ≠ none ∧ z1 = v)) :
    exec (.movex e w) s = .next
      (burstPass e w (some a) d (chainStage e w (if a.d.kind = 4 then some a.d.port else none)) (fun _ => 0) z1) := by
  have hcur : ((s.begins e 0x15 w).eng e).cur = (s.eng e).cur := by rw [eng_begins]
  refine (runs_body hr rfl rfl rfl hok).trans (congrArg _ ?_)
  dsimp only at hstart ⊢
  rw [flushFirst_begins_other hres, rg_begins, hstart, hcur]
  rcases hchain with ⟨hfresh, z, hz, rfl⟩ | ⟨hgoes, rfl⟩
  · rw [hfresh]
    simp only [Flow.run, hz]
    rfl
  · exact if_neg (by simpa using hgoes)

/-- A FILL whose checks have passed takes its pattern where it starts, and makes its pass. -/
theorem fill_bursts (hr : s.runs e 0x17 w = true) (hok : (fieldsOk w true false true true 0 0 && w.rd != 0) = true)
    (hstart : let t := s.begins e 0x17 w
      startMove e false w none (badMove w (fun c => c.kind != 6)) (overMove t e 0 ((s.eng e).rg w.rd).toNat) t = .ok (none, d) v) :
    let z := v.modEng e (fun x => { x with cur := x.cur.map (fun c =>
      if c.out.isEmpty then { c with out := toLe 8 (x.rg w.rb).toNat } else c) })
    exec (.fill e w) s = .next
      (burstPass e w none d noStage (fun k => (((z.eng e).cur.map Cur.out).getD []).getD (k % 8) 0) z) := by
  refine (runs_body hr rfl rfl rfl hok).trans (congrArg _ ?_)
  dsimp only at hstart ⊢
  rw [flushFirst_begins_other hres, rg_begins, hstart]
  rfl

end

/-! ## One burst (R161, R162, R169, R241) -/

/-- The bytes of a burst of `k` at position `p`, with those around it that its stages need: the source's, or FILL's. -/
def gathered (e : EngId) (src : Option Side) (st : Stage) (fill : Nat → Byte) (p k back after : Nat) (s : State) :
    Flow (List Byte × AfterFault) :=
  match src with
  | some a => source e a.i a.d a.base (posOf s e a.i) back (k + after) st.missing s
  | none => .ok ((upTo k).map (fun j => fill (p + j)), none) s

section
variable {e : EngId} {w : IW} {src : Option Side} {d : Side} {st : Stage} {fill : Nat → Byte} {s : State}

/-- A count of 0 moves nothing. -/
theorem burstPass_nothing (h : ((s.eng e).rg w.rd).toNat = 0) : burstPass e w src d st fill s = s.modEng e Engine.retire := if_pos h

/-- A burst whose address, plan, destination, claim and bytes are at hand passes the stages, is written and then counted. -/
theorem burstPass_moves {ad : DWord} {room k back after : Nat} {b : List Byte} {t u u1 u2 y : State}
    (h0 : 0 < ((s.eng e).rg w.rd).toNat) (haddr : streamAddr e w.ss d.d d.base (posOf s e w.ss) s = .ok (ad, room) t)
    (hplan : st.plan (min ((s.eng e).rg w.rd).toNat (d.d.burstAt ad (posOf s e w.ss) room)) t = .ok (k, back, after) u)
    (hready : destReady e d.d ad k u = .ok () u1) (hk : 0 < k) (hclaim : st.claim u1 = .ok () u2)
    (hbytes : gathered e src st fill (posOf s e w.ss) k back after u2 = .ok (b, none) y) :
    let p := st.pass back k b y
    let f := countBurst e w.rd src w.ss k (destWrite e w.ss d.d ad p.1 p.2)
    burstPass e w src d st fill s = atBoundary e w.rd (st.elig f) f := by
  unfold burstPass
  dsimp only
  rw [if_neg (by omega), haddr]
  simp only [Flow.run]
  rw [hplan]
  dsimp only
  rw [hready]
  dsimp only
  rw [hclaim]
  unfold gathered at hbytes
  cases src with
  | none =>
    simp only [Flow.ok.injEq, Prod.mk.injEq, and_true] at hbytes
    obtain ⟨rfl, rfl⟩ := hbytes
    simp only [Option.isSome_none, Bool.false_eq_true, if_false, if_neg hk.ne']
  | some a =>
    dsimp only at hbytes ⊢
    rw [hbytes]
    simp only [Option.isSome_none, Bool.false_eq_true, if_false, if_neg hk.ne']

/-- The same of a burst that no stage touches. -/
theorem burstPass_plain {ad : DWord} {room : Nat} {b : List Byte} {t u y : State} (h0 : 0 < ((s.eng e).rg w.rd).toNat)
    (haddr : streamAddr e w.ss d.d d.base (posOf s e w.ss) s = .ok (ad, room) t) :
    let k := min ((s.eng e).rg w.rd).toNat (d.d.burstAt ad (posOf s e w.ss) room)
    destReady e d.d ad k t = .ok () u → 0 < k → gathered e src noStage fill (posOf s e w.ss) k 0 0 u = .ok (b, none) y →
      burstPass e w src d noStage fill s =
        atBoundary e w.rd true (countBurst e w.rd src w.ss k (destWrite e w.ss d.d ad (b.take k) y)) :=
  fun hready hk hbytes => burstPass_moves (back := 0) (after := 0) h0 haddr rfl hready hk rfl hbytes

end

/-- FILL's burst takes all the bytes gathered for it. -/
theorem take_upTo_map (f : Nat → Byte) (k : Nat) : ((upTo k).map f).take k = (List.range k).map f :=
  List.take_of_length_le (by simp [upTo])

/-- The chain's claim of a burst (R246). -/
theorem chainStage_claim {e : EngId} {w : IW} {link : Option Nat} {s t : State}
    (hnone : aesOf s e w = none → t = s) (hsome : ∀ q, aesOf s e w = some q → claim e q s = .ok () t) :
    (chainStage e w link).claim s = .ok () t := by
  unfold chainStage
  dsimp only
  cases h : aesOf s e w with
  | none => rw [hnone h]
  | some q => exact hsome q h

/-! ## What a burst counts (R121, R154, R161) -/

section
variable (x : Engine) {rd : BitVec 5} (a : Side) {j : BitVec 3} (n : Nat) (hrd : rd ≠ 0)
include hrd

theorem counted_effects : (x.counted rd a j n).effects = x.effects := by
  simp only [Engine.counted, setRg_eq _ hrd]
  rfl

variable (hij : a.i ≠ j)
include hij

/-- A counted stream's position rises by the bytes modulo 2^40, and its descriptor stays. -/
theorem cur_counted_moved {k : BitVec 3} (hk : k = j ∨ k = a.i) :
    (x.counted rd a j n).cur_ k = { x.cur_ k with pos := (x.cur_ k).pos + BitVec.ofNat 40 n } := by
  rw [cur_counted _ _ _ hrd hij, if_pos hk, BitVec.ofNat_add, BitVec.ofNat_toNat, BitVec.setWidth_eq]

end

/-- Settles O17: the checks with and without a source, the rows by the pass each makes, and a pass by its one burst. -/
theorem burstMoves : Obligations.BurstMoves := by
  unfold Obligations.BurstMoves
  refine ⟨fun e cap w src bad over_ s => ?checks, fun e w s hres => ?rows, fun e rd a j n s hrd hij hk => ?counts⟩
  case checks =>
    extract_lets x side d
    intro hcur hdef hchecked hdir hbad hhead hover hsrc
    cases src with
    | none => exact startMove_destination hcur (checkMove_destination hdef hchecked rfl hdir hbad hhead hover)
    | some i =>
      obtain ⟨hij, hdefi, hcheckedi, hdiri, hbadi, hheadi, hoveri⟩ := hsrc i rfl
      exact startMove_starts hcur ⟨hdefi, hdef, hcheckedi, hchecked, rfl, rfl, hij, hdiri, hdir, ⟨hbadi, hheadi⟩, ⟨hbad, hhead⟩,
        hoveri, hover⟩
  case rows =>
    extract_lets n ok14 ok15 ok17 s14 s15 s17
    refine ⟨fun hr hok => runs_illegal hr rfl hok, fun hr hok => runs_illegal hr rfl hok, fun hr hok => runs_illegal hr rfl hok,
      fun hr hok a d v => ?move, fun hr hok a d v z1 => ?movex, fun hr hok d v => ?fill⟩
    case move =>
      intro hstart hk
      rw [move_bursts hres hr hok hstart hk]
      refine ⟨fun h0 => congrArg _ (burstPass_nothing h0), fun ad room b t u y h0 haddr hready hbytes hpos => congrArg _ ?_⟩
      exact burstPass_plain h0 haddr hready hpos hbytes
    case movex =>
      intro hstart hchain link
      rw [movex_bursts hres hr hok hstart hchain]
      refine ⟨fun h0 => congrArg _ (burstPass_nothing h0),
        fun ad room k back after b t u u1 u2 y h0 haddr hplan hready hpos hclaim hbytes => congrArg _ ?_⟩
      refine burstPass_moves h0 haddr hplan hready hpos (chainStage_claim (fun h => ?_) fun q h => ?_) hbytes
      · rw [h] at hclaim; exact hclaim
      · rw [h] at hclaim; exact hclaim
    case fill =>
      intro hstart z pat
      rw [fill_bursts hres hr hok hstart]
      refine ⟨fun h0 => congrArg _ (burstPass_nothing h0), fun ad room t u h0 haddr hready hpos => congrArg _ ?_⟩
      rw [← take_upTo_map]
      exact burstPass_plain h0 haddr hready hpos rfl
  case counts =>
    extract_lets x y
    have hcount : countBurst e rd (some a) j n s = s.setEng e (x.counted rd a j n) := countBurst_counted hk e rd j n s
    have hy : y = x.counted rd a j n := (congrArg (State.eng · e) hcount).trans (eng_setEng ..)
    obtain ⟨halc, hpc, hpsr, -⟩ := counted_frame x a (j := j) n hrd
    rw [hy, cur_counted_moved x a n hrd hij (.inl rfl), cur_counted_moved x a n hrd hij (.inr rfl), hcount]
    refine ⟨(rg_counted ..).trans (if_neg hrd), fun r hr => rg_counted_other x a n hr, rfl, rfl, fun i hj hi => ?_, rfl, rfl, hpc, hpsr,
      halc, counted_effects x a n hrd, fun f hf => eng_setEng_other _ _ _ _ hf, rfl⟩
    rw [cur_counted x a n hrd hij, if_neg (by simp [hj, hi])]

end Sys2Proof.Machine
end

section
/-! The ALU, shift, multiply and divide groups (R105, R129, R190 to R197): what the model computes with numbers is what the statements
say with bit vectors, at every width. -/

namespace Sys2Proof.Machine

/-! ## A result as the model's numbers -/

/-- A result at its width in the numbers with which the model computes. -/
def Result.alu {n : Nat} (o : Result n) : Alu := { r := o.r.toNat, c := o.c, v := o.v, dz := o.dz }

theorem aluTrap_alu {n : Nat} (o : Result n) (p : Word) : aluTrap o.alu p = o.trap p := by
  obtain ⟨r, c, v, dz⟩ := o
  rcases v with _ | _ | _ <;> simp [aluTrap, Result.alu, Result.trap, psrTeDz, psrTeOv]

/-- The top bit of a number of `n` bits. -/
theorem top_bit {n : Nat} (a : BitVec n) : (a.toNat / 2 ^ (n - 1) % 2 == 1) = a.msb := by
  rw [BitVec.msb_eq_getLsbD_last, BitVec.getLsbD, Nat.testBit_eq_decide_div_mod_eq]
  rfl

theorem aluPsr_alu {n : Nat} (o : Result n) (p : Word) : aluPsr n o.alu p = o.psr p := by
  have hz : (o.r.toNat % 2 ^ n == 0) = (o.r == 0) := by
    rw [Nat.mod_eq_of_lt o.r.isLt, Bool.eq_iff_iff, beq_iff_eq, beq_iff_eq, ← BitVec.toNat_inj]
    rfl
  have hzn : psrZN n o.alu.r p = psrSet (psrSet p 0 (o.r == 0)) 1 o.r.msb := by
    unfold psrZN Result.alu
    rw [hz, top_bit]
  unfold aluPsr Result.psr
  rw [hzn]
  obtain ⟨r, c, v, dz⟩ := o
  rcases c with _ | c
  all_goals rcases v with _ | _ | _
  all_goals rfl

/-! ## The body of an arithmetic instruction -/

/-- What an arithmetic instruction with the result `o` at width `n` does: its trap, or the result in rd and the flags (R129, R193). -/
def aluEnds (e : EngId) (n : Nat) (rd : BitVec 5) (o : Alu) (s : State) : State :=
  match aluTrap o (s.eng e).psr with
  | some cause => excAt e cause 0 0 none s
  | none => s.setEng e ((s.eng e).alu n rd o).retire

theorem aluEnds_trap {e : EngId} {n : Nat} {rd : BitVec 5} {o : Result n} {s : State} {c : Nat} (h : o.trap (s.eng e).psr = some c) :
    aluEnds e n rd o.alu s = excAt e c 0 0 none s := by
  unfold aluEnds
  rw [aluTrap_alu, h]

theorem aluEnds_wrote {e : EngId} {n : Nat} {rd : BitVec 5} {o : Result n} {s : State}
    (h : o.trap (s.eng e).psr = none) :
    aluEnds e n rd o.alu s = s.setEng e ((s.eng e).wrote rd (wideN n o.r.toNat) (o.psr (s.eng e).psr)) := by
  unfold aluEnds Engine.alu
  rw [aluTrap_alu, h, aluPsr_alu]
  rfl

theorem wideN_word (r : BitVec 32) : wideN 32 r.toNat = r.signExtend 64 := by
  rw [wideN, if_pos rfl, BitVec.ofNat_toNat, BitVec.setWidth_eq]

theorem wideN_dword (r : BitVec 64) : wideN 64 r.toNat = r := by
  rw [wideN, if_neg (by decide), BitVec.ofNat_toNat, BitVec.setWidth_eq]

/-- An instruction whose body yields at both widths what `f` says computes `f`. -/
theorem computes_of_body {i : EngId → IW → Instr} {op : Nat} {ok : IW → Bool}
    {f : IW → (n : Nat) → BitVec n → BitVec n → BitVec n → Result n} {g : IW → Engine → Nat → Alu}
    (hi : ∀ e w s, exec (i e w) s = act s (insn e op w (ok w) (fun t => aluEnds e (opWidth w) w.rd (g w (t.eng e) (opWidth w)) t) s))
    (hg : ∀ w x n, ok w = true → 0 < n → n = opWidth w →
      g w x n = (f w n ((x.rg w.ra).setWidth n) ((opB x w).setWidth n) ((x.rg w.rd).setWidth n)).alu) : computes i op ok f := by
  intro e w s hr
  extract_lets x good o32 o64
  have hbody (h : good = true) : exec (i e w) s = .next (aluEnds e (opWidth w) w.rd (g w x (opWidth w)) s) := by
    rw [hi, act_insn hr]
    exact congrArg _ (if_pos h)
  have hok (h : good = true) : ok w = true := (Bool.and_eq_true _ _ ▸ h).1
  refine ⟨fun h => ?_, fun h hw => ?_, fun h hw => ?_⟩
  · rw [hi, act_insn hr]
    exact congrArg _ (if_neg (by rw [show (ok w && imgGives s e (opFeat op) (opMinor op w)) = false from h]; decide))
  · have hn : opWidth w = 32 := by rw [opWidth, hw]; rfl
    have hres : g w x 32 = o32.alu := hg w x 32 (hok h) (by decide) hn.symm
    have hexec := hbody h
    rw [hn, hres] at hexec
    refine ⟨fun ht => ?_, fun c ht => hexec.trans (congrArg _ (aluEnds_trap ht))⟩
    rw [hexec, aluEnds_wrote ht, wideN_word]
  · have hn : opWidth w = 64 := by rw [opWidth, hw]; rfl
    have hres : g w x 64 = o64.alu := by
      refine (hg w x 64 (hok h) (by decide) hn.symm).trans ?_
      rw [BitVec.setWidth_eq, BitVec.setWidth_eq, BitVec.setWidth_eq]
    have hexec := hbody h
    rw [hn, hres] at hexec
    refine ⟨fun ht => ?_, fun c ht => hexec.trans (congrArg _ (aluEnds_trap ht))⟩
    rw [hexec, aluEnds_wrote ht, wideN_dword]

/-- A two-operand instruction computes `f` when its function on the operands' numbers does. -/
theorem computes_of_alu {i : EngId → IW → Instr} {op : Nat} {wr : Bool} {imm : Nat} {h : Nat → Nat → Nat → Alu}
    {f : IW → (n : Nat) → BitVec n → BitVec n → BitVec n → Result n}
    (hi : ∀ e w s, exec (i e w) s = act s (aluInsn e op w wr imm h s))
    (hf : ∀ w n (a b d : BitVec n), 0 < n → h n a.toNat b.toNat = (f w n a b d).alu) : computes i op (aluOk · wr imm) f :=
  computes_of_body (g := fun w x n => h n (lowN n (x.rg w.ra)) (lowN n (opB x w))) hi
    fun w _ n _ hn _ => (congrArg₂ (h n) (BitVec.toNat_setWidth ..).symm (BitVec.toNat_setWidth ..).symm).trans (hf w n _ _ _ hn)

/-- A one-operand instruction computes `f` when its function on the operand's number does; rd may be a source, and the fields' check
may add to what the operation needs. -/
theorem computes_of_un {i : EngId → IW → Instr} {op md imm : Nat} {ok : IW → Bool} {h : IW → Nat → Nat → Nat → Alu}
    {f : IW → (n : Nat) → BitVec n → BitVec n → BitVec n → Result n}
    (hi : ∀ e w s, exec (i e w) s = act s (unInsn e op w md imm (ok w) (fun x n a => h w n a (lowN n (x.rg w.rd))) s))
    (hf : ∀ w n (a b d : BitVec n), 0 < n → n = opWidth w → ok w = true → h w n a.toNat d.toNat = (f w n a b d).alu) :
    computes i op (fun w => fieldsOk w true true false false md imm && ok w) f :=
  computes_of_body (g := fun w x n => h w n (lowN n (x.rg w.ra)) (lowN n (x.rg w.rd))) hi
    fun w _ n hok hn hw => (congrArg₂ (h w n) (BitVec.toNat_setWidth ..).symm (BitVec.toNat_setWidth ..).symm).trans
      (hf w n _ _ _ hn hw (Bool.and_eq_true _ _ ▸ hok).2)

/-- The same for one whose fields' check adds nothing and whose rd is no source. -/
theorem computes_of_plain {i : EngId → IW → Instr} {op md imm : Nat} {h : Nat → Nat → Alu}
    {f : IW → (n : Nat) → BitVec n → BitVec n → BitVec n → Result n}
    (hi : ∀ e w s, exec (i e w) s = act s (unInsn e op w md imm true (fun _ n a => h n a) s))
    (hf : ∀ w n (a b d : BitVec n), 0 < n → h n a.toNat = (f w n a b d).alu) :
    computes i op (fieldsOk · true true false false md imm) f := by
  simpa only [Bool.and_true] using
    computes_of_un (ok := fun _ => true) (h := fun _ n a _ => h n a) hi fun w n a b d hn _ _ => hf w n a b d hn

/-! ## Signed numbers -/

section
variable {n : Nat} (a b : BitVec n)

theorem modN_eq (z : Int) : modN n z = (BitVec.ofInt n z).toNat := (BitVec.toNat_ofInt z).symm

variable (hn : 0 < n)
include hn

theorem sgn_toNat : sgn n a.toNat = a.toInt := by
  obtain ⟨m, rfl⟩ : ∃ m, n = m + 1 := ⟨n - 1, by omega⟩
  have h2 : 2 ^ (m + 1) = 2 * 2 ^ m := by rw [pow_succ]; omega
  rw [sgn, BitVec.toInt_eq_toNat_cond, Nat.add_sub_cancel, h2]
  by_cases h : a.toNat < 2 ^ m
  · rw [if_pos h, if_pos (by omega)]
  · rw [if_neg h, if_neg (by omega)]

omit hn in
/-- A value overflows when it does not fit. -/
theorem not_fitsN (z : Int) : (!fitsN n z) = (decide (z ≥ 2 ^ (n - 1)) || decide (z < -2 ^ (n - 1))) := by
  rw [fitsN, Bool.not_and, ← decide_not, ← decide_not, Bool.or_comm]
  push_cast
  simp only [not_le, not_lt, ge_iff_le]

/-! ## Each operation -/

theorem aluAdd_alu : aluAdd n a.toNat b.toNat = Result.alu ⟨a + b, some (a.uaddOverflow b), some (a.saddOverflow b), false⟩ := by
  rw [aluAdd, sgn_toNat a hn, sgn_toNat b hn, not_fitsN]
  rfl

theorem aluSub_alu : aluSub n a.toNat b.toNat = Result.alu ⟨a - b, some (a.usubOverflow b), some (a.ssubOverflow b), false⟩ := by
  have hr : modN n ((a.toNat : Int) - (b.toNat : Int)) = (a - b).toNat := by
    rw [modN_eq, sub_eq_add_neg, BitVec.ofInt_add, BitVec.ofInt_neg, BitVec.ofInt_natCast, BitVec.ofInt_natCast, BitVec.ofNat_toNat,
      BitVec.ofNat_toNat, BitVec.setWidth_eq, BitVec.setWidth_eq, BitVec.sub_eq_add_neg]
  rw [aluSub, hr, sgn_toNat a hn, sgn_toNat b hn, not_fitsN]
  rfl

theorem aluMuls_alu : aluMuls n a.toNat b.toNat = Result.alu { r := a * b, v := some (a.smulOverflow b) } := by
  have hr : modN n (a.toInt * b.toInt) = (a * b).toNat := by
    rw [modN_eq, BitVec.ofInt_mul, BitVec.ofInt_toInt, BitVec.ofInt_toInt]
  rw [aluMuls, sgn_toNat a hn, sgn_toNat b hn, hr, not_fitsN]
  rfl

/-- The upper half of a product of double width. -/
theorem aluMulhs_alu : aluMulhs n a.toNat b.toNat =
    Result.alu { r := (a.signExtend (2 * n) * b.signExtend (2 * n)).extractLsb' n n } := by
  have hm : (0 : Int) < 2 ^ n := by positivity
  have hdiv (z : Int) : z % (2 ^ n * 2 ^ n) / 2 ^ n = z / 2 ^ n % 2 ^ n := by
    rw [Int.emod_def z, Int.emod_def (z / 2 ^ n), mul_assoc, Int.sub_mul_ediv_left _ _ hm.ne', Int.ediv_ediv_of_nonneg hm.le]
  have hr : modN n (a.toInt * b.toInt / ((2 ^ n : Nat) : Int)) =
      ((a.signExtend (2 * n) * b.signExtend (2 * n)).extractLsb' n n).toNat := by
    rw [BitVec.extractLsb'_toNat, BitVec.signExtend, BitVec.signExtend, ← BitVec.ofInt_mul, BitVec.toNat_ofInt,
      Nat.shiftRight_eq_div_pow, modN, two_mul, pow_add]
    have hpos : 0 ≤ a.toInt * b.toInt % ((2 ^ n * 2 ^ n : Nat) : Int) := Int.emod_nonneg _ (by positivity)
    refine Int.natCast_inj.mp ?_
    rw [Int.toNat_of_nonneg (Int.emod_nonneg _ (by positivity))]
    push_cast at hpos ⊢
    rw [Int.toNat_of_nonneg hpos, hdiv, Int.emod_emod_of_dvd _ (dvd_refl _)]
  rw [aluMulhs, sgn_toNat a hn, sgn_toNat b hn, hr]
  rfl

omit hn

theorem aluMulu_alu : aluMulu n a.toNat b.toNat = Result.alu { r := a * b, c := some (a.umulOverflow b) } := by
  rw [aluMulu, ← BitVec.toNat_mul]
  rfl

theorem aluMulhu_alu : aluMulhu n a.toNat b.toNat =
    Result.alu { r := (a.setWidth (2 * n) * b.setWidth (2 * n)).extractLsb' n n } := by
  have hle : n ≤ 2 * n := by omega
  have hpow : 2 ^ (2 * n) = 2 ^ n * 2 ^ n := by rw [two_mul, pow_add]
  have hlt : a.toNat * b.toNat < 2 ^ n * 2 ^ n := Nat.mul_lt_mul'' a.isLt b.isLt
  have hr : a.toNat * b.toNat / 2 ^ n = ((a.setWidth (2 * n) * b.setWidth (2 * n)).extractLsb' n n).toNat := by
    rw [BitVec.extractLsb'_toNat, BitVec.toNat_mul, BitVec.toNat_setWidth_of_le hle, BitVec.toNat_setWidth_of_le hle, hpow,
      Nat.mod_eq_of_lt hlt, Nat.shiftRight_eq_div_pow, Nat.mod_eq_of_lt (Nat.div_lt_of_lt_mul hlt)]
  rw [aluMulhu, hr]
  rfl

/-- The bit of a number that a shift brings out last. -/
theorem odd_div (i : Nat) : (a.toNat / 2 ^ i % 2 == 1) = a.getLsbD i := by
  rw [BitVec.getLsbD, Nat.testBit_eq_decide_div_mod_eq]
  rfl

theorem aluSll_alu (k : Nat) : aluSll n a.toNat k =
    Result.alu { r := a <<< k, c := some (decide (1 ≤ k ∧ k ≤ n) && a.getLsbD (n - k)) } := by
  rw [aluSll, odd_div, Result.alu, BitVec.toNat_shiftLeft, Nat.shiftLeft_eq]

theorem aluSrl_alu (k : Nat) : aluSrl n a.toNat k =
    Result.alu { r := a >>> k, c := some (decide (1 ≤ k) && a.getLsbD (k - 1)) } := by
  have hc : (decide (1 ≤ k ∧ k ≤ n) && a.getLsbD (k - 1)) = (decide (1 ≤ k) && a.getLsbD (k - 1)) := by
    by_cases hk : k ≤ n
    · simp [hk]
    · rw [BitVec.getLsbD_of_ge a (k - 1) (by omega), Bool.and_false, Bool.and_false]
  rw [aluSrl, odd_div, hc, Result.alu, BitVec.toNat_ushiftRight, Nat.shiftRight_eq_div_pow]

theorem aluSra_alu (hn : 0 < n) (k : Nat) : aluSra n a.toNat k =
    Result.alu { r := a.sshiftRight k, c := some (decide (1 ≤ k) && (if k ≤ n then a.getLsbD (k - 1) else a.msb)) } := by
  have hr : modN n (a.toInt / ((2 ^ k : Nat) : Int)) = (a.sshiftRight k).toNat := by
    rw [modN_eq, BitVec.sshiftRight_eq, Int.shiftRight_eq_div_pow]
  rw [aluSra, sgn_toNat a hn, hr, odd_div, top_bit]
  rfl

/-- A rotation brings the low bits above the others. -/
theorem aluRot_alu (hn : 0 < n) (k : Nat) : aluRot n a.toNat k = Result.alu { r := a.rotateRight k } := by
  have hrot : (a.rotateRight k).toNat = a.toNat / 2 ^ (k % n) + a.toNat * 2 ^ (n - k % n) % 2 ^ n := by
    have hk := Nat.mod_lt k hn
    have hpow : 2 ^ n = 2 ^ (k % n) * 2 ^ (n - k % n) := by rw [← pow_add]; congr 1; omega
    have hlow : a.toNat / 2 ^ (k % n) < 2 ^ (n - k % n) := Nat.div_lt_of_lt_mul (hpow ▸ a.isLt)
    have hhigh : a.toNat * 2 ^ (n - k % n) % 2 ^ n = (a.toNat % 2 ^ (k % n)) <<< (n - k % n) := by
      rw [hpow, Nat.mul_mod_mul_right, Nat.shiftLeft_eq]
    rw [BitVec.toNat_rotateRight, Nat.shiftRight_eq_div_pow, Nat.shiftLeft_eq, hhigh, Nat.or_comm,
      ← Nat.shiftLeft_add_eq_or_of_lt hlow, Nat.add_comm]
  rw [aluRot, ← Nat.add_mod_mod, ← hrot, Nat.mod_eq_of_lt (BitVec.isLt _)]
  rfl

/-! ## Division (R197, Table 5-3) -/

theorem aluDivu_alu : aluDivu n a.toNat b.toNat = Result.alu { r := a / b, dz := b == 0 } := by
  by_cases hb : b = 0
  · subst hb
    simp [aluDivu, Result.alu]
  · have hb0 : b.toNat ≠ 0 := fun h => hb (BitVec.eq_of_toNat_eq h)
    rw [aluDivu, if_neg hb0, ← BitVec.toNat_udiv, beq_eq_false_iff_ne.mpr hb]
    rfl

theorem aluRemu_alu : aluRemu n a.toNat b.toNat = Result.alu { r := a % b, dz := b == 0 } := by
  by_cases hb : b = 0
  · subst hb
    simp [aluRemu, Result.alu]
  · have hb0 : b.toNat ≠ 0 := fun h => hb (BitVec.eq_of_toNat_eq h)
    rw [aluRemu, if_neg hb0, ← BitVec.toNat_umod, beq_eq_false_iff_ne.mpr hb]
    rfl

section
variable (hn : 0 < n)
include hn

theorem toInt_neg_one : BitVec.toInt (-1 : BitVec n) = -1 := by
  have hones : (-1 : BitVec n) = BitVec.allOnes n := BitVec.neg_one_eq_allOnes
  rw [hones, BitVec.toInt_allOnes, if_pos hn]

/-- The one quotient that does not fit its width is that of the most negative value by −1. -/
theorem not_fitsN_tdiv : (!fitsN n (a.toInt.tdiv b.toInt)) = decide (a = BitVec.intMin n ∧ b = -1) := by
  rw [not_fitsN]
  by_cases h : a = BitVec.intMin n ∧ b = -1
  · obtain ⟨rfl, rfl⟩ := h
    rw [toInt_neg_one hn, BitVec.toInt_intMin_of_pos hn, Int.neg_tdiv_neg, Int.tdiv_one]
    simp
  · have hq : (a.sdiv b).toInt = a.toInt.tdiv b.toInt :=
      BitVec.toInt_sdiv_of_ne_or_ne a b ((not_and_or.mp h).imp id id)
    have hlo := BitVec.le_toInt (a.sdiv b)
    have hhi := BitVec.toInt_lt (x := a.sdiv b)
    rw [← hq, decide_eq_false (not_le.mpr hhi), decide_eq_false (not_lt.mpr hlo), decide_eq_false h]
    rfl

/-- Zero is no −1. -/
theorem zero_ne_neg_one : ¬(a = BitVec.intMin n ∧ (0 : BitVec n) = -1) := by
  rintro ⟨-, h⟩
  have hint : (0 : Int) = -1 := BitVec.toInt_zero.symm.trans ((congrArg BitVec.toInt h).trans (toInt_neg_one hn))
  exact absurd hint (by decide)

theorem aluDivs_alu : aluDivs n a.toNat b.toNat =
    Result.alu { r := a.sdiv b, v := some (decide (a = BitVec.intMin n ∧ b = -1)), dz := b == 0 } := by
  by_cases hb : b = 0
  · subst hb
    have hq : a.sdiv 0 = 0 := BitVec.sdiv_zero
    rw [decide_eq_false (zero_ne_neg_one a hn), hq]
    simp [aluDivs, Result.alu]
  · have hb0 : b.toNat ≠ 0 := fun h => hb (BitVec.eq_of_toNat_eq h)
    have hr : modN n (a.toInt.tdiv b.toInt) = (a.sdiv b).toNat := by
      rw [modN_eq]
      exact congrArg _ (BitVec.eq_of_toInt_eq ((BitVec.toInt_ofInt _).trans (BitVec.toInt_sdiv a b).symm))
    rw [aluDivs, if_neg hb0]
    dsimp only
    rw [sgn_toNat a hn, sgn_toNat b hn, hr, not_fitsN_tdiv a b hn, beq_eq_false_iff_ne.mpr hb]
    rfl

theorem aluRems_alu : aluRems n a.toNat b.toNat =
    Result.alu { r := a.srem b, v := some (decide (a = BitVec.intMin n ∧ b = -1)), dz := b == 0 } := by
  by_cases hb : b = 0
  · subst hb
    have hr : a.srem 0 = a := BitVec.srem_zero
    rw [decide_eq_false (zero_ne_neg_one a hn), hr]
    simp [aluRems, Result.alu]
  · have hb0 : b.toNat ≠ 0 := fun h => hb (BitVec.eq_of_toNat_eq h)
    have hr : modN n (a.toInt.tmod b.toInt) = (a.srem b).toNat := by
      rw [modN_eq, ← BitVec.toInt_srem, BitVec.ofInt_toInt]
    rw [aluRems, if_neg hb0, sgn_toNat a hn, sgn_toNat b hn, hr, not_fitsN_tdiv a b hn, beq_eq_false_iff_ne.mpr hb]
    rfl

end
end

/-! ## The statements -/

/-- Settles O1: each row by its operation's law; CMP and TST are SUB and AND whose rd is 0, NEG is SUB from 0, and a shift's count is
the low 8 bits of its operand. -/
theorem arithmeticResults : Obligations.ArithmeticResults := by
  unfold Obligations.ArithmeticResults
  refine ⟨⟨?add, ?sub, ?cmp, ?neg⟩, ⟨?and, ?or, ?xor, ?tst⟩, ?sll, ?srl, ?sra, ?rot⟩
  case add => exact computes_of_alu (fun _ _ _ => rfl) fun _ _ a b _ hn => aluAdd_alu a b hn
  case sub => exact computes_of_alu (fun _ _ _ => rfl) fun _ _ a b _ hn => aluSub_alu a b hn
  case cmp => exact computes_of_alu (fun _ _ _ => rfl) fun _ _ a b _ hn => aluSub_alu a b hn
  case neg =>
    exact computes_of_plain (h := fun n a => aluSub n 0 a) (fun _ _ _ => rfl) fun _ n a _ _ hn => by
      rw [← BitVec.zero_sub]
      exact aluSub_alu (0 : BitVec n) a hn
  case and => exact computes_of_alu (fun _ _ _ => rfl) fun _ _ a b _ _ => by rw [aluAnd, ← BitVec.toNat_and]; rfl
  case or => exact computes_of_alu (fun _ _ _ => rfl) fun _ _ a b _ _ => by rw [aluOr, ← BitVec.toNat_or]; rfl
  case xor => exact computes_of_alu (fun _ _ _ => rfl) fun _ _ a b _ _ => by rw [aluXor, ← BitVec.toNat_xor]; rfl
  case tst => exact computes_of_alu (fun _ _ _ => rfl) fun _ _ a b _ _ => by rw [aluAnd, ← BitVec.toNat_and]; rfl
  case sll => exact computes_of_alu (fun _ _ _ => rfl) fun _ _ a b _ _ => aluSll_alu a (b.toNat % 256)
  case srl => exact computes_of_alu (fun _ _ _ => rfl) fun _ _ a b _ _ => aluSrl_alu a (b.toNat % 256)
  case sra => exact computes_of_alu (fun _ _ _ => rfl) fun _ _ a b _ hn => aluSra_alu a hn (b.toNat % 256)
  case rot => exact computes_of_alu (fun _ _ _ => rfl) fun _ _ a b _ hn => aluRot_alu a hn (b.toNat % 256)

/-- Settles O2: each row by its operation's law. -/
theorem multiplyDivideResults : Obligations.MultiplyDivideResults := by
  unfold Obligations.MultiplyDivideResults
  refine ⟨⟨?muls, ?mulu, ?mulhs, ?mulhu⟩, ?divs, ?divu, ?rems, ?remu⟩
  case muls => exact computes_of_alu (fun _ _ _ => rfl) fun _ _ a b _ hn => aluMuls_alu a b hn
  case mulu => exact computes_of_alu (fun _ _ _ => rfl) fun _ _ a b _ _ => aluMulu_alu a b
  case mulhs => exact computes_of_alu (fun _ _ _ => rfl) fun _ _ a b _ hn => aluMulhs_alu a b hn
  case mulhu => exact computes_of_alu (fun _ _ _ => rfl) fun _ _ a b _ _ => aluMulhu_alu a b
  case divs => exact computes_of_alu (fun _ _ _ => rfl) fun _ _ a b _ hn => aluDivs_alu a b hn
  case divu => exact computes_of_alu (fun _ _ _ => rfl) fun _ _ a b _ _ => aluDivu_alu a b
  case rems => exact computes_of_alu (fun _ _ _ => rfl) fun _ _ a b _ hn => aluRems_alu a b hn
  case remu => exact computes_of_alu (fun _ _ _ => rfl) fun _ _ a b _ _ => aluRemu_alu a b

end Sys2Proof.Machine
end

section
/-! The bit field and count groups and BSWAP (R19, R196, Table 5-2). -/

namespace Sys2Proof.Machine

/-! ## Bytes of a number (R19) -/

/-- A byte of a number from its little-endian bytes. -/
theorem getD_toLe (n v i : Nat) : (toLe n v).getD i 0 = if i < n then BitVec.ofNat 8 (v / 256 ^ i) else 0 := by
  induction n generalizing v i with
  | zero => rfl
  | succ n ih =>
    cases i with
    | zero => simp [toLe]
    | succ i =>
      rw [toLe, List.getD_cons_succ, ih, Nat.div_div_eq_div_mul, ← Nat.pow_succ']
      simp only [Nat.add_lt_add_iff_right]

/-- The little-endian bytes of a register are its eight bytes. -/
theorem getD_toLe_word {n i : Nat} (h : i < n) (v : DWord) : (toLe n v.toNat).getD i 0 = v.extractLsb' (8 * i) 8 := by
  rw [getD_toLe, if_pos h]
  refine BitVec.eq_of_toNat_eq ?_
  rw [BitVec.toNat_ofNat, BitVec.extractLsb'_toNat, Nat.shiftRight_eq_div_pow, Nat.pow_mul]

/-- The bytes of the number whose little-endian bytes are given. -/
theorem ofLe_byte (l : List Byte) (i : Nat) : BitVec.ofNat 8 (ofLe l / 256 ^ i) = l.getD i 0 := by
  induction l generalizing i with
  | nil => simp [ofLe]
  | cons b r ih =>
    cases i with
    | zero =>
      refine BitVec.eq_of_toNat_eq ?_
      have hb : (b.toNat + 256 * ofLe r) % 256 = b.toNat := by have := b.isLt; omega
      simpa [ofLe] using hb
    | succ i =>
      have hdiv : (b.toNat + 256 * ofLe r) / 256 = ofLe r := by have := b.isLt; omega
      rw [ofLe, Nat.pow_succ', ← Nat.div_div_eq_div_mul, hdiv, ih, List.getD_cons_succ]

theorem ofLe_lt (l : List Byte) : ofLe l < 256 ^ l.length := by
  induction l with
  | nil => exact Nat.one_pos
  | cons b r ih =>
    have := b.isLt
    rw [ofLe, List.length_cons, Nat.pow_succ']
    omega

/-! ## Bit fields (R196) -/

section
variable {n : Nat} {w : IW} (a d : BitVec n) (h : bfLsb w + bfWid w ≤ n)
include h

theorem bfExt_eq : bfExt w a.toNat = ((a.extractLsb' (bfLsb w) (bfWid w)).setWidth n).toNat := by
  rw [BitVec.toNat_setWidth_of_le (by omega), BitVec.extractLsb'_toNat, Nat.shiftRight_eq_div_pow]
  rfl

omit h in
theorem bfExts_eq : bfExts w n a.toNat = ((a.extractLsb' (bfLsb w) (bfWid w)).signExtend n).toNat := by
  have hwid : 0 < bfWid w := Nat.succ_pos _
  have hfield : bfExt w a.toNat = (a.extractLsb' (bfLsb w) (bfWid w)).toNat := by
    rw [BitVec.extractLsb'_toNat, Nat.shiftRight_eq_div_pow]
    rfl
  rw [bfExts, hfield, sgn_toNat _ hwid, modN_eq]
  rfl

/-- INS replaces the field's bits with the low bits of its operand and keeps the others. -/
theorem bfIns_eq : bfIns w d.toNat a.toNat =
    ((d &&& ~~~((BitVec.allOnes (bfWid w)).setWidth n <<< bfLsb w)) |||
      ((a &&& (BitVec.allOnes (bfWid w)).setWidth n) <<< bfLsb w)).toNat := by
  refine Nat.eq_of_testBit_eq fun i => ?_
  have hset := set_testBit d.toNat (bfLsb w) (bfWid w) (a.toNat % 2 ^ bfWid w) i (Nat.mod_lt _ (by positivity))
  rw [Nat.shiftRight_eq_div_pow] at hset
  refine hset.trans ?_
  rw [BitVec.testBit_toNat, BitVec.testBit_toNat, Nat.testBit_mod_two_pow, BitVec.testBit_toNat]
  simp only [BitVec.getLsbD_or, BitVec.getLsbD_and, BitVec.getLsbD_not, BitVec.getLsbD_shiftLeft, BitVec.getLsbD_setWidth,
    BitVec.getLsbD_allOnes]
  by_cases hn : i < n
  · by_cases hi : bfLsb w ≤ i ∧ i < bfLsb w + bfWid w
    · have h1 : i - bfLsb w < bfWid w := by omega
      have h2 : i - bfLsb w < n := by omega
      simp [hi, hn, h1, h2, not_lt.mpr hi.1]
    · by_cases hl : i < bfLsb w
      · simp [hi, hn, hl]
      · have h1 : ¬ i - bfLsb w < bfWid w := by omega
        simp [hi, hn, hl, h1]
  · rw [if_neg (by omega), BitVec.getLsbD_of_ge d i (by omega)]
    simp [hn]

end

/-! ## Counts (Table 5-2) -/

/-- The leading zeros from bit `m` down, below bits that are not looked at. -/
theorem toNat_clzAuxRec {n : Nat} (a : BitVec n) {m : Nat} (hm : m < n) :
    (a.clzAuxRec m).toNat = (n - 1 - m) + clzN (m + 1) a.toNat := by
  have hn (k : Nat) (hk : k ≤ n) : (BitVec.ofNat n k).toNat = k := Nat.mod_eq_of_lt (hk.trans_lt Nat.lt_two_pow_self)
  have hbit (i : Nat) : (a.toNat / 2 ^ i % 2 = 1) ↔ a.getLsbD i = true := by rw [← odd_div, beq_iff_eq]
  induction m with
  | zero =>
    rw [BitVec.clzAuxRec_zero, clzN]
    simp only [hbit]
    split
    · rw [hn _ (by omega)]; omega
    · rw [hn _ (by omega), clzN]; omega
  | succ m ih =>
    rw [BitVec.clzAuxRec_succ, clzN]
    simp only [hbit]
    split
    · rw [hn _ (by omega)]
      omega
    · rw [ih (by omega)]
      omega

theorem clzN_eq {n : Nat} (hn : 0 < n) (a : BitVec n) : clzN n a.toNat = a.clz.toNat := by
  rw [BitVec.clz, toNat_clzAuxRec a (by omega), Nat.sub_self, Nat.zero_add, Nat.sub_add_cancel hn]

/-- The trailing zeros from bit `n − 1 − m` up, which the reversed word has as its leading zeros from bit `m` down. -/
theorem toNat_clzAuxRec_reverse {n : Nat} (a : BitVec n) {m : Nat} (hm : m < n) :
    (a.reverse.clzAuxRec m).toNat = (n - 1 - m) + ctzN (m + 1) (a.toNat / 2 ^ (n - 1 - m)) := by
  have hn (k : Nat) (hk : k ≤ n) : (BitVec.ofNat n k).toNat = k := Nat.mod_eq_of_lt (hk.trans_lt Nat.lt_two_pow_self)
  have hbit (i : Nat) (hi : i < n) : a.reverse.getLsbD i = true ↔ a.toNat / 2 ^ (n - 1 - i) % 2 = 1 := by
    rw [BitVec.getLsbD_reverse, BitVec.getMsbD, decide_eq_true hi, Bool.true_and, ← odd_div, beq_iff_eq]
  induction m with
  | zero =>
    rw [BitVec.clzAuxRec_zero, ctzN]
    simp only [hbit 0 hm]
    split
    · rw [hn _ (by omega)]; omega
    · rw [hn _ (by omega), ctzN]; omega
  | succ m ih =>
    rw [BitVec.clzAuxRec_succ, ctzN]
    simp only [hbit (m + 1) hm]
    split
    · rw [hn _ (by omega)]
      omega
    · rw [ih (by omega), Nat.div_div_eq_div_mul, ← Nat.pow_succ, show (n - 1 - (m + 1)).succ = n - 1 - m by omega]
      omega

theorem ctzN_eq {n : Nat} (hn : 0 < n) (a : BitVec n) : ctzN n a.toNat = a.ctz.toNat := by
  rw [BitVec.ctz, BitVec.clz, toNat_clzAuxRec_reverse a (by omega), Nat.sub_self, Nat.zero_add, Nat.sub_add_cancel hn, pow_zero,
    Nat.div_one]

/-- One bits counted from below are those below the top one, and it. -/
theorem popcN_succ (n a : Nat) : popcN (n + 1) a = popcN n a + (a.testBit n).toNat := by
  induction n generalizing a with
  | zero =>
    simp only [popcN, Nat.testBit_zero]
    have := Nat.mod_two_eq_zero_or_one a
    rcases this with h | h <;> simp [h]
  | succ n ih => rw [popcN, ih, Nat.testBit_succ, popcN]; omega

theorem popcN_eq {n : Nat} (a : BitVec n) : popcN n a.toNat = a.cpop.toNat := by
  have hrec (m : Nat) : a.cpopNatRec m 0 = popcN m a.toNat := by
    induction m with
    | zero => rfl
    | succ m ih => rw [BitVec.cpopNatRec_succ, BitVec.cpopNatRec_eq, ih, popcN_succ, Nat.zero_add]; rfl
  rw [BitVec.toNat_cpop, hrec]

/-! ## BSWAP (Table 5-2) -/

/-- The bytes of a register that takes a number from its little-endian bytes. -/
theorem extractLsb'_ofLe {l : List Byte} (hl : l.length ≤ 8) (i : Nat) :
    (BitVec.ofNat 64 (ofLe l)).extractLsb' (8 * i) 8 = l.getD i 0 := by
  have hlt : ofLe l < 2 ^ 64 := (ofLe_lt l).trans_le (Nat.pow_le_pow_right (by decide) hl)
  rw [← ofLe_byte]
  refine BitVec.eq_of_toNat_eq ?_
  rw [BitVec.extractLsb'_toNat, BitVec.toNat_ofNat, Nat.mod_eq_of_lt hlt, BitVec.toNat_ofNat, Nat.shiftRight_eq_div_pow, Nat.pow_mul]

/-- Byte `i` of the reversed low bytes of a register is the byte as far from the other end; above them stands 0. -/
theorem extractLsb'_revBytes {k : Nat} (hk : k ≤ 8) (v : DWord) (i : Nat) :
    (BitVec.ofNat 64 (revBytes k v.toNat)).extractLsb' (8 * i) 8 = if i < k then v.extractLsb' (8 * (k - 1 - i)) 8 else 0 := by
  have hlen : (toLe k v.toNat).length = k := toLe_len k _
  rw [revBytes, ofBe, extractLsb'_ofLe (by rw [List.length_reverse, hlen]; exact hk)]
  split
  · next hi =>
    rw [List.getD_reverse _ (by rw [hlen]; exact hi), hlen, getD_toLe_word (by omega)]
  · next hi => exact List.getD_eq_default _ _ (by rw [List.length_reverse, hlen]; omega)

theorem toNat_revBytes {k : Nat} (hk : k ≤ 8) (v : DWord) : (BitVec.ofNat 64 (revBytes k v.toNat)).toNat = revBytes k v.toNat := by
  have hlt := ofLe_lt (toLe k v.toNat).reverse
  rw [List.length_reverse, toLe_len] at hlt
  exact Nat.mod_eq_of_lt (hlt.trans_le (Nat.pow_le_pow_right (by decide) hk))

/-- A bit of mod that the instruction defines as 0 is 0 (R104). -/
theorem bit_md_of_fieldsOk {w : IW} {rd ra rb ss : Bool} {md imm i : Nat} (h : fieldsOk w rd ra rb ss md imm = true)
    (hi : i < 6) (h0 : md.testBit i = false) : bit w.md i = false := by
  simp only [fieldsOk, Bool.and_eq_true, beq_iff_eq] at h
  have hbit : (w.md &&& ~~~BitVec.ofNat 6 md).getLsbD i = false := by rw [h.1.2]; exact BitVec.getLsbD_zero
  rw [BitVec.getLsbD_and, BitVec.getLsbD_not, BitVec.getLsbD_ofNat, decide_eq_true hi, h0] at hbit
  exact (Bool.and_true _).symm.trans hbit

/-- The bits of imm32 that an instruction uses are all of it when the others are 0 (R104). -/
theorem imm_lt_of_fieldsOk {w : IW} {rd ra rb ss : Bool} {md m : Nat} (h : fieldsOk w rd ra rb ss md (2 ^ m - 1) = true) :
    w.imm.toNat < 2 ^ m := by
  simp only [fieldsOk, Bool.and_eq_true, beq_iff_eq] at h
  refine Nat.lt_pow_two_of_testBit _ fun i hi => ?_
  by_cases h32 : i < 32
  · have hbit : (w.imm &&& ~~~BitVec.ofNat 32 (2 ^ m - 1)).getLsbD i = false := by rw [h.2]; exact BitVec.getLsbD_zero
    rw [BitVec.getLsbD_and, BitVec.getLsbD_not, BitVec.getLsbD_ofNat, decide_eq_true h32, Nat.testBit_two_pow_sub_one,
      decide_eq_false (not_lt.mpr hi)] at hbit
    exact (Bool.and_true _).symm.trans hbit
  · exact BitVec.getLsbD_of_ge _ _ (by omega)

section
variable {e : EngId} {w : IW} {s : State} (hr : s.runs e 0x56 w = true)
include hr

theorem bswap_illegal (h : (fieldsOk w true true false false 0x03 0 && fld w.md 0 2 != 3) = false) :
    exec (.bswap e w) s = .next (illegal e 0x56 w s) :=
  (act_insn hr _ _).trans (congrArg _ (if_neg (by rw [h, Bool.false_and]; decide)))

theorem bswap_wrote (hok : fieldsOk w true true false false 0x03 0 = true) (hsz : fld w.md 0 2 ≠ 3) :
    let x := s.eng e
    let v := BitVec.ofNat 64 (revBytes (8 / 2 ^ fld w.md 0 2) (x.rg w.ra).toNat)
    exec (.bswap e w) s = .next (s.setEng e (x.wrote w.rd v ({ r := v : Result 64 }.psr x.psr))) := by
  intro x v
  have hform : formW w = false := bit_md_of_fieldsOk hok (by decide) (by decide)
  have hn : opWidth w = 64 := by rw [opWidth, hform]; rfl
  have hgood : (fieldsOk w true true false false 0x03 0 && fld w.md 0 2 != 3) = true := by simp [hok, hsz]
  have hbody : exec (.bswap e w) s = .next (aluEnds e (opWidth w) w.rd
      { r := revBytes (8 / 2 ^ fld w.md 0 2) (lowN (opWidth w) (x.rg w.ra)) } s) :=
    (act_insn hr _ _).trans (congrArg _ (if_pos (by rw [hgood]; exact imgGives_always s e)))
  have hlow : lowN 64 (x.rg w.ra) = (x.rg w.ra).toNat := Nat.mod_eq_of_lt (x.rg w.ra).isLt
  have hv : ({ r := revBytes (8 / 2 ^ fld w.md 0 2) (x.rg w.ra).toNat } : Alu) = ({ r := v } : Result 64).alu :=
    congrArg (Alu.mk · none none false) (toNat_revBytes (Nat.div_le_self ..) _).symm
  rw [hbody, hn, hlow, hv, aluEnds_wrote rfl, wideN_dword]

end

/-- Settles O3: each row by its operation's law; BSWAP has no ".w" form, and its size is one of 8, 4 and 2. -/
theorem bitResults : Obligations.BitResults := by
  unfold Obligations.BitResults
  have fits {w : IW} {n : Nat} (hw : n = opWidth w) (h : bfOk w = true) : bfLsb w + bfWid w ≤ n := hw ▸ of_decide_eq_true h
  refine ⟨⟨?ext, ?exts, ?ins⟩, ?clz, ?ctz, ?popc, fun e w s hr => ?bswap⟩
  case ext =>
    exact computes_of_un (h := fun w _ a _ => { r := bfExt w a }) (fun _ _ _ => rfl) fun _ _ a _ _ _ hw hok =>
      congrArg (Alu.mk · none none false) (bfExt_eq a (fits hw hok))
  case exts =>
    exact computes_of_un (h := fun w n a _ => { r := bfExts w n a }) (fun _ _ _ => rfl) fun _ _ a _ _ _ _ _ =>
      congrArg (Alu.mk · none none false) (bfExts_eq a)
  case ins =>
    exact computes_of_un (h := fun w _ a d => { r := bfIns w d a }) (fun _ _ _ => rfl) fun _ _ a _ d _ hw hok =>
      congrArg (Alu.mk · none none false) (bfIns_eq a d (fits hw hok))
  case clz =>
    exact computes_of_plain (h := fun n a => { r := clzN n a }) (fun _ _ _ => rfl) fun _ _ a _ _ hn =>
      congrArg (Alu.mk · none none false) (clzN_eq hn a)
  case ctz =>
    exact computes_of_plain (h := fun n a => { r := ctzN n a }) (fun _ _ _ => rfl) fun _ _ a _ _ hn =>
      congrArg (Alu.mk · none none false) (ctzN_eq hn a)
  case popc =>
    exact computes_of_plain (h := fun n a => { r := popcN n a }) (fun _ _ _ => rfl) fun _ _ a _ _ _ =>
      congrArg (Alu.mk · none none false) (popcN_eq a)
  case bswap =>
    intro x k
    have hk : k ≤ 8 := Nat.div_le_self ..
    refine ⟨fun hbad => ?_, fun hok hsz => ⟨_, extractLsb'_revBytes hk (x.rg w.ra), ?_⟩⟩
    · refine bswap_illegal hr ?_
      rcases hbad with h | h
      · rw [h, Bool.false_and]
      · rw [h]; exact Bool.and_false _
    · exact bswap_wrote hr hok hsz

end Sys2Proof.Machine
end

section
/-! Alcove accesses and loads of program space (R108, R198 to R202, R273, R458, R522). -/

namespace Sys2Proof.Machine

/-! ## LD and ST (R108, R198) -/

theorem accSize_pos (w : IW) : 0 < accSize w := Nat.two_pow_pos _

/-- A loaded value is the value of its bytes, sign- or zero-extended. -/
theorem loaded_eq (w : IW) {v : Nat} (hv : v < 2 ^ (8 * accSize w)) :
    loaded w v = if bit w.md 2 then (BitVec.ofNat (8 * accSize w) v).signExtend 64 else (BitVec.ofNat (8 * accSize w) v).setWidth 64 := by
  have hpos : 0 < 8 * accSize w := Nat.mul_pos (by decide) (accSize_pos w)
  have hnat : (BitVec.ofNat (8 * accSize w) v).toNat = v := Nat.mod_eq_of_lt hv
  have hsigned : sgn (8 * accSize w) v = (BitVec.ofNat (8 * accSize w) v).toInt := by rw [← sgn_toNat _ hpos, hnat]
  refine ite_congr rfl (fun _ => ?_) fun _ => ?_
  · rw [hsigned, modN_eq, BitVec.ofNat_toNat, BitVec.setWidth_eq]
    rfl
  · exact BitVec.eq_of_toNat_eq (by rw [BitVec.toNat_ofNat, BitVec.toNat_setWidth, hnat])

theorem ofLe_alcRead_lt (x : Engine) (a n : Nat) : ofLe (x.alcRead a n) < 2 ^ (8 * n) := by
  have h := ofLe_lt (x.alcRead a n)
  rwa [length_alcRead, show (256 : Nat) = 2 ^ 8 from rfl, ← Nat.pow_mul] at h

theorem alcoveAt_bad {e : EngId} {a : DWord} {n : Nat} {s : State} (f : Engine → Engine) (h : a.toNat % n ≠ 0 ∨ 0x2000 < a.toNat + n) :
    alcoveAt e a n f s = excAt e (if a.toNat % n ≠ 0 then 0x03 else 0x04) (a.setWidth 32) a none s := by
  unfold alcoveAt
  rw [ofNat_lowN]
  by_cases hm : a.toNat % n ≠ 0
  · rw [if_pos hm, if_pos hm]
  · rw [if_neg hm, if_pos (h.resolve_left hm), if_neg hm]

theorem alcoveAt_good {e : EngId} {a : DWord} {n : Nat} {s : State} (f : Engine → Engine) (h : ¬(a.toNat % n ≠ 0 ∨ 0x2000 < a.toNat + n)) :
    alcoveAt e a n f s = s.setEng e (f (s.eng e)).retire := by
  obtain ⟨hm, hr⟩ := not_or.mp h
  unfold alcoveAt
  rw [if_neg hm, if_neg hr]
  rfl

/-- A row that cannot stall, that needs no feature of the image, and whose fields are good, is its body. -/
theorem runs_insn {i : Instr} {e : EngId} {op : Nat} {w : IW} {s : State} {ok : Bool} {body : State → State} (h : s.runs e op w = true)
    (hi : exec i s = act s (insn e op w ok body s)) (hfeat : opFeat op = 0) (hminor : opMinor op w = 0) (hok : ok = true) :
    exec i s = .next (body s) := by
  rw [hi, act_insn h, hok, hfeat, hminor, imgGives_always]
  rfl

/-- Such a row raises ILLEGAL when a field check fails (R104). -/
theorem runs_insn_illegal {i : Instr} {e : EngId} {op : Nat} {w : IW} {s : State} {ok : Bool} {body : State → State}
    (h : s.runs e op w = true) (hi : exec i s = act s (insn e op w ok body s)) (hok : ok = false) :
    exec i s = .next (illegal e op w s) := by
  rw [hi, act_insn h, hok]
  rfl

/-- An engine that writes a register and retires keeps its psr. -/
theorem wrote_psr (x : Engine) (r : BitVec 5) (v : DWord) : (x.setRg r v).retire = x.wrote r v x.psr := by
  unfold Engine.wrote Engine.setRg
  split <;> rfl

/-- Settles O8: each row by its body, the access after the checks of R108. -/
theorem alcoveAccess : Obligations.AlcoveAccess := by
  unfold Obligations.AlcoveAccess
  intro e w s
  extract_lets x a n v bad exc
  refine ⟨fun hr => ⟨fun hok => runs_insn_illegal hr rfl hok, fun hok => ?ld⟩, fun hr hok => runs_insn_illegal hr rfl hok, fun hr hok => ?st⟩
  case ld =>
    have hbody : exec (.ld e w) s = .next (alcoveAt e a n (fun y => y.setRg w.rd (loaded w (ofLe (y.alcRead a.toNat n)))) s) :=
      (runs_insn (i := .ld e w) hr rfl rfl rfl hok :)
    refine ⟨fun hb => hbody.trans (congrArg _ (alcoveAt_bad _ hb)), fun hb => hbody.trans (congrArg _ ?_)⟩
    rw [alcoveAt_good _ hb, wrote_psr, loaded_eq w (ofLe_alcRead_lt x a.toNat n)]
    rfl
  case st =>
    have hbody : exec (.st e w) s = .next (alcoveAt e a n (fun y => y.alcWrite a.toNat (toLe n (y.rg w.rb).toNat)) s) :=
      (runs_insn (i := .st e w) hr rfl rfl rfl hok :)
    have hget (k : Nat) : Tbl.get 0 (x.alcWrite a.toNat (toLe n (x.rg w.rb).toNat)).alc k =
        if a.toNat ≤ k ∧ k < a.toNat + n then (toLe n (x.rg w.rb).toNat).getD (k - a.toNat) 0 else Tbl.get 0 x.alc k := by
      have h := alcByte_alcWrite x a.toNat (toLe n (x.rg w.rb).toNat) k
      rwa [toLe_len] at h
    refine ⟨fun hb => hbody.trans (congrArg _ (alcoveAt_bad _ hb)), fun hb => ⟨(x.alcWrite a.toNat (toLe n (x.rg w.rb).toNat)).alc,
      hbody.trans (congrArg _ (alcoveAt_good _ hb)), fun k hk => ?_, fun k hk => ?_⟩⟩
    · rw [hget, if_pos (by omega), Nat.add_sub_cancel_left, getD_toLe_word hk]
    · rw [hget, if_neg (by omega)]

/-! ## LDV and TCLD (R199 to R202, R273) -/

/-- Bytes that do not cross their line are read from that line alone. -/
theorem psRead_line (e : EngId) (what off : Nat) {n : Nat} (s : State) (h0 : 0 < n)
    (h : (s.psBase + BitVec.ofNat 64 off).toNat % 64 + n ≤ 64) :
    let a := (s.psBase + BitVec.ofNat 64 off).toNat
    psRead e what off n s = (lineRead e what a s).bind fun b t => .ok (slice b (a % 64) n) t := by
  unfold psRead
  generalize (s.psBase + BitVec.ofNat 64 off).toNat = a at *
  dsimp only
  rw [show (a + n - 1) / 64 - a / 64 + 1 = 1 by omega, linesRead_one]

/-- A line that the agent holds is at hand once the wing's slice has obtained it (R458). -/
theorem lineRead_agent {e : EngId} {what a : Nat} {s : State} (hfl : s.vitFlush = false) (hst : (s.line (a / 64)).st ≠ .I) :
    lineRead e what a s = .ok (s.line (a / 64)).data (obtain_ (sliceOf s (e.g.toNat / 8)) (a / 64) s) := by
  unfold lineRead
  dsimp only
  rw [hfl, if_neg (by decide), if_pos hst]

/-- A read of program space from a line that the agent holds. -/
theorem psRead_held {e : EngId} {what off n : Nat} {s : State} (hfl : s.vitFlush = false)
    (hst : (s.line ((s.psBase + BitVec.ofNat 64 off).toNat / 64)).st ≠ .I)
    (hin : (s.psBase + BitVec.ofNat 64 off).toNat % 64 + n ≤ 64) (h0 : 0 < n) :
    let a := (s.psBase + BitVec.ofNat 64 off).toNat
    psRead e what off n s = .ok (slice (s.line (a / 64)).data (a % 64) n) (obtain_ (sliceOf s (e.g.toNat / 8)) (a / 64) s) := by
  dsimp only
  rw [psRead_line e what off s h0 hin, lineRead_agent hfl hst]
  rfl

theorem counterRead_known {e : EngId} {off : Nat} {s : State} {v : DWord}
    (h : Tbl.get none (s.eng e).counters off = some v ∨
      (Tbl.get none (s.eng e).counters off = none ∧ heldCounter off (s.chan (s.eng e).ch).rel = some v)) :
    counterRead e off s = .ok (toLe 8 v.toNat) s := by
  unfold counterRead
  rcases h with h | ⟨hn, h⟩
  · simp only [h]
  · simp only [hn, h]

theorem counterRead_space {e : EngId} {off : Nat} {s : State} (hn : Tbl.get none (s.eng e).counters off = none)
    (h : heldCounter off (s.chan (s.eng e).ch).rel = none) : counterRead e off s = psRead e 1 off 8 s := by
  unfold counterRead
  simp only [hn, h]

/-- The same for the read of an instruction that has begun. -/
theorem psRead_begins {e : EngId} {op what off n : Nat} {w : IW} {s : State} (hfl : s.vitFlush = false)
    (hst : (s.line ((s.psBase + BitVec.ofNat 64 off).toNat / 64)).st ≠ .I)
    (hin : (s.psBase + BitVec.ofNat 64 off).toNat % 64 + n ≤ 64) (h0 : 0 < n) :
    let a := (s.psBase + BitVec.ofNat 64 off).toNat
    psRead e what off n (s.begins e op w) =
      .ok (slice (s.line (a / 64)).data (a % 64) n) (obtain_ (sliceOf s (e.g.toNat / 8)) (a / 64) (s.begins e op w)) :=
  psRead_held (s := s.begins e op w) hfl hst hin h0

/-- The instruction writes the bytes read to its register, and retires. -/
theorem loads_wrote (u : State) (e : EngId) (rd : BitVec 5) (b : List Byte) :
    u.modEng e (fun y => (y.setRg rd (BitVec.ofNat 64 (ofLe b))).retire) =
      u.modEng e (fun y => y.wrote rd (BitVec.ofNat 64 (ofLe b)) y.psr) := by
  simp only [wrote_psr]

theorem ofNat_lowN_wide (v : DWord) : BitVec.ofNat 64 (lowN 32 v) = (v.setWidth 32).setWidth 64 := by
  refine BitVec.eq_of_toNat_eq ?_
  rw [BitVec.toNat_ofNat, BitVec.toNat_setWidth, BitVec.toNat_setWidth]
  rfl

section
variable {e : EngId} {w : IW} {s : State}

theorem ldv_body (hr : s.runs e 0x62 w = true) (hok : fieldsOk w true true false false 0x03 0xFFFFFFFF = true) :
    let t := s.begins e 0x62 w
    let a := memAddr (s.eng e) w
    exec (.ldv e w) s = .next
      (if a.toNat < 0x40 ∨ 2 ^ 32 ≤ a.toNat ∨ s.psSize ≤ a.toNat then excAt e 0x02 0 (BitVec.ofNat 64 (lowN 32 a)) none t
      else (psRead e 1 (a.toNat / accSize w * accSize w) (accSize w) t).run fun b u =>
        u.modEng e (fun y => y.wrote w.rd (BitVec.ofNat 64 (ofLe b)) y.psr)) := by
  have haddr : memAddr ((s.begins e 0x62 w).eng e) w = memAddr (s.eng e) w := by rw [eng_begins]; rfl
  refine (runs_body (i := .ldv e w) hr rfl rfl rfl hok :).trans (congrArg _ ?_)
  simp only [haddr, loads_wrote]
  rfl

theorem tcld_body (hr : s.runs e 0x63 w = true) (hok : fieldsOk w true true false false 0 0xFFFFFFFF = true)
    (himg : imgGives s e 4 0 = true) :
    let t := s.begins e 0x63 w
    let o := (memAddr (s.eng e) w).toNat / 8 * 8
    exec (.tcld e w) s = .next
      (if counterOk s o = true then (counterRead e o t).run fun b u => u.modEng e (fun y => y.wrote w.rd (BitVec.ofNat 64 (ofLe b)) y.psr)
      else xformExc e 0x09 0 t) := by
  have haddr : memAddr ((s.begins e 0x63 w).eng e) w = memAddr (s.eng e) w := by rw [eng_begins]; rfl
  have hgood : (fieldsOk w true true false false 0 0xFFFFFFFF && imgGives s e (opFeat 0x63) (opMinor 0x63 w)) = true := by
    rw [hok]; exact himg
  refine ((act_insnB hr _ _).trans (congrArg _ (if_pos hgood))).trans (congrArg _ ?_)
  change (let off := (memAddr ((s.begins e 0x63 w).eng e) w).toNat / 8 * 8
    if !counterOk s off then xformExc e 0x09 0 (s.begins e 0x63 w)
    else (counterRead e off (s.begins e 0x63 w)).run fun b u =>
      u.modEng e (fun x => (x.setRg w.rd (BitVec.ofNat 64 (ofLe b))).retire)) = _
  simp only [haddr, loads_wrote, Bool.not_eq_true', ← Bool.not_eq_true, ite_not]

end

/-- Settles O9: each row by its body, a held line by `psRead_begins`, a counter by where its value in force stands. -/
theorem programSpaceLoads : Obligations.ProgramSpaceLoads := by
  unfold Obligations.ProgramSpaceLoads
  intro e w s
  extract_lets x a n held o
  have heng (op : Nat) : (s.begins e op w).eng e = { x with busy := some (op, w) } := eng_begins s e op w
  refine ⟨fun hr hok => runs_illegal hr rfl hok, fun hr hok => ⟨fun hout => ?range, fun h40 h32 hps hfl hst hin h0 => ?ldv⟩,
    fun hr hok => ?refused, fun hr hok himg => ⟨fun hc => ?bad, fun hc => ⟨fun v hv => ?known, fun hn hh hfl hst hin h0 => ?space⟩⟩⟩
  case range =>
    refine (ldv_body hr hok).trans (congrArg _ ((if_pos hout).trans ?_))
    exact congrArg (excAt e 0x02 0 · none _) (ofNat_lowN_wide a)
  case ldv =>
    have hout : ¬(a.toNat < 0x40 ∨ 2 ^ 32 ≤ a.toNat ∨ s.psSize ≤ a.toNat) := by omega
    refine (ldv_body hr hok).trans (congrArg _ ((if_neg hout).trans ?_))
    exact congrArg (Got.run · _) (psRead_begins hfl hst hin h0)
  case refused => exact (act_insnB hr _ _).trans (congrArg _ (if_neg (Bool.not_eq_true _ ▸ hok)))
  case bad =>
    exact (tcld_body hr hok himg).trans (congrArg _ (if_neg (Bool.not_eq_true _ ▸ hc)))
  case known =>
    have hknown : counterRead e o (s.begins e 0x63 w) = .ok (toLe 8 v.toNat) (s.begins e 0x63 w) :=
      counterRead_known (by rw [heng]; exact hv)
    have hword : BitVec.ofNat 64 (ofLe (toLe 8 v.toNat)) = v := by
      rw [ofLe_toLe, show (256 : Nat) ^ 8 = 2 ^ 64 from rfl, Nat.mod_eq_of_lt v.isLt, BitVec.ofNat_toNat, BitVec.setWidth_eq]
    refine (tcld_body hr hok himg).trans (congrArg _ ((if_pos hc).trans ((congrArg (Got.run · _) hknown).trans ?_)))
    refine (loads_wrote _ e w.rd (toLe 8 v.toNat)).symm.trans ((modEng_begins_wrote s e 0x63 w w.rd fun _ => _).trans ?_)
    rw [hword]
  case space =>
    have hspace : counterRead e o (s.begins e 0x63 w) = psRead e 1 o 8 (s.begins e 0x63 w) :=
      counterRead_space (by rw [heng]; exact hn) (by rw [heng]; exact hh)
    refine (tcld_body hr hok himg).trans (congrArg _ ((if_pos hc).trans ?_))
    exact congrArg (Got.run · _) (hspace.trans (psRead_begins hfl hst hin h0))

end Sys2Proof.Machine
end

section
/-! Events, time and angle (R203 to R210, R292, R329), and the transform bindings (R217 to R223, R238 to R240, R265). -/

namespace Sys2Proof.Machine

/-- The same as `does_of_insn`, for a body that has the effect once the fields are good. -/
theorem does_of_good {i : EngId → IW → Instr} {op : Nat} {ok : IW → Bool} {f b : EngId → IW → State → State}
    (h : ∀ e w s, exec (i e w) s = act s (insn e op w (ok w) (b e w) s)) (hb : ∀ e w s, ok w = true → b e w s = f e w s) :
    does i op ok f := by
  intro e w s hr
  rw [h, act_insn hr]
  refine ⟨fun hg => congrArg _ (if_neg (by rw [hg]; decide)), fun hg => congrArg _ ((if_pos hg).trans (hb e w s ?_))⟩
  exact (Bool.and_eq_true _ _ ▸ hg).1

/-- The same for one that may stall. -/
theorem does_of_goodB {i : EngId → IW → Instr} {op : Nat} {ok : IW → Bool} {f b : EngId → IW → State → State}
    (h : ∀ e w s, exec (i e w) s = act s (insnB e op w (ok w) (b e w) s))
    (hb : ∀ e w s, ok w = true → b e w (s.begins e op w) = f e w s) : does i op ok f :=
  does_of_good h hb

/-! ## Events -/

/-- An event channel's number is the whole immediate when its other bits are 0. -/
theorem fld_imm_of_fieldsOk {w : IW} {rd ra rb ss : Bool} {md : Nat} (h : fieldsOk w rd ra rb ss md 0xFF = true) :
    fld w.imm 0 8 = w.imm.toNat := Nat.mod_eq_of_lt (imm_lt_of_fieldsOk (m := 8) h)

/-- The effect of SIGNAL goes into the effect buffer where it has room; otherwise a checkpoint comes first (R203, Table 3-7). -/
theorem withEffect_begins (e : EngId) (op : Nat) (w : IW) (r : Release) (s : State) :
    withEffect e (fun u => u.modEng e (fun x => Engine.retire { x with effects := x.effects ++ [r] })) (s.begins e op w) =
      if (s.eng e).effects.length < 16 then s.setEng e { s.eng e with effects := (s.eng e).effects ++ [r] }.retire
      else ckptAt e (s.eng e).pc .go (s.begins e op w) := by
  rw [withEffect, eng_begins]
  exact if_congr Iff.rfl (modEng_begins ..) rfl

/-- The pending and overrun bits that EVTST reads (R205). -/
theorem ofNat_evtstBits {s : State} {ch : BitVec 12} {k j : Nat} (h : subOf s ch k = some j) :
    BitVec.ofNat 64 (evtstBits s ch k) = (if (s.sub j).pend then 1 else 0) + (if (s.sub j).ovr then 2 else 0) ∧
      (evtstBits s ch k == 0) = ((if (s.sub j).pend then 1 else 0 : DWord) + (if (s.sub j).ovr then 2 else 0) == 0) := by
  have hbits : evtstBits s ch k = b2n (s.sub j).pend + 2 * b2n (s.sub j).ovr := by
    unfold evtstBits
    rw [h]
  rw [hbits]
  cases (s.sub j).pend <;> cases (s.sub j).ovr <;> decide

/-- Settles O10: SIGNAL by the room in the effect buffer, EVTST by its subscription. -/
theorem eventInstructions : Obligations.EventInstructions := by
  unfold Obligations.EventInstructions
  refine ⟨does_of_goodB (fun _ _ _ => rfl) fun e w s hok => ?signal, does_of_good (fun _ _ _ => rfl) fun e w s hok => ?evtst⟩
  case signal =>
    have hmay : maySignal (s.begins e 0x24 w) (chanOf (s.begins e 0x24 w) e) w.imm.toNat = maySignal s (chanOf s e) w.imm.toNat := by
      unfold chanOf
      rw [eng_begins]
      rfl
    dsimp only
    rw [fld_imm_of_fieldsOk hok, hmay, withEffect_begins]
    simp only [Bool.not_eq_true']
  case evtst =>
    dsimp only
    rw [fld_imm_of_fieldsOk hok]
    unfold maySubscribe
    cases hsub : subOf s (s.eng e).ch w.imm.toNat with
    | none => simp
    | some j =>
      obtain ⟨hv, hz⟩ := ofNat_evtstBits hsub
      rw [hv, hz]
      simp only [Option.isSome_some, Bool.and_true, Bool.not_eq_true']
      rfl

/-! ## Time and angle -/

/-- An instruction of the time group has the effect of its result `v`. -/
theorem does_of_time {i : EngId → IW → Instr} {op : Nat} {ok : IW → Bool} {g : IW → State → Engine → Option DWord}
    {v : EngId → IW → State → Option DWord}
    (h : ∀ e w s, exec (i e w) s = act s (timeInsn e op w (ok w) (g w) s)) (hv : ∀ e w s, g w s (s.eng e) = v e w s) :
    does i op ok (fun e w s => s.setEng e ((s.eng e).wrote w.rd ((v e w s).getD (BitVec.allOnes 64))
      (psrSet (s.eng e).psr 2 (v e w s).isNone))) := by
  refine does_of_good h fun e w s _ => ?_
  rw [← hv]
  unfold State.modEng
  dsimp only
  cases g w s (s.eng e) <;> rfl

/-- Settles O11: TNOW is its body, the others by their results. -/
theorem timeInstructions : Obligations.TimeInstructions := by
  unfold Obligations.TimeInstructions
  refine ⟨fun e w s hr => ?tnow, does_of_time (fun _ _ _ => rfl) fun _ _ _ => rfl, does_of_time (fun _ _ _ => rfl) fun e w s => ?a2t,
    does_of_time (fun _ _ _ => rfl) fun _ _ _ => rfl, does_of_time (fun _ _ _ => rfl) fun e w s => ?aadd⟩
  case tnow =>
    refine ⟨fun hg => (act_insn hr _ _).trans (congrArg _ (if_neg (Bool.not_eq_true _ ▸ hg))),
      fun hg => (act_insn hr _ _).trans (congrArg _ ((if_pos hg).trans ?_))⟩
    exact congrArg (s.setEng e) (wrote_psr ..)
  case a2t =>
    have hofInt (z : Int) : BitVec.ofNat 64 (modN 64 z) = BitVec.ofInt 64 z := by
      rw [modN_eq, BitVec.ofNat_toNat, BitVec.setWidth_eq]
    simp only [hofInt, Bool.or_eq_true, Bool.not_eq_true']
  case aadd =>
    simp only [angAdvance, Nat.cast_add, Nat.cast_mul]
    rfl

/-! ## Transform bindings -/

theorem rg_of_begins (e : EngId) (op : Nat) (w : IW) (s : State) : ((s.begins e op w).eng e).rg = (s.eng e).rg := by
  rw [eng_begins]
  rfl

theorem bnd_begins (e : EngId) (op : Nat) (w : IW) (s : State) (k : Nat) : ((s.begins e op w).eng e).bnd k = (s.eng e).bnd k := by
  rw [eng_begins]
  rfl

/-- An instruction that sets a binding and retires leaves nothing of its beginning. -/
theorem setBnd_begins (e : EngId) (op : Nat) (w : IW) (s : State) (k : Nat) (b : Bind) :
    (s.begins e op w).setEng e (((s.begins e op w).eng e).setBnd k b).retire = s.setEng e ((s.eng e).setBnd k b).retire := by
  rw [setEng_begins, eng_begins]
  rfl

/-- Settles O20: each row is its body; what differs is how a check is written. -/
theorem bindings : Obligations.Bindings := by
  unfold Obligations.Bindings
  refine ⟨does_of_goodB (fun _ _ _ => rfl) fun e w s hok => ?xset, does_of_goodB (fun _ _ _ => rfl) fun e w s hok => ?xfold,
    does_of_goodB (fun _ _ _ => rfl) fun e w s hok => ?xget, does_of_goodB (fun _ _ _ => rfl) fun e w s hok => ?xrst⟩
  case xset =>
    dsimp only
    simp only [setBnd_begins, rg_of_begins, Bool.or_eq_true, Bool.and_eq_true, Bool.not_eq_true', decide_eq_true_eq]
    have hoffset : (descAt (s.begins e 0x80 w) w.imm.toNat = false) =
        (w.imm.toNat % 32 ≠ 0 ∨ w.imm.toNat < 0x40 ∨ 2 ^ 29 ≤ w.imm.toNat ∨ s.psSize ≤ w.imm.toNat) :=
      (Bool.not_eq_true' _).symm.trans (propext (not_descAt_iff (s.begins e 0x80 w) _))
    refine ite_congr rfl (fun _ => rfl) fun _ => ite_congr hoffset (fun _ => rfl) fun _ => ite_congr rfl (fun _ => rfl) fun _ =>
      congrArg (Got.run _) (funext₂ fun b u => ite_congr rfl (fun _ => rfl) fun _ => ite_congr rfl (fun _ => rfl) fun hnum =>
      ite_congr (propext (and_congr_right fun haes => ?_)) (fun _ => rfl) fun _ => ?_)
    · have hslot : (BitVec.ofNat 10 ((s.eng e).rg w.ra).toNat).toNat = ((s.eng e).rg w.ra).toNat :=
        Nat.mod_eq_of_lt (not_le.mp fun h => hnum ⟨haes, h⟩)
      rw [hslot]
    · rw [BitVec.ofNat_toNat]
      rfl
  case xfold =>
    dsimp only
    simp only [setBnd_begins, bnd_begins, rg_of_begins, Bool.not_eq_true']
    rfl
  case xget =>
    dsimp only
    simp only [bnd_begins, Bool.not_eq_true', modEng_begins_wrote]
    rfl
  case xrst =>
    dsimp only
    simp only [setBnd_begins, bnd_begins, rg_of_begins, Bool.not_eq_true']
    rfl

end Sys2Proof.Machine
end

section
/-! EMIT and PATCH (R224 to R232, R275 to R278, R522). -/

namespace Sys2Proof.Machine

/-! ## Alcove streams that may be written -/

/-- Stream `i` lies in the Alcove, from a literal base on, and may be written; its descriptor `d` has been checked and is at hand. -/
structure Writable (x : Engine) (i : BitVec 3) (d : Desc) : Prop where
  defined : (x.cur_ i).desc ≠ 0
  checked : Tbl.get [] x.sd i.toNat ≠ []
  decoded : decDesc (Tbl.get [] x.sd i.toNat) = d
  kind : d.kind = 7
  plain : d.nr = false
  dir : d.dir = true
  literal : d.bb = false

section
variable {e : EngId} {op : Nat} {w : IW} {s : State} {i : BitVec 3} {d : Desc} (h : Writable (s.eng e) i d)
include h

theorem Writable.needDefined : needDefined e i (s.begins e op w) = .ok () (s.begins e op w) :=
  needDefined_ok (by rw [eng_begins]; exact h.defined)

theorem Writable.needDesc : needDesc e i (s.begins e op w) = .ok d (s.begins e op w) := by
  have hsd : ((s.begins e op w).eng e).sd = (s.eng e).sd := by rw [eng_begins]
  rw [needDesc_checked (by rw [hsd]; exact h.checked), hsd, h.decoded]

omit h in
theorem posOf_begins : posOf (s.begins e op w) e i = ((s.eng e).cur_ i).pos.toNat := by
  unfold posOf
  rw [eng_begins]
  rfl

end

/-! ## PATCH (R229 to R232) -/

theorem length_patchVal (x : Engine) (w : IW) : (patchVal x w).length = accSize w := by
  unfold patchVal
  dsimp only
  split
  · rw [List.length_reverse, toLe_len]
  · exact toLe_len _ _

/-- The bytes of PATCH are those of its register, in either order. -/
theorem getD_patchVal (x : Engine) (w : IW) {k : Nat} (hk : k < accSize w) :
    (patchVal x w).getD k 0 = (x.rg w.rb).extractLsb' (8 * (if bit w.md 2 then accSize w - 1 - k else k)) 8 := by
  have hlen : (toLe (accSize w) (x.rg w.rb).toNat).length = accSize w := toLe_len _ _
  unfold patchVal
  dsimp only
  split
  · rw [List.getD_reverse _ (by rw [hlen]; exact hk), hlen, getD_toLe_word (by omega)]
  · exact getD_toLe_word hk _

/-- A PATCH whose checks have passed: its bytes, the position they go to, and the place of the stream's walk, which it gives back when
it retires (R230). -/
def Cur.patch (x : Engine) (w : IW) (d : Desc) : Cur :=
  { w := w, walk0 := some (x.walk0 w.ss), dstBase := d.baseOf x, dstLen := d.lenOf x, doneBytes := (x.rg w.ra).toNat, out := patchVal x w }

/-- The engine of such a PATCH before its first burst. -/
def Engine.patching (x : Engine) (w : IW) (d : Desc) : Engine :=
  { x with busy := some (0x85, w), walk := Tbl.put {} x.walk w.ss.toNat {}, cur := some (Cur.patch x w d) }

/-- The engine after bytes that an instruction writes to the Alcove. -/
def Engine.stored (x : Engine) (a : Nat) (b : List Byte) : Engine := { x.alcWrite a b with bytesSince := x.bytesSince + b.length }

/-- What is left to write of a PATCH goes to the Alcove in one burst when it crosses no boundary, and the instruction retires. -/
theorem patchWrites_alcove {e : EngId} {i : BitVec 3} {d : Desc} {s : State} {c : Cur} (hk : d.kind = 7) (hc : (s.eng e).cur = some c)
    (h0 : 0 < c.out.length) (hn : c.out.length ≤ 256 - (c.dstBase + BitVec.ofNat 64 c.doneBytes).toNat % 256) (fuel : Nat) :
    patchWrites e i d (fuel + 2) s = s.setEng e (Engine.retire
      { (s.eng e).stored (c.dstBase + BitVec.ofNat 64 c.doneBytes).toNat c.out with
        cur := some { c with out := [], doneBytes := c.doneBytes + c.out.length } }) := by
  have hne : c.out.isEmpty = false := by rw [List.isEmpty_eq_false_iff]; exact List.ne_nil_of_length_pos h0
  have hwaits : destWaits e d (c.dstBase + BitVec.ofNat 64 c.doneBytes) c.out.length s = false := by
    simp [destWaits, hk, mem_alcove hk]
  simp only [patchWrites, hc, hne, streamAddr_alcove hk, Flow.run, burstAt_alcove hk, Nat.min_eq_left hn, hwaits, if_pos hk, State.modEng,
    eng_setEng, setEng_setEng, List.take_length, List.drop_length, List.isEmpty_nil, Bool.false_eq_true, if_false, if_true]
  rfl

/-- A data write of stream `i` of engine `e` is unanswered. -/
def Txn.strmOf (e : EngId) (i : BitVec 3) (t : Txn) : Bool :=
  match t.purpose with
  | .data y j _ => y == e && j == i
  | _ => false

/-- The engine of a PATCH whose bytes are written in one burst. -/
def Engine.patched (x : Engine) (w : IW) (d : Desc) : Engine :=
  let c := Cur.patch x w d
  Engine.retire { (x.patching w d).stored (d.base + BitVec.ofNat 64 (x.rg w.ra).toNat).toNat (patchVal x w) with
    cur := some { c with out := [], doneBytes := c.doneBytes + c.out.length } }

/-- A stream of an engine without open writes has none. -/
theorem strmWrites_none {s : State} {e : EngId} (h : writesOpen s e = false) (i : BitVec 3) : s.txns.any (Txn.strmOf e i) = false := by
  rw [List.any_eq_false]
  intro t ht
  have hdata : Txn.dataOf e t = false := Bool.eq_false_iff.mpr (List.any_eq_false.mp h t ht)
  unfold Txn.dataOf at hdata
  unfold Txn.strmOf
  cases hp : t.purpose with
  | data y j c =>
    rw [hp] at hdata
    simp [show (y == e) = false from hdata]
  | _ => exact Bool.false_ne_true

section
variable {e : EngId} {w : IW} {s : State} {d : Desc} (hres : (s.eng e).residue = none) (hr : s.runs e 0x85 w = true)
  (hok : (fieldsOk w false true true true 0x07 0 && imgGives s e 4 0) = true) (hcur : (s.eng e).cur = none)
  (herr : (s.eng e).wErr = none) (hopen : writesOpen s e = false) (hw : Writable (s.eng e) w.ss d)
include hres hr hok hcur herr hopen hw

/-- A PATCH of an Alcove stream: bytes past the stream's own position raise STREAM_END; otherwise they are written. -/
theorem patch_body : exec (.patch e w) s = .next
    (if ((s.eng e).cur_ w.ss).pos.toNat < ((s.eng e).rg w.ra).toNat + accSize w then strmExc e 0x11 w.ss (s.begins e 0x85 w)
     else patchWrites e w.ss d 10 (s.setEng e ((s.eng e).patching w d))) := by
  have hmis : (sideOf ((s.begins e 0x85 w).eng e) w.ss d).misHead = false := by simp [Side.misHead, sideOf, hw.kind]
  have hstart : ((s.begins e 0x85 w).eng e).cur.isSome = false := by rw [eng_begins, hcur]; rfl
  have hfail : ((s.begins e 0x85 w).eng e).wErr.isSome = false := by rw [eng_begins, herr]; rfl
  refine ((act_insnB hr _ _).trans (congrArg _ (if_pos hok))).trans (congrArg _ ?_)
  change (needDefined e w.ss (flushFirst e (fun r => r.dst == w.ss) (s.begins e 0x85 w))).run _ = _
  rw [flushFirst_begins hres, hw.needDefined]
  simp only [Flow.run, hw.needDesc, hmis, hstart, hfail, sl_alcove hw.kind, hw.plain, hw.dir, posOf_begins, rg_of_begins, Bool.or_false,
    Bool.not_true, Bool.false_eq_true, if_false]
  refine ite_congr rfl (fun _ => rfl) fun _ => (if_neg (Bool.not_eq_true _ ▸ strmWrites_none hopen w.ss)).trans ?_
  refine congrArg (patchWrites e w.ss d 10) ?_
  simp only [setWalk, State.modEng, eng_setEng, setEng_setEng, setEng_begins, eng_begins]
  rfl

/-- A PATCH that crosses no burst boundary writes its bytes and retires. -/
theorem patch_writes (hend : ((s.eng e).rg w.ra).toNat + accSize w ≤ ((s.eng e).cur_ w.ss).pos.toNat)
    (hn : accSize w ≤ 256 - (d.base + BitVec.ofNat 64 ((s.eng e).rg w.ra).toNat).toNat % 256) :
    exec (.patch e w) s = .next (s.setEng e ((s.eng e).patched w d)) := by
  have hbase : d.baseOf (s.eng e) = d.base := by rw [Desc.baseOf, hw.literal]; rfl
  have hlen := length_patchVal (s.eng e) w
  rw [patch_body hres hr hok hcur herr hopen hw, if_neg (by omega)]
  refine congrArg _ ((patchWrites_alcove (c := Cur.patch (s.eng e) w d) hw.kind ?_ ?_ ?_ 8).trans ?_)
  · rw [eng_setEng]; rfl
  · rw [Cur.patch, hlen]; exact accSize_pos w
  · rw [Cur.patch, hlen, hbase]; exact hn
  · rw [eng_setEng, setEng_setEng, Engine.patched, ← hbase]
    rfl

end

/-- What a PATCH leaves (R229, R231): its bytes at its address, every other byte of the Alcove, and the streams, as they were. -/
theorem patched_frame {x : Engine} {w : IW} {d : Desc} {a : Nat} (ha : (d.base + BitVec.ofNat 64 (x.rg w.ra).toNat).toNat = a) :
    let y := x.patched w d
    (∀ k, k < accSize w → y.alcByte (a + k) = (x.rg w.rb).extractLsb' (8 * (if bit w.md 2 then accSize w - 1 - k else k)) 8) ∧
      (∀ k, k < a ∨ a + accSize w ≤ k → y.alcByte k = x.alcByte k) ∧ y.pc = x.pc + 8 ∧ y.g = x.g ∧ y.s = x.s ∧ y.psr = x.psr ∧
      y.issued = x.issued ∧ y.bytesSince = x.bytesSince + accSize w ∧ y.cur = none := by
  have halc : (x.patched w d).alc = (x.alcWrite a (patchVal x w)).alc := by
    rw [← ha]
    simp only [Engine.patched, Engine.retire, Engine.seqTo, Engine.stored, Engine.patching, Engine.alcWrite]
  have hbyte (k : Nat) : (x.patched w d).alcByte k =
      if a ≤ k ∧ k < a + accSize w then (patchVal x w).getD (k - a) 0 else x.alcByte k := by
    rw [← length_patchVal x w]
    exact (congrArg (Tbl.get 0 · k) halc).trans (alcByte_alcWrite x a _ k)
  refine ⟨fun k hk => ?_, fun k hk => ?_, ?_⟩
  · rw [hbyte, if_pos (by omega), Nat.add_sub_cancel_left, getD_patchVal x w hk]
  · rw [hbyte, if_neg (by omega)]
  · simp only [Engine.patched, Engine.retire, Engine.seqTo, Engine.stored, Engine.patching, Engine.alcWrite, length_patchVal, and_self]

/-! ## The template in its line (R225, R275) -/

/-- Bytes within what `take` keeps. -/
theorem slice_take (l : List Byte) {i j n : Nat} (h : i + j ≤ n) : slice (l.take n) i j = slice l i j := by
  unfold slice
  rw [List.drop_take, List.take_take, Nat.min_eq_left (by omega)]

theorem leAt_take (l : List Byte) {i j n : Nat} (h : i + j ≤ n) : leAt (l.take n) i j = leAt l i j := by
  rw [leAt, slice_take l h, ← leAt]

theorem byteAt_take (l : List Byte) {i n : Nat} (h : i < n) : byteAt (l.take n) i = byteAt l i := by
  unfold byteAt
  rw [List.getD_eq_getElem?_getD, List.getElem?_take_of_lt h, ← List.getD_eq_getElem?_getD]

theorem length_slice (l : List Byte) (i n : Nat) : (slice l i n).length = n := by
  unfold slice
  simp only [List.length_append, List.length_take, List.length_drop, List.length_replicate]
  omega

theorem getD_slice (l : List Byte) (i : Nat) {n k : Nat} (h : k < n) : (slice l i n).getD k 0 = l.getD (i + k) 0 := by
  unfold slice
  by_cases hk : k < ((l.drop i).take n).length
  · rw [List.getD_append _ _ _ _ hk, List.getD_eq_getElem?_getD, List.getElem?_take_of_lt h, List.getElem?_drop,
      ← List.getD_eq_getElem?_getD]
  · rw [List.length_take, List.length_drop] at hk
    rw [List.getD_append_right _ _ _ _ (by rw [List.length_take, List.length_drop]; omega), List.getD_eq_default l _ (by omega)]
    simp

/-- Bytes that the list has are the beginning of what starts at the first of them. -/
theorem slice_eq_take (l : List Byte) {i n : Nat} (h : i + n ≤ l.length) : slice l i n = (l.drop i).take n := by
  unfold slice
  dsimp only
  rw [List.length_take, List.length_drop, Nat.min_eq_left (by omega), Nat.sub_self]
  exact List.append_nil _

/-- The template at offset `o` of program space, at address `a`, has the bytes `b` up to the end of its line, and lies in that line,
which the wing's slice holds; it has no fields and no stuffing, and its header obeys Table 6-13. -/
structure PlainTempl (s : State) (e : EngId) (a o : Nat) (b : List Byte) : Prop where
  addr : (s.psBase + BitVec.ofNat 64 o).toNat = a
  bytes : (s.line (a / 64)).data.drop (a % 64) = b
  aligned : o % 8 = 0
  above : 0x40 ≤ o
  inside : o + templSize b ≤ s.psSize
  settled : s.vitFlush = false
  held : (s.line (a / 64)).st ≠ .I
  sliced : inSlice (s.line (a / 64)) (sliceOf s (e.g.toNat / 8)) = true
  whole : (s.line (a / 64)).data.length = 64
  fits : a % 64 + templSize b ≤ 64
  image : 1 ≤ leAt b 0 2
  noField : byteAt b 2 = 0
  noStuffing : byteAt b 3 = 0
  shift : byteAt b 4 < 64
  place : leAt b 6 2 ≤ leAt b 0 2

/-- Such a template as it is decoded. -/
def plainTempl (b : List Byte) : Templ := decTempl (b.take (templSize b))

theorem templSize_ge (b : List Byte) : 8 + leAt b 0 2 ≤ templSize b := by
  unfold templSize
  omega

theorem img_plainTempl (b : List Byte) : (plainTempl b).img = slice b 8 (leAt b 0 2) := by
  have hsize := templSize_ge b
  unfold plainTempl decTempl
  dsimp only
  rw [leAt_take b (by omega), slice_take b hsize]

section
variable {s : State} {e : EngId} {a o : Nat} {b : List Byte} (h : PlainTempl s e a o b)
include h

theorem PlainTempl.read {op n : Nat} {w : IW} (h0 : 0 < n) (hn : n ≤ templSize b) :
    psRead e 1 o n (s.begins e op w) = .ok (b.take n) (s.begins e op w) := by
  obtain ⟨haddr, hbytes, -, -, -, hfl, hst, hin, hlen, hfit, -⟩ := h
  subst haddr
  have hn64 : (s.psBase + BitVec.ofNat 64 o).toNat % 64 + n ≤ 64 := by omega
  have hline := lineRead_held (what := 1) (s := s.begins e op w) hfl hst hin
  refine (psRead_line e 1 o (s.begins e op w) h0 hn64).trans ?_
  refine (congrArg (Got.bind · _) hline).trans (congrArg (Got.ok · _) ?_)
  rw [← hbytes]
  have hprefix := slice_eq_take (s.line ((s.psBase + BitVec.ofNat 64 o).toNat / 64)).data
    (i := (s.psBase + BitVec.ofNat 64 o).toNat % 64) (n := n) (by omega)
  exact hprefix

theorem PlainTempl.headOk {n : Nat} (hn : 8 ≤ n) : headOk (b.take n) = true := by
  have hsize := templSize_ge b
  have := h.fits
  have := h.image
  have := h.shift
  have := h.place
  unfold Machine.headOk
  rw [leAt_take b (by omega), leAt_take b (by omega), byteAt_take b (by omega), byteAt_take b (by omega), byteAt_take b (by omega),
    h.noField, h.noStuffing]
  exact decide_eq_true (by omega)

omit h in
theorem templSize_take {n : Nat} (hn : 8 ≤ n) : templSize (b.take n) = templSize b := by
  unfold templSize
  rw [leAt_take b (by omega), byteAt_take b (by omega)]

theorem PlainTempl.flds : (plainTempl b).flds = [] := by
  have hsize := templSize_ge b
  unfold plainTempl decTempl
  dsimp only
  rw [byteAt_take b (by omega), h.noField]
  rfl

theorem PlainTempl.stuffing (a0 a1 : DWord) : stuffing (plainTempl b) a0 a1 = 0 := by
  have hsize := templSize_ge b
  have hstf : (plainTempl b).stf = 0 := by
    unfold plainTempl decTempl
    dsimp only
    rw [byteAt_take b (by omega), h.noStuffing]
  unfold Machine.stuffing
  rw [if_pos hstf]

/-- Such a template obeys R277 for every engine. -/
theorem PlainTempl.templOk (x : Engine) : templOk x (plainTempl b) 0 = true := by
  have hsize := templSize_ge b
  have hfit := h.fits
  have hlen : (plainTempl b).img.length + 0 ≤ 1024 := by
    rw [img_plainTempl, length_slice]
    omega
  unfold Machine.templOk
  rw [h.flds, decide_eq_true hlen]
  rfl

/-- The checks of the template pass (R225, R277). -/
theorem PlainTempl.readTempl {op : Nat} {w : IW} (a0 a1 : DWord) :
    readTempl e o a0 a1 (s.begins e op w) = .ok (plainTempl b) (s.begins e op w) := by
  have hsize := templSize_ge b
  have hfit := h.fits
  have hin := h.inside
  have hps : (s.begins e op w).psSize = s.psSize := rfl
  have hplace : ¬(o % 8 ≠ 0 ∨ o < 0x40 ∨ s.psSize < o + 8) := by
    have := h.aligned
    have := h.above
    omega
  have hhead : (!Machine.headOk (b.take 8) || decide (s.psSize < o + templSize (b.take 8))) = false := by
    rw [h.headOk (le_refl 8), templSize_take (le_refl 8), decide_eq_false (not_lt.mpr hin)]
    rfl
  have hok := h.templOk ((s.begins e op w).eng e)
  have hread8 : psRead e 1 o 8 (s.begins e op w) = .ok (b.take 8) (s.begins e op w) := h.read (by decide) (by omega)
  have hread : psRead e 1 o (templSize b) (s.begins e op w) = .ok (b.take (templSize b)) (s.begins e op w) := h.read (by omega) (le_refl _)
  rw [Machine.readTempl, hps]
  refine (if_neg hplace).trans ?_
  rw [hread8]
  refine (if_neg (Bool.not_eq_true _ ▸ hhead)).trans ?_
  rw [templSize_take (le_refl 8), hread]
  refine if_pos ?_
  change Machine.templOk _ (plainTempl b) (Machine.stuffing (plainTempl b) a0 a1) = true
  rw [h.stuffing]
  exact hok

end

/-! ## EMIT (R224 to R228) -/

/-- What an EMIT that has retired leaves behind: its counter updates are one held effect (R226). -/
theorem emitEnd_eq {e : EngId} {s : State} {c : Cur} (hc : (s.eng e).cur = some c) : emitEnd e s = s.setEng e
    (if c.ctr = [] then (s.eng e).retire
     else { s.eng e with effects := (s.eng e).effects ++ [Release.counters c.ctr],
                         counters := c.ctr.foldl (fun t (q : Nat × DWord) => Tbl.put none t q.1 (some q.2)) (s.eng e).counters }.retire) := by
  have hctr : ((s.eng e).cur.map Cur.ctr).getD [] = c.ctr := by rw [hc]; rfl
  unfold emitEnd State.modEng
  dsimp only
  rw [hctr]
  exact congrArg (s.setEng e) (if_congr List.isEmpty_iff rfl rfl)

/-- The engine after an EMIT's bytes are written in one burst (R227). -/
def Engine.emitted (x : Engine) (w : IW) (a : Nat) (c : Cur) : Engine :=
  { (x.stored a c.out).setPos w.ss ((x.cur_ w.ss).pos.toNat + c.out.length) with cur := some { c with out := [] } }

/-- What is left to write of an EMIT without counter updates goes to the Alcove in one burst when it crosses no boundary, and the
instruction retires. -/
theorem emitWrites_alcove {e : EngId} {w : IW} {r : Side} {s : State} {c : Cur} (hk : r.d.kind = 7) (hf : bit w.md 0 = false)
    (hres : (s.eng e).residue = none) (hc : (s.eng e).cur = some c) (hctr : c.ctr = []) (h0 : 0 < c.out.length)
    (hn : c.out.length ≤ 256 - (r.base + BitVec.ofNat 64 ((s.eng e).cur_ w.ss).pos.toNat).toNat % 256) (fuel : Nat) :
    emitWrites e w r (fuel + 1) s = s.setEng e
      ((s.eng e).emitted w (r.base + BitVec.ofNat 64 ((s.eng e).cur_ w.ss).pos.toNat).toNat c).retire := by
  have hwrites : emitWrites e w r (fuel + 1) s =
      (let t := s.setEng e ((s.eng e).emitted w (r.base + BitVec.ofNat 64 ((s.eng e).cur_ w.ss).pos.toNat).toNat c)
       emitEnd e (if overdue t e then flush e t else t)) := by
    simp only [emitWrites, hc, hf, posOf, Bool.false_eq_true, if_false, List.nil_append, streamAddr_alcove hk, Flow.run,
      if_neg h0.ne', burstAt_alcove hk, Nat.min_eq_left hn, destReady_alcove hk, destWrite_alcove hk, List.take_length,
      List.drop_length, State.modEng, eng_setEng, setEng_setEng, List.isEmpty_nil, Bool.not_false, Bool.and_true, if_true]
    rfl
  have hflush (t : State) (ht : (t.eng e).residue = none) : (if overdue t e then flush e t else t) = t := by
    rw [flush_none ht]
    exact ite_self t
  rw [hwrites]
  dsimp only
  rw [hflush _ (by rw [eng_setEng]; exact hres), emitEnd_eq (c := { c with out := [] }) (by rw [eng_setEng]; rfl), if_pos hctr,
    eng_setEng, setEng_setEng]

/-- An EMIT of a template without fields and stuffing: its bytes are the template's image. -/
def Cur.emit (w : IW) (d : Desc) (b : List Byte) : Cur :=
  { w := w, dstBase := d.base, dstLen := d.len, out := slice b 8 (leAt b 0 2) }

section
variable {e : EngId} {w : IW} {s : State} {d : Desc} {t0 : Nat} {b : List Byte} (hf : bit w.md 0 = false)
  (hcur : (s.eng e).cur = none) (hw : Writable (s.eng e) w.ss d) (hl : d.bl = false) (ht : PlainTempl s e t0 w.imm.toNat b)
  (hend : ((s.eng e).cur_ w.ss).pos.toNat + leAt b 0 2 ≤ d.len)
include hf hcur hw hl ht hend

/-- Its checks pass (R225). -/
theorem startEmit_plain : startEmit e w (s.begins e 0x84 w) = .ok ⟨w.ss, d, d.base, d.len⟩
    (s.setEng e { s.eng e with busy := some (0x84, w), cur := some (Cur.emit w d b) }) := by
  have hside : sideOf ((s.begins e 0x84 w).eng e) w.ss d = ⟨w.ss, d, d.base, d.len⟩ := sideOf_literal _ _ hw.literal hl
  have hmis : Side.misHead ⟨w.ss, d, d.base, d.len⟩ = false := by simp [Side.misHead, hw.kind]
  have hnone : ((s.begins e 0x84 w).eng e).cur = none := by rw [eng_begins, hcur]
  unfold startEmit
  rw [hw.needDefined]
  have hform : (d.kind != 6 && !d.nr && !false && (!false || d.kind == 1 && decide (d.port ≤ 11))) = true := by
    rw [hw.kind, hw.plain]
    rfl
  have hfit : decide (((s.eng e).cur_ w.ss).pos.toNat + (slice b 8 (leAt b 0 2)).length + 0 ≤ d.len) = true := by
    rw [length_slice]
    exact decide_eq_true hend
  have hkind : d.kind ≠ 3 := by rw [hw.kind]; decide
  simp only [Flow.bind, hw.needDesc, hnone, hside, hmis, hf, hw.dir, must_ok, hform, ht.readTempl, ht.flds, ht.stuffing, List.filter_nil,
    List.map_nil, List.eraseDups_nil, List.all_nil, posOf_begins, hfit, if_neg hkind, List.any_nil, Bool.false_and, Bool.false_eq_true,
    if_false, sampleCtrs, sampleLens, fillFields, List.replicate_zero, List.append_nil, List.take_append_drop, img_plainTempl,
    modEng_begins]
  rfl

end

/-- The row of EMIT, with no residue to write, once its checks have passed. -/
theorem emit_runs {e : EngId} {w : IW} {s v : State} {r : Side} (hres : (s.eng e).residue = none) (hr : s.runs e 0x84 w = true)
    (hok : (fieldsOk w false true true true 0x01 0xFFFFFFFF && imgGives s e 4 (fld w.md 0 1)) = true)
    (hstart : startEmit e w (s.begins e 0x84 w) = .ok r v) : exec (.emit e w) s = .next (emitWrites e w r 1030 v) := by
  refine ((act_insnB hr _ _).trans (congrArg _ (if_pos hok))).trans (congrArg _ ?_)
  change (startEmit e w (flushFirst e _ (s.begins e 0x84 w))).run _ = _
  rw [flushFirst_begins hres, hstart]
  rfl

/-- What an EMIT of the bytes `c.out` in one burst leaves (R224, R227). -/
theorem emitted_frame {x : Engine} {w : IW} {a : Nat} {c : Cur} (hq : (x.cur_ w.ss).pos.toNat + c.out.length < 2 ^ 40) :
    let y := (x.emitted w a c).retire
    (∀ k, k < c.out.length → y.alcByte (a + k) = c.out.getD k 0) ∧
      (∀ k, k < a ∨ a + c.out.length ≤ k → y.alcByte k = x.alcByte k) ∧
      (y.cur_ w.ss).pos.toNat = (x.cur_ w.ss).pos.toNat + c.out.length ∧ y.g = x.g ∧ y.psr = x.psr ∧ y.pc = x.pc + 8 ∧
      y.effects = x.effects ∧ y.cur = none := by
  have hstored : (x.emitted w a c).retire.alc = (x.alcWrite a c.out).alc ∧
      (x.emitted w a c).retire.s = ((x.stored a c.out).setPos w.ss ((x.cur_ w.ss).pos.toNat + c.out.length)).s := by
    simp only [Engine.emitted, Engine.retire, Engine.seqTo, Engine.setPos, Engine.stored, and_self]
  obtain ⟨halc, hs⟩ := hstored
  have hbyte (k : Nat) : (x.emitted w a c).retire.alcByte k =
      if a ≤ k ∧ k < a + c.out.length then c.out.getD (k - a) 0 else x.alcByte k :=
    (congrArg (Tbl.get 0 · k) halc).trans (alcByte_alcWrite x a c.out k)
  have hcur : (x.emitted w a c).retire.cur_ w.ss =
      ((x.stored a c.out).setPos w.ss ((x.cur_ w.ss).pos.toNat + c.out.length)).cur_ w.ss :=
    congrArg (fun t => Tbl.get ({} : Cursor) t w.ss.toNat) hs
  rw [cur_setPos, if_pos rfl] at hcur
  refine ⟨fun k hk => ?_, fun k hk => ?_, ?_, ?_⟩
  · rw [hbyte, if_pos (by omega), Nat.add_sub_cancel_left]
  · rw [hbyte, if_neg (by omega)]
  · rw [hcur]
    exact Nat.mod_eq_of_lt hq
  · simp only [Engine.emitted, Engine.retire, Engine.seqTo, Engine.setPos, Engine.stored, Engine.alcWrite, and_self]

/-- An EMIT of a plain template to an Alcove stream writes the image in one burst, and retires. -/
theorem emit_plain {e : EngId} {w : IW} {s : State} {d : Desc} {t0 : Nat} {b : List Byte} (hres : (s.eng e).residue = none)
    (hr : s.runs e 0x84 w = true) (hok : (fieldsOk w false true true true 0x01 0xFFFFFFFF && imgGives s e 4 (fld w.md 0 1)) = true)
    (hf : bit w.md 0 = false) (hcur : (s.eng e).cur = none) (hw : Writable (s.eng e) w.ss d) (hl : d.bl = false)
    (ht : PlainTempl s e t0 w.imm.toNat b) (hend : ((s.eng e).cur_ w.ss).pos.toNat + leAt b 0 2 ≤ d.len) :
    let x := s.eng e
    let q := (x.cur_ w.ss).pos.toNat
    let m := leAt b 0 2
    let a := d.base.toNat + q
    a + m ≤ 0x2000 → m ≤ 256 - a % 256 →
      ∃ y : Engine, exec (.emit e w) s = .next (s.setEng e y) ∧
        (∀ k, k < m → y.alcByte (a + k) = b.getD (8 + k) 0) ∧ (∀ k, k < a ∨ a + m ≤ k → y.alcByte k = x.alcByte k) ∧
        (y.cur_ w.ss).pos.toNat = q + m ∧ y.g = x.g ∧ y.psr = x.psr ∧ y.pc = x.pc + 8 ∧ y.effects = x.effects ∧ y.cur = none := by
  intro x q m a hroom hburst
  have hout : (Cur.emit w d b).out.length = m := length_slice b 8 m
  have haddr : (d.base + BitVec.ofNat 64 q).toNat = a := toNat_add_ofNat ((Nat.le_add_right a m).trans_lt (hroom.trans_lt (by decide)))
  have hq : q + m < 2 ^ 40 := (Nat.add_le_add_right (Nat.le_add_left q _) m).trans_lt (hroom.trans_lt (by decide))
  let z : Engine := { x with busy := some (0x84, w), cur := some (Cur.emit w d b) }
  have hexec : exec (.emit e w) s = .next (s.setEng e (z.emitted w a (Cur.emit w d b)).retire) := by
    refine (emit_runs hres hr hok (startEmit_plain hf hcur hw hl ht hend)).trans (congrArg _ ?_)
    refine (emitWrites_alcove (s := s.setEng e z) (c := Cur.emit w d b) hw.kind hf ?_ ?_ rfl ?_ ?_ 1029).trans ?_
    · rw [eng_setEng]; exact hres
    · rw [eng_setEng]
    · rw [hout]; exact ht.image
    · rw [eng_setEng, hout]
      exact haddr.symm ▸ hburst
    · rw [eng_setEng, setEng_setEng]
      exact congrArg (fun k => s.setEng e (z.emitted w k _).retire) haddr
  obtain ⟨hbytes, hother, hpos, hrest⟩ := emitted_frame (x := z) (w := w) (a := a) (c := Cur.emit w d b) (by rw [hout]; exact hq)
  rw [hout] at hbytes hother hpos
  exact ⟨_, hexec, fun k hk => (hbytes k hk).trans (getD_slice b 8 hk), hother, hpos, hrest⟩

/-- Settles O21: EMIT by its checks, its burst and its end, PATCH by its checks and its burst. -/
theorem emitAndPatch : Obligations.EmitAndPatch := by
  unfold Obligations.EmitAndPatch
  intro e w s hres
  extract_lets x ok84 ok85 d p q n alcove t0 b m a
  refine ⟨fun hr hok => ?_, fun hr hok => ?_, fun hr hok r v hstart => emit_runs hres hr hok hstart, fun c hc => emitEnd_eq hc,
    fun hr hok hf hcur halc hl h8 h40 hin hfl hst hsl hlen hfit hm hnf hns hsh hpl hend hroom hburst => ?emit,
    fun hr hok hcur halc herr hopen => ?patch⟩
  · exact (act_insnB hr _ _).trans (congrArg _ (if_neg (Bool.not_eq_true _ ▸ hok)))
  · exact (act_insnB hr _ _).trans (congrArg _ (if_neg (Bool.not_eq_true _ ▸ hok)))
  case emit =>
    obtain ⟨hdef, hchk, hkind, hnr, hdir, hbb⟩ := halc
    have hw : Writable x w.ss d := ⟨hdef, hchk, rfl, hkind, hnr, hdir, hbb⟩
    have ht : PlainTempl s e t0 w.imm.toNat b :=
      ⟨by rw [BitVec.ofNat_toNat], rfl, h8, h40, hin, hfl, hst, hsl, hlen, hfit, hm, hnf, hns, hsh, hpl⟩
    exact emit_plain hres hr hok hf hcur hw hl ht hend hroom hburst
  case patch =>
    obtain ⟨hdef, hchk, hkind, hnr, hdir, hbb⟩ := halc
    have hw : Writable x w.ss d := ⟨hdef, hchk, rfl, hkind, hnr, hdir, hbb⟩
    refine ⟨fun hpast => ?_, fun hend hroom hburst => ?_⟩
    · exact (patch_body hres hr hok hcur herr hopen hw).trans (congrArg _ (if_pos hpast))
    · have haddr : (d.base + BitVec.ofNat 64 p).toNat = d.base.toNat + p :=
        toNat_add_ofNat ((Nat.le_add_right _ n).trans_lt (hroom.trans_lt (by decide)))
      obtain ⟨hbytes, hother, hpc, hg, hs, hpsr, hiss, hsince, hover⟩ := patched_frame (x := x) (w := w) haddr
      exact ⟨x.patched w d, patch_writes hres hr hok hcur herr hopen hw hend (by rw [haddr]; exact hburst), hbytes, hother, hpc, hg, hs,
        hpsr, hiss, hsince, hover⟩

end Sys2Proof.Machine
end

section
/-! Every command and every tick keep State.Sound (R262 to R267, R327, R561, R648). -/

namespace Sys2Proof.Machine

/-- Every command keeps the state Sound, whatever it is: one case per row of the table. -/
theorem exec_sound (i : Instr) (s : State) (hs : s.Sound) : OutSound (exec i s) := by
  cases i with
  | bCond e w => exact execBCond_sound e w s hs
  | dbnz e w => exact execDbnz_sound e w s hs
  | call e w => exact execCall_sound e w s hs
  | jr e w => exact execJr_sound e w s hs
  | callr e w => exact execCallr_sound e w s hs
  | ret e w => exact execRet_sound e w s hs
  | trap e w => exact execTrap_sound e w s hs
  | eret e w => exact execEret_sound e w s hs
  | syncI e w => exact execSyncI_sound e w s hs
  | fence e w => exact execFence_sound e w s hs
  | fenceG e w => exact execFenceG_sound e w s hs
  | sdef e w => exact execSdef_sound e w s hs
  | sseek e w => exact execSseek_sound e w s hs
  | spos e w => exact execSpos_sound e w s hs
  | move e w => exact execMove_sound e w s hs
  | movex e w => exact execMovex_sound e w s hs
  | funnel e w => exact execFunnel_sound e w s hs
  | fill e w => exact execFill_sound e w s hs
  | captRead e w => exact execCaptRead_sound e w s hs
  | captWrite e w => exact execCaptWrite_sound e w s hs
  | notify e w => exact execNotify_sound e w s hs
  | waitTime e w => exact execWaitTime_sound e w s hs
  | waitAngle e w => exact execWaitAngle_sound e w s hs
  | waitDelay e w => exact execWaitDelay_sound e w s hs
  | waitEvent e w => exact execWaitEvent_sound e w s hs
  | yield e w => exact execYield_sound e w s hs
  | ckpt e w => exact execCkpt_sound e w s hs
  | done e w => exact execDone_sound e w s hs
  | add e w => exact execAdd_sound e w s hs
  | sub e w => exact execSub_sound e w s hs
  | and_ e w => exact execAnd_sound e w s hs
  | or_ e w => exact execOr_sound e w s hs
  | xor_ e w => exact execXor_sound e w s hs
  | neg e w => exact execNeg_sound e w s hs
  | cmp e w => exact execCmp_sound e w s hs
  | tst e w => exact execTst_sound e w s hs
  | li e w => exact execLi_sound e w s hs
  | sll e w => exact execSll_sound e w s hs
  | srl e w => exact execSrl_sound e w s hs
  | sra e w => exact execSra_sound e w s hs
  | rot e w => exact execRot_sound e w s hs
  | muls e w => exact execMuls_sound e w s hs
  | mulu e w => exact execMulu_sound e w s hs
  | mulhs e w => exact execMulhs_sound e w s hs
  | mulhu e w => exact execMulhu_sound e w s hs
  | divs e w => exact execDivs_sound e w s hs
  | divu e w => exact execDivu_sound e w s hs
  | rems e w => exact execRems_sound e w s hs
  | remu e w => exact execRemu_sound e w s hs
  | ext e w => exact execExt_sound e w s hs
  | exts e w => exact execExts_sound e w s hs
  | ins e w => exact execIns_sound e w s hs
  | clz e w => exact execClz_sound e w s hs
  | ctz e w => exact execCtz_sound e w s hs
  | popc e w => exact execPopc_sound e w s hs
  | bswap e w => exact execBswap_sound e w s hs
  | ld e w => exact execLd_sound e w s hs
  | st e w => exact execSt_sound e w s hs
  | ldv e w => exact execLdv_sound e w s hs
  | tcld e w => exact execTcld_sound e w s hs
  | signal e w => exact execSignal_sound e w s hs
  | evtst e w => exact execEvtst_sound e w s hs
  | tnow e w => exact execTnow_sound e w s hs
  | anow e w => exact execAnow_sound e w s hs
  | a2t e w => exact execA2t_sound e w s hs
  | t2a e w => exact execT2a_sound e w s hs
  | aadd e w => exact execAadd_sound e w s hs
  | xset e w => exact execXset_sound e w s hs
  | xfold e w => exact execXfold_sound e w s hs
  | xget e w => exact execXget_sound e w s hs
  | xrst e w => exact execXrst_sound e w s hs
  | emit e w => exact execEmit_sound e w s hs
  | patch e w => exact execPatch_sound e w s hs
  | rdsr e w => exact execRdsr_sound e w s hs
  | wrsr e w => exact execWrsr_sound e w s hs
  | unhandledExceptionEnd e => exact execUnhandledExceptionEnd_sound e s hs
  | residueForcedFlush e => exact execResidueForcedFlush_sound e s hs
  | ckptByteIntervalExpiry e => exact execCkptByteIntervalExpiry_sound e s hs
  | ckptTimeIntervalExpiry e => exact execCkptTimeIntervalExpiry_sound e s hs
  | checkpointCommit e => exact execCheckpointCommit_sound e s hs
  | dispatchDecision wing => exact execDispatchDecision_sound wing s hs
  | wrTailWrite a ch d => exact execWrTailWrite_sound a ch d s hs
  | ntHeadWrite a ch d => exact execNtHeadWrite_sound a ch d s hs
  | invalidate a ch d => exact execInvalidate_sound a ch d s hs
  | pause a ch d => exact execPause_sound a ch d s hs
  | stop a ch d => exact execStop_sound a ch d s hs
  | abort a ch d => exact execAbort_sound a ch d s hs
  | kill a ch d => exact execKill_sound a ch d s hs
  | resume a ch d => exact execResume_sound a ch d s hs
  | pauseStopPoint ch => exact execPauseStopPoint_sound ch s hs
  | abortStopPoint ch => exact execAbortStopPoint_sound ch s hs
  | killStopPoint ch => exact execKillStopPoint_sound ch s hs
  | stopWorkOrderBoundary ch => exact execStopWorkOrderBoundary_sound ch s hs
  | chAllocate a ix d => exact execChAllocate_sound a ix d s hs
  | chFree a ix d => exact execChFree_sound a ix d s hs
  | chEnable a ix d => exact execChEnable_sound a ix d s hs
  | chDisable a ix d => exact execChDisable_sound a ix d s hs
  | ringConfigWrite a ix off d => exact execRingConfigWrite_sound a ix off d s hs
  | catSelWrite a ix d => exact execCatSelWrite_sound a ix d s hs
  | chCkPcRead a ix => exact execChCkPcRead_sound a ix s hs
  | loHalfRead a addr => exact execLoHalfRead_sound a addr s hs
  | rcFieldRead a addr => exact execRcFieldRead_sound a addr s hs
  | entryFetch ch => exact execEntryFetch_sound ch s hs
  | entryFetchComplete ch => exact execEntryFetchComplete_sound ch s hs
  | entryMalformed ch => exact execEntryMalformed_sound ch s hs
  | markerEntry ch => exact execMarkerEntry_sound ch s hs
  | barrierComplete ch => exact execBarrierComplete_sound ch s hs
  | effectRelease ch => exact execEffectRelease_sound ch s hs
  | resultPublication ch => exact execResultPublication_sound ch s hs
  | ringError ch => exact execRingError_sound ch s hs
  | poolLoad => exact execPoolLoad_sound s hs
  | anchorFire n => exact execAnchorFire_sound n s hs
  | scCtrlWrite a n d => exact execScCtrlWrite_sound a n d s hs
  | wedgeStrobe index phase => exact execWedgeStrobe_sound index phase s hs
  | indexWithoutStrobe => exact execIndexWithoutStrobe_sound s hs
  | toleranceWindowExpiry => exact execToleranceWindowExpiry_sound s hs
  | spinValidChange v => exact execSpinValidChange_sound v s hs
  | synthStrobe => exact execSynthStrobe_sound s hs
  | epochTimeN => exact execEpochTimeN_sound s hs
  | epochStrobe a d => exact execEpochStrobe_sound a d s hs
  | delayParityError n shadow => exact execDelayParityError_sound n shadow s hs
  | delayRegisterLost n => exact execDelayRegisterLost_sound n s hs
  | delayRegisterReload n authOk => exact execDelayRegisterReload_sound n authOk s hs
  | comparatorDisagreement n => exact execComparatorDisagreement_sound n s hs
  | slowCheckReevaluation n => exact execSlowCheckReevaluation_sound n s hs
  | slowCheckSweep => exact execSlowCheckSweep_sound s hs
  | requestLineChange n lvl last => exact execRequestLineChange_sound n lvl last s hs
  | holdoffExpiry n => exact execHoldoffExpiry_sound n s hs
  | aoRequestLatch n => exact execAoRequestLatch_sound n s hs
  | swRaise a d => exact execSwRaise_sound a d s hs
  | subWrite a j d => exact execSubWrite_sound a j d s hs
  | haltQRead a => exact execHaltQRead_sound a s hs
  | evoPulseEnd m => exact execEvoPulseEnd_sound m s hs
  | irqCoalTimeout ix => exact execIrqCoalTimeout_sound ix s hs
  | irqPendClear a d => exact execIrqPendClear_sound a d s hs
  | linkEnable a l d => exact execLinkEnable_sound a l d s hs
  | linkDisable a l d => exact execLinkDisable_sound a l d s hs
  | retrain a l d => exact execRetrain_sound a l d s hs
  | blockLockAcquired l lane => exact execBlockLockAcquired_sound l lane s hs
  | blockLockLost l lane => exact execBlockLockLost_sound l lane s hs
  | ts l t => exact execTs_sound l t s hs
  | lsw l lane seq => exact execLsw_sound l lane seq s hs
  | trainTimeout l => exact execTrainTimeout_sound l s hs
  | configTimeout l => exact execConfigTimeout_sound l s hs
  | recoveryTimeout l => exact execRecoveryTimeout_sound l s hs
  | streamData l f => exact execStreamData_sound l f s hs
  | streamStatus l f => exact execStreamStatus_sound l f s hs
  | mark l f => exact execMark_sound l f s hs
  | ack l f => exact execAck_sound l f s hs
  | credit l f => exact execCredit_sound l f s hs
  | cap l f => exact execCap_sound l f s hs
  | linkReplayTimeout l => exact execLinkReplayTimeout_sound l s hs
  | ackFrameSend l => exact execAckFrameSend_sound l s hs
  | rxFlush a l d => exact execRxFlush_sound a l d s hs
  | rxCfgWrite a l d => exact execRxCfgWrite_sound a l d s hs
  | stqHdrRead a l => exact execStqHdrRead_sound a l s hs
  | arbiterGrantPoint arb => exact execArbiterGrantPoint_sound arb s hs
  | grantWatchdogBite arb => exact execGrantWatchdogBite_sound arb s hs
  | readResponse t codes data grantE => exact execReadResponse_sound t codes data grantE s hs
  | writeResponse t code => exact execWriteResponse_sound t code s hs
  | retryReissue t => exact execRetryReissue_sound t s hs
  | snpShared cp line => exact execSnpShared_sound cp line s hs
  | snpInvalid cp line => exact execSnpInvalid_sound cp line s hs
  | evictAck t => exact execEvictAck_sound t s hs
  | wbAck t code => exact execWbAck_sound t code s hs
  | coherentReissue t => exact execCoherentReissue_sound t s hs
  | registerWrite a addr d => exact execRegisterWrite_sound a addr d s hs
  | attendantAccess a addr wr d => exact execAttendantAccess_sound a addr wr d s hs
  | tpHandshakeViolation a => exact execTpHandshakeViolation_sound a s hs
  | stagingWrite a addr d => exact execStagingWrite_sound a addr d s hs
  | commit a d => exact execCommit_sound a d s hs
  | cancel a d => exact execCancel_sound a d s hs
  | revert a d => exact execRevert_sound a d s hs
  | commitCheckDone => exact execCommitCheckDone_sound s hs
  | commitBoundary => exact execCommitBoundary_sound s hs
  | commitExpiry => exact execCommitExpiry_sound s hs
  | clampLogClear a d => exact execClampLogClear_sound a d s hs
  | loadGo a d => exact execLoadGo_sound a d s hs
  | loadCancel a d => exact execLoadCancel_sound a d s hs
  | loadVerifyDone x => exact execLoadVerifyDone_sound x s hs
  | loadWriteDone x => exact execLoadWriteDone_sound x s hs
  | bankSwap a g d => exact execBankSwap_sound a g d s hs
  | bankReload g b x => exact execBankReload_sound g b x s hs
  | svnMinWrite a d => exact execSvnMinWrite_sound a d s hs
  | faultAssertion n ix => exact execFaultAssertion_sound n ix s hs
  | railFault n => exact execRailFault_sound n s hs
  | stuckSourceClear n => exact execStuckSourceClear_sound n s hs
  | engineFault e => exact execEngineFault_sound e s hs
  | replayReady e => exact execReplayReady_sound e s hs
  | fltPulseEnd => exact execFltPulseEnd_sound s hs
  | fltRelease a d => exact execFltRelease_sound a d s hs
  | faultQuietEnd => exact execFaultQuietEnd_sound s hs
  | injectionGo a d => exact execInjectionGo_sound a d s hs
  | injectionSeen => exact execInjectionSeen_sound s hs
  | testStart ix => exact execTestStart_sound ix s hs
  | testVerdict ix o => exact execTestVerdict_sound ix o s hs
  | testLimitExpiry ix => exact execTestLimitExpiry_sound ix s hs
  | docTest a d => exact execDocTest_sound a d s hs
  | docRetire a d => exact execDocRetire_sound a d s hs
  | docRotate a d => exact execDocRotate_sound a d s hs
  | rotationDue g => exact execRotationDue_sound g s hs
  | rotationStart g pass => exact execRotationStart_sound g pass s hs
  | rotationSwap g => exact execRotationSwap_sound g s hs
  | rotationAbandon g => exact execRotationAbandon_sound g s hs
  | periodicSpareTest e pass => exact execPeriodicSpareTest_sound e pass s hs
  | periodicComparatorTest n pass => exact execPeriodicComparatorTest_sound n pass s hs
  | periodicAesTest g p pass => exact execPeriodicAesTest_sound g p pass s hs
  | scrubAccess arr idx o => exact execScrubAccess_sound arr idx o s hs
  | interpolatorCalibration => exact execInterpolatorCalibration_sound s hs
  | linkCalibration l => exact execLinkCalibration_sound l s hs
  | atclkCalibration => exact execAtclkCalibration_sound s hs
  | sensorSample dm temp volt => exact execSensorSample_sound dm temp volt s hs
  | ageingSample g freq => exact execAgeingSample_sound g freq s hs
  | idleDlyExpiry dm => exact execIdleDlyExpiry_sound dm s hs
  | domainDrainComplete dm => exact execDomainDrainComplete_sound dm s hs
  | entryAbandon dm => exact execEntryAbandon_sound dm s hs
  | wakeStart dm src detail => exact execWakeStart_sound dm src detail s hs
  | wakeRailDone dm => exact execWakeRailDone_sound dm s hs
  | wakeClockDone dm => exact execWakeClockDone_sound dm s hs
  | wakeSettleDone dm => exact execWakeSettleDone_sound dm s hs
  | domCtrlWrite a dm d => exact execDomCtrlWrite_sound a dm d s hs
  | holdRelease a hi d => exact execHoldRelease_sound a hi d s hs
  | alarmFire => exact execAlarmFire_sound s hs
  | oppClockRestart sup => exact execOppClockRestart_sound sup s hs
  | pmiAck p => exact execPmiAck_sound p s hs
  | pmiAckTimeout p => exact execPmiAckTimeout_sound p s hs
  | sbpAddressMatch => exact execSbpAddressMatch_sound s hs
  | sbpStretchTimeout => exact execSbpStretchTimeout_sound s hs
  | sbpIdleTimeout => exact execSbpIdleTimeout_sound s hs
  | info => exact execInfo_sound s hs
  | addr d pec => exact execAddr_sound d pec s hs
  | rd => exact execRd_sound s hs
  | wr d pec => exact execWr_sound d pec s hs
  | wrResp => exact execWrResp_sound s hs
  | lgHead => exact execLgHead_sound s hs
  | lgSeq d pec => exact execLgSeq_sound d pec s hs
  | lgRead => exact execLgRead_sound s hs
  | tmIdx b pec => exact execTmIdx_sound b pec s hs
  | tmRead => exact execTmRead_sound s hs
  | lgDataRead a => exact execLgDataRead_sound a s hs
  | lgSwCodeWrite a d => exact execLgSwCodeWrite_sound a d s hs
  | lgClear a d => exact execLgClear_sound a d s hs
  | lgSeedOptWrite a d => exact execLgSeedOptWrite_sound a d s hs
  | lgSeedPwrWrite a d => exact execLgSeedPwrWrite_sound a d s hs
  | ledgerRecordWrite => exact execLedgerRecordWrite_sound s hs
  | ledgerWindowClose code => exact execLedgerWindowClose_sound code s hs
  | opTimeTick => exact execOpTimeTick_sound s hs
  | tmTake a d => exact execTmTake_sound a d s hs
  | engStatTake a g d => exact execEngStatTake_sound a g d s hs
  | nsDenyWrite a d => exact execNsDenyWrite_sound a d s hs
  | keyLoad a ix d => exact execKeyLoad_sound a ix d s hs
  | keyClear a ix d => exact execKeyClear_sound a ix d s hs
  | keyDataWrite a ix k d => exact execKeyDataWrite_sound a ix k d s hs
  | rstAoRelease => exact execRstAoRelease_sound s hs
  | rstNAssert => exact execRstNAssert_sound s hs
  | rstNRelease str => exact execRstNRelease_sound str s hs
  | resetSequenceComplete => exact execResetSequenceComplete_sound s hs
  | tapReset => exact execTapReset_sound s hs
  | shellIsoChange v => exact execShellIsoChange_sound v s hs
  | testModeEntry => exact execTestModeEntry_sound s hs
  | dbgHalt v => exact execDbgHalt_sound v s hs
  | dbgStep => exact execDbgStep_sound s hs
  | illegalOpcode e w => exact execIllegalOpcode_sound e w s hs
  | instructionFetchFault e k => exact execInstructionFetchFault_sound e k s hs
  | rstAoAssert => exact execRstAoAssert_sound s hs
  | beatTransfer t => exact execBeatTransfer_sound t s hs
  | eqAdapted l => exact execEqAdapted_sound l s hs
  | faultSourceQuiet n => exact execFaultSourceQuiet_sound n s hs
  | wearHourTick e => exact execWearHourTick_sound e s hs
  | oppRaiseDelayExpiry sup => exact execOppRaiseDelayExpiry_sound sup s hs
  | restoreComplete dm bad => exact execRestoreComplete_sound dm bad s hs
  | cutComplete dm => exact execCutComplete_sound dm s hs
  | sbpStop => exact execSbpStop_sound s hs

/-- A step is a tick or the front command, and taking that from the queue touches nothing that State.Sound names. -/
theorem step_sound (s : State) (hs : s.Sound) : OutSound (step s) := by
  unfold step
  split
  · exact outSound_next (tick_sound s hs)
  · exact exec_sound _ _ ⟨hs.keys, hs.ledger, hs.halts, hs.recoveries⟩

/-- Settles O60: each command's own lemma, then the step. -/
theorem stepKeepsSound : Obligations.StepKeepsSound := by
  unfold Obligations.StepKeepsSound
  exact fun s t hs h => (step_sound s hs).all t h

end Sys2Proof.Machine
end

section
/-! The key cabinet (R261 to R264, Tables 6-7 to 6-9): data words, LOAD and CLEAR. -/

namespace Sys2Proof.Machine

/-! ## Slots and windows -/

@[simp] theorem key_setKey (s : State) (k : Nat) (x : KeySlot) : (s.setKey k x).key k = x := Tbl.get_put_same _ _ _ _

theorem key_setKey_other (s : State) {k j : Nat} (x : KeySlot) (h : j ≠ k) : (s.setKey k x).key j = s.key j :=
  Tbl.get_put_other _ _ _ _ _ h

@[simp] theorem keyWin_modKeyWin (s : State) (i : Nat) (f : KeyWin → KeyWin) : (s.modKeyWin i f).keyWin i = f (s.keyWin i) :=
  Tbl.get_put_same _ _ _ _

theorem keyWin_modKeyWin_other (s : State) {i j : Nat} (f : KeyWin → KeyWin) (h : j ≠ i) : (s.modKeyWin i f).keyWin j = s.keyWin j :=
  Tbl.get_put_other _ _ _ _ _ h

/-! ## Data words and commands -/

/-- A write of a window's data word changes that word and NS_DATA of that window (R261, Table 6-9). -/
theorem keyDataTo_stores (i k : Nat) (sec : Bool) (v : Word) (s : State) :
    let t := keyDataTo i k sec v s
    Tbl.get 0 (t.keyWin i).data k = v ∧ (∀ j, j ≠ k → Tbl.get 0 (t.keyWin i).data j = Tbl.get 0 (s.keyWin i).data j) ∧
      (t.keyWin i).nsData = ((s.keyWin i).nsData || !sec) ∧ t.keys = s.keys ∧ ∀ j, j ≠ i → t.keyWin j = s.keyWin j := by
  dsimp only
  unfold keyDataTo
  refine ⟨?_, fun j hj => ?_, ?_, rfl, fun j hj => keyWin_modKeyWin_other s _ hj⟩
  · rw [keyWin_modKeyWin, Tbl.get_put_same]
  · rw [keyWin_modKeyWin, Tbl.get_put_other _ _ _ _ _ hj]
  · rw [keyWin_modKeyWin]

/-- A window after a command that Tilzu takes: its data and NS_DATA are clear (R262). -/
def keyWinTaken (x : KeyWin) : KeyWin := { x with data := [], nsData := false }

/-- A slot set by a command that Tilzu takes: no other slot changes, and the window is empty. -/
theorem keyTaken_sets (s : State) (i k : Nat) (x : KeySlot) :
    let t := (s.setKey k x).modKeyWin i keyWinTaken
    t.key k = x ∧ (∀ j, j ≠ k → t.key j = s.key j) ∧ t.keyWin i = { s.keyWin i with data := [], nsData := false } := by
  refine ⟨?_, fun j hj => ?_, keyWin_modKeyWin ..⟩
  · rw [State.modKeyWin_key_of, key_setKey]
  · rw [State.modKeyWin_key_of, key_setKey_other s x hj]

section
variable {i : Nat} {sec : Bool} {s : State}

/-- Every command of a window that hides its slot is refused (R263). -/
theorem keyCmdWrite_hidden (v : Word) (h : keyHidden s i sec = true) : keyCmdWrite i sec v s = none := by
  simp [keyCmdWrite, h]

/-- A non-secure LOAD that asks for a secure slot is refused (R263). -/
theorem keyCmdWrite_load_denied {v : Word} (hsec : sec = false) (hop : fld v 0 4 = 1) (hv : bit v 23 = true) :
    keyCmdWrite i sec v s = none := by
  simp [keyCmdWrite, hsec, hop, hv]

/-- A LOAD that the access may ask for: rejected, or it moves the window's bytes into the slot (R262, R264). -/
theorem keyCmdWrite_load {v : Word} (h : keyHidden s i sec = false) (hop : fld v 0 4 = 1) (hv : ¬(sec = false ∧ bit v 23 = true)) :
    keyCmdWrite i sec v s = some (if keyLoadBad (s.keyWin i) v then s.modKeyWin i keyReject
      else (s.setKey (keySelOf s i) (keyLoaded (s.keyWin i) v)).modKeyWin i keyWinTaken) := by
  have hd : (!sec && bit v 23) = false := by simpa using hv
  unfold keyCmdWrite
  dsimp only
  rw [if_neg (by simp [h, hop, hd]), if_pos hop]
  rfl

/-- CLEAR empties the slot and the window (R262). -/
theorem keyCmdWrite_clear {v : Word} (h : keyHidden s i sec = false) (hop : fld v 0 4 = 2) :
    keyCmdWrite i sec v s = some ((s.setKey (keySelOf s i) {}).modKeyWin i keyWinTaken) := by
  unfold keyCmdWrite
  dsimp only
  rw [if_neg (by simp [h, hop]), if_neg (by omega), if_pos hop]
  rfl

end

/-! ## The word that a command's row writes -/

/-- Only the command's own field differs in the word that a row writes. -/
theorem keyWord_op (d : Word) (n : Nat) : fld (setFld d 0 4 n) 0 4 = n % 16 := fld_setFld d 0 4 n (by decide)

theorem keyWord_bit (d : Word) (n : Nat) {k : Nat} (h : 4 ≤ k) : bit (setFld d 0 4 n) k = bit d k :=
  bit_setFld_other d 0 4 n k (Or.inr (by omega))

/-- A LOAD stores the word's OWNER, SEC and KIND with the window's bytes (Table 6-8). -/
theorem keyLoaded_word (x : KeyWin) (d : Word) (n : Nat) : keyLoaded x (setFld d 0 4 n) =
    { st := 1, owner := d.extractLsb' 24 8, sec := bit d 23, kind := bit d 22, key := keyBytes x } := by
  simp [keyLoaded, keyWord_bit, fld_setFld_other, ofNat_fld]

/-- The conditions of R264 in the terms of the claim. -/
theorem keyLoadBad_word (x : KeyWin) (d : Word) (n : Nat) : keyLoadBad x (setFld d 0 4 n) = true ↔
    (bit d 23 = true ∧ x.nsData = true) ∨ (bit d 22 = true ∧ (keyBytes x).take 32 = (keyBytes x).drop 32) := by
  simp only [keyLoadBad, Bool.or_eq_true, Bool.and_eq_true, beq_iff_eq, keyWord_bit d n (show 4 ≤ 23 by decide),
    keyWord_bit d n (show 4 ≤ 22 by decide)]

/-- The command register of a window is written at the address its rows name. -/
theorem keyCmd_at (w : Nat) (i : BitVec 2) :
    0x9004 + 0x100 * i.toNat < 2 ^ 20 ∧ (0x9004 + 0x100 * i.toNat) % 4 = 0 ∧
      decodeReg w (0x9004 + 0x100 * i.toNat) = some (.keyCmd i.toNat) := by
  have hi := i.isLt
  exact ⟨by omega, by omega, dec_keyCmd w i⟩

section
variable {a : TpAttr} {i : BitVec 2} {s t : State} (h : s.takes a true (.keyCmd i.toNat))
include h

theorem keyCmd_wrote {v : Word} (hw : keyCmdWrite i.toNat a.sec v s = some t) :
    act s (tpWrite a (0x9004 + 0x100 * i.toNat) v s) = wrote a t :=
  let ⟨hn, h4, hd⟩ := keyCmd_at s.wings i
  takes_wroteAt h _ v hn h4 hd hw

theorem keyCmd_denied {v : Word} (hw : keyCmdWrite i.toNat a.sec v s = none) :
    act s (tpWrite a (0x9004 + 0x100 * i.toNat) v s) = denied a (0x9004 + 0x100 * i.toNat) slverr s :=
  let ⟨hn, h4, hd⟩ := keyCmd_at s.wings i
  takes_deniedAt h _ v hn h4 hd hw

end

/-- The window selects a secure slot, and the access is non-secure (R263). -/
theorem keyHidden_iff (s : State) (i : Nat) (sec : Bool) :
    keyHidden s i sec = true ↔ sec = false ∧ (s.key (fld (s.reg (.keySel i)) 0 10)).sec = true := by
  simp [keyHidden, keySelOf]

/-- Settles O56: the data words by their write, the commands by the rule of each, refused, rejected or taken. -/
theorem keyCabinet : Obligations.KeyCabinet := by
  unfold Obligations.KeyCabinet
  intro a i d s
  have hi := i.isLt
  have shown (hv : ¬(a.sec = false ∧ (s.key (fld (s.reg (.keySel i.toNat)) 0 10)).sec = true)) : keyHidden s i.toNat a.sec = false :=
    Bool.eq_false_iff.mpr (mt (keyHidden_iff ..).mp hv)
  have asked (hs : ¬(a.sec = false ∧ bit d 23 = true)) : ¬(a.sec = false ∧ bit (setFld d 0 4 1) 23 = true) := by
    rwa [keyWord_bit d 1 (by decide)]
  have bad_iff := keyLoadBad_word (s.keyWin i.toNat) d 1
  refine ⟨fun k htk => ?data, fun htk => ⟨fun hr => ?_, fun hv hs => ⟨fun hb => ?_, fun hb => ?_⟩, fun hh => ?_, fun hv => ?_⟩⟩
  case data =>
    have hk := k.isLt
    exact ⟨_, takes_wroteAt htk _ d (by omega) (by omega) (dec_keyData s.wings i k) rfl, keyDataTo_stores i.toNat k.toNat a.sec d s⟩
  · refine keyCmd_denied htk ?_
    rcases hr with hh | ⟨hsec, hd⟩
    · exact keyCmdWrite_hidden _ ((keyHidden_iff ..).mpr hh)
    · exact keyCmdWrite_load_denied hsec (keyWord_op d 1) ((keyWord_bit d 1 (by decide)).trans hd)
  · refine ⟨_, keyCmd_wrote htk (keyCmdWrite_load (shown hv) (keyWord_op d 1) (asked hs)), ?_⟩
    rw [if_pos (bad_iff.mpr hb)]
    exact ⟨rfl, keyWin_modKeyWin ..⟩
  · refine ⟨_, keyCmd_wrote htk (keyCmdWrite_load (shown hv) (keyWord_op d 1) (asked hs)), ?_⟩
    rw [if_neg (mt bad_iff.mp hb), ← keyLoaded_word _ d 1]
    exact keyTaken_sets s _ _ _
  · exact keyCmd_denied htk (keyCmdWrite_hidden _ ((keyHidden_iff ..).mpr hh))
  · exact ⟨_, keyCmd_wrote htk (keyCmdWrite_clear (shown hv) (keyWord_op d 2)), keyTaken_sets s _ _ _⟩

end Sys2Proof.Machine
end

section
/-! Key material cannot be read (R261, R263): what a register shows with other bytes in the cabinet. -/

namespace Sys2Proof.Machine

/-- The state with other key slots and load windows. -/
def State.rekey (s : State) (ks : Tbl KeySlot) (ws : Tbl KeyWin) : State := { s with keys := ks, keyWins := ws }

/-- Tables of slots and windows that differ from a state's own in the bytes they hold only. -/
structure SameButBytes (s : State) (ks : Tbl KeySlot) (ws : Tbl KeyWin) : Prop where
  slots : ∀ i, ({ (s.rekey ks ws).key i with key := [] } : KeySlot) = { s.key i with key := [] }
  wins : ∀ i, ({ (s.rekey ks ws).keyWin i with data := [] } : KeyWin) = { s.keyWin i with data := [] }

/-- The last case of a register read: no rule of the register's own but the pairs' (R17, R657). -/
def plainRead (sec : Bool) (r : Reg) (s : State) : Option (Word × State) :=
  if ecRefused s sec r then none
  else match r.pair with
    | some (lo, hi, isHi) => some (pairRead sec lo hi isHi s)
    | none => some (wordOf s sec r, readSequel sec r s)

section
variable {s : State} {ks : Tbl KeySlot} {ws : Tbl KeyWin}

/-! ## Words without key material -/

theorem mstWord_rekey (sec : Bool) (r : Reg) : mstWord (s.rekey ks ws) sec r = mstWord s sec r := rfl

theorem fcrWord_rekey (r : Reg) : fcrWord (s.rekey ks ws) r = fcrWord s r := rfl

theorem wideWord_rekey (sec : Bool) (r : Reg) : wideWord (s.rekey ks ws) sec r = wideWord s sec r := rfl

/-- The words of a link's status queue, a window and a doorbell block come with a state, so they are compared by their first part. -/
theorem stqPop_rekey (l : BitVec 5) : (stqPop l (s.rekey ks ws)).1 = (stqPop l s).1 := by
  have hl : (s.rekey ks ws).link l = s.link l := rfl
  unfold stqPop
  rw [hl]
  split <;> rfl

theorem blockWord_rekey (sec : Bool) (r : Reg) : blockWord (s.rekey ks ws) sec r = blockWord s sec r := by
  cases r with
  | stqHdr l => exact congrArg some (stqPop_rekey _)
  | _ => rfl

theorem winLive_rekey (i o : Nat) (w : CatWin) : (winRead.live i o (s.rekey ks ws) w).1 = (winRead.live i o s w).1 := by
  unfold winRead.live
  split
  · rfl
  · split <;> rfl

theorem winRead_rekey (i o : Nat) : (winRead i o (s.rekey ks ws)).1 = (winRead i o s).1 := by
  have hw : (s.rekey ks ws).win i = s.win i := rfl
  unfold winRead
  rw [hw]
  dsimp only
  split
  · rfl
  · split
    · split
      · rfl
      · exact winLive_rekey i o _
    · exact winLive_rekey i o _

theorem bellRead_rekey (ch : BitVec 12) (k : Nat) : (bellRead ch k (s.rekey ks ws)).1 = (bellRead ch k s).1 := by
  unfold bellRead
  split <;> rfl

/-- Two answers that are refused alike show the same word if they show the same word where they are not refused. -/
theorem fst_refusable {c d : Bool} {x y : Word × State} (hc : c = d) (hxy : x.1 = y.1) :
    (if c then none else some x).map Prod.fst = (if d then none else some y).map Prod.fst := by
  subst hc
  split
  · rfl
  · exact congrArg some hxy

/-- The Attendant shows ID, VERSION and GSTAT (R488). -/
theorem attend_rekey (n : Nat) : (attend n false (s.rekey ks ws)).1 = (attend n false s).1 := by
  unfold attend
  split
  · rfl
  · split
    · rfl
    · split <;> rfl

theorem aoAnswer_rekey (a : TpAttr) (addr : BitVec 20) :
    (aoAnswer a false addr (s.rekey ks ws)).1 = (aoAnswer a false addr s).1 := by
  unfold aoAnswer
  split
  · rfl
  · exact attend_rekey addr.toNat

variable (h : SameButBytes s ks ws)
include h

theorem SameButBytes.slot (i : Nat) : ((s.rekey ks ws).key i).st = (s.key i).st ∧ ((s.rekey ks ws).key i).owner = (s.key i).owner ∧
    ((s.rekey ks ws).key i).sec = (s.key i).sec ∧ ((s.rekey ks ws).key i).kind = (s.key i).kind := by
  obtain ⟨hst, howner, hsec, hkind, -⟩ := KeySlot.mk.inj (h.slots i)
  exact ⟨hst, howner, hsec, hkind⟩

theorem SameButBytes.win (i : Nat) : ((s.rekey ks ws).keyWin i).rej = (s.keyWin i).rej ∧
    ((s.rekey ks ws).keyWin i).nsData = (s.keyWin i).nsData := by
  obtain ⟨-, hns, hrej⟩ := KeyWin.mk.inj (h.wins i)
  exact ⟨hrej, hns⟩

theorem keyHidden_rekey (i : Nat) (sec : Bool) : keyHidden (s.rekey ks ws) i sec = keyHidden s i sec := by
  obtain ⟨-, -, hsec, -⟩ := h.slot (keySelOf s i)
  exact congrArg (!sec && ·) hsec

/-- XU.KEY_STAT shows a slot's state and not its bytes (Table 6-9). -/
theorem keyStatWord_rekey (i : Nat) : keyStatWord (s.rekey ks ws) i = keyStatWord s i := by
  have hsel : keySelOf (s.rekey ks ws) i = keySelOf s i := rfl
  obtain ⟨hst, howner, hsec, hkind⟩ := h.slot (keySelOf s i)
  obtain ⟨hrej, hns⟩ := h.win i
  unfold keyStatWord
  rw [hsel]
  dsimp only
  rw [hst, howner, hsec, hkind, hrej, hns]

theorem evcWord_rekey (sec : Bool) (r : Reg) : evcWord (s.rekey ks ws) sec r = evcWord s sec r := by
  cases r with
  | keyStat i => exact congrArg some (keyStatWord_rekey h i)
  | _ => rfl

/-- No register's word shows key material. -/
theorem wordOf_rekey (sec : Bool) (r : Reg) : wordOf (s.rekey ks ws) sec r = wordOf s sec r := by
  unfold wordOf
  rw [mstWord_rekey, evcWord_rekey h, fcrWord_rekey, blockWord_rekey, wideWord_rekey]
  rfl

/-! ## The answer of a read -/

theorem pairRead_rekey (sec : Bool) (lo hi : Reg) (isHi : Bool) :
    (pairRead sec lo hi isHi (s.rekey ks ws)).1 = (pairRead sec lo hi isHi s).1 := by
  unfold pairRead
  split
  · cases hi with
    | gbHi g k w =>
      have hg : gbHidden (s.rekey ks ws) sec g k = gbHidden s sec g k := rfl
      dsimp only
      rw [hg]
      split <;> rfl
    | _ => rfl
  · exact wordOf_rekey h sec lo

theorem plainRead_rekey (sec : Bool) (r : Reg) :
    (plainRead sec r (s.rekey ks ws)).map Prod.fst = (plainRead sec r s).map Prod.fst := by
  have he : ecRefused (s.rekey ks ws) sec r = ecRefused s sec r := rfl
  unfold plainRead
  rw [he]
  split
  · rfl
  · split
    · exact congrArg some (pairRead_rekey h sec _ _ _)
    · exact congrArg some (wordOf_rekey h sec r)

/-- A read answers alike, register by register: only the key registers look at the cabinet at all. -/
theorem regRead_rekey (sec : Bool) (owner : Byte) (r : Reg) :
    (regRead sec owner r (s.rekey ks ws)).map Prod.fst = (regRead sec owner r s).map Prod.fst := by
  cases r with
  | catWin i o => exact fst_refusable rfl (winRead_rekey i o)
  | doorbell ch k => exact fst_refusable rfl (bellRead_rekey _ k)
  | avData i => exact fst_refusable rfl (wordOf_rekey h sec (.avData i))
  | keyCmd i => exact fst_refusable (keyHidden_rekey h i sec) (wordOf_rekey h sec (.keyCmd i))
  | keyStat i => exact fst_refusable (keyHidden_rekey h i sec) (wordOf_rekey h sec (.keyStat i))
  | lgData w =>
    cases w with
    | zero => exact congrArg some (wordOf_rekey (s := lgSnap s) ⟨h.slots, h.wins⟩ sec (.lgData 0))
    | succ w => exact plainRead_rekey h sec _
  | _ => exact plainRead_rekey h sec _

theorem ownerRules_rekey (sec : Bool) (owner : Byte) (r : Reg) (d : Word) :
    (ownerRules sec owner false r d (s.rekey ks ws)).1 = (ownerRules sec owner false r d s).1 := by
  have hrule (u : State) : (ownerRules sec owner false r d u).1 =
      match (regRead sec owner r u).map Prod.fst with
      | some w => { code := okay, data := w }
      | none => { code := slverr, data := 0 } := by
    simp only [ownerRules, Bool.false_eq_true, if_false]
    cases regRead sec owner r u <;> rfl
  rw [hrule, hrule, regRead_rekey h]

theorem access_rekey (sec : Bool) (owner : Byte) (addr : Nat) (d : Word) :
    (access sec owner false addr d (s.rekey ks ws)).1 = (access sec owner false addr d s).1 := by
  have hw : (s.rekey ks ws).wings = s.wings := rfl
  have hd (r : Reg) : secDenied (s.rekey ks ws) sec false r = secDenied s sec false r := rfl
  have ho (r : Reg) : domainOff (s.rekey ks ws) r = domainOff s r := rfl
  unfold access
  rw [hw]
  split
  · rfl
  · rw [hd, ho]
    split
    · rfl
    · split
      · rfl
      · exact ownerRules_rekey h ..

theorem coreAnswer_rekey (a : TpAttr) (addr : BitVec 20) (d : Word) :
    (coreAnswer a false addr d (s.rekey ks ws)).1 = (coreAnswer a false addr d s).1 := by
  unfold coreAnswer
  split
  · rfl
  · exact access_rekey h ..

end

/-- What stands on TP after a read: the answer of CORE or of the Attendant, or what stood there where no beat transfers. -/
theorem resp_read (a : TpAttr) (addr : BitVec 20) (d : Word) (s : State) : (tpAccess a false addr d s).resp =
    if s.boot.rstAo || s.boot.shellIso then s.resp
    else if coreServes s then (if !coreUp s then s.resp else some ((coreAnswer a false addr d s).1.on a false))
    else some ((aoAnswer a false addr s).1.on a false) := by
  unfold tpAccess
  split
  · rfl
  · split
    · split <;> rfl
    · rfl

/-- Settles O57: a register's word shows of a slot or a window no more than KEY_STAT does, whose fields are not its bytes. -/
theorem keysUnreadable : Obligations.KeysUnreadable := by
  unfold Obligations.KeysUnreadable
  intro a addr d s ks ws ht t hk hw
  have h : SameButBytes s ks ws := ⟨hk, hw⟩
  refine ⟨_, _, act_next ht _, act_next (s := t) ht _, ?_⟩
  change (tpAccess a false addr d (s.rekey ks ws)).resp = _
  rw [resp_read, resp_read, coreAnswer_rekey h, aoAnswer_rekey]
  rfl

end Sys2Proof.Machine
end

section
/-! What events and a lost lock leave unchanged, and one tick (R277, R281, R292, R342, R493). -/

namespace Sys2Proof.Machine

/-! ## Events that reach the Concourse -/

/-- The state without the channels and the Concourse, which alone react to events. -/
def State.butReactions (s : State) : State := { s with chans := [], evc := {} }

theorem butReactions_touch (ch : BitVec 12) (s : State) : (touch ch s).butReactions = s.butReactions := by
  unfold touch
  split
  · split <;> rfl
  · rfl

theorem butReactions_emitT (ps : List Nat) (s : State) : (emitT ps s).butReactions = s.butReactions := by
  have htouch (p : Nat × Sub) (t : State) : (touch p.2.ch t).butReactions = t.butReactions := butReactions_touch p.2.ch t
  have hemit := congrArg State.butReactions (butEvents_emitAll ps s)
  exact (foldS_keeps State.butReactions htouch _ _).trans hemit

/-- Producers outside CORE that emit change nothing but channels and the Concourse (R325 to R339, R342, R631). -/
theorem butReactions_emitUp (ps : List Nat) (s : State) : (emitUp ps s).butReactions = s.butReactions := by
  unfold emitUp
  split
  · rfl
  · split
    · rfl
    · exact butReactions_emitT ps s

@[simp] theorem tbs_emitUp (ps : List Nat) (s : State) : (emitUp ps s).tbs = s.tbs := by
  have h := congrArg State.tbs (butReactions_emitUp ps s)
  exact h

@[simp] theorem stage_emitUp (ps : List Nat) (s : State) : (emitUp ps s).stage = s.stage := by
  have h := congrArg State.stage (butReactions_emitUp ps s)
  exact h

/-! ## Angular time is lost (Table 7-3, R291, R300) -/

/-- The time base without its comparators. -/
def Tbs.butComparators (t : Tbs) : Tbs := { t with pairs := [], sc := [] }

theorem butComparators_sweepPairs (s : State) : (sweepPairs s).tbs.butComparators = s.tbs.butComparators := by
  unfold sweepPairs
  refine foldS_keeps (fun u : State => u.tbs.butComparators) (fun (p : Nat × Pair) t => ?_) _ _
  change Tbs.butComparators (State.tbs (match p.2.ch with | some c => _ | none => _)) = _
  cases p.2.ch with
  | none => rfl
  | some c =>
    dsimp only
    split <;> rfl

/-- Holding the angular anchors changes nothing of the time base but its comparators (R300). -/
theorem butComparators_holdAngular (s : State) : (holdAngular s).tbs.butComparators = s.tbs.butComparators := by
  have hchans (l : List (BitVec 12)) (f : Chan → Chan) (u : State) :
      (foldS l (fun ch t => t.modChan ch f) u).tbs.butComparators = u.tbs.butComparators :=
    foldS_keeps (f := fun ch t => t.modChan ch f) (fun t : State => t.tbs.butComparators) (fun _ _ => rfl) l u
  have hsc (l : List (Nat × SwCmp)) (f : SwCmp → SwCmp) (u : State) :
      (foldS l (fun q t => t.modSc q.1 f) u).tbs.butComparators = u.tbs.butComparators :=
    foldS_keeps (f := fun q t => t.modSc q.1 f) (fun t : State => t.tbs.butComparators) (fun _ _ => rfl) l u
  exact (butComparators_sweepPairs _).trans ((hsc _ _ _).trans (hchans _ _ _))

theorem of_butComparators {t u : Tbs} (h : t.butComparators = u.butComparators) :
    t.lock = u.lock ∧ t.missed = u.missed ∧ t.time = u.time := by
  have hlock := congrArg Tbs.lock h
  have hmissed := congrArg Tbs.missed h
  have htime := congrArg Tbs.time h
  exact ⟨hlock, hmissed, htime⟩

theorem time_wedgesOn (s : State) (k : Nat) : (wedgesOn s k).time = s.tbs.time := by
  unfold wedgesOn
  dsimp only
  split <;> rfl

theorem time_keepRev (s : State) : (keepRev s).time = s.tbs.time := by
  unfold keepRev
  split
  · rfl
  · dsimp only
    split
    · exact time_wedgesOn ..
    · rfl

theorem unlock_unlocked {s : State} (h : s.tbs.lock = .unlocked) : unlock s = s := by
  unfold unlock
  dsimp only
  rw [if_pos h]

/-- Angular time that is lost: UNLOCKED, with no strobe missed, and tick time as it was (Table 7-3). -/
theorem tbs_unlock {s : State} (h : s.tbs.lock ≠ .unlocked) :
    (unlock s).tbs.lock = .unlocked ∧ (unlock s).tbs.missed = 0 ∧ (unlock s).tbs.time = s.tbs.time := by
  unfold unlock
  dsimp only
  rw [if_neg h, tbs_emitUp]
  split
  · obtain ⟨hlock, hmissed, htime⟩ := of_butComparators (butComparators_holdAngular (s.modTbs _))
    rw [hlock, hmissed, htime]
    exact ⟨rfl, rfl, time_keepRev s⟩
  · exact ⟨rfl, rfl, time_keepRev s⟩

theorem time_unlock (s : State) : (unlock s).tbs.time = s.tbs.time := by
  by_cases h : s.tbs.lock = .unlocked
  · rw [unlock_unlocked h]
  · exact (tbs_unlock h).2.2

/-! ## The level of `tbi_spin_valid` (R493, Table 13-13) -/

theorem spinTick_same {s : State} (h : s.tbs.spinPin = s.tbs.spin) : spinTick s = s := if_pos h

section
variable {s : State} (hne : s.tbs.spinPin ≠ s.tbs.spin)
include hne

theorem spinTick_counts (h : s.tbs.spinTicks < 15) : spinTick s = s.modTbs (fun x => { x with spinTicks := s.tbs.spinTicks + 1 }) :=
  (if_neg hne).trans (if_pos (by omega))

theorem spinTick_stood (h : 15 ≤ s.tbs.spinTicks) : spinTick s = spinTo s.tbs.spinPin s := (if_neg hne).trans (if_neg (by omega))

/-- A high level, or one that SYNTH ignores, is shown and no more. -/
theorem spinTick_keeps (h : 15 ≤ s.tbs.spinTicks) (hk : s.tbs.spinPin = true ∨ s.tbs.lock = .synth) :
    spinTick s = s.modTbs (fun x => { x with spin := s.tbs.spinPin, spinTicks := 0 }) := by
  rw [spinTick_stood hne h]
  refine if_neg ?_
  rcases hk with h | h <;> simp [h, State.modTbs]

theorem spinTick_unlocks (hup : tbsUp s = true) (h : 15 ≤ s.tbs.spinTicks) (hlow : s.tbs.spinPin = false) (hl : s.tbs.lock ≠ .synth) :
    spinTick s = unlock (s.modTbs (fun x => { x with spin := s.tbs.spinPin, spinTicks := 0 })) := by
  rw [spinTick_stood hne h]
  exact if_pos (by simp [hup, hlow, hl, State.modTbs])

end

/-- A level that has not stood for 16 ticks yet only counts. -/
theorem spinTick_quiet {s : State} (h : s.tbs.spinPin = s.tbs.spin ∨ s.tbs.spinTicks < 15) :
    ∃ n, spinTick s = s.modTbs (fun x => { x with spinTicks := n }) := by
  by_cases he : s.tbs.spinPin = s.tbs.spin
  · exact ⟨s.tbs.spinTicks, spinTick_same he⟩
  · exact ⟨_, spinTick_counts he (h.resolve_left he)⟩

theorem time_spinTo (v : Bool) (s : State) : (spinTo v s).tbs.time = s.tbs.time := by
  unfold spinTo
  dsimp only
  split
  · exact time_unlock _
  · rfl

theorem time_spinTick (s : State) : (spinTick s).tbs.time = s.tbs.time := by
  unfold spinTick
  dsimp only
  split
  · rfl
  · split
    · rfl
    · exact time_spinTo _ s

/-! ## One tick (R277, R281) -/

/-- The state without what every tick may count: the Ledger's time, telemetry, the watchdogs and the acknowledges. -/
def State.butCounts (s : State) : State := { s with ledger := {}, mst := {}, arbs := [], evc := {} }

theorem butCounts_ledgerTime (s : State) : (ledgerTime s).butCounts = s.butCounts := by
  unfold ledgerTime
  split <;> rfl

theorem butCounts_mst (s : State) (m : Mst) : ({ s with mst := m } : State).butCounts = s.butCounts := rfl

theorem butCounts_tmAdd (k n : Nat) (s : State) : (tmAdd k n s).butCounts = s.butCounts := by
  unfold tmAdd
  split <;> rfl

theorem butCounts_tmTime (s : State) : (tmTime s).butCounts = s.butCounts := by
  have h (a b c : Nat) : (tmAdd 31 a (tmAdd 32 b (tmAdd 33 c s))).butCounts = s.butCounts := by
    rw [butCounts_tmAdd, butCounts_tmAdd, butCounts_tmAdd]
  exact (butCounts_mst _ _).trans (h _ _ _)

theorem butCounts_wdogTicks (s : State) : (wdogTicks s).butCounts = s.butCounts := by
  refine foldS_keeps State.butCounts (fun a t => ?_) _ _
  unfold wdogTick
  split
  · split <;> rfl
  · rfl

theorem butCounts_rqAcksFall (s : State) : (rqAcksFall s).butCounts = s.butCounts := by
  have h (p : Nat × RqLine) (t : State) : (t.modRq p.1 (fun q => { q with ack := false })).butCounts = t.butCounts := rfl
  exact foldS_keeps State.butCounts h _ _

/-- Beside its counts a tick is the passing of tick time. -/
theorem butCounts_tick (s : State) : (tick s).butCounts = (tickTime (ledgerTime s)).butCounts := by
  unfold tick
  dsimp only
  have h : (wdogTicks (if s.coreOn then tmTime (tickTime (ledgerTime s)) else tickTime (ledgerTime s))).butCounts =
      (tickTime (ledgerTime s)).butCounts := by
    rw [butCounts_wdogTicks]
    split
    · exact butCounts_tmTime _
    · rfl
  split
  · exact (butCounts_rqAcksFall _).trans h
  · exact h

theorem time_tickTime (s : State) : (tickTime s).tbs.time = if s.domOn 1 then s.tbs.time + 1 else s.tbs.time := by
  unfold tickTime
  split
  · exact time_spinTick _
  · rfl

/-- What the work of the block stands in: channels, engines, transactions and the queue of commands. -/
def State.work (s : State) : Tbl Chan × Tbl Engine × List Txn × List Instr := (s.chans, s.engs, s.txns, s.pending)

theorem work_of_butCounts {s t : State} (h : s.butCounts = t.butCounts) : s.work = t.work := by
  have hw := congrArg State.work h
  exact hw

theorem work_tickTime {s : State} (h : s.tbs.spinPin = s.tbs.spin ∨ s.tbs.spinTicks < 15) : (tickTime s).work = s.work := by
  unfold tickTime
  split
  · obtain ⟨n, e⟩ := spinTick_quiet (s := { s with tbs := { s.tbs with time := s.tbs.time + 1, phase := phaseNext s.tbs } }) h
    rw [e]
    rfl
  · rfl

/-- Tick time goes on by one while TBS is ON (R277, R281). -/
theorem tick_time (s : State) : (tick s).now = if s.domOn 1 then s.now + 1 else s.now := by
  have ht := congrArg State.now (butCounts_tick s)
  have hl := congrArg (fun u : State => if u.domOn 1 then u.now + 1 else u.now) (butCounts_ledgerTime s)
  exact ht.trans ((time_tickTime _).trans hl)

/-- Where `tbi_spin_valid` brings no unlock, a tick leaves channels, engines, transactions and the queue alone. -/
theorem work_tick {s : State} (h : s.tbs.spinPin = s.tbs.spin ∨ s.tbs.spinTicks < 15) : (tick s).work = s.work := by
  have htbs : (ledgerTime s).tbs = s.tbs := by
    have ht := congrArg State.tbs (butCounts_ledgerTime s)
    exact ht
  calc (tick s).work = (tickTime (ledgerTime s)).work := work_of_butCounts (butCounts_tick s)
    _ = (ledgerTime s).work := work_tickTime (by rwa [htbs])
    _ = s.work := work_of_butCounts (butCounts_ledgerTime s)

/-- Settles O58: a step by its definition, and the tick by what it leaves unchanged. -/
theorem stepRunsFront : Obligations.StepRunsFront := by
  unfold Obligations.StepRunsFront
  refine ⟨fun c r s h => by rw [step, h], fun s h => ⟨tick s, by rw [step, h], fun hq => ?_, fun hon => ?_, fun hoff => ?_⟩⟩
  · obtain ⟨hchans, hengs, htxns, hpending⟩ : (tick s).chans = s.chans ∧ (tick s).engs = s.engs ∧ (tick s).txns = s.txns ∧
        (tick s).pending = s.pending := by simpa [State.work] using work_tick hq
    exact ⟨hchans, hengs, htxns, hpending.trans h⟩
  · rw [tick_time, if_pos hon]
  · rw [tick_time, if_neg (by simp [hoff])]

end Sys2Proof.Machine
end

section
/-! Strobes, lock states and epoch boundaries (R283 to R295, R493, Tables 7-3, 7-6). -/

namespace Sys2Proof.Machine

/-! ## Boundaries (R294, R295) -/

/-- The time base with a boundary counted of each source. -/
def Tbs.counted (t : Tbs) (ks : List Nat) : Tbs :=
  { t with epoch := foldS ks (fun k e => Tbl.put 0 e k (Tbl.get 0 e k + 1)) t.epoch }

@[simp] theorem tbs_epochWith (ps ks : List Nat) (s : State) : (epochWith ps ks s).tbs = s.tbs.counted ks := by
  unfold epochWith
  dsimp only
  split
  · rfl
  · rw [tbs_emitUp]; rfl

@[simp] theorem tbs_epochBoundary (ks : List Nat) (s : State) : (epochBoundary ks s).tbs = s.tbs.counted ks := tbs_epochWith ..

theorem epoch_counted_one (t : Tbs) (k j : Nat) :
    Tbl.get 0 (t.counted [k]).epoch j = if j = k then Tbl.get 0 t.epoch k + 1 else Tbl.get 0 t.epoch j := Tbl.get_put ..

theorem counted_cons (t : Tbs) (k : Nat) (ks : List Nat) : t.counted (k :: ks) = (t.counted [k]).counted ks := rfl

theorem epoch_counted_two (t : Tbs) : Tbl.get 0 (t.counted [0, 1]).epoch 0 = Tbl.get 0 t.epoch 0 + 1 := by
  rw [counted_cons, epoch_counted_one, if_neg (by decide), epoch_counted_one, if_pos rfl]

/-- A commit that waits for a boundary of source `k` takes it within its TMO (R510, R514). -/
theorem boundary_epochBoundary (k : Nat) (s : State) : (epochBoundary [k] s).stage.boundary =
    (s.stage.boundary || (s.coreOn && s.stage.st == .pending && !commitLate s && s.stage.src.toNat == k)) := by
  have hk : [k].contains s.stage.src.toNat = (s.stage.src.toNat == k) := Bool.eq_iff_iff.mpr (by simp)
  unfold epochBoundary epochWith
  rw [hk]
  dsimp only
  cases hb : s.stage.boundary
  · simp only [Bool.not_false, Bool.and_true, Bool.false_or]
    split
    · next h => exact h.symm
    · next h => rw [stage_emitUp]; exact hb.trans (Bool.eq_false_iff.mpr h).symm
  · simp only [Bool.not_true, Bool.and_false, Bool.false_and, Bool.false_eq_true, if_false, stage_emitUp, Bool.true_or]
    exact hb

theorem strobeEpochs_index (s : State) : strobeEpochs s 0 true = [0, 1] := by simp [strobeEpochs]
theorem strobeEpochs_start (s : State) : strobeEpochs s 0 false = [1] := by simp [strobeEpochs]

/-- The wedge that an accepted strobe begins is the one predicted next (R284). -/
theorem wedgesOn_next (s : State) : ((wedgesOn s s.tbs.missed.toNat).wedge + 1) % max 1 s.wpr = wedgeNext s := by
  unfold wedgesOn wedgeNext
  dsimp only
  split
  · rfl
  · simp [Nat.add_mod]

theorem toNat_strobePhase (p : BitVec 16) : (BitVec.ofNat 22 (strobePhase p)).toNat = p.toNat + 6 := by
  have := p.isLt
  simp [strobePhase]
  omega

/-! ## A strobe in each lock state (Table 7-3) -/

section
variable {s : State} {index : Bool} {phase : BitVec 16} (ht : s.boot.tstMode = false) (hup : tbsUp s = true)
include ht hup

theorem wedgeStrobe_unlocked (h : s.tbs.lock = .unlocked) :
    exec (.wedgeStrobe index phase) s = .next (if index && s.tbs.spin && !tbSynth s then acqStart s else s) := by
  refine (act_next ht _).trans ?_
  simp only [hup, h, Bool.not_true, Bool.false_eq_true, if_false]

theorem wedgeStrobe_acquiring (h : s.tbs.lock = .acquiring) :
    exec (.wedgeStrobe index phase) s = .next (acqStrobe index phase s) := by
  refine (act_next ht _).trans ?_
  simp only [hup, h, Bool.not_true, Bool.false_eq_true, if_false]

theorem wedgeStrobe_locked (h : s.tbs.lock = .locked ∨ s.tbs.lock = .holdover) :
    exec (.wedgeStrobe index phase) s = .next (lockedStrobe index phase s) := by
  refine (act_next ht _).trans ?_
  rcases h with h | h <;> simp only [hup, h, Bool.not_true, Bool.false_eq_true, if_false]

theorem wedgeStrobe_synth (h : s.tbs.lock = .synth) : exec (.wedgeStrobe index phase) s = .next s := by
  refine (act_next ht _).trans ?_
  simp only [hup, h, Bool.not_true, Bool.false_eq_true, if_false]

end

/-! ## An accepted strobe in LOCKED or HOLDOVER (R283, R284, R286) -/

/-- The time base after an accepted strobe, before the boundaries are counted. -/
def acceptedTbs (phase : BitVec 16) (s : State) : Tbs :=
  let m := s.tbs.missed.toNat
  let b := wedgesOn s m
  let p := BitVec.ofNat 22 (strobePhase phase)
  let u := if m = 0 then addInterval (sinceStrobe s) b else b
  let u1 : Tbs := { u with lock := .locked, missed := 0, wedge := wedgeNext s, phase := p, phase0 := p, lastStrobe := s.now,
                           lastPhase := BitVec.ofNat 22 (phaseNow s - m * per16 s / 16) }
  if wedgeNext s = 0 then { u1 with rev := b.rev + 1, revPeriod := (s.now - b.indexAt).truncate 32, indexAt := s.now } else u1

theorem acceptStrobe_eq (index : Bool) (phase : BitVec 16) (s : State) : acceptStrobe index phase s =
    let s1 := s.modTbs (fun _ => acceptedTbs phase s)
    let s2 := if wedgeNext s = 0 ∧ !index then tbiFail s1 else s1
    epochWith (if s.tbs.lock = .locked then [] else [228]) (strobeEpochs s2 (wedgeNext s) index) s2 := by
  unfold acceptStrobe
  dsimp only
  rw [wedgesOn_next]
  rfl

theorem epoch_wedgesOn (s : State) (k : Nat) : (wedgesOn s k).epoch = s.tbs.epoch := by
  unfold wedgesOn
  dsimp only
  split <;> rfl

/-- A measured interval changes no place in the revolution. -/
theorem addInterval_keeps (c : Prop) [Decidable c] (d : Nat) (t : Tbs) :
    (if c then addInterval d t else t).rev = t.rev ∧ (if c then addInterval d t else t).indexAt = t.indexAt ∧
      (if c then addInterval d t else t).epoch = t.epoch := by
  split <;> exact ⟨rfl, rfl, rfl⟩

theorem acceptedTbs_frame (phase : BitVec 16) (s : State) :
    let t := acceptedTbs phase s
    let q := wedgesOn s s.tbs.missed.toNat
    t.lock = .locked ∧ t.missed = 0 ∧ t.wedge = wedgeNext s ∧ t.phase.toNat = phase.toNat + 6 ∧ t.lastStrobe = s.now ∧
      t.rev = (if wedgeNext s = 0 then q.rev + 1 else q.rev) ∧ t.indexAt = (if wedgeNext s = 0 then s.now else q.indexAt) ∧
      (wedgeNext s = 0 → t.revPeriod = (s.now - q.indexAt).truncate 32) ∧ t.epoch = s.tbs.epoch := by
  intro t q
  obtain ⟨hrev, hindex, hepoch⟩ := addInterval_keeps (s.tbs.missed.toNat = 0) (sinceStrobe s) q
  have hq : q.epoch = s.tbs.epoch := epoch_wedgesOn ..
  have hphase := toNat_strobePhase phase
  by_cases hw : wedgeNext s = 0
  · have e : t = _ := if_pos hw
    rw [e, if_pos hw, if_pos hw]
    exact ⟨rfl, rfl, rfl, hphase, rfl, rfl, rfl, fun _ => rfl, hepoch.trans hq⟩
  · have e : t = _ := if_neg hw
    rw [e, if_neg hw, if_neg hw]
    exact ⟨rfl, rfl, rfl, hphase, rfl, hrev, hindex, fun h => absurd h hw, hepoch.trans hq⟩

section
variable {s : State} {index : Bool} {phase : BitVec 16}

theorem lockedStrobe_outside (ha : strobeAccepts s = false) : lockedStrobe index phase s = tbiFail s := by
  simp [lockedStrobe, ha]

/-- An index at a wedge other than the first is no strobe of it: LOCKED misses the strobe (R284). -/
theorem lockedStrobe_misplaced (ha : strobeAccepts s = true) (hi : index = true) (hw : wedgeNext s ≠ 0) :
    lockedStrobe index phase s = if s.tbs.lock = .locked then missStrobe s else s := by
  unfold lockedStrobe
  rw [if_neg (by simp [ha]), if_pos ⟨hi, hw⟩]

theorem lockedStrobe_accepted (ha : strobeAccepts s = true) (hi : index = true → wedgeNext s = 0) :
    lockedStrobe index phase s = acceptStrobe index phase s := by
  unfold lockedStrobe
  rw [if_neg (by simp [ha]), if_neg (fun h => h.2 (hi h.1))]

/-- A strobe with its index where one is due, and without one elsewhere. -/
theorem tbs_acceptStrobe (hw : wedgeNext s = 0 → index = true) :
    (acceptStrobe index phase s).tbs = (acceptedTbs phase s).counted (strobeEpochs s (wedgeNext s) index) := by
  have h : ¬(wedgeNext s = 0 ∧ (!index) = true) := fun ⟨h0, hi⟩ => by simp [hw h0] at hi
  simp only [acceptStrobe_eq, if_neg h, tbs_epochWith]
  rfl

/-- A strobe of the first wedge without an index is a tolerance failure (R284). -/
theorem acceptStrobe_noIndex (hw : wedgeNext s = 0) : acceptStrobe false phase s =
    epochWith (if s.tbs.lock = .locked then [] else [228]) [1] (tbiFail (s.modTbs (fun _ => acceptedTbs phase s))) := by
  have h : wedgeNext s = 0 ∧ (!false) = true := ⟨hw, rfl⟩
  simp only [acceptStrobe_eq, if_pos h]
  rw [hw, strobeEpochs_start]

end

/-! ## An acquisition (Table 7-3, R289) -/

/-- The state after a strobe that an acquisition takes into its mean. -/
def acqTook (s : State) : State :=
  s.modTbs (fun t => addInterval (sinceStrobe s) { t with acqSum := t.acqSum + sinceStrobe s, acqN := t.acqN + 1, lastStrobe := s.now })

/-- The state after the index that ends a revolution of an acquisition. -/
def acqTurned (s : State) : State :=
  (acqTook s).modTbs (fun t => { t with
    acqRevs := t.acqRevs + 1, acqStrobes := 1, revPeriod := (s.now - t.indexAt).truncate 32, indexAt := s.now })

/-- What an acquisition has taken of a strobe: its interval stands in the sum, in their number and among the last 8. -/
def AcqTook (s : State) (x : Tbs) : Prop :=
  x.acqSum = s.tbs.acqSum + sinceStrobe s ∧ x.acqN = s.tbs.acqN + 1 ∧ x.lastStrobe = s.now ∧
    x.intervals = (sinceStrobe s :: s.tbs.intervals).take 8

section
variable {s : State} {index : Bool} {phase : BitVec 16}

theorem acqStrobe_outside (h : acqAccepts s (sinceStrobe s) = false) : acqStrobe index phase s = unlock (tbiFail s) := by
  simp [acqStrobe, h]

variable (h : acqAccepts s (sinceStrobe s) = true)
include h

/-- An index out of its place, or none at it, loses the acquisition. -/
theorem acqStrobe_lost (hi : index = true ↔ s.tbs.acqStrobes ≠ s.wpr) : acqStrobe index phase s = unlock (acqTook s) := by
  cases index
  · have hn : s.tbs.acqStrobes = s.wpr := by simpa using hi
    simp [acqStrobe, h, hn, acqTook]
  · have hn : s.tbs.acqStrobes ≠ s.wpr := hi.mp rfl
    simp [acqStrobe, h, hn, acqTook]

theorem acqStrobe_counts (hn : s.tbs.acqStrobes ≠ s.wpr) : acqStrobe false phase s =
    epochBoundary (strobeEpochs s s.tbs.acqStrobes false) ((acqTook s).modTbs (fun t => { t with acqStrobes := t.acqStrobes + 1 })) := by
  simp [acqStrobe, h, hn, acqTook]

/-- The index in its place ends a revolution; the last of ACQ enters LOCKED. -/
theorem acqStrobe_index (hn : s.tbs.acqStrobes = s.wpr) : acqStrobe true phase s =
    if fld (s.app .tbCfg) 8 4 ≤ s.tbs.acqRevs + 1 then
      enterLock .locked (fld (s.app .tbCfg) 8 4) (strobePhase phase) [1] (acqTurned s)
    else epochBoundary [1] (acqTurned s) := by
  unfold acqStrobe
  dsimp only
  rw [if_neg (by simp [h]), if_pos rfl, if_neg (not_not.mpr hn), strobeEpochs_start]
  rfl

end

/-! ## Entry to LOCKED or SYNTH (R291, Table 7-3) -/

/-- The state that enters a lock, before its boundaries are counted and the held anchors are evaluated. -/
def entered (l : Lock) (first phase : Nat) (s : State) : State :=
  (entryRev first s).2.modTbs (fun t => { t with
    lock := l, rev := (entryRev first s).1, wedge := 0, phase := BitVec.ofNat 22 phase, phase0 := BitVec.ofNat 22 phase, lastPhase := 0,
    lastStrobe := (entryRev first s).2.now, indexAt := (entryRev first s).2.now, missed := 0, everLocked := true,
    synthNext := (entryRev first s).2.now + BitVec.ofNat 64 (fld ((entryRev first s).2.app .synthPeriod) 0 22) })

theorem enterLock_eq (l : Lock) (first phase : Nat) (ks : List Nat) (s : State) : enterLock l first phase ks s =
    releaseHeld (epochWith (if s.tbs.lock = l then [] else [228]) ks (entered l first phase s)) := rfl

/-- The last revolution of an acquisition enters LOCKED at its index. -/
theorem acqStrobe_locks {s : State} {phase : BitVec 16} (h : acqAccepts s (sinceStrobe s) = true) (hn : s.tbs.acqStrobes = s.wpr)
    (hr : fld (s.app .tbCfg) 8 4 ≤ s.tbs.acqRevs + 1) (hl : s.tbs.lock = .acquiring) : acqStrobe true phase s =
    releaseHeld (epochWith [228] [1] (entered .locked (fld (s.app .tbCfg) 8 4) (strobePhase phase) (acqTurned s))) := by
  have hne : (acqTurned s).tbs.lock ≠ .locked := by
    change s.tbs.lock ≠ .locked
    rw [hl]
    decide
  rw [acqStrobe_index h hn, if_pos hr, enterLock_eq, if_neg hne]

/-- The revolution number at an entry changes no more than the draw of free values. -/
theorem tbs_entryRev (first : Nat) (s : State) : (entryRev first s).2.tbs = s.tbs := by
  unfold entryRev revsLost
  split
  · dsimp only
    split <;> rfl
  · rfl

theorem entryRev_first {first : Nat} {s : State} (h : s.tbs.everLocked = false) : (entryRev first s).1 = BitVec.ofNat 32 first := by
  simp [entryRev, h]

theorem entryRev_again {first : Nat} {s : State} (h : s.tbs.everLocked = true) (hp : s.tbs.lastPeriod ≠ 0) : (entryRev first s).1 =
    s.tbs.lastRev + BitVec.ofNat 32
      (max 1 ((2 * (s.now - s.tbs.lastIndexAt).toNat + s.tbs.lastPeriod.toNat) / (2 * s.tbs.lastPeriod.toNat))) := by
  have hn : s.tbs.lastPeriod.toNat ≠ 0 := fun e => hp (BitVec.eq_of_toNat_eq e)
  simp [entryRev, revsLost, h, hn]

theorem tbs_entered (l : Lock) (first phase : Nat) (s : State) :
    ∃ n, (entered l first phase s).tbs = { s.tbs with
      lock := l, rev := (entryRev first s).1, wedge := 0, phase := BitVec.ofNat 22 phase, phase0 := BitVec.ofNat 22 phase,
      lastPhase := 0, lastStrobe := s.now, indexAt := s.now, missed := 0, everLocked := true, synthNext := n } :=
  ⟨_, by simp only [entered, State.modTbs, State.now, tbs_entryRev]; rfl⟩

/-! ## A window that ends without a strobe (R289, R292) -/

/-- The time base in HOLDOVER after `m` windows without a strobe. -/
def missTo (m : Nat) (s : State) : State := s.modTbs (fun t => { t with lock := .holdover, missed := BitVec.ofNat 8 m })

theorem missStrobe_eq (s : State) : missStrobe s =
    let m := if s.tbs.lock = .locked then 1 else s.tbs.missed.toNat + 1
    if fld (s.app .tbCfg) 12 4 < m then unlock (missTo m s)
    else if s.tbs.lock = .locked then emitUp [228] (missTo m s) else missTo m s := rfl

theorem tbs_missStrobe {s : State} (h : ¬fld (s.app .tbCfg) 12 4 < (if s.tbs.lock = .locked then 1 else s.tbs.missed.toNat + 1)) :
    (missStrobe s).tbs = (missTo (if s.tbs.lock = .locked then 1 else s.tbs.missed.toNat + 1) s).tbs := by
  rw [missStrobe_eq]
  dsimp only
  rw [if_neg h]
  split
  · exact tbs_emitUp ..
  · rfl

/-! ## A synthetic strobe (R290) -/

/-- The time base after a synthetic strobe, before the boundaries are counted. -/
def synthTbs (s : State) : Tbs :=
  let w := (s.tbs.wedge + 1) % max 1 s.wpr
  let p := BitVec.ofNat 64 (fld (s.app .synthPeriod) 0 22)
  let y : Tbs := { s.tbs with wedge := w, lastPhase := s.tbs.phase, phase := 0, phase0 := 0, synthNext := s.tbs.synthNext + p,
                              lastStrobe := s.now, wedgePeriod := BitVec.ofNat 32 (p.toNat * 16) }
  if w = 0 then { y with rev := s.tbs.rev + 1, revPeriod := (s.now - s.tbs.indexAt).truncate 32, indexAt := s.now } else y

theorem synthTbs_frame (s : State) :
    let t := synthTbs s
    let w := (s.tbs.wedge + 1) % max 1 s.wpr
    t.wedge = w ∧ t.phase = 0 ∧ t.lock = s.tbs.lock ∧
      t.synthNext = s.tbs.synthNext + BitVec.ofNat 64 (fld (s.app .synthPeriod) 0 22) ∧
      t.rev = (if w = 0 then s.tbs.rev + 1 else s.tbs.rev) := by
  intro t w
  by_cases hw : w = 0
  · have e : t = _ := if_pos hw
    rw [e, if_pos hw]
    exact ⟨rfl, rfl, rfl, rfl, rfl⟩
  · have e : t = _ := if_neg hw
    rw [e, if_neg hw]
    exact ⟨rfl, rfl, rfl, rfl, rfl⟩

theorem synthStrobe_due {s : State} (ht : s.boot.tstMode = false) (hup : tbsUp s = true) (hl : s.tbs.lock = .synth)
    (hle : s.tbs.synthNext.toNat ≤ s.now.toNat) : exec .synthStrobe s = .next
      (let w := (s.tbs.wedge + 1) % max 1 s.wpr
       let t := s.modTbs (fun _ => synthTbs s)
       epochBoundary (strobeEpochs t w (w = 0)) t) :=
  (act_next ht _).trans (congrArg _ (if_pos (by simp [hup, hl, hle])))

theorem regWrite_epStrobe (sec : Bool) (owner : Byte) (v : Word) (s : State) :
    regWrite sec owner .epStrobe v s = some (if bit v 0 then epochBoundary [3] s else s) := rfl

/-- The bit that a write of TBS.EP_STROBE acts on. -/
theorem bit_strobe (d : Word) : bit (setFld d 0 1 1) 0 = true := by
  rw [bit_setFld, if_pos ⟨Nat.le_refl 0, by decide⟩]
  rfl

/-! ## Strobes as the claim states them -/

section
variable {s : State} {index : Bool} {phase : BitVec 16} (ht : s.boot.tstMode = false) (hup : tbsUp s = true)
include ht hup

/-- An index with a valid spin starts acquisition, outside SYNTH. -/
theorem wedgeStrobe_starts (hl : s.tbs.lock = .unlocked) (hi : index = true) (hsp : s.tbs.spin = true) (hsy : tbSynth s = false) :
    ∃ t, exec (.wedgeStrobe index phase) s = .next t ∧ t.tbs.lock = .acquiring ∧ t.tbs.acqRevs = 0 ∧ t.tbs.acqStrobes = 1 ∧
      t.tbs.lastStrobe = s.now ∧ t.tbs.indexAt = s.now ∧ t.tbs.time = s.tbs.time := by
  refine ⟨_, (wedgeStrobe_unlocked ht hup hl).trans (congrArg _ (if_pos (by simp [hi, hsp, hsy]))), ?_⟩
  rw [acqStart, tbs_epochWith]
  exact ⟨rfl, rfl, rfl, rfl, rfl, rfl⟩

/-- A strobe within the tolerance begins the wedge predicted next, and the next revolution at its index. -/
theorem wedgeStrobe_accepted (hl : s.tbs.lock = .locked ∨ s.tbs.lock = .holdover) (ha : strobeAccepts s = true)
    (hiw : index = true → wedgeNext s = 0) (hwi : wedgeNext s = 0 → index = true) :
    let w := wedgeNext s
    let q := wedgesOn s s.tbs.missed.toNat
    ∃ t, exec (.wedgeStrobe index phase) s = .next t ∧ t.tbs.lock = .locked ∧ t.tbs.missed = 0 ∧ t.tbs.wedge = w ∧
      t.tbs.phase.toNat = phase.toNat + 6 ∧ t.tbs.lastStrobe = s.now ∧ t.tbs.rev = (if w = 0 then q.rev + 1 else q.rev) ∧
      t.tbs.indexAt = (if w = 0 then s.now else q.indexAt) ∧
      (w = 0 → t.tbs.revPeriod = (s.now - q.indexAt).truncate 32 ∧ Tbl.get 0 t.tbs.epoch 0 = Tbl.get 0 s.tbs.epoch 0 + 1) := by
  intro w q
  obtain ⟨hlock, hmissed, hwedge, hphase, hlast, hrev, hindex, hperiod, hepoch⟩ := acceptedTbs_frame phase s
  refine ⟨_, (wedgeStrobe_locked ht hup hl).trans (congrArg _ (lockedStrobe_accepted ha hiw)), ?_⟩
  rw [tbs_acceptStrobe hwi]
  generalize acceptedTbs phase s = x at *
  refine ⟨hlock, hmissed, hwedge, hphase, hlast, hrev, hindex, fun hw => ⟨hperiod hw, ?_⟩⟩
  rw [show wedgeNext s = 0 from hw, hwi hw, strobeEpochs_index, epoch_counted_two, hepoch]

/-- Where the first wedge's index is missing the revolution begins all the same, and the tolerance fails (R284). -/
theorem wedgeStrobe_noIndex (hl : s.tbs.lock = .locked ∨ s.tbs.lock = .holdover) (ha : strobeAccepts s = true)
    (hw : wedgeNext s = 0) (hi : index = false) :
    let q := wedgesOn s s.tbs.missed.toNat
    ∃ u : State, u.tbs.lock = .locked ∧ u.tbs.missed = 0 ∧ u.tbs.wedge = 0 ∧ u.tbs.phase.toNat = phase.toNat + 6 ∧
      u.tbs.lastStrobe = s.now ∧ u.tbs.rev = q.rev + 1 ∧ u.tbs.indexAt = s.now ∧
      u.tbs.revPeriod = (s.now - q.indexAt).truncate 32 ∧
      exec (.wedgeStrobe index phase) s =
        .next (epochWith (if s.tbs.lock = .locked then [] else [228]) [1] (assertFault 251 (faultOf 5 0) u)) := by
  intro q
  subst hi
  have hx : exec (.wedgeStrobe false phase) s = .next
      (epochWith (if s.tbs.lock = .locked then [] else [228]) [1] (tbiFail (s.modTbs (fun _ => acceptedTbs phase s)))) := by
    rw [wedgeStrobe_locked ht hup hl, lockedStrobe_accepted ha (fun h => Bool.noConfusion h), acceptStrobe_noIndex hw]
  obtain ⟨hlock, hmissed, hwedge, hphase, hlast, hrev, hindex, hperiod, -⟩ := acceptedTbs_frame phase s
  rw [if_pos hw] at hrev hindex
  rw [hw] at hwedge
  have hperiod := hperiod hw
  generalize acceptedTbs phase s = x at *
  exact ⟨s.modTbs (fun _ => x), hlock, hmissed, hwedge, hphase, hlast, hrev, hindex, hperiod, hx⟩

variable (hl : s.tbs.lock = .acquiring) (ha : acqAccepts s (sinceStrobe s) = true)
include hl ha

theorem wedgeStrobe_lost (hi : index = true ↔ s.tbs.acqStrobes ≠ s.wpr) :
    ∃ u : State, AcqTook s u.tbs ∧ exec (.wedgeStrobe index phase) s = .next (unlock u) :=
  ⟨acqTook s, ⟨rfl, rfl, rfl, rfl⟩, (wedgeStrobe_acquiring ht hup hl).trans (congrArg _ (acqStrobe_lost ha hi))⟩

theorem wedgeStrobe_counts (hi : index = false) (hn : s.tbs.acqStrobes ≠ s.wpr) :
    ∃ t, exec (.wedgeStrobe index phase) s = .next t ∧ AcqTook s t.tbs ∧ t.tbs.lock = .acquiring ∧
      t.tbs.acqStrobes = s.tbs.acqStrobes + 1 ∧ t.tbs.acqRevs = s.tbs.acqRevs ∧ t.tbs.time = s.tbs.time := by
  subst hi
  refine ⟨_, (wedgeStrobe_acquiring ht hup hl).trans (congrArg _ (acqStrobe_counts ha hn)), ?_⟩
  rw [tbs_epochBoundary]
  exact ⟨⟨rfl, rfl, rfl, rfl⟩, hl, rfl, rfl, rfl⟩

theorem wedgeStrobe_turns (hi : index = true) (hn : s.tbs.acqStrobes = s.wpr) (hr : s.tbs.acqRevs + 1 < fld (s.app .tbCfg) 8 4) :
    ∃ t, exec (.wedgeStrobe index phase) s = .next t ∧ AcqTook s t.tbs ∧ t.tbs.lock = .acquiring ∧
      t.tbs.acqRevs = s.tbs.acqRevs + 1 ∧ t.tbs.acqStrobes = 1 ∧ t.tbs.indexAt = s.now ∧
      t.tbs.revPeriod = (s.now - s.tbs.indexAt).truncate 32 ∧ t.tbs.time = s.tbs.time := by
  subst hi
  refine ⟨_, (wedgeStrobe_acquiring ht hup hl).trans (congrArg _ ((acqStrobe_index ha hn).trans (if_neg (Nat.not_le.mpr hr)))), ?_⟩
  rw [tbs_epochBoundary]
  exact ⟨⟨rfl, rfl, rfl, rfl⟩, hl, rfl, rfl, rfl, rfl, rfl⟩

/-- The index that ends the last revolution of ACQ enters LOCKED, with the revolution number of R291. -/
theorem wedgeStrobe_locks (hi : index = true) (hn : s.tbs.acqStrobes = s.wpr) (hr : fld (s.app .tbCfg) 8 4 ≤ s.tbs.acqRevs + 1) :
    ∃ u : State, AcqTook s u.tbs ∧ u.tbs.lock = .locked ∧ u.tbs.wedge = 0 ∧ u.tbs.missed = 0 ∧
      u.tbs.phase.toNat = phase.toNat + 6 ∧ u.tbs.indexAt = s.now ∧ u.tbs.revPeriod = (s.now - s.tbs.indexAt).truncate 32 ∧
      u.tbs.time = s.tbs.time ∧ (s.tbs.everLocked = false → u.tbs.rev = BitVec.ofNat 32 (fld (s.app .tbCfg) 8 4)) ∧
      (s.tbs.everLocked = true → s.tbs.lastPeriod ≠ 0 → u.tbs.rev = s.tbs.lastRev + BitVec.ofNat 32
        (max 1 ((2 * (s.now - s.tbs.lastIndexAt).toNat + s.tbs.lastPeriod.toNat) / (2 * s.tbs.lastPeriod.toNat)))) ∧
      exec (.wedgeStrobe index phase) s = .next (releaseHeld (epochWith [228] [1] u)) := by
  subst hi
  have hx := (wedgeStrobe_acquiring (phase := phase) ht hup hl).trans (congrArg _ (acqStrobe_locks ha hn hr hl))
  obtain ⟨n, hu⟩ := tbs_entered .locked (fld (s.app .tbCfg) 8 4) (strobePhase phase) (acqTurned s)
  refine ⟨entered .locked (fld (s.app .tbCfg) 8 4) (strobePhase phase) (acqTurned s), ?_⟩
  rw [hu]
  exact ⟨⟨rfl, rfl, rfl, rfl⟩, rfl, rfl, rfl, toNat_strobePhase phase, rfl, rfl, rfl, fun he => entryRev_first he,
    fun he hp => entryRev_again (s := acqTurned s) he hp, hx⟩

end

/-! ## The statement -/

/-- Settles O51: a strobe by the lock state that it meets, then the window, the spin level, synthetic strobes and boundaries. -/
theorem strobesAndEpochs : Obligations.StrobesAndEpochs := by
  unfold Obligations.StrobesAndEpochs
  intro s
  refine ⟨fun ht hup => ⟨fun index phase => ?strobe, fun hsy => ?fails, fun hsy => ?ignored,
    fun hl => ⟨fun ho => ?stands, fun ho => ?ended⟩, fun v => act_next ht _, spinTick_same,
    fun hne => ⟨spinTick_counts hne, spinTick_keeps hne, spinTick_unlocks hne hup⟩,
    fun hl hlt => ?early, fun hl hle => ?due, fun h0 => ?timeN, fun h0 => ?notTimeN⟩, fun a d htk => ?epStrobe, fun k => ?boundary,
    fun h => tbs_unlock h⟩
  case strobe =>
    refine ⟨fun hl hno => ?noStart, wedgeStrobe_starts ht hup, wedgeStrobe_synth ht hup, fun hl ha => ?outside,
      wedgeStrobe_accepted ht hup, wedgeStrobe_noIndex ht hup, fun hl ha hi hw => ?missed, fun hl ha hi hw => ?heldOver, fun hl ha => ?lost,
      fun hl ha => ⟨wedgeStrobe_lost ht hup hl ha, wedgeStrobe_counts ht hup hl ha, wedgeStrobe_turns ht hup hl ha,
        wedgeStrobe_locks ht hup hl ha⟩⟩
    case noStart =>
      refine (wedgeStrobe_unlocked ht hup hl).trans (congrArg _ (if_neg ?_))
      rw [Bool.and_eq_true, Bool.and_eq_true, Bool.not_eq_true']
      rintro ⟨⟨hi, hsp⟩, hsy⟩
      rcases hno with h | h | h
      · exact Bool.noConfusion (h.symm.trans hi)
      · exact Bool.noConfusion (h.symm.trans hsp)
      · exact Bool.noConfusion (h.symm.trans hsy)
    case outside => exact (wedgeStrobe_locked ht hup hl).trans (congrArg _ (lockedStrobe_outside ha))
    case missed => exact (wedgeStrobe_locked ht hup (.inl hl)).trans (congrArg _ ((lockedStrobe_misplaced ha hi hw).trans (if_pos hl)))
    case heldOver =>
      refine (wedgeStrobe_locked ht hup (.inr hl)).trans (congrArg _ ((lockedStrobe_misplaced ha hi hw).trans (if_neg fun e => ?_)))
      exact Lock.noConfusion (hl.symm.trans e)
    case lost => exact (wedgeStrobe_acquiring ht hup hl).trans (congrArg _ (acqStrobe_outside ha))
  case fails => exact (act_next ht _).trans (congrArg _ (if_pos (by simp [hup, hsy])))
  case ignored => exact (act_next ht _).trans (congrArg _ (if_neg (by simp [hsy])))
  case stands => exact (act_next ht _).trans (congrArg _ (if_neg (by simp [ho])))
  case ended =>
    have hx : exec .toleranceWindowExpiry s = .next (missStrobe s) := by
      refine (act_next ht _).trans (congrArg _ (if_pos ?_))
      rcases hl with h | h <;> simp [hup, h, ho]
    rw [hx]
    refine ⟨fun hm => ⟨_, rfl, ?_⟩, fun hm => ⟨missTo _ s, congrArg _ ((missStrobe_eq s).trans (if_pos hm)), rfl⟩⟩
    rw [tbs_missStrobe (Nat.not_lt.mpr hm)]
    exact ⟨rfl, rfl, rfl, rfl, rfl⟩
  case early =>
    refine (act_next ht _).trans (congrArg _ (if_neg ?_))
    simp only [Bool.and_eq_true, decide_eq_true_eq]
    omega
  case due =>
    obtain ⟨hwedge, hphase, hlock, hnext, hrev⟩ := synthTbs_frame s
    refine ⟨_, synthStrobe_due ht hup hl hle, ?_⟩
    rw [tbs_epochBoundary]
    rw [hl] at hlock
    generalize synthTbs s = t at hwedge hphase hlock hnext hrev ⊢
    exact ⟨hwedge, hphase, hlock, hnext, hrev⟩
  case timeN => exact (act_next ht _).trans (congrArg _ (if_pos (by simpa [hup, ticksUs] using h0)))
  case notTimeN => exact (act_next ht _).trans (congrArg _ (if_neg (by simpa [hup, ticksUs] using h0)))
  case epStrobe =>
    refine takes_wroteAt htk 0x8044 (setFld d 0 1 1) (by decide) (by decide) rfl ?_
    rw [regWrite_epStrobe, if_pos (bit_strobe d)]
  case boundary =>
    refine ⟨?_, fun j hj => ?_, boundary_epochBoundary k s, ?_⟩
    · rw [tbs_epochBoundary, epoch_counted_one, if_pos rfl]
    · rw [tbs_epochBoundary, epoch_counted_one, if_neg hj]
    · rw [tbs_epochBoundary]
      rfl

end Sys2Proof.Machine
end

section
/-! Resets, test operation and debug (R481 to R484, R497, R498): what the reset sequence, a wake and the boot load leave unchanged. -/

namespace Sys2Proof.Machine

/-! ## Tables and folds -/

/-- What the default and every changed entry have, each entry of a table has whose entries were all changed and then thinned out. -/
theorem Tbl.get_mapped {α β : Type} {e : β} {f : α → β} (P : β → Prop) (he : P e) (hf : ∀ x, P (f x)) (c : Nat × β → Bool)
    (t : Tbl α) (k : Nat) : P (Tbl.get e ((t.map (fun p => (p.1, f p.2))).filter c) k) := by
  rcases Tbl.get_mem e ((t.map (fun p => (p.1, f p.2))).filter c) k with h | ⟨j, hj⟩
  · rw [h]
    exact he
  · obtain ⟨p, -, hp⟩ := List.mem_map.mp (List.mem_of_mem_filter hj)
    rw [← (Prod.mk.inj hp).2]
    exact hf p.2

@[simp] theorem dom_modDom (s : State) (d : Nat) (f : Dom → Dom) : (s.modDom d f).dom d = f (s.dom d) := Tbl.get_put_same ..

theorem dom_modDom_other (s : State) {d k : Nat} (f : Dom → Dom) (h : k ≠ d) : (s.modDom d f).dom k = s.dom k :=
  Tbl.get_put_other _ _ _ _ _ h

/-- A change of a domain that keeps a part of it keeps that part of every domain. -/
theorem doms_modDom {β : Type} (g : Dom → β) (s : State) (d : Nat) (f : Dom → Dom) (h : g (f (s.dom d)) = g (s.dom d)) :
    (fun k => g ((s.modDom d f).dom k)) = fun k => g (s.dom k) := by
  funext k
  by_cases hk : k = d
  · rw [hk, dom_modDom, h]
  · rw [dom_modDom_other s f hk]

theorem eng_modEng_other (s : State) {e f : EngId} (g : Engine → Engine) (h : f ≠ e) : (s.modEng e g).eng f = s.eng f :=
  eng_setEng_other _ _ _ _ h

/-- A change of listed engines that does nothing the second time changes each of them once. -/
theorem eng_foldS_modEng {f : Engine → Engine} (hf : ∀ x, f (f x) = f x) (e : EngId) (l : List Nat) (s : State) :
    (foldS l (fun k u => u.modEng (engOf k) f) s).eng e = if e ∈ l.map engOf then f (s.eng e) else s.eng e := by
  induction l generalizing s with
  | nil => rfl
  | cons k l ih =>
    refine (ih (s.modEng (engOf k) f)).trans ?_
    by_cases he : e = engOf k
    · subst he
      simp [hf]
    · rw [eng_modEng_other s f he]
      simp [he]

/-! ## Wakes and the boot load -/

/-- What stands while domains wake and the loader reads: the pins' latches, the time base, and the state of every domain. -/
def State.standing (s : State) : Boot × Tbs × (Nat → DomSt) := (s.boot, s.tbs, fun d => (s.dom d).st)

theorem standing_modDom (s : State) (d : Nat) (f : Dom → Dom) (h : (f (s.dom d)).st = (s.dom d).st) :
    (s.modDom d f).standing = s.standing :=
  congrArg (fun x => (s.boot, s.tbs, x)) (doms_modDom Dom.st s d f h)

theorem doms_supRequest (x : Nat) (v : BitVec 3) (s : State) : (supRequest x v s).doms = s.doms := by
  unfold supRequest
  dsimp only
  split
  · split <;> rfl
  · rfl

theorem doms_supPolicy (x : Nat) (s : State) : (supPolicy x s).doms = s.doms := by
  unfold supPolicy
  split
  · split
    · exact doms_supRequest ..
    · rfl
  · exact doms_supRequest ..

theorem doms_clkPolicy (c : Nat) (s : State) : (clkPolicy c s).doms = s.doms := by
  unfold clkPolicy
  dsimp only
  split <;> rfl

/-- Supplies and clocks follow the domains, and no domain follows them at once (R609). -/
theorem doms_pmiPolicy (s : State) : (pmiPolicy s).doms = s.doms :=
  (foldS_keeps State.doms doms_clkPolicy _ _).trans (foldS_keeps State.doms doms_supPolicy _ _)

theorem boot_of_butPower {s t : State} (h : s.butPower = t.butPower) : s.boot = t.boot := by
  have hboot := congrArg State.boot h
  exact hboot

/-- The pins' latches and the time base are no part of what PCM drives. -/
theorem standing_of_butPower {s t : State} (h : s.butPower = t.butPower) (hd : ∀ d, (s.dom d).st = (t.dom d).st) :
    s.standing = t.standing := by
  have htbs := congrArg State.tbs h
  exact Prod.ext (boot_of_butPower h) (Prod.ext htbs (funext hd))

theorem of_standing {s t : State} (h : s.standing = t.standing) :
    s.boot = t.boot ∧ s.tbs = t.tbs ∧ ∀ d, (s.dom d).st = (t.dom d).st := by
  obtain ⟨hboot, h⟩ := Prod.mk.inj h
  obtain ⟨htbs, hdoms⟩ := Prod.mk.inj h
  exact ⟨hboot, htbs, congrFun hdoms⟩

theorem standing_pmiPolicy (s : State) : (pmiPolicy s).standing = s.standing :=
  standing_of_butPower (butPower_pmiPolicy s) (fun d => by unfold State.dom; rw [doms_pmiPolicy])

theorem standing_wakeAdvance (s : State) : (wakeAdvance s).standing = s.standing := by
  refine foldS_keeps State.standing (fun d t => ?_) _ _
  split
  · exact standing_modDom t d _ rfl
  · rfl

theorem standing_wakeRecord (d : Nat) (why : Option (Nat × Nat)) (s : State) : (wakeRecord d why s).standing = s.standing := by
  cases why <;> rfl

/-- A wake that begins changes the state of no domain (R626). -/
theorem standing_startWake (d : Nat) (why : Option (Nat × Nat)) (s : State) : (startWake d why s).standing = s.standing := by
  unfold startWake
  dsimp only
  split
  · refine standing_modDom s d _ ?_
    split <;> rfl
  · split
    · rfl
    · rw [standing_wakeAdvance, standing_pmiPolicy, standing_modDom _ _ _ rfl, standing_wakeRecord]

theorem standing_beginWake (d src detail : Nat) (s : State) : (beginWake d src detail s).standing = s.standing := by
  unfold beginWake
  split
  · rfl
  · split
    · rfl
    · exact (standing_startWake ..).trans (foldS_keeps State.standing (fun k t => standing_startWake k none t) _ _)

theorem standing_issue (t : Txn) (s : State) : (issue t s).standing = s.standing := by
  unfold issue
  dsimp only
  split
  · exact standing_beginWake ..
  · rfl

/-- A reading of the loader that goes on raises a wing, or issues a transaction (R526, R664). -/
theorem standing_readNext (key fuel : Nat) (s : State) : (readNext key fuel s).standing = s.standing := by
  induction fuel generalizing s with
  | zero => rfl
  | succ fuel ih =>
    rw [readNext]
    split
    · rfl
    · dsimp only
      split
      · rfl
      · split
        · split
          · exact standing_beginWake ..
          · exact standing_issue ..
        · split
          · rfl
          · split
            · exact ih _
            · split
              · rfl
              · split
                · exact standing_beginWake ..
                · exact standing_issue ..

theorem standing_lgEnqueue (code sev : Nat) (inj : Bool) (lo hi : Word) (s : State) :
    (lgEnqueue code sev inj lo hi s).standing = s.standing := by
  unfold lgEnqueue
  dsimp only
  split <;> rfl

theorem standing_lgClose (k m : Nat) (s : State) : (lgClose k m s).standing = s.standing := by
  unfold lgClose
  dsimp only
  split
  · rfl
  · refine (standing_lgEnqueue ..).trans ?_
    unfold lgSuppCode
    split <;> rfl

/-- A record goes through its rate limit to the Ledger's queue (R647). -/
theorem standing_lgRecord (code sev : Nat) (inj : Bool) (lo hi : Word) (s : State) :
    (lgRecord code sev inj lo hi s).standing = s.standing := by
  unfold lgRecord
  dsimp only
  split
  · exact standing_lgEnqueue ..
  · generalize (if lgKey code = 0x8000 then fld (s.reg .lgRate) 16 8 else fld (s.reg .lgRate) 24 8) = burst
    split
    · exact standing_lgEnqueue ..
    · split
      · exact (standing_lgEnqueue ..).trans (standing_lgClose ..)
      · split
        · exact standing_lgEnqueue ..
        · rfl

theorem standing_loadFail (reason : Nat) (s : State) : (loadFail reason none s).standing = s.standing := by
  unfold loadFail
  dsimp only
  split
  · refine (foldS_keeps State.standing (fun g u => ?_) _ _).trans (standing_lgRecord ..)
    unfold modBank
    rfl
  · exact standing_lgRecord ..

theorem standing_loadStart (src : Nat) (bank : Bool) (addr : DWord) (mask : Word) (s : State) :
    (loadStart src bank addr mask s).standing = s.standing := by
  unfold loadStart
  dsimp only
  split
  · exact standing_loadFail ..
  · split
    · exact standing_loadFail ..
    · exact standing_readNext ..

/-- The boot load (R529) begins beside the reset sequence. -/
theorem standing_bootLoad (s : State) : (bootLoad s).standing = s.standing := by
  unfold bootLoad
  split
  · rfl
  · exact standing_loadStart ..

theorem standing_sbpHand (s : State) : (sbpHand s).standing = s.standing := by
  unfold sbpHand
  split <;> rfl

/-! ## Test operation (R498) -/

/-- Functional behaviour ends with test operation until `rst_ao_n`. -/
theorem exec_testOperation {s : State} (ht : s.boot.tstMode = true) (i : Instr) (h1 : i ≠ .rstAoAssert) (h2 : i ≠ .rstAoRelease)
    (h3 : i ≠ .tapReset) (h4 : i ≠ .testModeEntry) : exec i s = .fault .testOperation := by
  cases i with
  | rstAoAssert => exact absurd rfl h1
  | rstAoRelease => exact absurd rfl h2
  | tapReset => exact absurd rfl h3
  | testModeEntry => exact absurd rfl h4
  | _ => exact act_test ht _

/-- The Cloakroom and the key cabinet are empty before the first scan shift. -/
theorem testModeEntry_clears (s : State) : ∃ t, exec .testModeEntry s = .next t ∧ t.boot.tstMode = true ∧ t.keys = [] ∧
    (∀ d, (t.dom d).saved = false) ∧ t.chans = s.chans ∧ t.ledger = s.ledger :=
  ⟨_, rfl, rfl, rfl,
    Tbl.get_mapped (β := Dom) (e := {}) (f := fun x : Dom => { x with saved := false }) (·.saved = false) rfl (fun _ => rfl) (·.2 != {})
      s.doms, rfl, rfl⟩

/-! ## `rst_n` (R482 to R484) -/

theorem get_domsReset_ao (t : Tbl Dom) : (Tbl.get {} (domsReset t) 0).st = .on := congrArg Dom.st (Tbl.get_put_same ..)

/-- A reset leaves every domain but AO OFF, and out of any entry or wake. -/
theorem get_domsReset (t : Tbl Dom) {d : Nat} (hd : d ≠ 0) :
    (Tbl.get {} (domsReset t) d).st = .off ∧ (Tbl.get {} (domsReset t) d).step = .none := by
  unfold domsReset
  rw [Tbl.get_put_other _ _ _ _ _ hd]
  exact Tbl.get_mapped (β := Dom) (e := {}) (f := fun x : Dom => { wakes := x.wakes, lastAbort := x.lastAbort })
    (fun x => x.st = .off ∧ x.step = .none) ⟨rfl, rfl⟩ (fun _ => ⟨rfl, rfl⟩) _ t d

/-- A record that enters the queue leaves the pins' latches and the stored records (R648). -/
theorem lgEnqueue_frame (code sev : Nat) (inj : Bool) (lo hi : Word) (s : State) :
    (lgEnqueue code sev inj lo hi s).boot = s.boot ∧ (lgEnqueue code sev inj lo hi s).ledger.recs = s.ledger.recs ∧
      (lgEnqueue code sev inj lo hi s).ledger.head = s.ledger.head := by
  unfold lgEnqueue
  dsimp only
  split <;> exact ⟨rfl, rfl, rfl⟩

/-- The supplies of FCLK domains at OPP_DEF touch no domain and no latch. -/
theorem oppDefault_frame (str : Word) (u : State) : (oppDefault str u).boot = u.boot ∧ (oppDefault str u).doms = u.doms := by
  have h := foldS_keeps (f := fun x t => State.modSup t x (fun p =>
    { p with v := BitVec.ofNat 3 (Straps.oppDef str), f := BitVec.ofNat 3 (Straps.oppDef str) }))
    (fun u => (u.boot, u.doms)) (fun _ _ => rfl) (upTo 5) u
  exact Prod.mk.inj h

/-- A waking domain that advances still wakes, for the same state (R608, R626). -/
theorem waking_wakeAdvance (s : State) (d : Nat) :
    ((wakeAdvance s).dom d).waking = (s.dom d).waking ∧ ((wakeAdvance s).dom d).target = (s.dom d).target := by
  have h : (fun k => (((wakeAdvance s).dom k).waking, ((wakeAdvance s).dom k).target)) =
      fun k => ((s.dom k).waking, (s.dom k).target) := by
    refine foldS_keeps (fun t : State => fun k => ((t.dom k).waking, (t.dom k).target)) (fun d t => ?_) _ _
    split
    · next hs => exact doms_modDom (fun x : Dom => (x.waking, x.target)) t d _ (by simp [Dom.waking, hs.1])
    · rfl
  exact Prod.mk.inj (congrFun h d)

/-- Domain `d` is on its way up. -/
def raisedDom (d : Nat) (u : State) : State := u.modDom d (fun x => { x with step := .supply, target := .on })

/-- The state at the release of `rst_n`, before supplies and clocks follow the domains. -/
def resetReleased (str : Word) (s : State) : State :=
  raisedDom 2 (raisedDom 1 (oppDefault str { s with boot := { s.boot with rstN := false, straps := str, strapErr := Straps.err str } }))

theorem boot_resetReleased (str : Word) (s : State) :
    (resetReleased str s).boot = { s.boot with rstN := false, straps := str, strapErr := Straps.err str } := by
  rw [resetReleased, raisedDom, raisedDom, State.modDom_boot, State.modDom_boot, (oppDefault_frame str _).1]

theorem waking_resetReleased (str : Word) (s : State) {d : Nat} (hd : d = 1 ∨ d = 2) :
    ((resetReleased str s).dom d).waking = true ∧ ((resetReleased str s).dom d).target = .on := by
  unfold resetReleased raisedDom
  rcases hd with rfl | rfl
  · rw [dom_modDom_other _ _ (by decide), dom_modDom]
    exact ⟨rfl, rfl⟩
  · rw [dom_modDom]
    exact ⟨rfl, rfl⟩

/-! ## The reset sequence (R280, R482) -/

/-- Domain `d` is ON. -/
def onDom (d : Nat) (u : State) : State := u.modDom d (fun x => { x with st := .on, step := .none, target := .on })

/-- TBS and CORE are ON at their reset values, and READY is set. -/
def coreReady (s : State) : State := onDom 2 (onDom 1 { s with boot := { s.boot with ready := true }, tbs := { spinPin := s.tbs.spinPin } })

/-- Angular time of the reset sequence: SYNTH mode starts it at once (Table 7-3). -/
def timeStarted (s : State) : State := if tbSynth (coreReady s) then enterLock .synth 0 0 [] (coreReady s) else coreReady s

theorem domOn_coreReady (s : State) : ((coreReady s).dom 1).st = .on ∧ ((coreReady s).dom 2).st = .on := by
  unfold coreReady onDom
  rw [dom_modDom, dom_modDom_other _ _ (by decide), dom_modDom]
  exact ⟨rfl, rfl⟩

/-- No channel keeps an anchor held. -/
def State.noneHeld (s : State) : Prop := ∀ p ∈ s.chans, p.2.sched.held = false

theorem noneHeld_chan {s : State} (h : s.noneHeld) (ch : BitVec 12) : (s.chan ch).sched.held = false := by
  unfold State.chan
  rcases Tbl.get_mem (chanRst s.boot.straps) s.chans ch.toNat with hd | ⟨j, hj⟩
  · rw [hd]
    rfl
  · exact h _ hj

theorem noneHeld_modChan {s : State} (h : s.noneHeld) (ch : BitVec 12) {f : Chan → Chan} (hf : ∀ c, (f c).sched = c.sched) :
    (s.modChan ch f).noneHeld := by
  intro p hp
  rcases Tbl.mem_put _ _ _ _ _ hp with rfl | hp
  · rw [hf]
    exact noneHeld_chan h ch
  · exact h p hp

theorem noneHeld_touch {s : State} (h : s.noneHeld) (ch : BitVec 12) : (touch ch s).noneHeld := by
  unfold touch
  split
  · split
    · exact noneHeld_modChan h ch (fun _ => rfl)
    · exact h
  · exact noneHeld_modChan h ch (fun _ => rfl)

theorem noneHeld_touchSubs (l : List (Nat × Sub)) {s : State} (h : s.noneHeld) : (foldS l (fun p u => touch p.2.ch u) s).noneHeld := by
  induction l generalizing s with
  | nil => exact h
  | cons p l ih => exact ih (noneHeld_touch h p.2.ch)

/-- Events make channels ready, and hold none of their anchors. -/
theorem noneHeld_emitUp (ps : List Nat) {s : State} (h : s.noneHeld) : (emitUp ps s).noneHeld := by
  unfold emitUp
  split
  · exact h
  · split
    · exact h
    · have hchans := congrArg State.chans (butEvents_emitAll ps s)
      refine noneHeld_touchSubs _ (fun p hp => h p ?_)
      exact hchans ▸ hp

theorem standing_emitUp (ps : List Nat) (s : State) : (emitUp ps s).standing = s.standing := by
  have h := congrArg State.standing (butReactions_emitUp ps s)
  exact h

/-- An entry without a boundary emits its lock change, and no more. -/
theorem epochWith_none (ps : List Nat) (s : State) :
    (epochWith ps [] s).standing = s.standing ∧ (s.noneHeld → (epochWith ps [] s).noneHeld) := by
  unfold epochWith
  simp only [List.contains_nil, Bool.and_false, Bool.false_eq_true, if_false]
  exact ⟨standing_emitUp .., fun h => noneHeld_emitUp _ h⟩

/-- Where no anchor is held, none is evaluated at the entry (R297). -/
theorem releaseHeld_none {s : State} (h : s.noneHeld) (hsc : s.tbs.sc = []) : releaseHeld s = s := by
  have hnone : chansWhere s (fun c => c.sched.held && c.sched.angular) = [] := by
    unfold chansWhere
    rw [List.filter_eq_nil_iff.mpr (fun p hp => by simp [h p hp])]
    rfl
  unfold releaseHeld
  dsimp only
  rw [hnone]
  change foldS (s.tbs.sc.filter _) _ s = s
  rw [hsc]
  rfl

theorem tbSynth_coreReady (s : State) : tbSynth (coreReady s) = tbSynth s := rfl

/-- The first entry draws no free value. -/
theorem entered_first {l : Lock} {first phase : Nat} {s : State} (h : s.tbs.everLocked = false) :
    (entered l first phase s).boot = s.boot ∧ (entered l first phase s).doms = s.doms ∧ (entered l first phase s).chans = s.chans := by
  have hs : (entryRev first s).2 = s := by simp [entryRev, h]
  unfold entered
  rw [hs]
  exact ⟨rfl, rfl, rfl⟩

/-- SYNTH mode starts angular time at tick time 0, where no anchor is held. -/
theorem synthStarted {s : State} (h : tbSynth s = true) (hch : s.chans = []) :
    (timeStarted s).boot = (coreReady s).boot ∧ (∀ d, ((timeStarted s).dom d).st = ((coreReady s).dom d).st) ∧
      (timeStarted s).tbs.time = 0 ∧ (timeStarted s).tbs.lock = .synth := by
  obtain ⟨n, htbs⟩ := tbs_entered .synth 0 0 (coreReady s)
  obtain ⟨hboot, hdoms, hchans⟩ := entered_first (l := .synth) (first := 0) (phase := 0) (s := coreReady s) rfl
  have hnone : (entered .synth 0 0 (coreReady s)).noneHeld := by
    intro p hp
    rw [hchans] at hp
    exact absurd (hch ▸ hp : p ∈ ([] : Tbl Chan)) List.not_mem_nil
  obtain ⟨hst, hheld⟩ := epochWith_none (if (coreReady s).tbs.lock = .synth then [] else [228]) (entered .synth 0 0 (coreReady s))
  obtain ⟨hboot', htbs', hdoms'⟩ := of_standing hst
  have hsc : (epochWith (if (coreReady s).tbs.lock = .synth then [] else [228]) [] (entered .synth 0 0 (coreReady s))).tbs.sc = [] := by
    rw [htbs', htbs]
    rfl
  unfold timeStarted
  rw [if_pos (by rw [tbSynth_coreReady, h]), enterLock_eq, releaseHeld_none (hheld hnone) hsc, hboot', hboot, htbs', htbs]
  refine ⟨rfl, fun d => ?_, rfl, rfl⟩
  rw [hdoms', State.dom, hdoms, State.dom]

/-- Tick time starts at 0; angular time in SYNTH mode is SYNTH, and UNLOCKED otherwise (R280, R482). -/
theorem timeStarted_starts {s : State} (hch : tbSynth s = true → s.chans = []) :
    (timeStarted s).boot.ready = true ∧ ((timeStarted s).dom 1).st = .on ∧ ((timeStarted s).dom 2).st = .on ∧
      (timeStarted s).tbs.time = 0 ∧ (tbSynth s = false → (timeStarted s).tbs.lock = .unlocked) ∧
      (tbSynth s = true → (timeStarted s).tbs.lock = .synth) := by
  obtain ⟨h1, h2⟩ := domOn_coreReady s
  cases h : tbSynth s with
  | false =>
    have hs : timeStarted s = coreReady s := if_neg (by rw [tbSynth_coreReady, h]; decide)
    rw [hs]
    exact ⟨rfl, h1, h2, rfl, fun _ => rfl, fun e => Bool.noConfusion e⟩
  | true =>
    obtain ⟨hboot, hdoms, htime, hlock⟩ := synthStarted h (hch h)
    rw [hboot, hdoms, hdoms]
    exact ⟨rfl, h1, h2, htime, fun e => Bool.noConfusion e, fun _ => hlock⟩

/-- What follows the start of time, wakes and the boot load among it, leaves time, READY and the domains' states (R482, R529). -/
theorem standing_started (s : State) :
    (sbpHand (bootLoad (pmiPolicy (dropLatches (timeStarted s))))).standing = (timeStarted s).standing := by
  rw [standing_sbpHand, standing_bootLoad, standing_pmiPolicy]
  rfl

section
variable {s : State} (ht : s.boot.tstMode = false)
include ht

theorem rstNAssert_resets (hr : s.boot.rstN = false) :
    exec .rstNAssert s = .next (coreReset (lgEnqueue 2 0 false s.boot.straps 0 s)) :=
  (act_next ht _).trans (congrArg _ (if_neg (by simp [hr])))

/-- The straps are latched, and TBS and CORE wake (R482, R484). -/
theorem rstNRelease_wakes (hr : s.boot.rstN = true) (hao : s.boot.rstAo = false) (str : Word) :
    ∃ t, exec (.rstNRelease str) s = .next t ∧ t.boot = { s.boot with rstN := false, straps := str, strapErr := Straps.err str } ∧
      ∀ d, d = 1 ∨ d = 2 → (t.dom d).waking = true ∧ (t.dom d).target = .on := by
  refine ⟨wakeAdvance (pmiPolicy (resetReleased str s)), (act_next ht _).trans (congrArg _ (if_neg (by simp [hr, hao]))), ?_,
    fun d hd => ?_⟩
  · rw [boot_of_butPower (butPower_wakeAdvance _), boot_of_butPower (butPower_pmiPolicy _), boot_resetReleased]
  · obtain ⟨hwaking, htarget⟩ := waking_wakeAdvance (pmiPolicy (resetReleased str s)) d
    rw [hwaking, htarget, State.dom, doms_pmiPolicy]
    exact waking_resetReleased str s hd

theorem resetSequence_waits (hc : coreSupplied s = false) : exec .resetSequenceComplete s = .next s :=
  (act_next ht _).trans (congrArg _ (if_pos (by simp [hc])))

/-- Steps 3 to 6 of Table 13-5, with angular time as the mode starts it (R280, R482). -/
theorem resetSequence_completes (hr : s.boot.rstN = false) (hao : s.boot.rstAo = false) (hrdy : s.boot.ready = false)
    (hc : coreSupplied s = true) : exec .resetSequenceComplete s = .next (sbpHand (bootLoad (pmiPolicy (dropLatches (timeStarted s))))) :=
  (act_next ht _).trans (congrArg _ (if_neg (by simp [hr, hao, hrdy, hc])))

end

/-! ## Isolation and debug (R491, R497) -/

/-- While the shell clamps, every output is at its safe level (Table 13-9). -/
theorem isolated_pins {s : State} (h : s.boot.shellIso = true) : tzAlive s = false ∧ cpCohPin s = false ∧ dbgHalted s = false ∧
    sbpMatcherOn s = false ∧ (∀ n, rqAckPin s n = false) ∧
    ∀ x, vreqPin s x = 0 ∧ vtogPin s x = false ∧ clkReqPin s x = false := by
  simp [tzAlive, cpCohPin, dbgHalted, sbpMatcherOn, rqAckPin, pinsUp, vreqPin, vtogPin, clkReqPin, h]

/-- An engine as a debug halt, or its end, leaves it. -/
def Engine.dbgHalted (s : State) (v : Bool) (x : Engine) : Engine := { x with dbgStopped := v && dbgAdmits s x, dbgStep := false }

/-- A debug halt reaches an engine whatever debug has done to it. -/
theorem dbgHalted_dbgHalted (s : State) (v : Bool) (x : Engine) : (x.dbgHalted s v).dbgHalted s v = x.dbgHalted s v := rfl

/-- An engine that may execute one instruction if it is stopped. -/
def Engine.dbgStepped (x : Engine) : Engine := { x with dbgStep := x.dbgStopped }

theorem dbgStepped_dbgStepped (x : Engine) : x.dbgStepped.dbgStepped = x.dbgStepped := rfl

/-- A change of listed engines changes neither channels nor transactions. -/
theorem foldS_modEng_frame (f : Engine → Engine) (l : List Nat) (s : State) :
    (foldS l (fun k u => u.modEng (engOf k) f) s).boot = s.boot ∧ (foldS l (fun k u => u.modEng (engOf k) f) s).chans = s.chans ∧
      (foldS l (fun k u => u.modEng (engOf k) f) s).txns = s.txns := by
  have h := foldS_keeps (f := fun k u => State.modEng u (engOf k) f) (fun u => (u.boot, u.chans, u.txns)) (fun _ _ => rfl) l s
  obtain ⟨hboot, h⟩ := Prod.mk.inj h
  exact ⟨hboot, Prod.mk.inj h⟩

section
variable {s : State} (ht : s.boot.tstMode = false) (hc : s.coreOn = true)
include ht hc

/-- The engines that a halt admits stop at their next boundary, and go on when it ends. -/
theorem dbgHalt_stops (v : Bool) : ∃ t, exec (.dbgHalt v) s = .next t ∧ t.boot.dbgHalt = v ∧ t.chans = s.chans ∧ t.txns = s.txns ∧
    ∀ k ∈ s.engs.map Prod.fst, k < 544 → (t.eng (engOf k)).dbgStopped = (v && dbgAdmits s (s.eng (engOf k))) ∧
      (t.eng (engOf k)).dbgStep = false := by
  let u : State := { s with boot := { s.boot with dbgHalt := v } }
  obtain ⟨hboot, hchans, htxns⟩ := foldS_modEng_frame (Engine.dbgHalted s v) (s.engs.map Prod.fst) u
  refine ⟨foldS (s.engs.map Prod.fst) (fun k t => t.modEng (engOf k) (Engine.dbgHalted s v)) u,
    (act_next ht _).trans (congrArg _ (if_neg (by simp [hc]))), by rw [hboot], hchans, htxns, fun k hk _ => ?_⟩
  rw [eng_foldS_modEng (dbgHalted_dbgHalted s v), if_pos (List.mem_map_of_mem hk)]
  exact ⟨rfl, rfl⟩

/-- Each stopped engine may execute one instruction. -/
theorem dbgStep_steps (hh : s.boot.dbgHalt = true) : ∃ t, exec .dbgStep s = .next t ∧ t.chans = s.chans ∧
    ∀ k ∈ s.engs.map Prod.fst, k < 544 → (t.eng (engOf k)).dbgStep = (s.eng (engOf k)).dbgStopped := by
  obtain ⟨-, hchans, -⟩ := foldS_modEng_frame Engine.dbgStepped (s.engs.map Prod.fst) s
  refine ⟨foldS (s.engs.map Prod.fst) (fun k t => t.modEng (engOf k) Engine.dbgStepped) s,
    (act_next ht _).trans (congrArg _ (if_pos (by simp [hc, hh]))), hchans, fun k hk _ => ?_⟩
  rw [eng_foldS_modEng dbgStepped_dbgStepped, if_pos (List.mem_map_of_mem hk)]
  rfl

omit hc in
theorem dbgStep_ignored (hh : s.boot.dbgHalt = false) : exec .dbgStep s = .next s :=
  (act_next ht _).trans (congrArg _ (if_neg (by simp [hh])))

end

/-- Settles O49: the resets by what they leave, the reset sequence by what follows the start of time leaves unchanged, test operation by
the guard of every other command, and debug by the engines' marks. -/
theorem resetsTestAndDebug : Obligations.ResetsTestAndDebug := by
  unfold Obligations.ResetsTestAndDebug
  intro s
  refine ⟨⟨_, rfl, rfl, rfl, rfl, rfl, rfl, rfl, rfl, rfl, rfl, rfl, rfl, rfl, rfl, rfl, rfl, rfl, rfl⟩, ?release, rfl,
    testModeEntry_clears s, exec_testOperation, fun ht => ⟨?low, ?reset, fun str hr hao => rstNRelease_wakes ht hr hao str,
      fun hr hao hrdy => ⟨?waits, ?completes⟩,
      fun v => ⟨act_next ht _, fun hv => isolated_pins hv⟩,
      fun hc => ⟨dbgHalt_stops ht hc, dbgStep_steps ht hc, dbgStep_ignored ht⟩⟩⟩
  case release =>
    refine ⟨_, rfl, ?_⟩
    cases h : s.boot.rstAo with
    | false =>
      rw [if_neg (by decide)]
      exact ⟨h, fun _ => rfl, fun e => Bool.noConfusion e⟩
    | true =>
      rw [if_pos rfl]
      exact ⟨rfl, fun e => Bool.noConfusion e, fun _ => ⟨rfl, rfl⟩⟩
  case low => exact fun hr => (act_next ht _).trans (congrArg _ (if_pos hr))
  case reset =>
    intro hr
    obtain ⟨hboot, hrecs, hhead⟩ := lgEnqueue_frame 2 0 false s.boot.straps 0 s
    have hstraps := congrArg Boot.straps hboot
    refine ⟨_, rstNAssert_resets ht hr, rfl, rfl, hstraps, get_domsReset_ao _, fun d hd => get_domsReset _ hd,
      rfl, rfl, rfl, rfl, rfl, rfl, rfl, rfl, rfl, rfl, hrecs, hhead⟩
  case waits => exact resetSequence_waits ht
  case completes =>
    intro hc hch
    obtain ⟨hboot, htbs, hdoms⟩ := of_standing (standing_started s)
    obtain ⟨hready, h1, h2, htime, hlock, hsynth⟩ := timeStarted_starts hch
    refine ⟨_, resetSequence_completes ht hr hao hrdy hc, ?_⟩
    rw [hboot, htbs, State.domOn, State.domOn, hdoms, hdoms, h1, h2]
    exact ⟨hready, rfl, rfl, htime, hlock, hsynth⟩

end Sys2Proof.Machine
end

section
/-! The comparator pool (R302 to R305): the calendar in the order of its instants, and the pairs that a load gives its first anchors. -/

namespace Sys2Proof.Machine

/-! ## Tables -/

theorem Tbl.get_mem_key {α : Type} (d : α) (t : Tbl α) (k : Nat) : Tbl.get d t k = d ∨ (k, Tbl.get d t k) ∈ t := by
  induction t with
  | nil => exact .inl rfl
  | cons q r ih =>
    unfold Tbl.get
    split
    · next h => exact .inr (h ▸ List.mem_cons_self)
    · exact ih.imp_right (List.mem_cons_of_mem _)

theorem Tbl.lt_of_wfFrom {α : Type} [DecidableEq α] {d : α} {t : Tbl α} {k : Nat} (h : Tbl.wfFrom d (some k) t = true) {p : Nat × α}
    (hp : p ∈ t) : k < p.1 := by
  induction t generalizing k with
  | nil => exact absurd hp List.not_mem_nil
  | cons q r ih =>
    simp only [Tbl.wfFrom, Bool.and_eq_true, decide_eq_true_eq] at h
    obtain ⟨⟨hlt, -⟩, hr⟩ := h
    rcases List.mem_cons.mp hp with rfl | hp
    · exact hlt
    · exact Nat.lt_trans hlt (ih hr hp)

/-- A table in canonical form reads every entry it lists. -/
theorem Tbl.get_of_mem {α : Type} [DecidableEq α] {d : α} {t : Tbl α} {lo : Option Nat} (h : Tbl.wfFrom d lo t = true) {p : Nat × α}
    (hp : p ∈ t) : Tbl.get d t p.1 = p.2 := by
  induction t generalizing lo with
  | nil => exact absurd hp List.not_mem_nil
  | cons q r ih =>
    simp only [Tbl.wfFrom, Bool.and_eq_true] at h
    unfold Tbl.get
    rcases List.mem_cons.mp hp with rfl | hp
    · exact if_pos rfl
    · have hlt := Tbl.lt_of_wfFrom h.2 hp
      rw [if_neg (by omega)]
      exact ih h.2 hp

@[simp] theorem pair_modPair (s : State) (n : Nat) (f : Pair → Pair) : (s.modPair n f).pair n = f (s.pair n) := Tbl.get_put_same ..

theorem pair_modPair_other (s : State) {n j : Nat} (f : Pair → Pair) (h : j ≠ n) : (s.modPair n f).pair j = s.pair j :=
  Tbl.get_put_other _ _ _ _ _ h

theorem wf_modPair {s : State} (h : Tbl.wf {} s.tbs.pairs = true) (n : Nat) (f : Pair → Pair) :
    Tbl.wf {} (s.modPair n f).tbs.pairs = true := Tbl.wf_put {} s.tbs.pairs n (f (s.pair n)) h

/-- A pair that holds a channel's anchor is listed. -/
theorem mem_pairs {s : State} {j : Nat} {ch : BitVec 12} (h : (s.pair j).ch = some ch) : (j, s.pair j) ∈ s.tbs.pairs := by
  rcases Tbl.get_mem_key {} s.tbs.pairs j with hd | hm
  · rw [State.pair, hd] at h
    exact absurd h (Option.some_ne_none ch).symm
  · exact hm

/-! ## The calendar (R302) -/

theorem mem_insInstant (x y : Int × BitVec 12) (l : List (Int × BitVec 12)) : y ∈ insInstant x l ↔ y = x ∨ y ∈ l := by
  induction l with
  | nil => simp [insInstant]
  | cons z l ih =>
    unfold insInstant
    split
    · simp
    · simp only [List.mem_cons, ih]
      tauto

theorem pairwise_insInstant (x : Int × BitVec 12) {l : List (Int × BitVec 12)} (h : l.Pairwise (·.1 ≤ ·.1)) :
    (insInstant x l).Pairwise (·.1 ≤ ·.1) := by
  induction l with
  | nil => exact List.pairwise_singleton ..
  | cons y l ih =>
    obtain ⟨hy, hl⟩ := List.pairwise_cons.mp h
    unfold insInstant
    split
    · next hlt =>
      refine List.pairwise_cons.mpr ⟨fun z hz => ?_, h⟩
      rcases List.mem_cons.mp hz with rfl | hz
      · omega
      · have := hy z hz
        omega
    · next hge =>
      refine List.pairwise_cons.mpr ⟨fun z hz => ?_, ih hl⟩
      rcases (mem_insInstant x z l).mp hz with rfl | hz
      · omega
      · exact hy z hz

/-- Anchors in the order of their instants. -/
def Ordered (f : BitVec 12 → Int) (l : List (Int × BitVec 12)) : Prop := l.Pairwise (·.1 ≤ ·.1) ∧ ∀ x ∈ l, x.1 = f x.2

/-- Anchors that are inserted by their instants, but for those that are away, stand in their order. -/
theorem foldl_insInstant (f : BitVec 12 → Int) (away : List (BitVec 12)) (chs : List (BitVec 12)) {l : List (Int × BitVec 12)}
    (h : Ordered f l) :
    Ordered f (chs.foldl (fun l ch => if away.contains ch then l else insInstant (f ch, ch) l) l) ∧
      ∀ ch, ch ∈ (chs.foldl (fun l ch => if away.contains ch then l else insInstant (f ch, ch) l) l).map Prod.snd ↔
        (ch ∈ chs ∧ ch ∉ away) ∨ ch ∈ l.map Prod.snd := by
  induction chs generalizing l with
  | nil => exact ⟨h, fun ch => by simp⟩
  | cons c chs ih =>
    rw [List.foldl_cons]
    by_cases hc : c ∈ away
    · rw [if_pos (List.contains_iff_mem.mpr hc)]
      obtain ⟨ho, hm⟩ := ih h
      refine ⟨ho, fun ch => (hm ch).trans (or_congr_left ⟨fun ⟨h1, h2⟩ => ⟨List.mem_cons_of_mem _ h1, h2⟩,
        fun ⟨h1, h2⟩ => ⟨?_, h2⟩⟩)⟩
      exact (List.mem_cons.mp h1).resolve_left fun e => h2 (e ▸ hc)
    · rw [if_neg (fun e => hc (List.contains_iff_mem.mp e))]
      have hins : ∀ x ∈ insInstant (f c, c) l, x.1 = f x.2 := by
        intro x hx
        rcases (mem_insInstant _ x l).mp hx with rfl | hx
        · rfl
        · exact h.2 x hx
      obtain ⟨ho, hm⟩ := ih ⟨pairwise_insInstant _ h.1, hins⟩
      refine ⟨ho, fun ch => (hm ch).trans ?_⟩
      simp only [List.mem_map, mem_insInstant, List.mem_cons, or_and_right, exists_or]
      by_cases hch : ch = c
      · subst hch
        simp [hc]
      · simp [hch, Ne.symm hch]

/-- Anchors that a pair in disagreement, or one that waits for its reload, keeps out of the calendar. -/
def awayAnchors (s : State) : List (BitVec 12) :=
  (s.tbs.pairs.filter (fun p => p.2.dis || s.tbs.reload.contains p.1)).filterMap (fun p => p.2.ch)

theorem mem_chansWhere (s : State) (p : Chan → Bool) (ch : BitVec 12) :
    ch ∈ chansWhere s p ↔ ∃ q ∈ s.chans, p q.2 = true ∧ BitVec.ofNat 12 q.1 = ch := by
  simp [chansWhere, and_assoc]

theorem mem_calendar (s : State) (ch : BitVec 12) :
    ch ∈ calendar s ↔ ch ∈ chansWhere s (fun c => c.sched.armed) ∧ ch ∉ awayAnchors s := by
  obtain ⟨-, h⟩ := foldl_insInstant (chanInstant s) (awayAnchors s) (chansWhere s (fun c => c.sched.armed)) (l := [])
    ⟨.nil, fun _ hx => absurd hx List.not_mem_nil⟩
  exact (h ch).trans (or_iff_left List.not_mem_nil)

/-- The calendar stands in the order of its instants. -/
theorem pairwise_calendar (s : State) : (calendar s).Pairwise (fun x y => chanInstant s x ≤ chanInstant s y) := by
  obtain ⟨⟨hp, hf⟩, -⟩ := foldl_insInstant (chanInstant s) (awayAnchors s) (chansWhere s (fun c => c.sched.armed)) (l := [])
    ⟨.nil, fun _ hx => absurd hx List.not_mem_nil⟩
  refine List.pairwise_map.mpr (hp.imp_of_mem fun {x y} hx hy hxy => ?_)
  rw [← hf x hx, ← hf y hy]
  exact hxy

/-- Where no pair is busy, every armed anchor stands in the calendar, and no other. -/
theorem calendar_armed {s : State} (hw : Tbl.wf {} s.tbs.pairs = true) (hb : ∀ j, pairBusy s j = false)
    (hch : ∀ p ∈ s.chans, p.1 < 4096 ∧ s.chan (BitVec.ofNat 12 p.1) = p.2) (ch : BitVec 12) :
    ch ∈ calendar s ↔ (s.chan ch).sched.armed = true := by
  have haway : awayAnchors s = [] := by
    unfold awayAnchors
    rw [List.filter_eq_nil_iff.mpr fun p hp => ?_]
    · rfl
    · have h := hb p.1
      rw [pairBusy, State.pair, Tbl.get_of_mem hw hp] at h
      rw [h]
      decide
  rw [mem_calendar, haway, mem_chansWhere]
  constructor
  · rintro ⟨⟨q, hq, harmed, rfl⟩, -⟩
    rw [(hch q hq).2]
    exact harmed
  · intro h
    refine ⟨?_, List.not_mem_nil⟩
    rcases Tbl.get_mem_key (chanRst s.boot.straps) s.chans ch.toNat with hd | hm
    · rw [State.chan, hd] at h
      exact Bool.noConfusion h
    · exact ⟨_, hm, h, by simp⟩

/-! ## What loading a pair leaves unchanged -/

/-- A pair without the anchor it holds. -/
def Pair.butAnchor (p : Pair) : Pair := { p with ch := none, loadedAt := 0 }

/-- The state without the anchors in its pairs. -/
def State.butAnchors (s : State) : State × (Nat → Pair) :=
  ({ s with tbs := { s.tbs with pairs := [] } }, fun n => (s.pair n).butAnchor)

theorem butAnchors_modPair (s : State) (n : Nat) {f : Pair → Pair} (hf : ∀ p, (f p).butAnchor = p.butAnchor) :
    (s.modPair n f).butAnchors = s.butAnchors := by
  refine Prod.ext rfl (funext fun j => ?_)
  change ((s.modPair n f).pair j).butAnchor = (s.pair j).butAnchor
  by_cases h : j = n
  · subst h
    rw [pair_modPair, hf]
  · rw [pair_modPair_other s f h]

section
variable {s t : State} (h : s.butAnchors = t.butAnchors)
include h

theorem chans_of_butAnchors : s.chans = t.chans := by
  have hc := congrArg (fun x => x.1.chans) h
  exact hc

theorem chanPast_of_butAnchors (ch : BitVec 12) (d : Int) : chanPast s ch d = chanPast t ch d := by
  have hp := congrArg (fun x => chanPast x.1 ch d) h
  exact hp

theorem pairBusy_of_butAnchors (n : Nat) : pairBusy s n = pairBusy t n := by
  have hb := congrArg (fun x => (x.2 n).dis || x.1.tbs.reload.contains n) h
  exact hb

theorem pairsPer_of_butAnchors : pairsPer s = pairsPer t := by
  have hp := congrArg (fun x => pairsPer x.1) h
  exact hp

theorem pairCordoned_of_butAnchors (n : Nat) : pairCordoned s n = pairCordoned t n := by
  have hc := congrArg (fun x => (x.2 n).cordoned || srcStuck x.1 (234 + n / 8) || srcStuck x.1 (242 + n / 8)) h
  exact hc

theorem poolPairs_of_butAnchors : poolPairs s = poolPairs t := by
  have hr : s.app .scRsv = t.app .scRsv := by
    have hr := congrArg (fun x => x.1.app .scRsv) h
    exact hr
  have hc : pairCordoned s = pairCordoned t := funext (pairCordoned_of_butAnchors h)
  unfold poolPairs
  rw [hr, hc]

end

/-! ## Unloading (R303) -/

/-- The anchors that the pool is to hold: the P earliest. -/
def wanted (s : State) : List (BitVec 12) := (calendar s).take (poolSize s)

/-- A pair gives up an anchor that is not among them, unless it is busy. -/
def unloads (s : State) (p : Nat × Pair) : Bool := p.2.ch.any (fun c => !(wanted s).contains c) && !pairBusy s p.1

/-- A pair that holds no anchor. -/
def Pair.emptied (p : Pair) : Pair := { p with ch := none }

/-- One pair of a list is unloaded where it is to be. -/
def unloadPair (s : State) (p : Nat × Pair) (t : State) : State := if unloads s p then t.modPair p.1 Pair.emptied else t

/-- The pool before it is loaded. -/
def unloaded (s : State) : State := foldS s.tbs.pairs (unloadPair s) s

/-- A load unloads first, and then gives the wanted anchors their pairs. -/
theorem poolLoad_eq (s : State) : poolLoad s = foldS (wanted s) loadAnchor (unloaded s) := by
  refine congrArg (foldS (wanted s) loadAnchor) (congrArg (fun f => foldS s.tbs.pairs f s) (funext fun p => funext fun t => ?_))
  unfold unloadPair unloads
  cases p.2.ch with
  | none => rfl
  | some c =>
    change (if ((wanted s).contains c || pairBusy s p.1) then t else t.modPair p.1 Pair.emptied) =
      if (!(wanted s).contains c && !pairBusy s p.1) then t.modPair p.1 Pair.emptied else t
    cases (wanted s).contains c <;> cases pairBusy s p.1 <;> rfl

theorem butAnchors_unloadPair (s : State) (p : Nat × Pair) (t : State) : (unloadPair s p t).butAnchors = t.butAnchors := by
  unfold unloadPair
  split
  · exact butAnchors_modPair t p.1 (fun _ => rfl)
  · rfl

theorem butAnchors_unloaded (s : State) : (unloaded s).butAnchors = s.butAnchors :=
  foldS_keeps State.butAnchors (butAnchors_unloadPair s) _ _

/-- The pairs of a list that are to be unloaded hold no anchor then, and the others what they held. -/
theorem ch_foldS_unloadPair (s : State) (j : Nat) (l : List (Nat × Pair)) (t : State) :
    ((foldS l (unloadPair s) t).pair j).ch = if l.any (fun p => p.1 == j && unloads s p) then none else (t.pair j).ch := by
  induction l generalizing t with
  | nil => rfl
  | cons p l ih =>
    refine (ih (unloadPair s p t)).trans ?_
    have hstep : ((unloadPair s p t).pair j).ch = if (p.1 == j && unloads s p) then none else (t.pair j).ch := by
      unfold unloadPair
      by_cases hj : p.1 = j
      · subst hj
        cases unloads s p <;> simp [Pair.emptied]
      · rw [beq_false_of_ne hj]
        split
        · rw [pair_modPair_other _ _ (Ne.symm hj)]
          rfl
        · rfl
    rw [hstep, List.any_cons]
    cases (p.1 == j && unloads s p) with
    | false => rfl
    | true => exact ite_self none

/-- What a pair holds after unloading it held before, and it is wanted or the pair is busy. -/
theorem ch_unloaded {s : State} {j : Nat} {ch : BitVec 12} (h : ((unloaded s).pair j).ch = some ch) :
    (s.pair j).ch = some ch ∧ (pairBusy s j = false → ch ∈ wanted s) := by
  rw [unloaded, ch_foldS_unloadPair] at h
  split at h
  · exact absurd h (Option.some_ne_none ch).symm
  · next hany =>
    refine ⟨h, fun hb => ?_⟩
    by_contra hw
    refine hany (List.any_eq_true.mpr ⟨(j, s.pair j), mem_pairs h, ?_⟩)
    simp [unloads, h, hb, hw]

/-! ## Loading (R302, R303) -/

/-- A pair that is given an anchor. -/
def Pair.given (ch : BitVec 12) (now : DWord) (p : Pair) : Pair := { p with ch := some ch, loadedAt := now }

/-- The free pairs that an anchor takes. -/
def freePairs (ch : BitVec 12) (s : State) : List Nat :=
  ((poolPairs s).filter (fun n => (s.pair n).ch.isNone && !pairBusy s n)).take (pairsPer s - pairsOf s ch)

/-- An anchor whose instant has not passed is given its pairs (R303). -/
theorem loadAnchor_gives {s : State} {ch : BitVec 12} (h : chanPast s ch 1 = false) :
    loadAnchor ch s = foldS (freePairs ch s) (fun n t => t.modPair n (Pair.given ch s.now)) s :=
  if_neg (by simp [h])

theorem ch_foldS_given (ch : BitVec 12) (now : DWord) (j : Nat) (l : List Nat) (s : State) :
    ((foldS l (fun n t => t.modPair n (Pair.given ch now)) s).pair j).ch = if j ∈ l then some ch else (s.pair j).ch := by
  induction l generalizing s with
  | nil => rfl
  | cons n l ih =>
    refine (ih (s.modPair n (Pair.given ch now))).trans ?_
    by_cases hj : j = n
    · subst hj
      simp [Pair.given]
    · rw [pair_modPair_other _ _ hj]
      simp [hj]

section
variable {s : State} {ch : BitVec 12} (h : chanPast s ch 1 = false)
include h

theorem butAnchors_loadAnchor : (loadAnchor ch s).butAnchors = s.butAnchors := by
  rw [loadAnchor_gives h]
  exact foldS_keeps State.butAnchors (fun n t => butAnchors_modPair t n (f := Pair.given ch s.now) (fun _ => rfl)) _ _

theorem ch_loadAnchor (j : Nat) : ((loadAnchor ch s).pair j).ch = if j ∈ freePairs ch s then some ch else (s.pair j).ch := by
  rw [loadAnchor_gives h, ch_foldS_given]

/-- A pair that holds an anchor is not free. -/
theorem ch_loadAnchor_held {j : Nat} {c : BitVec 12} (hj : (s.pair j).ch = some c) : ((loadAnchor ch s).pair j).ch = some c := by
  rw [ch_loadAnchor h, if_neg, hj]
  intro hm
  have hf := List.mem_filter.mp (List.mem_of_mem_take hm)
  simp [hj] at hf

theorem ch_loadAnchor_cases {j : Nat} {c : BitVec 12} (hj : ((loadAnchor ch s).pair j).ch = some c) :
    c = ch ∧ j ∈ freePairs ch s ∨ (s.pair j).ch = some c := by
  rw [ch_loadAnchor h] at hj
  split at hj
  · next hm => exact .inl ⟨(Option.some.inj hj).symm, hm⟩
  · exact .inr hj

end

/-- A load of anchors, none of which has passed: nothing but anchors changes, and a pair holds one of them or what it held. -/
theorem foldS_loadAnchor (l : List (BitVec 12)) {s : State} (h : ∀ ch, chanPast s ch 1 = false) :
    (foldS l loadAnchor s).butAnchors = s.butAnchors ∧
      ∀ j c, ((foldS l loadAnchor s).pair j).ch = some c → c ∈ l ∨ (s.pair j).ch = some c := by
  induction l generalizing s with
  | nil => exact ⟨rfl, fun j c hj => .inr hj⟩
  | cons a l ih =>
    have hb := butAnchors_loadAnchor (h a)
    obtain ⟨hbl, hl⟩ := ih (s := loadAnchor a s) (fun ch => by rw [chanPast_of_butAnchors hb, h])
    refine ⟨hbl.trans hb, fun j c hj => ?_⟩
    rcases hl j c hj with hm | hm
    · exact .inl (List.mem_cons_of_mem _ hm)
    · rcases ch_loadAnchor_cases (h a) hm with ⟨rfl, -⟩ | hm
      · exact .inl List.mem_cons_self
      · exact .inr hm

/-! ## Every wanted anchor finds its pair (R302) -/

/-- The pool while it is loaded with the anchors `w`: its table is canonical, no two pairs hold one anchor, and every one held is of `w`. -/
structure Loading (w : List (BitVec 12)) (s : State) : Prop where
  wf : Tbl.wf {} s.tbs.pairs = true
  once : ∀ i j ch, (s.pair i).ch = some ch → (s.pair j).ch = some ch → i = j
  held : ∀ j ch, (s.pair j).ch = some ch → ch ∈ w
  single : pairsPer s = 1
  room : w.length ≤ (poolPairs s).length
  idle : ∀ j, pairBusy s j = false

theorem pairsOf_eq_zero_iff {s : State} (h : Tbl.wf {} s.tbs.pairs = true) (ch : BitVec 12) :
    pairsOf s ch = 0 ↔ ∀ j, (s.pair j).ch ≠ some ch := by
  unfold pairsOf
  rw [List.length_eq_zero_iff, List.filter_eq_nil_iff]
  constructor
  · intro hn j hj
    exact hn _ (mem_pairs hj) (by simp [hj])
  · intro hn p hp hc
    refine hn p.1 ?_
    rw [State.pair, Tbl.get_of_mem h hp]
    exact eq_of_beq hc

theorem nodup_poolPairs (s : State) : (poolPairs s).Nodup := by
  unfold poolPairs
  exact ((List.nodup_range.filter _).sublist (List.take_sublist _ _))

/-- An anchor that no pair holds finds a free pair: were all taken, more anchors would be wanted than there is room for. -/
theorem Loading.free {w : List (BitVec 12)} {s : State} (h : Loading w s) {ch : BitVec 12} (hch : ch ∈ w)
    (hno : ∀ j, (s.pair j).ch ≠ some ch) : ∃ n ∈ poolPairs s, (s.pair n).ch = none := by
  by_contra hall
  have hheld (n : Nat) (hn : n ∈ poolPairs s) : ∃ c, (s.pair n).ch = some c := by
    cases hc : (s.pair n).ch with
    | none => exact absurd ⟨n, hn, hc⟩ hall
    | some c => exact ⟨c, rfl⟩
  have hnodup : (some ch :: (poolPairs s).map (fun n => (s.pair n).ch)).Nodup := by
    refine List.nodup_cons.mpr ⟨fun hm => ?_, ?_⟩
    · obtain ⟨n, -, hn⟩ := List.mem_map.mp hm
      exact hno n hn
    · refine List.Nodup.map_on (fun i hi j hj hij => ?_) (nodup_poolPairs s)
      obtain ⟨c, hc⟩ := hheld i hi
      exact h.once i j c hc (hij ▸ hc)
  have hsub : (some ch :: (poolPairs s).map (fun n => (s.pair n).ch)) ⊆ w.map some := by
    intro o ho
    rcases List.mem_cons.mp ho with rfl | ho
    · exact List.mem_map_of_mem hch
    · obtain ⟨n, hn, rfl⟩ := List.mem_map.mp ho
      obtain ⟨c, hc⟩ := hheld n hn
      rw [hc]
      exact List.mem_map_of_mem (h.held n c hc)
  have hlen := (List.subperm_of_subset hnodup hsub).length_le
  simp only [List.length_cons, List.length_map] at hlen
  have hroom := h.room
  omega

theorem wf_foldS_given (ch : BitVec 12) (now : DWord) (l : List Nat) {s : State} (h : Tbl.wf {} s.tbs.pairs = true) :
    Tbl.wf {} (foldS l (fun n t => t.modPair n (Pair.given ch now)) s).tbs.pairs = true := by
  induction l generalizing s with
  | nil => exact h
  | cons n l ih => exact ih (wf_modPair h n _)

/-- In guarded operation an anchor takes one pair, which no pair with that anchor precedes (R302, R570). -/
theorem freePairs_single {s : State} (hs : pairsPer s = 1) {ch : BitVec 12} {i j : Nat} (hi : i ∈ freePairs ch s) :
    pairsOf s ch = 0 ∧ (j ∈ freePairs ch s → i = j) := by
  unfold freePairs at *
  rw [hs] at *
  by_cases h0 : pairsOf s ch = 0
  · rw [h0] at hi ⊢
    refine ⟨rfl, fun hj => ?_⟩
    generalize (poolPairs s).filter _ = l at *
    cases l with
    | nil => exact absurd hi List.not_mem_nil
    | cons n l => exact (List.mem_singleton.mp hi).trans (List.mem_singleton.mp hj).symm
  · rw [Nat.sub_eq_zero_of_le (Nat.one_le_iff_ne_zero.mpr h0)] at hi
    exact absurd hi List.not_mem_nil

/-- A free pair of the pool is found for an anchor that no pair holds. -/
theorem freePairs_found {s : State} (hs : pairsPer s = 1) {ch : BitVec 12} (h0 : pairsOf s ch = 0) {n : Nat} (hn : n ∈ poolPairs s)
    (hc : (s.pair n).ch = none) (hb : pairBusy s n = false) : ∃ i, i ∈ freePairs ch s := by
  have hm : n ∈ (poolPairs s).filter (fun n => (s.pair n).ch.isNone && !pairBusy s n) := List.mem_filter.mpr ⟨hn, by simp [hc, hb]⟩
  unfold freePairs
  rw [hs, h0]
  generalize (poolPairs s).filter _ = l at *
  cases l with
  | nil => exact absurd hm List.not_mem_nil
  | cons i l => exact ⟨i, List.mem_singleton.mpr rfl⟩

/-- One load leaves its anchor in a pair. -/
theorem Loading.stands {w : List (BitVec 12)} {s : State} (h : Loading w s) {ch : BitVec 12} (hch : ch ∈ w)
    (hp : chanPast s ch 1 = false) : ∃ j, ((loadAnchor ch s).pair j).ch = some ch := by
  by_cases h0 : pairsOf s ch = 0
  · obtain ⟨n, hn, hc⟩ := h.free hch ((pairsOf_eq_zero_iff h.wf ch).mp h0)
    obtain ⟨i, hi⟩ := freePairs_found h.single h0 hn hc (h.idle n)
    exact ⟨i, by rw [ch_loadAnchor hp, if_pos hi]⟩
  · rw [pairsOf_eq_zero_iff h.wf] at h0
    push Not at h0
    obtain ⟨j, hj⟩ := h0
    exact ⟨j, ch_loadAnchor_held hp hj⟩

/-- One load keeps no two pairs on one anchor. -/
theorem Loading.once_loadAnchor {w : List (BitVec 12)} {s : State} (h : Loading w s) {ch : BitVec 12} (hp : chanPast s ch 1 = false)
    {i j : Nat} {c : BitVec 12} (hi : ((loadAnchor ch s).pair i).ch = some c) (hj : ((loadAnchor ch s).pair j).ch = some c) : i = j := by
  have hnew {k : Nat} (hk : k ∈ freePairs ch s) (m : Nat) : (s.pair m).ch ≠ some ch :=
    (pairsOf_eq_zero_iff h.wf ch).mp (freePairs_single (j := k) h.single hk).1 m
  rcases ch_loadAnchor_cases hp hi with ⟨rfl, hif⟩ | his
  · rcases ch_loadAnchor_cases hp hj with ⟨-, hjf⟩ | hjs
    · exact (freePairs_single h.single hif).2 hjf
    · exact absurd hjs (hnew hif j)
  · rcases ch_loadAnchor_cases hp hj with ⟨rfl, hjf⟩ | hjs
    · exact absurd his (hnew hjf i)
    · exact h.once i j c his hjs

theorem Loading.loadAnchor {w : List (BitVec 12)} {s : State} (h : Loading w s) {ch : BitVec 12} (hch : ch ∈ w)
    (hp : chanPast s ch 1 = false) : Loading w (loadAnchor ch s) := by
  have hb := butAnchors_loadAnchor hp
  refine ⟨?_, fun i j c hi hj => h.once_loadAnchor hp hi hj, fun j c hj => ?_, ?_, ?_, fun j => ?_⟩
  · rw [loadAnchor_gives hp]
    exact wf_foldS_given _ _ _ h.wf
  · rcases ch_loadAnchor_cases hp hj with ⟨rfl, -⟩ | hj
    · exact hch
    · exact h.held j c hj
  · rw [pairsPer_of_butAnchors hb, h.single]
  · rw [poolPairs_of_butAnchors hb]
    exact h.room
  · rw [pairBusy_of_butAnchors hb, h.idle]

/-- Anchors that are loaded one after the other all stand in pairs then, beside those that stood in them. -/
theorem Loading.foldS_loadAnchor {w : List (BitVec 12)} (l : List (BitVec 12)) {s : State} (h : Loading w s) (hl : l ⊆ w)
    (hp : ∀ ch, chanPast s ch 1 = false) (ch : BitVec 12) (hch : ch ∈ l ∨ ∃ j, (s.pair j).ch = some ch) :
    ∃ j, ((foldS l Machine.loadAnchor s).pair j).ch = some ch := by
  induction l generalizing s with
  | nil => exact hch.resolve_left List.not_mem_nil
  | cons a l ih =>
    have ha : a ∈ w := hl List.mem_cons_self
    refine ih (h.loadAnchor ha (hp a)) (fun x hx => hl (List.mem_cons_of_mem _ hx))
      (fun c => by rw [chanPast_of_butAnchors (butAnchors_loadAnchor (hp a)), hp]) ?_
    rcases hch with hm | ⟨j, hj⟩
    · rcases List.mem_cons.mp hm with rfl | hm
      · exact .inr (h.stands ha (hp ch))
      · exact .inl hm
    · exact .inr ⟨j, ch_loadAnchor_held (hp a) hj⟩

theorem wf_unloaded {s : State} (h : Tbl.wf {} s.tbs.pairs = true) : Tbl.wf {} (unloaded s).tbs.pairs = true := by
  have hl (l : List (Nat × Pair)) (t : State) (ht : Tbl.wf {} t.tbs.pairs = true) :
      Tbl.wf {} (foldS l (unloadPair s) t).tbs.pairs = true := by
    induction l generalizing t with
    | nil => exact ht
    | cons p l ih =>
      refine ih (unloadPair s p t) ?_
      unfold unloadPair
      split
      · exact wf_modPair ht p.1 _
      · exact ht
  exact hl s.tbs.pairs s h

/-- An unloaded pool in guarded operation, none of whose pairs is busy, is ready for its anchors. -/
theorem loading_unloaded {s : State} (hu : s.fcr.unguarded = false) (hw : Tbl.wf {} s.tbs.pairs = true) (hb : ∀ j, pairBusy s j = false)
    (honce : ∀ i j ch, (s.pair i).ch = some ch → (s.pair j).ch = some ch → i = j) : Loading (wanted s) (unloaded s) := by
  have ha := butAnchors_unloaded s
  have hper : pairsPer s = 1 := if_neg (by simp [hu])
  refine ⟨wf_unloaded hw, fun i j ch hi hj => honce i j ch (ch_unloaded hi).1 (ch_unloaded hj).1,
    fun j ch hj => (ch_unloaded hj).2 (hb j), ?_, ?_, fun j => ?_⟩
  · rw [pairsPer_of_butAnchors ha, hper]
  · rw [poolPairs_of_butAnchors ha]
    refine (List.length_take_le _ _).trans ?_
    rw [poolSize, hper, Nat.div_one]
  · rw [pairBusy_of_butAnchors ha, hb]

/-- A load of the pool where no anchor has passed: channels stay as they are, an idle pair holds one of the P earliest anchors, and
in guarded operation each of those stands in a pair (R302, R303). -/
theorem poolLoad_holds {s : State} (hp : ∀ ch, chanPast s ch 1 = false) :
    (poolLoad s).chans = s.chans ∧
      (∀ j ch, ((poolLoad s).pair j).ch = some ch → pairBusy s j = false → ch ∈ (calendar s).take (poolSize s)) ∧
      (s.fcr.unguarded = false → Tbl.wf {} s.tbs.pairs = true → (∀ j, pairBusy s j = false) →
        (∀ i j ch, (s.pair i).ch = some ch → (s.pair j).ch = some ch → i = j) →
        ∀ ch ∈ (calendar s).take (poolSize s), ∃ j, ((poolLoad s).pair j).ch = some ch) := by
  have ha := butAnchors_unloaded s
  have hpu (ch : BitVec 12) : chanPast (unloaded s) ch 1 = false := by rw [chanPast_of_butAnchors ha, hp]
  obtain ⟨hb, hheld⟩ := foldS_loadAnchor (wanted s) hpu
  rw [poolLoad_eq]
  refine ⟨chans_of_butAnchors (hb.trans ha), fun j ch hj hi => ?_, fun hu hw hi honce ch hch => ?_⟩
  · exact (hheld j ch hj).elim id fun hj => (ch_unloaded hj).2 hi
  · exact (loading_unloaded hu hw hi honce).foldS_loadAnchor (wanted s) (List.Subset.refl _) hpu ch (.inl hch)

end Sys2Proof.Machine
end

section
/-! Anchors, software comparators and their faults (R297 to R315, Tables 7-9, 7-11): one rule for each command and kind of pair. -/

namespace Sys2Proof.Machine

/-! ## The time base beside wakes, counts and events -/

@[simp] theorem tbs_beginWake (d src detail : Nat) (s : State) : (beginWake d src detail s).tbs = s.tbs := by
  have h := congrArg State.tbs (butPower_beginWake d src detail s)
  exact h

@[simp] theorem tbs_emitAll (ps : List Nat) (s : State) : (emitAll ps s).tbs = s.tbs := by
  have h := congrArg State.tbs (butEvents_emitAll ps s)
  exact h

@[simp] theorem tbs_tmAdd (k n : Nat) (s : State) : (tmAdd k n s).tbs = s.tbs := by
  have h := congrArg State.tbs (butCounts_tmAdd k n s)
  exact h

/-! ## Software comparators (R306, R308, R309) -/

@[simp] theorem sc_modSc (s : State) (n : Nat) (f : SwCmp → SwCmp) : (s.modSc n f).sc n = f (s.sc n) := Tbl.get_put_same ..

theorem sc_modSc_other (s : State) {n j : Nat} (f : SwCmp → SwCmp) (h : j ≠ n) : (s.modSc n f).sc j = s.sc j :=
  Tbl.get_put_other _ _ _ _ _ h

theorem sc_of_tbs {s t : State} (h : s.tbs = t.tbs) : s.sc = t.sc := by
  funext j
  rw [State.sc, h, State.sc]

theorem tbs_scFires (n : Nat) (s : State) :
    (scFires n s).tbs = (s.modSc n (fun c => { c with arm := false, held := false, fired := true })).tbs := by
  unfold scFires
  dsimp only
  split <;> simp

/-- A comparator that fires is armed no more, and shows it (R306). -/
theorem scFire_fires (n : Nat) (s : State) :
    ((scFire n s).sc n).arm = false ∧ ((scFire n s).sc n).fired = true ∧ ∀ j, j ≠ n → (scFire n s).sc j = s.sc j := by
  have h : (scFire n s).sc = ((tmAdd 28 1 s).modSc n (fun c => { c with arm := false, held := false, fired := true })).sc :=
    sc_of_tbs (tbs_scFires n _)
  rw [h, sc_modSc]
  refine ⟨rfl, rfl, fun j hj => ?_⟩
  rw [sc_modSc_other _ _ hj, sc_of_tbs (tbs_tmAdd 28 1 s)]

section
variable {s : State} {n : Nat} {v : Word}

/-- A write of SC_CTRL is refused unless its comparator is reserved, its POLICY defined, and arming it no arming anew (R309). -/
theorem scWrite_refused (h : scReserved s n = false ∨ fld v 28 2 = 3 ∨ ((s.sc n).arm = true ∧ bit v 31 = true)) :
    scWrite n v s = none := by
  refine if_pos ?_
  rcases h with h | h | ⟨ha, hb⟩
  · simp [h]
  · simp [h]
  · simp [ha, hb]

theorem scWrite_sets (h : ¬(scReserved s n = false ∨ fld v 28 2 = 3 ∨ ((s.sc n).arm = true ∧ bit v 31 = true))) :
    scWrite n v s = some (
      let c := s.sc n
      let t := s.modSc n (fun _ => { arm := bit v 31, angular := bit v 30, policy := v.extractLsb' 28 2, held := false,
                                     dropped := c.dropped && !bit v 2, late := c.late && !bit v 1, fired := c.fired && !bit v 0 })
      if bit v 31 then scJudge n t else t) := by
  have hok : ¬(!scReserved s n || fld v 28 2 == 3 || ((s.sc n).arm && bit v 31)) = true := by
    simpa [not_or, and_assoc] using h
  refine (if_neg hok).trans ?_
  rw [ofNat_fld]

end

theorem regWrite_scCtrl (sec : Bool) (owner : Byte) (n : Nat) (v : Word) (s : State) :
    regWrite sec owner (.scCtrl n) v s = scWrite n v s := rfl

/-! ## Fires (R304, R306) -/

/-- A time anchor is on time within 2 ticks of its instant (R304). -/
theorem onTime_time (s : State) (w : DWord) : onTime s w false = true ↔ w.toNat ≤ s.now.toNat + 2 ∧ s.now.toNat ≤ w.toNat + 2 := by
  have h (d : Int) : anchorPast s w false d = decide ((w.toNat : Int) + d ≤ (s.now.toNat : Int)) := rfl
  rw [onTime, h, h, Bool.and_eq_true, Bool.not_eq_true', decide_eq_true_eq, decide_eq_false_iff_not]
  omega

section
variable {s : State} {n : BitVec 6} (ht : s.boot.tstMode = false)
include ht

theorem anchorFire_busy (hb : pairBusy s n.toNat = true) : exec (.anchorFire n) s = .next s :=
  (act_next ht _).trans (congrArg _ (if_pos (by simp [hb])))

section
variable (hup : tbsUp s = true)
include hup

section
variable (hb : pairBusy s n.toNat = false)
include hb

theorem anchorFire_idle (hr : scReserved s n.toNat = false) (hc : (s.pair n.toNat).ch = none) : exec (.anchorFire n) s = .next s := by
  refine (act_next ht _).trans (congrArg _ ?_)
  dsimp only
  rw [if_neg (by simp [hup, hb]), if_neg (by simp [hr]), hc]

theorem anchorFire_chan (hr : scReserved s n.toNat = false) {ch : BitVec 12} (hc : (s.pair n.toNat).ch = some ch) :
    exec (.anchorFire n) s = .next (
      if (s.chan ch).sched.armed && onTime s (s.chan ch).sched.anchor (s.chan ch).sched.angular then anchorFires ch s else s) := by
  refine (act_next ht _).trans (congrArg _ ?_)
  dsimp only
  rw [if_neg (by simp [hup, hb]), if_neg (by simp [hr]), hc]

theorem anchorFire_software (hr : scReserved s n.toNat = true) (ha : (s.sc n.toNat).arm = true) (hh : (s.sc n.toNat).held = false) :
    exec (.anchorFire n) s = .next (if onTime s (scAnchor s n.toNat) (s.sc n.toNat).angular then scFire n.toNat s else s) := by
  refine (act_next ht _).trans (congrArg _ ?_)
  dsimp only
  rw [if_neg (by simp [hup, hb]), if_pos hr, ha, hh]
  rfl

end

/-! ## Faults in the schedule path (R310 to R313) -/

theorem delayParityError_corrected (sh : Bool) : exec (.delayParityError n sh) s =
    .next (assertFault (242 + n.toNat / 8) (faultOf 3 (n.toNat % 8)) s) := (act_next ht _).trans (congrArg _ (if_pos hup))

end
end

/-- The pair stops comparing until its reload, and the loss is emitted (R311). -/
def dlyLost (k : Nat) (s : State) : State :=
  emitUp [231] (s.modTbs (fun t => { t with dlyLost := true, reload := if t.reload.contains k then t.reload else t.reload ++ [k] }))

theorem dlyLost_waits (k : Nat) (s : State) : (dlyLost k s).tbs.dlyLost = true ∧ k ∈ (dlyLost k s).tbs.reload := by
  unfold dlyLost
  rw [tbs_emitUp]
  refine ⟨rfl, ?_⟩
  change k ∈ if s.tbs.reload.contains k then s.tbs.reload else s.tbs.reload ++ [k]
  split
  · next h => exact List.contains_iff_mem.mp h
  · exact List.mem_append_right _ List.mem_cons_self

/-- The pair is done waiting for its reload. -/
def reloaded (k : Nat) (s : State) : State := s.modTbs (fun t => { t with reload := t.reload.filter (fun i => i != k) })

/-- The action of a pair that disagreed is held, and the disagreement is emitted (R312). -/
def disHeld (k : Nat) (s : State) : State :=
  emitUp [230] ((s.modPair k (fun p => { p with dis := true })).modTbs (fun t => { t with cmpDis := true }))

theorem disHeld_holds (k : Nat) (s : State) :
    ((disHeld k s).pair k).dis = true ∧ (disHeld k s).tbs.cmpDis = true ∧ ((disHeld k s).pair k).ch = (s.pair k).ch := by
  have hp : (disHeld k s).pair k = { s.pair k with dis := true } := by
    unfold disHeld
    rw [State.pair, tbs_emitUp]
    exact pair_modPair s k (fun p => { p with dis := true })
  rw [hp]
  refine ⟨rfl, ?_, rfl⟩
  unfold disHeld
  rw [tbs_emitUp]
  rfl

theorem disagree_guarded {k : Nat} {s : State} (hu : s.fcr.unguarded = false) :
    disagree k s = assertFault (234 + k / 8) (faultOf 9 (k % 8)) (disHeld k s) := by
  unfold disagree
  rw [hu]
  rfl

section
variable {s : State} {n : BitVec 6} (ht : s.boot.tstMode = false) (hup : tbsUp s = true)
include ht hup

/-- A lost register: the wake that its reload needs follows what the pair holds (R33, R311). -/
theorem delayRegisterLost_wakes :
    let v := assertFault (242 + n.toNat / 8) (faultOf 2 (n.toNat % 8)) (dlyLost n.toNat s)
    (scReserved v n.toNat = true → exec (.delayRegisterLost n) s = .next (beginWake 2 3 (4096 + n.toNat) v)) ∧
      (∀ ch, scReserved v n.toNat = false → (v.pair n.toNat).ch = some ch →
        exec (.delayRegisterLost n) s = .next (beginWake 2 3 ch.toNat v)) ∧
      (scReserved v n.toNat = false → (v.pair n.toNat).ch = none → exec (.delayRegisterLost n) s = .next v) := by
  unfold dlyLost
  refine ⟨fun hr => ?_, fun ch hr hc => ?_, fun hr hc => ?_⟩
  · exact (act_next ht _).trans (congrArg _ ((if_neg (by simp [hup])).trans (if_pos hr)))
  · refine (act_next ht _).trans (congrArg _ ((if_neg (by simp [hup])).trans ?_))
    dsimp only
    rw [hr, if_neg Bool.false_ne_true, hc]
  · refine (act_next ht _).trans (congrArg _ ((if_neg (by simp [hup])).trans ?_))
    dsimp only
    rw [hr, if_neg Bool.false_ne_true, hc]

omit hup in
theorem delayRegisterReload_ignored (hk : n.toNat ∉ s.tbs.reload) (ok : Bool) : exec (.delayRegisterReload n ok) s = .next s :=
  (act_next ht _).trans (congrArg _ (if_neg (by simp [hk])))

section
variable (hc : s.coreOn = true) (hk : n.toNat ∈ s.tbs.reload)
include hc hk

/-- The anchor of a reloaded pair is judged again, or lost with its authoritative copy (R33, R297, R311). -/
theorem delayRegisterReload_pool (hr : scReserved s n.toNat = false) :
    ((s.pair n.toNat).ch = none → ∀ ok, exec (.delayRegisterReload n ok) s = .next (reloaded n.toNat s)) ∧
      ∀ ch, (s.pair n.toNat).ch = some ch → ∀ ok : Bool, exec (.delayRegisterReload n ok) s =
        .next (sweepPairs (if ok then rejudge ch (reloaded n.toNat s) else anchorLost ch (reloaded n.toNat s))) := by
  refine ⟨fun hch ok => ?_, fun ch hch ok => ?_⟩
  · refine (act_next ht _).trans (congrArg _ ((if_pos (by simp [hup, hc, hk])).trans ?_))
    dsimp only
    rw [hr, if_neg Bool.false_ne_true, hch]
    rfl
  · refine (act_next ht _).trans (congrArg _ ((if_pos (by simp [hup, hc, hk])).trans ?_))
    dsimp only
    rw [hr, if_neg Bool.false_ne_true, hch]
    rfl

theorem delayRegisterReload_software (hr : scReserved s n.toNat = true) (ha : (s.sc n.toNat).arm = true) (ok : Bool) :
    exec (.delayRegisterReload n ok) s =
      .next (if ok then scJudge n.toNat (reloaded n.toNat s) else scDrop n.toNat (reloaded n.toNat s)) :=
  (act_next ht _).trans (congrArg _ ((if_pos (by simp [hup, hc, hk])).trans ((if_pos hr).trans (if_pos ha))))

end

theorem comparatorDisagreement_held (ha : pairArmed s n.toNat = true) (hb : pairBusy s n.toNat = false) (hu : s.fcr.unguarded = false) :
    exec (.comparatorDisagreement n) s =
      .next (assertFault (234 + n.toNat / 8) (faultOf 9 (n.toNat % 8)) (disHeld n.toNat s)) := by
  rw [← disagree_guarded hu]
  exact (act_next ht _).trans (congrArg _ (if_pos (by simp [hup, ha, hb])))

omit hup in
theorem comparatorDisagreement_ignored (h : pairArmed s n.toNat = false ∨ pairBusy s n.toNat = true) :
    exec (.comparatorDisagreement n) s = .next s := by
  refine (act_next ht _).trans (congrArg _ (if_neg ?_))
  rcases h with h | h <;> simp [h]

theorem slowCheck_judges (hu : s.fcr.unguarded = false) (hd : (s.pair n.toNat).dis = true) (hr : scReserved s n.toNat = false)
    {ch : BitVec 12} (hc : (s.pair n.toNat).ch = some ch) : exec (.slowCheckReevaluation n) s =
      .next (sweepPairs (rejudge ch (s.modPair n.toNat (fun p => { p with dis := false, ch := none })))) := by
  refine (act_next ht _).trans (congrArg _ ((if_pos (by simp [hup, hu, hd])).trans ?_))
  dsimp only
  rw [hr, if_neg Bool.false_ne_true, hc]

omit hup in
theorem slowCheck_ignored (hd : (s.pair n.toNat).dis = false) : exec (.slowCheckReevaluation n) s = .next s :=
  (act_next ht _).trans (congrArg _ (if_neg (by simp [hd])))

end

/-- Settles O52: the pool by its calendar and the count of its pairs, each command by its rule, and SC_CTRL by the rule of its write. -/
theorem anchorsAndComparators : Obligations.AnchorsAndComparators := by
  unfold Obligations.AnchorsAndComparators
  intro n s
  refine ⟨fun ht hup => ⟨⟨_, (act_next ht _).trans (congrArg _ (if_pos hup)), poolLoad_holds⟩, pairwise_calendar s,
    fun hw hb hch => calendar_armed hw hb hch, anchorFire_busy ht,
    fun hb hr => ⟨anchorFire_idle ht hup hb hr, fun ch hc => ⟨?fires, ?waits⟩⟩,
    fun _ _ => rfl, onTime_time s, fun hb hr ha hh => ⟨?scFires, ?scWaits⟩, delayParityError_corrected ht hup,
    ⟨dlyLost n.toNat s, (dlyLost_waits _ s).1, (dlyLost_waits _ s).2, delayRegisterLost_wakes ht hup⟩, delayRegisterReload_ignored ht,
    fun hc hk => ⟨fun hr => (delayRegisterReload_pool ht hup hc hk hr).1, fun ch hr hch => ?reload, fun hr ha => ?scReload⟩,
    fun ha hb hu => ⟨_, comparatorDisagreement_held ht hup ha hb hu, disHeld_holds n.toNat s⟩, comparatorDisagreement_ignored ht,
    fun hu hd hr ch hc => slowCheck_judges ht hup hu hd hr hc, slowCheck_ignored ht,
    fun hu => ?sweep, fun hu => ?noSweep⟩, fun a m d htk => ⟨fun hbad => ?refused, fun hok h31 => ?disarms, fun hok h31 => ?arms⟩⟩
  case fires => exact fun ha ho => (anchorFire_chan ht hup hb hr hc).trans (congrArg _ (if_pos (by simp [ha, ho])))
  case waits =>
    intro h
    refine (anchorFire_chan ht hup hb hr hc).trans (congrArg _ (if_neg ?_))
    rcases h with h | h <;> simp [h]
  case scFires =>
    intro ho
    exact ⟨_, (anchorFire_software ht hup hb hr ha hh).trans (congrArg _ (if_pos ho)), scFire_fires n.toNat s⟩
  case scWaits => exact fun ho => (anchorFire_software ht hup hb hr ha hh).trans (congrArg _ (if_neg (by simp [ho])))
  case reload =>
    have h := (delayRegisterReload_pool ht hup hc hk hr).2 ch hch
    exact ⟨h true, h false⟩
  case scReload =>
    have h := delayRegisterReload_software ht hup hc hk hr ha
    exact ⟨h true, h false⟩
  case sweep => exact (act_next ht _).trans (congrArg _ (if_pos (by simp [hup, hu])))
  case noSweep => exact (act_next ht _).trans (congrArg _ (if_neg (by simp [hu])))
  case refused =>
    exact takes_deniedAt htk _ d (by omega) (by omega) (dec_scCtrl s.wings m) ((regWrite_scCtrl ..).trans (scWrite_refused hbad))
  case disarms =>
    refine takes_wroteAt htk _ d (by omega) (by omega) (dec_scCtrl s.wings m) ((regWrite_scCtrl ..).trans ((scWrite_sets hok).trans ?_))
    exact congrArg some (if_neg (by simp [h31]))
  case arms =>
    refine takes_wroteAt htk _ d (by omega) (by omega) (dec_scCtrl s.wings m) ((regWrite_scCtrl ..).trans ((scWrite_sets hok).trans ?_))
    exact congrArg some (if_pos h31)

end Sys2Proof.Machine
end

section
/-! Request lines and the AO latch (R316 to R323, Table 8-2). -/

namespace Sys2Proof.Machine

@[simp] theorem rq_modRq (s : State) (n : Nat) (f : RqLine → RqLine) : (s.modRq n f).rq n = f (s.rq n) := Tbl.get_put_same ..

/-- LEVEL mode samples a line that is high, with nothing outstanding and no holdoff (Table 8-2). -/
theorem levelSample_eq (n : Nat) (s : State) : levelSample n s =
    if rqMode s n = 2 ∧ (s.rq n).req = true ∧ (s.rq n).outst = false ∧ (s.rq n).holdoff = false then rqEvent n s else s := by
  simp [levelSample, levelDue, and_assoc]

/-- A line at its new level, with the port's LAST beside it. -/
def rqSet (n : Nat) (lvl last : Bool) (s : State) : State := s.modRq n (fun x => { x with req := lvl, last := last })

/-- What a change of level does to a line while CORE works, by the line's mode (Table 8-2). -/
def rqChange (n : Nat) (lvl last : Bool) (s : State) : State :=
  let t := rqSet n lvl last s
  match rqMode s n with
  | 1 => if lvl && !(s.rq n).req then rqEvent n t else t
  | 2 => levelSample n t
  | 3 => if lvl && !(s.rq n).req && !(s.rq n).ack then rqEvent n t
         else if !lvl then t.modRq n (fun x => { x with ack := false }) else t
  | _ => t

section
variable {n : Nat} {lvl last : Bool} {s : State}

theorem rqChange_off (hm : rqMode s n = 0) : rqChange n lvl last s = rqSet n lvl last s := by
  simp only [rqChange, hm]

theorem rqChange_edge (hm : rqMode s n = 1) : rqChange n lvl last s =
    if lvl = true ∧ (s.rq n).req = false then rqEvent n (rqSet n lvl last s) else rqSet n lvl last s := by
  simp [rqChange, hm]

theorem rqChange_level (hm : rqMode s n = 2) : rqChange n lvl last s =
    if lvl = true ∧ (s.rq n).outst = false ∧ (s.rq n).holdoff = false then rqEvent n (rqSet n lvl last s)
    else rqSet n lvl last s := by
  have hmode : rqMode (rqSet n lvl last s) n = 2 := hm
  simp only [rqChange, hm, levelSample_eq, hmode]
  simp [rqSet]

theorem rqChange_handshake_high (hm : rqMode s n = 3) : rqChange n true last s =
    if (s.rq n).req = false ∧ (s.rq n).ack = false then rqEvent n (rqSet n true last s) else rqSet n true last s := by
  simp [rqChange, hm]

theorem rqChange_handshake_low (hm : rqMode s n = 3) : rqChange n false last s =
    (rqSet n false last s).modRq n (fun x => { x with ack := false }) := by
  simp [rqChange, hm]

end

section
variable {n : BitVec 7} {s : State} (ht : s.boot.tstMode = false)
include ht

theorem requestLineChange_up (hup : coreUp s = true) (lvl last : Bool) :
    exec (.requestLineChange n lvl last) s = .next (rqChange n.toNat lvl last s) :=
  (act_next ht _).trans (congrArg _ (if_neg (by simp [hup])))

/-- While CORE does not work, the line's level is kept, and asks for CORE where it is not ON (R624). -/
theorem requestLineChange_down (hup : coreUp s = false) (lvl last : Bool) :
    exec (.requestLineChange n lvl last) s =
      .next (if lvl = true ∧ (rqMode s n.toNat = 2 ∨ rqMode s n.toNat = 3) ∧ s.coreOn = false
        then beginWake 2 2 n.toNat (rqSet n.toNat lvl last s) else rqSet n.toNat lvl last s) := by
  refine (act_next ht _).trans (congrArg _ ((if_pos (by simp [hup])).trans ?_))
  simp [rqSet, and_assoc]

/-- The end of the holdoff lets LEVEL mode sample the line again (R318). -/
theorem holdoffExpiry_up (hup : coreUp s = true) : exec (.holdoffExpiry n) s =
    .next (let u := s.modRq n.toNat (fun x => { x with holdoff := false })
      if rqMode s n.toNat = 2 ∧ (s.rq n.toNat).req = true ∧ (s.rq n.toNat).outst = false then rqEvent n.toNat u else u) := by
  refine (act_next ht _).trans (congrArg _ ((if_pos hup).trans ?_))
  have hmode (f : RqLine → RqLine) : rqMode (s.modRq n.toNat f) n.toNat = rqMode s n.toNat := rfl
  simp [levelSample_eq, hmode]

/-- A working CORE sees the line's edge itself. -/
theorem aoRequestLatch_up (hup : coreUp s = true) : exec (.aoRequestLatch n) s = .next s :=
  (act_next ht _).trans (congrArg _ (if_pos (by simp [hup])))

/-- The latch takes the first edge, and a further one is lost (R323). -/
theorem aoRequestLatch_down (hup : coreUp s = false) (hn : s.boot.rstN = false) (ha : s.boot.rstAo = false)
    (hm : rqMode s n.toNat = 1) : exec (.aoRequestLatch n) s =
      .next (if (s.rq n.toNat).latch then s.modRq n.toNat (fun x => { x with lost := true })
        else beginWake 2 2 n.toNat (s.modRq n.toNat (fun x => { x with latch := true }))) :=
  (act_next ht _).trans (congrArg _ (if_neg (by simp [hup, hn, ha, hm])))

end

/-- Settles O34: a change of level by the line's mode, the holdoff by the sampling of LEVEL mode, the latch by whether it is set. -/
theorem requestLines : Obligations.RequestLines := by
  unfold Obligations.RequestLines
  intro n lvl last s ht
  refine ⟨fun hup => ?works, fun hup => requestLineChange_down ht hup lvl last, fun hup hn ha hm => aoRequestLatch_down ht hup hn ha hm⟩
  have up {t : State} (h : rqChange n.toNat lvl last s = t) : exec (.requestLineChange n lvl last) s = .next t :=
    (requestLineChange_up ht hup lvl last).trans (congrArg _ h)
  refine ⟨?quiet, fun hm hl hq => ?rise, fun hm => up (rqChange_level hm), fun hm hl hq ha => ?request, fun hm hl hqa => ?held,
    fun hm hl => ?fall, holdoffExpiry_up ht hup, aoRequestLatch_up ht hup⟩
  case quiet =>
    rintro (hm | ⟨hm, hno⟩)
    · exact up (rqChange_off hm)
    · refine up ((rqChange_edge hm).trans (if_neg ?_))
      rcases hno with hl | hq
      · simp [hl]
      · simp [hq]
  case rise => exact up ((rqChange_edge hm).trans (if_pos ⟨hl, hq⟩))
  case request =>
    subst hl
    exact up ((rqChange_handshake_high hm).trans (if_pos ⟨hq, ha⟩))
  case held =>
    subst hl
    refine up ((rqChange_handshake_high hm).trans (if_neg ?_))
    rcases hqa with hq | ha
    · simp [hq]
    · simp [ha]
  case fall =>
    subst hl
    exact up (rqChange_handshake_low hm)

end Sys2Proof.Machine
end

section
/-! Event outputs, interrupts, software producers, subscriptions and HALT_Q (R326, R327, R332, R333, R338 to R341). -/

namespace Sys2Proof.Machine

/-! ## Interrupt lines (R339 to R341) -/

@[simp] theorem irq_modIrq (s : State) (i : Nat) (f : Irq → Irq) : (s.modIrq i f).irq i = f (s.irq i) := Tbl.get_put_same ..

theorem irq_modIrq_other (s : State) {i j : Nat} (f : Irq → Irq) (h : j ≠ i) : (s.modIrq i f).irq j = s.irq j :=
  Tbl.get_put_other _ _ _ _ _ h

/-- A running timer has reached a TIME that is not 0 (R339). -/
theorem irqTimedOut_iff {s : State} {i : Nat} {t : DWord} (h : (s.irq i).timer = some t) (hn : 0 < fld (s.reg (.irqCoal i)) 16 16) :
    irqTimedOut s i = true ↔ fld (s.reg (.irqCoal i)) 16 16 * 1600 ≤ (s.now - t).toNat := by
  simp only [irqTimedOut, h, Bool.and_eq_true, bne_iff_ne, decide_eq_true_eq]
  exact and_iff_right (Nat.ne_of_gt hn)

/-- One line's part of a write of IRQ_PEND: the lines of mask `m` become idle. -/
def irqClearOne (m : Word) (i : Nat) (t : State) : State := if bit m i then t.modIrq i (fun _ => {}) else t

theorem irqClear_eq (sec : Bool) (v : Word) (s : State) :
    irqClear sec v s = foldS (upTo 32) (irqClearOne (v &&& irqVisible s sec)) s := rfl

theorem irq_irqClearOne (m : Word) (i j : Nat) (s : State) :
    (irqClearOne m i s).irq j = if j = i ∧ bit m j = true then {} else s.irq j := by
  by_cases hj : j = i
  · subst hj
    cases hb : bit m j <;> simp [irqClearOne, hb]
  · cases hb : bit m i <;> simp [irqClearOne, hb, hj, irq_modIrq_other]

theorem irq_foldS_irqClearOne (m : Word) (l : List Nat) (j : Nat) (s : State) :
    (foldS l (irqClearOne m) s).irq j = if j ∈ l ∧ bit m j = true then {} else s.irq j := by
  induction l generalizing s with
  | nil => simp [foldS]
  | cons i l ih =>
    refine (ih _).trans ?_
    rw [irq_irqClearOne]
    cases hb : bit m j
    · simp
    · by_cases hj : j = i <;> simp [hj]

/-- A write of IRQ_PEND makes the lines it names and may see idle (R339, R341). -/
theorem irq_irqClear (sec : Bool) (v : Word) (s : State) {i : Nat} (hi : i < 32) :
    (irqClear sec v s).irq i = if bit v i && bit (irqVisible s sec) i then {} else s.irq i := by
  have hbit : bit (v &&& irqVisible s sec) i = (bit v i && bit (irqVisible s sec) i) := BitVec.getLsbD_and
  rw [irqClear_eq, irq_foldS_irqClearOne, hbit]
  simp [upTo, hi]

theorem chans_irqClear (sec : Bool) (v : Word) (s : State) : (irqClear sec v s).chans = s.chans := by
  rw [irqClear_eq]
  refine foldS_keeps State.chans (fun i t => ?_) _ s
  unfold irqClearOne
  split
  · exact State.modIrq_chans ..
  · rfl

/-! ## Subscriptions (R332, R333) -/

/-- A subscription as a word of SUB(j) gives it (Table 8-8). -/
def subOfWord (d : Word) : Sub := { v := bit d 31, gate := bit d 30, ch := d.extractLsb' 16 12, ec := d.extractLsb' 0 8 }

/-- A write of a subscription as it stands. -/
def subSame (o n : Sub) : Prop := o.v = n.v ∧ o.gate = n.gate ∧ o.ch = n.ch ∧ o.ec = n.ec

section
variable {j : Nat} {sec : Bool} {d : Word} {s : State}

theorem subWrite_refused (h : subRefused s j sec (subOfWord d) = true) : subWrite j sec d s = none := by
  unfold subWrite
  simp only [ofNat_fld]
  exact if_pos h

theorem subWrite_same (h : subRefused s j sec (subOfWord d) = false) (hs : subSame (s.sub j) (subOfWord d)) :
    subWrite j sec d s = some s := by
  obtain ⟨hv, hg, hc, he⟩ := hs
  unfold subWrite
  simp only [ofNat_fld]
  exact (if_neg (by simpa [subOfWord] using h)).trans (if_pos (by simpa [subOfWord] using ⟨⟨⟨hv, hg⟩, hc⟩, he⟩))

/-- A changed subscription is stored with PEND and OVR clear, and its two channels' readiness is noted (R333, R384). -/
theorem subWrite_stores (h : subRefused s j sec (subOfWord d) = false) (hs : ¬subSame (s.sub j) (subOfWord d)) :
    subWrite j sec d s = some (touch (subOfWord d).ch (touch (s.sub j).ch (rqRecheck (s.modSub j (fun _ => subOfWord d))))) := by
  unfold subWrite
  simp only [ofNat_fld]
  exact (if_neg (by simpa [subOfWord] using h)).trans (if_neg (by simpa [subSame, subOfWord, and_assoc] using hs))

end

/-! ## HALT_Q (R327) -/

/-- HALT_Q shows the channel halted first, 0 where there is none. -/
theorem haltWord_eq (s : State) :
    haltWord s = packW [(31, b2n (!s.evc.haltQ.isEmpty)), (30, b2n s.evc.haltOvf), (0, (s.evc.haltQ.headD 0).toNat)] := by
  unfold haltWord
  split
  case h_1 hq =>
    rw [hq]
    cases s.evc.haltOvf <;> rfl
  case h_2 c r hq =>
    rw [hq]
    rfl

/-- The fields of a word packed as HALT_Q (Table 8-6). -/
theorem haltPacked_fields (v o : Bool) (c : BitVec 12) :
    let w := packW [(31, b2n v), (30, b2n o), (0, c.toNat)]
    bit w 31 = v ∧ bit w 30 = o ∧ w.extractLsb' 0 12 = c := by
  have hc := c.isLt
  have hv := b2n_lt_two v
  have ho := b2n_lt_two o
  dsimp only
  rw [packW_cons _ _ (packW_cons _ _ (packW_cons (m := 0) _ _ rfl))]
  refine ⟨?_, ?_, ?_⟩
  · rw [bit, BitVec.getLsbD_ofNat, Nat.testBit_eq_decide_div_mod_eq, decide_eq_true (by decide), Bool.true_and]
    exact (decide_eq_decide.mpr (by omega)).trans (decide_b2n v)
  · rw [bit, BitVec.getLsbD_ofNat, Nat.testBit_eq_decide_div_mod_eq, decide_eq_true (by decide), Bool.true_and]
    exact (decide_eq_decide.mpr (by omega)).trans (decide_b2n o)
  · refine BitVec.eq_of_toNat_eq ?_
    rw [BitVec.extractLsb'_toNat, BitVec.toNat_ofNat]
    omega

theorem haltWord_fields (s : State) : (bit (haltWord s) 31 = true ↔ s.evc.haltQ ≠ []) ∧ bit (haltWord s) 30 = s.evc.haltOvf ∧
    ∀ c r, s.evc.haltQ = c :: r → (haltWord s).extractLsb' 0 12 = c := by
  obtain ⟨hv, ho, hc⟩ := haltPacked_fields (!s.evc.haltQ.isEmpty) s.evc.haltOvf (s.evc.haltQ.headD 0)
  rw [haltWord_eq]
  refine ⟨?_, ho, fun c r hq => hc.trans (by rw [hq]; rfl)⟩
  rw [hv]
  simp

theorem regRead_haltQ (sec : Bool) (owner : Byte) (s : State) :
    regRead sec owner .haltQ s = some (if sec then haltWord s else 0, if sec then haltPop s else s) := rfl

/-- A read of HALT_Q at its address. -/
theorem haltQRead_gives {a : TpAttr} {s : State} (h : s.takes a false .haltQ) :
    exec (.haltQRead a) s = gave a (if a.sec then haltWord s else 0) (if a.sec then haltPop s else s) :=
  takes_gave h (BitVec.ofNat 20 0x4408) 0 rfl rfl (regRead_haltQ ..)

/-! ## Output lines and coalescing time (R338, R339) -/

section
variable {s : State} (ht : s.boot.tstMode = false) (hc : s.coreOn = true)
include ht hc

theorem evoPulseEnd_pulse {m : BitVec 6} (hm : fld (s.app (.evoCfg m.toNat)) 0 2 = 1) :
    exec (.evoPulseEnd m) s = .next (s.modEvo m.toNat (fun v =>
      if v.level then { v with level := false, low := true } else { v with low := false })) :=
  (act_next ht _).trans (congrArg _ (if_pos (by simp [hc, hm])))

theorem irqCoalTimeout_eq (i : BitVec 5) : exec (.irqCoalTimeout i) s =
    .next (if irqTimedOut s i.toNat = true then s.modIrq i.toNat (fun q => { q with pend := true }) else s) := by
  refine (act_next ht _).trans (congrArg _ ?_)
  simp [hc]

end

/-! ## The statement -/

/-- Settles O35: the lines by their timers, the accesses by the rule of each register. -/
theorem outputsAndInterrupts : Obligations.OutputsAndInterrupts := by
  unfold Obligations.OutputsAndInterrupts
  intro s
  refine ⟨fun ht hc => ⟨fun m hm => evoPulseEnd_pulse ht hc hm, fun i t htm hn => ⟨fun hle => ?due, fun hlt => ?early⟩⟩,
    fun a d htk => ?pend, fun a d htk => ?raise, fun a j d htk => ?subscription, fun a htk => ⟨fun hsec => ?hidden, fun hsec => ?popped⟩⟩
  case due => exact (irqCoalTimeout_eq ht hc i).trans (congrArg _ (if_pos ((irqTimedOut_iff htm hn).mpr hle)))
  case early => exact (irqCoalTimeout_eq ht hc i).trans (congrArg _ (if_neg (mt (irqTimedOut_iff htm hn).mp (by omega))))
  case pend =>
    exact ⟨_, takes_wroteAt htk 0x4410 d (by decide) (by decide) rfl rfl, chans_irqClear a.sec d s, fun i hi => irq_irqClear a.sec d s hi⟩
  case raise => exact takes_wroteAt htk 0x4400 d (by decide) (by decide) rfl rfl
  case subscription =>
    have hj := j.isLt
    have written {t : State} (hw : subWrite j.toNat a.sec d s = some t) : exec (.subWrite a j d) s = wrote a t :=
      takes_wroteAt htk _ d (by omega) (by omega) (dec_sub s.wings j) hw
    exact ⟨fun hr => takes_deniedAt htk _ d (by omega) (by omega) (dec_sub s.wings j) (subWrite_refused hr),
      fun hr hs => written (subWrite_same hr hs), fun hr hs => written (subWrite_stores hr hs)⟩
  case hidden =>
    refine (haltQRead_gives htk).trans ?_
    simp [hsec]
  case popped =>
    obtain ⟨hv, ho, hfirst⟩ := haltWord_fields s
    refine ⟨haltWord s, haltPop s, (haltQRead_gives htk).trans ?_, rfl, rfl, hv, ho, hfirst⟩
    simp [hsec]

end Sys2Proof.Machine
end

section
/-! What the assertion of a link's fault source leaves alone (R375, R549 to R557, R647). -/

namespace Sys2Proof.Machine

/-- The state without what an assertion records and what reacts to its event: channels, the Concourse, FCR, the Ledger and the count
of free values. -/
def State.butFaults (s : State) : State := { s with chans := [], evc := {}, fcr := {}, ledger := {}, fresh := 0 }

theorem butFaults_of_butReactions {s t : State} (h : t.butReactions = s.butReactions) : t.butFaults = s.butFaults := by
  have hfaults := congrArg State.butFaults h
  exact hfaults

theorem butFaults_modFcr (s : State) (f : Fcr → Fcr) : (s.modFcr f).butFaults = s.butFaults := rfl

theorem butFaults_lgEnqueue (code sev : Nat) (inj : Bool) (lo hi : Word) (s : State) :
    (lgEnqueue code sev inj lo hi s).butFaults = s.butFaults := by
  unfold lgEnqueue
  dsimp only
  split <;> rfl

theorem butFaults_lgClose (k m : Nat) (s : State) : (lgClose k m s).butFaults = s.butFaults := by
  unfold lgClose lgSuppCode
  dsimp only
  by_cases hm : m = 0
  · rw [if_pos hm]
    rfl
  · rw [if_neg hm, butFaults_lgEnqueue]
    split <;> rfl

/-- A record changes nothing but the Ledger and the count of free values (R647). -/
theorem butFaults_lgRecord (code sev : Nat) (inj : Bool) (lo hi : Word) (s : State) :
    (lgRecord code sev inj lo hi s).butFaults = s.butFaults := by
  have hopen (t : State) : (lgOpen (lgKey code) code sev inj lo hi t).butFaults = t.butFaults := butFaults_lgEnqueue ..
  unfold lgRecord
  dsimp only
  generalize (if lgKey code = 0x8000 then fld (s.reg .lgRate) 16 8 else fld (s.reg .lgRate) 24 8) = burst
  split
  · exact butFaults_lgEnqueue ..
  · split
    · exact hopen s
    · split
      · exact (hopen _).trans (butFaults_lgClose ..)
      · split
        · exact butFaults_lgEnqueue ..
        · rfl

theorem butFaults_feCapture (n sev : Nat) (i : FaultInfo) (rail : Bool) (s : State) :
    (feCapture n sev i rail s).butFaults = s.butFaults := by
  unfold feCapture
  dsimp only
  split
  · rfl
  · exact (butFaults_of_butReactions (butReactions_emitT ..)).trans rfl

theorem butFaults_fltAct (sev : Nat) (s : State) : (fltAct sev s).butFaults = s.butFaults := by
  unfold fltAct
  split
  · rfl
  · split <;> rfl

/-- The record of an assertion (R549 to R555). -/
theorem butFaults_recordFault (n : Nat) (i : FaultInfo) (rail : Bool) (s : State) : (recordFault n i rail s).butFaults = s.butFaults := by
  unfold recordFault
  dsimp only
  split
  · rw [butFaults_fltAct, butFaults_modFcr, butFaults_feCapture]
    split
    · rw [butFaults_lgRecord, butFaults_modFcr, butFaults_modFcr]
    · rw [butFaults_modFcr]
  · split
    · rw [butFaults_lgRecord, butFaults_modFcr, butFaults_modFcr]
    · rw [butFaults_modFcr]

/-- The units that form bursts have their sources below those of the cache of entries, or from CAT's on (Table 16-1). -/
theorem formedBy_source {n : Nat} {i : FaultInfo} {t : Txn} (h : formedBy n i t = true) : n < 168 ∨ 254 ≤ n := by
  unfold formedBy at h
  repeat' split at h
  all_goals simp only [Bool.and_eq_true, beq_iff_eq, Bool.false_eq_true] at h <;> omega

/-- A source of no unit that forms bursts withholds none (R541). -/
theorem withhold_none {n : Nat} (hlo : 168 ≤ n) (hhi : n < 254) (i : FaultInfo) (s : State) : withhold n i s = s := by
  have hform (t : Txn) : formedBy n i t = false := by
    rw [← Bool.not_eq_true]
    intro h
    have := formedBy_source h
    omega
  simp [withhold, hform, foldS]

/-- Nothing reacts to the assertion of a link's source, but by a bite of its arbiter (Table 16-5). -/
theorem reactFault_link {n : Nat} (hlo : 176 ≤ n) (hhi : n < 230) {i : FaultInfo} (hcls : i.cls ≠ 4) (s : State) :
    reactFault n i s = s := by
  unfold reactFault
  simp (disch := omega) only [if_neg]
  rw [if_pos hhi]

/-- The assertion of a port's or a link's source that is no bite is recorded, and does no more. -/
theorem butFaults_assertFault_link {n : Nat} (hlo : 176 ≤ n) (hhi : n < 230) {i : FaultInfo} (hcls : i.cls ≠ 4) (s : State) :
    (assertFault n i s).butFaults = s.butFaults := by
  unfold assertFault
  split
  · rfl
  · rw [reactFault_link hlo hhi hcls, withhold_none (by omega) (by omega)]
    exact butFaults_recordFault ..

end Sys2Proof.Machine
end

section
/-! Stream Links in training, their lanes, and LINK_CTRL (R345 to R349, R373 to R376). -/

namespace Sys2Proof.Machine

/-! ## One link of the state -/

@[simp] theorem setLink_setLink (s : State) (l : BitVec 5) (x y : Link) : (s.setLink l x).setLink l y = s.setLink l y := by
  simp [State.setLink]

theorem modLink_setLink (s : State) (l : BitVec 5) (x : Link) (f : Link → Link) : (s.setLink l x).modLink l f = s.setLink l (f x) := by
  unfold State.modLink
  rw [link_setLink, setLink_setLink]

theorem link_of_links {s t : State} (h : t.links = s.links) (m : BitVec 5) : t.link m = s.link m := by
  unfold State.link
  rw [h]

theorem link_rwWrite (s : State) (r : Reg) (v : Word) (l : BitVec 5) : (rwWrite r v s).link l = s.link l := rfl

/-! ## LINK_CTRL (R346, Table 9-9) -/

/-- A write of LINK_CTRL stores the word, and its EN and RETRAIN take effect. -/
theorem linkCtrl_wrote {a : TpAttr} {l : BitVec 5} {s : State} (htk : s.takes a true (.linkCtrl l.toNat)) (v : Word) :
    act s (tpWrite a (0x12080 + 0x100 * l.toNat) v s) =
      wrote a (linkCtrlTo l (bit v 31) (bit v 30) (rwWrite (.linkCtrl l.toNat) v s)) := by
  have hw : regWrite a.sec a.owner (.linkCtrl l.toNat) v s = some (linkCtrlWrite l.toNat v s) := rfl
  rw [linkCtrlWrite, BitVec.ofNat_toNat, BitVec.setWidth_eq] at hw
  exact takes_wroteAt htk _ v (by omega) (by omega) (dec_link s.wings l).1 hw

theorem linkEnable_wrote {a : TpAttr} {l : BitVec 5} {s : State} (htk : s.takes a true (.linkCtrl l.toNat)) (d : Word) :
    exec (.linkEnable a l d) s = wrote a (linkCtrlTo l true (bit d 30) (rwWrite (.linkCtrl l.toNat) (setFld d 31 1 1) s)) := by
  have h := linkCtrl_wrote htk (setFld d 31 1 1)
  rw [show bit (setFld d 31 1 1) 31 = true by simp [bit_setFld], bit_setFld_other d 31 1 1 30 (by decide)] at h
  exact h

theorem linkDisable_wrote {a : TpAttr} {l : BitVec 5} {s : State} (htk : s.takes a true (.linkCtrl l.toNat)) (d : Word) :
    exec (.linkDisable a l d) s = wrote a (linkCtrlTo l false (bit d 30) (rwWrite (.linkCtrl l.toNat) (setFld d 31 1 0) s)) := by
  have h := linkCtrl_wrote htk (setFld d 31 1 0)
  rw [show bit (setFld d 31 1 0) 31 = false by simp [bit_setFld], bit_setFld_other d 31 1 0 30 (by decide)] at h
  exact h

theorem retrain_wrote {a : TpAttr} {l : BitVec 5} {s : State} (htk : s.takes a true (.linkCtrl l.toNat)) (d : Word) :
    exec (.retrain a l d) s = wrote a (linkCtrlTo l (bit d 31) true (rwWrite (.linkCtrl l.toNat) (setFld d 30 1 1) s)) := by
  have h := linkCtrl_wrote htk (setFld d 30 1 1)
  rw [show bit (setFld d 30 1 1) 30 = true by simp [bit_setFld], bit_setFld_other d 30 1 1 31 (by decide)] at h
  exact h

section
variable {l : BitVec 5} {s : State}

/-- EN = 0 stops a link. -/
theorem link_linkCtrlTo_off (r : Bool) : (linkCtrlTo l false r s).link l = (s.link l).toDisabled := link_setLink ..

/-- EN starts a DISABLED link at DETECT. -/
theorem link_linkCtrlTo_starts (r : Bool) (h : (s.link l).st = .disabled) : (linkCtrlTo l true r s).link l = (s.link l).toDetect :=
  (link_setLink ..).trans (if_pos h)

/-- EN = 1 without RETRAIN leaves a link that is not DISABLED. -/
theorem link_linkCtrlTo_stays (h : (s.link l).st ≠ .disabled) : (linkCtrlTo l true false s).link l = s.link l :=
  (link_setLink ..).trans ((if_neg h).trans (if_neg (fun hr => absurd hr.1 Bool.false_ne_true)))

/-- RETRAIN returns a link to DETECT. -/
theorem link_linkCtrlTo_retrains (h : (s.link l).st = .failed ∨ (s.link l).st = .active ∨ (s.link l).st = .recovery) :
    (linkCtrlTo l true true s).link l = (s.link l).toDetect := by
  have hd : (s.link l).st ≠ .disabled := by rcases h with h | h | h <;> rw [h] <;> decide
  exact (link_setLink ..).trans ((if_neg hd).trans (if_pos ⟨rfl, h⟩))

end

theorem link_linkCtrlTo_other {l m : BitVec 5} (h : m ≠ l) (en r : Bool) (s : State) : (linkCtrlTo l en r s).link m = s.link m :=
  link_setLink_other s l m _ h

/-! ## A link fails (R367, R375) -/

/-- FAILED, with its cause. -/
def Link.toFailed (c : BitVec 4) (x : Link) : Link :=
  { x.idleLanes with st := .failed, ver := if x.st = .config then 0 else x.ver, failCause := c, active := [], ackDue := false,
                     nakOut := false }

/-- A failure changes, of the links, the one that fails. -/
theorem links_linkFail (l : BitVec 5) (c : BitVec 4) (s : State) :
    (linkFail l c s).links = (s.setLink l ((s.link l).toFailed c)).links := by
  have hl := l.isLt
  have hfault := butFaults_assertFault_link (n := 198 + l.toNat) (i := faultOf 7 0) (by omega) (by omega) (by decide)
  have hemit := butFaults_of_butReactions (butReactions_emitUp [160 + l.toNat] (s.setLink l ((s.link l).toFailed c)))
  have hlinks := congrArg State.links ((hfault _).trans hemit)
  exact hlinks

/-- The link that has failed. -/
theorem link_linkFail (l : BitVec 5) (c : BitVec 4) (s : State) : (linkFail l c s).link l = (s.link l).toFailed c :=
  (link_of_links (links_linkFail l c s) l).trans (link_setLink ..)

theorem link_linkFail_other {l m : BitVec 5} (h : m ≠ l) (c : BitVec 4) (s : State) : (linkFail l c s).link m = s.link m :=
  (link_of_links (links_linkFail l c s) m).trans (link_setLink_other s l m _ h)

/-! ## Lanes (R345, R348, R349) -/

/-- A lane without block lock. -/
def Link.unlock (lane : Bool) (x : Link) : Link := if lane then { x with lockLane1 := false } else { x with lockLane0 := false }

/-- A receive lane that is out until the next DETECT. -/
def Link.rxOut (lane : Bool) (x : Link) : Link := { x with rxBad := x.rxBad ||| laneBit lane }

/-- Block lock is no part of what decides about a failing lane. -/
theorem unlock_keeps (lane : Bool) (x : Link) : (x.unlock lane).st = x.st ∧ (x.unlock lane).rxBad = x.rxBad ∧
    (x.unlock lane).rxLane = x.rxLane ∧ (x.unlock lane).hasLsw = x.hasLsw := by
  cases lane <;> exact ⟨rfl, rfl, rfl, rfl⟩

theorem rxOut_unlock (lane : Bool) (x : Link) :
    (x.unlock lane).rxOut lane = { x.unlock lane with rxBad := x.rxBad ||| laneBit lane } := by
  cases lane <;> rfl

section
variable {l : BitVec 5} {lane : Bool} {s : State} {y : Link}

/-- A lane that is out already, or of a link that is not ACTIVE, fails nothing. -/
theorem laneFailing_idle (h : (s.link l).st ≠ .active ∨ (s.link l).rxBad &&& laneBit lane ≠ 0) : laneFailing l lane s = s := if_pos h

section
variable (hst : y.st = .active) (hbad : y.rxBad &&& laneBit lane = 0)
include hst hbad

/-- With its spare out already, the link fails. -/
theorem laneFailing_last (h : y.rxBad ||| laneBit lane = 3) :
    laneFailing l lane (s.setLink l y) = linkFail l 4 (s.setLink l (y.rxOut lane)) := by
  unfold laneFailing
  dsimp only
  rw [modLink_setLink, link_setLink, link_setLink, if_neg (by simp [hst, hbad]), if_pos h]
  rfl

variable (hleft : y.rxBad ||| laneBit lane ≠ 3)
include hleft

/-- The spare is out, and nothing else changes. -/
theorem laneFailing_spare (h : lane ≠ y.rxLane) : laneFailing l lane (s.setLink l y) = s.setLink l (y.rxOut lane) := by
  unfold laneFailing
  dsimp only
  rw [modLink_setLink, link_setLink, link_setLink, if_neg (by simp [hst, hbad]), if_neg hleft, if_pos h]
  rfl

/-- The active lane leaves its direction to the spare, by the far side's LSW or through RECOVERY. -/
theorem laneFailing_used (h : lane = y.rxLane) : laneFailing l lane (s.setLink l y) =
    if y.hasLsw then laneFault l (s.setLink l (y.rxOut lane))
    else linkRecover l ((laneFault l (s.setLink l (y.rxOut lane))).modLink l (fun z => { z with rxLane := !lane })) := by
  unfold laneFailing
  dsimp only
  rw [modLink_setLink, link_setLink, link_setLink, if_neg (by simp [hst, hbad]), if_neg hleft, if_neg (not_not.mpr h)]
  rfl

end
end

section
variable {l : BitVec 5} {s : State} (hst : (s.link l).st = .active)
include hst

/-- With its spare out already, the active transmit lane fails the link. -/
theorem txFailing_last (h : (s.link l).txBad ||| laneBit (s.link l).txLane = 3) :
    txFailing l s = linkFail l 4 (s.setLink l { s.link l with txBad := 3 }) := by
  unfold txFailing
  dsimp only
  rw [if_neg (not_not.mpr hst), if_pos h, h]
  rfl

/-- Transmission goes on on the spare lane, by Tilzu's LSW or through RECOVERY. -/
theorem txFailing_spare (h : (s.link l).txBad ||| laneBit (s.link l).txLane ≠ 3) : txFailing l s =
    let x := s.link l
    let u := laneFault l (s.setLink l { x with txBad := x.txBad ||| laneBit x.txLane, txLane := !x.txLane, nakWin := [] })
    if x.hasLsw then u.modLink l (fun y => { y with lswOut := some (!x.txLane, x.nextSeq) }) else linkRecover l u := by
  unfold txFailing
  exact (if_neg (not_not.mpr hst)).trans (if_neg h)

end

section
variable {l : BitVec 5} {s : State} (ht : s.boot.tstMode = false) (hon : linkOn s l = true)
include ht hon

theorem blockLockAcquired_locks {lane : Bool} (hd : (s.link l).st ≠ .disabled) (hf : (s.link l).st ≠ .failed) :
    exec (.blockLockAcquired l lane) s =
      .next (s.setLink l (if lane then { s.link l with lockLane1 := true } else { s.link l with lockLane0 := true })) :=
  (act_next ht _).trans (congrArg _ (if_pos (by simp [hon, hd, hf])))

theorem blockLockLost_fails (lane : Bool) :
    exec (.blockLockLost l lane) s = .next (laneFailing l lane (s.setLink l ((s.link l).unlock lane))) :=
  (act_next ht _).trans (congrArg _ (if_pos hon))

/-- LSW moves the reception of an ACTIVE link of 1.2 to a lane that is not out. -/
theorem lsw_eq (lane : Bool) (q : BitVec 12) : exec (.lsw l lane q) s =
    .next (if (s.link l).st = .active ∧ (s.link l).hasLsw = true ∧ (s.link l).rxBad &&& laneBit lane = 0 then
      s.setLink l { s.link l with rxLane := lane } else s) := by
  refine (act_next ht _).trans (congrArg _ (ite_congr ?_ (fun _ => rfl) (fun _ => rfl)))
  simp [hon, and_assoc]

/-! ## Training (R347, Table 9-2) -/

theorem trainTimeout_eq : exec (.trainTimeout l) s = .next (if (s.link l).st = .train then linkFail l 2 s else s) := by
  refine (act_next ht _).trans (congrArg _ ?_)
  simp [hon]

theorem configTimeout_eq : exec (.configTimeout l) s = .next (if (s.link l).st = .config then linkFail l 2 s else s) := by
  refine (act_next ht _).trans (congrArg _ ?_)
  simp [hon]

theorem recoveryTimeout_eq : exec (.recoveryTimeout l) s = .next (if (s.link l).st = .recovery then linkFail l 5 s else s) := by
  refine (act_next ht _).trans (congrArg _ ?_)
  simp [hon]

end

/-- TRAIN ends once both receivers have adapted. -/
theorem trainDone_setLink (l : BitVec 5) (s : State) {x : Link} (h : x.st = .train) :
    trainDone l (s.setLink l x) = s.setLink l (if x.adapted && x.farAdapted then x.toConfig else x) := by
  unfold trainDone
  rw [modLink_setLink, h]
  rfl

theorem eqAdapted_idle {l : BitVec 5} {s : State} (ht : s.boot.tstMode = false)
    (h : (s.link l).st ≠ .train ∨ (s.link l).adapted = true) : exec (.eqAdapted l) s = .next s := by
  refine (act_next ht _).trans (congrArg _ (if_neg ?_))
  rcases h with h | h <;> simp [h]

section
variable {l : BitVec 5} {s : State} (ht : s.boot.tstMode = false) (hon : linkOn s l = true)
include ht hon

theorem eqAdapted_adapts (hst : (s.link l).st = .train) (had : (s.link l).adapted = false) :
    let x := s.link l
    let y := { x with adapted := true, eqTried := 8, eqReq := BitVec.ofNat 8 ((s.draw).1.toNat % 8) }
    exec (.eqAdapted l) s = .next ((s.draw).2.setLink l (if x.farAdapted then y.toConfig else y)) := by
  intro x y
  have hdone := trainDone_setLink l (s.draw).2 (x := y) hst
  rw [show (y.adapted && y.farAdapted) = x.farAdapted from Bool.true_and _] at hdone
  refine (act_next ht _).trans (congrArg _ ((if_pos ?_).trans hdone))
  simp [hon, hst, had]

/-- A training block on the active lane, by the link's state. -/
theorem ts_locked (b : TsBlock) (hl : (s.link l).locked = true) : exec (.ts l b) s = .next (match (s.link l).st with
    | .detect => s.modLink l (fun y => Link.eqBlock b { y with st := .train, adapted := false, eqTried := 0 })
    | .train => trainDone l (s.modLink l (Link.eqBlock b))
    | .active => if b.state = 5 then linkRecover l s else s
    | .recovery => linkReplay l (linkActivate l s)
    | _ => s) := by
  refine (act_next ht _).trans (congrArg _ ((if_neg ?_).trans ?_))
  · simp [hon, hl]
  · rfl

end

/-- A training block leaves the training state and what Tilzu's own receiver has reached, and brings what the far one has. -/
theorem eqBlock_keeps (b : TsBlock) (x : Link) : (Link.eqBlock b x).st = x.st ∧ (Link.eqBlock b x).adapted = x.adapted ∧
    (Link.eqBlock b x).farAdapted = b.adapted := by
  unfold Link.eqBlock
  dsimp only
  split <;> exact ⟨rfl, rfl, rfl⟩

/-- TRAIN ends with the block by which both sides report adapted. -/
theorem trainDone_eqBlock {l : BitVec 5} {s : State} (b : TsBlock) (h : (s.link l).st = .train) :
    trainDone l (s.modLink l (Link.eqBlock b)) = s.setLink l
      (if (s.link l).adapted && b.adapted then (Link.eqBlock b (s.link l)).toConfig else Link.eqBlock b (s.link l)) := by
  obtain ⟨hst, had, hfar⟩ := eqBlock_keeps b (s.link l)
  refine (trainDone_setLink l s (hst.trans h)).trans ?_
  rw [had, hfar]

/-! ## The statement -/

/-- Settles O45: LINK_CTRL by the case of `linkCtrlTo`, lanes by what is left of their direction, training by the link's state. -/
theorem linkTraining : Obligations.LinkTraining := by
  unfold Obligations.LinkTraining
  intro l s x
  refine ⟨fun a d htk => ⟨?enable, ?disable, fun hen hst => ?retrain⟩, fun ht hon => ⟨fun lane => ⟨?acquired, ?lost, ?lsw, ?noLsw⟩,
    fun b hl => ?block, ?adapts, ?adapted, ?train, ?config, ?recovery, ?noTrain, ?noConfig, ?noRecovery⟩, fun hst => ?transmit,
    fun c => ?failed⟩
  case enable =>
    have hlink := link_rwWrite s (.linkCtrl l.toNat) (setFld d 31 1 1)
    refine ⟨_, linkEnable_wrote htk d, fun hst => ?_, fun hst hr => ?_, fun m hm => (link_linkCtrlTo_other hm ..).trans (hlink m)⟩
    · rw [link_linkCtrlTo_starts _ (by rw [hlink]; exact hst), hlink]
    · rw [hr, link_linkCtrlTo_stays (by rw [hlink]; exact hst), hlink]
  case disable =>
    have hlink := link_rwWrite s (.linkCtrl l.toNat) (setFld d 31 1 0)
    refine ⟨_, linkDisable_wrote htk d, ?_⟩
    rw [link_linkCtrlTo_off, hlink]
    exact ⟨rfl, rfl, rfl, rfl, fun m hm => (link_linkCtrlTo_other hm ..).trans (hlink m)⟩
  case retrain =>
    have hlink := link_rwWrite s (.linkCtrl l.toNat) (setFld d 30 1 1)
    refine ⟨_, retrain_wrote htk d, ?_⟩
    rw [hen, link_linkCtrlTo_retrains (by rw [hlink]; exact hst), hlink]
    exact ⟨rfl, rfl, fun m hm => (link_linkCtrlTo_other hm ..).trans (hlink m)⟩
  case acquired => exact fun hd hf => blockLockAcquired_locks ht hon hd hf
  case lost =>
    obtain ⟨hyst, hybad, hylane, hylsw⟩ := unlock_keeps lane x
    have hlost := blockLockLost_fails ht hon lane
    refine ⟨fun hidle => ?_, fun hst hbad => ?_⟩
    · rw [hlost, laneFailing_idle (by rw [link_setLink, hyst, hybad]; exact hidle)]
      rfl
    · have hyactive := hyst.trans hst
      rw [← hybad] at hbad
      refine ⟨fun hboth => ?_, fun hleft hspare => ?_, fun hleft hused => ?_⟩
      · rw [hlost, laneFailing_last hyactive hbad (by rw [hybad]; exact hboth), rxOut_unlock]
        rfl
      · rw [hlost, laneFailing_spare hyactive hbad (by rw [hybad]; exact hleft) (by rw [hylane]; exact hspare), rxOut_unlock]
        rfl
      · rw [hlost, laneFailing_used hyactive hbad (by rw [hybad]; exact hleft) (by rw [hylane]; exact hused), rxOut_unlock, hylsw]
        rfl
  case lsw => exact fun q hst hlsw hbad => (lsw_eq ht hon lane q).trans (congrArg _ (if_pos ⟨hst, hlsw, hbad⟩))
  case noLsw =>
    refine fun q hlsw => (lsw_eq ht hon lane q).trans (congrArg _ (if_neg fun h => ?_))
    exact absurd (hlsw.symm.trans h.2.1) Bool.false_ne_true
  case block =>
    have hts := ts_locked ht hon b hl
    refine ⟨fun hst => ?_, fun hst => ?_, fun hst => ?_, fun hst => ?_⟩ <;> rw [hts, hst]
    · rfl
    · exact congrArg _ (trainDone_eqBlock b hst)
  case adapts => exact eqAdapted_adapts ht hon
  case adapted => exact eqAdapted_idle ht
  case train => exact fun hst => (trainTimeout_eq ht hon).trans (congrArg _ (if_pos hst))
  case config => exact fun hst => (configTimeout_eq ht hon).trans (congrArg _ (if_pos hst))
  case recovery => exact fun hst => (recoveryTimeout_eq ht hon).trans (congrArg _ (if_pos hst))
  case noTrain => exact fun hst => (trainTimeout_eq ht hon).trans (congrArg _ (if_neg hst))
  case noConfig => exact fun hst => (configTimeout_eq ht hon).trans (congrArg _ (if_neg hst))
  case noRecovery => exact fun hst => (recoveryTimeout_eq ht hon).trans (congrArg _ (if_neg hst))
  case transmit => exact ⟨txFailing_last hst, txFailing_spare hst⟩
  case failed =>
    rw [link_linkFail]
    exact ⟨rfl, rfl, rfl, rfl, fun m hm => link_linkFail_other hm c s⟩

end Sys2Proof.Machine
end

section
/-! Frames received on a Stream Link, its acknowledgements and replays, FLUSH, RX_CFG and the status queue (R350 to R356, R361, R368,
R369, R377, R378). -/

namespace Sys2Proof.Machine

/-! ## What a received frame does (R352, R355) -/

section
variable {l : BitVec 5} {ty : Nat} {f : Frame} {s : State} (accept : State → State) (hon : linkOn s l = true)
  (hst : (s.link l).st = .active ∨ (s.link l).st = .config) (hlane : f.lane = (s.link l).rxLane)
include hon hst hlane

/-- A link in ACTIVE or CONFIG hears the frames of its active lane. -/
theorem frame_heard :
    ¬(!linkOn s l || !((s.link l).st == .active || (s.link l).st == .config) || f.lane != (s.link l).rxLane) = true := by
  rcases hst with h | h <;> simp [hon, hlane, h]

theorem rxFrame_crc (hcrc : f.crcOk = false) : rxFrame l ty f accept s = crcFail l f.lane s :=
  (if_neg (frame_heard hon hst hlane)).trans (if_pos (by simp [hcrc]))

variable (hcrc : f.crcOk = true)
include hcrc

/-- A frame whose form fails, that is too long, or that is a MARK not negotiated, is answered with a NAK. -/
theorem rxFrame_malformed
    (h : frameForm ty f = false ∨ (s.link l).maxLen < f.len.toNat ∨ (ty = 4 ∧ (s.link l).hasMark = false)) :
    rxFrame l ty f accept s = trailer l f (s.modLink l Link.nak) := by
  refine (if_neg (frame_heard hon hst hlane)).trans ((if_neg (by simp [hcrc])).trans (if_pos ?_))
  rcases h with h | h | h <;> simp [h]

variable (hform : frameForm ty f = true) (hlen : f.len.toNat ≤ (s.link l).maxLen) (hmark : ty = 4 → (s.link l).hasMark = true)
include hform hlen hmark

/-- A frame that passes its checks is judged by its TYPE and its SEQ. -/
theorem rxFrame_checked : rxFrame l ty f accept s =
    if 0x80 ≤ ty then trailer l f (accept s)
    else if f.seq = (s.link l).expected then
      (if withinLimits (s.link l) ty f then
        trailer l f (accept (s.modLink l (fun y => { y with expected := y.expected + 1, rxAny := true, nakOut := false, ackDue := true })))
      else crcFail l f.lane s)
    else if ((s.link l).expected - f.seq).toNat ≤ 2048 then trailer l f (s.modLink l (fun y => { y with ackDue := true }))
    else trailer l f (s.modLink l Link.nak) := by
  refine (if_neg (frame_heard hon hst hlane)).trans ((if_neg (by simp [hcrc])).trans (if_neg ?_))
  have hmax : ¬ (s.link l).maxLen < f.len.toNat := by omega
  by_cases h4 : ty = 4
  · simp [hform, hmax, hmark h4]
  · simp [hform, hmax, h4]

end

/-- A NAK where none is outstanding is sent, and counted. -/
theorem nak_first {x : Link} (h : x.nakOut = false) : x.nak = { x with nakOut := true, nakCnt := satAdd x.nakCnt 1 } := by
  unfold Link.nak
  rw [h]
  rfl

/-- A field of a word, as a wider word. -/
theorem extract_field {n : Nat} (w : BitVec n) (lsb wid m : Nat) :
    (w.extractLsb' lsb wid).setWidth m = BitVec.ofNat m (fld w lsb wid) := by
  have hlt : fld w lsb wid < 2 ^ wid := Nat.mod_lt _ (Nat.two_pow_pos wid)
  rw [← ofNat_fld]
  apply BitVec.eq_of_toNat_eq
  rw [BitVec.toNat_setWidth, BitVec.toNat_ofNat, BitVec.toNat_ofNat, Nat.mod_eq_of_lt hlt]

/-! ## Acknowledgements and replays (R352 to R354) -/

section
variable {l : BitVec 5} {f : Frame} {s : State} (hack : f.ackV = false)
include hack

/-- A trailer without an acknowledgement and without NAK says nothing. -/
theorem trailer_plain (hnak : f.nak = false) : trailer l f s = s := by
  unfold trailer
  simp [hack, hnak]

/-- A NAK has every unacknowledged frame replayed, unless it is the one that takes the link out of ACTIVE. -/
theorem trailer_nak (hnak : f.nak = true) (hst : ((nakSeen l s).link l).st = .active) :
    trailer l f s = linkReplay l (nakSeen l s) := by
  unfold trailer
  simp [hack, hnak, hst]

end

section
variable {l : BitVec 5} {s : State} (ht : s.boot.tstMode = false) (hon : linkOn s l = true) (hst : (s.link l).st = .active)
include ht hon hst

theorem replayTimeout_replays (hbuf : (s.link l).replayBuf ≠ [])
    (hdue : fld (s.reg (.linkCtrl l.toNat)) 8 8 * 160 ≤ (s.now - (s.link l).ackAdvAt).toNat) :
    exec (.linkReplayTimeout l) s = .next (linkReplay l s) :=
  (act_next ht _).trans (congrArg _ (if_pos (by rw [hon, hst, decide_eq_true hdue]; simp [hbuf])))

theorem ackFrameSend_sends : exec (.ackFrameSend l) s = .next (s.setLink l { s.link l with ackDue := false }) :=
  (act_next ht _).trans (congrArg _ (if_pos (by simp [hon, hst])))

end

theorem replayTimeout_idle {l : BitVec 5} {s : State} (ht : s.boot.tstMode = false) (hbuf : (s.link l).replayBuf = []) :
    exec (.linkReplayTimeout l) s = .next s :=
  (act_next ht _).trans (congrArg _ (if_neg (by simp [hbuf])))

/-! ## FLUSH (R368) -/

section
variable {a : TpAttr} {l : BitVec 5} {s : State}

theorem regWrite_flush (sec : Bool) (owner : Byte) (d : Word) :
    regWrite sec owner (.rxCmd l.toNat) (setFld d 0 1 1) s = linkFlush l s := by
  have hw : regWrite sec owner (.rxCmd l.toNat) (setFld d 0 1 1) s =
    if bit (setFld d 0 1 1) 0 then linkFlush (BitVec.ofNat 5 l.toNat) s else some s := rfl
  rw [hw, if_pos (bit_strobe d), BitVec.ofNat_toNat, BitVec.setWidth_eq]

theorem linkFlush_busy (h : ownerBusy s l.toNat = true) : linkFlush l s = none := if_pos h

/-- FLUSH empties the receive buffer and the status queue, and their words and entries return. -/
theorem linkFlush_empties (h : ownerBusy s l.toNat = false) : ∃ t, linkFlush l s = some t ∧ (t.link l).rx = [] ∧
    (t.link l).active = [] ∧ (t.link l).stq = [] ∧
    (t.link l).relWords = (s.link l).relWords + BitVec.ofNat 16 (s.link l).held ∧
    (t.link l).relMsgs = (s.link l).relMsgs + BitVec.ofNat 8 (s.link l).stq.length ∧ ∀ m, m ≠ l → t.link m = s.link m := by
  refine ⟨_, if_neg (by simp [h]), ?_⟩
  unfold State.modLink
  rw [link_setLink]
  exact ⟨rfl, rfl, rfl, rfl, rfl, fun m hm => link_setLink_other s l m _ hm⟩

/-! ## RX_CFG (R369, R377) -/

theorem rxCfgWrite_refused {d : Word} (h : rxCfgRefused s l.toNat d = true) : rxCfgWrite l.toNat d s = none := if_pos h

/-- A write of RX_CFG stores its fields, and of the links only the readiness of its own follows. -/
theorem rxCfgWrite_stores {d : Word} (h : rxCfgRefused s l.toNat d = false) : ∃ t, rxCfgWrite l.toNat d s = some t ∧
    t.reg (.rxCfg l.toNat) = storeFlds (Reg.rxCfg l.toNat).flds (s.reg (.rxCfg l.toNat)) d ∧ (t.link l).rx = (s.link l).rx ∧
    ∀ m, m ≠ l → t.link m = s.link m := by
  refine ⟨_, if_neg (by simp [h]), ?_⟩
  unfold State.modLink
  rw [BitVec.ofNat_toNat, BitVec.setWidth_eq, link_setLink, State.setLink_reg_of, reg_rwWrite, link_rwWrite]
  exact ⟨rfl, rfl, fun m hm => (link_setLink_other _ l m _ hm).trans (link_rwWrite ..)⟩

end

/-! ## The status queue (R361, R378) -/

/-- A read at the address that a row of the table fixes, if the register's rules answer it. -/
theorem takes_gaveAt {s t : State} {w : Word} {a : TpAttr} {r : Reg} (h : s.takes a false r) (n : Nat) (hn : n < 2 ^ 20)
    (h4 : n % 4 = 0) (hd : decodeReg s.wings n = some r) (hr : regRead a.sec a.owner r s = some (w, t)) :
    act s (tpRead a n s) = gave a w t := by
  have e : (BitVec.ofNat 20 n).toNat = n := Nat.mod_eq_of_lt hn
  exact takes_gave h (BitVec.ofNat 20 n) 0 (by rw [e]; exact h4) (by rw [e]; exact hd) hr

/-- A read of STQ_HDR pops the status queue. -/
theorem stqHdrRead_pops {a : TpAttr} {l : BitVec 5} {s : State} (htk : s.takes a false (.stqHdr l.toNat)) :
    exec (.stqHdrRead a l) s = gave a (stqPop l s).1 (stqPop l s).2 := by
  have hr : regRead a.sec a.owner (.stqHdr l.toNat) s =
    some ((stqPop (BitVec.ofNat 5 l.toNat) s).1, (stqPop (BitVec.ofNat 5 l.toNat) s).2) := rfl
  rw [BitVec.ofNat_toNat, BitVec.setWidth_eq] at hr
  exact takes_gaveAt htk _ (by omega) (by omega) (dec_link s.wings l).2.2.2 hr

theorem stqPop_empty {l : BitVec 5} {s : State} (h : (s.link l).stq = []) : stqPop l s = (0, s) := by
  unfold stqPop
  rw [h]

/-- The oldest entry leaves the queue, and its credit returns. -/
theorem stqPop_oldest {l : BitVec 5} {s : State} {e : StqEntry} {r : List StqEntry} (h : (s.link l).stq = e :: r) : stqPop l s =
    (packW [(31, 1), (30, b2n e.mark), (16, e.code.toNat), (0, e.ctag.toNat)],
      s.setLink l { s.link l with stq := r, stqPos := e.rcvd, stqData := e.words, relMsgs := (s.link l).relMsgs + 1 }) := by
  unfold stqPop
  rw [h]
  rfl

/-! ## The statement -/

/-- Settles O46: frames by the check that each passes or fails, the accesses by the rule of each register. -/
theorem linkFrames : Obligations.LinkFrames := by
  unfold Obligations.LinkFrames
  intro l s x
  refine ⟨fun i ty accept ht hon hi f hlane hst => ?frame, fun f hack => ⟨fun hnak => trailer_plain hack hnak,
      fun hnak _ hseen => trailer_nak hack hnak hseen⟩,
    fun ht hon hst => ⟨fun hbuf hdue => replayTimeout_replays ht hon hst hbuf hdue, fun hbuf => replayTimeout_idle ht hbuf,
      ackFrameSend_sends ht hon hst⟩,
    fun a d htk => ?flush, fun a d htk => ?rxCfg, fun a htk => ?stqHdr⟩
  case frame =>
    have hrow : exec (i f) s = .next (rxFrame l ty f (accept f) s) := by
      rcases hi with ⟨rfl, rfl, rfl⟩ | ⟨rfl, rfl, rfl⟩ | ⟨rfl, rfl, rfl⟩ | ⟨rfl, rfl, rfl⟩ | ⟨rfl, rfl, rfl⟩ | ⟨rfl, rfl, rfl⟩
      · exact act_next ht _
      · exact act_next ht _
      · simp only [extract_field]
        exact act_next ht _
      · exact act_next ht _
      · simp only [← ofNat_fld]
        exact act_next ht _
      · exact act_next ht _
    have hnak (hn : x.nakOut = false) : s.modLink l Link.nak = s.setLink l { x with nakOut := true, nakCnt := satAdd x.nakCnt 1 } :=
      congrArg (s.setLink l) (nak_first hn)
    rw [hrow]
    refine ⟨fun hcrc => congrArg _ (rxFrame_crc (accept f) hon hst hlane hcrc), fun hcrc hform hlen hmark => ?checked,
      fun htype => by simp [frameForm, htype],
      fun hcrc hbad hn => congrArg _ ((rxFrame_malformed (accept f) hon hst hlane hcrc hbad).trans (congrArg _ (hnak hn)))⟩
    have hjudged := rxFrame_checked (accept f) hon hst hlane hcrc hform hlen hmark
    rw [hjudged]
    refine ⟨fun hty => ?control, fun hty hseq hlim => ?accepted, fun hty hseq hlim => ?beyond, fun hty hseq hrep => ?again,
      fun hty hseq hgap hn => ?gap⟩
    case control => rw [if_pos hty]
    case accepted =>
      rw [if_neg (by omega), if_pos hseq, if_pos hlim]
      rfl
    case beyond => rw [if_neg (by omega), if_pos hseq, if_neg (by rw [hlim]; decide)]
    case again =>
      rw [if_neg (by omega), if_neg hseq, if_pos hrep]
      rfl
    case gap => rw [if_neg (by omega), if_neg hseq, if_neg (not_le.mpr hgap), hnak hn]
  case flush =>
    have hw := regWrite_flush (l := l) (s := s) a.sec a.owner d
    have hd := (dec_link s.wings l).2.2.1
    refine ⟨fun hbusy => takes_deniedAt htk _ _ (by omega) (by omega) hd (hw.trans (linkFlush_busy hbusy)), fun hfree => ?_⟩
    obtain ⟨t, hflush, hafter⟩ := linkFlush_empties hfree
    exact ⟨t, takes_wroteAt htk _ _ (by omega) (by omega) hd (hw.trans hflush), hafter⟩
  case rxCfg =>
    have hd := (dec_link s.wings l).2.1
    refine ⟨fun hr => takes_deniedAt htk _ d (by omega) (by omega) hd (rxCfgWrite_refused hr), fun hr => ?_⟩
    obtain ⟨t, hstored, hafter⟩ := rxCfgWrite_stores hr
    exact ⟨t, takes_wroteAt htk _ d (by omega) (by omega) hd hstored, hafter⟩
  case stqHdr =>
    have hpop := stqHdrRead_pops htk
    refine ⟨fun hnone => ?_, fun e r hsome => ?_⟩
    · rw [hpop, stqPop_empty hnone]
    · rw [hpop, stqPop_oldest hsome]

end Sys2Proof.Machine
end

section
/-! DispatchDecisions does not hold: a microsecond is 1,600 ticks (R22), and the statement ages a ready channel by every 100 of them. -/

namespace Sys2Proof.Machine

/-- 10,000 ticks, 6.25 µs, after time 0, with AGE at its reset value of 100 µs: channel 1, of PRIO 0, has been ready since time 0, and
channel 2, of PRIO 1, since now. -/
def sixMicroseconds : State :=
  { tbs := { time := 10000 }, chans := [(1, { readyAt := some 0 }), (2, { ctrl := 0x1000, readyAt := some 10000 })] }

/-- Refutes O27: after 6.25 µs of readiness R384 adds nothing to PRIO where AGE is 100 µs, so channel 2 goes first. The statement counts
10,000 / 100 / 100 = 1 for the age of channel 1, which would make it equal in priority and longer ready. -/
theorem not_dispatchDecisions : ¬ Obligations.DispatchDecisions := by
  unfold Obligations.DispatchDecisions
  rintro ⟨-, hchan, -⟩
  have hbehind : chanBefore sixMicroseconds 1 2 = false := by decide
  have hahead : chanBefore sixMicroseconds 1 2 = true := (hchan sixMicroseconds 1 2).mpr (Or.inr (by decide))
  exact absurd (hbehind.symm.trans hahead) Bool.false_ne_true

end Sys2Proof.Machine
end

section
/-! Arbiters and the transactions they grant: what a read returns after a change. -/

namespace Sys2Proof.Machine

@[simp] theorem arb_modArb (s : State) (a : Nat) (f : Arb → Arb) : (s.modArb a f).arb a = f (s.arb a) := Tbl.get_put_same ..

theorem arb_modArb_other (s : State) {a b : Nat} (f : Arb → Arb) (h : b ≠ a) : (s.modArb a f).arb b = s.arb b :=
  Tbl.get_put_other _ _ _ _ _ h

theorem arb_of_arbs {s t : State} (h : s.arbs = t.arbs) (a : Nat) : s.arb a = t.arb a := by
  unfold State.arb
  rw [h]

/-- A transaction after one of them is changed: another one as it was, or that one changed. -/
theorem mem_txns_modTxn {s : State} {k : Nat} {f : Txn → Txn} {x : Txn} :
    x ∈ (s.modTxn k f).txns ↔ (x ∈ s.txns ∧ x.id ≠ k) ∨ ∃ y ∈ s.txns, y.id = k ∧ f y = x := by
  unfold State.modTxn
  rw [List.mem_map]
  constructor
  · rintro ⟨y, hy, rfl⟩
    split
    · exact .inr ⟨y, hy, ‹_›, rfl⟩
    · exact .inl ⟨hy, ‹_›⟩
  · rintro (⟨hx, hk⟩ | ⟨y, hy, hk, rfl⟩)
    · exact ⟨x, hx, if_neg hk⟩
    · exact ⟨y, hy, if_pos hk⟩

@[simp] theorem length_txns_modTxn (s : State) (k : Nat) (f : Txn → Txn) : (s.modTxn k f).txns.length = s.txns.length :=
  List.length_map _

end Sys2Proof.Machine
end

section
/-! The grant watchdog (R399, R400). -/

namespace Sys2Proof.Machine

/-- The watchdog of an arbiter whose grantee stands in front of the next stage counts the cycles of a tick in which everything downstream
is ready (R399). -/
theorem wdog_wdogTick {s : State} {a : Nat} {t : Txn} (h : grantBurst s a = some t) :
    ((wdogTick a s).arb a).wdog = (s.arb a).wdog + (if downstreamReady s a t then arbMHz s a else 0) := by
  unfold wdogTick
  rw [h]
  by_cases hr : downstreamReady s a t = true <;> simp [hr]

theorem wdogTick_idle {s : State} {a : Nat} (h : grantBurst s a = none) : wdogTick a s = s := by
  unfold wdogTick
  rw [h]

/-- A bite concerns the burst of the last grant and its requester, once WDOG × 16 cycles have been counted (R399). -/
theorem bitten_iff (s : State) (a : Nat) (t : Txn) (r : Nat) :
    bitten s a = some (t, r) ↔ grantBurst s a = some t ∧ (∃ k, (s.arb a).grant = some (k, r)) ∧
      16 * fld (s.app (.arbCfg a)) 16 8 * 1600 ≤ (s.arb a).wdog := by
  unfold bitten ticksUs
  cases hb : grantBurst s a with
  | none => simp
  | some u =>
    cases hg : (s.arb a).grant with
    | none => simp
    | some g =>
      obtain ⟨k, q⟩ := g
      by_cases hc : 16 * fld (s.app (.arbCfg a)) 16 8 * 1600 ≤ (s.arb a).wdog <;> simp [hc]

/-- What the torn burst is still for: ring traffic is issued again apart from it (R400, R565). -/
def Txn.tornPurpose (t : Txn) : Purpose :=
  match t.purpose with
  | .release _ | .mirror _ | .haltNotice _ | .entry _ _ | .writeBack | .loader _ => .evict
  | p => p

/-- What a bite does before the arbiter's source is asserted: the burst is torn, and the grant is released (R399). -/
def biteTears (a : Nat) (t : Txn) (s : State) : State :=
  (s.modTxn t.id (fun x => { x with torn := true, discard := true, purpose := t.tornPurpose })).modArb a
    (fun x => { x with bite := true, grant := none })

/-- What a bite reports: the burst's channel and address, its engine at a gallery arbiter, and the requester (R399). -/
def biteInfo (a : Nat) (t : Txn) (r : Nat) (s : State) : FaultInfo :=
  { ch := t.chan? s, eng := if a < 32 then t.gal else none, cls := 4, addr := t.addr, inst := BitVec.ofNat 8 r, inj := false }

theorem arb_biteTears (a : Nat) (t : Txn) (s : State) :
    ((biteTears a t s).arb a).bite = true ∧ ((biteTears a t s).arb a).grant = none ∧ ∀ b, b ≠ a → (biteTears a t s).arb b = s.arb b := by
  refine ⟨?_, ?_, fun b hb => arb_modArb_other _ _ hb⟩ <;> simp [biteTears]

theorem txns_biteTears (a : Nat) (t : Txn) (s : State) :
    (∀ x ∈ (biteTears a t s).txns, x.id = t.id → x.torn = true ∧ x.discard = true) ∧
      (∀ x ∈ s.txns, x.id ≠ t.id → x ∈ (biteTears a t s).txns) ∧ (biteTears a t s).txns.length = s.txns.length := by
  refine ⟨fun x hx hk => ?_, fun x hx hk => mem_txns_modTxn.mpr (.inl ⟨hx, hk⟩), length_txns_modTxn ..⟩
  obtain ⟨-, hne⟩ | ⟨y, -, -, rfl⟩ := mem_txns_modTxn.mp hx
  · exact absurd hk hne
  · exact ⟨rfl, rfl⟩

section
variable {arb : ArbId} {s : State} (ht : s.boot.tstMode = false)
include ht

theorem grantWatchdogBite_idle (h : bitten s (arbIdx arb) = none) : exec (.grantWatchdogBite arb) s = .next s := by
  refine (act_next ht _).trans (congrArg _ ?_)
  simp only [h]

/-- A bite tears the grantee's burst and asserts the arbiter's source; ring traffic is issued again (R399, R400). -/
theorem grantWatchdogBite_tears {t : Txn} {r : Nat} (h : bitten s (arbIdx arb) = some (t, r)) :
    exec (.grantWatchdogBite arb) s = .next (reissueRing t (assertFault (arbSrc (arbIdx arb)) (biteInfo (arbIdx arb) t r s)
      (biteTears (arbIdx arb) t s))) := by
  refine (act_next ht _).trans (congrArg _ ?_)
  dsimp only
  rw [h]
  rfl

end

/-- Settles O30: a tick and a bite by their own rules; what a bite leaves is that of `biteTears`, before its source is asserted. -/
theorem watchdogBites : Obligations.WatchdogBites := by
  unfold Obligations.WatchdogBites
  intro arb s ht a
  refine ⟨fun t => wdog_wdogTick, wdogTick_idle, bitten_iff s a, grantWatchdogBite_idle ht, fun t r hb => ?_⟩
  obtain ⟨hbite, hgrant, hothers⟩ := arb_biteTears a t s
  obtain ⟨htorn, hkeep, hlen⟩ := txns_biteTears a t s
  exact ⟨biteTears a t s, biteInfo a t r s, grantWatchdogBite_tears ht hb, rfl, rfl, rfl, rfl, hbite, hgrant, hothers, htorn, hkeep, hlen,
    rfl, rfl⟩

end Sys2Proof.Machine
end

section
/-! The requester that a grant point chooses (R391 to R393, R395). -/

namespace Sys2Proof.Machine

theorem argMax_eq_none_iff (f : Nat → Int) (l : List Nat) : argMax f l = none ↔ l = [] := by
  cases l with
  | nil => simp [argMax]
  | cons a l =>
    unfold argMax
    split
    · split <;> simp
    · simp

/-- What `argMax` picks is in the list, and nothing in the list has a higher value. -/
theorem argMax_spec {f : Nat → Int} {l : List Nat} {r : Nat} (h : argMax f l = some r) : r ∈ l ∧ ∀ q ∈ l, f q ≤ f r := by
  induction l generalizing r with
  | nil => exact absurd h (by simp [argMax])
  | cons a l ih =>
    unfold argMax at h
    split at h
    next b hb =>
      obtain ⟨hmem, hmax⟩ := ih hb
      simp only [List.mem_cons, forall_eq_or_imp]
      split at h <;> cases h
      next hlt => exact ⟨.inr hmem, le_of_lt hlt, hmax⟩
      next hle => exact ⟨.inl rfl, le_refl _, fun q hq => (hmax q hq).trans (not_lt.mp hle)⟩
    next hb =>
      cases h
      simp [(argMax_eq_none_iff f l).mp hb]

/-- The highest number of a list, or the start value where none is higher. -/
theorem foldl_max_spec (l : List Nat) (m : Nat) :
    (∀ x ∈ l, x ≤ l.foldl max m) ∧ m ≤ l.foldl max m ∧ (l.foldl max m = m ∨ l.foldl max m ∈ l) := by
  induction l generalizing m with
  | nil => simp
  | cons a l ih =>
    obtain ⟨hall, hm, hat⟩ := ih (max m a)
    simp only [List.foldl_cons, List.mem_cons, forall_eq_or_imp]
    refine ⟨⟨(le_max_right m a).trans hm, hall⟩, (le_max_left m a).trans hm, ?_⟩
    rcases hat with hat | hat
    · rcases max_choice m a with h | h
      · exact .inl (hat.trans h)
      · exact .inr (.inl (hat.trans h))
    · exact .inr (.inr hat)

/-- The slot of the wheel at which arbiter `a` stands names requester `r`, which is not cordoned (R391, R397). -/
def WheelNames (s : State) (a r : Nat) : Prop :=
  let code := fld (s.app (.arbWheel a ((s.arb a).ptr.toNat / 4))) (8 * ((s.arb a).ptr.toNat % 4)) 8
  128 ≤ code ∧ r = code % 32 ∧ reqCordoned s a r = false

/-- The requesters of the highest priority (R391). -/
def topRanked (s : State) (a : Nat) (rs : List Nat) : List Nat :=
  rs.filter (fun r => arbPrioOf s a r == (rs.map (arbPrioOf s a)).foldl max 0)

section
variable {s : State} {a : Nat} {rs : List Nat}

theorem mem_topRanked {r : Nat} (h : r ∈ topRanked s a rs) : r ∈ rs ∧ ∀ q ∈ rs, arbPrioOf s a q ≤ arbPrioOf s a r := by
  obtain ⟨hr, htop⟩ := List.mem_filter.mp h
  refine ⟨hr, fun q hq => ?_⟩
  rw [eq_of_beq htop]
  exact (foldl_max_spec _ 0).1 _ (List.mem_map_of_mem hq)

theorem topRanked_ne_nil (h : rs ≠ []) : topRanked s a rs ≠ [] := by
  obtain ⟨r, hr⟩ := List.exists_mem_of_ne_nil rs h
  obtain ⟨hall, -, hat⟩ := foldl_max_spec (rs.map (arbPrioOf s a)) 0
  have hattained : ∃ q ∈ rs, arbPrioOf s a q = (rs.map (arbPrioOf s a)).foldl max 0 := by
    rcases hat with hzero | hmem
    · refine ⟨r, hr, ?_⟩
      have := hall _ (List.mem_map_of_mem hr)
      omega
    · exact List.mem_map.mp hmem
  obtain ⟨q, hq, htop⟩ := hattained
  exact List.ne_nil_of_mem (List.mem_filter.mpr ⟨hq, beq_iff_eq.mpr htop⟩)

/-- A grant point's choice, in the order of R391 and R395: of the requesters whose wait counter has reached the limit the one that has
waited longest; else the one that the wheel names; else one of the highest priority. -/
theorem chooseGrant_cases {r : Nat} {forced : Bool} {cr : Tbl Int} (h : chooseGrant s a rs = some (r, forced, cr)) :
    let lim := fld (s.app (.arbCfg a)) 24 8
    let wait := fun q => Tbl.get 0 (s.arb a).waits q
    (forced = true ∧ r ∈ rs ∧ lim ≤ wait r ∧ ∀ q ∈ rs, wait q ≤ wait r) ∨
    (forced = false ∧ (∀ q ∈ rs, wait q < lim) ∧ ((r ∈ rs ∧ WheelNames s a r) ∨ r ∈ topRanked s a rs)) := by
  intro lim wait
  unfold chooseGrant at h
  dsimp only at h
  split at h
  next q hq =>
    cases h
    obtain ⟨hmem, hmax⟩ := argMax_spec hq
    simp only [List.mem_filter, decide_eq_true_eq, Int.ofNat_le, and_imp] at hmem hmax
    obtain ⟨hr, hlim⟩ := hmem
    refine .inl ⟨rfl, hr, hlim, fun q hq => ?_⟩
    by_cases hqlim : lim ≤ wait q
    · exact hmax q hq hqlim
    · exact (le_of_not_ge hqlim).trans hlim
  next hnone =>
    have hnot : ∀ q ∈ rs, wait q < lim := by
      simpa [argMax_eq_none_iff, List.filter_eq_nil_iff] using hnone
    refine .inr ?_
    split at h
    next hwheel =>
      cases h
      obtain ⟨hcode, hreq, hcord⟩ := hwheel
      exact ⟨rfl, hnot, .inl ⟨by simpa using hreq, hcode, rfl, by simpa using hcord⟩⟩
    next =>
      split at h
      next q hq =>
        cases h
        exact ⟨rfl, hnot, .inr (argMax_spec hq).1⟩
      next => cases h

/-- Whenever somebody requests, somebody wins (R391). -/
theorem chooseGrant_ne_none (h : rs ≠ []) : chooseGrant s a rs ≠ none := by
  unfold chooseGrant
  dsimp only
  split
  · simp
  · split
    · simp
    · split
      next => simp
      next hnone => exact absurd ((argMax_eq_none_iff _ _).mp hnone) (topRanked_ne_nil h)

theorem chooseGrant_nil : chooseGrant s a [] = none := by
  simp [chooseGrant, argMax]

section
variable {r : Nat} {forced : Bool} {cr : Tbl Int} (h : chooseGrant s a rs = some (r, forced, cr))
include h

theorem chooseGrant_mem : r ∈ rs := by
  obtain ⟨-, hr, -⟩ | ⟨-, -, ⟨hr, -⟩ | hr⟩ := chooseGrant_cases h
  · exact hr
  · exact hr
  · exact (mem_topRanked hr).1

/-- A win is forced exactly where a requester's wait counter has reached the limit (R395). -/
theorem chooseGrant_forced_iff : forced = true ↔ ∃ q ∈ rs, fld (s.app (.arbCfg a)) 24 8 ≤ Tbl.get 0 (s.arb a).waits q := by
  obtain ⟨rfl, hr, hlim, -⟩ | ⟨rfl, hnot, -⟩ := chooseGrant_cases h
  · exact ⟨fun _ => ⟨r, hr, hlim⟩, fun _ => rfl⟩
  · refine ⟨fun hf => absurd hf Bool.false_ne_true, fun ⟨q, hq, hlim⟩ => absurd hlim (not_le.mpr (hnot q hq))⟩

/-- A forced win goes to the requester that has waited longest (R395). -/
theorem chooseGrant_longest (hf : forced = true) {q : Nat} (hq : q ∈ rs) :
    Tbl.get 0 (s.arb a).waits q ≤ Tbl.get 0 (s.arb a).waits r := by
  obtain ⟨-, -, -, hmax⟩ | ⟨hf', -⟩ := chooseGrant_cases h
  · exact hmax q hq
  · cases hf.symm.trans hf'

/-- A win that is not forced follows the wheel or the priorities (R391). -/
theorem chooseGrant_unforced (hf : forced = false) : (∀ q ∈ rs, arbPrioOf s a q ≤ arbPrioOf s a r) ∨ WheelNames s a r := by
  obtain ⟨hf', -⟩ | ⟨-, -, ⟨-, hw⟩ | hr⟩ := chooseGrant_cases h
  · cases hf.symm.trans hf'
  · exact .inr hw
  · exact .inl (mem_topRanked hr).2

end

end

end Sys2Proof.Machine
end

section
/-! What a grant changes (R390, R391, R395). -/

namespace Sys2Proof.Machine

/-! ## The winner's burst -/

/-- The transactions and the arbiters. -/
def State.fabric (s : State) : List Txn × Tbl Arb := (s.txns, s.arbs)

theorem fabric_settle (ch : BitVec 12) (s : State) : (settle ch s).fabric = s.fabric := by
  unfold settle
  dsimp only
  split
  · split <;> rfl
  · split <;> rfl

theorem fabric_pauseEngine (ch : BitVec 12) (e : EngId) (s : State) : (pauseEngine ch e s).fabric = s.fabric := by
  unfold pauseEngine
  dsimp only
  split <;> rfl

theorem fabric_dataDone (e : EngId) (x : Txn) (n : Bool) (c : BitVec 3) (s : State) : (dataDone e x n c s).fabric = s.fabric := by
  unfold dataDone
  extract_lets y killed s1 d
  have hs1 : s1.fabric = s.fabric := by
    unfold s1
    split
    · rfl
    · split
      · split <;> rfl
      · rfl
  split
  · exact (fabric_pauseEngine ..).trans hs1
  · exact hs1

theorem fabric_tmAdd (k n : Nat) (s : State) : (tmAdd k n s).fabric = s.fabric := by
  unfold tmAdd
  split <;> rfl

/-- A Stream Link that takes a burst drops it, and touches no other burst and no arbiter (R151, R375). -/
theorem fabric_linkGrant (t : Txn) (s : State) : (linkGrant t s).fabric = (s.dropTxn t.id).fabric := by
  unfold linkGrant
  extract_lets l s1
  split
  · split <;> rfl
  · split
    · exact fabric_settle ..
    · split
      · exact (fabric_settle ..).trans (fabric_dataDone ..)
      · split
        · exact (fabric_settle ..).trans ((fabric_dataDone ..).trans (fabric_tmAdd ..))
        · exact (fabric_settle ..).trans (fabric_dataDone ..)
  · rfl

section
variable {a : Nat} {t : Txn} {s : State}

/-- What the fabric answers itself goes on to its answer (R618). -/
theorem grantTo_forced (h : t.forced ≠ none) : grantTo a t s = (none, s.modTxn t.id (fun x => { x with stage := .sent, beats := 0 })) :=
  if_pos (Option.isSome_iff_ne_none.mpr h)

section
variable (hf : t.forced = none)
include hf

/-- A burst of Docent that goes no further is taken back (R585). -/
theorem grantTo_turns (h : t.turns = true) : grantTo a t s = (none, s.dropTxn t.id) := by
  simp [grantTo, hf, h]

theorem grantTo_advances (h : t.turns = false) (ha : a < 96) : grantTo a t s = (some t.id, advanceTxn t s) := by
  simp [grantTo, hf, h, ha]

theorem grantTo_link (h : t.turns = false) (ha : 96 ≤ a) : grantTo a t s = (none, linkGrant t s) := by
  simp [grantTo, hf, h, ha]

end

theorem arbs_grantTo (a : Nat) (t : Txn) (s : State) : (grantTo a t s).2.arbs = s.arbs := by
  unfold grantTo
  split
  · rfl
  · split
    · rfl
    · split
      · exact congrArg Prod.snd (fabric_linkGrant t s)
      · rfl

end

/-! ## The arbiter's counters -/

/-- Wait counters after a grant point at which `rs` request and `r` wins (R395). -/
def waitsAfter (rs : List Nat) (r : Nat) (w : Tbl Nat) : Tbl Nat :=
  rs.foldl (fun l q => Tbl.put 0 l q (if q = r then 0 else Tbl.get 0 l q + 1)) w

theorem waits_arbAfter (rs : List Nat) (r : Nat) (held : Option Nat) (cr : Tbl Int) (x : Arb) :
    (arbAfter rs r held cr x).waits = waitsAfter rs r x.waits := rfl

theorem waitsAfter_idle {rs : List Nat} {q : Nat} (r : Nat) (w : Tbl Nat) (h : q ∉ rs) :
    Tbl.get 0 (waitsAfter rs r w) q = Tbl.get 0 w q := by
  induction rs generalizing w with
  | nil => rfl
  | cons p rs ih =>
    obtain ⟨hp, hrs⟩ := not_or.mp (mt List.mem_cons.mpr h)
    exact (ih _ hrs).trans (Tbl.get_put_other _ _ _ _ _ hp)

theorem waitsAfter_winner {rs : List Nat} {r : Nat} (w : Tbl Nat) (h : r ∈ rs) : Tbl.get 0 (waitsAfter rs r w) r = 0 := by
  induction rs generalizing w with
  | nil => cases h
  | cons p rs ih =>
    by_cases hr : r ∈ rs
    · exact ih _ hr
    · obtain rfl : r = p := (List.mem_cons.mp h).resolve_right hr
      refine (waitsAfter_idle r _ hr).trans ?_
      simp

/-- The state after arbiter `a`, at which `rs` request, has granted requester `r` its burst `t`. -/
def granted (a : Nat) (rs : List Nat) (r : Nat) (cr : Tbl Int) (t : Txn) (s : State) : State :=
  docentGranted a t (arbLeft r a ((grantTo a t s).2.modArb a (arbAfter rs r (grantTo a t s).1 cr)))

theorem arb_docentGranted (a : Nat) (x : Txn) (s : State) :
    (∃ gap, (docentGranted a x s).arb a = { s.arb a with docGap := gap }) ∧ (∀ b, b ≠ a → (docentGranted a x s).arb b = s.arb b) ∧
      (docentGranted a x s).txns = s.txns := by
  unfold docentGranted
  split
  · split
    · dsimp only
      split
      · exact ⟨⟨_, arb_modArb ..⟩, fun b hb => arb_modArb_other _ _ hb, rfl⟩
      · exact ⟨⟨_, rfl⟩, fun _ _ => rfl, rfl⟩
    · exact ⟨⟨_, rfl⟩, fun _ _ => rfl, rfl⟩
  · exact ⟨⟨_, rfl⟩, fun _ _ => rfl, rfl⟩

theorem arb_arbLeft (r a : Nat) (s : State) : ∃ left, (arbLeft r a s).arb a = { s.arb a with leftAt := left } := ⟨_, arb_modArb ..⟩

section
variable (a : Nat) (rs : List Nat) (r : Nat) (cr : Tbl Int) (t : Txn) (s : State)

/-- What a grant does to its arbiter: the counters of R391 and R395, the requesters that have left, and the gap of Docent's work. -/
theorem arb_granted : ∃ gap left, (granted a rs r cr t s).arb a =
    { arbAfter rs r (grantTo a t s).1 cr (s.arb a) with docGap := gap, leftAt := left } := by
  let v := (grantTo a t s).2.modArb a (arbAfter rs r (grantTo a t s).1 cr)
  obtain ⟨⟨gap, hgap⟩, -, -⟩ := arb_docentGranted a t (arbLeft r a v)
  obtain ⟨left, hleft⟩ := arb_arbLeft r a v
  refine ⟨gap, left, hgap.trans ?_⟩
  rw [hleft, arb_modArb, arb_of_arbs (arbs_grantTo a t s)]

theorem arb_granted_other {b : Nat} (h : b ≠ a) : (granted a rs r cr t s).arb b = s.arb b := by
  obtain ⟨-, hothers, -⟩ := arb_docentGranted a t
    (arbLeft r a ((grantTo a t s).2.modArb a (arbAfter rs r (grantTo a t s).1 cr)))
  refine (hothers b h).trans ?_
  unfold arbLeft
  rw [arb_modArb_other _ _ h, arb_modArb_other _ _ h, arb_of_arbs (arbs_grantTo a t s)]

theorem txns_granted : (granted a rs r cr t s).txns = (grantTo a t s).2.txns := (arb_docentGranted a t _).2.2

theorem grant_granted : ((granted a rs r cr t s).arb a).grant = (grantTo a t s).1.map (fun k => (k, r)) := by
  obtain ⟨gap, left, h⟩ := arb_granted a rs r cr t s
  rw [h]
  rfl

end

/-! ## Grant points -/

/-- The state at which an arbiter finds its resource free or not: traffic for a domain that is not open has been held (R618). -/
def atGrantPoint (a : Nat) (s : State) : State := if 64 ≤ a then holdTraffic (a - 64) s else s

section
variable {arb : ArbId} {s : State} (ht : s.boot.tstMode = false)
include ht

theorem arbiterGrantPoint_busy (h : resourceFree (atGrantPoint (arbIdx arb) s) (arbIdx arb) = false) :
    exec (.arbiterGrantPoint arb) s = .next (atGrantPoint (arbIdx arb) s) :=
  (act_next ht _).trans (congrArg _ (if_pos (congrArg not h)))

variable (hfree : resourceFree (atGrantPoint (arbIdx arb) s) (arbIdx arb) = true)
include hfree

/-- Where the resource is free, tests of Docent ask first, and then the choice is made (R390, R585). -/
theorem arbiterGrantPoint_free : exec (.arbiterGrantPoint arb) s = .next
    (let a := arbIdx arb
     let u := docentAsk a (atGrantPoint a s)
     match chooseGrant u a (requesting u a) with
     | none => u
     | some (r, forced, cr) =>
       match headOf u a r with
       | none => u
       | some t => if forced then starved a r (granted a (requesting u a) r cr t u) else granted a (requesting u a) r cr t u) :=
  (act_next ht _).trans (congrArg _ (if_neg (ne_true_of_eq_false (congrArg not hfree))))

theorem arbiterGrantPoint_idle (h : requesting (docentAsk (arbIdx arb) (atGrantPoint (arbIdx arb) s)) (arbIdx arb) = []) :
    exec (.arbiterGrantPoint arb) s = .next (docentAsk (arbIdx arb) (atGrantPoint (arbIdx arb) s)) := by
  refine (arbiterGrantPoint_free ht hfree).trans ?_
  dsimp only
  rw [h, chooseGrant_nil]

/-- The requester chosen is granted its first burst; a forced win is reported besides (R395). -/
theorem arbiterGrantPoint_grants {u : State} (hu : docentAsk (arbIdx arb) (atGrantPoint (arbIdx arb) s) = u) {r : Nat} {forced : Bool}
    {cr : Tbl Int} {t : Txn} (hc : chooseGrant u (arbIdx arb) (requesting u (arbIdx arb)) = some (r, forced, cr))
    (hd : headOf u (arbIdx arb) r = some t) : exec (.arbiterGrantPoint arb) s = .next
      (let v := granted (arbIdx arb) (requesting u (arbIdx arb)) r cr t u
       if forced then starved (arbIdx arb) r v else v) := by
  refine (arbiterGrantPoint_free ht hfree).trans ?_
  dsimp only
  rw [hu, hc]
  dsimp only
  rw [hd]

end

/-- Settles O29: the choice by what `chooseGrant` can answer, the grant by what becomes of the winner's burst and of its arbiter. -/
theorem grants : Obligations.Grants := by
  unfold Obligations.Grants
  refine ⟨fun s a rs => ⟨chooseGrant_ne_none, fun r forced cr h => ⟨chooseGrant_mem h, chooseGrant_forced_iff h,
    fun hf q hq => chooseGrant_longest h hf hq, chooseGrant_unforced h⟩⟩, fun arb s0 ht => ?point⟩
  case point =>
    intro a s1 s
    refine ⟨arbiterGrantPoint_busy ht, arbiterGrantPoint_idle ht, fun r forced cr t hfree hc hd => ?_⟩
    have hothers (b : Nat) := arb_granted_other a (requesting s a) r cr t s (b := b)
    have htxns := txns_granted a (requesting s a) r cr t s
    have hgrant := grant_granted a (requesting s a) r cr t s
    obtain ⟨gap, left, harb⟩ := arb_granted a (requesting s a) r cr t s
    refine ⟨granted a (requesting s a) r cr t s, arbiterGrantPoint_grants ht hfree rfl hc hd, ?ptr, ?credits, ?winner, ?wdog,
      fun q hq => ?others, fun hf => ?forced, fun hf hturns => ?turns, fun hf hturns ha => ?advances, fun hf hturns ha => ?link⟩
    case ptr => rw [harb]; rfl
    case credits => rw [harb]; rfl
    case winner => rw [harb]; exact waitsAfter_winner _ (chooseGrant_mem hc)
    case wdog => rw [harb]; rfl
    case others => rw [harb]; exact waitsAfter_idle r _ hq
    case forced => rw [hgrant, htxns, grantTo_forced hf]; exact ⟨rfl, rfl⟩
    case turns => rw [hgrant, htxns, grantTo_turns hf hturns]; exact ⟨rfl, rfl⟩
    case advances => rw [hgrant, htxns, grantTo_advances hf hturns ha]; exact ⟨rfl, hothers, rfl⟩
    case link =>
      rw [hgrant, htxns, grantTo_link hf hturns ha]
      have hdrop : (linkGrant t s).txns = s.txns.filter (fun x => x.id != t.id) := congrArg Prod.fst (fabric_linkGrant t s)
      rw [hdrop]
      exact ⟨rfl, fun x hx => by simpa using (List.mem_filter.mp hx).2⟩

end Sys2Proof.Machine
end

section
/-! The state after reset (R481 to R484, R501, R644). -/

namespace Sys2Proof.Machine

theorem reset_sound : State.reset.Sound := ⟨rfl, Nat.zero_le _, Nat.zero_le _, Nat.zero_le _⟩

/-- Domain 0, AO, is the one domain that reset leaves ON. -/
theorem reset_dom (d : Nat) : (State.reset.dom d).st = if d = 0 then .on else .off := by
  show (if d = 0 then ({ st := .on, target := .on } : Dom) else {}).st = _
  split <;> rfl

theorem engIdx_slot (e : EngId) : engIdx e % 17 = e.slot.val := by
  rw [engIdx, Nat.mul_comm, Nat.mul_add_mod, Nat.mod_eq_of_lt e.slot.isLt]

/-- Slot 16 of each gallery is the spare that reset leaves (Table 17-7). -/
theorem reset_slot (e : EngId) : (State.reset.slot e).st = if e.slot.val = 16 then .spare else .service := by
  show (slotRst (engIdx e)).st = _
  rw [slotRst, engIdx_slot]
  split <;> rfl

/-- Settles O59: the sparse tables of reset are empty but for AO's domain and LEDGER_START, so that a read gives the reset value. -/
theorem resetState : Obligations.ResetState := by
  unfold Obligations.ResetState
  exact ⟨reset_sound, rfl, rfl, rfl, rfl, rfl, reset_dom, fun _ => ⟨rfl, rfl, rfl⟩, fun _ => ⟨rfl, rfl⟩, fun _ => rfl, fun _ => rfl,
    fun e => ⟨rfl, reset_slot e⟩, rfl, rfl, rfl⟩

end Sys2Proof.Machine
end

section
/-! The fault state, FLT_N and injection (R552 to R556, R573 to R575). -/

namespace Sys2Proof.Machine

/-! ## What producers outside CORE leave unchanged -/

@[simp] theorem fcr_emitT (ps : List Nat) (s : State) : (emitT ps s).fcr = s.fcr := by
  have h := congrArg State.fcr (butReactions_emitT ps s)
  exact h

@[simp] theorem fcr_modFcr (s : State) (f : Fcr → Fcr) : (s.modFcr f).fcr = f s.fcr := rfl

/-! ## FLT_CTRL (R553, R554) -/

section
variable {a : TpAttr} {s : State}

theorem regWrite_fltCtrl (sec : Bool) (owner : Byte) (v : Word) (s : State) :
    regWrite sec owner .fltCtrl v s = some (fltCtrlTo v s) := rfl

/-- A write of FLT_CTRL with RELEASE clears latch and pulse, and stores the other fields. -/
theorem fltRelease_releases (h : s.takes a true .fltCtrl) (d : Word) : ∃ t, exec (.fltRelease a d) s = wrote a t ∧
    t.fcr = { s.fcr with latch := false, pulse := false } ∧ t.reg .fltCtrl = packW [(2, fld d 2 1), (0, fld d 0 2)] := by
  have hrel : bit (setFld d 3 1 1) 3 = true := by simp [bit_setFld]
  have hforce : fld (setFld d 3 1 1) 2 1 = fld d 2 1 := fld_setFld_other d 3 1 1 2 1 (by decide)
  have hmode : fld (setFld d 3 1 1) 0 2 = fld d 0 2 := fld_setFld_other d 3 1 1 0 2 (by decide)
  refine ⟨_, takes_wroteAt h 0xC01C _ (by decide) (by decide) rfl (regWrite_fltCtrl ..), ?_, ?_⟩
  · rw [fltCtrlTo, if_pos hrel]
    rfl
  · rw [fltCtrlTo, if_pos hrel, ← hforce, ← hmode]
    exact reg_setReg s .fltCtrl _

/-! ## The quiet period (R555, R556) -/

variable (ht : s.boot.tstMode = false)
include ht

theorem faultQuietEnd_ends (hon : fcrOn s = true) (hact : s.fcr.active = true) (hset : fcrSettled s = true)
    (hq : fld (s.app .rcvCfg) 24 8 * 1600000 ≤ (s.now - s.fcr.quietFrom).toNat) : ∃ t, exec .faultQuietEnd s = .next t ∧
      t.fcr = { s.fcr with active := false, exits := satAdd s.fcr.exits 1 } := by
  have hperiod : fld (s.app .rcvCfg) 24 8 * ticksMs ≤ (s.now - s.fcr.quietFrom).toNat := hq
  exact ⟨_, (act_next ht _).trans (congrArg _ (if_pos (by
    simp only [hon, hact, hset, decide_eq_true hperiod, Bool.and_self]))), fcr_emitT ..⟩

theorem faultQuietEnd_runs (hq : (s.now - s.fcr.quietFrom).toNat < fld (s.app .rcvCfg) 24 8 * 1600000) :
    exec .faultQuietEnd s = .next s := by
  have hperiod : ¬ fld (s.app .rcvCfg) 24 8 * ticksMs ≤ (s.now - s.fcr.quietFrom).toNat := Nat.not_le.mpr hq
  exact (act_next ht _).trans (congrArg _ (if_neg (by
    simp only [decide_eq_false hperiod, Bool.and_false, Bool.false_eq_true, not_false_eq_true])))

theorem faultQuietEnd_open (hset : fcrSettled s = false) : exec .faultQuietEnd s = .next s :=
  (act_next ht _).trans (congrArg _ (if_neg (by simp [hset])))

/-! ## Injection (R573 to R575) -/

omit ht

/-- INJ_CTRL with GO: refused in the cases of R574, and otherwise the injection is armed. -/
theorem injCtrlWrite_go (sec : Bool) (d : Word) (s : State) : injCtrlWrite sec (setFld d 31 1 1) s =
    if !sec || s.fcr.injBusy || fld (s.reg .injSel) 16 9 == 262 || fld (s.reg .injSel) 16 9 == 263 || s.fcr.unguarded then none
    else some ((s.setReg .injCtrl (packW [(28, fld d 28 2)])).modFcr (fun f => { f with
      injBusy := true, injSrc := BitVec.ofNat 9 (fld (s.reg .injSel) 16 9), injInst := BitVec.ofNat 8 (fld (s.reg .injSel) 8 8),
      injMode := d.extractLsb' 28 2 })) := by
  have hgo : bit (setFld d 31 1 1) 31 = true := by simp [bit_setFld]
  have hmode : fld (setFld d 31 1 1) 28 2 = fld d 28 2 := fld_setFld_other d 31 1 1 28 2 (by decide)
  simp only [injCtrlWrite, hgo, hmode, Bool.true_and, if_true, ← ofNat_fld d 28 2]

theorem regWrite_injCtrl (sec : Bool) (owner : Byte) (v : Word) (s : State) :
    regWrite sec owner .injCtrl v s = injCtrlWrite sec v s := rfl

theorem injectionGo_denied (h : s.takes a true .injCtrl) (d : Word)
    (hbad : a.sec = false ∨ s.fcr.injBusy = true ∨ fld (s.reg .injSel) 16 9 = 262 ∨ fld (s.reg .injSel) 16 9 = 263 ∨
      s.fcr.unguarded = true) : exec (.injectionGo a d) s = denied a 0xC030 slverr s := by
  refine takes_deniedAt h 0xC030 _ (by decide) (by decide) rfl
    (((regWrite_injCtrl ..).trans (injCtrlWrite_go a.sec d s)).trans (if_pos ?_))
  rcases hbad with hb | hb | hb | hb | hb <;> simp [hb]

theorem injectionGo_arms (h : s.takes a true .injCtrl) (d : Word)
    (hgood : ¬(a.sec = false ∨ s.fcr.injBusy = true ∨ fld (s.reg .injSel) 16 9 = 262 ∨ fld (s.reg .injSel) 16 9 = 263 ∨
      s.fcr.unguarded = true)) : ∃ t, exec (.injectionGo a d) s = wrote a t ∧ t.fcr = { s.fcr with
        injBusy := true, injSrc := BitVec.ofNat 9 (fld (s.reg .injSel) 16 9), injInst := BitVec.ofNat 8 (fld (s.reg .injSel) 8 8),
        injMode := d.extractLsb' 28 2 } := by
  simp only [not_or, Bool.not_eq_true, Bool.not_eq_false] at hgood
  obtain ⟨hsec, hbusy, hcrt, hdoc, hguard⟩ := hgood
  have hw := (injCtrlWrite_go a.sec d s).trans (if_neg (by simp [hsec, hbusy, hcrt, hdoc, hguard]))
  refine ⟨_, takes_wroteAt h 0xC030 _ (by decide) (by decide) rfl ((regWrite_injCtrl ..).trans hw), ?_⟩
  rw [fcr_modFcr, State.setReg_fcr]

end

/-- Settles O40: a rule for each row, and for INJ_CTRL what its write answers with GO set. -/
theorem faultState : Obligations.FaultState := by
  unfold Obligations.FaultState
  refine fun s => ⟨fun ht => act_next ht _, fun a d h => fltRelease_releases h d,
    fun ht hon hact hset => ⟨faultQuietEnd_ends ht hon hact hset, faultQuietEnd_runs ht⟩, fun ht _ => faultQuietEnd_open ht,
    fun a d h => ⟨injectionGo_denied h d, injectionGo_arms h d⟩, fun ht hon hbusy hn hpres hdom => ?_⟩
  exact (act_next ht _).trans (congrArg _ (if_pos (by simp [hon, hbusy, hn, hpres, hdom])))

end Sys2Proof.Machine
end

section
/-! What FCR records of an assertion (R549 to R555, Tables 16-4, 16-8). -/

namespace Sys2Proof.Machine

/-! ## What a record leaves unchanged (R647) -/

/-- The state without what a record of the Ledger changes. -/
def State.butLog (s : State) : State := { s with ledger := {}, fresh := 0 }

theorem butLog_lgEnqueue (code sev : Nat) (inj : Bool) (lo hi : Word) (s : State) :
    (lgEnqueue code sev inj lo hi s).butLog = s.butLog := by
  unfold lgEnqueue
  dsimp only
  split <;> rfl

theorem butLog_lgClose (k m : Nat) (s : State) : (lgClose k m s).butLog = s.butLog := by
  unfold lgClose lgSuppCode
  dsimp only
  by_cases hm : m = 0
  · rw [if_pos hm]
    rfl
  · rw [if_neg hm, butLog_lgEnqueue]
    split <;> rfl

/-- A record changes nothing but the Ledger and the count of free values. -/
theorem butLog_lgRecord (code sev : Nat) (inj : Bool) (lo hi : Word) (s : State) :
    (lgRecord code sev inj lo hi s).butLog = s.butLog := by
  have hopen (t : State) : (lgOpen (lgKey code) code sev inj lo hi t).butLog = t.butLog := butLog_lgEnqueue ..
  unfold lgRecord
  dsimp only
  generalize (if lgKey code = 0x8000 then fld (s.reg .lgRate) 16 8 else fld (s.reg .lgRate) 24 8) = burst
  split
  · exact butLog_lgEnqueue ..
  · split
    · exact hopen s
    · split
      · exact (hopen _).trans (butLog_lgClose ..)
      · split
        · exact butLog_lgEnqueue ..
        · rfl

/-- A state that differs from another by records alone has its fields. -/
theorem eq_of_butLog {s t : State} (h : t.butLog = s.butLog) : t = { s with ledger := t.ledger, fresh := t.fresh } :=
  congrArg (fun u : State => { u with ledger := t.ledger, fresh := t.fresh }) h

/-! ## The record, of FCR alone -/

/-- The assertion of source `n` counts. -/
def Fcr.counted (n : Nat) (f : Fcr) : Fcr := { f with cnt := Tbl.put 0 f.cnt n (satAdd (Tbl.get 0 f.cnt n) 1) }

/-- PEND of source `n` is set where the severity `sev` is not 0. -/
def Fcr.pended (n sev : Nat) (f : Fcr) : Fcr := if 1 ≤ sev then { f with pend := Tbl.put false f.pend n true } else f

/-- First-error capture at time `now`, or an overflow of it (R550, R551). -/
def Fcr.captured (n sev : Nat) (i : FaultInfo) (rail : Bool) (now : DWord) (f : Fcr) : Fcr :=
  if f.feV then { f with feOvf := true, feOvfCnt := satAdd f.feOvfCnt 1 }
  else { f with feV := true, feInj := i.inj, feRail := rail, feSev := BitVec.ofNat 3 sev, feSrc := BitVec.ofNat 9 n,
                feInfo := feWord i, feAddr := i.addr, feTime := now }

/-- FLT_N's latch, or its pulse, by the severity and MODE (R553). -/
def Fcr.flagged (sev mode : Nat) (f : Fcr) : Fcr :=
  if sev = 4 ∨ (sev = 3 ∧ mode = 0) then { f with latch := true } else if sev = 3 then { f with pulse := true } else f

/-- What FCR holds after it has captured the assertion: the fault state, its quiet period and FLT_N. -/
def Fcr.raised (n sev mode : Nat) (i : FaultInfo) (rail : Bool) (now : DWord) (f : Fcr) : Fcr :=
  if 2 ≤ sev then ({ f.captured n sev i rail now with active := true, quietFrom := now } : Fcr).flagged sev mode else f

@[simp] theorem fcr_lgRecord (code sev : Nat) (inj : Bool) (lo hi : Word) (s : State) : (lgRecord code sev inj lo hi s).fcr = s.fcr := by
  rw [eq_of_butLog (butLog_lgRecord code sev inj lo hi s)]

theorem fcr_feCapture (n sev : Nat) (i : FaultInfo) (rail : Bool) (s : State) :
    (feCapture n sev i rail s).fcr = s.fcr.captured n sev i rail s.now := by
  unfold feCapture Fcr.captured
  dsimp only
  split
  · rfl
  · rw [fcr_emitT]

theorem fcr_fltAct (sev : Nat) (s : State) : (fltAct sev s).fcr = s.fcr.flagged sev (fld (s.reg .fltCtrl) 0 2) := by
  unfold fltAct Fcr.flagged
  split
  · rfl
  · split <;> rfl

theorem reg_of_butFaults {s t : State} (h : t.butFaults = s.butFaults) (r : Reg) : t.reg r = s.reg r := by
  have hreg := congrArg (fun u : State => u.reg r) h
  exact hreg

theorem now_of_butFaults {s t : State} (h : t.butFaults = s.butFaults) : t.now = s.now := by
  have hnow := congrArg State.now h
  exact hnow

/-- An assertion counts, pends, and is captured by its severity. -/
theorem fcr_recordFault (n : Nat) (i : FaultInfo) (rail : Bool) (s : State) : (recordFault n i rail s).fcr =
    ((s.fcr.counted n).pended n (sevOf s n)).raised n (sevOf s n) (fld (s.reg .fltCtrl) 0 2) i rail s.now := by
  have hrec (u : State) (hu : u.butFaults = s.butFaults) : (fltAct (sevOf s n) ((feCapture n (sevOf s n) i rail u).modFcr
      (fun f => { f with active := true, quietFrom := s.now }))).fcr =
      ({ u.fcr.captured n (sevOf s n) i rail s.now with active := true, quietFrom := s.now } : Fcr).flagged (sevOf s n)
        (fld (s.reg .fltCtrl) 0 2) := by
    rw [fcr_fltAct, reg_of_butFaults (((butFaults_modFcr ..).trans (butFaults_feCapture ..)).trans hu), ← now_of_butFaults hu]
    exact congrArg (fun f : Fcr => ({ f with active := true, quietFrom := u.now } : Fcr).flagged (sevOf s n) _) (fcr_feCapture ..)
  unfold recordFault Fcr.raised Fcr.pended
  dsimp only
  by_cases h1 : 1 ≤ sevOf s n
  · rw [if_pos h1, if_pos h1]
    split
    · rw [hrec _ (by rw [butFaults_lgRecord, butFaults_modFcr, butFaults_modFcr]), fcr_lgRecord]
      rfl
    · rw [fcr_lgRecord]
      rfl
  · have h2 : ¬2 ≤ sevOf s n := fun h => h1 (Nat.le_of_succ_le h)
    rw [if_neg h1, if_neg h1, if_neg h2, if_neg h2]
    rfl

/-- A source of severity 0 records nothing in the Ledger (R549). -/
theorem ledger_recordFault {n : Nat} {i : FaultInfo} {rail : Bool} {s : State} (h : sevOf s n = 0) :
    (recordFault n i rail s).ledger = s.ledger := by
  unfold recordFault
  dsimp only
  rw [h, if_neg (by decide), if_neg (by decide)]
  rfl

/-- Below severity 2 FCR holds no more than the count and PEND. -/
theorem raised_low {sev : Nat} (h : sev < 2) (n mode : Nat) (i : FaultInfo) (rail : Bool) (now : DWord) (f : Fcr) :
    f.raised n sev mode i rail now = f := if_neg (Nat.not_le.mpr h)

theorem raised_high {sev : Nat} (h : 2 ≤ sev) (n mode : Nat) (i : FaultInfo) (rail : Bool) (now : DWord) (f : Fcr) :
    f.raised n sev mode i rail now =
      ({ f.captured n sev i rail now with active := true, quietFrom := now } : Fcr).flagged sev mode := if_pos h

/-- FLT_N's part of FCR is apart from the rest. -/
theorem flagged_keeps (sev mode : Nat) (f : Fcr) : ∃ l q, f.flagged sev mode = { f with latch := l, pulse := q } ∧
    (sev < 3 → l = f.latch ∧ q = f.pulse) ∧ (sev = 4 ∨ (sev = 3 ∧ mode = 0) → l = true) ∧
    (sev = 3 → mode ≠ 0 → q = true ∧ l = f.latch) := by
  unfold Fcr.flagged
  by_cases hlevel : sev = 4 ∨ (sev = 3 ∧ mode = 0)
  · rw [if_pos hlevel]
    exact ⟨true, f.pulse, rfl, fun h => by omega, fun _ => rfl, fun h hm => by omega⟩
  · rw [if_neg hlevel]
    by_cases hpulse : sev = 3
    · rw [if_pos hpulse]
      exact ⟨f.latch, true, rfl, fun h => by omega, fun h => absurd h hlevel, fun _ _ => ⟨rfl, rfl⟩⟩
    · rw [if_neg hpulse]
      exact ⟨f.latch, f.pulse, rfl, fun _ => ⟨rfl, rfl⟩, fun h => absurd h hlevel, fun h => absurd h hpulse⟩

theorem captured_first {f : Fcr} (h : f.feV = false) (n sev : Nat) (i : FaultInfo) (rail : Bool) (now : DWord) :
    f.captured n sev i rail now = { f with
      feV := true, feInj := i.inj, feRail := rail, feSev := BitVec.ofNat 3 sev, feSrc := BitVec.ofNat 9 n, feInfo := feWord i,
      feAddr := i.addr, feTime := now } := by
  rw [Fcr.captured, h]
  rfl

theorem captured_later {f : Fcr} (h : f.feV = true) (n sev : Nat) (i : FaultInfo) (rail : Bool) (now : DWord) :
    f.captured n sev i rail now = { f with feOvf := true, feOvfCnt := satAdd f.feOvfCnt 1 } := by
  rw [Fcr.captured, h]
  rfl

/-- The count and PEND of an assertion. -/
theorem pended_counted (n sev : Nat) (f : Fcr) : ∃ c p, (f.counted n).pended n sev = { f with cnt := c, pend := p } ∧
    Tbl.get 0 c n = satAdd (Tbl.get 0 f.cnt n) 1 ∧ (∀ k, k ≠ n → Tbl.get 0 c k = Tbl.get 0 f.cnt k) ∧ (sev = 0 → p = f.pend) ∧
    (1 ≤ sev → Tbl.get false p n = true) ∧ ∀ k, k ≠ n → Tbl.get false p k = Tbl.get false f.pend k := by
  have hcnt (k : Nat) (hk : k ≠ n) : Tbl.get 0 (f.counted n).cnt k = Tbl.get 0 f.cnt k := Tbl.get_put_other _ _ _ _ _ hk
  have hset := Tbl.get_put_same false f.pend n true
  have hpend (k : Nat) (hk : k ≠ n) := Tbl.get_put_other false f.pend n k true hk
  by_cases h : 1 ≤ sev
  · exact ⟨(f.counted n).cnt, Tbl.put false f.pend n true, if_pos h, Tbl.get_put_same .., hcnt, fun h0 => by omega, fun _ => hset, hpend⟩
  · exact ⟨(f.counted n).cnt, f.pend, if_neg h, Tbl.get_put_same .., hcnt, fun _ => rfl, fun h1 => absurd h1 h, fun k _ => rfl⟩

/-- Settles O38: FCR after an assertion is the count, then PEND, then the capture and FLT_N, each by the severity. -/
theorem faultRecording : Obligations.FaultRecording := by
  unfold Obligations.FaultRecording
  intro n i rail s
  have hled := ledger_recordFault (n := n) (i := i) (rail := rail) (s := s)
  dsimp only
  rw [fcr_recordFault]
  generalize sevOf s n = sev at hled ⊢
  generalize fld (s.reg .fltCtrl) 0 2 = mode
  generalize s.now = now
  obtain ⟨c, p, hp, hcnt, hcnts, hzero, hset, hothers⟩ := pended_counted n sev s.fcr
  rw [hp]
  by_cases hsev : 2 ≤ sev
  case neg =>
    rw [raised_low (Nat.lt_of_not_le hsev)]
    exact ⟨hcnt, hcnts, hothers, rfl, rfl, rfl, fun h => ⟨hzero h, hled h⟩, hset, fun _ => ⟨rfl, rfl, rfl, rfl, rfl⟩,
      fun h => absurd h hsev, fun h => absurd h hsev, fun h => absurd h hsev, fun _ => ⟨rfl, rfl⟩, by omega, by omega⟩
  case pos =>
    rw [raised_high hsev]
    obtain ⟨l, q, hflags, hlatch⟩ := flagged_keeps sev mode
      ({ ({ s.fcr with cnt := c, pend := p } : Fcr).captured n sev i rail now with active := true, quietFrom := now } : Fcr)
    rw [hflags]
    cases hv : s.fcr.feV with
    | false =>
      rw [captured_first (f := { s.fcr with cnt := c, pend := p }) hv] at hlatch ⊢
      exact ⟨hcnt, hcnts, hothers, rfl, rfl, rfl, fun h => by omega, hset, fun h => by omega, fun _ => ⟨rfl, rfl, rfl⟩,
        fun _ _ => ⟨rfl, rfl, rfl, rfl, rfl, rfl, rfl, rfl, rfl⟩, fun _ h => by simp at h, hlatch⟩
    | true =>
      rw [captured_later (f := { s.fcr with cnt := c, pend := p }) hv] at hlatch ⊢
      exact ⟨hcnt, hcnts, hothers, rfl, rfl, rfl, fun h => by omega, hset, fun h => by omega, fun _ => ⟨rfl, rfl, hv⟩,
        fun _ h => by simp at h, fun _ _ => ⟨rfl, rfl, rfl, rfl, rfl, rfl, rfl⟩, hlatch⟩

end Sys2Proof.Machine
end

section
/-! Staging writes, COMMIT, CANCEL, REVERT and the applied boundary (R503 to R517, Tables 14-5 to 14-8). -/

namespace Sys2Proof.Machine

/-! ## What traffic of the Vitrine leaves unchanged -/

/-- The state without domains, supplies, the Ledger, transactions and the Vitrine's lines. -/
def State.butTraffic (s : State) : State :=
  { s.butPower with txns := [], nextTxn := 0, lines := [], vitFlush := false, vitOld := 0 }

theorem butTraffic_of_butPower {s t : State} (h : s.butPower = t.butPower) : s.butTraffic = t.butTraffic := by
  have htraffic := congrArg State.butTraffic h
  exact htraffic

theorem butTraffic_issue (x : Txn) (s : State) : (issue x s).butTraffic = s.butTraffic := by
  unfold issue
  dsimp only
  split
  · exact (butTraffic_of_butPower (butPower_beginWake ..)).trans rfl
  · rfl

theorem butTraffic_evictFrom (k l : Nat) (s : State) : (evictFrom k l s).butTraffic = s.butTraffic := by
  unfold evictFrom
  dsimp only
  split
  · rfl
  · split
    · exact butTraffic_issue ..
    · exact butTraffic_issue ..
    · exact butTraffic_issue ..
    · rfl

/-- The evictions before a change of ILV or SEC (R461). -/
theorem butTraffic_vitEvict (s : State) : (vitEvict s).butTraffic = s.butTraffic := by
  have hfold : (foldS (upTo 4) (fun k u => foldS (sliceLines u k) (evictFrom k) u) s).butTraffic = s.butTraffic :=
    foldS_keeps State.butTraffic (fun k u => foldS_keeps State.butTraffic (butTraffic_evictFrom k) (sliceLines u k) u) (upTo 4) s
  unfold vitEvict
  generalize foldS (upTo 4) (fun k u => foldS (sliceLines u k) (evictFrom k) u) s = t at hfold ⊢
  exact hfold

theorem stage_of_butTraffic {s t : State} (h : t.butTraffic = s.butTraffic) : t.stage = s.stage ∧ t.boot = s.boot := by
  have hstage := congrArg State.stage h
  have hboot := congrArg State.boot h
  exact ⟨hstage, hboot⟩

@[simp] theorem stage_emitT (ps : List Nat) (s : State) : (emitT ps s).stage = s.stage := by
  have h := congrArg State.stage (butReactions_emitT ps s)
  exact h

theorem boot_emitT (ps : List Nat) (s : State) : (emitT ps s).boot = s.boot := by
  have h := congrArg State.boot (butReactions_emitT ps s)
  exact h

@[simp] theorem stage_lgRecord (code sev : Nat) (inj : Bool) (lo hi : Word) (s : State) :
    (lgRecord code sev inj lo hi s).stage = s.stage := by
  rw [eq_of_butLog (butLog_lgRecord code sev inj lo hi s)]

/-! ## Staging and applied copies as tables -/

theorem stg_of_stage {s t : State} (hs : t.stage.stg = s.stage.stg) (hb : t.boot = s.boot) (r : Reg) : t.stg r = s.stg r := by
  rw [State.stg, hs, hb]
  rfl

theorem app_of_stage {s t : State} (hs : t.stage.app = s.stage.app) (hb : t.boot = s.boot) (r : Reg) : t.app r = s.app r := by
  rw [State.app, hs, hb]
  rfl

theorem stg_setStg (s : State) (q r : Reg) (v : Word) (h : q.addr = r.addr → q = r) :
    (s.setStg q v).stg r = if q = r then v else s.stg r := by
  by_cases hq : q = r
  · rw [if_pos hq, hq]
    exact Tbl.get_put_same ..
  · rw [if_neg hq]
    exact Tbl.get_put_ne _ _ _ v fun e => hq (h e.symm)

theorem app_setApp (s : State) (q r : Reg) (v : Word) (h : q.addr = r.addr → q = r) :
    (s.setApp q v).app r = if q = r then v else s.app r := by
  by_cases hq : q = r
  · rw [if_pos hq, hq]
    exact Tbl.get_put_same ..
  · rw [if_neg hq]
    exact Tbl.get_put_ne _ _ _ v fun e => hq (h e.symm)

/-- A list of registers is given a value each, one after another, by an update `set` that a read `get` shows. -/
theorem get_foldS_set {set : State → Reg → Word → State} {get : State → Reg → Word}
    (hset : ∀ s q r v, (q.addr = r.addr → q = r) → get (set s q v) r = if q = r then v else get s r) (v : Reg → Word) (r : Reg)
    (l : List Reg) (hl : ∀ q ∈ l, q.addr = r.addr → q = r) (s : State) :
    get (foldS l (fun q t => set t q (v q)) s) r = if r ∈ l then v r else get s r := by
  induction l generalizing s with
  | nil => rfl
  | cons q l ih =>
    have hone := hset s q r (v q) (hl q List.mem_cons_self)
    refine (ih (fun q' hq' => hl q' (List.mem_cons_of_mem q hq')) (set s q (v q))).trans ?_
    rw [hone]
    by_cases hmem : r ∈ l
    · simp [hmem]
    · by_cases hq : q = r
      · simp [hq]
      · simp [hmem, hq, Ne.symm hq]

/-- A listed register stands at its own address. -/
theorem decodeReg_of_stagedKeys {s : State} {q : Reg} (h : q ∈ stagedKeys s) : decodeReg s.wings q.addr = some q := by
  obtain ⟨a, -, ha⟩ := List.mem_filterMap.mp h
  rw [decodeReg_names s.wings a q ha]
  exact ha

theorem stagedKeys_apart {s : State} {q r : Reg} (hr : decodeReg s.wings r.addr = some r) (hq : q ∈ stagedKeys s)
    (h : q.addr = r.addr) : q = r := by
  have hd := decodeReg_of_stagedKeys hq
  rw [h, hr] at hd
  exact (Option.some.inj hd).symm

/-- A register that is not listed has its reset value in both copies. -/
theorem stg_app_of_not_stagedKeys {s : State} {r : Reg} (hr : decodeReg s.wings r.addr = some r) (h : r ∉ stagedKeys s) :
    s.stg r = s.app r := by
  have hkey (t : Tbl Word) (ht : ∀ p ∈ t, p.1 ∈ s.stage.stg.map Prod.fst ++ s.stage.app.map Prod.fst) :
      Tbl.get (r.rst s.boot.straps) t r.addr = r.rst s.boot.straps := by
    refine (Tbl.get_mem_key (r.rst s.boot.straps) t r.addr).resolve_right fun hm => h ?_
    exact List.mem_filterMap.mpr ⟨r.addr, List.mem_eraseDups.mpr (ht _ hm), hr⟩
  have hstg := hkey s.stage.stg fun p hp => List.mem_append_left _ (List.mem_map_of_mem hp)
  have happ := hkey s.stage.app fun p hp => List.mem_append_right _ (List.mem_map_of_mem hp)
  exact hstg.trans happ.symm

/-- The listed registers of the sets named. -/
theorem mem_stagedKeys_inSets {s : State} {sets : BitVec 16} {r : Reg} {k : Nat} (hk : r.stagedSet = some k) :
    r ∈ (stagedKeys s).filter (inSets sets) ↔ r ∈ stagedKeys s ∧ bit sets k = true := by
  rw [List.mem_filter, inSets, hk]

/-- The applied copies of the resulting configuration (R509). -/
theorem app_resulting {s : State} {r : Reg} {k : Nat} (hk : r.stagedSet = some k) (hr : decodeReg s.wings r.addr = some r)
    (sets : BitVec 16) : (resulting sets s).app r = if bit sets k then s.stg r else s.app r := by
  have hfold := get_foldS_set app_setApp s.stg r ((stagedKeys s).filter (inSets sets))
    (fun q hq => stagedKeys_apart hr (List.mem_filter.mp hq).1) s
  refine hfold.trans ?_
  simp only [mem_stagedKeys_inSets hk]
  by_cases hmem : r ∈ stagedKeys s
  · simp [hmem]
  · simp [hmem, stg_app_of_not_stagedKeys hr hmem]

/-- Staging copies, lock and machinery stay as the applied copies change. -/
theorem stage_resulting (sets : BitVec 16) (s : State) :
    ∃ app, (resulting sets s).stage = { s.stage with app := app } ∧ (resulting sets s).boot = s.boot := by
  have h := foldS_keeps (fun t : State => (({ t.stage with app := [] } : Staging), t.boot)) (fun (r : Reg) t => rfl)
    ((stagedKeys s).filter (inSets sets)) s (f := fun r t => t.setApp r (s.stg r))
  obtain ⟨hstage, hboot⟩ := Prod.mk.inj h
  exact ⟨_, congrArg (fun g : Staging => { g with app := (resulting sets s).stage.app }) hstage, hboot⟩

/-! ## Staging writes (R503, R513) -/

/-- A write of an RWS register; IRQ_SEC shows and takes the bits that the access may see (R341). -/
theorem regWrite_staged {r : Reg} {k : Nat} (h : r.stagedSet = some k) {s : State} {sec : Bool} (hec : ecRefused s sec r = false)
    (owner : Byte) (d : Word) : regWrite sec owner r d s =
      stageWrite r sec (if r = .irqSec then masked (irqVisible s sec) (s.stg r) d else d) s := by
  cases r
  case ecSrc e => exact if_neg (ne_true_of_eq_false hec)
  case ecCtrl e => exact if_neg (ne_true_of_eq_false hec)
  all_goals simp only [Reg.stagedSet, reduceCtorEq] at h
  all_goals rfl

theorem stageWrite_locked {r : Reg} {k : Nat} (h : r.stagedSet = some k) {s : State} (hlock : bit s.stage.lock k = true) (sec : Bool)
    (v : Word) : stageWrite r sec v s = none := by
  rw [stageWrite, h]
  exact if_pos hlock

/-- The part of the staging machinery that the clamp log leaves alone. -/
def Staging.butClamps (g : Staging) : Staging :=
  { g with sect := 0, clamps := [], clampTotal := 0, clampOvf := false, clampNext := 0 }

theorem of_butClamps {g k : Staging} (h : g.butClamps = k.butClamps) : g.stg = k.stg ∧ g.app = k.app ∧ g.lock = k.lock := by
  have hstg := congrArg Staging.stg h
  have happ := congrArg Staging.app h
  have hlock := congrArg Staging.lock h
  exact ⟨hstg, happ, hlock⟩

theorem butClamps_clampFields (r : Reg) (sec : Bool) (old v : Word) (s : State) :
    (clampFields r sec old v s).stage.butClamps = s.stage.butClamps ∧ (clampFields r sec old v s).boot = s.boot := by
  have hadd (c : Clamp) (t : State) : ((clampAdd c t).stage.butClamps, (clampAdd c t).boot) = (t.stage.butClamps, t.boot) := by
    have h := congrArg (fun u : State => (u.stage.butClamps, u.boot)) (butReactions_emitT [238] (t.modStage fun g => { g with
      clamps := Tbl.put {} g.clamps g.clampNext.toNat c, clampTotal := g.clampTotal + 1,
      clampOvf := g.clampOvf || (Tbl.get {} g.clamps g.clampNext.toNat).v, clampNext := g.clampNext + 1 }))
    exact h
  refine Prod.mk.inj (foldS_keeps (fun u : State => (u.stage.butClamps, u.boot)) (fun f t => ?_) r.flds s)
  dsimp only
  split
  · rfl
  · exact hadd ..

/-- An unlocked set takes the write in the staging copy alone. -/
theorem stageWrite_stores {r : Reg} {k : Nat} (h : r.stagedSet = some k) {s : State} (hlock : bit s.stage.lock k = false) (sec : Bool)
    (v : Word) : ∃ t, stageWrite r sec v s = some t ∧ t.stg r = storeFlds r.flds (s.stg r) v ∧
      (∀ q, q.addr ≠ r.addr → t.stg q = s.stg q) ∧ t.stage.app = s.stage.app ∧ t.stage.lock = s.stage.lock := by
  let s1 := s.setStg r (storeFlds r.flds (s.stg r) v)
  let s2 := if sec && storeFlds r.flds (s.stg r) v != s.stg r then s1.modStage (fun g => { g with sect := setFld g.sect k 1 1 }) else s1
  have hw : stageWrite r sec v s = some (clampFields r sec (s.stg r) v s2) := by
    rw [stageWrite, h]
    exact if_neg (ne_true_of_eq_false hlock)
  have hs2 : s2.stage.butClamps = s1.stage.butClamps ∧ s2.boot = s.boot := by
    simp only [s2]
    split <;> exact ⟨rfl, rfl⟩
  obtain ⟨hclamps, hboot⟩ := butClamps_clampFields r sec (s.stg r) v s2
  have hstage := hclamps.trans hs2.1
  obtain ⟨hstgs, happ, hlk⟩ := of_butClamps hstage
  have hstg := stg_of_stage (s := s1) hstgs (hboot.trans hs2.2)
  refine ⟨_, hw, ?_, fun q hq => ?_, happ, hlk⟩
  · rw [hstg, stg_setStg s r r _ fun _ => rfl, if_pos rfl]
  · rw [hstg, stg_setStg s r q _ fun e => absurd e.symm hq, if_neg fun e => hq (congrArg Reg.addr e.symm)]

/-! ## COMMIT, CANCEL and REVERT (R508 to R515) -/

theorem stage_statusTo (f : Staging → Staging) (s : State) : (statusTo f s).stage = { f s.stage with late := [] } := by
  rw [statusTo, stage_emitT]
  rfl

theorem stage_commitEnd (st : CommitSt) (f : Staging → Staging) (s : State) :
    (commitEnd st f s).stage = { f { s.stage with st := st, lock := 0, boundary := false } with late := [] } := by
  rw [commitEnd, stage_statusTo]

theorem boot_commitEnd (st : CommitSt) (f : Staging → Staging) (s : State) : (commitEnd st f s).boot = s.boot := boot_emitT ..

theorem boot_lgRecord (code sev : Nat) (inj : Bool) (lo hi : Word) (s : State) : (lgRecord code sev inj lo hi s).boot = s.boot := by
  rw [eq_of_butLog (butLog_lgRecord code sev inj lo hi s)]

theorem stage_beginWake (d src detail : Nat) (s : State) : (beginWake d src detail s).stage = s.stage := by
  have h := congrArg State.stage (butPower_beginWake d src detail s)
  exact h

section
variable {a : TpAttr} {s : State}

/-- A write of MST.COMMIT takes effect by its OP. -/
theorem commit_wrote (h : s.takes a true .commit) (v : Word) : act s (tpWrite a 0x100 v s) = wrote a (commitWrite a.sec v s) :=
  takes_wroteAt h 0x100 v (by decide) (by decide) rfl rfl

theorem commitWrite_op (sec : Bool) (d : Word) (s : State) :
    commitWrite sec (setFld d 0 2 1) s = commitAccept sec (setFld d 0 2 1) s ∧
    commitWrite sec (setFld d 0 2 2) s = commitCancel s ∧
    commitWrite sec (setFld d 0 2 3) s = commitRevert (setFld d 0 2 3) s := by
  have hop (k : Nat) (hk : k < 4) : fld (setFld d 0 2 k) 0 2 = k := (fld_setFld d 0 2 k (by decide)).trans (Nat.mod_eq_of_lt hk)
  unfold commitWrite
  rw [hop 1 (by decide), hop 2 (by decide), hop 3 (by decide)]
  exact ⟨rfl, rfl, rfl⟩

theorem stagedSet_lt {r : Reg} {k : Nat} (h : r.stagedSet = some k) : k < 16 := by
  unfold Reg.stagedSet at h
  repeat' split at h
  all_goals cases h
  all_goals decide

theorem commitAccept_opens (hopen : commitOpen s = false) (sec : Bool) (d : Word) :
    (commitAccept sec (setFld d 0 2 1) s).stage = { s.stage with
      st := .checking, seq := s.stage.seq + 1, sets := d.extractLsb' 16 16, lock := d.extractLsb' 16 16, src := d.extractLsb' 4 2,
      tmo := d.extractLsb' 8 4, secWr := sec, stage := false, reason := 0, boundary := false, late := [] } := by
  have hfld (l m : Nat) (hl : 2 ≤ l) : BitVec.ofNat m (fld (setFld d 0 2 1) l m) = d.extractLsb' l m := by
    rw [fld_setFld_other d 0 2 1 l m (by omega), ofNat_fld]
  rw [commitAccept, if_neg (ne_true_of_eq_false hopen)]
  simp only [hfld 16 16 (by decide), hfld 4 2 (by decide), hfld 8 4 (by decide)]
  split
  · exact stage_statusTo ..
  · exact (stage_beginWake ..).trans (stage_statusTo ..)

theorem commitAccept_denies (hopen : commitOpen s = true) (sec : Bool) (v : Word) :
    (commitAccept sec v s).stage = { s.stage with denied := true } := by
  rw [commitAccept, if_pos hopen]
  split
  · next h => rw [← h]
  · exact stage_emitT ..

theorem commitCancel_ends (hopen : commitOpen s = true) (hb : s.stage.boundary = false) :
    (commitCancel s).stage = { s.stage with st := .cancelled, lock := 0, boundary := false, late := [] } := by
  rw [commitCancel, if_pos (by simp [hopen, hb])]
  exact stage_commitEnd ..

theorem commitCancel_stands (h : commitOpen s = false ∨ s.stage.boundary = true) : commitCancel s = s := by
  rw [commitCancel, if_neg]
  rcases h with h | h <;> simp [h]

/-- REVERT returns the unlocked staging copies of the named sets to the applied values. -/
theorem commitRevert_returns (d : Word) (s : State) :
    let t := commitRevert (setFld d 0 2 3) s
    t.stage.app = s.stage.app ∧ t.stage.lock = s.stage.lock ∧
      ∀ r k, r.stagedSet = some k → decodeReg s.wings r.addr = some r →
        t.stg r = if bit d (16 + k) && !bit s.stage.lock k then s.app r else s.stg r := by
  let sets := BitVec.ofNat 16 (fld (setFld d 0 2 3) 16 16) &&& ~~~ s.stage.lock
  let u := foldS ((stagedKeys s).filter (inSets sets)) (fun r t => t.setStg r (s.app r)) s
  have hkeeps : (u.stage.app, u.stage.lock) = (s.stage.app, s.stage.lock) :=
    foldS_keeps (f := fun r t => State.setStg t r (s.app r)) (fun t : State => (t.stage.app, t.stage.lock)) (fun r t => rfl) _ s
  obtain ⟨happ, hlock⟩ := Prod.mk.inj hkeeps
  refine ⟨happ, hlock, fun r k hk hr => ?_⟩
  have hfold : u.stg r = _ := get_foldS_set stg_setStg s.app r ((stagedKeys s).filter (inSets sets))
    (fun q hq => stagedKeys_apart hr (List.mem_filter.mp hq).1) s
  have hbit : bit sets k = (bit d (16 + k) && !bit s.stage.lock k) := by
    simp only [sets, fld_setFld_other d 0 2 3 16 16 (by decide), ofNat_fld]
    simp [bit, stagedSet_lt hk]
  refine hfold.trans ?_
  simp only [mem_stagedKeys_inSets hk, hbit]
  by_cases hmem : r ∈ stagedKeys s
  · simp [hmem]
  · simp [hmem, stg_app_of_not_stagedKeys hr hmem]

theorem clampStat_cleared (d : Word) (s : State) :
    let t := clampStatTo (setFld d 5 1 1) s
    t.stage.clampOvf = false ∧ (∀ p ∈ t.stage.clamps, p.2.v = false) ∧ t.stage.clampTotal = s.stage.clampTotal ∧
      t.stage.clampNext = s.stage.clampNext ∧ t.stage.stg = s.stage.stg ∧ t.stage.app = s.stage.app := by
  have hclr : bit (setFld d 5 1 1) 5 = true := by simp [bit_setFld]
  have hclamps (g : Tbl Clamp) : ∀ p ∈ (g.map (fun p => (p.1, { p.2 with v := false }))).filter (fun p : Nat × Clamp => p.2 != {}),
      p.2.v = false := by
    intro p hp
    obtain ⟨q, -, rfl⟩ := List.mem_map.mp (List.mem_filter.mp hp).1
    rfl
  dsimp only
  rw [clampStatTo, if_pos hclr]
  split <;> exact ⟨rfl, hclamps _, rfl, rfl, rfl, rfl⟩

end

/-! ## The checks and the boundary (R509, R510, R514, R516) -/

section
variable {s : State} (ht : s.boot.tstMode = false) (hup : coreUp s = true)
include ht hup

theorem commitCheckDone_waits (hst : s.stage.st = .checking) (h : commitReason s false = 0) :
    ∃ t, exec .commitCheckDone s = .next t ∧
      t.stage = { s.stage with st := .pending, pendAt := s.projTime, boundary := false, late := [] } := by
  have hexec : exec .commitCheckDone s = .next _ := act_next ht _
  rw [if_pos (by simp [hup, hst]), h] at hexec
  exact ⟨_, hexec, stage_statusTo ..⟩

theorem commitCheckDone_rejects (hst : s.stage.st = .checking) (h : commitReason s false ≠ 0) :
    ∃ t, exec .commitCheckDone s = .next t ∧ t.stage = { s.stage with
      st := .rejected, reason := BitVec.ofNat 8 (commitReason s false), lock := 0, boundary := false, late := [] } := by
  have hexec : exec .commitCheckDone s = .next _ := act_next ht _
  rw [if_pos (by simp [hup, hst])] at hexec
  split at hexec
  · exact absurd ‹_› h
  · exact ⟨_, hexec, (stage_lgRecord ..).trans (stage_commitEnd ..)⟩

theorem commitBoundary_rejects (hst : s.stage.st = .pending) (hb : s.stage.boundary = true) (h : commitReason s true ≠ 0) :
    ∃ t, exec .commitBoundary s = .next t ∧ t.stage = { s.stage with
      st := .rejected, stage := true, reason := BitVec.ofNat 8 (commitReason s true), lock := 0, boundary := false, late := [] } := by
  have hexec : exec .commitBoundary s = .next _ := act_next ht _
  rw [if_pos (by simp [hup, hst, hb])] at hexec
  split at hexec
  · exact absurd ‹_› h
  · exact ⟨_, hexec, (stage_lgRecord ..).trans (stage_commitEnd ..)⟩

/-- The boundary of a commit whose live checks pass applies every copy of the named sets, before its sequels. -/
theorem commitBoundary_applies (hst : s.stage.st = .pending) (hb : s.stage.boundary = true) (h : commitReason s true = 0) :
    ∃ u : State, exec .commitBoundary s = .next (commitSequels s u) ∧ u.stage.st = .applied ∧ u.stage.stage = true ∧
      u.stage.lock = 0 ∧ u.stage.stg = s.stage.stg ∧ u.stage.epoch = s.stage.epochAt ∧
      (∀ r k, r.stagedSet = some k → decodeReg s.wings r.addr = some r →
        u.app r = if bit s.stage.sets k then s.stg r else s.app r) := by
  have hexec : exec .commitBoundary s = .next _ := act_next ht _
  rw [if_pos (by simp [hup, hst, hb]), h] at hexec
  dsimp only at hexec
  have hevict : ∀ c : Bool, (if c then vitEvict s else s).stage = s.stage ∧ (if c then vitEvict s else s).boot = s.boot := by
    intro c
    split
    · exact stage_of_butTraffic (butTraffic_vitEvict s)
    · exact ⟨rfl, rfl⟩
  obtain ⟨hstage, hboot⟩ := hevict ((resulting s.stage.sets s).app .cpCfg != s.app .cpCfg)
  generalize (if ((resulting s.stage.sets s).app .cpCfg != s.app .cpCfg) = true then vitEvict s else s) = s0 at hstage hboot hexec
  obtain ⟨app, hres, hresb⟩ := stage_resulting s.stage.sets s0
  have hst2 := stage_commitEnd .applied (fun g => { g with stage := true, epoch := g.epochAt, sect := g.sect &&& ~~~ s.stage.sets })
    (resulting s.stage.sets s0)
  have hboot2 := boot_commitEnd .applied (fun g => { g with stage := true, epoch := g.epochAt, sect := g.sect &&& ~~~ s.stage.sets })
    (resulting s.stage.sets s0)
  generalize commitEnd .applied _ (resulting s.stage.sets s0) = s2 at hst2 hboot2 hexec
  have hu := (stage_lgRecord 0x20 0 false (commitWord s2.stage) (commitInfoWord s2.stage) s2).trans hst2
  have hub := (boot_lgRecord 0x20 0 false (commitWord s2.stage) (commitInfoWord s2.stage) s2).trans hboot2
  change exec .commitBoundary s = .next (commitSequels s (lgRecord 0x20 0 false _ _ s2)) at hexec
  generalize lgRecord 0x20 0 false (commitWord s2.stage) (commitInfoWord s2.stage) s2 = u at hu hub hexec
  have happ (r : Reg) : u.app r = (resulting s.stage.sets s0).app r := app_of_stage (by rw [hu]) hub r
  rw [hres, hstage] at hu
  refine ⟨u, hexec, by rw [hu], by rw [hu], by rw [hu], by rw [hu], by rw [hu], fun r k hk hr => ?_⟩
  rw [happ, app_resulting hk (by rw [State.wings, hboot]; exact hr), stg_of_stage (congrArg Staging.stg hstage) hboot,
    app_of_stage (congrArg Staging.app hstage) hboot]

theorem commitExpiry_expires (hst : s.stage.st = .pending) (hb : s.stage.boundary = false) (htmo : s.stage.tmo ≠ 0)
    (h : 2 ^ (s.stage.tmo.toNat - 1) * 1600000 ≤ (s.projTime - s.stage.pendAt).toNat) : ∃ t, exec .commitExpiry s = .next t ∧
      t.stage = { s.stage with st := .expired, lock := 0, boundary := false, late := [] } := by
  have hover : 2 ^ (s.stage.tmo.toNat - 1) * ticksMs ≤ (s.projTime - s.stage.pendAt).toNat := h
  have hexec : exec .commitExpiry s = .next _ := act_next ht _
  dsimp only at hexec
  rw [decide_eq_true hover, if_pos (by simpa [hup, hst, hb] using htmo)] at hexec
  exact ⟨_, hexec, stage_commitEnd ..⟩

end

/-- Settles O36: a rule for each write and each event of a commit; the copies that REVERT and the boundary move are the listed ones,
and a register that is not listed has its reset value in both. -/
theorem stagingAndCommit : Obligations.StagingAndCommit := by
  unfold Obligations.StagingAndCommit
  refine fun s => ⟨fun a addr d r k h h4 hd hk hec => ⟨fun hlock => ?locked, fun hlock => ?stores⟩, fun a d h => ?commit,
    fun a d h => ⟨_, takes_wroteAt h 0x114 _ (by decide) (by decide) rfl rfl, clampStat_cleared d s⟩, fun ht hup =>
    ⟨commitCheckDone_waits ht hup, commitCheckDone_rejects ht hup, commitBoundary_applies ht hup, commitBoundary_rejects ht hup,
      commitExpiry_expires ht hup⟩⟩
  case locked =>
    exact takes_denied h addr d h4 hd ((regWrite_staged hk hec a.owner d).trans (stageWrite_locked hk hlock a.sec _))
  case stores =>
    obtain ⟨t, hw, hstored⟩ := stageWrite_stores hk hlock a.sec (if r = .irqSec then masked (irqVisible s a.sec) (s.stg r) d else d)
    exact ⟨t, takes_wrote h addr d h4 hd ((regWrite_staged hk hec a.owner d).trans hw), hstored⟩
  case commit =>
    obtain ⟨haccept, hcancel, hrevert⟩ := commitWrite_op a.sec d s
    have hw (n : Nat) := commit_wrote h (setFld d 0 2 n)
    refine ⟨fun ho => ⟨_, (hw 1).trans (congrArg _ haccept), commitAccept_opens ho a.sec d⟩,
      fun ho => ⟨_, (hw 1).trans (congrArg _ haccept), commitAccept_denies ho a.sec _⟩,
      fun ho hb => ⟨_, (hw 2).trans (congrArg _ hcancel), commitCancel_ends ho hb⟩,
      fun hc => (hw 2).trans (congrArg _ (hcancel.trans (commitCancel_stands hc))),
      ⟨_, (hw 3).trans (congrArg _ hrevert), commitRevert_returns d s⟩⟩

end Sys2Proof.Machine
end

section
/-! The control store: loads and their two readings, CANCEL, bank swaps and reloads, and SVN_MIN (R518, R523 to R534). -/

namespace Sys2Proof.Machine

/-! ## Banks of the galleries -/

/-- A gallery after one of its banks changes. -/
def Gal.withBank (b : Bool) (f : Bank → Bank) (x : Gal) : Gal := if b then { x with bankB := f x.bankB } else { x with bankA := f x.bankA }

/-- Bank `b` of a gallery. -/
def Gal.bank (x : Gal) (b : Bool) : Bank := if b then x.bankB else x.bankA

theorem bankOf_eq (s : State) (g : Nat) (b : Bool) : bankOf s g b = (s.gal g).bank b := rfl

theorem modBank_eq (g : Nat) (b : Bool) (f : Bank → Bank) (s : State) : modBank g b f s = s.modGal g (Gal.withBank b f) := rfl

@[simp] theorem bank_withBank (b : Bool) (f : Bank → Bank) (x : Gal) : (x.withBank b f).bank b = f (x.bank b) := by
  cases b <;> rfl

@[simp] theorem bank_withBank_not (b : Bool) (f : Bank → Bank) (x : Gal) : (x.withBank b f).bank (!b) = x.bank (!b) := by
  cases b <;> rfl

/-- Galleries that change one after another, each once. -/
theorem gal_foldS_modGal (F : Gal → Gal) (l : List Nat) (hl : l.Nodup) (s : State) (k : Nat) :
    (foldS l (fun g t => t.modGal g F) s).gal k = if k ∈ l then F (s.gal k) else s.gal k := by
  induction l generalizing s with
  | nil => rfl
  | cons g l ih =>
    obtain ⟨hg, hl⟩ := List.nodup_cons.mp hl
    refine (ih hl (s.modGal g F)).trans ?_
    by_cases hk : k = g
    · subst hk
      rw [if_neg hg, if_pos List.mem_cons_self, gal_modGal]
    · rw [gal_modGal_other s F hk]
      simp [hk]

theorem nodup_loadGals (s : State) : (loadGals s).Nodup := List.Nodup.filter _ List.nodup_range

theorem mem_loadGals {s : State} {g : Nat} : g ∈ loadGals s ↔ g < 32 ∧ bit s.loader.targets g = true := by
  rw [loadGals, List.mem_filter, upTo, List.mem_range]

theorem gal_targetBanks (f : Bank → Bank) (s : State) (k : Nat) :
    (targetBanks f s).gal k = if k ∈ loadGals s then (s.gal k).withBank s.loader.bank f else s.gal k :=
  gal_foldS_modGal (Gal.withBank s.loader.bank f) (loadGals s) (nodup_loadGals s) s k

/-- The target banks change and nothing else. -/
theorem loader_targetBanks (f : Bank → Bank) (s : State) : (targetBanks f s).loader = s.loader :=
  foldS_keeps (f := fun g t => modBank g s.loader.bank f t) State.loader (fun _ _ => rfl) (loadGals s) s

/-! ## Words built of flags -/

/-- The flags of galleries as the bits of a word. -/
theorem bit_packW_flags (f : Nat → Bool) (l : List Nat) (hl : l.Nodup) (h32 : ∀ g ∈ l, g < 32) (k : Nat) :
    bit (packW (l.map fun g => (g, b2n (f g)))) k = (decide (k ∈ l) && f k) := by
  induction l generalizing k with
  | nil => simp [packW, bit]
  | cons g l ih =>
    obtain ⟨hg, hl⟩ := List.nodup_cons.mp hl
    have ih := ih hl fun x hx => h32 x (List.mem_cons_of_mem g hx)
    have hg32 := h32 g List.mem_cons_self
    rw [List.map_cons, packW]
    cases hf : f g with
    | false =>
      have hzero : BitVec.ofNat 32 (b2n false * 2 ^ g) = 0#32 := by simp [b2n]
      rw [hzero, BitVec.add_zero, ih]
      by_cases hk : k = g
      · simp [hk, hg, hf]
      · simp [hk]
    | true =>
      have hone : BitVec.ofNat 32 (b2n true * 2 ^ g) = BitVec.twoPow 32 g := by
        apply BitVec.eq_of_toNat_eq
        simp [b2n, BitVec.toNat_twoPow]
      have hclear : packW (l.map fun g => (g, b2n (f g))) &&& BitVec.twoPow 32 g = 0 := by
        have hbit := ih g
        rw [bit] at hbit
        simp [BitVec.and_twoPow, hbit, hg]
      rw [hone, BitVec.add_eq_or_of_and_eq_zero _ _ hclear, bit, BitVec.getLsbD_or, ← bit, ih, BitVec.getLsbD_twoPow]
      by_cases hk : k = g
      · simp [hk, hf, hg32]
      · simp [hk, Ne.symm hk]

/-! ## LOAD_CTRL and SVN_MIN (R523 to R525, R528) -/

section
variable {a : TpAttr} {s : State}

/-- The loader runs a load. -/
def Loader.runs (l : Loader) : Prop := l.st = .verify ∨ l.st = .write

/-- LOAD_CTRL as a write stores it. -/
def loadCtrlStored (old d : Word) : Word := packW [(24, if 9 < fld d 24 4 then fld old 24 4 else fld d 24 4), (0, fld d 0 1)]

theorem regWrite_loadCtrl (sec : Bool) (owner : Byte) (v : Word) (s : State) :
    regWrite sec owner .loadCtrl v s = loadCtrlWrite v s := rfl

theorem loadCtrlWrite_busy (hrun : s.loader.runs) {v : Word} (hgo : bit v 31 = true) : loadCtrlWrite v s = none :=
  if_pos (by rcases hrun with h | h <;> simp [h, hgo])

theorem loadCtrlWrite_go (hrun : ¬s.loader.runs) {v : Word} (hgo : bit v 31 = true) :
    loadCtrlWrite v s = some (loadStart (fld v 24 4) (bit v 0)
      (BitVec.ofNat 64 ((s.reg .loadAddrHi).toNat * 2 ^ 32 + fld (s.reg .loadAddrLo) 8 24 * 256)) (s.reg .loadGal)
      (s.setReg .loadCtrl (loadCtrlStored (s.reg .loadCtrl) v))) := by
  rw [Loader.runs, not_or] at hrun
  unfold loadCtrlWrite
  dsimp only
  rw [if_neg (by simp [hrun]), if_pos hgo, reg_setReg_other s _ (by decide), reg_setReg_other s _ (by decide),
    reg_setReg_other s _ (by decide)]
  rfl

theorem loadCtrlWrite_cancel {v : Word} (hgo : bit v 31 = false) (hcancel : bit v 30 = true) :
    loadCtrlWrite v s = some (loadCancel (s.setReg .loadCtrl (loadCtrlStored (s.reg .loadCtrl) v))) := by
  unfold loadCtrlWrite
  dsimp only
  rw [if_neg (by simp [hgo]), if_neg (by simp [hgo]), if_pos hcancel]
  rfl

theorem loadCancel_idle (hrun : ¬s.loader.runs) : loadCancel s = s := by
  rw [Loader.runs, not_or] at hrun
  unfold loadCancel
  split
  · exact absurd ‹_› hrun.1
  · exact absurd ‹_› hrun.2
  · rfl

theorem loadCancel_verify (h : s.loader.st = .verify) :
    loadCancel s = { s with loader := { s.loader with st := .cancelled, jobs := Tbl.put none s.loader.jobs 0 none } } := by
  rw [loadCancel, h]
  rfl

/-- CANCEL of a load that writes leaves its target banks without an image (R528). -/
theorem loadCancel_write (h : s.loader.st = .write) :
    (loadCancel s).loader = { s.loader with st := .cancelled, jobs := Tbl.put none s.loader.jobs 0 none } ∧
      ∀ g ∈ loadGals s, bankOf (loadCancel s) g s.loader.bank = Bank.emptied .invalid (bankOf s g s.loader.bank) := by
  have hload : loadCancel s = setJob 0 none { targetBanks (Bank.emptied .invalid) s with loader := { s.loader with st := .cancelled } } := by
    rw [loadCancel, h]
  rw [hload]
  refine ⟨rfl, fun g hg => ?_⟩
  have hgal := gal_targetBanks (Bank.emptied .invalid) s g
  rw [if_pos hg] at hgal
  change ((targetBanks (Bank.emptied .invalid) s).gal g).bank s.loader.bank = _
  rw [hgal, bank_withBank, bankOf_eq]

/-! ### The rows of LOAD_CTRL -/

theorem loadCtrl_wrote (h : s.takes a true .loadCtrl) {v : Word} {t : State} (hw : loadCtrlWrite v s = some t) :
    act s (tpWrite a 0xB00C v s) = wrote a t := takes_wroteAt h 0xB00C v (by decide) (by decide) rfl ((regWrite_loadCtrl ..).trans hw)

theorem loadGo_denied (h : s.takes a true .loadCtrl) (hrun : s.loader.runs) (d : Word) :
    exec (.loadGo a d) s = denied a 0xB00C slverr s :=
  takes_deniedAt h 0xB00C _ (by decide) (by decide) rfl ((regWrite_loadCtrl ..).trans (loadCtrlWrite_busy hrun (by simp [bit_setFld])))

/-- GO stores SRC and BANK and starts a load of the image that the registers name. -/
theorem loadGo_starts (h : s.takes a true .loadCtrl) (hrun : ¬s.loader.runs) (d : Word) : exec (.loadGo a d) s =
    wrote a (loadStart (fld d 24 4) (bit d 0)
      (BitVec.ofNat 64 ((s.reg .loadAddrHi).toNat * 2 ^ 32 + (s.reg .loadAddrLo).toNat / 256 * 256)) (s.reg .loadGal)
      (s.setReg .loadCtrl (loadCtrlStored (s.reg .loadCtrl) d))) := by
  have haddr : fld (s.reg .loadAddrLo) 8 24 = (s.reg .loadAddrLo).toNat / 256 := by
    have hlt := (s.reg .loadAddrLo).isLt
    rw [fld, Nat.shiftRight_eq_div_pow]
    omega
  have hw := loadCtrlWrite_go hrun (v := setFld d 31 1 1) (by simp [bit_setFld])
  rw [haddr, loadCtrlStored, fld_setFld_other d 31 1 1 24 4 (by decide), fld_setFld_other d 31 1 1 0 1 (by decide),
    bit_setFld_other d 31 1 1 0 (by decide)] at hw
  exact loadCtrl_wrote h hw

theorem loadCancel_wrote (h : s.takes a true .loadCtrl) (d : Word) : exec (.loadCancel a d) s =
    wrote a (loadCancel (s.setReg .loadCtrl (loadCtrlStored (s.reg .loadCtrl) d))) := by
  have hgo : bit (setFld (setFld d 31 1 0) 30 1 1) 31 = false := by simp [bit_setFld]
  have hw := loadCtrlWrite_cancel (s := s) hgo (by simp [bit_setFld])
  have hfld (l m : Nat) (hl : l + m ≤ 30) : fld (setFld (setFld d 31 1 0) 30 1 1) l m = fld d l m := by
    rw [fld_setFld_other _ 30 1 1 l m (by omega), fld_setFld_other d 31 1 0 l m (by omega)]
  rw [loadCtrlStored, hfld 24 4 (by decide), hfld 0 1 (by decide)] at hw
  exact loadCtrl_wrote h hw

theorem fld_any (d : Word) : fld (storeFlds Reg.svnMin.flds (s.reg .svnMin) d) 0 16 = fld d 0 16 := by
  show fld (setFld (s.reg .svnMin) 0 16 (fld d 0 16)) 0 16 = fld d 0 16
  rw [fld_setFld _ _ _ _ (by decide)]
  exact Nat.mod_mod ..

/-- SVN_MIN never falls (R523). -/
theorem svnTo_max (d : Word) : fld ((svnTo d s).reg .svnMin) 0 16 = max (fld d 0 16) (fld (s.reg .svnMin) 0 16) := by
  unfold svnTo
  split
  · omega
  · rw [reg_rwWrite, fld_any]
    omega

theorem regWrite_svnMin (sec : Bool) (owner : Byte) (v : Word) (s : State) : regWrite sec owner .svnMin v s = some (svnTo v s) := rfl

theorem svnMinWrite_wrote (h : s.takes a true .svnMin) (d : Word) : exec (.svnMinWrite a d) s = wrote a (svnTo d s) :=
  takes_wroteAt h 0xB018 d (by decide) (by decide) rfl (regWrite_svnMin ..)

/-! ## Bank swap (R531) -/

/-- SWAP makes the other bank active. -/
theorem csCtrlWrite_swaps {g : Nat} (hok : (bankOf s g (!(s.gal g).act)).st = .valid ∧ loadInvolves s g = false) {v : Word}
    (hswap : bit v 31 = true) : ∃ t, csCtrlWrite g v s = some t ∧ t.gal g = { s.gal g with act := !(s.gal g).act } ∧
      (∀ k, k ≠ g → t.gal k = s.gal k) ∧ t.engs = s.engs := by
  let u := s.modGal g (fun x => { x with act := !(s.gal g).act })
  have hw : csCtrlWrite g v s = some (lgRecord 0x32 0 false (bankOf s g (!(s.gal g).act)).imgId (BitVec.ofNat 32 g) u) := by
    unfold csCtrlWrite
    rw [if_pos hswap, if_neg (by simp [hok])]
  have hrec := eq_of_butLog (butLog_lgRecord 0x32 0 false (bankOf s g (!(s.gal g).act)).imgId (BitVec.ofNat 32 g) u)
  generalize lgRecord 0x32 0 false (bankOf s g (!(s.gal g).act)).imgId (BitVec.ofNat 32 g) u = t at hw hrec
  have hgal (k : Nat) : t.gal k = u.gal k := by rw [hrec]; rfl
  refine ⟨t, hw, ?_, fun k hk => ?_, by rw [hrec]; rfl⟩
  · rw [hgal, gal_modGal]
  · rw [hgal, gal_modGal_other _ _ hk]

theorem csCtrlWrite_refused {g : Nat} (hbad : ¬((bankOf s g (!(s.gal g).act)).st = .valid ∧ loadInvolves s g = false)) {v : Word}
    (hswap : bit v 31 = true) : csCtrlWrite g v s = none := by
  rw [not_and_or, Bool.not_eq_false] at hbad
  rw [csCtrlWrite, if_pos hswap, if_pos hbad]

theorem regWrite_csCtrl (sec : Bool) (owner : Byte) (g : Nat) (v : Word) (s : State) :
    regWrite sec owner (.csCtrl g) v s = csCtrlWrite g v s := rfl

theorem bankSwap_swaps {g : BitVec 5} (h : s.takes a true (.csCtrl g.toNat)) (hpop : s.galPop g.toNat = true) (d : Word)
    (hok : (bankOf s g.toNat (!(s.gal g.toNat).act)).st = .valid ∧ loadInvolves s g.toNat = false) :
    ∃ t, exec (.bankSwap a g d) s = wrote a t ∧ t.gal g.toNat = { s.gal g.toNat with act := !(s.gal g.toNat).act } ∧
      (∀ k, k ≠ g.toNat → t.gal k = s.gal k) ∧ t.engs = s.engs := by
  have hlt := g.isLt
  obtain ⟨t, hw, hafter⟩ := csCtrlWrite_swaps hok (v := setFld d 31 1 1) (by simp [bit_setFld])
  exact ⟨t, takes_wroteAt h _ _ (by omega) (by omega) (dec_gal s.wings g (of_decide_eq_true hpop)).1 ((regWrite_csCtrl ..).trans hw), hafter⟩

theorem bankSwap_denied {g : BitVec 5} (h : s.takes a true (.csCtrl g.toNat)) (hpop : s.galPop g.toNat = true) (d : Word)
    (hbad : ¬((bankOf s g.toNat (!(s.gal g.toNat).act)).st = .valid ∧ loadInvolves s g.toNat = false)) :
    exec (.bankSwap a g d) s = denied a (0xA0000 + 0x1000 * g.toNat) slverr s := by
  have hlt := g.isLt
  have hw := csCtrlWrite_refused hbad (v := setFld d 31 1 1) (by simp [bit_setFld])
  exact takes_deniedAt h _ _ (by omega) (by omega) (dec_gal s.wings g (of_decide_eq_true hpop)).1 ((regWrite_csCtrl ..).trans hw)

end

/-! ## The two readings (R525 to R527) -/

section
variable {s : State} (ht : s.boot.tstMode = false) (hup : coreUp s = true)
include ht hup

theorem loadVerifyDone_reads (hst : s.loader.st = .verify) :
    (readOver s 0 = none → exec (.loadVerifyDone ()) s = .next (pumpLoads s)) ∧
    (readOver s 0 = some none → exec (.loadVerifyDone ()) s = .next (loadFail 0x02 none s)) := by
  have hexec : exec (.loadVerifyDone ()) s = .next _ := act_next ht _
  rw [if_neg (by simp [hup, hst])] at hexec
  constructor
  all_goals intro h; rw [h] at hexec; exact hexec

theorem loadVerifyDone_fails (hst : s.loader.st = .verify) {b : List Byte} (hb : readOver s 0 = some (some b))
    (hbad : imgReason s b ≠ 0) : exec (.loadVerifyDone ()) s = .next (loadFail (imgReason s b) (some (imgId b)) s) := by
  have hexec : exec (.loadVerifyDone ()) s = .next _ := act_next ht _
  rw [if_neg (by simp [hup, hst]), hb] at hexec
  dsimp only at hexec
  split at hexec
  · exact absurd ‹_› hbad
  · exact hexec

theorem loadVerifyDone_raises (hst : s.loader.st = .verify) {b : List Byte} (hb : readOver s 0 = some (some b))
    (hgood : imgReason s b = 0) (hoff : ∃ g ∈ loadGals s, s.domOn (7 + g) = false ∧ cannotRaise s g = false) :
    exec (.loadVerifyDone ()) s = .next (raiseTargets s) := by
  have hexec : exec (.loadVerifyDone ()) s = .next _ := act_next ht _
  rw [if_neg (by simp [hup, hst]), hb] at hexec
  dsimp only at hexec
  rw [hgood] at hexec
  refine hexec.trans (congrArg _ (if_pos ?_))
  obtain ⟨g, hg, hdom, hraise⟩ := hoff
  exact List.any_eq_true.mpr ⟨g, hg, by simp [hdom, hraise]⟩

/-- The second reading begins with the target banks empty and LOADING, those whose domain is ON (R526). -/
theorem loadVerifyDone_writes (hst : s.loader.st = .verify) {b : List Byte} (hb : readOver s 0 = some (some b))
    (hgood : imgReason s b = 0) (hon : ∀ g ∈ loadGals s, s.domOn (7 + g) = true ∨ cannotRaise s g = true) : ∃ u : State,
      exec (.loadVerifyDone ()) s = .next (startRead 0 (srcInst s.loader.src.toNat) s.loader.addr (256 + 16 * imgWords b) false u) ∧
      u.loader.st = .write ∧ u.loader.digest = sha384 (imgBody b (imgWords b)) ∧ u.loader.words = imgWords b ∧
      (∀ g < 32, bit u.loader.targets g = (bit s.loader.targets g && s.domOn (7 + g)) ∧
        (bit u.loader.targets g = true → bankOf u g s.loader.bank = Bank.emptied .loading (bankOf s g s.loader.bank)) ∧
        (bit u.loader.targets g = false → u.gal g = s.gal g) ∧ bankOf u g (!s.loader.bank) = bankOf s g (!s.loader.bank)) := by
  have hexec : exec (.loadVerifyDone ()) s = .next _ := act_next ht _
  rw [if_neg (by simp [hup, hst]), hb] at hexec
  dsimp only at hexec
  rw [hgood] at hexec
  have hready : (loadGals s).any (fun g => !s.domOn (7 + g) && !cannotRaise s g) = false := by
    refine List.any_eq_false.mpr fun g hg => ?_
    rcases hon g hg with h | h <;> simp [h]
  rw [if_neg (ne_true_of_eq_false hready)] at hexec
  let l : Loader := { s.loader with
    st := .write, targets := packW ((loadGals s).map fun g => (g, b2n (s.domOn (7 + g)))), digest := sha384 (imgBody b (imgWords b)),
    words := imgWords b }
  refine ⟨targetBanks (Bank.emptied .loading) { s with loader := l }, hexec, ?_⟩
  have htargets (g : Nat) (hg : g < 32) : bit l.targets g = (bit s.loader.targets g && s.domOn (7 + g)) := by
    rw [bit_packW_flags _ _ (nodup_loadGals s) fun x hx => (mem_loadGals.mp hx).1]
    simp [mem_loadGals, hg]
  have hgal (g : Nat) := gal_targetBanks (Bank.emptied .loading) { s with loader := l } g
  rw [loader_targetBanks]
  refine ⟨rfl, rfl, rfl, fun g hg => ⟨htargets g hg, fun hbit => ?_, fun hbit => ?_, ?_⟩⟩
  · rw [bankOf_eq, hgal, if_pos (mem_loadGals.mpr ⟨hg, hbit⟩)]
    exact bank_withBank ..
  · rw [hgal, if_neg (fun h => by simp [(mem_loadGals.mp h).2] at hbit)]
    rfl
  · rw [bankOf_eq, hgal]
    split
    · exact bank_withBank_not ..
    · rfl

theorem loadWriteDone_reads (hst : s.loader.st = .write) :
    (readOver s 0 = none → exec (.loadWriteDone ()) s = .next (pumpLoads s)) ∧
    (readOver s 0 = some none → exec (.loadWriteDone ()) s = .next (loadFail 0x02 none s)) := by
  have hexec : exec (.loadWriteDone ()) s = .next _ := act_next ht _
  dsimp only at hexec
  rw [if_neg (by simp [hup, hst])] at hexec
  constructor
  all_goals intro h; rw [h] at hexec; exact hexec

theorem loadWriteDone_fails (hst : s.loader.st = .write) {b : List Byte} (hb : readOver s 0 = some (some b))
    (hbad : sha384 (imgBody b s.loader.words) ≠ s.loader.digest) :
    exec (.loadWriteDone ()) s = .next (loadFail 0x0A (some (imgId b)) s) := by
  have hexec : exec (.loadWriteDone ()) s = .next _ := act_next ht _
  dsimp only at hexec
  rw [if_neg (by simp [hup, hst]), hb] at hexec
  exact hexec.trans (congrArg _ (if_neg hbad))

/-- The second reading ends with the target banks VALID and filled with the image read (R525). -/
theorem loadWriteDone_fills (hst : s.loader.st = .write) {b : List Byte} (hb : readOver s 0 = some (some b))
    (hgood : sha384 (imgBody b s.loader.words) = s.loader.digest) : ∃ t, exec (.loadWriteDone ()) s = .next t ∧
      t.loader.st = .done ∧ t.loader.ok = s.loader.targets ∧ jobOf t 0 = none ∧
      (∀ g, (g ∈ loadGals s → bankOf t g s.loader.bank = Bank.filled s.loader.src s.loader.addr b (bankOf s g s.loader.bank)) ∧
        (g ∉ loadGals s → t.gal g = s.gal g) ∧ bankOf t g (!s.loader.bank) = bankOf s g (!s.loader.bank)) := by
  have hexec : exec (.loadWriteDone ()) s = .next _ := act_next ht _
  dsimp only at hexec
  rw [if_neg (by simp [hup, hst]), hb] at hexec
  dsimp only at hexec
  rw [if_pos hgood] at hexec
  let u := setJob 0 none s
  let t : State := { targetBanks (Bank.filled s.loader.src s.loader.addr b) u with
    loader := { u.loader with st := .done, ok := s.loader.targets } }
  have hrec := eq_of_butLog (butLog_lgRecord 0x30 0 false (imgId b) (loadStatWord t.loader) t)
  change exec (.loadWriteDone ()) s = .next (lgRecord 0x30 0 false (imgId b) (loadStatWord t.loader) t) at hexec
  generalize lgRecord 0x30 0 false (imgId b) (loadStatWord t.loader) t = v at hrec hexec
  have hload : v.loader = { u.loader with st := .done, ok := s.loader.targets } := by rw [hrec]
  have hgal (g : Nat) : v.gal g = if g ∈ loadGals s then (s.gal g).withBank s.loader.bank (Bank.filled s.loader.src s.loader.addr b)
      else s.gal g := by
    rw [hrec]
    exact gal_targetBanks (Bank.filled s.loader.src s.loader.addr b) u g
  refine ⟨v, hexec, by rw [hload], by rw [hload], ?_, fun g => ⟨fun hg => ?_, fun hg => ?_, ?_⟩⟩
  · rw [jobOf, hload]
    exact Tbl.get_put_same none s.loader.jobs 0 none
  · rw [bankOf_eq, hgal, if_pos hg, bank_withBank, bankOf_eq]
  · rw [hgal, if_neg hg]
  · rw [bankOf_eq, hgal]
    split
    · exact bank_withBank_not ..
    · rfl

/-! ## Reloads (R532, R534) -/

variable {g : BitVec 5} {b : Bool} (hdom : s.domOn (7 + g.toNat) = true) (hst : (bankOf s g.toNat b).st = .reloading)
include hdom hst

theorem bankReload_reads (h : readOver s (reloadKey g.toNat b) = none) : exec (.bankReload g b ()) s = .next (pumpLoads s) := by
  have hexec : exec (.bankReload g b ()) s = .next _ := act_next ht _
  dsimp only at hexec
  rw [if_neg (by simp [hup, hst, hdom]), h] at hexec
  exact hexec

theorem bankReload_fills {c : List Byte} (h : readOver s (reloadKey g.toNat b) = some (some c))
    (hgood : reloadOk s (bankOf s g.toNat b) c = true) :
    let x := bankOf s g.toNat b
    let t := modBank g.toNat b (Bank.filled x.srcPort x.srcAddr c) (setJob (reloadKey g.toNat b) none s)
    exec (.bankReload g b ()) s = .next (startReloads g.toNat (if x.words.isEmpty then t
      else openRecovery (recov (32 + g.toNat) (b2n b) none) t)) := by
  have hexec : exec (.bankReload g b ()) s = .next _ := act_next ht _
  dsimp only at hexec
  rw [if_neg (by simp [hup, hst, hdom]), h] at hexec
  dsimp only at hexec
  rw [if_pos hgood] at hexec
  exact hexec

theorem bankReload_loses {r : Option (List Byte)} (h : readOver s (reloadKey g.toNat b) = some r)
    (hbad : ∀ c, r = some c → reloadOk s (bankOf s g.toNat b) c = false) : exec (.bankReload g b ()) s =
      .next (startReloads g.toNat (assertFault (32 + g.toNat) (faultOf 9 (b2n b))
        (loseBank g.toNat b (setJob (reloadKey g.toNat b) none s)))) := by
  have hexec : exec (.bankReload g b ()) s = .next _ := act_next ht _
  dsimp only at hexec
  rw [if_neg (by simp [hup, hst, hdom]), h] at hexec
  refine hexec.trans (congrArg (fun t => Host.Outcome.next (startReloads g.toNat t)) (if_neg ?_))
  cases r with
  | none => exact Bool.false_ne_true
  | some c => simp [hbad c rfl]

end

/-- A loaded bank has 4,096 words (R518). -/
theorem length_bankWords {img : List Byte} (h : imgWords img ≤ 4096) : (bankWords img).length = 4096 := by
  simp [bankWords, upTo]
  omega

/-- Every word of a loaded bank carries its check bits (R518). -/
theorem checked_bankWords {img : List Byte} {m : MWord} (hm : m ∈ bankWords img) :
    m.chkHi = Config.secDed (m.w.extractLsb' 64 64) ∧ m.chkLo = Config.secDed (m.w.extractLsb' 0 64) := by
  rcases List.mem_append.mp hm with hm | hm
  · obtain ⟨k, -, rfl⟩ := List.mem_map.mp hm
    exact ⟨rfl, rfl⟩
  · rw [(List.mem_replicate.mp hm).2]
    exact ⟨rfl, rfl⟩

/-- Settles O37: what a write of LOAD_CTRL, of CS_CTRL and of SVN_MIN does, and what the end of each reading does by what was read. -/
theorem controlStoreLoads : Obligations.ControlStoreLoads := by
  unfold Obligations.ControlStoreLoads
  refine fun s => ⟨fun a d h => ?loads, fun a d h => ⟨_, svnMinWrite_wrote h d, svnTo_max d⟩,
    fun a g d h hpop => ?swap, fun ht hup => ⟨fun hst => (loadVerifyDone_reads ht hup hst).1, fun hst => (loadWriteDone_reads ht hup hst).1,
      fun hst => (loadVerifyDone_reads ht hup hst).2, fun hst => (loadWriteDone_reads ht hup hst).2, fun b hb =>
      ⟨fun hst => loadVerifyDone_fails ht hup hst hb, fun hst => loadVerifyDone_raises ht hup hst hb,
        fun hst => loadVerifyDone_writes ht hup hst hb, fun hst => loadWriteDone_fills ht hup hst hb,
        fun hst => loadWriteDone_fails ht hup hst hb⟩, fun g b hdom hst => ?reload⟩,
    fun src addr img x himg => ⟨length_bankWords himg, fun m hm => checked_bankWords hm⟩⟩
  case loads =>
    intro run t
    have hcancel : exec (.loadCancel a d) s = wrote a (loadCancel t) := loadCancel_wrote h d
    have hload : t.loader = s.loader := State.setReg_loader ..
    refine ⟨fun hrun => loadGo_denied h hrun d, fun hrun => loadGo_starts h hrun d, fun hrun => ?_, fun hst => ?_, fun hst => ?_⟩
    · exact hcancel.trans (congrArg (wrote a) (loadCancel_idle (s := t) (by rw [hload]; exact hrun)))
    · refine hcancel.trans (congrArg (wrote a) ((loadCancel_verify (s := t) (by rw [hload]; exact hst)).trans ?_))
      rw [hload]
    · obtain ⟨hgone, hbanks⟩ := loadCancel_write (s := t) (by rw [hload]; exact hst)
      rw [hload] at hgone hbanks
      refine ⟨_, hcancel, hgone, fun g hg => ?_⟩
      have hg' : g ∈ loadGals t := by rw [loadGals, hload]; exact hg
      rw [hbanks g hg']
      exact ⟨rfl, rfl⟩
  case swap =>
    exact ⟨bankSwap_swaps h hpop d, bankSwap_denied h hpop d⟩
  case reload =>
    refine ⟨bankReload_reads ht hup hdom hst, fun c h hok hempty => ?_, fun c h hok hfull => ?_, fun r h hbad =>
      bankReload_loses ht hup hdom hst h hbad⟩
    · refine (bankReload_fills ht hup hdom hst h hok).trans ?_
      rw [hempty]
      rfl
    · refine (bankReload_fills ht hup hdom hst h hok).trans ?_
      rw [if_neg (by simpa using hfull)]

end Sys2Proof.Machine
end

section
/-! REQ and WDAT beats, and the reissue after RETRY (R430, R436, R437, R439, R445, R446, R452). -/

namespace Sys2Proof.Machine

/-! ## The ID of a REQ beat (R445, R446) -/

section
variable {s : State} {x : Txn}

theorem pickId_stream {v : Nat} {y : Txn}
    (h : s.txns.find? (fun y => y.openOn x.port.toNat && sameStream x y) = some y) : pickId s x v = y.rid := by
  simp [pickId, h]

theorem pickId_noStream {v : Nat} (h : s.txns.find? (fun y => y.openOn x.port.toNat && sameStream x y) = none) :
    pickId s x v = BitVec.ofNat 9 ((v + ((upTo (2 ^ idWidth x.port.toNat)).find? (fun i =>
      !s.txns.any (fun y => y.openOn x.port.toNat && y.rid.toNat == (v + i) % 2 ^ idWidth x.port.toNat))).getD 0)
      % 2 ^ idWidth x.port.toNat) := by
  rw [pickId, h]

theorem two_pow_idWidth_le (p : Nat) : 2 ^ idWidth p ≤ 2 ^ 9 :=
  Nat.pow_le_pow_right (by decide) (by unfold idWidth; split_ifs <;> decide)

theorem toNat_ofNat_idWidth (p n : Nat) : (BitVec.ofNat 9 (n % 2 ^ idWidth p)).toNat = n % 2 ^ idWidth p := by
  have hlt := Nat.mod_lt n (Nat.two_pow_pos (idWidth p))
  rw [BitVec.toNat_ofNat]
  exact Nat.mod_eq_of_lt (hlt.trans_le (two_pow_idWidth_le p))

/-- Every residue is reached from `v` by a step below the modulus. -/
theorem exists_add_mod_eq {w i : Nat} (v : Nat) (hi : i < w) : ∃ j < w, (v + j) % w = i := by
  refine ⟨(i + (w - v % w)) % w, Nat.mod_lt _ (by omega), ?_⟩
  have hv := Nat.mod_lt v (show 0 < w by omega)
  rw [Nat.add_mod_mod, ← Nat.mod_add_mod, show v % w + (i + (w - v % w)) = i + w by omega, Nat.add_mod_right,
    Nat.mod_eq_of_lt hi]

/-- While some ID of the port is free, the search from `v` ends at one that is. -/
theorem pickId_free {v i : Nat} (h : s.txns.find? (fun y => y.openOn x.port.toNat && sameStream x y) = none)
    (hi : i < 2 ^ idWidth x.port.toNat) (hfree : ∀ y ∈ s.txns, y.openOn x.port.toNat = true → y.rid.toNat ≠ i) :
    ∀ y ∈ s.txns, y.openOn x.port.toNat = true → y.rid ≠ pickId s x v := by
  intro y hy hopen heq
  rw [pickId_noStream h] at heq
  obtain ⟨j, hj, hji⟩ := exists_add_mod_eq v hi
  have hrid := (congrArg BitVec.toNat heq).trans (toNat_ofNat_idWidth ..)
  cases hfind : (upTo (2 ^ idWidth x.port.toNat)).find? (fun i =>
      !s.txns.any (fun y => y.openOn x.port.toNat && y.rid.toNat == (v + i) % 2 ^ idWidth x.port.toNat)) with
  | some k =>
    have hk := List.find?_some hfind
    simp only [hfind, Option.getD_some] at hrid
    simp only [Bool.not_eq_true', List.any_eq_false, Bool.and_eq_true, beq_iff_eq, not_and] at hk
    exact hk y hy hopen hrid
  | none =>
    have hall := List.find?_eq_none.mp hfind j (List.mem_range.mpr hj)
    simp only [hji, Bool.not_eq_true', Bool.not_eq_false, List.any_eq_true, Bool.and_eq_true, beq_iff_eq] at hall
    obtain ⟨z, hz, hzo, hzr⟩ := hall
    exact hfree z hz hzo hzr

theorem pickId_spec (s : State) (x : Txn) (v : Nat) :
    (∃ y ∈ s.txns, y.openOn x.port.toNat = true ∧ sameStream x y = true ∧ y.rid = pickId s x v) ∨
    ((∀ y ∈ s.txns, y.openOn x.port.toNat = true → sameStream x y = false) ∧ (pickId s x v).toNat < 2 ^ idWidth x.port.toNat ∧
      ((∃ i, i < 2 ^ idWidth x.port.toNat ∧ ∀ y ∈ s.txns, y.openOn x.port.toNat = true → y.rid.toNat ≠ i) →
        ∀ y ∈ s.txns, y.openOn x.port.toNat = true → y.rid ≠ pickId s x v)) := by
  cases hfind : s.txns.find? (fun y => y.openOn x.port.toNat && sameStream x y) with
  | some y =>
    have hy := List.find?_some hfind
    simp only [Bool.and_eq_true] at hy
    exact .inl ⟨y, List.mem_of_find?_eq_some hfind, hy.1, hy.2, (pickId_stream hfind).symm⟩
  | none =>
    refine .inr ⟨fun y hy hopen => ?_, ?_, fun ⟨i, hi, hfree⟩ => pickId_free hfind hi hfree⟩
    · simpa [hopen] using List.find?_eq_none.mp hfind y hy
    · rw [pickId_noStream hfind, toNat_ofNat_idWidth]
      exact Nat.mod_lt _ (Nat.two_pow_pos _)

end

/-! ## The REQ beat -/

section
variable (x : Txn) (s : State)

@[simp] theorem txns_endGrant : (endGrant x s).txns = s.txns := rfl
@[simp] theorem nextTxn_endGrant : (endGrant x s).nextTxn = s.nextTxn := rfl
@[simp] theorem engs_endGrant : (endGrant x s).engs = s.engs := rfl
@[simp] theorem chans_endGrant : (endGrant x s).chans = s.chans := rfl

/-- The state after a REQ beat of ID `id`, its port's grant apart. -/
def State.withReqSent (s : State) (x : Txn) (id : BitVec 9) : State :=
  { s with fresh := s.fresh + 1, nextTxn := s.nextTxn + 1,
           txns := s.txns.map (fun y => if y.id = x.id then { y with stage := .sent, rid := id, ord := s.nextTxn } else y) }

theorem sendReq_eq : sendReq x s =
    if x.beats = 0 then endGrant x (s.withReqSent x (pickId s x (Config.free s.fresh).toNat))
    else s.withReqSent x (pickId s x (Config.free s.fresh).toNat) := rfl

theorem sendReq_sends : ∃ id : BitVec 9, id = pickId s x (Config.free s.fresh).toNat ∧
    (sendReq x s).txns = s.txns.map (fun y => if y.id = x.id then { y with stage := .sent, rid := id, ord := s.nextTxn } else y) ∧
    (sendReq x s).nextTxn = s.nextTxn + 1 ∧ (sendReq x s).engs = s.engs ∧ (sendReq x s).chans = s.chans ∧
    (x.beats ≠ 0 → (sendReq x s).arbs = s.arbs) := by
  refine ⟨_, rfl, ?_⟩
  rw [sendReq_eq]
  split
  · next h => exact ⟨rfl, rfl, rfl, rfl, fun hn => absurd h hn⟩
  · exact ⟨rfl, rfl, rfl, rfl, fun _ => rfl⟩

end

/-! ## Beats and reissues -/

section
variable {t : Nat} {x : Txn} {s : State}

/-- A granted burst: one of Docent's outside its region is dropped, and any other waits until its port presents it (R585). -/
theorem beatTransfer_granted (ht : s.boot.tstMode = false) (hx : s.txn t = some x) (hst : x.stage = .granted) :
    exec (.beatTransfer t) s = .next (if docentMay s x = true then if portPresents s x.port.toNat = true then sendReq x s else s
      else endGrant x (s.dropTxn t)) := by
  have hexec : exec (.beatTransfer t) s = .next _ := act_next ht _
  simp only [hx, hst, if_true] at hexec
  rw [hexec]
  cases docentMay s x <;> rfl

theorem beatTransfer_sent (ht : s.boot.tstMode = false) (hx : s.txn t = some x) (hst : x.stage = .sent) :
    exec (.beatTransfer t) s = .next (
      if 0 < x.beats ∧ x.forced = none ∧ portRuns s x.port.toNat = true ∧ wdatBehind s x = false then
        let u := s.modTxn t (fun y => { y with beats := y.beats - 1 })
        let v := if x.torn then u else tmAdd (portTm x.port.toNat)
          (beatBytes x.port.toNat x.addr x.n (beatsOf x.port.toNat x.addr x.n - x.beats)) u
        if x.beats = 1 then endGrant x v else v
      else s) := by
  have hexec : exec (.beatTransfer t) s = .next _ := act_next ht _
  simp only [hx, hst, reduceCtorEq, if_false, true_and, Option.isNone_iff_eq_none, Bool.not_eq_true'] at hexec
  exact hexec

theorem retryReissue_eq (ht : s.boot.tstMode = false) (hx : s.txn t = some x) :
    exec (.retryReissue t) s = .next (
      if x.stage = .retry ∧ portRuns s x.port.toNat = true then
        ({ s with nextTxn := s.nextTxn + 1 } : State).modTxn t (fun y =>
          { y with stage := .sent, retries := y.retries + 1, ord := s.nextTxn,
                   beats := if y.op = 1 ∨ y.op = 5 then beatsOf y.port.toNat y.addr y.n else 0 })
      else s) := by
  have hexec : exec (.retryReissue t) s = .next _ := act_next ht _
  simp only [hx, Bool.or_eq_true, beq_iff_eq] at hexec
  exact hexec

end

/-- Settles O31: the beat and reissue equations of one transaction, with the choice of its ID (`pickId_spec`). -/
theorem beatsAndRetries : Obligations.BeatsAndRetries := by
  intro t x s ht hx p
  refine ⟨fun hst hmay => ?_, fun hst hmay hpres => ?_, fun hst hmay hpres => ?_, fun hst hb hf hrun hbehind => ?_,
    fun hst hno => ?_, fun hst hrun => ?_, fun hno => ?_⟩
  · rw [beatTransfer_granted ht hx hst, hmay, if_neg Bool.false_ne_true]
  · obtain ⟨id, hid, htxns, hnext, hengs, hchans, harbs⟩ := sendReq_sends x s
    refine ⟨id, sendReq x s, ?_, htxns, hnext, hengs, hchans, harbs, hid ▸ pickId_spec s x _⟩
    rw [beatTransfer_granted ht hx hst, if_pos hmay, if_pos hpres]
  · rw [beatTransfer_granted ht hx hst, if_pos hmay, if_neg (Bool.not_eq_true _ ▸ hpres)]
  · rw [beatTransfer_sent ht hx hst, if_pos ⟨hb, hf, hrun, hbehind⟩]
  · rw [beatTransfer_sent ht hx hst, if_neg]
    rintro ⟨hb, -, hrun, hbehind⟩
    rcases hno with h | h | h
    · omega
    · exact absurd (hrun.symm.trans h) (by decide)
    · exact absurd (hbehind.symm.trans h) (by decide)
  · rw [retryReissue_eq ht hx, if_pos ⟨hst, hrun⟩]
  · rw [retryReissue_eq ht hx, if_neg]
    rintro ⟨hst, hrun⟩
    exact hno.elim (fun h => h hst) (fun h => absurd (hrun.symm.trans h) (by decide))

end Sys2Proof.Machine
end

section
/-! Snoops, coherent answers and their reissues (R457 to R467, R491, Table 12-16). -/

namespace Sys2Proof.Machine

section
variable {s : State}

@[simp] theorem line_modLine (s : State) (l : Nat) (f : VLine → VLine) : (s.modLine l f).line l = f (s.line l) :=
  Tbl.get_put_same ..

theorem line_modLine_other (s : State) {l k : Nat} (f : VLine → VLine) (h : k ≠ l) : (s.modLine l f).line k = s.line k :=
  Tbl.get_put_other _ _ _ _ _ h

/-! ## Snoops (R464, R465) -/

theorem exec_snoop (ht : s.boot.tstMode = false) (hserved : snoopServed s = true) (inval cp : Bool) (line : BitVec 58) :
    exec (if inval then .snpInvalid cp line else .snpShared cp line) s = .next (snoop inval cp line.toNat s) := by
  cases inval with
  | true =>
    have hexec : exec (.snpInvalid cp line) s = .next _ := act_next ht _
    rwa [if_pos hserved] at hexec
  | false =>
    have hexec : exec (.snpShared cp line) s = .next _ := act_next ht _
    rwa [if_pos hserved] at hexec

/-- The answer to a snoop of a line of state `st` (Table 12-16). -/
def snoopCode (inval : Bool) : LineSt → BitVec 3
  | .I => 0
  | .M => if inval then 2 else 3
  | _ => if inval then 0 else 1

theorem snooped_leaves (inval : Bool) (l : Nat) (s : State) :
    ((snooped inval l s).line l).st = (if inval ∨ (s.line l).st = .I then .I else .S) ∧
    (∀ k, k ≠ l → (snooped inval l s).line k = s.line k) ∧ (snooped inval l s).txns = s.txns := by
  refine ⟨?_, fun k hk => line_modLine_other _ _ hk, rfl⟩
  rw [snooped, line_modLine]
  cases inval <;> simp

/-- With no coherent transaction open, the line's state alone gives the answer. -/
theorem snoop_quiet (inval cp : Bool) {l : Nat} (hopen : ∀ op : BitVec 3, 2 ≤ op.toNat → cohOpen s l op = false) :
    (snoop inval cp l s).snpRsp = some
      { cp := cp, code := snoopCode inval (s.line l).st, data := if (s.line l).st = .M then (s.line l).data else [] } ∧
    ((snoop inval cp l s).line l).st = (if inval ∨ (s.line l).st = .I then .I else .S) ∧
    (∀ k, k ≠ l → (snoop inval cp l s).line k = s.line k) ∧ (snoop inval cp l s).txns = s.txns := by
  have hleaves := snooped_leaves inval l s
  have h2 : (cohOpen s l 2 || cohOpen s l 3) = false := by rw [hopen 2 (by decide), hopen 3 (by decide)]; rfl
  rw [snoop, if_neg (hopen 5 (by decide) ▸ Bool.false_ne_true), if_neg (hopen 4 (by decide) ▸ Bool.false_ne_true),
    if_neg (h2 ▸ Bool.false_ne_true)]
  cases hst : (s.line l).st with
  | I => exact ⟨rfl, hst.trans (if_pos (.inr rfl)).symm, fun _ _ => rfl, rfl⟩
  | S => exact ⟨rfl, by rwa [hst] at hleaves⟩
  | E => exact ⟨rfl, by rwa [hst] at hleaves⟩
  | M => exact ⟨rfl, by rwa [hst] at hleaves⟩

theorem snoop_writeBackOpen (inval cp : Bool) {l : Nat} (h5 : cohOpen s l 5 = true) :
    snoop inval cp l s = { s with snpRsp := some { cp := cp, code := 4, data := [] } } := by
  rw [snoop, if_pos h5]
  rfl

theorem snoop_evictOpen (inval cp : Bool) {l : Nat} (h5 : cohOpen s l 5 = false) (h4 : cohOpen s l 4 = true) :
    snoop inval cp l s = { s with snpRsp := some { cp := cp, code := 0, data := [] } } := by
  rw [snoop, if_neg (h5 ▸ Bool.false_ne_true), if_pos h4]
  rfl

theorem snoop_readOpen (inval cp : Bool) {l : Nat} (h5 : cohOpen s l 5 = false) (h4 : cohOpen s l 4 = false)
    (h : cohOpen s l 2 = true ∨ cohOpen s l 3 = true) :
    snoop inval cp l s = { s.modLine l (fun _ => {}) with snpRsp := some { cp := cp, code := 0, data := [] } } := by
  rw [snoop, if_neg (h5 ▸ Bool.false_ne_true), if_neg (h4 ▸ Bool.false_ne_true), if_pos (Bool.or_eq_true .. ▸ h)]
  rfl

/-! ## Acknowledgements (R452, R453, R466) -/

/-- The codes 1 to 4 are final whatever the retries. -/
theorem finalCode_of_le {x : Txn} {c : BitVec 3} (h1 : 1 ≤ c.toNat) (h4 : c.toNat ≤ 4) : FinalCode s x c := by
  refine ⟨?_, ?_⟩
  · rintro rfl
    exact absurd h1 (by decide)
  · rintro rfl
    exact absurd h4 (by decide)

theorem noted_of_le {x : Txn} {c : BitVec 3} (h4 : c.toNat ≤ 4) : noted s x c = portError x c s := by
  rw [noted, if_neg]
  rintro rfl
  exact absurd h4 (by decide)

section
variable {t : Nat} {x : Txn}

theorem evictAck_answered (ht : s.boot.tstMode = false) (hx : answerable s t [4] = some x) {code : BitVec 3}
    {c : Option (BitVec 3)} {u : State} (ha : answered x code s = (c, u)) :
    exec (.evictAck ⟨t, code⟩) s = .next (if c = none then u else flushDone (u.dropTxn t)) := by
  have hexec : exec (.evictAck ⟨t, code⟩) s = .next _ := act_next ht _
  simp only [hx, ha] at hexec
  rw [hexec]
  cases c <;> rfl

theorem wbAck_answered (ht : s.boot.tstMode = false) (hx : answerable s t [5] = some x) {code c : BitVec 3} {u : State}
    (ha : answered x code s = (some c, u)) :
    exec (.wbAck t code) s = .next (if c = 0 ∨ x.discard = true then flushDone (u.dropTxn t)
      else cohFailed x (install (sliceOf u ((x.wing.map BitVec.toNat).getD 0)) (x.addr.toNat / 64) .M x.data u)) := by
  have hexec : exec (.wbAck t code) s = .next _ := act_next ht _
  simp only [hx, ha] at hexec
  exact hexec

/-! ## Reissues (R467) -/

theorem coherentReissue_again (ht : s.boot.tstMode = false) (hx : s.txn t = some x) (hst : x.stage = .again) :
    exec (.coherentReissue t) s = .next (
      if x.op = 5 then
        if (s.line (x.addr.toNat / 64)).st = .M then
          (s.modTxn t (fun y => { y with
            stage := .atWing, data := (s.line (x.addr.toNat / 64)).data, beats := beatsOf y.port.toNat y.addr y.n })).modLine (x.addr.toNat / 64) (fun _ => {})
        else flushDone (s.dropTxn t)
      else if s.vitFlush then flushDone (s.dropTxn t)
      else if s.txns.any (fun y => (y.op == 4 || y.op == 5) && y.addr == x.addr) then s
      else s.modTxn t (fun y => { y with stage := .atWing })) := by
  have hexec : exec (.coherentReissue t) s = .next _ := act_next ht _
  simp only [hx, hst, if_true] at hexec
  exact hexec

/-- The line of an address is written or given up at its home. -/
theorem any_leaves_iff (l : List Txn) (a : DWord) : (l.any (fun y => (y.op == 4 || y.op == 5) && y.addr == a) = true) ↔
    ∃ y ∈ l, (y.op = 4 ∨ y.op = 5) ∧ y.addr = a := by simp

end

end

/-- Settles O33: one equation per snoop row, per answer and per reissue. -/
theorem coherence : Obligations.Coherence := by
  intro s ht
  refine ⟨fun inval cp line hserved hopen => ?_, fun inval cp line hserved => ?_, fun t x hx hf => ?_, fun t x hx hf => ?_,
    fun t x code hx hf hd h1 h4 => ?_, fun t x hx hst hflush => ?_⟩
  · obtain ⟨hrsp, hline⟩ := snoop_quiet inval cp hopen
    refine ⟨_, exec_snoop ht hserved inval cp line, hrsp.trans ?_, hline⟩
    cases (s.line line.toNat).st <;> rfl
  · refine ⟨fun h5 => ?_, fun h5 h4 => ?_, fun h5 h4 h => ?_⟩
    · exact (exec_snoop ht hserved ..).trans (congrArg _ (snoop_writeBackOpen inval cp h5))
    · exact (exec_snoop ht hserved ..).trans (congrArg _ (snoop_evictOpen inval cp h5 h4))
    · exact (exec_snoop ht hserved ..).trans (congrArg _ (snoop_readOpen inval cp h5 h4 h))
  · refine ⟨evictAck_answered ht hx (answered_okay hf), fun code h1 h4 => ?_, fun hr => ?_⟩
    · exact noted_of_le h4 ▸ evictAck_answered ht hx (answered_final hf (finalCode_of_le h1 h4))
    · exact evictAck_answered ht hx (answered_retry hf hr)
  · exact wbAck_answered ht hx (answered_okay hf)
  · have hfinal : FinalCode s x code := finalCode_of_le h1 h4
    intro u
    have hack := wbAck_answered ht hx (answered_final hf hfinal)
    rw [noted_of_le h4, if_neg] at hack
    · exact hack
    · rw [hd]
      exact fun h => h.elim (errCode_ne_zero hfinal.1) Bool.false_ne_true
  · have hre := coherentReissue_again ht hx hst
    refine ⟨fun h5 hall => ?_, fun h5 hex => ?_, fun h5 hM => ?_, fun h5 hM => ?_⟩
    · rwa [if_neg h5, hflush, if_neg Bool.false_ne_true, if_neg] at hre
      rw [any_leaves_iff]
      exact fun ⟨y, hy, hop, ha⟩ => hall y hy hop ha
    · rwa [if_neg h5, hflush, if_neg Bool.false_ne_true, if_pos ((any_leaves_iff ..).mpr hex)] at hre
    · rwa [if_pos h5, if_neg hM] at hre
    · rwa [if_pos h5, if_pos hM] at hre

end Sys2Proof.Machine
end

section
/-! PAUSE, ABORT, KILL and STOP at their stop points (R417 to R424, R673). -/

namespace Sys2Proof.Machine

/-! ## What withdrawing transactions leaves unchanged -/

/-- The state without its transactions and the arbiters' grants and credits. -/
def State.butGrants (s : State) : State := { s with txns := [], arbs := {} }

theorem butGrants_withdrawTxn (t : Txn) (s : State) : (withdrawTxn t s).butGrants = s.butGrants := by
  unfold withdrawTxn
  dsimp only
  split
  · split <;> rfl
  · rfl

theorem butGrants_withdrawAll (f : Txn → Bool) (s : State) : (withdrawAll f s).butGrants = s.butGrants :=
  foldS_keeps State.butGrants butGrants_withdrawTxn _ s

theorem engs_withdrawAll (f : Txn → Bool) (s : State) : (withdrawAll f s).engs = s.engs := by
  have h := congrArg State.engs (butGrants_withdrawAll f s)
  exact h

theorem chan_withdrawAll (f : Txn → Bool) (s : State) (ch : BitVec 12) : (withdrawAll f s).chan ch = s.chan ch := by
  have h := congrArg (fun t : State => t.chan ch) (butGrants_withdrawAll f s)
  exact h

/-! ## Held state that is discarded (R422) -/

section
variable (e f : EngId) (ch : BitVec 12) (s : State)

theorem eng_dropEffects : (dropEffects e s).eng e = { s.eng e with effects := [], counters := [], residue := none } :=
  eng_modEng (s.modChan (s.eng e).ch (unreserve (s.eng e).effects)) e _

theorem eng_dropEffects_other {e f : EngId} (s : State) (hf : f ≠ e) : (dropEffects e s).eng f = s.eng f :=
  eng_modEng_other (s.modChan (s.eng e).ch (unreserve (s.eng e).effects)) _ hf

theorem abandoned_dropEffects : ((dropEffects e s).chan ch).abandoned = (s.chan ch).abandoned := by
  have h : (dropEffects e s).chan ch = (s.modChan (s.eng e).ch (unreserve (s.eng e).effects)).chan ch := rfl
  rw [h]
  by_cases hc : ch = (s.eng e).ch
  · rw [hc, chan_modChan]
    rfl
  · rw [chan_modChan_other s _ hc]

/-- What a command that stops the work order leaves of its engine: it holds nothing, and waits for its writes. -/
def Engine.stopped (x : Engine) (status : Byte) : Engine :=
  { x with effects := [], counters := [], residue := none, phase := .stopping status, paused := false, cur := none, busy := none,
           reads := [], pipe := none, pipeAsk := false }

theorem eng_abortStop : (abortStop e s).eng e = (s.eng e).stopped 0x30 := by
  rw [abortStop, eng_modEng, eng_dropEffects]
  rfl

theorem eng_abortStop_other {e f : EngId} (s : State) (hf : f ≠ e) : (abortStop e s).eng f = s.eng f := by
  rw [abortStop, eng_modEng_other _ _ hf, eng_dropEffects_other s hf]

theorem abandoned_abortStop : ((abortStop e s).chan ch).abandoned = (s.chan ch).abandoned := abandoned_dropEffects e ch s

/-- KILL's engine before the bursts it presented are torn. -/
def killHeld (e : EngId) (s : State) : State :=
  (dropEffects e s).modEng e (fun x => { x with
    phase := .stopping 0x32, paused := false, cur := none, busy := none, reads := [], pipe := none, pipeAsk := false })

/-- Of a killed engine, data bursts are torn and answers to reads discarded. -/
def killedTxn (e : EngId) (k : Txn) : Txn :=
  if Txn.dataOf e k then { k with torn := true } else if Txn.ofEng e k then { k with discard := true } else k

theorem killStop_eq : killStop e s =
    let u := withdrawAll (fun k => Txn.ofEng e k && !burstOut (killHeld e s) k) (killHeld e s)
    { u with txns := u.txns.map (killedTxn e) } := rfl

theorem engs_killStop : (killStop e s).engs = (killHeld e s).engs := by
  rw [killStop_eq]
  exact engs_withdrawAll _ _

theorem eng_of_engs {s t : State} (h : t.engs = s.engs) (e : EngId) : t.eng e = s.eng e := by
  unfold State.eng
  rw [h]

theorem eng_killStop : (killStop e s).eng e = (s.eng e).stopped 0x32 := by
  rw [eng_of_engs (engs_killStop e s), killHeld, eng_modEng, eng_dropEffects]
  rfl

theorem eng_killStop_other {e f : EngId} (s : State) (hf : f ≠ e) : (killStop e s).eng f = s.eng f := by
  rw [eng_of_engs (engs_killStop e s), killHeld, eng_modEng_other _ _ hf, eng_dropEffects_other s hf]

theorem abandoned_killStop : ((killStop e s).chan ch).abandoned = (s.chan ch).abandoned := by
  have h : (killStop e s).chan ch = (killHeld e s).chan ch := by
    rw [killStop_eq]
    exact chan_withdrawAll _ _ _
  rw [h]
  exact abandoned_dropEffects e ch s

theorem torn_killStop : ∀ k ∈ (killStop e s).txns, Txn.dataOf e k = true → k.torn = true := by
  intro k hk hdata
  rw [killStop_eq] at hk
  obtain ⟨j, -, rfl⟩ := List.mem_map.mp hk
  unfold killedTxn at hdata ⊢
  split
  · rfl
  · next hj =>
    split at hdata
    · exact absurd hdata hj
    · split at hdata <;> exact absurd hdata hj

end

/-! ## Stop points of an engine (R417 to R423) -/

section
variable {ch : BitVec 12} {e : EngId} {s : State}

theorem pauseEngine_eq (ch : BitVec 12) (e : EngId) (s : State) :
    pauseEngine ch e s = if writesOpen s e then s.setEng e { s.eng e with paused := true }
      else (s.setEng e { s.eng e with paused := true }).modChan ch (fun y =>
        { y with st := .paused, wait := .none, pend := none, preSt := .running, preWait := .none }) := rfl

theorem pauseStopPoint_engine (ht : s.boot.tstMode = false) (he : (s.chan ch).eng = some e) (hrun : (s.eng e).phase = .run)
    (hstop : atStop (s.eng e) = true) : exec (.pauseStopPoint ch) s = .next (
      if (s.chan ch).pend = some .pause ∧ (s.chan ch).st ≠ .paused then pauseEngine ch e s
      else if (s.chan ch).ringErr = true ∧ (s.chan ch).st = .halted then s.setEng e { s.eng e with paused := true }
      else s) := by
  have hexec : exec (.pauseStopPoint ch) s = .next _ := act_next ht _
  simp only [he, hrun, hstop, beq_self_eq_true, Bool.and_self, if_true, Bool.and_eq_true, beq_iff_eq] at hexec
  exact hexec

/-- With its ring not abandoned, the stopped work order completes. -/
theorem finishStop_ends {status : Byte} (ha : (s.chan ch).abandoned = false) :
    finishStop ch e status s = endOrder e status (s.eng e).acked (discardReads e s) := by
  rw [finishStop, if_neg (by rw [ha]; exact Bool.false_ne_true)]

theorem abortStopPoint_engine (ht : s.boot.tstMode = false) (he : (s.chan ch).eng = some e) (hhere : abortsHere (s.eng e) = true)
    (hp : (s.chan ch).pend = some .abort) : exec (.abortStopPoint ch) s = .next (
      if writesOpen (abortStop e s) e then abortStop e s else finishStop ch e 0x30 (abortStop e s)) := by
  have hexec : exec (.abortStopPoint ch) s = .next _ := act_next ht _
  simp only [he] at hexec
  rw [hexec]
  have hboth : (s.chan ch).pend = some .abort ∧ abortsHere (s.eng e) = true := ⟨hp, hhere⟩
  split
  · next h => simp [abortsHere, h] at hhere
  · exact congrArg _ (if_pos hboth)
  · exact congrArg _ (if_pos hboth)
  · next h _ _ => simp_all [abortsHere]

theorem killStopPoint_engine (ht : s.boot.tstMode = false) (he : (s.chan ch).eng = some e)
    (hphase : (s.eng e).phase = .starting ∨ (s.eng e).phase = .run ∨ (∃ pc k, (s.eng e).phase = .commit pc k) ∨
      ∃ st, (s.eng e).phase = .ending st) (hp : (s.chan ch).pend = some .kill) : exec (.killStopPoint ch) s = .next (
      if writesOpen (killStop e s) e then killStop e s else finishStop ch e 0x32 (killStop e s)) := by
  have hexec : exec (.killStopPoint ch) s = .next _ := act_next ht _
  simp only [he, if_pos hp] at hexec
  rw [hexec]
  rcases hphase with h | h | ⟨pc, k, h⟩ | ⟨st, h⟩ <;> rw [h]

end

/-! ## Channels without an engine (R417, R421 to R423, Table 2-11d) -/

section
variable {ch : BitVec 12} {s : State}

theorem pauseStopPoint_idle (ht : s.boot.tstMode = false) (he : (s.chan ch).eng = none) (hp : (s.chan ch).pend = some .pause)
    (hst : (s.chan ch).st ≠ .paused) (hr : (s.chan ch).replay = false) (hh : (s.chan ch).haltWith = none) :
    exec (.pauseStopPoint ch) s = .next (pauseNow ch s) := by
  have hexec : exec (.pauseStopPoint ch) s = .next _ := act_next ht _
  simp only [he] at hexec
  rwa [if_pos ⟨hp, hst, by rw [hr]; rfl, by rw [hh]; rfl⟩] at hexec

theorem abortStopPoint_idle (ht : s.boot.tstMode = false) (he : (s.chan ch).eng = none) (hp : (s.chan ch).pend = some .abort)
    (hr : (s.chan ch).replay = false) : exec (.abortStopPoint ch) s = .next (endHeld ch 0x30 s) := by
  have hexec : exec (.abortStopPoint ch) s = .next _ := act_next ht _
  simp only [he] at hexec
  rwa [if_pos ⟨hp, by rw [hr]; rfl⟩] at hexec

theorem killStopPoint_idle (ht : s.boot.tstMode = false) (he : (s.chan ch).eng = none) (hp : (s.chan ch).pend = some .kill) :
    exec (.killStopPoint ch) s = .next (if inProgress (s.chan ch) then endHeld ch 0x32 s else haltNow ch 1 0x32 s) := by
  have hexec : exec (.killStopPoint ch) s = .next _ := act_next ht _
  simp only [he] at hexec
  rwa [if_pos hp] at hexec

/-- No captured entry is left. -/
theorem stopEntries_done (h : (s.chan ch).stopTail = some (s.chan ch).wrStart) (n : Nat) : stopEntries ch n s = s := by
  cases n with
  | zero => rfl
  | succ n => exact if_pos (.inl h)

theorem stopBoundary_done (ht : s.boot.tstMode = false) (he : (s.chan ch).eng = none) (hp : (s.chan ch).pend = some .stop)
    (hin : inProgress (s.chan ch) = false) (hh : (s.chan ch).haltWith = none)
    (htail : (s.chan ch).stopTail = some (s.chan ch).wrStart) (hrel : (s.chan ch).rel = [])
    (hdone : (s.chan ch).wrDone = (s.chan ch).wrStart) :
    exec (.stopWorkOrderBoundary ch) s = .next (settle ch (stopEnd ch s)) := by
  have hstalled : (s.chan ch).stalledDone = none := by
    simp only [inProgress, Bool.or_eq_false_iff] at hin
    exact Option.isSome_eq_false_iff.mp hin.1.2 |> Option.isNone_iff_eq_none.mp
  have hexec : exec (.stopWorkOrderBoundary ch) s = .next _ := act_next ht _
  dsimp only at hexec
  rwa [if_pos ⟨hp, by rw [he]; rfl, by rw [hin]; rfl, by rw [hh]; rfl⟩, stopEntries_done htail,
    if_pos ⟨htail, by rw [hstalled]; rfl, by rw [hrel]; rfl, hdone⟩] at hexec

theorem chan_pauseNow (ch : BitVec 12) (s : State) : ((pauseNow ch s).chan ch).st = .paused ∧ ((pauseNow ch s).chan ch).pend = none ∧
    ((pauseNow ch s).chan ch).preWait = (s.chan ch).wait ∧ ((pauseNow ch s).chan ch).order = (s.chan ch).order := by
  obtain ⟨r, w, h⟩ := eq_of_butReady (chan_touch ch ch ((disarm ch s).modChan ch _))
  rw [pauseNow, h, chan_modChan, chan_disarm, chan_modChan]
  exact ⟨rfl, rfl, rfl, rfl⟩

theorem chan_haltNow (ch : BitVec 12) (cause status : Byte) (s : State) :
    ((haltNow ch cause status s).chan ch).st = .halted ∧ ((haltNow ch cause status s).chan ch).pend = none := by
  obtain ⟨r, w, h⟩ := eq_of_butReady (chan_touch ch ch (enterHalted ch cause status
    ((disarm ch s).modChan ch (fun c => { c with pend := none, stopTail := none }))))
  obtain ⟨r', w', h'⟩ := chan_enterHalted ch cause status ((disarm ch s).modChan ch (fun c => { c with pend := none, stopTail := none }))
  rw [haltNow, h, h', chan_modChan]
  exact ⟨rfl, rfl⟩

end

/-- Settles O22: one equation per command with an engine and without one, and what each leaves of engine and channel. -/
theorem stopPoints : Obligations.StopPoints := by
  intro ch s ht c
  refine ⟨fun e he => ?engine, fun he => ⟨pauseStopPoint_idle ht he, abortStopPoint_idle ht he,
      fun hp hin => (killStopPoint_idle ht he hp).trans (congrArg _ (if_pos hin)),
      fun hp hin => (killStopPoint_idle ht he hp).trans (congrArg _ (if_neg (hin ▸ Bool.false_ne_true))),
      stopBoundary_done ht he⟩,
    fun _ => chan_pauseNow ch s, chan_haltNow ch 1 0x32 s⟩
  intro x
  refine ⟨fun hrun hstop hp hst => ?pause, fun hrun hstop hp hr hst => ?ringError, fun hhere hp ha => ?abort, fun hphase hp ha => ?kill⟩
  case pause =>
    exact (pauseStopPoint_engine ht he hrun hstop).trans (congrArg _ ((if_pos ⟨hp, hst⟩).trans (pauseEngine_eq ch e s)))
  case ringError =>
    exact (pauseStopPoint_engine ht he hrun hstop).trans
      (congrArg _ ((if_neg fun h => hp h.1).trans (if_pos ⟨hr, hst⟩)))
  case abort =>
    have hfinish : finishStop ch e 0x30 (abortStop e s) = endOrder e 0x30 x.acked (discardReads e (abortStop e s)) := by
      rw [finishStop_ends ((abandoned_abortStop e ch s).trans ha), eng_abortStop]
      rfl
    refine ⟨abortStop e s, ?_, ?_⟩
    · exact (abortStopPoint_engine ht he hhere hp).trans (hfinish ▸ rfl)
    · rw [eng_abortStop]
      exact ⟨rfl, rfl, rfl, rfl, rfl, rfl, rfl, rfl, fun f hf => eng_abortStop_other s hf⟩
  case kill =>
    have hfinish : finishStop ch e 0x32 (killStop e s) = endOrder e 0x32 x.acked (discardReads e (killStop e s)) := by
      rw [finishStop_ends ((abandoned_killStop e ch s).trans ha), eng_killStop]
      rfl
    refine ⟨killStop e s, ?_, ?_⟩
    · exact hfinish ▸ killStopPoint_engine ht he hphase hp
    · rw [eng_killStop]
      exact ⟨rfl, rfl, rfl, rfl, torn_killStop e s, fun f hf => eng_killStop_other s hf⟩

end Sys2Proof.Machine
end

section
/-! Assertions, stuck sources, engine faults and replays (R541, R542, R544, R557 to R560). -/

namespace Sys2Proof.Machine

/-! ## Assertions (R541, R542, R544, R557) -/

section
variable {s : State}

theorem assertFault_stuck {n : Nat} (h : srcStuck s n = true) (i : FaultInfo) : assertFault n i s = s := if_pos h

theorem assertFault_fresh {n : Nat} (h : srcStuck s n = false) (i : FaultInfo) :
    assertFault n i s = reactFault n i (withhold n i (recordFault n i false s)) := if_neg (h ▸ Bool.false_ne_true)

theorem faultAssertion_eq (ht : s.boot.tstMode = false) (hon : fcrOn s = true) (n : SrcId) (i : FaultInfo) :
    exec (.faultAssertion n i) s = .next (if srcPresent s n.val then assertFault n.val { i with inj := false } s else s) := by
  have hexec : exec (.faultAssertion n i) s = .next _ := act_next ht _
  simp only [hon, Bool.true_and] at hexec
  exact hexec

/-- A gallery's engine source cordons the slot that the assertion names. -/
theorem reactFault_engine (g : BitVec 5) {i : FaultInfo} {e : EngId} (he : i.eng = some e) (s : State) :
    reactFault g.toNat i s = slotFault g.toNat e s := by
  rw [reactFault, if_pos g.isLt, he]
  rfl

theorem engineFault_eq (ht : s.boot.tstMode = false) (hon : fcrOn s = true) {e : EngId} (hd : s.domOn (7 + e.g.toNat) = true)
    (hst : (s.slot e).st ≠ .retired) : exec (.engineFault e) s = .next (assertFault e.g.toNat (engInfo s e 1 false) s) := by
  have hexec : exec (.engineFault e) s = .next _ := act_next ht _
  rwa [if_pos (by rw [hon, hd, bne_iff_ne.mpr hst]; rfl)] at hexec

/-- No granted burst of the unit stands at the address. -/
theorem withhold_unformed {n : Nat} {i : FaultInfo}
    (h : ∀ t ∈ s.txns, t.stage = .granted → t.addr = i.addr → formedBy n i t = false) : withhold n i s = s := by
  have hnil : s.txns.filter (fun t => t.stage == .granted && i.cls != 4 && t.addr == i.addr && formedBy n i t) = [] := by
    rw [List.filter_eq_nil_iff]
    intro t ht hall
    simp only [Bool.and_eq_true, beq_iff_eq] at hall
    obtain ⟨⟨⟨hst, -⟩, ha⟩, hf⟩ := hall
    exact Bool.false_ne_true ((h t ht hst ha).symm.trans hf)
  rw [withhold, hnil]
  rfl

/-! ## Stuck sources (R544) -/

theorem railFault_exec (ht : s.boot.tstMode = false) (hon : fcrOn s = true) (n : SrcId) :
    exec (.railFault n) s = .next (if srcPresent s n.val then railFault n.val 0 false s else s) := by
  have hexec : exec (.railFault n) s = .next _ := act_next ht _
  simp only [hon, Bool.true_and] at hexec
  exact hexec

theorem railFault_stuck {n : Nat} (h : srcStuck s n = true) (inst : Byte) (inj : Bool) : railFault n inst inj s = s := if_pos h

/-- Whether source `n` is stuck, set. -/
def setStuck (n : Nat) (b : Bool) (s : State) : State := s.modFcr (fun f => { f with stuck := Tbl.put false f.stuck n b })

theorem srcStuck_setStuck (n : Nat) (b : Bool) (s : State) : srcStuck (setStuck n b s) n = b := Tbl.get_put_same ..

theorem srcStuck_setStuck_other {n k : Nat} (b : Bool) (s : State) (h : k ≠ n) : srcStuck (setStuck n b s) k = srcStuck s k :=
  Tbl.get_put_other _ _ _ _ _ h

theorem railFault_fresh {n : Nat} (h : srcStuck s n = false) : railFault n 0 false s =
    railReact n 0 (recordFault n { ch := none, eng := none, cls := 8, addr := 0, inst := 0, inj := false } true
      (setStuck n true s)) := if_neg (h ▸ Bool.false_ne_true)

theorem stuckSourceClear_eq (ht : s.boot.tstMode = false) (hon : fcrOn s = true) (n : SrcId) :
    exec (.stuckSourceClear n) s = .next (setStuck n.val false s) := by
  have hexec : exec (.stuckSourceClear n) s = .next _ := act_next ht _
  rwa [if_pos hon] at hexec

/-! ## Holding sources (R557) -/

theorem Tbl.get_keep_not {α : Type} (d : α) (p : Nat → Bool) (t : Tbl α) {k : Nat} (h : p k = false) :
    Tbl.get d (Tbl.keep p t) k = d := by
  induction t with
  | nil => rfl
  | cons q r ih =>
    obtain ⟨k', v⟩ := q
    unfold Tbl.keep at ih ⊢
    rw [List.filter_cons]
    split
    · next hp =>
      have hk : k ≠ k' := by
        rintro rfl
        exact Bool.false_ne_true (h.symm.trans hp)
      rw [Tbl.get, if_neg hk, ih]
    · exact ih

/-- The hold keys of source `n`: FS283 holds by domain, FS265 by acknowledgement (log entry 26). -/
def holdKeys (n k : Nat) : Bool :=
  if n = 283 then decide (320 ≤ k ∧ k < 400) else if n = 265 then decide (400 ≤ k) else k == n

/-- The holds of source `n` given up. -/
def dropHolds (n : Nat) (s : State) : State :=
  s.modFcr (fun f => { f with asserted := Tbl.keep (fun k => !holdKeys n k) f.asserted })

theorem asserted_dropHolds (n k : Nat) (s : State) :
    Tbl.get false (dropHolds n s).fcr.asserted k = (Tbl.get false s.fcr.asserted k && !holdKeys n k) := by
  have h : (dropHolds n s).fcr.asserted = Tbl.keep (fun k => !holdKeys n k) s.fcr.asserted := rfl
  rw [h]
  cases hk : holdKeys n k with
  | true => rw [Tbl.get_keep_not _ _ _ (by rw [hk]; rfl), Bool.not_true, Bool.and_false]
  | false => rw [Tbl.get_keep _ _ _ (by rw [hk]; rfl), Bool.not_false, Bool.and_true]

theorem faultSourceQuiet_stuck (ht : s.boot.tstMode = false) {n : SrcId} (h : srcStuck s n.val = true) :
    exec (.faultSourceQuiet n) s = .next s := by
  have hexec : exec (.faultSourceQuiet n) s = .next _ := act_next ht _
  rwa [if_pos h] at hexec

theorem faultSourceQuiet_quiet (ht : s.boot.tstMode = false) {n : SrcId} (h : srcStuck s n.val = false) :
    exec (.faultSourceQuiet n) s = .next (released s (wakeAdvance (dropHolds n.val s))) := by
  have hexec : exec (.faultSourceQuiet n) s = .next _ := act_next ht _
  rw [if_neg (h ▸ Bool.false_ne_true)] at hexec
  rw [hexec, dropHolds]
  simp only [holdKeys, Bool.decide_and]

theorem released_eq (s t : State) : released s t = if domHeld s 2 = true ∧ coreUp t = true then wakeSamples t else t := by
  simp [released]

end

/-! ## Replay (R558 to R560) -/

/-- An emission that CORE's state lets through changes readiness alone. -/
theorem chan_emitUp (ps : List Nat) (n : BitVec 12) (s : State) : ((emitUp ps s).chan n).butReady = (s.chan n).butReady := by
  unfold emitUp
  split
  · rfl
  · split
    · rfl
    · exact chan_emitT ps n s

theorem engs_emitUp (ps : List Nat) (s : State) : (emitUp ps s).engs = s.engs := by
  have h := congrArg State.engs (butReactions_emitUp ps s)
  exact h

section
variable (ch : BitVec 12) (s : State)

/-- The links whose readiness returns at a rewind. -/
def readyLinks (t : State) : List Nat :=
  (upTo 32).filter (fun l => ownsLink t ch l && !(t.link (BitVec.ofNat 5 l)).rdy && rdyNow t l (t.link (BitVec.ofNat 5 l)))

theorem rewindOwned_eq : rewindOwned ch s =
    emitUp ((readyLinks ch (modOwned ch linkRewind s)).map (fun l => 160 + l))
      (foldS (readyLinks ch (modOwned ch linkRewind s)) (fun l u => u.modLink (BitVec.ofNat 5 l) (fun x => { x with rdy := true }))
        (modOwned ch linkRewind s)) := rfl

/-- The rewind of a channel's links is about links, up to the emission. -/
theorem rewindOwned_keeps {β : Type} (g : State → β) (hlink : ∀ t l x, g (State.setLink t l x) = g t)
    (hemit : ∀ ps t, g (emitUp ps t) = g t) : g (rewindOwned ch s) = g s := by
  rw [rewindOwned_eq, hemit]
  exact (foldS_keeps (f := fun l (u : State) => u.modLink (BitVec.ofNat 5 l) (fun x => { x with rdy := true })) g
    (fun _ _ => hlink ..) _ _).trans (modOwned_keeps g hlink ch linkRewind s)

theorem engs_rewindOwned : (rewindOwned ch s).engs = s.engs :=
  rewindOwned_keeps ch s State.engs (fun _ _ _ => rfl) engs_emitUp

theorem chan_rewindOwned (n : BitVec 12) : ((rewindOwned ch s).chan n).butReady = (s.chan n).butReady :=
  rewindOwned_keeps ch s (fun t => (t.chan n).butReady) (fun _ _ _ => rfl) (fun ps t => chan_emitUp ps n t)

end

section
variable (e : EngId) (s : State)

theorem engs_discardReads : (discardReads e s).engs = s.engs := engs_withdrawAll _ _

theorem chan_discardReads (ch : BitVec 12) : (discardReads e s).chan ch = s.chan ch := chan_withdrawAll _ _ _

/-- The order's state once what it held is discarded. -/
def replayDropped : State := dropEffects e (discardReads e s)

theorem eng_replayDropped : (replayDropped e s).eng e = { s.eng e with effects := [], counters := [], residue := none } := by
  rw [replayDropped, eng_dropEffects, eng_of_engs (engs_discardReads e s)]

theorem eng_replayDropped_other {e f : EngId} (s : State) (hf : f ≠ e) : (replayDropped e s).eng f = s.eng f := by
  rw [replayDropped, eng_dropEffects_other _ hf, eng_of_engs (engs_discardReads e s)]

theorem chan_replayDropped : (replayDropped e s).chan (s.eng e).ch = unreserve (s.eng e).effects (s.chan (s.eng e).ch) := by
  have h (t : State) : (dropEffects e t).chan (t.eng e).ch = unreserve (t.eng e).effects (t.chan (t.eng e).ch) :=
    chan_modChan t (t.eng e).ch (unreserve (t.eng e).effects)
  have hd := h (discardReads e s)
  rwa [eng_of_engs (engs_discardReads e s), chan_discardReads] at hd

/-- A channel that is made ready for its replay (R558). -/
def Chan.replayed (c : Chan) : Chan :=
  { c with eng := none, replay := true, replays := c.replays + 1,
           ck := { c.ck with replayed := true },
           wait := if c.st = .paused ∨ c.st = .halted then c.wait else .ready,
           st := if c.st = .running then .waiting else c.st }

theorem replayChan_eq (t : State) : replayChan e t =
    touch (t.eng e).ch ((rewindOwned (t.eng e).ch (tmAdd 26 1 (freeEng e t))).modChan (t.eng e).ch Chan.replayed) := rfl

theorem engs_replayChan (t : State) : (replayChan e t).engs = (freeEng e t).engs := by
  have htm : (tmAdd 26 1 (freeEng e t)).engs = (freeEng e t).engs := by
    unfold tmAdd
    split <;> rfl
  rw [replayChan_eq, engs_touch, ← htm, ← engs_rewindOwned (t.eng e).ch (tmAdd 26 1 (freeEng e t))]
  rfl

theorem chan_replayChan (t : State) : ∃ r w r' w', (replayChan e t).chan (t.eng e).ch =
    { Chan.replayed { t.chan (t.eng e).ch with readyAt := r, wakeAsked := w } with readyAt := r', wakeAsked := w' } := by
  obtain ⟨r, w, h⟩ := eq_of_butReady (chan_rewindOwned (t.eng e).ch (tmAdd 26 1 (freeEng e t)) (t.eng e).ch)
  obtain ⟨r', w', h'⟩ := eq_of_butReady (chan_touch (t.eng e).ch (t.eng e).ch
    ((rewindOwned (t.eng e).ch (tmAdd 26 1 (freeEng e t))).modChan (t.eng e).ch Chan.replayed))
  refine ⟨r, w, r', w', ?_⟩
  rw [replayChan_eq, h', chan_modChan, h, (chan_eng_tmAdd 26 1 (freeEng e t)).1]
  rfl

/-- A replay elsewhere: the channel has no engine, and the engine is free. -/
theorem replayChan_replays :
    ((replayChan e (replayDropped e s)).chan (s.eng e).ch).eng = none ∧
    ((replayChan e (replayDropped e s)).chan (s.eng e).ch).replay = true ∧
    ((replayChan e (replayDropped e s)).chan (s.eng e).ch).replays = (s.chan (s.eng e).ch).replays + 1 ∧
    ((replayChan e (replayDropped e s)).chan (s.eng e).ch).st =
      (if (s.chan (s.eng e).ch).st = .running then .waiting else (s.chan (s.eng e).ch).st) ∧
    ((replayChan e (replayDropped e s)).chan (s.eng e).ch).rel = (s.chan (s.eng e).ch).rel ∧
    ((replayChan e (replayDropped e s)).eng e).phase = .idle ∧ ((replayChan e (replayDropped e s)).eng e).effects = [] ∧
    ∀ f, f ≠ e → (replayChan e (replayDropped e s)).eng f = s.eng f := by
  have hch : ((replayDropped e s).eng e).ch = (s.eng e).ch := by rw [eng_replayDropped]
  have heng := eng_of_engs (engs_replayChan e (replayDropped e s))
  obtain ⟨r, w, r', w', h⟩ := chan_replayChan e (replayDropped e s)
  rw [hch, chan_replayDropped] at h
  rw [h, heng, freeEng, eng_modEng]
  refine ⟨rfl, rfl, rfl, rfl, rfl, rfl, rfl, fun f hf => ?_⟩
  rw [heng, freeEng, eng_modEng_other _ _ hf, eng_replayDropped_other s hf]

variable {e s}

theorem replayReady_waits (ht : s.boot.tstMode = false) (hw : writesOpen s e = true) : exec (.replayReady e) s = .next s := by
  have hexec : exec (.replayReady e) s = .next _ := act_next ht _
  exact hexec.trans (congrArg _ (if_pos (.inr hw)))

theorem replayReady_answered (ht : s.boot.tstMode = false) (hp : (s.eng e).phase = .faulted) (hw : writesOpen s e = false) :
    exec (.replayReady e) s = .next (
      if (s.eng e).capturing then endFaulted e 0x41 (replayDropped e s)
      else if fld (s.app .rcvCfg) 12 4 ≤ (s.chan (s.eng e).ch).replays then endFaulted e 0x7F (replayDropped e s)
      else replayChan e (replayDropped e s)) := by
  have hexec : exec (.replayReady e) s = .next _ := act_next ht _
  exact hexec.trans (congrArg _ (if_neg fun h => h.elim (fun hn => hn hp) (fun ho => Bool.false_ne_true (hw.symm.trans ho))))

end

/-- Settles O39: one equation per event, the hold keys that a quiet source gives up, and what a replay leaves of channel and engine. -/
theorem faultSources : Obligations.FaultSources := by
  intro s ht hon
  refine ⟨fun n i hp => ?absent, fun n i hp => ?assertion, fun e hd hst hstuck => ?engine, fun n i h => withhold_unformed h,
    fun n => ?rail, fun e hp => ?replay⟩
  case absent =>
    exact ⟨(faultAssertion_eq ht hon n i).trans (congrArg _ (if_neg (hp ▸ Bool.false_ne_true))),
      (railFault_exec ht hon n).trans (congrArg _ (if_neg (hp ▸ Bool.false_ne_true)))⟩
  case assertion =>
    have hexec := (faultAssertion_eq ht hon n i).trans (congrArg _ (if_pos hp))
    exact ⟨fun h => hexec.trans (congrArg _ (assertFault_stuck h _)), fun h => hexec.trans (congrArg _ (assertFault_fresh h _))⟩
  case engine =>
    exact (engineFault_eq ht hon hd hst).trans
      (congrArg _ ((assertFault_fresh hstuck _).trans (reactFault_engine e.g rfl _)))
  case rail =>
    refine ⟨fun h => ?_, fun hp h => ⟨setStuck n.val true s, srcStuck_setStuck .., rfl, ?_⟩,
      ⟨_, stuckSourceClear_eq ht hon n, srcStuck_setStuck .., fun k hk => srcStuck_setStuck_other false s hk, rfl, rfl⟩,
      faultSourceQuiet_stuck ht, fun h => ⟨dropHolds n.val s, rfl, fun k => asserted_dropHolds n.val k s, ?_⟩⟩
    · rw [railFault_exec ht hon, railFault_stuck h, ite_self]
    · rw [railFault_exec ht hon, if_pos hp, railFault_fresh h]
    · exact (faultSourceQuiet_quiet ht h).trans (congrArg _ (released_eq ..))
  case replay =>
    refine ⟨replayReady_waits ht, fun hw hc => ?_, fun hw hc hlim => ?_, fun hw hc hlim => ⟨_, ?_, replayChan_replays e s⟩⟩
    · rw [replayReady_answered ht hp hw, if_pos hc]
      rfl
    · rw [replayReady_answered ht hp hw, if_neg (hc ▸ Bool.false_ne_true), if_pos hlim]
      rfl
    · rw [replayReady_answered ht hp hw, if_neg (hc ▸ Bool.false_ne_true), if_neg (Nat.not_le.mpr hlim)]

end Sys2Proof.Machine
end

section
/-! Docent's test units, their verdicts, and DOC.CMD (R561 to R563, R582, R583, R585, R587, R602, R603). -/

namespace Sys2Proof.Machine

/-! ## Test units and slots -/

section
variable (s : State)

theorem docUnit_setUnit (k : Nat) (r : Option Recovery) : docUnit (setUnit k r s) k = r := Tbl.get_put_same ..

theorem docUnit_setUnit_other {j k : Nat} (r : Option Recovery) (h : j ≠ k) : docUnit (setUnit k r s) j = docUnit s j :=
  Tbl.get_put_other _ _ _ _ _ h

@[simp] theorem slot_modSlot (e : EngId) (f : Slot → Slot) : (s.modSlot e f).slot e = f (s.slot e) := Tbl.get_put_same ..

theorem slot_modSlot_other {e f : EngId} (g : Slot → Slot) (h : f ≠ e) : (s.modSlot e g).slot f = s.slot f :=
  Tbl.get_put_ne _ _ _ _ fun hk => h (engIdx_inj hk)

theorem slot_slotTested (e f : EngId) :
    (slotTested e s).slot f = if e = f then { s.slot f with tests := satAdd (s.slot f).tests 1 } else s.slot f := by
  split
  · next h =>
    subst h
    exact slot_modSlot ..
  · next h => exact slot_modSlot_other s _ (Ne.symm h)

end

/-! ## Steps of a test (R582, R587) -/

/-- The first step of unit `k`'s test begins. -/
def testBegun (k : Nat) (r : Recovery) (s : State) : State :=
  match r.eng with
  | some e => slotTested e (setUnit k (some { r with step := 1, startAt := s.now }) s)
  | none => setUnit k (some { r with step := 1, startAt := s.now }) s

section
variable {k : Nat} {r : Recovery} {s : State}

theorem nextStep_first (h : r.step = 0) (hd : (recDoms r).all s.domOn = true) : nextStep k r s = testBegun k r s := by
  rw [nextStep, if_pos h, if_pos hd]
  rfl

theorem nextStep_raises (h : r.step = 0) (hd : (recDoms r).all s.domOn = false) :
    nextStep k r s = raiseFor r (setUnit k (some r) s) := by
  rw [nextStep, if_pos h, if_neg (hd ▸ Bool.false_ne_true)]

theorem nextStep_later (h : r.step ≠ 0) : nextStep k r s =
    if r.step.toNat < (testOf r).1 then setUnit k (some { r with step := r.step + 1 }) s else s := if_neg h

theorem doc_testBegun (k : Nat) (r : Recovery) (s : State) :
    (testBegun k r s).doc = (setUnit k (some { r with step := 1, startAt := s.now }) s).doc ∧ (testBegun k r s).engs = s.engs := by
  unfold testBegun
  split <;> exact ⟨rfl, rfl⟩

theorem docUnit_of_doc {s t : State} (h : t.doc = s.doc) (j : Nat) : docUnit t j = docUnit s j := by
  unfold docUnit
  rw [h]

theorem slot_testBegun (k : Nat) (r : Recovery) (s : State) (e : EngId) : (testBegun k r s).slot e =
    if r.eng = some e then { s.slot e with tests := satAdd (s.slot e).tests 1 } else s.slot e := by
  unfold testBegun
  cases hr : r.eng with
  | none => exact (if_neg (Option.some_ne_none e).symm).symm
  | some f =>
    simp only [Option.some.injEq]
    exact slot_slotTested _ f e

end

section
variable {i : BitVec 2} {r : Recovery} {s : State}

theorem testStart_unit (ht : s.boot.tstMode = false) (hup : docUp s = true) (hu : docUnit s i.toNat = some r) :
    exec (.testStart i) s = .next (nextStep i.toNat r s) := by
  have hexec : exec (.testStart i) s = .next _ := act_next ht _
  simp only [hup, hu] at hexec
  exact hexec

theorem testStart_queue (ht : s.boot.tstMode = false) (hup : docUp s = true) (hu : docUnit s i.toNat = none) {q : List Recovery}
    (hq : s.doc.queue = r :: q) :
    exec (.testStart i) s = .next (nextStep i.toNat r (s.modDoc (fun d => { d with queue := q }))) := by
  have hexec : exec (.testStart i) s = .next _ := act_next ht _
  simp only [hup, hu, hq] at hexec
  exact hexec

theorem testStart_idle (ht : s.boot.tstMode = false) (hu : docUnit s i.toNat = none)
    (hq : s.doc.queue = []) : exec (.testStart i) s = .next s := by
  have hexec : exec (.testStart i) s = .next _ := act_next ht _
  simp only [hu, hq, ite_self] at hexec
  exact hexec

/-! ## Verdicts (R562, R582, R583) -/

/-- The verdict of a test whose unit a fault cordoned. -/
theorem testVerdict_runs (ht : s.boot.tstMode = false) (hup : docUp s = true) (hu : docUnit s i.toNat = some r) (hstep : r.step ≠ 0)
    (hbg : r.bg = false) (o : TestOutcome) : exec (.testVerdict i o) s = .next (match o with
      | .passed => if r.step.toNat = (testOf r).1 then docVerdict (b2n r.repaired) 0 r true (setUnit i.toNat none s) else s
      | .repaired =>
        if r.step.toNat = (testOf r).2.2 ∧ rowsLeft s r = true then
          (if r.step.toNat = (testOf r).1 then docVerdict 1 0 { r with repaired := true } true (setUnit i.toNat none (useRow r s))
          else setUnit i.toNat (some { r with repaired := true, step := r.step + 1 }) (useRow r s))
        else s
      | .failed j => if j = r.step then docVerdict 2 j.toNat r true (setUnit i.toNat none s) else s) := by
  have hexec : exec (.testVerdict i o) s = .next _ := act_next ht _
  have hrun : ¬ (r.step = 0 ∨ (!docUp s) = true) := by
    rintro (h | h)
    · exact hstep h
    · rw [hup] at h
      exact Bool.false_ne_true h
  simp only [hu] at hexec
  rw [if_neg hrun] at hexec
  rw [hexec]
  cases o <;> simp only [if_neg (show ¬ r.bg = true from hbg ▸ Bool.false_ne_true)]

theorem testLimit_runs (ht : s.boot.tstMode = false) (hup : docUp s = true) (hu : docUnit s i.toNat = some r) (hstep : r.step ≠ 0)
    (hbg : r.bg = false) : exec (.testLimitExpiry i) s = .next (
      if (testOf r).2.1 * 1600 ≤ testTicks s i.toNat r then
        assertFault 264 (faultOf 6 i.toNat) (docVerdict 4 0 r true (setUnit i.toNat none s))
      else s) := by
  have hexec : exec (.testLimitExpiry i) s = .next _ := act_next ht _
  have hcordon : bgCordon r s = s := by simp [bgCordon, hbg]
  simp only [hu, hcordon, hup, hstep, ne_eq, not_false_eq_true, true_and] at hexec
  exact hexec

/-! ## The time that the limit leaves out (R583) -/

theorem testTicks_running (h : ∀ t ∈ s.txns, docentWaits i.toNat t = false) :
    testTicks s i.toNat r = (s.now - r.startAt).toNat := by
  have hnil : s.txns.filter (docentWaits i.toNat) = [] :=
    List.filter_eq_nil_iff.mpr fun t ht => by rw [h t ht]; exact Bool.false_ne_true
  rw [testTicks, hnil]
  rfl

theorem testTicks_waiting {t : Txn} (ht : t ∈ s.txns) (hw : docentWaits i.toNat t = true) :
    testTicks s i.toNat r ≤ (s.now - r.startAt).toNat - (s.now - t.since).toNat := by
  have hmem : (s.now - t.since).toNat ∈ (s.txns.filter (docentWaits i.toNat)).map (fun t => (s.now - t.since).toNat) :=
    List.mem_map.mpr ⟨t, List.mem_filter.mpr ⟨ht, hw⟩, rfl⟩
  exact Nat.sub_le_sub_left (List.single_le_sum (fun _ _ => Nat.zero_le _) _ hmem) _

theorem docUnit_docentGranted {a : Nat} {t : Txn} {g : Option (BitVec 5)} {st : TStage} (hp : t.purpose = .docent i g st)
    (hu : docUnit s i.toNat = some r) :
    docUnit (docentGranted a t s) i.toNat = some { r with startAt := r.startAt + (s.now - t.since) } := by
  simp only [docentGranted, hp, hu]
  split
  · exact docUnit_setUnit s _ _
  · exact docUnit_setUnit s _ _

end

/-! ## DOC.CMD (R602, R603) -/

section
variable {a : TpAttr} {d : Word} {s : State}

theorem regWrite_docCmd (sec : Bool) (owner : Byte) (v : Word) (s : State) :
    regWrite sec owner .docCmd v s = some (docCmdWrite v s) := rfl

theorem docTest_writes (h : s.takes a true .docCmd) : exec (.docTest a d) s = wrote a (docCmdWrite (setFld d 28 4 1) s) :=
  takes_wroteAt h 0xD00C _ (by decide) (by decide) rfl (regWrite_docCmd ..)

theorem docRetire_writes (h : s.takes a true .docCmd) : exec (.docRetire a d) s = wrote a (docCmdWrite (setFld d 28 4 2) s) :=
  takes_wroteAt h 0xD00C _ (by decide) (by decide) rfl (regWrite_docCmd ..)

theorem docRotate_writes (h : s.takes a true .docCmd) : exec (.docRotate a d) s = wrote a (docCmdWrite (setFld d 28 4 3) s) :=
  takes_wroteAt h 0xD00C _ (by decide) (by decide) rfl (regWrite_docCmd ..)

theorem docCmdWrite_rejected {v : Word} (h : docCmdRej v s = true) : docCmdWrite v s = s.modDoc (fun x => { x with cmdRej := true }) :=
  if_pos h

/-- The gallery and the slot number of a command are its operation's neighbours. -/
theorem docCmd_fields (d : Word) {op : Nat} (hop : op < 16) : fld (setFld d 28 4 op) 0 5 = fld d 0 5 ∧ fld (setFld d 28 4 op) 8 5 = fld d 8 5 ∧
    fld (setFld d 28 4 op) 28 4 = op :=
  ⟨fld_setFld_other d 28 4 op 0 5 (by decide), fld_setFld_other d 28 4 op 8 5 (by decide), (fld_setFld d 28 4 op (by decide)).trans (Nat.mod_eq_of_lt hop)⟩

/-- An accepted TEST or RETIRE names one of the 17 slots. -/
theorem docCmd_slot {op : Nat} (hop : op ≤ 2) (h : docCmdRej (setFld d 28 4 op) s = false) : fld d 8 5 % 17 = fld d 8 5 := by
  obtain ⟨hg, hk, ho⟩ := docCmd_fields d (show op < 16 by omega)
  simp only [docCmdRej, hg, hk, ho, Bool.or_eq_false_iff, Bool.and_eq_false_iff, decide_eq_false_iff_not] at h
  obtain ⟨⟨⟨⟨-, hle⟩, -⟩, -⟩, -⟩ := h
  omega

theorem docCmdWrite_test (h : docCmdRej (setFld d 28 4 1) s = false) : docCmdWrite (setFld d 28 4 1) s =
    let e := engOf (fld d 0 5 * 17 + fld d 8 5)
    openRecovery { recov (fld d 0 5) e.slot.val (some e) with spareTest := true, wasRetired := (s.slot e).st == .retired }
      (traceWord 5 0 e false (s.modSlot e (fun x => { x with st := .cordoned }))) := by
  obtain ⟨hg, hk, ho⟩ := docCmd_fields d (show 1 < 16 by decide)
  rw [docCmdWrite, if_neg (h ▸ Bool.false_ne_true), ho, hg, hk, docCmd_slot (by decide) h]
  rfl

theorem docCmdWrite_retire (h : docCmdRej (setFld d 28 4 2) s = false) :
    docCmdWrite (setFld d 28 4 2) s = docRetireSlot (engOf (fld d 0 5 * 17 + fld d 8 5)) s := by
  obtain ⟨hg, hk, ho⟩ := docCmd_fields d (show 2 < 16 by decide)
  rw [docCmdWrite, if_neg (h ▸ Bool.false_ne_true), ho, hg, hk, docCmd_slot (by decide) h]
  rfl

theorem docCmdWrite_rotate (h : docCmdRej (setFld d 28 4 3) s = false) :
    docCmdWrite (setFld d 28 4 3) s = s.modGal (fld d 0 5) (fun x => { x with rotDue := true }) := by
  obtain ⟨hg, -, ho⟩ := docCmd_fields d (show 3 < 16 by decide)
  rw [docCmdWrite, if_neg (h ▸ Bool.false_ne_true), ho, hg]
  rfl

/-- The slot drains until it is idle, and RETIRE stands noted. -/
def retireDrains (e : EngId) (s : State) : State :=
  (s.modSlot e (fun x => { x with st := .draining })).modGal e.g.toNat (fun x =>
    { x with retiring := if x.retiring.contains e.slot then x.retiring else x.retiring ++ [e.slot] })

theorem docRetireSlot_spare {e : EngId} (h : (s.slot e).st = .spare) :
    docRetireSlot e s = s.modSlot e (fun x => { x with st := .retired }) := if_pos h

theorem docRetireSlot_idle {e : EngId} (h : (s.slot e).st ≠ .spare) (hidle : (s.eng e).phase = .idle)
    (hrot : (s.gal e.g.toNat).rotOut ≠ some e.slot) : docRetireSlot e s = retireSlot e s :=
  (if_neg h).trans (if_pos ⟨hidle, hrot⟩)

theorem docRetireSlot_busy {e : EngId} (h : (s.slot e).st ≠ .spare)
    (hbusy : (s.eng e).phase ≠ .idle ∨ (s.gal e.g.toNat).rotOut = some e.slot) : docRetireSlot e s = retireDrains e s :=
  (if_neg h).trans (if_neg fun ⟨hidle, hrot⟩ => hbusy.elim (fun hb => hb hidle) hrot)

theorem retireDrains_drains (e : EngId) (s : State) : ((retireDrains e s).slot e).st = .draining ∧
    e.slot ∈ ((retireDrains e s).gal e.g.toNat).retiring ∧ (∀ f, f ≠ e → (retireDrains e s).slot f = s.slot f) ∧
    (retireDrains e s).engs = s.engs := by
  refine ⟨?_, ?_, fun f hf => ?_, rfl⟩
  · rw [retireDrains, State.modGal_slot_of, slot_modSlot]
  · rw [retireDrains, gal_modGal]
    dsimp only
    split
    · next h => exact List.contains_iff_mem.mp h
    · exact List.mem_append_right _ (List.mem_singleton_self _)
  · rw [retireDrains, State.modGal_slot_of, slot_modSlot_other s _ hf]

end

/-- Settles O41: the test's steps by the unit's step, its verdicts by the outcome, and DOC.CMD by its operation. -/
theorem docentTests : Obligations.DocentTests := by
  intro s
  refine ⟨fun i ht hup => ?tests, fun a d h => ?cmd⟩
  case tests =>
    refine ⟨fun r q hu hq h0 => ⟨fun hd => ?_, fun hd => ?_⟩, fun r hu h0 hd => ?_, fun r hu h0 hd => ?_, fun r hu h0 => ?_,
      testStart_idle ht, fun r hu hstep hbg => ?_⟩
    · obtain ⟨hdoc, hengs⟩ := doc_testBegun i.toNat r (s.modDoc (fun d => { d with queue := q }))
      refine ⟨testBegun i.toNat r (s.modDoc (fun d => { d with queue := q })), ?_, ?_, ?_, fun j hj => ?_, hengs,
        fun e => slot_testBegun i.toNat r _ e⟩
      · exact (testStart_queue ht hup hu hq).trans (congrArg _ (nextStep_first h0 hd))
      · rw [hdoc]
        rfl
      · exact (docUnit_of_doc hdoc _).trans (docUnit_setUnit ..)
      · exact (docUnit_of_doc hdoc _).trans (docUnit_setUnit_other _ _ hj)
    · exact (testStart_queue ht hup hu hq).trans (congrArg _ (nextStep_raises h0 hd))
    · obtain ⟨hdoc, -⟩ := doc_testBegun i.toNat r s
      refine ⟨testBegun i.toNat r s, ?_, ?_, (docUnit_of_doc hdoc _).trans (docUnit_setUnit ..)⟩
      · rw [testStart_unit ht hup hu, nextStep_first h0 hd]
      · rw [hdoc]
        rfl
    · rw [testStart_unit ht hup hu, nextStep_raises h0 hd]
    · rw [testStart_unit ht hup hu, nextStep_later h0]
    · have hverdict := testVerdict_runs ht hup hu hstep hbg
      have hlimit := testLimit_runs ht hup hu hstep hbg
      have hleft : rowsLeft s r = true ↔ Tbl.get 0 s.doc.rows (rowsOf r).1 < (rowsOf r).2 := decide_eq_true_iff
      refine ⟨fun hl => ?_, fun hl => ?_, fun hr hrows hl => ?_, fun hr hrows hl => ?_, fun hno => ?_, ?_, fun j hj => ?_,
        fun hlim => ?_, fun hlim => ?_, testTicks_running, fun t hmem hw => testTicks_waiting hmem hw,
        fun a t g st hp => docUnit_docentGranted hp hu⟩
      · exact (hverdict .passed).trans (congrArg _ (if_pos hl))
      · exact (hverdict .passed).trans (congrArg _ (if_neg hl))
      · exact (hverdict .repaired).trans (congrArg _ ((if_pos ⟨hr, hleft.mpr hrows⟩).trans (if_neg hl)))
      · exact (hverdict .repaired).trans (congrArg _ ((if_pos ⟨hr, hleft.mpr hrows⟩).trans (if_pos hl)))
      · exact (hverdict .repaired).trans (congrArg _ (if_neg fun ⟨hr, hrows⟩ => hno.elim (· hr) (· (hleft.mp hrows))))
      · exact (hverdict (.failed r.step)).trans (congrArg _ (if_pos rfl))
      · exact (hverdict (.failed j)).trans (congrArg _ (if_neg hj))
      · exact hlimit.trans (congrArg _ (if_pos hlim))
      · exact hlimit.trans (congrArg _ (if_neg (Nat.not_le.mpr hlim)))
  case cmd =>
    refine ⟨fun hr => ?_, fun hr => ?_, fun hr => ?_, fun hr => ?_, fun hr => ?_, fun hr => ?_⟩
    · rw [docTest_writes h, docCmdWrite_rejected hr]
    · rw [docRetire_writes h, docCmdWrite_rejected hr]
    · rw [docRotate_writes h, docCmdWrite_rejected hr]
    · rw [docTest_writes h, docCmdWrite_test hr]
    · rw [docRetire_writes h, docCmdWrite_retire hr]
      refine ⟨fun hs => ?_, fun hs hidle hrot => ?_, fun hs hbusy => ⟨_, ?_, retireDrains_drains _ s⟩⟩
      · rw [docRetireSlot_spare hs]
      · rw [docRetireSlot_idle hs hidle hrot]
      · rw [docRetireSlot_busy hs hbusy]
    · rw [docRotate_writes h, docCmdWrite_rotate hr]

end Sys2Proof.Machine
end

section
/-! Background tests of units in service, and the rotation of worn slots (R578, R588, R590 to R594, R602). -/

namespace Sys2Proof.Machine

/-! ## What a trace word and a record leave unchanged -/

theorem traceWord_keeps {β : Type} (g : State → β) (hg : ∀ t tr m, g { t with trace := tr, mst := m } = g t) (kind : Nat)
    (ch : BitVec 12) (e : EngId) (sec : Bool) (s : State) : g (traceWord kind ch e sec s) = g s := by
  unfold traceWord
  split
  · split
    · exact hg s _ s.mst
    · exact hg s s.trace _
  · rfl

theorem lgRecord_keeps {β : Type} (g : State → β) (hg : ∀ t l f, g { t with ledger := l, fresh := f } = g t) (code sev : Nat) (inj : Bool)
    (lo hi : Word) (s : State) : g (lgRecord code sev inj lo hi s) = g s :=
  (congrArg g (eq_of_butLog (butLog_lgRecord code sev inj lo hi s))).trans (hg ..)

/-! ## Tests of units in service (R587, R588) -/

/-- The unit's place notes the time of its test, and a slot is held CORDONED. -/
def bgHeld (key : Nat) (r : Recovery) (s : State) : State :=
  let t := s.modDoc (fun d => { d with bgAt := Tbl.put 0 d.bgAt key s.now })
  match r.eng with
  | some e => traceWord 5 0 e false (t.modSlot e (fun x => { x with st := .cordoned }))
  | none => t

section
variable {s : State} {key n : Nat} {r q : Recovery} {can pass : Bool}

theorem bgStart_eq (k key : Nat) (r : Recovery) (s : State) : bgStart k key r s = nextStep k { r with bg := true } (bgHeld key r s) := by
  unfold bgStart bgHeld
  cases r.eng <;> rfl

theorem bgTest_begins (hruns : bgRuns s r = none) (hfree : freeUnit s = some n) :
    bgTest key r true pass s = nextStep n { r with bg := true } (bgHeld key r s) := by
  simp only [bgTest, hruns, hfree, Bool.not_true, Bool.false_eq_true, if_false, bgStart_eq]

theorem bgTest_waits (hruns : bgRuns s r = none) : bgTest key r false pass s = s := by
  simp only [bgTest, hruns, Bool.not_false, if_true]

theorem bgTest_runs (hup : docUp s = true) (hruns : bgRuns s r = some (n, q)) (hstep : q.step ≠ 0) :
    bgTest key r can pass s = if pass = false ∨ q.step.toNat = (testOf q).1 then bgEnd n q pass s else s := by
  have hends : (docUp s && q.step != 0 && (!pass || q.step.toNat == (testOf q).1)) = true ↔
      (pass = false ∨ q.step.toNat = (testOf q).1) := by
    rw [hup, bne_iff_ne.mpr hstep, Bool.and_self, Bool.true_and, Bool.or_eq_true, Bool.not_eq_true', beq_iff_eq]
  simp only [bgTest, hruns]
  exact if_congr hends rfl rfl

/-- A slot under test is out of service while it lasts. -/
theorem slot_bgHeld {e : EngId} (he : r.eng = some e) (s : State) :
    (bgHeld key r s).slot e = { s.slot e with st := .cordoned } ∧ ∀ f, f ≠ e → (bgHeld key r s).slot f = s.slot f := by
  simp only [bgHeld, he]
  refine ⟨(traceWord_keeps (fun t => t.slot e) (fun _ _ _ => rfl) ..).trans (slot_modSlot ..), fun f hf => ?_⟩
  exact (traceWord_keeps (fun t => t.slot f) (fun _ _ _ => rfl) ..).trans (slot_modSlot_other _ _ hf)

theorem bgHeld_keeps {β : Type} (g : State → β) (htrace : ∀ t tr m, g { t with trace := tr, mst := m } = g t)
    (hslot : ∀ t e f, g (State.modSlot t e f) = g t) (key : Nat) (r : Recovery) (s : State) :
    g (bgHeld key r s) = g (s.modDoc (fun d => { d with bgAt := Tbl.put 0 d.bgAt key s.now })) := by
  unfold bgHeld
  cases r.eng with
  | none => rfl
  | some e => exact (traceWord_keeps g htrace ..).trans (hslot ..)

theorem domOn_bgHeld (key : Nat) (r : Recovery) (s : State) (d : Nat) : (bgHeld key r s).domOn d = s.domOn d :=
  bgHeld_keeps (fun t => t.domOn d) (fun _ _ _ => rfl) (fun _ _ _ => rfl) key r s

theorem gal_bgHeld (key : Nat) (r : Recovery) (s : State) (k : Nat) : (bgHeld key r s).gal k = s.gal k :=
  bgHeld_keeps (fun t => t.gal k) (fun _ _ _ => rfl) (fun _ _ _ => rfl) key r s

theorem engs_bgHeld (key : Nat) (r : Recovery) (s : State) : (bgHeld key r s).engs = s.engs :=
  bgHeld_keeps State.engs (fun _ _ _ => rfl) (fun _ _ _ => rfl) key r s

theorem now_bgHeld (key : Nat) (r : Recovery) (s : State) : (bgHeld key r s).now = s.now :=
  bgHeld_keeps State.now (fun _ _ _ => rfl) (fun _ _ _ => rfl) key r s

theorem bgAt_bgHeld (key : Nat) (r : Recovery) (s : State) : Tbl.get 0 (bgHeld key r s).doc.bgAt key = s.now := by
  rw [bgHeld_keeps State.doc (fun _ _ _ => rfl) (fun _ _ _ => rfl) key r s]
  exact Tbl.get_put_same ..

/-- The domains of a unit of gallery `n % 32`: its gallery and its wing. -/
theorem recDoms_gal (h : r.src.val < 128) : recDoms r = [7 + r.src.val % 32, 3 + r.src.val % 32 / 8] := if_pos h

theorem src_recov (n inst : Nat) (e : Option EngId) (h : n < 320) : (recov n inst e).src.val = n := Nat.mod_eq_of_lt h

/-- With gallery and wing ON the test's first step begins at once. -/
theorem recDoms_on {g : BitVec 5} (hsrc : r.src.val < 128) (hg : r.src.val % 32 = g.toNat) (h7 : s.domOn (7 + g.toNat) = true)
    (h3 : s.domOn (3 + g.toNat / 8) = true) : (recDoms r).all s.domOn = true := by
  rw [recDoms_gal hsrc, hg]
  simp [h7, h3]

/-! ## The end of such a test -/

theorem bgEnd_unit (he : r.eng = none) (pass : Bool) : bgEnd n r pass s =
    if pass then setUnit n none s
    else assertFault r.src.val (faultOf (if r.src.val < 96 then 1 else 9) r.inst.toNat) (setUnit n none s) := by
  simp only [bgEnd, he]

theorem bgEnd_slot {e : EngId} (he : r.eng = some e) (hrot : (s.gal e.g.toNat).rotIn ≠ some e.slot) (pass : Bool) :
    bgEnd n r pass s = if pass then returnSlot e (setUnit n none s)
      else assertFault r.src.val (engInfo (setUnit n none s) e 1 false) (setUnit n none s) := by
  have hno : ((s.gal e.g.toNat).rotOut.isNone && (s.gal e.g.toNat).rotIn == some e.slot) = false := by
    rw [beq_eq_false_iff_ne.mpr hrot, Bool.and_false]
  cases pass <;> simp only [bgEnd, he, hno, if_true, Bool.false_eq_true, if_false]

theorem bgEnd_pretest {e : EngId} (he : r.eng = some e) (hout : (s.gal e.g.toNat).rotOut = none)
    (hin : (s.gal e.g.toNat).rotIn = some e.slot) (pass : Bool) :
    bgEnd n r pass s = if pass then pretestEnd e.g.toNat e.slot true (returnSlot e (setUnit n none s))
      else
        let v := (setUnit n none s).modGal e.g.toNat (fun z => { z with rotIn := none })
        assertFault r.src.val (engInfo v e 1 false) v := by
  have hyes : ((s.gal e.g.toNat).rotOut.isNone && (s.gal e.g.toNat).rotIn == some e.slot) = true := by
    rw [hout, hin, beq_self_eq_true]
    rfl
  cases pass with
  | true => simp only [bgEnd, he, hyes, if_true]
  | false => simp only [bgEnd, he, hyes, if_true, Bool.false_eq_true, if_false, pretestEnd, Bool.not_false, Bool.true_or]

end

/-! ## The most worn slot (R591) -/

/-- The better of a candidate and a slot. -/
def wornStep (s : State) (b : Option EngId) (e : EngId) : Option EngId :=
  if (s.slot e).st = .service then
    (match b with
     | some f => if (s.slot f).wear.toNat < (s.slot e).wear.toNat then some e else b
     | none => some e)
  else b

theorem mostWorn_eq (s : State) (g : Nat) : mostWorn s g = (galEngs g).foldl (wornStep s) none := by
  unfold mostWorn wornStep
  rfl

/-- It is about wear, and about which slots serve. -/
theorem mostWorn_congr {s t : State} (hst : ∀ e, (t.slot e).st = .service ↔ (s.slot e).st = .service)
    (hw : ∀ e, (t.slot e).wear = (s.slot e).wear) (g : Nat) : mostWorn t g = mostWorn s g := by
  have hstep : wornStep t = wornStep s := by
    funext b e
    simp only [wornStep, hst, hw]
  rw [mostWorn_eq, mostWorn_eq, hstep]

theorem foldl_wornStep_service {s : State} (l : List EngId) {b : Option EngId} {q : EngId}
    (hb : ∀ f, b = some f → (s.slot f).st = .service) (h : l.foldl (wornStep s) b = some q) : (s.slot q).st = .service := by
  induction l generalizing b with
  | nil => exact hb q h
  | cons e l ih =>
    refine ih (b := wornStep s b e) (fun f hf => ?_) h
    unfold wornStep at hf
    split at hf
    · next he =>
      split at hf
      · split at hf
        · exact Option.some.inj hf ▸ he
        · exact hb f hf
      · exact Option.some.inj hf ▸ he
    · exact hb f hf

theorem mostWorn_service {s : State} {g : Nat} {q : EngId} (h : mostWorn s g = some q) : (s.slot q).st = .service :=
  foldl_wornStep_service _ (fun _ hf => absurd hf.symm (Option.some_ne_none _)) (mostWorn_eq s g ▸ h)

/-! ## The pre-test (R591) -/

section
variable {s : State} {g : BitVec 5} {y : Fin 17} {n : Nat} {q : EngId}

/-- The spare of a passed pre-test returns as one beside 16 slots in service. -/
theorem returnSlot_spare {e : EngId} (h : 16 ≤ inService s e.g.toNat) : returnSlot e s = s.modSlot e (fun x => { x with st := .spare }) := by
  rw [returnSlot, if_neg (by omega)]

/-- The passed pre-test's spare waits while the most worn slot drains. -/
def pretestPassed (e q : EngId) (s : State) : State :=
  ((s.modSlot e (fun x => { x with st := .spare })).modSlot q (fun x => { x with st := .draining })).modGal e.g.toNat
    (fun z => { z with rotOut := some q.slot, rotAt := s.now })

theorem pretestEnd_passes (hq : mostWorn s g.toNat = some q) (hc : (s.slot ⟨g, y⟩).st = .cordoned) (hin : 16 ≤ inService s g.toNat) :
    pretestEnd g.toNat y true (returnSlot ⟨g, y⟩ s) = pretestPassed ⟨g, y⟩ q s := by
  rw [returnSlot_spare (e := ⟨g, y⟩) hin]
  have hworn : mostWorn (s.modSlot ⟨g, y⟩ (fun x => { x with st := .spare })) g.toNat = some q := by
    refine (mostWorn_congr (fun e => ?_) (fun e => ?_) _).trans hq
    all_goals by_cases he : e = ⟨g, y⟩
    · rw [he, slot_modSlot, hc]
      exact iff_of_false (fun h => nomatch h) (fun h => nomatch h)
    · rw [slot_modSlot_other _ _ he]
    · rw [he, slot_modSlot]
    · rw [slot_modSlot_other _ _ he]
  simp only [pretestEnd, BitVec.ofNat_toNat, BitVec.setWidth_eq, slot_modSlot, hworn]
  rfl

theorem pretestPassed_drains (hq : (s.slot q).st = .service) (hc : (s.slot ⟨g, y⟩).st = .cordoned)
    (hrot : (s.gal g.toNat).rotIn = some y) :
    let t := pretestPassed ⟨g, y⟩ q s
    (t.gal g.toNat).rotOut = some q.slot ∧ (t.gal g.toNat).rotIn = some y ∧ (t.gal g.toNat).rotAt = s.now ∧
      (t.slot q).st = .draining ∧ (t.slot ⟨g, y⟩).st = .spare ∧ (∀ f, f ≠ ⟨g, y⟩ → f ≠ q → t.slot f = s.slot f) := by
  have hne : (⟨g, y⟩ : EngId) ≠ q := by
    rintro rfl
    exact absurd (hc.symm.trans hq) (by decide)
  have hgal : (pretestPassed ⟨g, y⟩ q s).gal g.toNat = { s.gal g.toNat with rotOut := some q.slot, rotAt := s.now } := gal_modGal ..
  refine ⟨by rw [hgal], by rw [hgal]; exact hrot, by rw [hgal], ?_, ?_, fun f hf hfq => ?_⟩
  · rw [pretestPassed, State.modGal_slot_of, slot_modSlot]
  · rw [pretestPassed, State.modGal_slot_of, slot_modSlot_other _ _ hne, slot_modSlot]
  · rw [pretestPassed, State.modGal_slot_of, slot_modSlot_other _ _ hfq, slot_modSlot_other _ _ hf]

end

/-! ## The rotation (R590, R591, R593) -/

section
variable {s : State} {g : BitVec 5}

theorem rotationDue_eq (ht : s.boot.tstMode = false) (hup : docUp s = true) : exec (.rotationDue g) s = .next (
    if s.galPop g.toNat = true ∧ rotOn s = true ∧ rotElapsed s g.toNat = true then s.modGal g.toNat (fun y => { y with rotDue := true })
    else s) := by
  have hexec : exec (.rotationDue g) s = .next _ := act_next ht _
  simp only [hup, Bool.true_and, Bool.and_eq_true, and_assoc] at hexec
  exact hexec

theorem rotationStart_begins (ht : s.boot.tstMode = false) (hup : docUp s = true) {e : EngId} {n : Nat} {pass : Bool}
    (hpop : s.galPop g.toNat = true) (hdue : (s.gal g.toNat).rotDue = true) (hon : rotOn s = true)
    (hout : (s.gal g.toNat).rotOut = none) (hin : (s.gal g.toNat).rotIn = none) (h7 : s.domOn (7 + g.toNat) = true)
    (hent : (s.dom (7 + g.toNat)).entering = false) (hrec : galRecovers s g.toNat = false) (hspare : spareOf s g.toNat = some e)
    (hfree : freeUnit s = some n) : exec (.rotationStart g pass) s = .next
      (bgTest (g.toNat * 17 + e.slot.val) (recov g.toNat e.slot.val (some e)) true pass
        (s.modGal g.toNat (fun y => { y with rotIn := some e.slot }))) := by
  have hexec : exec (.rotationStart g pass) s = .next _ := act_next ht _
  simp only [hup, hpop, hdue, hon, hout, hin, h7, hent, hrec, hspare, hfree, Bool.not_true, Bool.or_self, Bool.false_eq_true,
    if_false] at hexec
  exact hexec

/-- The state in which the spare's pre-test has begun. -/
def pretestHeld (g : BitVec 5) (e : EngId) (s : State) : State :=
  bgHeld (g.toNat * 17 + e.slot.val) (recov g.toNat e.slot.val (some e)) (s.modGal g.toNat (fun y => { y with rotIn := some e.slot }))

theorem pretest_begins (h7 : s.domOn (7 + g.toNat) = true) (h3 : s.domOn (3 + g.toNat / 8) = true) {e : EngId} {n : Nat} {pass : Bool}
    (hfree : freeUnit s = some n) (hruns : bgRuns s (recov g.toNat e.slot.val (some e)) = none) :
    bgTest (g.toNat * 17 + e.slot.val) (recov g.toNat e.slot.val (some e)) true pass
      (s.modGal g.toNat (fun y => { y with rotIn := some e.slot })) =
    testBegun n { recov g.toNat e.slot.val (some e) with bg := true } (pretestHeld g e s) := by
  have hlt := g.isLt
  have hsrc : (recov g.toNat e.slot.val (some e)).src.val = g.toNat := src_recov _ _ _ (by omega)
  refine (bgTest_begins (s := s.modGal _ _) hruns hfree).trans (nextStep_first rfl (recDoms_on (g := g) ?_ ?_ ?_ ?_))
  · exact lt_of_eq_of_lt hsrc (by omega)
  · exact (congrArg (· % 32) hsrc).trans (Nat.mod_eq_of_lt hlt)
  · exact (domOn_bgHeld ..).trans h7
  · exact (domOn_bgHeld ..).trans h3

theorem gal_testBegun (k : Nat) (r : Recovery) (s : State) (g : Nat) : (testBegun k r s).gal g = s.gal g := by
  unfold testBegun
  split <;> rfl

theorem pretest_holds (e : EngId) (n : Nat) (s : State) (hout : (s.gal g.toNat).rotOut = none) :
    let t := testBegun n { recov g.toNat e.slot.val (some e) with bg := true } (pretestHeld g e s)
    (t.gal g.toNat).rotIn = some e.slot ∧ (t.gal g.toNat).rotOut = none ∧ (t.slot e).st = .cordoned ∧
      (t.slot e).tests = satAdd (s.slot e).tests 1 ∧ (∀ f, f ≠ e → t.slot f = s.slot f) ∧
      docUnit t n = some { recov g.toNat e.slot.val (some e) with bg := true, step := 1, startAt := s.now } ∧ t.engs = s.engs := by
  intro t
  obtain ⟨hslot, hother⟩ := slot_bgHeld (key := g.toNat * 17 + e.slot.val) (r := recov g.toNat e.slot.val (some e)) rfl
    (s.modGal g.toNat (fun y => { y with rotIn := some e.slot }))
  have hgal : t.gal g.toNat = { s.gal g.toNat with rotIn := some e.slot } := by
    have h : t.gal g.toNat = (pretestHeld g e s).gal g.toNat := gal_testBegun ..
    exact h.trans ((gal_bgHeld ..).trans (gal_modGal ..))
  have hbegun := slot_testBegun n { recov g.toNat e.slot.val (some e) with bg := true } (pretestHeld g e s)
  have hself : t.slot e = { s.slot e with st := .cordoned, tests := satAdd (s.slot e).tests 1 } := by
    refine (hbegun e).trans ((if_pos rfl).trans ?_)
    rw [pretestHeld, hslot]
    rfl
  obtain ⟨hdoc, hengs⟩ := doc_testBegun n { recov g.toNat e.slot.val (some e) with bg := true } (pretestHeld g e s)
  refine ⟨by rw [hgal], by rw [hgal]; exact hout, by rw [hself], by rw [hself], fun f hf => ?_, ?_, ?_⟩
  · refine (hbegun f).trans ((if_neg fun h => hf (Option.some.inj h).symm).trans ?_)
    exact hother f hf
  · refine (docUnit_of_doc hdoc n).trans ((docUnit_setUnit ..).trans ?_)
    rw [pretestHeld, now_bgHeld]
    rfl
  · exact hengs.trans (engs_bgHeld ..)

theorem rotationStart_runs (ht : s.boot.tstMode = false) {y : Fin 17} {pass : Bool} (hout : (s.gal g.toNat).rotOut = none)
    (hin : (s.gal g.toNat).rotIn = some y) : exec (.rotationStart g pass) s = .next
      (bgTest (g.toNat * 17 + y.val) (recov g.toNat y.val (some ⟨g, y⟩)) false pass s) := by
  have hexec : exec (.rotationStart g pass) s = .next _ := act_next ht _
  simp only [hout, hin] at hexec
  exact hexec

theorem retireDrained_none (h : (s.gal g.toNat).retiring = []) : retireDrained g.toNat s = s := by
  have hnil : (galEngs g.toNat).filter (fun e => (s.gal g.toNat).retiring.contains e.slot && (s.slot e).st == .draining &&
      (s.eng e).phase == .idle && (s.gal g.toNat).rotOut != some e.slot) = [] := by
    simp [h]
  rw [retireDrained, hnil]
  rfl

theorem rotationSwap_eq (ht : s.boot.tstMode = false) (hup : docUp s = true) {r x : Fin 17}
    (hout : (s.gal g.toNat).rotOut = some r) (hin : (s.gal g.toNat).rotIn = some x) (hret : (s.gal g.toNat).retiring = []) :
    exec (.rotationSwap g) s = .next (
      if (s.eng ⟨g, r⟩).phase ≠ .idle then s
      else if (s.slot ⟨g, x⟩).st ≠ .spare then abandonRot g.toNat r s
      else rotationDone g.toNat r x ((s.modSlot ⟨g, r⟩ (fun y => { y with st := .spare })).modGal g.toNat
        (fun y => { y with retiring := y.retiring.filter (fun q => q != r) }))) := by
  have hexec : exec (.rotationSwap g) s = .next _ := act_next ht _
  simp only [hup, if_true, retireDrained_none hret, hout, hin, hret, Bool.not_true, Bool.false_eq_true, if_false,
    List.contains_nil] at hexec
  exact hexec

/-- A rotation that is done: the spare serves, the gallery's rotation is over, and it is counted. -/
theorem rotationDone_swaps (r x : Fin 17) (s : State) :
    let t := rotationDone g.toNat r x s
    (t.slot ⟨g, x⟩).st = .service ∧ (∀ j, j ≠ ⟨g, x⟩ → t.slot j = s.slot j) ∧ (t.gal g.toNat).rotOut = none ∧
      (t.gal g.toNat).rotIn = none ∧ (t.gal g.toNat).rotDue = false ∧ (t.gal g.toNat).rotLast = s.now ∧
      t.doc.rotDone = s.doc.rotDone + 1 := by
  intro t
  have hslot (j : EngId) : t.slot j = (s.modSlot ⟨BitVec.ofNat 5 g.toNat, x⟩ (fun q => { q with st := .service })).slot j :=
    lgRecord_keeps (fun u => u.slot j) (fun _ _ _ => rfl) ..
  rw [BitVec.ofNat_toNat, BitVec.setWidth_eq] at hslot
  have hgal : t.gal g.toNat = { s.gal g.toNat with rotOut := none, rotIn := none, rotDue := false, rotLast := s.now, rotFirst := false } := by
    have h := gal_modGal (s.modSlot ⟨BitVec.ofNat 5 g.toNat, x⟩ (fun q => { q with st := .service })) g.toNat
      (fun y => { y with rotOut := none, rotIn := none, rotDue := false, rotLast := s.now, rotFirst := false })
    exact (lgRecord_keeps (fun u => u.gal g.toNat) (fun _ _ _ => rfl) ..).trans h
  refine ⟨by rw [hslot, slot_modSlot], fun j hj => by rw [hslot, slot_modSlot_other _ _ hj], by rw [hgal], by rw [hgal], by rw [hgal],
    by rw [hgal], ?_⟩
  exact lgRecord_keeps (fun u => u.doc.rotDone) (fun _ _ _ => rfl) ..

theorem rotationAbandon_eq (ht : s.boot.tstMode = false) (hup : docUp s = true) {r : Fin 17}
    (hout : (s.gal g.toNat).rotOut = some r) (hret : (s.gal g.toNat).retiring = [])
    (h : fld (s.reg .rotCfg) 16 8 * 1600000 ≤ (s.now - (s.gal g.toNat).rotAt).toNat ∨ (s.dom (7 + g.toNat)).entering = true) :
    exec (.rotationAbandon g) s = .next (abandonRot g.toNat r s) := by
  have hexec : exec (.rotationAbandon g) s = .next _ := act_next ht _
  simp only [hout] at hexec
  rwa [if_pos] at hexec
  rw [hup, hret, Bool.true_and, List.contains_nil, Bool.not_false, Bool.and_true, Bool.or_eq_true]
  exact h.imp_left decide_eq_true

/-- A rotation given up: nothing of it stands, and its slot serves again. -/
def rotGivenUp (g : BitVec 5) (r : Fin 17) (s : State) : State :=
  (s.modGal g.toNat (fun x => { x with rotOut := none, rotIn := none })).modSlot ⟨g, r⟩ (fun y => { y with st := .service })

theorem abandonRot_eq {r : Fin 17} (hret : (s.gal g.toNat).retiring = []) : abandonRot g.toNat r s =
    (rotGivenUp g r s).modDoc (fun d => { d with rotAbandoned := satAdd d.rotAbandoned 1 }) := by
  have hno : (s.gal g.toNat).retiring.contains r = false := by rw [hret]; rfl
  simp only [abandonRot, hno, Bool.false_eq_true, if_false, BitVec.ofNat_toNat, BitVec.setWidth_eq, rotGivenUp]

theorem rotGivenUp_leaves (r : Fin 17) (s : State) :
    (rotGivenUp g r s).gal g.toNat = { s.gal g.toNat with rotOut := none, rotIn := none } ∧
    ((rotGivenUp g r s).slot ⟨g, r⟩).st = .service ∧ (∀ j, j ≠ ⟨g, r⟩ → (rotGivenUp g r s).slot j = s.slot j) := by
  refine ⟨gal_modGal s g.toNat (fun x => { x with rotOut := none, rotIn := none }), ?_, fun j hj => ?_⟩
  · rw [rotGivenUp, slot_modSlot]
  · rw [rotGivenUp, slot_modSlot_other _ _ hj]
    rfl

theorem abandonRot_ends {r : Fin 17} (hret : (s.gal g.toNat).retiring = []) :
    let t := abandonRot g.toNat r s
    (t.gal g.toNat).rotOut = none ∧ (t.gal g.toNat).rotIn = none ∧ (t.slot ⟨g, r⟩).st = .service ∧
      t.doc.rotAbandoned = satAdd s.doc.rotAbandoned 1 ∧ (∀ j, j ≠ ⟨g, r⟩ → t.slot j = s.slot j) := by
  obtain ⟨hgal, hslot, hother⟩ := rotGivenUp_leaves (g := g) r s
  rw [abandonRot_eq hret]
  exact ⟨congrArg Gal.rotOut hgal, congrArg Gal.rotIn hgal, hslot, rfl, hother⟩

theorem up_of_docUp (h : docUp s = true) : fcrOn s = true ∧ coreUp s = true ∧ s.fcr.unguarded = false := by
  simp only [docUp, Bool.and_eq_true, Bool.not_eq_true'] at h
  exact ⟨h.1.1, h.1.2, h.2⟩

theorem wearHourTick_counts (ht : s.boot.tstMode = false) (hup : docUp s = true) {e : EngId} (hpop : s.galPop e.g.toNat = true)
    (h7 : s.domOn (7 + e.g.toNat) = true) (hst : (s.slot e).st = .service ∨ (s.slot e).st = .draining) :
    exec (.wearHourTick e) s = .next (s.modSlot e (fun x => { x with wear := satAdd x.wear 1 })) := by
  obtain ⟨hfcr, hcore, -⟩ := up_of_docUp hup
  have hexec : exec (.wearHourTick e) s = .next _ := act_next ht _
  dsimp only at hexec
  rwa [if_pos] at hexec
  rw [hfcr, hcore, hpop, h7]
  simpa using hst

end

/-- Settles O42: what each stage of a rotation leaves of slots, gallery and counts. -/
theorem wearRotation : Obligations.WearRotation := by
  intro s ht hup
  refine ⟨fun g => ?_, fun e hpop h7 hst => wearHourTick_counts ht hup hpop h7 hst⟩
  intro k x
  refine ⟨fun hpop hon hel => ?due, fun hel => ?early, fun e n pass hpop hdue hon hout hin h7 h3 hent hrec hspare hfree hruns => ?begins,
    fun y n r hout hin => ?pretest, fun r q hout hin hret => ?swap⟩
  case due => exact (rotationDue_eq ht hup).trans (congrArg _ (if_pos ⟨hpop, hon, hel⟩))
  case early =>
    exact (rotationDue_eq ht hup).trans (congrArg _ (if_neg fun h => Bool.false_ne_true (hel.symm.trans h.2.2)))
  case begins =>
    exact ⟨_, (rotationStart_begins ht hup hpop hdue hon hout hin h7 hent hrec hspare hfree).trans
      (congrArg _ (pretest_begins h7 h3 hfree hruns)), pretest_holds e n s hout⟩
  case pretest =>
    intro e hruns he hsrc hstep
    have hexec (pass : Bool) := (rotationStart_runs (pass := pass) ht hout hin).trans (congrArg _ (bgTest_runs hup hruns hstep))
    refine ⟨fun q hlast hq hc hin16 => ⟨pretestPassed e q (setUnit n none s), ?_, ?_⟩, fun hlast => ?_, ?_⟩
    · rw [hexec, if_pos (.inr hlast), bgEnd_pretest he hout hin, if_pos rfl]
      exact congrArg _ (pretestEnd_passes (s := setUnit n none s) hq hc hin16)
    · obtain ⟨hro, hri, hat, hdrain, hspare, hother⟩ :=
        pretestPassed_drains (s := setUnit n none s) (q := q) (mostWorn_service hq) hc hin
      exact ⟨hro, hri, hat, hdrain, hspare, docUnit_setUnit .., hother, rfl⟩
    · rw [hexec, if_neg (by simpa using hlast)]
    · rw [hexec, if_pos (.inl rfl), bgEnd_pretest he hout hin, if_neg Bool.false_ne_true, hsrc]
  case swap =>
    intro e f
    have hexec := rotationSwap_eq ht hup hout hin hret
    refine ⟨fun hbusy => ?_, fun hidle hspare hne => ?_, fun hidle hspare => ?_, fun h =>
      ⟨_, rotationAbandon_eq ht hup hout hret h, abandonRot_ends hret⟩⟩
    · exact hexec.trans (congrArg _ (if_pos hbusy))
    · refine ⟨_, hexec.trans (congrArg _ ((if_neg (not_not.mpr hidle)).trans (if_neg (not_not.mpr hspare)))), ?_⟩
      obtain ⟨hserve, hother, hdone⟩ := rotationDone_swaps (g := g) r q
        ((s.modSlot ⟨g, r⟩ (fun y => { y with st := .spare })).modGal g.toNat
          (fun y => { y with retiring := y.retiring.filter (fun q => q != r) }))
      have hef : e ≠ f := fun h => hne (congrArg EngId.slot h)
      refine ⟨?_, hserve, fun j hje hjf => ?_, hdone⟩
      · rw [hother e hef, State.modGal_slot_of, slot_modSlot]
      · rw [hother j hjf, State.modGal_slot_of, slot_modSlot_other _ _ hje]
    · exact hexec.trans (congrArg _ ((if_neg (not_not.mpr hidle)).trans (if_pos hspare)))

end Sys2Proof.Machine
end

section
/-! Periodic tests, scrubbing, calibration and sensors (R588, R595 to R598, R654). -/

namespace Sys2Proof.Machine

/-! ## What raising a test's domains leaves unchanged -/

theorem butPower_raiseFor (r : Recovery) (s : State) : (raiseFor r s).butPower = s.butPower :=
  foldS_keeps (f := fun d t => beginWake d 9 0 t) State.butPower (fun d t => butPower_beginWake d 9 0 t) _ s

theorem raiseFor_keeps (r : Recovery) (s : State) :
    (∀ e, (raiseFor r s).slot e = s.slot e) ∧ (raiseFor r s).doc = s.doc ∧ (raiseFor r s).engs = s.engs := by
  have hslot (e : EngId) := congrArg (fun t : State => t.slot e) (butPower_raiseFor r s)
  have hdoc := congrArg State.doc (butPower_raiseFor r s)
  have hengs := congrArg State.engs (butPower_raiseFor r s)
  exact ⟨hslot, hdoc, hengs⟩

/-! ## A periodic test that begins (R588) -/

section
variable {s : State} {n : Nat} {pass : Bool}

theorem bgDue_of_le {key ticks : Nat} (h : ticks ≤ (s.now - Tbl.get 0 s.doc.bgAt key).toNat) : bgDue s key ticks = true :=
  decide_eq_true h

/-- A slot's test begins, at once or once its domains are raised: the slot is held, and the time is noted. -/
theorem slotTest_begins (key : Nat) {r : Recovery} {e : EngId} (he : r.eng = some e) (h0 : r.step = 0) :
    let t := nextStep n { r with bg := true } (bgHeld key r s)
    (t.slot e).st = .cordoned ∧ Tbl.get 0 t.doc.bgAt key = s.now ∧ (∀ f, f ≠ e → t.slot f = s.slot f) ∧ t.engs = s.engs ∧
      ((recDoms r).all s.domOn = true → (t.slot e).tests = satAdd (s.slot e).tests 1 ∧
        docUnit t n = some { r with bg := true, step := 1, startAt := s.now }) := by
  intro t
  obtain ⟨hself, hother⟩ := slot_bgHeld (key := key) he s
  have hdoms : (recDoms { r with bg := true }).all (bgHeld key r s).domOn = (recDoms r).all s.domOn := by
    rw [show (bgHeld key r s).domOn = s.domOn from funext (domOn_bgHeld key r s)]
    rfl
  cases hd : (recDoms r).all s.domOn with
  | true =>
    have ht : t = testBegun n { r with bg := true } (bgHeld key r s) := nextStep_first h0 (hdoms.trans hd)
    obtain ⟨hdoc, hengs⟩ := doc_testBegun n { r with bg := true } (bgHeld key r s)
    have hslot := slot_testBegun n { r with bg := true } (bgHeld key r s)
    have hown := (hslot e).trans (if_pos he)
    rw [ht]
    refine ⟨?_, ?_, fun f hf => ?_, hengs.trans (engs_bgHeld ..), fun _ => ⟨?_, ?_⟩⟩
    · rw [hown, hself]
    · rw [hdoc]
      exact bgAt_bgHeld key r s
    · exact (hslot f).trans ((if_neg fun h => hf (Option.some.inj (he.symm.trans h)).symm).trans (hother f hf))
    · rw [hown, hself]
    · refine (docUnit_of_doc hdoc n).trans ((docUnit_setUnit ..).trans ?_)
      rw [now_bgHeld]
  | false =>
    have ht : t = raiseFor { r with bg := true } (setUnit n (some { r with bg := true }) (bgHeld key r s)) :=
      nextStep_raises h0 (hdoms.trans hd)
    obtain ⟨hslot, hdoc, hengs⟩ := raiseFor_keeps { r with bg := true } (setUnit n (some { r with bg := true }) (bgHeld key r s))
    rw [ht]
    refine ⟨?_, ?_, fun f hf => (hslot f).trans (hother f hf), hengs.trans (engs_bgHeld ..), fun h => absurd h Bool.false_ne_true⟩
    · rw [hslot]
      exact congrArg Slot.st hself
    · rw [hdoc]
      exact bgAt_bgHeld key r s

theorem periodicSpareTest_eq (ht : s.boot.tstMode = false) {e : EngId} (hrot : (s.gal e.g.toNat).rotIn = none) :
    exec (.periodicSpareTest e pass) s = .next (bgTest (e.g.toNat * 17 + e.slot.val) (recov e.g.toNat e.slot.val (some e))
      (perOn s && s.galPop e.g.toNat && fld (s.reg .rotCfg) 8 8 != 0 && !(s.dom (7 + e.g.toNat)).entering &&
        bgDue s (e.g.toNat * 17 + e.slot.val) (fld (s.reg .rotCfg) 8 8 * 60 * 1000000 * ticksUs) && (s.slot e).st == .spare) pass s) := by
  have hexec : exec (.periodicSpareTest e pass) s = .next _ := act_next ht _
  have hno : (rotating s e.g.toNat && (s.gal e.g.toNat).rotIn == some e.slot) = false := by
    rw [hrot]
    exact Bool.and_false _
  dsimp only at hexec
  rwa [if_neg (hno ▸ Bool.false_ne_true)] at hexec

theorem spareTest_begins (ht : s.boot.tstMode = false) (hper : perOn s = true) (hfree : freeUnit s = some n) {e : EngId}
    (hruns : bgRuns s (recov e.g.toNat e.slot.val (some e)) = none) (hpop : s.galPop e.g.toNat = true)
    (hperiod : fld (s.reg .rotCfg) 8 8 ≠ 0) (hst : (s.slot e).st = .spare) (hent : (s.dom (7 + e.g.toNat)).entering = false)
    (hrot : (s.gal e.g.toNat).rotIn = none)
    (hdue : fld (s.reg .rotCfg) 8 8 * 96000000000 ≤ (s.now - Tbl.get 0 s.doc.bgAt (e.g.toNat * 17 + e.slot.val)).toNat) :
    exec (.periodicSpareTest e pass) s = .next (nextStep n { recov e.g.toNat e.slot.val (some e) with bg := true }
      (bgHeld (e.g.toNat * 17 + e.slot.val) (recov e.g.toNat e.slot.val (some e)) s)) := by
  have hticks : fld (s.reg .rotCfg) 8 8 * 60 * 1000000 * ticksUs = fld (s.reg .rotCfg) 8 8 * 96000000000 := by
    unfold ticksUs
    omega
  rw [periodicSpareTest_eq ht hrot, hper, hpop, bne_iff_ne.mpr hperiod, hent, hticks, bgDue_of_le hdue, hst]
  exact congrArg _ (bgTest_begins hruns hfree)

/-- The first step of the test of a unit that is no slot, in domains that are ON. -/
theorem unitTest_begins (key : Nat) {r : Recovery} (he : r.eng = none) (h0 : r.step = 0) (hd : (recDoms r).all s.domOn = true) :
    nextStep n { r with bg := true } (bgHeld key r s) = setUnit n (some { r with bg := true, step := 1, startAt := s.now })
      (s.modDoc (fun d => { d with bgAt := Tbl.put 0 d.bgAt key s.now })) := by
  have hheld : bgHeld key r s = s.modDoc (fun d => { d with bgAt := Tbl.put 0 d.bgAt key s.now }) := by
    simp only [bgHeld, he]
  rw [hheld]
  refine (nextStep_first (r := { r with bg := true }) h0 ?_).trans ?_
  · exact hd
  simp only [testBegun, he]
  rfl

theorem periodicComparatorTest_eq (ht : s.boot.tstMode = false) (k : BitVec 6) :
    exec (.periodicComparatorTest k pass) s = .next (bgTest (1024 + k.toNat) (recov (234 + k.toNat / 8) (k.toNat % 8) none)
      (perOn s && bgDue s (1024 + k.toNat) (1000000 * ticksUs) && (s.pair k.toNat).ch.isNone && !(s.sc k.toNat).arm &&
        !scReserved s k.toNat && !pairCordoned s k.toNat) pass s) := act_next ht _

theorem recDoms_pair {k : BitVec 6} (h1 : s.domOn 1 = true) :
    (recDoms (recov (234 + k.toNat / 8) (k.toNat % 8) none)).all s.domOn = true := by
  have hk := k.isLt
  have hsrc : (recov (234 + k.toNat / 8) (k.toNat % 8) none).src.val = 234 + k.toNat / 8 := src_recov _ _ _ (by omega)
  have hdoms : recDoms (recov (234 + k.toNat / 8) (k.toNat % 8) none) = [1] := by
    rw [recDoms]
    simp only [hsrc]
    rw [if_neg (by omega), if_neg (by omega), if_neg (by omega), if_neg (by omega), if_pos (by omega)]
  rw [hdoms, List.all_cons, h1, List.all_nil, Bool.and_self]

theorem comparatorTest_begins (ht : s.boot.tstMode = false) (hper : perOn s = true) (hfree : freeUnit s = some n) {k : BitVec 6}
    (hruns : bgRuns s (recov (234 + k.toNat / 8) (k.toNat % 8) none) = none) (h1 : s.domOn 1 = true) (hch : (s.pair k.toNat).ch = none)
    (harm : (s.sc k.toNat).arm = false) (hres : scReserved s k.toNat = false) (hcord : pairCordoned s k.toNat = false)
    (hdue : 1600000000 ≤ (s.now - Tbl.get 0 s.doc.bgAt (1024 + k.toNat)).toNat) :
    exec (.periodicComparatorTest k pass) s = .next (setUnit n
      (some { recov (234 + k.toNat / 8) (k.toNat % 8) none with bg := true, step := 1, startAt := s.now })
      (s.modDoc (fun d => { d with bgAt := Tbl.put 0 d.bgAt (1024 + k.toNat) s.now }))) := by
  rw [periodicComparatorTest_eq ht, hper, bgDue_of_le (ticks := 1000000 * ticksUs) hdue, hch, harm, hres, hcord]
  exact congrArg _ ((bgTest_begins hruns hfree).trans (unitTest_begins _ rfl rfl (recDoms_pair h1)))

theorem periodicAesTest_eq (ht : s.boot.tstMode = false) (g : BitVec 5) (p : Bool) :
    exec (.periodicAesTest g p pass) s = .next (bgTest (2048 + 2 * g.toNat + b2n p) (recov (64 + g.toNat) (b2n p) none)
      (perOn s && bgDue s (2048 + 2 * g.toNat + b2n p) (1000000 * ticksUs) && s.galPop g.toNat && !(s.dom (7 + g.toNat)).entering &&
        !galCordoned s g.toNat && pipeOk s g.toNat p && !pipeClaimed s g.toNat p) pass s) := act_next ht _

theorem aesTest_begins (ht : s.boot.tstMode = false) (hper : perOn s = true) (hfree : freeUnit s = some n) {g : BitVec 5} {p : Bool}
    (hruns : bgRuns s (recov (64 + g.toNat) (b2n p) none) = none) (h7 : s.domOn (7 + g.toNat) = true)
    (h3 : s.domOn (3 + g.toNat / 8) = true) (hpop : s.galPop g.toNat = true) (hent : (s.dom (7 + g.toNat)).entering = false)
    (hcord : galCordoned s g.toNat = false) (hok : pipeOk s g.toNat p = true) (hclaim : pipeClaimed s g.toNat p = false)
    (hdue : 1600000000 ≤ (s.now - Tbl.get 0 s.doc.bgAt (2048 + 2 * g.toNat + b2n p)).toNat) :
    exec (.periodicAesTest g p pass) s = .next (setUnit n
      (some { recov (64 + g.toNat) (b2n p) none with bg := true, step := 1, startAt := s.now })
      (s.modDoc (fun d => { d with bgAt := Tbl.put 0 d.bgAt (2048 + 2 * g.toNat + b2n p) s.now }))) := by
  have hg := g.isLt
  have hsrc : (recov (64 + g.toNat) (b2n p) none).src.val = 64 + g.toNat := src_recov _ _ _ (by omega)
  rw [periodicAesTest_eq ht, hper, bgDue_of_le (ticks := 1000000 * ticksUs) hdue, hpop, hent, hcord, hok, hclaim]
  exact congrArg _ ((bgTest_begins hruns hfree).trans
    (unitTest_begins _ rfl rfl (recDoms_on (g := g) (by omega) (by omega) h7 h3)))

theorem aesTest_claimed (ht : s.boot.tstMode = false) {g : BitVec 5} {p : Bool} (hclaim : pipeClaimed s g.toNat p = true)
    (hruns : bgRuns s (recov (64 + g.toNat) (b2n p) none) = none) : exec (.periodicAesTest g p pass) s = .next s := by
  rw [periodicAesTest_eq ht, hclaim, Bool.not_true, Bool.and_false, bgTest_waits hruns]

end

/-! ## Scrubbing (R595 to R597) -/

/-- The sweep of an array after the word at `idx`, and the count of corrected words. -/
def scrubMoved (arr : ScrubArray) (idx : Nat) (o : ScrubOutcome) (s : State) : State :=
  let last := o.lastWord || decide ((scrubAt arr idx).2 + 1 = scrubLen arr)
  s.modDoc (fun d => { d with
    scrubPos := Tbl.put 0 d.scrubPos (64 * (scrubKey arr).1 + (scrubAt arr idx).1) (if last then 0 else (scrubAt arr idx).2 + 1)
    sweeps := if last then d.sweeps + 1 else d.sweeps
    corr := if o.corrected && !o.bad then satAdd d.corr 1 else d.corr })

section
variable {s : State}

theorem scrubAccess_eq (ht : s.boot.tstMode = false) (hup : docUp s = true) {arr : ScrubArray} {idx : Nat} {o : ScrubOutcome}
    (hon : bit (s.reg .docCfg) 31 = true) (hcfg : fld (s.reg .scrubCfg) (scrubKey arr).2 4 ≠ 0)
    (hpos : Tbl.get 0 s.doc.scrubPos (64 * (scrubKey arr).1 + (scrubAt arr idx).1) = (scrubAt arr idx).2)
    (hidx : idx < scrubWords arr) (hdom : s.domOn (scrubDom arr idx) = true) :
    exec (.scrubAccess arr idx o) s = .next (if o.bad then scrubUe arr idx (scrubMoved arr idx o s)
      else if o.corrected then scrubCe arr idx (scrubMoved arr idx o s) else scrubMoved arr idx o s) := by
  have hexec : exec (.scrubAccess arr idx o) s = .next _ := act_next ht _
  have hcan : (docUp s && bit (s.reg .docCfg) 31 && fld (s.reg .scrubCfg) (scrubKey arr).2 4 != 0 &&
      Tbl.get 0 s.doc.scrubPos (64 * (scrubKey arr).1 + (scrubAt arr idx).1) == (scrubAt arr idx).2 &&
      decide (idx < scrubWords arr) && s.domOn (scrubDom arr idx)) = true := by
    simp [hup, hon, hcfg, hpos, hidx, hdom]
  exact hexec.trans (congrArg _ (if_pos hcan))

theorem scrubMoved_moves (arr : ScrubArray) (idx : Nat) (o : ScrubOutcome) (s : State) :
    let t := scrubMoved arr idx o s
    let at_ := (scrubAt arr idx).2
    let key := 64 * (scrubKey arr).1 + (scrubAt arr idx).1
    let last := o.lastWord = true ∨ at_ + 1 = scrubLen arr
    Tbl.get 0 t.doc.scrubPos key = (if last then 0 else at_ + 1) ∧
      (∀ j, j ≠ key → Tbl.get 0 t.doc.scrubPos j = Tbl.get 0 s.doc.scrubPos j) ∧
      t.doc.sweeps = (if last then s.doc.sweeps + 1 else s.doc.sweeps) ∧
      t.doc.corr = (if o.corrected = true ∧ o.bad = false then satAdd s.doc.corr 1 else s.doc.corr) := by
  have hlast : (o.lastWord || decide ((scrubAt arr idx).2 + 1 = scrubLen arr)) = true ↔
      (o.lastWord = true ∨ (scrubAt arr idx).2 + 1 = scrubLen arr) := by
    rw [Bool.or_eq_true, decide_eq_true_iff]
  have hcorr : (o.corrected && !o.bad) = true ↔ (o.corrected = true ∧ o.bad = false) := by
    rw [Bool.and_eq_true, Bool.not_eq_true']
  refine ⟨(Tbl.get_put_same ..).trans (if_congr hlast rfl rfl), fun j hj => Tbl.get_put_other _ _ _ _ _ hj, ?_, ?_⟩
  · exact if_congr hlast rfl rfl
  · exact if_congr hcorr rfl rfl

/-! ## Calibrations and samples (R598, R654) -/

theorem calOn_of (hup : docUp s = true) (hbit : bit (s.reg .docCfg) 29 = true) : calOn s = true := by rw [calOn, hup, hbit]; rfl

/-- A sensor's sample, kept. -/
def sensorKept (d : Nat) (temp volt : BitVec 12) (s : State) : State :=
  { s with mst := { s.mst with sns := Tbl.put {} s.mst.sns d { temp := temp, volt := volt, valid := true } } }

/-- The first sample that is over the limit, before its record. -/
def sensorOver (d : Nat) (temp volt : BitVec 12) (s : State) : State :=
  { sensorKept d temp volt s with mst := { (sensorKept d temp volt s).mst with tempOver := true, tempDom := BitVec.ofNat 6 d } }

theorem sensorSample_eq (ht : s.boot.tstMode = false) (hcal : calOn s = true) {dm : DomId} {temp volt : BitVec 12}
    (hd : 2 ≤ dm.val) (hon : s.domOn dm.val = true) : exec (.sensorSample dm temp volt) s = .next (
      if (BitVec.ofNat 12 (fld (s.reg .tempLim) 0 12)).toInt ≤ temp.toInt ∧ (!s.mst.tempOver) = true then
        lgRecord 0x60 0 false (packW [(0, dm.val), (16, temp.toNat)]) 0 (sensorOver dm.val temp volt s)
      else sensorKept dm.val temp volt s) := by
  have hexec : exec (.sensorSample dm temp volt) s = .next _ := act_next ht _
  dsimp only at hexec
  rw [hcal, hon, decide_eq_true hd, Bool.and_self, Bool.and_self, if_pos rfl] at hexec
  exact hexec

theorem sensorSample_keeps (ht : s.boot.tstMode = false) (hcal : calOn s = true) {dm : DomId} {temp volt : BitVec 12}
    (hd : 2 ≤ dm.val) (hon : s.domOn dm.val = true) : ∃ t, exec (.sensorSample dm temp volt) s = .next t ∧
      Tbl.get {} t.mst.sns dm.val = { temp := temp, volt := volt, valid := true } ∧
      (∀ j, j ≠ dm.val → Tbl.get {} t.mst.sns j = Tbl.get {} s.mst.sns j) ∧
      (t.mst.tempOver = true ↔ (s.mst.tempOver = true ∨ (BitVec.ofNat 12 (fld (s.reg .tempLim) 0 12)).toInt ≤ temp.toInt)) ∧
      (s.mst.tempOver = true → t.mst.tempDom = s.mst.tempDom ∧ t.ledger = s.ledger) := by
  have hexec := sensorSample_eq (temp := temp) (volt := volt) ht hcal hd hon
  have hput := Tbl.get_put_same {} s.mst.sns dm.val { temp := temp, volt := volt, valid := true }
  have hother (j : Nat) (hj : j ≠ dm.val) := Tbl.get_put_other {} s.mst.sns dm.val j { temp := temp, volt := volt, valid := true } hj
  refine ⟨_, hexec, ?_⟩
  split
  · next h =>
    have hmst : ∀ t : State, (lgRecord 0x60 0 false (packW [(0, dm.val), (16, temp.toNat)]) 0 t).mst = t.mst := fun t =>
      lgRecord_keeps State.mst (fun _ _ _ => rfl) ..
    have hover : s.mst.tempOver = false := Bool.not_eq_true' _ ▸ h.2
    rw [hmst]
    exact ⟨hput, hother, iff_of_true rfl (.inr h.1), fun hyes => absurd (hover.symm.trans hyes) Bool.false_ne_true⟩
  · next h =>
    refine ⟨hput, hother, ⟨.inl, fun hor => hor.elim id fun hle => ?_⟩, fun _ => ⟨rfl, rfl⟩⟩
    by_contra hno
    exact h ⟨hle, Bool.not_eq_true' _ ▸ (Bool.not_eq_true _ ▸ hno)⟩

end

/-- Settles O43: the tests that begin and end, the scrub's sweep, and what a calibration or a sample notes. -/
theorem checksInService : Obligations.ChecksInService := by
  intro s ht hup
  refine ⟨fun hper n pass hfree => ?begins, fun g p pass hclaim hruns => aesTest_claimed ht hclaim hruns, fun n r hstep => ?ends,
    fun arr idx o hon => ?scrub, fun hbit => ?samples⟩
  case begins =>
    refine ⟨fun e => ?_, fun k => ?_, fun g p => ?_⟩
    · intro r period hruns hpop hperiod hst hent hrot hdue
      have hg := e.g.isLt
      have hsrc : r.src.val = e.g.toNat := src_recov _ _ _ (by omega)
      obtain ⟨hcord, hat, hother, hengs, hbegun⟩ :=
        slotTest_begins (s := s) (n := n) (e.g.toNat * 17 + e.slot.val) (r := r) rfl rfl
      exact ⟨_, spareTest_begins ht hper hfree hruns hpop hperiod hst hent hrot hdue, hcord, hat, hother, hengs,
        fun h7 h3 => hbegun (recDoms_on (g := e.g) (by omega) (by omega) h7 h3)⟩
    · intro r hruns h1 hch harm hres hcord hdue
      exact comparatorTest_begins ht hper hfree hruns h1 hch harm hres hcord hdue
    · intro r key hruns h7 h3 hpop hent hcord hok hclaim hdue
      exact aesTest_begins ht hper hfree hruns h7 h3 hpop hent hcord hok hclaim hdue
  case ends =>
    intro u
    refine ⟨fun e hruns he hsrc hrot => ?_, fun k hruns he hsrc => ?_, fun g p hruns he hsrc => ?_⟩
    · have hexec (pass : Bool) := (periodicSpareTest_eq (pass := pass) ht hrot).trans (congrArg _ (bgTest_runs hup hruns hstep))
      have hend := bgEnd_slot (n := n) he (hrot ▸ (Option.some_ne_none e.slot).symm)
      refine ⟨fun hl => ?_, fun hl => ?_, ?_⟩
      · rw [hexec, if_pos (.inr hl), hend, if_pos rfl]
      · rw [hexec, if_neg (by simpa using hl)]
      · rw [hexec, if_pos (.inl rfl), hend, if_neg Bool.false_ne_true, hsrc]
    · have hexec (pass : Bool) := (periodicComparatorTest_eq (pass := pass) ht k).trans (congrArg _ (bgTest_runs hup hruns hstep))
      refine ⟨fun hl => ?_, ?_⟩
      · rw [hexec, if_pos (.inr hl), bgEnd_unit he, if_pos rfl]
      · rw [hexec, if_pos (.inl rfl), bgEnd_unit he, if_neg Bool.false_ne_true, if_neg (by omega)]
    · have hexec (pass : Bool) := (periodicAesTest_eq (pass := pass) ht g p).trans (congrArg _ (bgTest_runs hup hruns hstep))
      refine ⟨fun hl => ?_, ?_⟩
      · rw [hexec, if_pos (.inr hl), bgEnd_unit he, if_pos rfl]
      · rw [hexec, if_pos (.inl rfl), bgEnd_unit he, if_neg Bool.false_ne_true, if_pos hsrc]
  case scrub =>
    intro at_ key hcfg hpos hidx hdom last
    obtain ⟨hself, hother, hsweeps, hcorr⟩ := scrubMoved_moves arr idx o s
    exact ⟨scrubMoved arr idx o s, hself, hother, hsweeps, hcorr, rfl, rfl, rfl, scrubAccess_eq ht hup hon hcfg hpos hidx hdom⟩
  case samples =>
    have hcal := calOn_of hup hbit
    refine ⟨fun h1 => ⟨?_, ?_⟩, fun l hl => ?_, fun dm temp volt hd hon => sensorSample_keeps ht hcal hd hon, fun g freq hon => ?_⟩
    · have hexec : exec .interpolatorCalibration s = .next _ := act_next ht _
      exact hexec.trans (congrArg _ (if_pos (by rw [hcal, h1]; rfl)))
    · have hexec : exec .atclkCalibration s = .next _ := act_next ht _
      exact hexec.trans (congrArg _ (if_pos (by rw [hcal, h1]; rfl)))
    · have hexec : exec (.linkCalibration l) s = .next _ := act_next ht _
      exact hexec.trans (congrArg _ (if_pos (by rw [hcal, hl]; rfl)))
    · have hexec : exec (.ageingSample g freq) s = .next _ := act_next ht _
      exact ⟨_, hexec.trans (congrArg _ (if_pos (by rw [hcal, hon]; rfl))), Tbl.get_put_same ..,
        fun j hj => Tbl.get_put_other _ _ _ _ _ hj⟩

end Sys2Proof.Machine
end

section
/-! The Ledger's writer, its queue and windows, and its registers (R644 to R651). -/

namespace Sys2Proof.Machine

/-! ## The queue (R648) -/

/-- Record `x` enters queue `q`: behind the others, but before those of its own cycle with greater codes. -/
def Queued (q q' : List LgRec) (x : LgRec) : Prop :=
  ∃ u v : List LgRec, q = u ++ v ∧ q' = u ++ x :: v ∧ (∀ y ∈ v, y.time = x.time ∧ x.code.toNat < y.code.toNat) ∧
    (∀ y, u.getLast? = some y → y.time = x.time → y.code.toNat ≤ x.code.toNat)

/-- Newest first, the record goes behind those of its own cycle with greater codes. -/
theorem lgInsert_splits (x : LgRec) (q : List LgRec) : ∃ u v : List LgRec, q = u ++ v ∧ lgInsert x q = u ++ x :: v ∧
    (∀ y ∈ u, y.time = x.time ∧ x.code.toNat < y.code.toNat) ∧
    (∀ y, v.head? = some y → y.time = x.time → y.code.toNat ≤ x.code.toNat) := by
  induction q with
  | nil => exact ⟨[], [], rfl, rfl, by simp, by simp⟩
  | cons z q ih =>
    unfold lgInsert
    split
    · next h =>
      obtain ⟨u, v, hq, hins, hu, hv⟩ := ih
      refine ⟨z :: u, v, by rw [hq]; rfl, by rw [hins]; rfl, fun y hy => ?_, hv⟩
      rcases List.mem_cons.mp hy with rfl | hy
      · exact h
      · exact hu y hy
    · next h =>
      refine ⟨[], z :: q, rfl, rfl, by simp, fun y hy htime => ?_⟩
      obtain rfl : z = y := Option.some.inj hy
      exact Nat.le_of_not_lt fun hlt => h ⟨htime, hlt⟩

/-- Where a record stands once it has entered. -/
def lgInto (q : List LgRec) (x : LgRec) : List LgRec := (lgInsert x q.reverse).reverse

theorem queued_lgInto (q : List LgRec) (x : LgRec) : Queued q (lgInto q x) x := by
  obtain ⟨u, v, hq, hins, hu, hv⟩ := lgInsert_splits x q.reverse
  refine ⟨v.reverse, u.reverse, ?_, ?_, fun y hy => hu y (List.mem_reverse.mp hy), fun y hy => hv y ?_⟩
  · rw [← List.reverse_append, ← hq, List.reverse_reverse]
  · rw [lgInto, hins]
    simp
  · rwa [List.getLast?_reverse] at hy

theorem length_lgInto (q : List LgRec) (x : LgRec) : (lgInto q x).length = q.length + 1 := by
  obtain ⟨u, v, hq, hq', -⟩ := queued_lgInto q x
  rw [hq', hq]
  simp [Nat.add_assoc]

section
variable (code sev : Nat) (inj : Bool) (lo hi : Word) (s : State)

/-- The record of a happening now. -/
def lgRecNow : LgRec :=
  { code := BitVec.ofNat 16 code, flags := BitVec.ofNat 8 (sev + 8 * b2n inj + 16 * b2n (!s.domOn 1)), time := s.projTime,
    opTime := s.ledger.opTime, pwrCyc := s.ledger.pwrCyc, dataLo := lo, dataHi := hi }

theorem lgEnqueue_room (h : s.ledger.queue.length < 16) : lgEnqueue code sev inj lo hi s =
    { s with ledger := { s.ledger with queue := lgInto s.ledger.queue (lgRecNow code sev inj lo hi s) } } := if_pos h

theorem lgEnqueue_full (h : ¬ s.ledger.queue.length < 16) : lgEnqueue code sev inj lo hi s =
    { s with ledger := { s.ledger with
      queue := (lgInto s.ledger.queue (lgRecNow code sev inj lo hi s)).take 16, drop := satAdd s.ledger.drop 1,
      dropDue := s.ledger.dropDue + 1 } } := if_neg h

/-- What a queued record leaves of the Ledger as it is. -/
theorem lgEnqueue_ledger : (lgEnqueue code sev inj lo hi s).ledger.recs = s.ledger.recs ∧
    (lgEnqueue code sev inj lo hi s).ledger.head = s.ledger.head ∧ (lgEnqueue code sev inj lo hi s).ledger.wins = s.ledger.wins ∧
    (lgEnqueue code sev inj lo hi s).ledger.opTime = s.ledger.opTime ∧
    (lgEnqueue code sev inj lo hi s).ledger.pwrCyc = s.ledger.pwrCyc ∧
    (lgEnqueue code sev inj lo hi s).ledger.seededOpt = s.ledger.seededOpt ∧
    (lgEnqueue code sev inj lo hi s).ledger.seededPwr = s.ledger.seededPwr := by
  by_cases h : s.ledger.queue.length < 16
  · rw [lgEnqueue_room _ _ _ _ _ _ h]
    exact ⟨rfl, rfl, rfl, rfl, rfl, rfl, rfl⟩
  · rw [lgEnqueue_full _ _ _ _ _ _ h]
    exact ⟨rfl, rfl, rfl, rfl, rfl, rfl, rfl⟩

theorem lgEnqueue_enters :
    (s.ledger.queue.length < 16 → (∃ x : LgRec, Queued s.ledger.queue (lgEnqueue code sev inj lo hi s).ledger.queue x ∧
      x.code = BitVec.ofNat 16 code ∧ x.dataLo = lo ∧ x.dataHi = hi ∧ x.time = s.projTime ∧ x.opTime = s.ledger.opTime ∧
      x.pwrCyc = s.ledger.pwrCyc) ∧ (lgEnqueue code sev inj lo hi s).ledger.drop = s.ledger.drop ∧
      (lgEnqueue code sev inj lo hi s).ledger.dropDue = s.ledger.dropDue) ∧
    (s.ledger.queue.length = 16 → (lgEnqueue code sev inj lo hi s).ledger.queue.length = 16 ∧
      (lgEnqueue code sev inj lo hi s).ledger.drop = satAdd s.ledger.drop 1 ∧
      (lgEnqueue code sev inj lo hi s).ledger.dropDue = s.ledger.dropDue + 1) := by
  refine ⟨fun h => ?_, fun h => ?_⟩
  · rw [lgEnqueue_room _ _ _ _ _ _ h]
    exact ⟨⟨lgRecNow code sev inj lo hi s, queued_lgInto .., rfl, rfl, rfl, rfl, rfl, rfl⟩, rfl, rfl⟩
  · rw [lgEnqueue_full _ _ _ _ _ _ (by omega)]
    refine ⟨?_, rfl, rfl⟩
    rw [List.length_take, length_lgInto, h]
    rfl

end

/-! ## The writer (R644, R648) -/

section
variable {s : State}

/-- The record at the head of the queue, written. -/
def lgWritten (r : LgRec) (q : List LgRec) (s : State) : State := { s with ledger := { lgWrite r s.ledger with queue := q } }

theorem ledgerRecordWrite_none (ht : s.boot.tstMode = false) (hq : s.ledger.queue = []) : exec .ledgerRecordWrite s = .next s := by
  have hexec : exec .ledgerRecordWrite s = .next _ := act_next ht _
  simp only [hq] at hexec
  exact hexec

theorem ledgerRecordWrite_head (ht : s.boot.tstMode = false) (hao : s.boot.rstAo = false) {r : LgRec} {q : List LgRec}
    (hq : s.ledger.queue = r :: q) : exec .ledgerRecordWrite s = .next (lgDropped (lgWritten r q s)) := by
  have hexec : exec .ledgerRecordWrite s = .next _ := act_next ht _
  simp only [hq, hao] at hexec
  exact hexec

theorem lgDropped_none (h : s.ledger.dropDue = 0) : lgDropped s = s := if_pos h

/-- The count of dropped records, handed on. -/
def dropsTaken (s : State) : State := { s with ledger := { s.ledger with dropDue := 0 } }

theorem lgDropped_some (h : s.ledger.dropDue ≠ 0) :
    lgDropped s = lgEnqueue 6 0 false (BitVec.ofNat 32 s.ledger.dropDue) 0 (dropsTaken s) := if_neg h

theorem lgDropped_keeps (s : State) : (lgDropped s).ledger.recs = s.ledger.recs ∧ (lgDropped s).ledger.head = s.ledger.head ∧
    (lgDropped s).chans = s.chans := by
  by_cases h : s.ledger.dropDue = 0
  · rw [lgDropped_none h]
    exact ⟨rfl, rfl, rfl⟩
  · rw [lgDropped_some h]
    obtain ⟨hrecs, hhead, -⟩ := lgEnqueue_ledger 6 0 false (BitVec.ofNat 32 s.ledger.dropDue) 0 (dropsTaken s)
    have hchans := congrArg State.chans (butLog_lgEnqueue 6 0 false (BitVec.ofNat 32 s.ledger.dropDue) 0 (dropsTaken s))
    exact ⟨hrecs, hhead, hchans⟩

theorem ledgerRecordWrite_writes (ht : s.boot.tstMode = false) (hao : s.boot.rstAo = false) {r : LgRec} {q : List LgRec}
    (hq : s.ledger.queue = r :: q) : ∃ t, exec .ledgerRecordWrite s = .next t ∧ t.ledger.head = lgNext s.ledger.head ∧
      Tbl.get {} t.ledger.recs (lgSlot (lgNext s.ledger.head)) = { r with seq := lgNext s.ledger.head } ∧
      (∀ k, k ≠ lgSlot (lgNext s.ledger.head) → Tbl.get {} t.ledger.recs k = Tbl.get {} s.ledger.recs k) ∧ t.chans = s.chans ∧
      (s.ledger.dropDue = 0 → t.ledger.queue = q) ∧
      (0 < s.ledger.dropDue → q.length < 16 → t.ledger.dropDue = 0 ∧ ∃ x : LgRec, Queued q t.ledger.queue x ∧ x.code = 6 ∧
        x.dataLo = BitVec.ofNat 32 s.ledger.dropDue) := by
  obtain ⟨hrecs, hhead, hchans⟩ := lgDropped_keeps (lgWritten r q s)
  refine ⟨_, ledgerRecordWrite_head ht hao hq, hhead, ?_, fun k hk => ?_, hchans, fun h0 => ?_, fun hpos hroom => ?_⟩
  · rw [hrecs]
    exact Tbl.get_put_same ..
  · rw [hrecs]
    exact Tbl.get_put_other _ _ _ _ _ hk
  · rw [lgDropped_none (s := lgWritten r q s) h0]
    rfl
  · rw [lgDropped_some (s := lgWritten r q s) (Nat.ne_of_gt hpos)]
    obtain ⟨⟨x, hx, hcode, hlo, -⟩, -, hdue⟩ := (lgEnqueue_enters 6 0 false (BitVec.ofNat 32 s.ledger.dropDue) 0
      (dropsTaken (lgWritten r q s))).1 hroom
    exact ⟨hdue, x, hx, hcode, hlo⟩

/-! ## Windows (R647) -/

/-- The window of key `k`, closed. -/
def winClosed (k : Nat) (s : State) : State := { s with ledger := { s.ledger with wins := Tbl.put none s.ledger.wins k none } }

theorem lgClose_none (k : Nat) (s : State) : lgClose k 0 s = winClosed k s := rfl

theorem lgClose_some (k : Nat) {m : Nat} (h : m ≠ 0) (s : State) : lgClose k m s =
    lgEnqueue 3 0 false (BitVec.ofNat 32 (lgSuppCode k (winClosed k s)).1) (BitVec.ofNat 32 m) (lgSuppCode k (winClosed k s)).2 :=
  if_neg h

theorem ledger_lgSuppCode (k : Nat) (s : State) : (lgSuppCode k s).2.ledger = s.ledger ∧ (k ≠ 0x8000 → (lgSuppCode k s).1 = k) := by
  unfold lgSuppCode
  split
  · next h => exact ⟨rfl, fun hn => absurd h hn⟩
  · exact ⟨rfl, fun _ => rfl⟩

theorem lgClose_closes (k m : Nat) (s : State) : Tbl.get none (lgClose k m s).ledger.wins k = none ∧
    (lgClose k m s).ledger.recs = s.ledger.recs ∧ (m = 0 → (lgClose k m s).ledger.queue = s.ledger.queue) ∧
    (0 < m → s.ledger.queue.length < 16 → ∃ x : LgRec, Queued s.ledger.queue (lgClose k m s).ledger.queue x ∧ x.code = 3 ∧
      x.dataHi = BitVec.ofNat 32 m ∧ (k ≠ 0x8000 → x.dataLo = BitVec.ofNat 32 k)) := by
  have hclosed : Tbl.get none (winClosed k s).ledger.wins k = none :=
    Tbl.get_put_same none s.ledger.wins k none
  by_cases h : m = 0
  · subst h
    rw [lgClose_none]
    exact ⟨hclosed, rfl, fun _ => rfl, fun h => absurd h (Nat.lt_irrefl 0)⟩
  · obtain ⟨hledger, hcode⟩ := ledger_lgSuppCode k (winClosed k s)
    obtain ⟨hrecs, -, hwins, -⟩ := lgEnqueue_ledger 3 0 false (BitVec.ofNat 32 (lgSuppCode k (winClosed k s)).1) (BitVec.ofNat 32 m)
      (lgSuppCode k (winClosed k s)).2
    rw [lgClose_some k h]
    refine ⟨?_, ?_, fun h0 => absurd h0 h, fun _ hroom => ?_⟩
    · rw [hwins, hledger, hclosed]
    · rw [hrecs, hledger]
      rfl
    · obtain ⟨⟨x, hx, hxcode, hlo, hhi, -⟩, -⟩ := (lgEnqueue_enters 3 0 false (BitVec.ofNat 32 (lgSuppCode k (winClosed k s)).1)
        (BitVec.ofNat 32 m) (lgSuppCode k (winClosed k s)).2).1 (by rw [hledger]; exact hroom)
      rw [hledger] at hx
      exact ⟨x, hx, hxcode, hhi, fun hk => by rw [hlo, hcode hk]⟩

theorem ledgerWindowClose_eq (ht : s.boot.tstMode = false) (hao : s.boot.rstAo = false) {code : BitVec 16} {w : LgWin}
    (hw : Tbl.get none s.ledger.wins (lgKey code.toNat) = some w) : exec (.ledgerWindowClose code) s = .next (
      if fld (s.reg .lgRate) 0 16 * 12800000 ≤ s.ledger.up - w.t0 then lgClose (lgKey code.toNat) w.m s else s) := by
  have hexec : exec (.ledgerWindowClose code) s = .next _ := act_next ht _
  have hticks : fld (s.reg .lgRate) 0 16 * 1000 * ticksUs * 8 = fld (s.reg .lgRate) 0 16 * 12800000 := by
    unfold ticksUs
    omega
  simp only [hw, hao, Bool.not_false, Bool.and_true, lgWinOver, hticks, decide_eq_true_eq] at hexec
  exact hexec

theorem opTimeTick_eq (ht : s.boot.tstMode = false) (hao : s.boot.rstAo = false) :
    exec .opTimeTick s = .next { s with ledger := { s.ledger with opTime := s.ledger.opTime + 1 } } := by
  have hexec : exec .opTimeTick s = .next _ := act_next ht _
  rwa [if_neg (hao ▸ Bool.false_ne_true)] at hexec

end

/-! ## Registers (R645, R649 to R651) -/

section
variable {a : TpAttr} {d : Word} {s : State}

theorem regWrite_lgSwCode (sec : Bool) (owner : Byte) (v : Word) (s : State) : regWrite sec owner .lgSwCode v s = lgSwWrite sec v s := rfl

theorem regWrite_lgCtrl (sec : Bool) (owner : Byte) (v : Word) (s : State) : regWrite sec owner .lgCtrl v s = some (lgCtrlTo v s) := rfl

theorem regWrite_lgSeedOpt (sec : Bool) (owner : Byte) (v : Word) (s : State) : regWrite sec owner .lgSeedOpt v s = lgSeedOpt v s := rfl

theorem regWrite_lgSeedPwr (sec : Bool) (owner : Byte) (v : Word) (s : State) : regWrite sec owner .lgSeedPwr v s = lgSeedPwr v s := rfl

theorem regRead_lgData (sec : Bool) (owner : Byte) (s : State) :
    regRead sec owner (.lgData 0) s = some ((lgAt s.ledger (s.reg .lgSel)).seq, lgSnap s) := rfl

theorem lgSwWrite_refuses {sec : Bool} (h : fld d 0 16 < 0x8000 ∨ (sec = false ∧ 0xC000 ≤ fld d 0 16)) : lgSwWrite sec d s = none := by
  refine if_pos ?_
  rw [Bool.or_eq_true, Bool.and_eq_true, decide_eq_true_iff, decide_eq_true_iff, Bool.not_eq_true']
  exact h

theorem lgSwWrite_records {sec : Bool} (hlo : 0x8000 ≤ fld d 0 16) (hhi : sec = true ∨ fld d 0 16 < 0xC000) :
    lgSwWrite sec d s = some (lgRecord (fld d 0 16) 0 false (s.reg .lgSwLo) (s.reg .lgSwHi) s) := by
  refine if_neg ?_
  rw [Bool.or_eq_true, Bool.and_eq_true, decide_eq_true_iff, decide_eq_true_iff, Bool.not_eq_true']
  rintro (h | ⟨hsec, h⟩)
  · omega
  · rcases hhi with hs | hlt
    · exact Bool.false_ne_true (hsec.symm.trans hs)
    · omega

/-- The Ledger's own codes 1 to 6 pass no rate limit. -/
theorem lgRecord_own {code : Nat} (h1 : 1 ≤ code) (h6 : code ≤ 6) (sev : Nat) (inj : Bool) (lo hi : Word) (s : State) :
    lgRecord code sev inj lo hi s = lgEnqueue code sev inj lo hi s := by
  refine if_pos ?_
  rw [lgExempt, decide_eq_true h1, decide_eq_true h6]
  rfl

/-- Every slot empty. -/
def recsCleared (s : State) : State := { s with ledger := { s.ledger with recs := [] } }

theorem lgCtrlTo_clear (d : Word) (s : State) :
    lgCtrlTo (setFld d 0 1 1) s = lgEnqueue 4 0 false s.ledger.head 0 (recsCleared s) := by
  have hclear : bit (setFld d 0 1 1) 0 = true := by simp [bit_setFld]
  rw [lgCtrlTo, if_pos hclear]
  exact lgRecord_own (by decide) (by decide) ..

theorem lgClear_empties (h : s.takes a true .lgCtrl) :
    ∃ t, exec (.lgClear a d) s = wrote a t ∧ t.ledger.recs = [] ∧ t.ledger.head = s.ledger.head := by
  obtain ⟨hrecs, hhead, -⟩ := lgEnqueue_ledger 4 0 false s.ledger.head 0 (recsCleared s)
  exact ⟨_, takes_wroteAt h 0x1010 _ (by decide) (by decide) rfl ((regWrite_lgCtrl ..).trans (congrArg some (lgCtrlTo_clear d s))),
    hrecs, hhead⟩

/-- OP_TIME with its seed. -/
def optSeeded (v : Word) (s : State) : State :=
  { s with ledger := { s.ledger with opTime := s.ledger.opTime + v, seededOpt := true } }

/-- PWR_CYC with its seed. -/
def pwrSeeded (v : Word) (s : State) : State :=
  { s with ledger := { s.ledger with pwrCyc := s.ledger.pwrCyc + v, seededPwr := true } }

theorem lgSeedOpt_first (h : s.ledger.seededOpt = false) : lgSeedOpt d s = some (lgEnqueue 5 0 false d 0 (optSeeded d s)) := by
  rw [lgSeedOpt, if_neg (h ▸ Bool.false_ne_true)]
  exact congrArg some (lgRecord_own (by decide) (by decide) ..)

theorem lgSeedPwr_first (h : s.ledger.seededPwr = false) : lgSeedPwr d s = some (lgEnqueue 5 0 false d 1 (pwrSeeded d s)) := by
  rw [lgSeedPwr, if_neg (h ▸ Bool.false_ne_true)]
  exact congrArg some (lgRecord_own (by decide) (by decide) ..)

theorem lgSeedOpt_seeds (h : s.takes a true .lgSeedOpt) (hn : s.ledger.seededOpt = false) :
    ∃ t, exec (.lgSeedOptWrite a d) s = wrote a t ∧ t.ledger.opTime = s.ledger.opTime + d ∧ t.ledger.pwrCyc = s.ledger.pwrCyc ∧
      t.ledger.seededOpt = true ∧ t.ledger.recs = s.ledger.recs := by
  obtain ⟨hrecs, -, -, hopt, hpwr, hseed, -⟩ := lgEnqueue_ledger 5 0 false d 0 (optSeeded d s)
  exact ⟨_, takes_wroteAt h 0x101C _ (by decide) (by decide) rfl ((regWrite_lgSeedOpt ..).trans (lgSeedOpt_first hn)), hopt, hpwr,
    hseed, hrecs⟩

theorem lgSeedPwr_seeds (h : s.takes a true .lgSeedPwr) (hn : s.ledger.seededPwr = false) :
    ∃ t, exec (.lgSeedPwrWrite a d) s = wrote a t ∧ t.ledger.pwrCyc = s.ledger.pwrCyc + d ∧ t.ledger.opTime = s.ledger.opTime ∧
      t.ledger.seededPwr = true ∧ t.ledger.recs = s.ledger.recs := by
  obtain ⟨hrecs, -, -, hopt, hpwr, -, hseed⟩ := lgEnqueue_ledger 5 0 false d 1 (pwrSeeded d s)
  exact ⟨_, takes_wroteAt h 0x1020 _ (by decide) (by decide) rfl ((regWrite_lgSeedPwr ..).trans (lgSeedPwr_first hn)), hpwr, hopt,
    hseed, hrecs⟩

theorem lgSeedOpt_again (h : s.takes a true .lgSeedOpt) (hy : s.ledger.seededOpt = true) :
    exec (.lgSeedOptWrite a d) s = denied a 0x101C slverr s :=
  takes_deniedAt h 0x101C _ (by decide) (by decide) rfl ((regWrite_lgSeedOpt ..).trans (if_pos hy))

theorem lgSeedPwr_again (h : s.takes a true .lgSeedPwr) (hy : s.ledger.seededPwr = true) :
    exec (.lgSeedPwrWrite a d) s = denied a 0x1020 slverr s :=
  takes_deniedAt h 0x1020 _ (by decide) (by decide) rfl ((regWrite_lgSeedPwr ..).trans (if_pos hy))

end

/-- Settles O44: where a record enters the queue (`queued_lgInto`), and what the writer, a window and each register make of it. -/
theorem ledgerRecords : Obligations.LedgerRecords := by
  intro s l q1 queued
  refine ⟨fun code sev inj lo hi => ?queue, fun ht hao => ?writer, fun a d h => ?software, fun a d => ?registers⟩
  case queue =>
    obtain ⟨hrecs, hhead, -⟩ := lgEnqueue_ledger code sev inj lo hi s
    obtain ⟨hroom, hfull⟩ := lgEnqueue_enters code sev inj lo hi s
    refine ⟨fun hlen => ?_, hfull, hrecs, hhead⟩
    obtain ⟨hx, hdrop, -⟩ := hroom hlen
    exact ⟨hx, hdrop⟩
  case writer =>
    refine ⟨ledgerRecordWrite_none ht, fun r q hq => ledgerRecordWrite_writes ht hao hq, opTimeTick_eq ht hao,
      fun code w hw => ⟨fun hover => ⟨_, ?_, lgClose_closes (lgKey code.toNat) w.m s⟩, fun hopen => ?_⟩⟩
    · rw [ledgerWindowClose_eq ht hao hw, if_pos hover]
    · rw [ledgerWindowClose_eq ht hao hw, if_neg (Nat.not_le.mpr hopen)]
  case software =>
    have hc : fld d 0 16 = d.toNat % 65536 := rfl
    rw [← hc]
    exact ⟨fun hbad => takes_deniedAt h 0x1024 _ (by decide) (by decide) rfl ((regWrite_lgSwCode ..).trans (lgSwWrite_refuses hbad)),
      fun hlo hhi => takes_wroteAt h 0x1024 _ (by decide) (by decide) rfl ((regWrite_lgSwCode ..).trans (lgSwWrite_records hlo hhi))⟩
  case registers =>
    exact ⟨lgClear_empties, fun h => ⟨lgSeedOpt_again h, lgSeedOpt_seeds h⟩, fun h => ⟨lgSeedPwr_again h, lgSeedPwr_seeds h⟩,
      fun h => takes_gaveAt h 0x1040 (by decide) (by decide) rfl (regRead_lgData ..)⟩

end Sys2Proof.Machine
end

section
/-! Leaving ON (R613, R624): a cut of CORE to OFF whose request lines stand twice in their table. -/

namespace Sys2Proof.Machine

/-- CORE at the end of an entry to OFF. The table of request lines holds line 0 twice: the first row, which a lookup finds, shows it
low with its holdoff running; the second shows it high. No run makes such a table, but the statement is about every state. -/
def lineTwice : State :=
  let s : State := { State.reset with boot := { rstN := false, ready := true } }
  let t := (s.modDom 2 (fun x => { x with st := .on, step := .iso, target := .off })).setApp (.rqCfg 0) 2
  { t with evc := { t.evc with rq := [(0, { holdoff := true }), (0, { req := true })] } }

/-- No line stands high. -/
theorem lineTwice_low (n : Nat) : (lineTwice.rq n).req = false := by
  by_cases h : n = 0
  · subst h
    rfl
  · simp [lineTwice, State.rq, Tbl.get, h]

/-- The step of domain `d` after a happening. -/
def stepAfter (i : Instr) (s : State) (d : Nat) : Option DomStep :=
  match exec i s with
  | .next t => some (t.dom d).step
  | _ => none

theorem stepAfter_next {i : Instr} {s t : State} (h : exec i s = .next t) (d : Nat) : stepAfter i s d = some (t.dom d).step := by
  rw [stepAfter, h]

/-- OFF loses the holdoff, and with it the first row; a lookup then finds the second, and line 0 raises CORE. -/
theorem lineTwice_raises : stepAfter (.cutComplete ⟨2, by decide⟩) lineTwice 2 ≠ some .none := by decide +kernel

/-- Nothing holds CORE, and no abort is due. -/
theorem lineTwice_cuts : domHeld lineTwice 2 = false ∧ abortDue lineTwice 2 = false := by decide +kernel

/-- Refutes O47: without a line that stands high, CORE is to be at rest after its cut; where the table of request lines holds line 0
twice, the cut to OFF uncovers the second row, and CORE is waking. -/
theorem not_leavingOn : ¬ Obligations.LeavingOn := by
  intro h
  obtain ⟨hheld, habort⟩ := lineTwice_cuts
  obtain ⟨-, -, -, hentry⟩ := h ⟨2, by decide⟩ lineTwice
  obtain ⟨-, -, -, -, -, hcut, -⟩ := hentry rfl
  obtain ⟨t, hexec, -, -, ⟨hrest, -⟩, -⟩ := hcut hheld (.inr rfl) habort (by decide)
  have hlow : ∀ n, ¬ (n < 128 ∧ (lineTwice.rq n).req = true ∧ (rqMode lineTwice n = 2 ∨ rqMode lineTwice n = 3)) :=
    fun n ⟨_, hreq, _⟩ => Bool.false_ne_true ((lineTwice_low n).symm.trans hreq)
  exact lineTwice_raises ((stepAfter_next hexec 2).trans (congrArg some (hrest (.inr hlow))))

end Sys2Proof.Machine
end

section
/-! Wakes, holds, the alarm, operating points and the PMI (R475, R479, R480, R608, R614, R621 to R630). -/

namespace Sys2Proof.Machine

/-! ## What stands while PCM drives supplies, clocks and wakes -/

/-- Of a domain: its state, its wakes, and its port hold. -/
def Dom.face (x : Dom) : DomSt × BitVec 12 × Bool := (x.st, x.wakes, x.hold)

/-- Of a supply: its acknowledgement and its level. -/
def Supply.face (p : Supply) : Bool × BitVec 3 := (p.vack, p.v)

/-- The faces of domains and supplies, and the clocks' acknowledgements. -/
def State.power (s : State) : (Nat → DomSt × BitVec 12 × Bool) × (Nat → Bool × BitVec 3) × (Nat → Bool) :=
  (fun d => (s.dom d).face, fun x => (s.sup x).face, fun c => (s.clk c).ack)

theorem of_power {s t : State} (h : t.power = s.power) : (∀ d, (t.dom d).face = (s.dom d).face) ∧
    (∀ x, (t.sup x).face = (s.sup x).face) ∧ ∀ c, (t.clk c).ack = (s.clk c).ack := by
  obtain ⟨hdom, h⟩ := Prod.mk.inj h
  obtain ⟨hsup, hclk⟩ := Prod.mk.inj h
  exact ⟨congrFun hdom, congrFun hsup, congrFun hclk⟩

@[simp] theorem sup_modSup (s : State) (x : Nat) (f : Supply → Supply) : (s.modSup x f).sup x = f (s.sup x) := Tbl.get_put_same ..

theorem sup_modSup_other (s : State) {x k : Nat} (f : Supply → Supply) (h : k ≠ x) : (s.modSup x f).sup k = s.sup k :=
  Tbl.get_put_other _ _ _ _ _ h

@[simp] theorem clk_modClk (s : State) (c : Nat) (f : ClkReq → ClkReq) : (s.modClk c f).clk c = f (s.clk c) := Tbl.get_put_same ..

theorem clk_modClk_other (s : State) {c k : Nat} (f : ClkReq → ClkReq) (h : k ≠ c) : (s.modClk c f).clk k = s.clk k :=
  Tbl.get_put_other _ _ _ _ _ h

theorem power_modDom (s : State) (d : Nat) (f : Dom → Dom) (h : (f (s.dom d)).face = (s.dom d).face) :
    (s.modDom d f).power = s.power :=
  congrArg (fun x => (x, s.power.2)) (doms_modDom Dom.face s d f h)

theorem power_modSup (s : State) (x : Nat) (f : Supply → Supply) (h : (f (s.sup x)).face = (s.sup x).face) :
    (s.modSup x f).power = s.power := by
  have hsup : (fun k => ((s.modSup x f).sup k).face) = fun k => (s.sup k).face := by
    funext k
    by_cases hk : k = x
    · rw [hk, sup_modSup, h]
    · rw [sup_modSup_other s f hk]
  exact congrArg (fun y => (s.power.1, y, s.power.2.2)) hsup

theorem power_modClk (s : State) (c : Nat) (f : ClkReq → ClkReq) (h : (f (s.clk c)).ack = (s.clk c).ack) :
    (s.modClk c f).power = s.power := by
  have hclk : (fun k => ((s.modClk c f).clk k).ack) = fun k => (s.clk k).ack := by
    funext k
    by_cases hk : k = c
    · rw [hk, clk_modClk, h]
    · rw [clk_modClk_other s f hk]
  exact congrArg (fun y => (s.power.1, s.power.2.1, y)) hclk

theorem power_of_butReactions {s t : State} (h : t.butReactions = s.butReactions) : t.power = s.power := by
  have hpower := congrArg State.power h
  exact hpower

theorem power_tmAdd (k n : Nat) (s : State) : (tmAdd k n s).power = s.power := by
  unfold tmAdd
  split <;> rfl

theorem power_supRequest (x : Nat) (v : BitVec 3) (s : State) : (supRequest x v s).power = s.power := by
  have hreq := power_modSup s x (fun q => { q with vreq := v, vtog := !q.vtog, overdue := false }) rfl
  unfold supRequest
  dsimp only
  split
  · split
    · exact hreq
    · exact hreq
  · rfl

theorem power_supPolicy (x : Nat) (s : State) : (supPolicy x s).power = s.power := by
  unfold supPolicy
  split
  · split
    · rw [power_modSup _ _ _ rfl, power_supRequest]
    · rfl
  · exact power_supRequest ..

theorem power_clkPolicy (c : Nat) (s : State) : (clkPolicy c s).power = s.power := by
  unfold clkPolicy
  dsimp only
  split
  · exact power_modClk _ _ _ rfl
  · rfl

theorem power_pmiPolicy (s : State) : (pmiPolicy s).power = s.power :=
  (foldS_keeps State.power power_clkPolicy _ _).trans (foldS_keeps State.power power_supPolicy _ _)

theorem power_wakeAdvance (s : State) : (wakeAdvance s).power = s.power := by
  refine foldS_keeps State.power (fun d t => ?_) _ _
  split
  · exact power_modDom t d _ rfl
  · rfl

theorem power_startWake (d : Nat) (why : Option (Nat × Nat)) (s : State) : (startWake d why s).power = s.power := by
  have hrecord : (wakeRecord d why s).power = s.power := by cases why <;> rfl
  unfold startWake
  dsimp only
  split
  · refine power_modDom s d _ ?_
    split <;> rfl
  · split
    · rfl
    · rw [power_wakeAdvance, power_pmiPolicy, power_modDom _ _ _ rfl, hrecord]

theorem power_beginWake (d src detail : Nat) (s : State) : (beginWake d src detail s).power = s.power := by
  unfold beginWake
  split
  · rfl
  · split
    · rfl
    · exact (power_startWake ..).trans (foldS_keeps State.power (fun k t => power_startWake k none t) _ _)

theorem power_issue (t : Txn) (s : State) : (issue t s).power = s.power := by
  unfold issue
  dsimp only
  split
  · exact power_beginWake ..
  · rfl

theorem power_readNext (key fuel : Nat) (s : State) : (readNext key fuel s).power = s.power := by
  induction fuel generalizing s with
  | zero => rfl
  | succ fuel ih =>
    rw [readNext]
    split
    · rfl
    · dsimp only
      split
      · rfl
      · split
        · split
          · exact power_beginWake ..
          · exact power_issue ..
        · split
          · rfl
          · split
            · exact ih _
            · split
              · rfl
              · split
                · exact power_beginWake ..
                · exact power_issue ..

theorem power_startReloads (g : Nat) (s : State) : (startReloads g s).power = s.power := by
  unfold startReloads
  dsimp only
  split
  · rfl
  · split
    · exact power_readNext ..
    · rfl

/-! ## Operating points (R630, R632) -/

/-- A gallery that closes closes by itself: no slice and no entry cache goes with it. -/
theorem requestLeave_gallery {d : Nat} (hd : 7 ≤ d) (tg : DomSt) (s : State) :
    (requestLeave d tg s).power = s.power ∧ (requestLeave d tg s).butPower = s.butPower := by
  unfold requestLeave
  dsimp only
  split
  · exact ⟨rfl, rfl⟩
  · split
    · unfold enterDom
      rw [if_neg (by omega)]
      exact ⟨power_modDom s d _ rfl, rfl⟩
    · exact ⟨rfl, rfl⟩

theorem closeOutside_keeps (x : Nat) (s : State) :
    (closeOutside x s).power = s.power ∧ (closeOutside x s).butPower = s.butPower := by
  have hstep (k : Nat) (t : State) (tg : DomSt) :
      let d := 7 + 8 * (x - 1) + k
      let u := t.modDom d (fun y => { y with leave := some tg })
      u.power = t.power ∧ (requestLeave d tg u).power = t.power ∧ (requestLeave d tg u).butPower = t.butPower := by
    intro d u
    have hu : u.power = t.power := power_modDom t d _ rfl
    obtain ⟨hp, hb⟩ := requestLeave_gallery (d := d) (by omega) tg u
    exact ⟨hu, hp.trans hu, hb⟩
  unfold closeOutside
  constructor
  · refine foldS_keeps State.power (fun k t => ?_) _ _
    dsimp only
    split
    · exact (hstep k t _).2.1
    · exact (hstep k t _).1
  · refine foldS_keeps State.butPower (fun k t => ?_) _ _
    dsimp only
    split
    · exact (hstep k t _).2.2
    · rfl

theorem dropLeaves_keeps (x : Nat) (s : State) : (dropLeaves x s).power = s.power ∧ (dropLeaves x s).butPower = s.butPower := by
  unfold dropLeaves
  split
  · exact ⟨rfl, rfl⟩
  · exact ⟨foldS_keeps (f := fun k (t : State) => t.modDom (7 + 8 * (x - 1) + k) (fun y => { y with leave := none })) State.power
      (fun k t => power_modDom t _ _ rfl) _ _,
      foldS_keeps (f := fun k (t : State) => t.modDom (7 + 8 * (x - 1) + k) (fun y => { y with leave := none })) State.butPower
        (fun _ _ => rfl) _ _⟩

theorem freqChange_keeps (x : Nat) (s : State) : (freqChange x s).power = s.power ∧ (freqChange x s).butPower = s.butPower := by
  unfold freqChange
  split <;> exact ⟨power_modSup s x _ rfl, rfl⟩

theorem freqChange_eq (x : Nat) (s : State) : freqChange x s = s.modSup x (fun q =>
    if supFeeds s x then { q with clkStop := true, busy := true, fTo := if (s.sup x).v < oppTarget s x then (s.sup x).v else oppTarget s x }
    else { q with f := if (s.sup x).v < oppTarget s x then (s.sup x).v else oppTarget s x, busy := false }) := by
  unfold freqChange
  split <;> rfl

/-- A step toward an operating point drives requests and stops clocks, and closes galleries (R630, R632). -/
theorem oppStep_keeps (x : Nat) (s : State) : (oppStep x s).power = s.power ∧ (oppStep x s).butPower = s.butPower := by
  obtain ⟨hp, hb⟩ := dropLeaves_keeps x s
  unfold oppStep
  dsimp only
  generalize dropLeaves x s = t at hp hb ⊢
  rw [← hp, ← hb]
  have hsup (f : Supply → Supply) (h : (f (t.sup x)).face = (t.sup x).face) : (t.modSup x f).power = t.power := power_modSup t x f h
  split
  · exact ⟨rfl, rfl⟩
  · split
    · split
      · obtain ⟨h, h'⟩ := closeOutside_keeps x (t.modSup x (fun q => { q with busy := true, maskWait := true }))
        exact ⟨h.trans (hsup _ rfl), h'⟩
      · exact ⟨(power_supRequest ..).trans (hsup _ rfl), butPower_supRequest ..⟩
    · split
      · split
        · exact freqChange_keeps x t
        · exact ⟨(power_supRequest ..).trans (hsup _ rfl), butPower_supRequest ..⟩
      · split
        · obtain ⟨h, h'⟩ := freqChange_keeps x (t.modSup x (fun q => { q with maskWait := false }))
          exact ⟨h.trans (hsup _ rfl), h'⟩
        · exact ⟨hsup _ rfl, rfl⟩

/-! ## Request lines that CORE takes when it goes on (R323, R624) -/

theorem butReactions_rqEvents (ns : List Nat) (s : State) : (rqEvents ns s).butReactions = s.butReactions := by
  have hacks (t : State) : (foldS ns (fun n t => if rqAccepts t n then rqAckNow n t else t) t).butReactions = t.butReactions := by
    refine foldS_keeps State.butReactions (fun n u => ?_) ns t
    split <;> rfl
  unfold rqEvents
  dsimp only
  rw [hacks, butReactions_emitT]
  exact foldS_keeps (f := fun n (t : State) => t.modRq n (fun q => { q with outst := true, cnt := q.cnt + 1 })) State.butReactions
    (fun _ _ => rfl) ns s

theorem butReactions_wakeSamples (s : State) : (wakeSamples s).butReactions = s.butReactions := by
  unfold wakeSamples
  dsimp only
  rw [butReactions_rqEvents]
  exact foldS_keeps (f := fun n (t : State) => t.modRq n (fun q => { q with latch := false })) State.butReactions (fun _ _ => rfl) _ s

theorem butReactions_released (s t : State) : (released s t).butReactions = t.butReactions := by
  unfold released
  split
  · exact butReactions_wakeSamples t
  · rfl

/-! ## A wake begins (R608, R621, R622) -/

section
variable {s : State} {d : Nat}

theorem startWake_standing {k : Nat} (hon : s.domOn k = true) (hstep : (s.dom k).step = .none) (why : Option (Nat × Nat)) :
    startWake k why s = s := by
  have hst : (s.dom k).st = .on := beq_iff_eq.mp hon
  have hent : (s.dom k).entering = false := by simp [Dom.entering, hstep]
  unfold startWake
  dsimp only
  rw [if_neg (hent ▸ Bool.false_ne_true), if_pos (.inl hst)]

/-- Dependencies that are ON stay as they are. -/
theorem deps_standing {l : List Nat} (hon : ∀ k ∈ l, s.domOn k = true) (hstep : ∀ k ∈ l, (s.dom k).step = .none) :
    foldS l (fun k t => startWake k none t) s = s := by
  induction l with
  | nil => rfl
  | cons k l ih =>
    have hk := startWake_standing (hon k List.mem_cons_self) (hstep k List.mem_cons_self) none
    have hl := ih (fun j hj => hon j (List.mem_cons_of_mem k hj)) (fun j hj => hstep j (List.mem_cons_of_mem k hj))
    exact (congrArg (foldS l (fun k t => startWake k none t)) hk).trans hl

/-- The domain at the start of its wake, before supplies follow. -/
def wakeBegun (d src det : Nat) (s : State) : State :=
  (wakeRecord d (some (src, det)) s).modDom d (fun q =>
    { q with step := .supply, polAt := s.app (.pol d), target := .on, abort := false, leave := none, logged := true })

theorem beginWake_begins {src det : Nat} (hn : s.boot.rstN = false) (hao : s.boot.rstAo = false) (hp : domPresent s d = true)
    (h0 : d ≠ 0) (hauto : src = 6 ∨ src = 7 → autoWake s d = true) (hon : ∀ k ∈ depsOf d, s.domOn k = true)
    (hdeps : ∀ k ∈ depsOf d, (s.dom k).step = .none) (hstep : (s.dom d).step = .none) (hst : (s.dom d).st ≠ .on) :
    beginWake d src det s = wakeAdvance (pmiPolicy (wakeBegun d src det s)) := by
  have hopen : ¬ ((s.boot.rstN || s.boot.rstAo || !domPresent s d || decide (d = 0)) = true) := by
    rw [hn, hao, hp, decide_eq_false h0]
    decide
  have hwakes : ¬ (((decide (src = 6) || decide (src = 7)) && !autoWake s d) = true) := by
    rw [Bool.and_eq_true, Bool.or_eq_true, decide_eq_true_iff, decide_eq_true_iff, Bool.not_eq_true']
    rintro ⟨hsrc, hno⟩
    exact Bool.false_ne_true (hno.symm.trans (hauto hsrc))
  have hent : (s.dom d).entering = false := by simp [Dom.entering, hstep]
  have hwaking : ¬ ((s.dom d).st = .on ∨ (s.dom d).waking = true) := by
    rintro (h | h)
    · exact hst h
    · simp [Dom.waking, hstep] at h
  unfold beginWake
  rw [if_neg hopen, if_neg hwakes, deps_standing hon hdeps]
  unfold startWake
  dsimp only
  rw [if_neg (hent ▸ Bool.false_ne_true), if_neg hwaking]
  rfl

/-- An advance leaves a domain as it is, or closes its main switch. -/
theorem dom_wakeAdvance (d : Nat) (s : State) : (wakeAdvance s).dom d = s.dom d ∨
    ((s.dom d).step = .supply ∧ (wakeAdvance s).dom d = { s.dom d with step := .rail }) := by
  have hfold (l : List Nat) (t : State) (ht : t.dom d = s.dom d ∨ ((s.dom d).step = .supply ∧ t.dom d = { s.dom d with step := .rail })) :
      let u := foldS l (fun d t => if (t.dom d).step = .supply ∧ (!domHeld t d) = true ∧ depsUp t d = true ∧ domSupplyUp t d = true then
        t.modDom d (fun q => { q with step := .rail }) else t) t
      u.dom d = s.dom d ∨ ((s.dom d).step = .supply ∧ u.dom d = { s.dom d with step := .rail }) := by
    induction l generalizing t with
    | nil => exact ht
    | cons k l ih =>
      refine ih _ ?_
      dsimp only
      split
      · next h =>
        by_cases hk : d = k
        · subst hk
          rw [dom_modDom]
          rcases ht with ht | ⟨hs, ht⟩
          · exact .inr ⟨ht ▸ h.1, by rw [ht]⟩
          · exact .inr ⟨hs, by rw [ht]⟩
        · rw [dom_modDom_other _ _ hk]
          exact ht
      · exact ht
  exact hfold (upTo 43) s (.inl rfl)

theorem dom_of_doms {s t : State} (h : t.doms = s.doms) (d : Nat) : t.dom d = s.dom d := by
  unfold State.dom
  rw [h]

/-- PCM's records, which supplies, clocks and domains do not touch. -/
def Pcm.log (p : Pcm) : Pcm := { p with sup := [], clk := [] }

theorem of_log {p q : Pcm} (h : p.log = q.log) : (p.wakeSrc = q.wakeSrc ∧ p.wakeDom = q.wakeDom ∧ p.wakeDetail = q.wakeDetail) ∧
    p.alarmArm = q.alarmArm ∧ p.alarmFired = q.alarmFired :=
  ⟨⟨(congrArg Pcm.wakeSrc h :), (congrArg Pcm.wakeDom h :), (congrArg Pcm.wakeDetail h :)⟩,
    (congrArg Pcm.alarmArm h :), (congrArg Pcm.alarmFired h :)⟩

theorem log_supRequest (x : Nat) (v : BitVec 3) (s : State) : (supRequest x v s).pcm.log = s.pcm.log := by
  unfold supRequest
  dsimp only
  split
  · split <;> rfl
  · rfl

theorem log_pmiPolicy (s : State) : (pmiPolicy s).pcm.log = s.pcm.log := by
  have hclk (c : Nat) (t : State) : (clkPolicy c t).pcm.log = t.pcm.log := by
    unfold clkPolicy
    dsimp only
    split <;> rfl
  have hsup (x : Nat) (t : State) : (supPolicy x t).pcm.log = t.pcm.log := by
    unfold supPolicy
    split
    · split
      · exact log_supRequest ..
      · rfl
    · exact log_supRequest ..
  exact (foldS_keeps (fun t : State => t.pcm.log) hclk _ _).trans (foldS_keeps (fun t : State => t.pcm.log) hsup _ _)

theorem pcm_wakeAdvance (s : State) : (wakeAdvance s).pcm = s.pcm := by
  refine foldS_keeps State.pcm (fun d t => ?_) _ _
  split <;> rfl

theorem log_advance (s : State) : (wakeAdvance (pmiPolicy s)).pcm.log = s.pcm.log := by
  rw [pcm_wakeAdvance, log_pmiPolicy]

/-- A wake's record names its source, its domain and its detail. -/
theorem wakeBegun_records (d src det : Nat) (s : State) : (wakeBegun d src det s).pcm.wakeSrc = BitVec.ofNat 4 src ∧
    (wakeBegun d src det s).pcm.wakeDom = BitVec.ofNat 6 d ∧ (wakeBegun d src det s).pcm.wakeDetail = BitVec.ofNat 13 det :=
  ⟨rfl, rfl, rfl⟩

/-- A domain whose wake has begun waits for its supply, or has it, and the wake is recorded. -/
theorem wakeBegun_wakes (src : BitVec 4) (det : BitVec 13) (d : Nat) (s : State) :
    let t := wakeAdvance (pmiPolicy (wakeBegun d src.toNat det.toNat s))
    ((t.dom d).step = .supply ∨ (t.dom d).step = .rail) ∧ (t.dom d).st = (s.dom d).st ∧ (t.dom d).target = .on ∧
      (t.dom d).logged = true ∧ t.pcm.wakeSrc = src ∧ t.pcm.wakeDom = BitVec.ofNat 6 d ∧ t.pcm.wakeDetail = det := by
  have hlog := log_advance (wakeBegun d src.toNat det.toNat s)
  have hadv := dom_wakeAdvance d (pmiPolicy (wakeBegun d src.toNat det.toNat s))
  have hbegun : (pmiPolicy (wakeBegun d src.toNat det.toNat s)).dom d =
      { s.dom d with step := .supply, polAt := s.app (.pol d), target := .on, abort := false, leave := none, logged := true } :=
    (dom_of_doms (doms_pmiPolicy _) d).trans (dom_modDom ..)
  dsimp only
  generalize wakeAdvance (pmiPolicy (wakeBegun d src.toNat det.toNat s)) = t at hlog hadv ⊢
  obtain ⟨⟨hsrc, hdom, hdet⟩, -⟩ := of_log hlog
  obtain ⟨hsrc', hdom', hdet'⟩ := wakeBegun_records d src.toNat det.toNat s
  rw [hsrc', BitVec.ofNat_toNat, BitVec.setWidth_eq] at hsrc
  rw [hdom'] at hdom
  rw [hdet', BitVec.ofNat_toNat, BitVec.setWidth_eq] at hdet
  rw [hbegun] at hadv
  rcases hadv with h | ⟨-, h⟩
  · rw [h]
    exact ⟨.inl rfl, rfl, rfl, rfl, hsrc, hdom, hdet⟩
  · rw [h]
    exact ⟨.inr rfl, rfl, rfl, rfl, hsrc, hdom, hdet⟩

end

/-! ## Steps of a wake (R620, R626) -/

section
variable {s : State} {dm : DomId}

theorem wakeStart_eq (ht : s.boot.tstMode = false) (src : BitVec 4) (det : BitVec 13) : exec (.wakeStart dm src det) s = .next (
    if wakeOk dm.val src.toNat then beginWake dm.val src.toNat det.toNat s else s) := act_next ht _

theorem wakeRailDone_eq (ht : s.boot.tstMode = false) : exec (.wakeRailDone dm) s = .next (
    if (s.dom dm.val).step = .rail ∧ wakeFree s dm.val = true then s.modDom dm.val (fun x => { x with step := .clock }) else s) :=
  act_next ht _

theorem wakeClockDone_eq (ht : s.boot.tstMode = false) : exec (.wakeClockDone dm) s = .next (
    if (s.dom dm.val).step = .clock ∧ wakeFree s dm.val = true ∧ clockUp s dm.val = true then
      s.modDom dm.val (fun x => { x with step := .settle })
    else s) := act_next ht _

theorem wakeSettleDone_eq (ht : s.boot.tstMode = false) : exec (.wakeSettleDone dm) s = .next (
    if (s.dom dm.val).step = .settle ∧ wakeFree s dm.val = true ∧ s.boot.ready = true then
      if (s.dom dm.val).st = .off then s.modDom dm.val (fun x => { x with step := .restore }) else becomeOn dm.val s
    else s) := act_next ht _

theorem restoreComplete_eq (ht : s.boot.tstMode = false) (bad : Bool) : exec (.restoreComplete dm bad) s = .next (
    if (s.dom dm.val).step = .restore ∧ wakeFree s dm.val = true then
      let t := becomeOn dm.val (if (bad || !(s.dom dm.val).saved) = true then savedReset dm.val s else s)
      if (bad && (s.dom dm.val).saved) = true then assertFault 267 (faultOf 2 dm.val) t else t
    else s) := act_next ht _

/-- While the wake may not go on, none of its steps is over. -/
theorem wakeSteps_wait (ht : s.boot.tstMode = false) (h : wakeFree s dm.val = false) :
    exec (.wakeRailDone dm) s = .next s ∧ exec (.wakeClockDone dm) s = .next s ∧ exec (.wakeSettleDone dm) s = .next s ∧
      ∀ bad, exec (.restoreComplete dm bad) s = .next s := by
  have hno : ¬ wakeFree s dm.val = true := h ▸ Bool.false_ne_true
  exact ⟨(wakeRailDone_eq ht).trans (congrArg _ (if_neg fun hx => hno hx.2)),
    (wakeClockDone_eq ht).trans (congrArg _ (if_neg fun hx => hno hx.2.1)),
    (wakeSettleDone_eq ht).trans (congrArg _ (if_neg fun hx => hno hx.2.1)),
    fun bad => (restoreComplete_eq ht bad).trans (congrArg _ (if_neg fun hx => hno hx.2))⟩

end

/-! ## A gallery from RET is ON (R626, R628) -/

section
variable {s : State} {d : Nat}

/-- The domain's own part of becoming ON. -/
def nowOn (d : Nat) (s : State) : State :=
  s.modDom d (fun y => { y with
    st := .on, step := .none, target := .on, wakes := y.wakes + 1, hold := !(bit (polNow s d) 28 || (s.dom d).relWaits),
    relWaits := false, logged := false })

/-- The record of when CORE's last wake was over. -/
def wakeTimed (d : Nat) (s t : State) : State :=
  if (s.dom d).logged = true ∧ s.pcm.wakeDom.toNat = d then { t with pcm := { t.pcm with wakeTime := t.projTime.truncate 32 } } else t

theorem becomeOn_gallery (h7 : 7 ≤ d) (h38 : d ≤ 38) (hret : (s.dom d).st = .ret) : ∃ p, becomeOn d s =
    oppStep p (wakeAdvance (pmiPolicy (tmAdd 30 1 (emitUp [239] (wakeTimed d s (startReloads (d - 7) (nowOn d s))))))) := by
  have hoff : ((s.dom d).st == .off) = false := by rw [hret]; rfl
  have hsequel (t : State) : domSequel d false t = startReloads (d - 7) t := by
    unfold domSequel
    rw [if_neg (by omega), if_neg (by omega), if_neg (by omega), if_pos ⟨h7, h38⟩, if_neg Bool.false_ne_true]
  have hsup : supOf d = some (1 + (d - 7) / 8) := by
    unfold supOf
    rw [if_neg (by omega), if_neg (by omega), if_neg (by omega), if_pos h38]
  refine ⟨1 + (d - 7) / 8, ?_⟩
  have hne : ¬ d = 2 := by omega
  unfold becomeOn
  simp only [hoff, hsequel, hsup, if_neg hne]
  rfl

theorem power_wakeTimed (d : Nat) (s t : State) : (wakeTimed d s t).power = t.power := by
  unfold wakeTimed
  split <;> rfl

theorem becomeOn_face (h7 : 7 ≤ d) (h38 : d ≤ 38) (hret : (s.dom d).st = .ret) : ((becomeOn d s).dom d).face =
    (.on, (s.dom d).wakes + 1, !(bit (polNow s d) 28 || (s.dom d).relWaits)) := by
  obtain ⟨p, h⟩ := becomeOn_gallery h7 h38 hret
  have hpower : (becomeOn d s).power = (nowOn d s).power := by
    rw [h, (oppStep_keeps ..).1, power_wakeAdvance, power_pmiPolicy, power_tmAdd, power_of_butReactions (butReactions_emitUp ..),
      power_wakeTimed, power_startReloads]
  rw [(of_power hpower).1 d, nowOn, dom_modDom]
  rfl

/-- No bank of the gallery waits for its reload. -/
theorem startReloads_none {g : Nat} (ha : (s.gal g).bankA.st ≠ .reloading) (hb : (s.gal g).bankB.st ≠ .reloading) :
    startReloads g s = s := by
  have hno (b : Bool) : ((if b then (s.gal g).bankB else (s.gal g).bankA).st == .reloading) = false := by
    cases b
    · exact beq_eq_false_iff_ne.mpr ha
    · exact beq_eq_false_iff_ne.mpr hb
  unfold startReloads
  dsimp only
  rw [List.find?_eq_none.mpr fun b _ => by rw [hno b]; exact Bool.false_ne_true]
  split <;> rfl

theorem gals_tmAdd (k n : Nat) (s : State) : (tmAdd k n s).gals = s.gals := by
  unfold tmAdd
  split <;> rfl

theorem gals_of_butPower {s t : State} (h : t.butPower = s.butPower) : t.gals = s.gals := by
  have hgals := congrArg State.gals h
  exact hgals

theorem gals_emitUp (ps : List Nat) (s : State) : (emitUp ps s).gals = s.gals := by
  have h := congrArg State.gals (butReactions_emitUp ps s)
  exact h

theorem becomeOn_gals (h7 : 7 ≤ d) (h38 : d ≤ 38) (hret : (s.dom d).st = .ret) (ha : (s.gal (d - 7)).bankA.st ≠ .reloading)
    (hb : (s.gal (d - 7)).bankB.st ≠ .reloading) : (becomeOn d s).gals = s.gals := by
  obtain ⟨p, h⟩ := becomeOn_gallery h7 h38 hret
  have htimed (t : State) : (wakeTimed d s t).gals = t.gals := by
    unfold wakeTimed
    split <;> rfl
  rw [h, gals_of_butPower (oppStep_keeps ..).2, gals_of_butPower (butPower_wakeAdvance _), gals_of_butPower (butPower_pmiPolicy _),
    gals_tmAdd, gals_emitUp, htimed, startReloads_none (s := nowOn d s) ha hb]
  rfl

end

/-! ## HOLD_RELEASE (R628) -/

section
variable {s : State}

theorem slgWakes_keeps (k : Nat) (s : State) : (slgWakes k s).doms = s.doms ∧ (slgWakes k s).gals = s.gals := by
  unfold slgWakes
  constructor
  · refine foldS_keeps State.doms (fun l t => ?_) _ _
    split <;> rfl
  · refine foldS_keeps State.gals (fun l t => ?_) _ _
    split <;> rfl

/-- What a set bit of HOLD_RELEASE does to its domain. -/
def Dom.unheld (x : Dom) : Dom := if x.waking then { x with relWaits := true } else { x with hold := false }

/-- One bit of HOLD_RELEASE. -/
def releaseBit (i : Nat) (v : Word) (j : Nat) (t : State) : State :=
  let d := 32 * i + j
  if !bit v j || decide (42 < d) then t
  else if (t.dom d).waking then t.modDom d (fun x => { x with relWaits := true })
  else
    let u := t.modDom d (fun x => { x with hold := false })
    if (t.dom d).hold && decide (39 ≤ d) then slgWakes (d - 39) u else u

theorem holdRelease_eq (i : Nat) (v : Word) (s : State) : holdRelease i v s = foldS (upTo 32) (releaseBit i v) s := rfl

theorem releaseBit_doms (i : Nat) (v : Word) (j : Nat) (t : State) : (releaseBit i v j t).gals = t.gals ∧
    (releaseBit i v j t).doms =
      (if bit v j = true ∧ 32 * i + j ≤ 42 then t.modDom (32 * i + j) Dom.unheld else t).doms := by
  have hput (f : Dom → Dom) (h : f (t.dom (32 * i + j)) = (t.dom (32 * i + j)).unheld) :
      (t.modDom (32 * i + j) f).doms = (t.modDom (32 * i + j) Dom.unheld).doms :=
    congrArg (Tbl.put {} t.doms (32 * i + j)) h
  unfold releaseBit
  dsimp only
  by_cases hb : bit v j = true ∧ 32 * i + j ≤ 42
  · rw [if_neg (by rw [hb.1, decide_eq_false (by omega)]; decide), if_pos hb]
    split
    · next h => exact ⟨rfl, hput _ (if_pos h).symm⟩
    · next h =>
      have hlow := hput (fun x => { x with hold := false }) (if_neg h).symm
      split
      · obtain ⟨hdoms, hgals⟩ := slgWakes_keeps (32 * i + j - 39) (t.modDom (32 * i + j) (fun x => { x with hold := false }))
        exact ⟨hgals, hdoms.trans hlow⟩
      · exact ⟨rfl, hlow⟩
  · rw [if_neg hb, if_pos]
    · exact ⟨rfl, rfl⟩
    · rw [Bool.or_eq_true, Bool.not_eq_true']
      by_cases hv : bit v j = true
      · exact .inr (decide_eq_true (Nat.lt_of_not_le fun h => hb ⟨hv, h⟩))
      · exact .inl (Bool.not_eq_true _ ▸ hv)

/-- The bits below `n` have released their domains, each once. -/
theorem dom_releaseBits (i : Nat) (v : Word) {d : Nat} (hd : d < 43) (n : Nat) (s : State) :
    (foldS (upTo n) (releaseBit i v) s).dom d =
      if 32 * i ≤ d ∧ d < 32 * i + n ∧ bit v (d - 32 * i) = true then (s.dom d).unheld else s.dom d := by
  induction n with
  | zero => rw [if_neg (by omega)]; rfl
  | succ n ih =>
    have hfold : foldS (upTo (n + 1)) (releaseBit i v) s = releaseBit i v n (foldS (upTo n) (releaseBit i v) s) := by
      simp [foldS, upTo, List.range_succ]
    rw [hfold, dom_of_doms (releaseBit_doms ..).2]
    by_cases hdn : d = 32 * i + n
    · rw [if_neg (by omega)] at ih
      have hbit : d - 32 * i = n := by omega
      rw [hbit]
      by_cases hb : bit v n = true
      · rw [if_pos ⟨hb, by omega⟩, if_pos ⟨by omega, by omega, hb⟩, ← hdn, dom_modDom, ih]
      · rw [if_neg (fun h => hb h.1), if_neg (fun h => hb h.2.2), ih]
    · have hsame : (if bit v n = true ∧ 32 * i + n ≤ 42 then (foldS (upTo n) (releaseBit i v) s).modDom (32 * i + n) Dom.unheld
          else foldS (upTo n) (releaseBit i v) s).dom d = (foldS (upTo n) (releaseBit i v) s).dom d := by
        split
        · exact dom_modDom_other _ _ hdn
        · rfl
      rw [hsame, ih]
      refine if_congr ⟨fun h => ⟨h.1, by omega, h.2.2⟩, fun h => ⟨h.1, by omega, h.2.2⟩⟩ rfl rfl

theorem dom_holdRelease (i : Nat) (v : Word) {d : Nat} (hd : d < 43) (s : State) :
    (holdRelease i v s).dom d = if d / 32 = i ∧ bit v (d % 32) = true then (s.dom d).unheld else s.dom d := by
  rw [holdRelease_eq, dom_releaseBits i v hd]
  by_cases hi : d / 32 = i
  · have hmod : d - 32 * i = d % 32 := by omega
    rw [hmod]
    exact if_congr ⟨fun h => ⟨hi, h.2.2⟩, fun h => ⟨by omega, by omega, h.2⟩⟩ rfl rfl
  · rw [if_neg (by omega), if_neg (fun h => hi h.1)]

theorem gals_holdRelease (i : Nat) (v : Word) (s : State) : (holdRelease i v s).gals = s.gals :=
  foldS_keeps State.gals (fun j t => (releaseBit_doms i v j t).1) _ s

theorem regWrite_holdRelease (owner : Byte) (i : Nat) (v : Word) (s : State) :
    regWrite true owner (.holdRelease i) v s = some (holdRelease i v s) := rfl

theorem holdRelease_writes {a : TpAttr} {hi : Bool} (hsec : a.sec = true) (h : s.takes a true (.holdRelease (b2n hi))) (v : Word) :
    exec (.holdRelease a hi v) s = wrote a (holdRelease (b2n hi) v s) := by
  have hw : regWrite a.sec a.owner (.holdRelease (b2n hi)) v s = some (holdRelease (b2n hi) v s) :=
    hsec ▸ regWrite_holdRelease a.owner (b2n hi) v s
  exact takes_wroteAt h (0xE018 + 4 * b2n hi) v (by cases hi <;> decide) (by cases hi <;> decide) (dec_holdRelease s.wings hi) hw

end

/-! ## The alarm (R625) -/

section
variable {s : State}

/-- The alarm has fired, and nothing else. -/
def alarmNoted (s : State) : State := { s with pcm := { s.pcm with alarmArm := false, alarmFired := true } }

theorem log_startWake_alarm (d : Nat) (why : Option (Nat × Nat)) (s : State) :
    (startWake d why s).pcm.alarmArm = s.pcm.alarmArm ∧ (startWake d why s).pcm.alarmFired = s.pcm.alarmFired := by
  unfold startWake
  dsimp only
  split
  · exact ⟨rfl, rfl⟩
  · split
    · exact ⟨rfl, rfl⟩
    · have h := log_advance ((wakeRecord d why s).modDom d (fun q =>
        { q with step := .supply, polAt := s.app (.pol d), target := .on, abort := false, leave := none, logged := why.isSome }))
      have hrecord : (wakeRecord d why s).pcm.alarmArm = s.pcm.alarmArm ∧ (wakeRecord d why s).pcm.alarmFired = s.pcm.alarmFired := by
        cases why <;> exact ⟨rfl, rfl⟩
      obtain ⟨-, harm, hfired⟩ := of_log h
      exact ⟨harm.trans hrecord.1, hfired.trans hrecord.2⟩

theorem alarm_beginWake (d src det : Nat) (s : State) : (beginWake d src det s).pcm.alarmArm = s.pcm.alarmArm ∧
    (beginWake d src det s).pcm.alarmFired = s.pcm.alarmFired := by
  unfold beginWake
  split
  · exact ⟨rfl, rfl⟩
  · split
    · exact ⟨rfl, rfl⟩
    · obtain ⟨harm, hfired⟩ := log_startWake_alarm d (some (src, det)) (foldS (depsOf d) (fun k t => startWake k none t) s)
      exact ⟨harm.trans (foldS_keeps (fun t : State => t.pcm.alarmArm) (fun k t => (log_startWake_alarm k none t).1) _ s),
        hfired.trans (foldS_keeps (fun t : State => t.pcm.alarmFired) (fun k t => (log_startWake_alarm k none t).2) _ s)⟩

theorem alarmFire_fires (ht : s.boot.tstMode = false) (harm : s.pcm.alarmArm = true) (hdue : alarmAt s ≤ s.projTime.toNat) :
    exec .alarmFire s = .next (beginWake 2 4 0 (alarmNoted s)) :=
  (act_next ht _).trans (congrArg _ (if_pos (by rw [harm, decide_eq_true hdue]; rfl)))

theorem alarmFire_waits (ht : s.boot.tstMode = false) (h : s.pcm.alarmArm = false ∨ s.projTime.toNat < alarmAt s) :
    exec .alarmFire s = .next s := by
  refine (act_next ht _).trans (congrArg _ (if_neg ?_))
  rw [Bool.and_eq_true, decide_eq_true_iff]
  rintro ⟨harm, hdue⟩
  rcases h with h | h
  · exact Bool.false_ne_true (h.symm.trans harm)
  · omega

end

/-! ## Supplies and clocks (R475, R479, R480, R630) -/

section
variable {s : State}

theorem oppClockRestart_eq (ht : s.boot.tstMode = false) (x : SupId) : exec (.oppClockRestart x) s = .next (
    if (s.sup x.val).clkStop = true then
      oppStep x.val (if x.val = 0 then wakeSamples (lateActions (s.modSup x.val (fun p => { p with clkStop := false, f := p.fTo })))
        else s.modSup x.val (fun p => { p with clkStop := false, f := p.fTo }))
    else s) := act_next ht _

theorem oppRaiseDelayExpiry_eq (ht : s.boot.tstMode = false) (x : SupId) : exec (.oppRaiseDelayExpiry x) s = .next (
    if (s.sup x.val).raiseWait = true then freqChange x.val (s.modSup x.val (fun p => { p with raiseWait := false })) else s) :=
  act_next ht _

/-- The supply has its acknowledgement. -/
def supAcked (x : Nat) (s : State) : State :=
  (pmiOver x s).modSup x (fun q => { q with vack := q.vtog, overdue := false, v := if 5 ≤ x ∨ q.vreq = 0 then q.v else q.vreq - 1 })

/-- A raised voltage may wait for its delay. -/
def raiseAwaited (x : Nat) (s : State) : State :=
  if ((s.sup x).busy && decide ((s.sup x).f < (s.sup x).v) && supFeeds s x) = true then s.modSup x (fun r => { r with raiseWait := true })
  else s

theorem supAck_same {x : Nat} (h : (s.sup x).vtog = (s.sup x).vack) : supAck x s = s := if_pos h

theorem supAck_new {x : Nat} (h : (s.sup x).vtog ≠ (s.sup x).vack) :
    supAck x s = released s (oppStep x (wakeAdvance (pmiPolicy (raiseAwaited x (supAcked x s))))) := if_neg h

theorem sup_pmiOver (k x : Nat) (s : State) : (pmiOver k s).sup x = s.sup x := by
  unfold pmiOver
  split <;> rfl

theorem power_supAck {x : Nat} (h : (s.sup x).vtog ≠ (s.sup x).vack) : (supAck x s).power = (supAcked x s).power := by
  have hraise : (raiseAwaited x (supAcked x s)).power = (supAcked x s).power := by
    unfold raiseAwaited
    split
    · exact power_modSup _ _ _ rfl
    · rfl
  rw [supAck_new h, power_of_butReactions (butReactions_released ..), (oppStep_keeps ..).1, power_wakeAdvance, power_pmiPolicy, hraise]

theorem supAck_acks {x : Nat} (h : (s.sup x).vtog ≠ (s.sup x).vack) : ((supAck x s).sup x).vack = (s.sup x).vtog ∧
    (x < 5 → (s.sup x).vreq ≠ 0 → ((supAck x s).sup x).v = (s.sup x).vreq - 1) := by
  have hface := (of_power (power_supAck h)).2.1 x
  rw [supAcked, sup_modSup, sup_pmiOver] at hface
  obtain ⟨hack, hv⟩ := Prod.mk.inj hface
  exact ⟨hack, fun h5 h0 => hv.trans (if_neg fun h => h.elim (by omega) h0)⟩

theorem pmiAck_supply (ht : s.boot.tstMode = false) (x : Fin 9) : exec (.pmiAck (.supply x)) s = .next (supAck x.val s) := act_next ht _

theorem pmiAckTimeout_supply (ht : s.boot.tstMode = false) (x : Fin 9) : exec (.pmiAckTimeout (.supply x)) s = .next (
    if (s.sup x.val).vtog ≠ (s.sup x.val).vack ∧ (!(s.sup x.val).overdue) = true then
      assertFault 265 (faultOf 6 x.val) (s.modSup x.val (fun q => { q with overdue := true }))
    else s) := act_next ht _

/-- The clock's acknowledgement, before anything follows it. -/
def clkAcked (c : Nat) (v : Bool) (s : State) : State :=
  (if (s.clk c).req = v then pmiOver (9 + c) s else s).modClk c (fun q => { q with ack := v })

theorem pmiAck_clock (ht : s.boot.tstMode = false) (c : Fin 5) (v : Bool) : exec (.pmiAck (.clock c v)) s =
    .next (released s (wakeAdvance (clkPolicy c.val (clkAcked c.val v s)))) := act_next ht _

theorem clk_clkAcked (c : Nat) (v : Bool) (s : State) : ((clkAcked c v s).clk c).ack = v ∧
    (∀ k, k ≠ c → (clkAcked c v s).clk k = s.clk k) ∧ (clkAcked c v s).doms = s.doms := by
  have hover : ∀ t : State, t = (if (s.clk c).req = v then pmiOver (9 + c) s else s) → t.pcm = s.pcm ∧ t.doms = s.doms := by
    rintro t rfl
    unfold pmiOver
    split
    · split <;> exact ⟨rfl, rfl⟩
    · exact ⟨rfl, rfl⟩
  obtain ⟨hpcm, hdoms⟩ := hover _ rfl
  refine ⟨?_, fun k hk => ?_, hdoms⟩
  · rw [clkAcked, clk_modClk]
  · rw [clkAcked, clk_modClk_other _ _ hk, State.clk, hpcm]
    rfl

theorem pcm_of_butReactions {s t : State} (h : t.butReactions = s.butReactions) : t.pcm = s.pcm := by
  have hpcm := congrArg State.pcm h
  exact hpcm

theorem clk_clkPolicy_other {c k : Nat} (h : k ≠ c) (s : State) : (clkPolicy c s).clk k = s.clk k := by
  unfold clkPolicy
  dsimp only
  split
  · exact clk_modClk_other _ _ h
  · rfl

theorem clockAck_acks (c : Nat) (v : Bool) (s : State) :
    let t := released s (wakeAdvance (clkPolicy c (clkAcked c v s)))
    (t.clk c).ack = v ∧ (∀ k, k ≠ c → t.clk k = s.clk k) ∧ ∀ d, (t.dom d).st = (s.dom d).st := by
  intro t
  obtain ⟨hack, hother, hdoms⟩ := clk_clkAcked c v s
  have hpower : t.power = (clkAcked c v s).power := by
    rw [power_of_butReactions (butReactions_released ..), power_wakeAdvance, power_clkPolicy]
  have hpcm : t.pcm = (clkPolicy c (clkAcked c v s)).pcm :=
    (pcm_of_butReactions (butReactions_released ..)).trans (pcm_wakeAdvance _)
  refine ⟨((of_power hpower).2.2 c).trans hack, fun k hk => ?_, fun d => ?_⟩
  · have hclk : t.clk k = (clkPolicy c (clkAcked c v s)).clk k := by rw [State.clk, State.clk, hpcm]
    rw [hclk, clk_clkPolicy_other hk, hother k hk]
  · have hface := (of_power hpower).1 d
    rw [dom_of_doms hdoms] at hface
    exact congrArg Prod.fst hface

theorem pmiAckTimeout_clock (ht : s.boot.tstMode = false) (c : Fin 5) (v : Bool) : exec (.pmiAckTimeout (.clock c v)) s = .next (
    if (s.clk c.val).req ≠ (s.clk c.val).ack then assertFault 265 (faultOf 6 (9 + c.val)) s else s) := act_next ht _

end

/-- No wake source may name AO. -/
theorem ne_zero_of_wakeOk {d src : Nat} (h : wakeOk d src = true) : d ≠ 0 := by
  rintro rfl
  unfold wakeOk at h
  split at h <;> exact absurd h (by decide)

/-- Settles O48: the wake's steps, a gallery that is ON (`becomeOn_face`), HOLD_RELEASE bit by bit, the alarm, and the PMI. -/
theorem waking : Obligations.Waking := by
  intro s
  refine ⟨fun ht dm => ?wakes, fun a hi v hsec h => ?holds, fun ht => ⟨fun harm hdue => ?alarm, alarmFire_waits ht, fun x => ?opp,
    fun x => ?supplies, fun c v => ?clocks⟩⟩
  case wakes =>
    intro d x
    refine ⟨fun src det hok hn hao hp hauto hon hstep hst hdeps => ?_, fun src det hok => ?_, wakeSteps_wait ht, fun hfree => ?_,
      fun h7 h38 hret => ?_⟩
    · refine ⟨_, ?_, wakeBegun_wakes src det d s⟩
      rw [wakeStart_eq ht, if_pos hok, beginWake_begins hn hao hp (ne_zero_of_wakeOk hok) hauto hon hdeps hstep hst]
    · rw [wakeStart_eq ht, if_neg (hok ▸ Bool.false_ne_true)]
    · refine ⟨fun hs => ?_, fun hs hc => ?_, fun hs hc => ?_, fun hs hr => ?_, fun hs hsaved => ⟨?_, ?_⟩, fun hs hsaved bad => ?_⟩
      · rw [wakeRailDone_eq ht, if_pos ⟨hs, hfree⟩]
      · rw [wakeClockDone_eq ht, if_pos ⟨hs, hfree, hc⟩]
      · rw [wakeClockDone_eq ht, if_neg fun h => Bool.false_ne_true (hc.symm.trans h.2.2)]
      · rw [wakeSettleDone_eq ht, if_pos ⟨hs, hfree, hr⟩]
      · rw [restoreComplete_eq ht, if_pos ⟨hs, hfree⟩, hsaved]
        rfl
      · rw [restoreComplete_eq ht, if_pos ⟨hs, hfree⟩, hsaved]
        rfl
      · rw [restoreComplete_eq ht, if_pos ⟨hs, hfree⟩, hsaved, Bool.not_false, Bool.or_true, Bool.and_false, if_pos rfl]
        rfl
    · obtain ⟨hst, h⟩ := Prod.mk.inj (becomeOn_face h7 h38 hret)
      obtain ⟨hwakes, hhold⟩ := Prod.mk.inj h
      exact ⟨hst, hwakes, hhold, becomeOn_gals h7 h38 hret⟩
  case holds =>
    exact ⟨_, holdRelease_writes hsec h v, gals_holdRelease .., fun d hd => dom_holdRelease (b2n hi) v hd s⟩
  case alarm =>
    obtain ⟨harmed, hfired⟩ := alarm_beginWake 2 4 0 (alarmNoted s)
    exact ⟨_, alarmFire_fires ht harm hdue, harmed, hfired⟩
  case opp =>
    refine ⟨fun hc hx => ?_, fun hc hx => ?_, fun hc => ?_, fun hr => ?_, fun hr => ?_, freqChange_eq x.val s⟩
    · rw [oppClockRestart_eq ht, if_pos hc, if_neg hx]
    · rw [oppClockRestart_eq ht, if_pos hc, if_pos hx, hx]
    · rw [oppClockRestart_eq ht, if_neg (hc ▸ Bool.false_ne_true)]
    · rw [oppRaiseDelayExpiry_eq ht, if_pos hr]
    · rw [oppRaiseDelayExpiry_eq ht, if_neg (hr ▸ Bool.false_ne_true)]
  case supplies =>
    refine ⟨fun h => ⟨?_, ?_⟩, fun h => ⟨⟨_, pmiAck_supply ht x, supAck_acks h⟩, fun ho => ?_, fun ho => ?_⟩⟩
    · rw [pmiAck_supply ht, supAck_same h]
    · rw [pmiAckTimeout_supply ht, if_neg fun hx => hx.1 h]
    · rw [pmiAckTimeout_supply ht, if_pos ⟨h, by rw [ho]; rfl⟩]
    · rw [pmiAckTimeout_supply ht, if_neg fun hx => by rw [ho] at hx; exact absurd hx.2 (by decide)]
  case clocks =>
    refine ⟨⟨_, pmiAck_clock ht c v, clockAck_acks c.val v s⟩, fun h => ?_⟩
    rw [pmiAckTimeout_clock ht, if_pos h]

end Sys2Proof.Machine
end

section
/-! The sideband port (R623, R639 to R643, Table 19-4). -/

namespace Sys2Proof.Machine

/-! ## Little-endian bytes side by side (R19) -/

theorem toLe_append (m n v : Nat) : toLe (m + n) v = toLe m v ++ toLe n (v / 256 ^ m) := by
  induction m generalizing v with
  | zero => rw [Nat.zero_add, Nat.pow_zero, Nat.div_one]; rfl
  | succ m ih => rw [Nat.succ_add, toLe, toLe, ih, Nat.div_div_eq_div_mul, ← Nat.pow_succ', List.cons_append]

theorem toLe_mod (n v : Nat) : toLe n (v % 256 ^ n) = toLe n v := by
  induction n generalizing v with
  | zero => rfl
  | succ n ih =>
    have hlow : BitVec.ofNat 8 (v % (256 * 256 ^ n)) = BitVec.ofNat 8 v :=
      BitVec.eq_of_toNat_eq (by rw [BitVec.toNat_ofNat, BitVec.toNat_ofNat]; exact Nat.mod_mul_right_mod v 256 _)
    rw [Nat.pow_succ', toLe, toLe, hlow, Nat.mod_mul_right_div_self, ih]

/-- Two halfwords of a word. -/
theorem toLe_packW {hi lo : Nat} (hh : hi < 65536) (hl : lo < 65536) :
    toLe 4 (packW [(16, hi), (0, lo)]).toNat = toLe 2 lo ++ toLe 2 hi := by
  have hword : (packW [(16, hi), (0, lo)]).toNat = lo + 65536 * hi := by
    rw [packW_cons _ _ (packW_cons (m := 0) _ _ rfl), BitVec.toNat_ofNat]
    omega
  have hlow : lo = (lo + 65536 * hi) % 256 ^ 2 := by omega
  have hhigh : hi = (lo + 65536 * hi) / 256 ^ 2 := by omega
  rw [hword, toLe_append 2 2, ← hhigh, ← toLe_mod 2 (lo + _), ← hlow]

/-- Two words of a doubleword. -/
theorem toLe_halves (t : DWord) : toLe 8 t.toNat = toLe 4 (t.truncate 32).toNat ++ toLe 4 (t.extractLsb' 32 32).toNat := by
  have hlow : (t.truncate 32).toNat = t.toNat % 256 ^ 4 := BitVec.toNat_setWidth ..
  have hhigh : (t.extractLsb' 32 32).toNat = t.toNat / 256 ^ 4 := by
    rw [BitVec.extractLsb'_toNat, Nat.shiftRight_eq_div_pow]
    exact Nat.mod_eq_of_lt (by omega)
  rw [toLe_append 4 4, hhigh, hlow, toLe_mod]

theorem leAt_wordBytes (d : Word) : leAt (wordBytes d) 0 4 = d.toNat := by
  have hlen : (wordBytes d).length = 4 := toLe_len ..
  rw [leAt, slice_eq_take _ (by omega), List.drop_zero, List.take_of_length_le (by omega), wordBytes, ofLe_toLe]
  exact Nat.mod_eq_of_lt d.isLt

/-- A Ledger record as LG_READ returns it (Tables 19-4, 19-6). -/
theorem recordBytes (r : LgRec) : r.words.flatMap wordBytes =
    toLe 4 r.seq.toNat ++ toLe 2 r.code.toNat ++ toLe 2 r.flags.toNat ++ toLe 8 r.time.toNat ++ toLe 4 r.opTime.toNat ++
      toLe 4 r.pwrCyc.toNat ++ toLe 4 r.dataLo.toNat ++ toLe 4 r.dataHi.toNat := by
  have hcode := toLe_packW (hi := r.flags.toNat) (lo := r.code.toNat) (by omega) (by omega)
  simp only [LgRec.words, List.flatMap_cons, List.flatMap_nil, wordBytes, hcode, toLe_halves, List.append_assoc, List.append_nil]

/-! ## The address matcher (R623) -/

section
variable {s : State}

/-- The matcher stretches SCL while it waits for CORE. -/
def sbpStretched (s : State) : State := s.modSbp (fun b => { b with stretch := true, active := false, acked := false })

theorem sbpAddressMatch_on (ht : s.boot.tstMode = false) (h : sbpMatcherOn s = true) :
    exec .sbpAddressMatch s = .next (sbpHand (beginWake 2 1 0 (sbpStretched s))) := (act_next ht _).trans (congrArg _ (if_pos h))

theorem sbpAddressMatch_off (ht : s.boot.tstMode = false) (h : sbpMatcherOn s = false) : exec .sbpAddressMatch s = .next s :=
  (act_next ht _).trans (congrArg _ (if_neg (h ▸ Bool.false_ne_true)))

/-- The wake of CORE leaves the matcher as it is, and what the handover looks at. -/
theorem beginWake_sbp (d src det : Nat) (s : State) : (beginWake d src det s).sbp = s.sbp ∧
    (beginWake d src det s).coreOn = s.coreOn ∧ (beginWake d src det s).boot = s.boot := by
  obtain ⟨hboot, h⟩ := Prod.mk.inj (standing_beginWake d src det s)
  have hsbp := congrArg State.sbp (butPower_beginWake d src det s)
  exact ⟨hsbp, congrArg (· == .on) (congrFun (Prod.mk.inj h).2 2), hboot⟩

theorem sbpAddressMatch_hands (hon : s.coreOn = true) (hr : s.boot.ready = true) :
    (sbpHand (beginWake 2 1 0 (sbpStretched s))).sbp = { s.sbp with stretch := false, active := true, acked := true } := by
  obtain ⟨hsbp, hcore, hboot⟩ := beginWake_sbp 2 1 0 (sbpStretched s)
  rw [sbpHand, hsbp, hcore, hboot, if_pos]
  · rfl
  · show (true && s.coreOn && s.boot.ready) = true
    rw [hon, hr]
    rfl

theorem sbpAddressMatch_stretches (hoff : s.coreOn = false) :
    (sbpHand (beginWake 2 1 0 (sbpStretched s))).sbp = { s.sbp with stretch := true, active := false, acked := false } := by
  obtain ⟨hsbp, hcore, hboot⟩ := beginWake_sbp 2 1 0 (sbpStretched s)
  rw [sbpHand, hcore, if_neg, hsbp]
  · rfl
  · show ¬ ((_ && s.coreOn && _) = true)
    rw [hoff, Bool.and_false, Bool.false_and]
    exact Bool.false_ne_true

theorem sbpStretchTimeout_eq (ht : s.boot.tstMode = false) : exec .sbpStretchTimeout s = .next (
    if s.sbp.stretch = true then assertFault 282 (faultOf 6 0) (s.modSbp (fun b => { b with stretch := false, acked := false }))
    else s) := act_next ht _

end

/-! ## Commands (R639 to R641, Table 19-4) -/

section
variable {s : State}

/-- The transfer, or its last byte, is acknowledged. -/
def sbpAck (s : State) : State := s.modSbp (fun x => { x with acked := true, out := [] })

theorem sbpTake_fails {code : Byte} {b : List Byte} {pec : Option Byte}
    (h : ∃ q, pec = some q ∧ q ≠ crc8 ([sbpAddr s false, code] ++ b)) (f : State → State) :
    sbpTake code b pec f s = sbpNak s := by
  obtain ⟨q, rfl, hq⟩ := h
  exact if_neg hq

theorem sbpTake_holds {code : Byte} {b : List Byte} {pec : Option Byte}
    (h : ∀ q, pec = some q → q = crc8 ([sbpAddr s false, code] ++ b)) (f : State → State) :
    sbpTake code b pec f s = f (sbpAck s) := by
  cases pec with
  | none => rfl
  | some q => exact if_pos (h q rfl)

/-- A Block Write of a word. -/
theorem sbpPut_word (code : Byte) (d : Word) (pec : Option Byte) (f : State → State) :
    sbpPut code (wordBytes d) pec f s = sbpTake code (4 :: toLe 4 d.toNat) pec f s := by
  have hlen : (wordBytes d).length = 4 := toLe_len ..
  rw [sbpPut, hlen]
  rfl

theorem sbpRun_waits (h : sbpServes s = false) (code : Byte) (b : List Byte) (pec : Option Byte) : sbpRun code b pec s = s :=
  if_pos (by rw [h]; rfl)

/-- What a transfer's command gives is what its execution gives. -/
theorem act_sbpRun (ht : s.boot.tstMode = false) {c : Byte} {l : List Byte} {p : Option Byte} {t u : State} (hr : sbpRun c l p s = u)
    (hu : u = t) : act s (sbpRun c l p s) = .next t := (act_next ht _).trans (congrArg _ (hr.trans hu))

theorem serves (h : sbpServes s = true) : ¬ ((!sbpServes s) = true) := by
  rw [h]
  exact Bool.false_ne_true

theorem sbpRun_info (h : sbpServes s = true) (pec : Option Byte) : sbpRun 0x01 [] pec s =
    sbpBlock 0x01 (toLe 4 0x4B4C0512 ++ toLe 4 0x03012112 ++ toLe 4 (gstatWord s).toNat) s := by
  have hid : wordBytes (wordOf s false .id) = toLe 4 0x4B4C0512 := congrArg (toLe 4) (show (0x4B4C0512 : Word).toNat = _ from rfl)
  have hversion : wordBytes (wordOf s false .version) = toLe 4 0x03012112 := congrArg (toLe 4) (show (0x03012112 : Word).toNat = _ from rfl)
  have hgstat : wordBytes (wordOf s false .gstat) = toLe 4 (gstatWord s).toNat := rfl
  have hwords : [Reg.id, .version, .gstat].flatMap (fun r => wordBytes (wordOf s false r)) =
      toLe 4 0x4B4C0512 ++ toLe 4 0x03012112 ++ toLe 4 (gstatWord s).toNat := by
    simp only [List.flatMap_cons, List.flatMap_nil, hid, hversion, hgstat, List.append_assoc, List.append_nil]
  exact (if_neg (serves h)).trans (congrArg (fun l => sbpBlock 0x01 l s) hwords)

theorem sbpRun_addr (h : sbpServes s = true) (d : Word) (pec : Option Byte) : sbpRun 0x02 (wordBytes d) pec s =
    if d.toNat < 1048576 then
      sbpTake 0x02 (4 :: toLe 4 d.toNat) pec (fun u => u.modSbp (fun x => { x with addr := d.setWidth 20 })) s
    else sbpNak s := by
  have hset : sbpSetAddr (wordBytes d) pec s = if d.toNat / 2 ^ 20 ≠ 0 then sbpNak s else
      sbpTake 0x02 (4 :: toLe 4 d.toNat) pec (fun u => u.modSbp (fun x => { x with addr := BitVec.ofNat 20 d.toNat })) s := by
    rw [sbpSetAddr, leAt_wordBytes, sbpPut_word]
  refine ((if_neg (serves h)).trans hset).trans ?_
  rw [BitVec.ofNat_toNat]
  by_cases hd : d.toNat < 1048576
  · rw [if_neg (by omega), if_pos hd]
  · rw [if_pos (by omega), if_neg hd]

theorem sbpRun_rd (h : sbpServes s = true) (pec : Option Byte) : sbpRun 0x03 [] pec s = sbpRd s := if_neg (serves h)

theorem sbpRd_closed (h : bit (s.reg .sbpCfg) 0 = false) : sbpRd s = sbpBlock 0x03 (toLe 4 0 ++ [1]) s :=
  if_neg (h ▸ Bool.false_ne_true)

theorem sbpRd_open (h : bit (s.reg .sbpCfg) 0 = true) {r : Resp} {t : State}
    (ha : coreAnswer (TpAttr.plain (bit (s.reg .sbpCfg) 2) 0) false s.sbp.addr 0 s = (r, t)) :
    sbpRd s = sbpBlock 0x03 (toLe 4 r.data.toNat ++ [r.code.setWidth 8])
      (if r.code = okay then t.modSbp (fun x => { x with addr := x.addr + 4 }) else t) := by
  rw [sbpRd, if_pos h, sbpAccess, ha]
  rfl

theorem sbpRun_wr (h : sbpServes s = true) (d : Word) (pec : Option Byte) : sbpRun 0x04 (wordBytes d) pec s =
    sbpTake 0x04 (4 :: toLe 4 d.toNat) pec (sbpWr (wordBytes d)) s := (if_neg (serves h)).trans (sbpPut_word ..)

theorem sbpWr_closed (h : bit (s.reg .sbpCfg) 1 = false) (b : List Byte) :
    sbpWr b s = s.modSbp (fun x => { x with wrResp := slverr }) := if_neg (h ▸ Bool.false_ne_true)

theorem sbpWr_open (h : bit (s.reg .sbpCfg) 1 = true) (d : Word) {r : Resp} {t : State}
    (ha : coreAnswer (TpAttr.plain (bit (s.reg .sbpCfg) 2) 0) true s.sbp.addr d s = (r, t)) :
    sbpWr (wordBytes d) s = (if r.code = okay then t.modSbp (fun x => { x with addr := x.addr + 4 }) else t).modSbp
      (fun x => { x with wrResp := r.code }) := by
  rw [sbpWr, if_pos h, leAt_wordBytes, BitVec.ofNat_toNat, BitVec.setWidth_eq, sbpAccess, ha]

theorem sbpRun_wrResp (h : sbpServes s = true) (pec : Option Byte) : sbpRun 0x05 [] pec s =
    sbpGive 0x05 [] [s.sbp.wrResp.setWidth 8] s := if_neg (serves h)

theorem sbpRun_lgHead (h : sbpServes s = true) (pec : Option Byte) : sbpRun 0x10 [] pec s =
    sbpBlock 0x10 (toLe 4 s.ledger.head.toNat ++ toLe 2 s.ledger.drop.toNat ++ toLe 2 s.ledger.supp.toNat) (lgStatClear s) := by
  have hstat : wordBytes (lgStatWord s.ledger) = toLe 2 s.ledger.drop.toNat ++ toLe 2 s.ledger.supp.toNat :=
    toLe_packW (by omega) (by omega)
  rw [List.append_assoc, ← hstat]
  exact if_neg (serves h)

theorem sbpRun_lgSeq (h : sbpServes s = true) (d : Word) (pec : Option Byte) : sbpRun 0x11 (wordBytes d) pec s =
    sbpTake 0x11 (4 :: toLe 4 d.toNat) pec (fun t => t.modSbp (fun x => { x with lgSel := d })) s := by
  refine (if_neg (serves h)).trans ((sbpPut_word ..).trans ?_)
  rw [leAt_wordBytes, BitVec.ofNat_toNat, BitVec.setWidth_eq]

theorem sbpRun_lgRead (h : sbpServes s = true) (pec : Option Byte) : sbpRun 0x12 [] pec s =
    sbpBlock 0x12 ((lgAt s.ledger s.sbp.lgSel).words.flatMap wordBytes) s := if_neg (serves h)

theorem sbpRun_tmIdx (h : sbpServes s = true) (k : Byte) (pec : Option Byte) : sbpRun 0x20 [k] pec s =
    sbpTake 0x20 [k] pec (sbpTmIdx k) s := by
  refine (if_neg (serves h)).trans (congrArg (fun i => sbpTake 0x20 [k] pec (sbpTmIdx i) s) ?_)
  exact BitVec.eq_of_toNat_eq (BitVec.toNat_ofNat _ _ |>.trans (Nat.mod_eq_of_lt k.isLt))

theorem sbpRun_tmRead (h : sbpServes s = true) (pec : Option Byte) : sbpRun 0x21 [] pec s =
    sbpBlock 0x21 (toLe 8 (sbpCounter s).toNat) s := if_neg (serves h)

/-- A code that Table 19-4 does not have. -/
theorem sbpRun_unknown (h : sbpServes s = true) {c : Byte}
    (hc : c.toNat ∉ [0x01, 0x02, 0x03, 0x04, 0x05, 0x10, 0x11, 0x12, 0x20, 0x21]) (b : List Byte) (pec : Option Byte) :
    sbpRun c b pec s = sbpNak s := by
  unfold sbpRun
  rw [if_neg (serves h)]
  split
  case h_11 => rfl
  all_goals
    rename_i hcode
    rw [hcode] at hc
    exact absurd hc (by decide)

end

/-- Settles O50: the address matcher, then the commands of Table 19-4, each through its equation of `sbpRun`. -/
theorem sidebandCommands : Obligations.SidebandCommands := by
  intro s ht b give block nack ack holds fails
  refine ⟨fun h => ⟨_, sbpAddressMatch_on ht h, fun hon hr _ _ _ => sbpAddressMatch_hands hon hr, sbpAddressMatch_stretches⟩,
    sbpAddressMatch_off ht, fun h => (sbpStretchTimeout_eq ht).trans (congrArg _ (if_pos h)),
    fun h => (sbpStretchTimeout_eq ht).trans (congrArg _ (if_neg (h ▸ Bool.false_ne_true))), act_next ht _, act_next ht _,
    fun h => ?waits, fun h => ⟨?info, fun d p => ?addr, fun he => ?rdClosed, fun he r t ha => ?rdOpen, fun d p => ?wr, ?wrResp,
      ?lgHead, fun d p => ?lgSeq, ?lgRead, fun k p => ?tmIdx, ?tmRead, fun c l p hc => sbpRun_unknown h hc l p⟩⟩
  case waits =>
    have stay (c : Byte) (l : List Byte) (p : Option Byte) : act s (sbpRun c l p s) = .next s := act_sbpRun ht (sbpRun_waits h c l p) rfl
    exact ⟨stay .., stay .., stay .., stay .., stay .., stay .., fun d k p => ⟨stay .., stay .., stay .., stay ..⟩⟩
  case info => exact act_sbpRun ht (sbpRun_info h none) rfl
  case addr =>
    refine ⟨fun hd => act_sbpRun ht (sbpRun_addr h d p) (if_neg (by omega)), fun hd => ⟨fun hp => ?_, fun hp => ?_⟩⟩
    · exact act_sbpRun ht (sbpRun_addr h d p) ((if_pos hd).trans (sbpTake_fails hp _))
    · exact act_sbpRun ht (sbpRun_addr h d p) ((if_pos hd).trans (sbpTake_holds hp _))
  case rdClosed => exact act_sbpRun ht (sbpRun_rd h none) (sbpRd_closed he)
  case rdOpen => exact act_sbpRun ht (sbpRun_rd h none) (sbpRd_open he ha)
  case wr =>
    refine ⟨fun hp => act_sbpRun ht (sbpRun_wr h d p) (sbpTake_fails hp _), fun hp => ⟨fun he => ?_, fun he r t ha => ?_⟩⟩
    · exact act_sbpRun ht (sbpRun_wr h d p) ((sbpTake_holds hp _).trans (sbpWr_closed (s := sbpAck s) he _))
    · exact act_sbpRun ht (sbpRun_wr h d p) ((sbpTake_holds hp _).trans (sbpWr_open (s := sbpAck s) he d ha))
  case wrResp => exact act_sbpRun ht (sbpRun_wrResp h none) rfl
  case lgHead => exact act_sbpRun ht (sbpRun_lgHead h none) rfl
  case lgSeq =>
    exact ⟨fun hp => act_sbpRun ht (sbpRun_lgSeq h d p) (sbpTake_fails hp _),
      fun hp => act_sbpRun ht (sbpRun_lgSeq h d p) (sbpTake_holds hp _)⟩
  case lgRead => exact act_sbpRun ht (sbpRun_lgRead h none) (congrArg (fun l => sbpBlock 0x12 l s) (recordBytes _))
  case tmIdx =>
    refine ⟨fun hp => act_sbpRun ht (sbpRun_tmIdx h k p) (sbpTake_fails hp _), fun hp => ⟨fun hk => ?_, fun hk => ?_⟩⟩
    · exact act_sbpRun ht (sbpRun_tmIdx h k p) ((sbpTake_holds hp _).trans (if_pos hk))
    · exact ⟨_, act_sbpRun ht (sbpRun_tmIdx h k p) ((sbpTake_holds hp _).trans (if_neg (by omega))), rfl, rfl⟩
  case tmRead => exact act_sbpRun ht (sbpRun_tmRead h none) rfl

end Sys2Proof.Machine
end
